-- ==== Sys2Proof/Word.lean ====
section
/-!
DEFINITION. The widths the chapters count in: an octet and the 64-bit register word of R5.
-/

namespace Sys2Proof

/-- One octet. -/
abbrev Byte := BitVec 8

/-- One register or memory word of 64 bits (R5). -/
abbrev Word := BitVec 64

end Sys2Proof
end

