-- ==== Sys2Proof/Syntax.lean ====
section
/-!
DEFINITION. The commands of the block: one constructor per row of spec/opcode_table.json. The table gives its rows
no operands; the operands here are what the rules say the step depends on. Outcomes that come from the air, a card,
a board or a cryptographic function stand as operands.
-/

namespace Sys2Proof

/-- Who makes a bus access (R602, R605, R606, R666). -/
inductive Init where
  | core (n : Fin 4)
  | sheepdog
  | pcie
  | jtag
  deriving DecidableEq, Repr

/-- Output pins that the chapters name. -/
inductive Pin where
  | safeN
  | mainPwrEn
  | ppsOut
  | mesh (n : Nat)
  | gpio (n : Nat)
  deriving DecidableEq, Repr

/-- A detection as a preamble detector declares it (R150): where, in which mode, how strong, and when. -/
structure Detect where
  fe : Fin 3
  bin : Nat
  mode : Nat
  /-- Normalised correlation in 1/256, and the raw correlation of R154, in any unit. -/
  corr : Nat
  raw : Nat
  /-- The frequency hypothesis of the peak, in Hz off the carrier. -/
  freqOfs : Int
  /-- Mean bin power over the correlated symbols at the device's pin, in 0.25 dBm. -/
  power : Int
  /-- TIME_NS of the frame's first chip at the antenna port (R735). -/
  timing : Nat
  deriving DecidableEq, Repr

/-- The mean power of a bin over the 1 ms window that ends (R748): front end, bin, and power at the device's pin in 0.25 dBm. -/
structure BinPower where
  fe : Fin 3
  bin : Nat
  power : Int
  deriving DecidableEq, Repr

/-- A complex number, real and imaginary part. -/
structure Cplx where
  re : Rat
  im : Rat
  deriving DecidableEq, Repr

/-- One update of an equaliser (R162): the error, and the inputs of its 8 feed-forward and 4 feedback taps. -/
structure EqStep where
  e : Cplx
  ff : List Cplx
  fb : List Cplx
  deriving DecidableEq, Repr

/-- What a lane measures over a frame (R166): the frequency offset in 50 Hz and the mean power at the device's pin in 0.25 dBm
over the AFC symbols, the equaliser's signal-to-noise ratio over the sync word in 1/256 dB, and the TIME_NS at which the first
chip of the sync word stood at the lane's input. -/
structure LaneMeasure where
  afc : Int
  power : Int
  snr : Int
  syncAt : Nat
  deriving DecidableEq, Repr

/-- What a lane's demodulator reads of a PHY header (R189, R208, R209). -/
inductive PhyHeader where
  /-- The 128 soft values of a Fostaic header, in order of transmission; a positive one favours 0. -/
  | fostaic (soft : List Int)
  /-- A SUN PHR: MDSSS indicated, RateMode, a two-octet FCS indicated, PSDU octets. -/
  | sun (mdsss : Bool) (rate : Fin 4) (fcs2 : Bool) (len : Nat)
  /-- The 7-bit PHR at 2.4 GHz. -/
  | oqpsk (len : Nat)
  deriving DecidableEq, Repr

/-- What reaches a payload decoder: the soft values of a codeword's transmitted bits in order (R165), or the PSDU octets of an
IEEE 802.15.4 mode, for which the lane makes hard decisions (R208, R209). -/
inductive CodewordIn where
  | soft (l : List Int)
  | octets (l : List Byte)
  deriving DecidableEq, Repr

/-- The strongest detection in a canceller's residual (R226), as its demodulation chain delivers it: its measurements with the
sync timestamp on the antenna time scale, the sync word, the header and the soft values of each codeword. -/
structure LayerFrame where
  mode : Nat
  m : LaneMeasure
  sync : Nat
  header : List Int
  soft : List (List Int)
  deriving DecidableEq, Repr

/-- What a canceller finds when it works a layer (R226, R227). -/
inductive LayerIn where
  /-- No detection remains in the residual. -/
  | nothing
  | found (f : LayerFrame)
  /-- An uncorrectable LP4X read on the context. -/
  | uncorrectable
  deriving DecidableEq, Repr

/-- The Prebry flood header (R275). -/
structure Flood where
  seed : Nat
  seq : Nat
  hops : Nat
  deriving DecidableEq, Repr

/-- What the check bits of a protected word say (R392). -/
inductive Ecc where
  | ok
  | corrected
  | uncorrectable
  deriving DecidableEq, Repr

/-- What the check bits of the LP4X words of a dequeue tell (R388): nothing, corrected words, or an uncorrectable word of the packet
or of a link. -/
inductive MemErr where
  | none
  | corrected (words : Nat)
  | packet
  | link
  deriving DecidableEq, Repr

/-- What accompanies the verdict on a received frame: the packet's service class, which no rule derives, and the check bits of its
words in RX_DELIVER. -/
structure Verdict where
  cls : Fin 8
  ecc : Ecc := .ok
  deriving DecidableEq, Repr

/-- A herd frame by its fields (R484). -/
structure HerdFrame where
  type : Nat
  dst : Nat
  src : Nat
  hops : Nat
  flags : Nat
  aux : Nat := 0
  arg : Nat := 0
  payload : List Byte := []
  deriving DecidableEq, Repr


/-- Why OUTAGE sleep ends (R687). -/
inductive WakeCause where
  | lamb (pat : Fin 4)
  | rtc
  | card
  | mains
  | tamper
  deriving DecidableEq, Repr

/-- A Type A tag in the field (R565): its UID of 4, 7 or 10 octets, its ATQA and SAK, and whether it stands in HALT. -/
structure TagA where
  uid : List Byte
  atqa : Nat
  sak : Nat
  halted : Bool := false
  deriving DecidableEq, Repr

/-- A response that the reader hears (R563): its bits with parity bits and CRC, the place of its first collided bit, and whether
it is out of form (R558). -/
structure NfcAnswer where
  bits : List Bool
  collision : Option Nat := none
  framing : Bool := false
  deriving DecidableEq, Repr

/-- An ISO/IEC 15693 tag in the field (R567): its UID as the number whose bit 0 is sent first, its DSFID and AFI. -/
structure TagV where
  uid : Nat
  dsfid : Nat
  afi : Nat
  deriving DecidableEq, Repr

/-- Where a bus access goes: a physical address, or a word of the JTAG message buffer (R22, R719). -/
inductive BusAddr where
  | phys (a : BitVec 40)
  | jtagBuf (w : Fin 256)
  deriving DecidableEq, Repr

/-- The BARs of the PCIe endpoint (R479). -/
inductive PcieBar where
  | bar0
  | bar2
  deriving DecidableEq, Repr

/-- A PCIe request (R481): one access of 2^`bytes` octets, or aligned 64-bit accesses in ascending address order. -/
inductive PcieOp where
  | read (bytes : Fin 4)
  | write (bytes : Fin 4) (value : Word)
  | readWords (n : Nat)
  | writeWords (values : List Word)
  deriving DecidableEq, Repr

/-- What a phase of R80 yields. -/
inductive CalResult where
  /-- Phase A: the KINDs 1 to 3 that failed, per front end as (front end, KIND). -/
  | phaseA (failed : List (Nat × Nat))
  /-- Phase B: transmit-table entries that failed, the reader's tuning code with its baseline, and the Lamb threshold. -/
  | phaseB (failed : List (Nat × Nat)) (tune : Option Nat) (amp phase : Int) (lamb : Option Nat)
  /-- Phase C: FE0 and FE1 chains whose DPD training failed. -/
  | phaseC (failed : List Nat)
  /-- Phase D: lanes whose injection failed. -/
  | phaseD (failed : List Nat)
  deriving DecidableEq, Repr

/-- The commands: one constructor per row of the table. `dt` is the DSP_CLK ticks since the command before. -/
inductive Instr where
  /-- REGISTER_WRITE (R8): A write to a control register that has no row of its own takes effect under the access, lock and width rules. -/
  | registerWrite (dt : Nat) (init : Init) (addr : BusAddr) (bytes : Fin 4) (value : Word) (bridge : Ecc)
  /-- RC_FIELD_READ (R738): A read of a register holding RC fields returns them and clears those it returns whole. -/
  | rcFieldRead (dt : Nat) (init : Init) (addr : BusAddr) (bytes : Fin 4) (bridge : Ecc)
  /-- BLOCK_LOCK (R14): A write of 1 to a block's LOCK bit makes its RWL fields read-only until a reset of its domain. -/
  | blockLock (dt : Nat) (init : Init) (block : Fin 26) (value : Word)
  /-- AON_SHADOW_SYNC (R31): A write to a GOOSE or LAMB shadow register takes effect in the always-on domain within three AON_CLK cycles. -/
  | aonShadowSync (dt : Nat)
  /-- SYS_EVENT_HEAD_POP (R46): A 64-bit read of SYS_EVENT_HEAD pops the oldest event record and latches its time word. -/
  | sysEventHeadPop (dt : Nat) (ecc : Ecc)
  /-- COLD_POWER_ON (R49): Power-good inputs assert while the AON domain is unpowered and every domain resets. -/
  | coldPowerOn (dt : Nat)
  /-- MAIN_POWER_ON (R49): Power-good inputs assert while the AON domain runs from VBAT and all but the AON domain reset. -/
  | mainPowerOn (dt : Nat)
  /-- BROWN_OUT (R707): The brown-out detector trips on a main rail and starts a reset. -/
  | brownOut (dt : Nat)
  /-- SYSTEM_RESET (R53): A keyed write of SYS_RESET_CTRL with TYPE 1 requests a system reset. -/
  | systemReset (dt : Nat) (value : Word)
  /-- CORE_RESET (R51): A keyed write of SYS_RESET_CTRL with TYPE 2 resets the application cores and L2 only. -/
  | coreReset (dt : Nat) (value : Word)
  /-- JTAG_SYSTEM_RESET (R49): A system reset requested through JTAG. -/
  | jtagSystemReset (dt : Nat)
  /-- REFCLK_QUALIFIED (R56): REFCLK lies within ±150 ppm and every PLL locks, ending AON_ONLY. -/
  | refclkQualified (dt : Nat)
  /-- BOOT_ROM_DONE (R54): The boot ROM, Sheepdog self-test, LP4X training and BOOT_HDR read complete or end the start in SAFE. -/
  | bootRomDone (dt : Nat) (selfTest : Option (Fin 3)) (trained : Bool) (gib : Fin 4) (herdId : Fin 8)
  /-- LIFE_CYCLE_READ_DONE (R60): OTP sensing ends and the start halts in BLANK or END, enters TAMPER_HOLD, or continues. -/
  | lifeCycleReadDone (dt : Nat)
  /-- IMAGE_VERIFY_DONE (R71): The Neles image is selected, parsed and verified, choosing CONFIG_STAGED or CONFIG. -/
  | imageVerifyDone (dt : Nat)
  /-- SWAP_PHASE_DONE (R628): One phase of a block exchange between ACTIVE and STAGING completes and the next phase or block begins. -/
  | swapPhaseDone (dt : Nat) (verifyOk : Bool)
  /-- MIGRATION_ECALL (R635): The migration routine ends with ECALL and the device checks and records the new settings record. -/
  | migrationEcall (dt : Nat) (a0 : Word)
  /-- MIGRATION_TIMEOUT (R635): MIG_TIMEOUT_S passes without ECALL and the update reverts. -/
  | migrationTimeout (dt : Nat)
  /-- ADMIT_DONE (R73): Admission checks finish and either load the tables or refuse the image. -/
  | admitDone (dt : Nat)
  /-- CALIBRATE_PHASE_DONE (R80): A start-up calibration phase ends and the next begins, or CALIBRATE ends. -/
  | calibratePhaseDone (dt : Nat) (r : CalResult)
  /-- SAU_GO (R86): A write of GO to MAC_SAU_CTRL starts a check of a schedule change list. -/
  | sauGo (dt : Nat) (value : Word)
  /-- SAU_CANCEL (R90): A write of CANCEL drops a pending accepted list before its ACT_ASN. -/
  | sauCancel (dt : Nat) (value : Word)
  /-- SAU_CHECK_DONE (R86): The schedule admission unit finishes checking a list and accepts or refuses it. -/
  | sauCheckDone (dt : Nat)
  /-- AGC_STEP_DOWN (R95): Clipping ADC samples make the front end's gain step down 12 dB. -/
  | agcStepDown (dt : Nat) (fe : Fin 3) (clipped : Nat) (peak : Int)
  /-- AGC_STEP_UP (R95): After UP_WAIT of low signal the front end's gain steps up 12 dB. -/
  | agcStepUp (dt : Nat) (fe : Fin 3) (quietMs : Nat) (peak : Int)
  /-- TXCAL_TEMP_CHECK (R99): Every 10 ms each transmit-table entry's TCAL is compared with the die temperature and may become STALE. -/
  | txcalTempCheck (dt : Nat) (fe : Fin 3) (die : Int)
  /-- BG_CAL_START (R102): A background calibration of a transmit-table entry starts once the chain meets the idle conditions. -/
  | bgCalStart (dt : Nat) (fe : Fin 3)
  /-- TX_CAL_DONE (R100): A transmit-entry calibration completes and the entry becomes VALID, or stays INVALID on failure. -/
  | txCalDone (dt : Nat) (fe : Fin 3) (ok : Bool)
  /-- EMISSION_COMMIT (R251): An acknowledgement, beacon or data emission commits to its chain at its commit point. -/
  | emissionCommit (dt : Nat) (fe : Fin 3) (e2eOk : Bool)
  /-- TX_HOP_START (R104): The transmit synthesiser starts its hop at the latest permitted moment. -/
  | txHopStart (dt : Nat) (fe : Fin 3)
  /-- TX_LOCK (R101): The transmit synthesiser locks and the entry's calibration is stored. -/
  | txLock (dt : Nat) (fe : Fin 3)
  /-- EMISSION_START (R105): The first chip leaves at the later of the nominal instant and lock. -/
  | emissionStart (dt : Nat) (fe : Fin 3)
  /-- TX_DEADLINE (R106): The deadline passes without lock and the emission is abandoned. -/
  | txDeadline (dt : Nat) (fe : Fin 3)
  /-- LOCK_LOST (R108): The lock detector drops during an emission, the PA ramps down and the frame is abandoned. -/
  | lockLost (dt : Nat) (fe : Fin 3)
  /-- EMISSION_END (R123): The last chip of an emission leaves and the chain becomes free after its lag. -/
  | emissionEnd (dt : Nat) (fe : Fin 3)
  /-- BLANKING_START (R124): A front end's receiver is blanked and frames in progress are abandoned. -/
  | blankingStart (dt : Nat) (fe emitter : Fin 3)
  /-- BLANKING_END (R123): Blanking ends 15 µs after the last chip and detectors resume. -/
  | blankingEnd (dt : Nat) (fe emitter : Fin 3)
  /-- MASK_WINDOW (R121): Each 100 µs of emission the mask monitor evaluates its segments and acts by MASK_ACT. -/
  | maskWindow (dt : Nat) (fe : Fin 3) (above : List (Nat × Nat))
  /-- MASK_RESUME (R122): A write of RESUME clears mask backoff and STOP. -/
  | maskResume (dt : Nat) (fe : Fin 3)
  /-- CAL_REQ_ADC (R139): A calibration request of KIND 1 recalibrates ADC offset and gain. -/
  | calReqAdc (dt : Nat) (fe : Fin 3)
  /-- CAL_REQ_IQ (R139): A calibration request of KIND 2 recalibrates IQ imbalance. -/
  | calReqIq (dt : Nat) (fe : Fin 3)
  /-- CAL_REQ_LO_LEAKAGE (R139): A calibration request of KIND 3 recalibrates LO leakage. -/
  | calReqLoLeakage (dt : Nat) (fe : Fin 3)
  /-- CAL_REQ_TX_ENTRY (R139): A calibration request of KIND 4 queues one transmit-table entry, or is refused under R740. -/
  | calReqTxEntry (dt : Nat) (fe : Fin 3) (entry : Nat)
  /-- CAL_REQ_TX_TABLE (R139): A calibration request of KIND 5 queues every used transmit-table entry. -/
  | calReqTxTable (dt : Nat) (fe : Fin 3)
  /-- CAL_REQ_DPD (R139): A calibration request of KIND 6 resets and rebuilds DPD tracking. -/
  | calReqDpd (dt : Nat) (fe : Fin 3)
  /-- REQ_CAL_DONE (R140): A requested calibration ends, setting DONE and on failure FAIL. -/
  | reqCalDone (dt : Nat) (fe : Fin 3) (ok : Bool)
  /-- DETECTION (R150): A preamble detector declares a detection and the detection is served a lane or missed. -/
  | detection (dt : Nat) (ds : List Detect)
  /-- RSV_WINDOW_END (R153): A receive window ends and an unclaimed or pending reservation is released or dropped. -/
  | rsvWindowEnd (dt : Nat) (cell : Nat)
  /-- PENDING_RESERVATION_SERVED (R153): A pending reservation takes the first enabled lane that becomes free. -/
  | pendingReservationServed (dt : Nat)
  /-- SYNC_FOUND (R163): A lane finds the sync word and moves to HEADER. -/
  | syncFound (dt : Nat) (lane : Nat) (sync : Nat) (m : LaneMeasure) (steps : List EqStep)
  /-- ACQUIRE_END (R157): Sixteen preamble symbols pass without sync and the lane enters SYNC_SEARCH. -/
  | acquireEnd (dt : Nat) (lane : Nat) (afc power : Int) (steps : List EqStep)
  /-- SYNC_TIMEOUT (R157): SYNC_WAIT symbols pass without sync and the lane returns to FREE. -/
  | syncTimeout (dt : Nat) (lane : Nat)
  /-- HEADER_DECODED (R192): The lane decodes the PHY header and accepts it or ends in HDR_FAIL. -/
  | headerDecoded (dt : Nat) (lane : Nat) (h : PhyHeader) (steps : List EqStep)
  /-- LANE_PAYLOAD_END (R157): The last soft bit reaches Ox and the lane returns to FREE. -/
  | lanePayloadEnd (dt : Nat) (lane : Nat)
  /-- CODEWORD_DECODED (R205): A codeword's decoding stops at zero syndrome or the iteration cap. -/
  | codewordDecoded (dt : Nat) (lane : Nat) (cw : CodewordIn)
  /-- LANE_INJECT_START (R158): The Sheepdog's known-frame injection takes a free enabled lane. -/
  | laneInjectStart (dt : Nat)
  /-- LANE_INJECT_END (R157): An injection ends and the lane returns to FREE or is excluded. -/
  | laneInjectEnd (dt : Nat) (lane : Nat) (ok : Bool)
  /-- OCC_SAMPLE (R170): Lane occupancy is sampled at each 1 ms boundary and STORM entry or exit is decided. -/
  | occSample (dt : Nat) (powers : List BinPower)
  /-- HEAR_CTRL_WRITE (R173): A write of CHAN_HEAR_CTRL changes BASE, AUTO_STORM or FORCE_STORM. -/
  | hearCtrlWrite (dt : Nat) (value : Word)
  /-- CONTEXT_CLOSE (R223): A RECORDING context closes at 64 ms or CLOSE_GAP after its last frame and is queued. -/
  | contextClose (dt : Nat) (ctx : Fin 32) (samples : List (BitVec 16 × BitVec 16))
  /-- CANCELLER_TAKE (R225): A free canceller takes the oldest QUEUED context. -/
  | cancellerTake (dt : Nat)
  /-- CANCEL_LAYER_DONE (R226): A cancellation layer ends, delivering a recovered frame or ending the context. -/
  | cancelLayerDone (dt : Nat) (ctx : Fin 32) (e : LayerIn)
  /-- TIMESLOT_BOUNDARY (R249): At a timeslot boundary the MAC reserves lanes and builds each front end's emissions from released packets. -/
  | timeslotBoundary (dt : Nat) (errs : List (Nat × MemErr)) (txReq : List (Nat × Ecc))
  /-- TSCH_START (R239): TSCH operation starts at the first boundary after the first time step is taken or waived. -/
  | tschStart (dt : Nat)
  /-- CCA_DONE (R252): Clear-channel assessment of a shared cell ends busy or free. -/
  | ccaDone (dt : Nat) (fe : Fin 3) (bin : Nat) (peak peak2 : Int)
  /-- LBT_LISTEN_END (R255): A free-run listen ends and the emission proceeds, backs off or is dropped. -/
  | lbtListenEnd (dt : Nat) (fr : Fin 4) (peak : Int)
  /-- ACK_WAIT_END (R267): The acknowledgement window of a unicast emission ends without an acknowledgement, failing the attempt. -/
  | ackWaitEnd (dt : Nat) (fe : Fin 3) (record : Nat)
  /-- TSRC_BEACON_MISS (R273): PERIOD × 1.1 passes without a beacon from the time source. -/
  | tsrcBeaconMiss (dt : Nat)
  /-- HOLDOVER_WAIT_EXPIRY (R451): HOLDOVER_WAIT passes and a new source or class is selected. -/
  | holdoverWaitExpiry (dt : Nat)
  /-- SEEN_CACHE_VISIT (R278): The sweep of the seen cache clears entries whose LIFE has passed. -/
  | seenCacheVisit (dt : Nat)
  /-- FLOOD_WINDOW (R280): A 20 ms window opens and one waiting own flood is enqueued with the next SEQ. -/
  | floodWindow (dt : Nat)
  /-- WAKE_REQUEST (R283): A write of GO to MAC_WAKE_REQ requests a wake-up pattern, refused on a bad address or channel. -/
  | wakeRequest (dt : Nat) (value : Word)
  /-- WAKE_ADMIT (R284): The duty shaper admits a waiting wake-up pattern and its listen begins. -/
  | wakeAdmit (dt : Nat)
  /-- RECORD_FETCH_DONE (R33): A node record fetched for an uplink frame or downlink packet arrives and the path continues. -/
  | recordFetchDone (dt : Nat) (id : Nat) (cls : Fin 8) (crossing : Ecc)
  /-- KEY_UNWRAP_DONE (R300): An unwrap of a node key completes and its waiting frames proceed. -/
  | keyUnwrapDone (dt : Nat) (record : Nat)
  /-- CCM_JOB_START (R295): A free CCM* engine starts the highest-priority waiting job. -/
  | ccmJobStart (dt : Nat) (engine : Fin 8)
  /-- CCM_JOB_DONE (R294): A CCM* job ends and a received frame gets its verdict at step 9, or a frame is encrypted. -/
  | ccmJobDone (dt : Nat) (engine : Fin 8) (v : Verdict)
  /-- GK_LOAD (R308): CRYPTO_GK_CMD OP LOAD unwraps a group key into a slot. -/
  | gkLoad (dt : Nat) (value : Word)
  /-- GK_CLEAR (R307): CRYPTO_GK_CMD OP CLEAR empties a group-key slot. -/
  | gkClear (dt : Nat) (value : Word)
  /-- GK_SET_TX (R307): CRYPTO_GK_CMD OP SET_TX makes a slot TX_ACTIVE in place of the one it replaces. -/
  | gkSetTx (dt : Nat) (value : Word)
  /-- KEY_CACHE_FLUSH (R299): A write of FLUSH invalidates every key-cache entry. -/
  | keyCacheFlush (dt : Nat) (value : Word)
  /-- HASH_KEY_WRITE (R316): A write of FWD_HASH_KEY computes the key's two buckets. -/
  | hashKeyWrite (dt : Nat) (value : Word)
  /-- MULE_GO (R334): A write of GO starts the Mule on a descriptor list. -/
  | muleGo (dt : Nat) (value : Word)
  /-- MULE_FETCH_BLOCK (R334): A block of eight descriptors arrives in the Mule's buffer. -/
  | muleFetchBlock (dt : Nat) (bad : List Nat)
  /-- READ_BUCKET (R334): A descriptor copies one bucket to LP4X. -/
  | readBucket (dt : Nat)
  /-- WRITE_BUCKET (R339): A descriptor writes selected slots of a locked bucket. -/
  | writeBucket (dt : Nat)
  /-- LOCK_PAIR (R336): A descriptor checks its lock group and locks two buckets. -/
  | lockPair (dt : Nat)
  /-- RELOCATE (R339): A descriptor moves a slot to its key's bucket in the other way. -/
  | relocate (dt : Nat)
  /-- UNLOCK (R336): A descriptor unlocks its group's buckets. -/
  | unlock (dt : Nat)
  /-- WRITE_SHORT (R320): A descriptor writes a short-address entry. -/
  | writeShort (dt : Nat)
  /-- WRITE_RECORD (R325): A descriptor writes a quarter of a node record. -/
  | writeRecord (dt : Nat) (memErr : Bool)
  /-- TRIE_NODE (R360): A descriptor copies a 1 KiB node image into a trie stage. -/
  | trieNode (dt : Nat) (memErr : Bool)
  /-- TRIE_ENTRY (R361): A descriptor writes one trie entry. -/
  | trieEntry (dt : Nat)
  /-- TRIE_FILL (R360): A descriptor fills a range of stage-0 entries. -/
  | trieFill (dt : Nat)
  /-- TRIE_RESULT (R361): A descriptor writes one result word. -/
  | trieResult (dt : Nat)
  /-- MULE_LOCK_MAX (R340): LOCK_MAX expires in a lock group, breaking the locks and abandoning the list. -/
  | muleLockMax (dt : Nat)
  /-- FWD_MULE_DONE_POP (R739): A 64-bit read of FWD_MULE_DONE pops one completion word. -/
  | fwdMuleDonePop (dt : Nat) (ecc : Ecc)
  /-- SWEEP_VISIT (R345): The sweeper visits a bucket, aging or removing its slots. -/
  | sweepVisit (dt : Nat)
  /-- SWEEP_CTRL_WRITE (R737): A write of FWD_IDX_CTRL changes SWEEP_EN or SWEEP_PERIOD and restarts the grid. -/
  | sweepCtrlWrite (dt : Nat) (value : Word)
  /-- FWD_LEARN_WORD_POP (R739): A 64-bit read of FWD_LEARN_WORD pops one learn-event word. -/
  | fwdLearnWordPop (dt : Nat) (ecc : Ecc)
  /-- TRIE_TEST_LOOKUP (R378): A write of FWD_TRIE_TEST_KEY issues one test lookup. -/
  | trieTestLookup (dt : Nat) (value : Word)
  /-- CELL_RECLAIM (R388): The pool scan reclaims the cells of a queue emptied by a broken link. -/
  | cellReclaim (dt : Nat)
  /-- FIFO_DROP_REST (R394): A write of QMGR_FIFO_DROP discards the rest of a packet being read. -/
  | fifoDropRest (dt : Nat) (value : Word)
  /-- MBOX_RX_MOVE (R397): QMGR moves a core-bound packet into MBOX_RX once it has room. -/
  | mboxRxMove (dt : Nat) (core : Fin 4) (err : MemErr)
  /-- MBOX_RX_POP (R739): A 64-bit read of QMGR_MBOX_RX_DATA pops one mailbox word. -/
  | mboxRxPop (dt : Nat) (n : Fin 4) (ecc : Ecc)
  /-- MBOX_TX_PUSH (R398): A write of QMGR_MBOX_TX_DATA pushes one word. -/
  | mboxTxPush (dt : Nat) (n : Fin 4) (value : Word)
  /-- MBOX_TX_LAST (R399): A write of QMGR_MBOX_TX_LAST pushes the EOP word and the packet is checked. -/
  | mboxTxLast (dt : Nat) (n : Fin 4) (value : Word) (poison : Bool)
  /-- WIRED_RELEASE (R404): A wired port's MAC has room and the scheduler releases a frame to it. -/
  | wiredRelease (dt : Nat) (port : Fin 4) (err : MemErr) (crossing : Ecc)
  /-- WHEEL_DUE (R415): A bucket's timing-wheel entry comes due and it becomes eligible. -/
  | wheelDue (dt : Nat) (bucket : Nat)
  /-- DUTY_SECOND (R417): At each whole second a duty bucket clears and HOLD may fall. -/
  | dutySecond (dt : Nat)
  /-- POLICER_CFG_WRITE (R423): A write of a policer register refills its buckets. -/
  | policerCfgWrite (dt : Nat) (reg : Fin 3) (value : Word)
  /-- ALARM_FIRE (R445): An armed alarm reaches its target and sets FIRED. -/
  | alarmFire (dt : Nat) (n : Fin 16)
  /-- TIME_STEP_REQUEST (R439): A write of TIME_STEP requests the single step. -/
  | timeStepRequest (dt : Nat) (value : Word)
  /-- TIME_WAIVE (R441): A write of WAIVE sets STEP_USED without a step. -/
  | timeWaive (dt : Nat)
  /-- SLEW_DONE (R443): SLEW_REM reaches zero and INC applies again. -/
  | slewDone (dt : Nat)
  /-- PTP_SAMPLE (R453): A write of TIME_OFS_IN gives a sample that the servo processes. -/
  | ptpSample (dt : Nat) (theta : Word)
  /-- PTP_TIMEOUT (R449): PTP_TIMEOUT passes without a sample and PTP is disqualified. -/
  | ptpTimeout (dt : Nat)
  /-- SOURCE_REVERT (R450): A higher-priority class qualified for REVERT_S seconds replaces the selected one. -/
  | sourceRevert (dt : Nat)
  /-- PPS_EDGE (R455): A rising 1PPS edge is timestamped and accepted or ignored. -/
  | ppsEdge (dt : Nat)
  /-- PPS_MISS (R455): An expected 1PPS edge does not arrive within its window. -/
  | ppsMiss (dt : Nat)
  /-- PPS_OUT_RISE (R457): The 1PPS output rises at each second plus OUT_OFS. -/
  | ppsOutRise (dt : Nat)
  /-- PPS_OUT_FALL (R457): The 1PPS output falls after OUT_WIDTH. -/
  | ppsOutFall (dt : Nat)
  /-- TIME_TS_WORD_POP (R460): A 64-bit read of TIME_TS_WORD pops one timestamp word. -/
  | timeTsWordPop (dt : Nat)
  /-- ETH_FRAME_RECEIVE (R473): A frame arrives on ETH0 or ETH1 and is filtered and handled by destination and EtherType. -/
  | ethFrameReceive (dt : Nat) (port : Fin 2) (octets : List Byte) (fcsOk : Bool) (cls : Fin 8) (crossing : Ecc)
  /-- PRP_ENTRY_EXPIRE (R475): A discard-table entry's PRP_LIFE ends. -/
  | prpEntryExpire (dt : Nat)
  /-- ETH_LINK_CHANGE (R499): An ETH port's link goes up or down. -/
  | ethLinkChange (dt : Nat) (port : Fin 3) (up : Bool)
  /-- MGMT_FRAME_RECEIVE (R476): A frame arrives on MGMT and goes to the DEFAULT_CORE mailbox. -/
  | mgmtFrameReceive (dt : Nat) (octets : List Byte) (cls : Fin 8) (crossing : Ecc)
  /-- MGMT_TX_PUSH (R478): A write of ETH_MGMT_TX_DATA pushes a word of a MGMT frame. -/
  | mgmtTxPush (dt : Nat) (value : Word)
  /-- MGMT_TX_LAST (R478): A write of ETH_MGMT_TX_LAST ends a MGMT frame for sending. -/
  | mgmtTxLast (dt : Nat) (value : Word)
  /-- MDIO_GO (R478): A write of GO to ETH_MDIO starts a Clause 22 frame. -/
  | mdioGo (dt : Nat) (value : Word)
  /-- MDIO_DONE (R478): A Clause 22 frame completes and BUSY clears. -/
  | mdioDone (dt : Nat) (data : BitVec 16)
  /-- PCIE_LINK_TRAIN (R479): The PCIe endpoint trains its link. -/
  | pcieLinkTrain (dt : Nat) (lanes speed : Nat) (msi : Bool)
  /-- PCIE_REQUEST (R481): A PCIe request is split into 64-bit accesses and completed. -/
  | pcieRequest (dt : Nat) (bar : PcieBar) (ofs : Nat) (req : PcieOp) (bridge : Ecc)
  /-- MSI_REQUEST (R482): A write of GO to PCIE_MSI_REQ sends the MSI. -/
  | msiRequest (dt : Nat) (value : Word)
  /-- HERD_FRAME_RECEIVE (R485): A herd frame arrives and is consumed, forwarded or dropped. -/
  | herdFrameReceive (dt : Nat) (port : Fin 2) (f : HerdFrame) (crcOk : Bool) (residence : Nat) (crossing : Ecc)
  /-- HELLO_TX (R487): Each Herd port sends a HELLO every 1 ms. -/
  | helloTx (dt : Nat) (port : Fin 2)
  /-- HELLO_TIMEOUT (R487): Three HELLOs are missed and the port goes down. -/
  | helloTimeout (dt : Nat) (port : Fin 2)
  /-- HERD_PCS_LOSS (R487): The PCS loses block lock or alignment for 10 µs and the port goes down. -/
  | herdPcsLoss (dt : Nat) (port : Fin 2)
  /-- HERD_FULL_COPY (R490): A member becoming reachable makes the master send the full trie copy. -/
  | herdFullCopy (dt : Nat) (member : Fin 8)
  /-- HERD_COPY_DONE (R490): The full copy completes and REPL_SYNC sets. -/
  | herdCopyDone (dt : Nat) (words : List (Nat × Nat)) (hops : List Word)
  /-- HERD_TIME_TX (R491): The master sends a TIME frame every 10 ms. -/
  | herdTimeTx (dt : Nat)
  /-- HERD_DELAY_EXCHANGE (R491): Each port measures its link delay once a second. -/
  | herdDelayExchange (dt : Nat) (port : Fin 2) (t1 t2 t3 t4 : Int)
  /-- HERD_TIME_DIR_SWITCH (R491): After 30 ms without a TIME frame the member switches direction. -/
  | herdTimeDirSwitch (dt : Nat)
  /-- LEASE_FRAME_RECEIVE (R501): A lease frame arrives and is validated and acted on. -/
  | leaseFrameReceive (dt : Nat) (port : Fin 2) (payload : List Byte)
  /-- LEASE_RENEW_TX (R503): The holder sends a RENEW every RENEW_MS. -/
  | leaseRenewTx (dt : Nat)
  /-- LEASE_EXPIRE (R504): The holder reaches LEASE_MS − DRIFT_GUARD_MS since its last renewal and stops holding. -/
  | leaseExpire (dt : Nat)
  /-- LEASE_CLAIM (R505): A standby claims the lease after LEASE_MS + DRIFT_GUARD_MS. -/
  | leaseClaim (dt : Nat)
  /-- DRILL (R514): A write of DRILL starts a drill on the holder. -/
  | drill (dt : Nat) (value : Word)
  /-- DRILL_HOUR (R514): A scheduled drill hour starts a drill. -/
  | drillHour (dt : Nat)
  /-- DRILL_ACCEPT_TIMEOUT (R514): ACCEPT does not arrive within 50 ms and DRILL_FAIL sets. -/
  | drillAcceptTimeout (dt : Nat)
  /-- SYNC_DONE (R513): A write of SYNC_DONE clears SYNCING. -/
  | syncDone (dt : Nat) (value : Word)
  /-- KEY_UPDATE (R538): KEYS_CMD KEY_UPDATE burns a new owner generation. -/
  | keyUpdate (dt : Nat) (init : Init)
  /-- LC_ADVANCE (R526): KEYS_CMD LC_ADVANCE burns the target life-cycle bit. -/
  | lcAdvance (dt : Nat) (init : Init)
  /-- DEBUG_UNLOCK (R528): KEYS_CMD DEBUG_UNLOCK zeroises keys and opens debug. -/
  | debugUnlock (dt : Nat) (init : Init)
  /-- IMPORT (R537): KEYS_CMD IMPORT unwraps a key into a slot. -/
  | importKeys (dt : Nat) (init : Init)
  /-- EXPORT (R537): KEYS_CMD EXPORT wraps a slot's key into the results. -/
  | exportKeys (dt : Nat) (init : Init)
  /-- GOOSE_CLEAR (R550): KEYS_CMD GOOSE_CLEAR clears latches whose condition no longer holds. -/
  | gooseClear (dt : Nat) (init : Init)
  /-- UPDATE_LOCK (R539): KEYS_CMD UPDATE_LOCK burns OTP word 7 bit 0. -/
  | updateLock (dt : Nat) (init : Init)
  /-- SETTINGS (R637): KEYS_CMD SETTINGS burns a new settings generation. -/
  | settings (dt : Nat) (init : Init)
  /-- ATTEST (R540): KEYS_CMD ATTEST computes an attestation HMAC. -/
  | attest (dt : Nat) (init : Init)
  /-- DERIVE (R543): KEYS_CMD DERIVE derives a key into a slot. -/
  | derive (dt : Nat) (init : Init)
  /-- CLEAR_SLOT (R542): KEYS_CMD CLEAR_SLOT empties a key slot. -/
  | clearSlot (dt : Nat) (init : Init) (slot : Fin 32)
  /-- ARB_ADVANCE (R523): KEYS_CMD ARB_ADVANCE raises the anti-rollback level. -/
  | arbAdvance (dt : Nat) (init : Init) (level : Byte)
  /-- SEAL (R543): KEYS_CMD SEAL encrypts a block with AES-CCM. -/
  | seal (dt : Nat) (init : Init)
  /-- OPEN (R543): KEYS_CMD OPEN verifies and decrypts a block. -/
  | openBlob (dt : Nat) (init : Init)
  /-- RELADDER (R531): KEYS_CMD RELADDER reruns the key ladder after zeroisation. -/
  | reladder (dt : Nat) (init : Init)
  /-- PROVISION (R542): KEYS_CMD PROVISION fills UDS, seeds and DEVICE_ID and burns TEST. -/
  | provision (dt : Nat) (init : Init)
  /-- OWNER_INIT (R542): KEYS_CMD OWNER_INIT installs owner generation 0. -/
  | ownerInit (dt : Nat) (init : Init)
  /-- KEYS_OP_DONE (R545): A KEYS operation ends with its cause and results. -/
  | keysOpDone (dt : Nat) (marginOk : Bool) (holds : BitVec 9)
  /-- RESULT_ACK (R545): A write of KEYS_RESULT_ACK clears every result register. -/
  | resultAck (dt : Nat) (value : Word)
  /-- GOOSE_LATCH (R546): A Goose source meets its condition and latches, applying its response. -/
  | gooseLatch (dt : Nat) (src : Fin 9)
  /-- FIELD_ON_REQUEST (R559): A write of FIELD 1 switches the reader field on or is refused. -/
  | fieldOnRequest (dt : Nat) (value : Word) (extField : Bool)
  /-- FIELD_OFF_REQUEST (R560): A write of FIELD 0 stops the field and ends any operation. -/
  | fieldOffRequest (dt : Nat) (value : Word)
  /-- TRANSCEIVE (R563): A write of GO to NFC_RDR_CMD starts a transceive. -/
  | transceive (dt : Nat) (value : Word)
  /-- TRANSCEIVE_DONE (R563): A transceive ends with its cause. -/
  | transceiveDone (dt : Nat) (answer : Option NfcAnswer)
  /-- ANTICOLLISION (R565): A write of GO to NFC_AC_CTRL starts an anticollision. -/
  | anticollision (dt : Nat) (value : Word)
  /-- ANTICOLLISION_DONE (R568): An anticollision ends complete, full or by field loss. -/
  | anticollisionDone (dt : Nat) (typeA : List TagA) (typeV : List TagV)
  /-- ORIGINALITY_CHECK (R572): A write of GO to NFC_ORIG_CTRL starts an originality check. -/
  | originalityCheck (dt : Nat) (value : Word)
  /-- ORIGINALITY_DONE (R573): An originality check ends with MATCH or no match. -/
  | originalityDone (dt : Nat)
  /-- PRESENCE_PING (R570): A card-presence ping compares antenna amplitude and phase with the baseline. -/
  | presencePing (dt : Nat) (amp phase : Int) (extField : Bool)
  /-- EMU_SESSION_START (R574): An external field above threshold starts an emulation session. -/
  | emuSessionStart (dt : Nat) (vddNfc : Bool)
  /-- EMU_SESSION_END (R574): The external field stays below threshold for 1 ms and the session ends. -/
  | emuSessionEnd (dt : Nat)
  /-- EMU_REQA (R576): The emulated tag answers REQA with its ATQA. -/
  | emuReqa (dt : Nat)
  /-- EMU_WUPA (R576): The emulated tag answers WUPA with its ATQA. -/
  | emuWupa (dt : Nat)
  /-- EMU_ANTICOLLISION (R577): The emulated tag answers an ANTICOLLISION command. -/
  | emuAnticollision (dt : Nat) (level : Fin 3) (known : List Bool)
  /-- EMU_SELECT_TAG (R577): The emulated tag answers SELECT with SAK 0x20. -/
  | emuSelectTag (dt : Nat) (level : Fin 3) (octets : List Byte)
  /-- EMU_RATS (R577): The emulated tag answers with its ATS. -/
  | emuRats (dt : Nat) (param : Byte) (ready : Nat)
  /-- EMU_SELECT (R577): An APDU SELECT selects the NDEF application or a file. -/
  | emuSelect (dt : Nat) (byName : Bool) (data : List Byte) (lastBit : Bool) (ready : Nat)
  /-- EMU_READ_BINARY (R577): An APDU READ BINARY returns file octets. -/
  | emuReadBinary (dt : Nat) (ofs le : Nat) (lastBit : Bool) (ready : Nat)
  /-- EMU_UPDATE_BINARY (R577): An APDU UPDATE BINARY writes a whole record through the FWM. -/
  | emuUpdateBinary (dt : Nat) (ofs : Nat) (data : List Byte) (energy lastBit : Bool) (ready : Nat)
  /-- EMU_INCREMENT (R577): The proprietary INCREMENT increments a permitted counter. -/
  | emuIncrement (dt : Nat) (counter : Nat) (energy lastBit : Bool) (ready : Nat)
  /-- FWM_READ_RECORD (R583): NFC_FWM_CMD OP READ_RECORD reads a record's current copy. -/
  | fwmReadRecord (dt : Nat) (value : Word)
  /-- FWM_WRITE_RECORD (R584): NFC_FWM_CMD OP WRITE_RECORD writes a record through its shadow copy. -/
  | fwmWriteRecord (dt : Nat) (value : Word)
  /-- FWM_READ_COUNTERS (R585): NFC_FWM_CMD OP READ_COUNTERS reads the 16 counters. -/
  | fwmReadCounters (dt : Nat) (value : Word)
  /-- FWM_INCREMENT (R586): NFC_FWM_CMD OP INCREMENT increments a counter's two copies. -/
  | fwmIncrement (dt : Nat) (value : Word)
  /-- FWM_READ_PAGE0 (R582): NFC_FWM_CMD OP READ_PAGE0 reads the origin page. -/
  | fwmReadPage0 (dt : Nat) (value : Word)
  /-- FWM_PROVISION (R582): NFC_FWM_CMD OP PROVISION writes and locks page 0. -/
  | fwmProvision (dt : Nat) (value : Word)
  /-- FWM_OP_START (R587): A waiting FWM operation starts once the previous one ends. -/
  | fwmOpStart (dt : Nat)
  /-- FWM_OP_DONE (R587): An FWM operation ends and sets DONE. -/
  | fwmOpDone (dt : Nat) (failed : Option Nat)
  /-- ICU_SOURCE_EVENT (R602): A shared source's filter output rises and sets PENDING or increments CNT. -/
  | icuSourceEvent (dt : Nat) (n : Fin 512)
  /-- PEND_READ (R607): A read of a pending word opens or restarts a hold. -/
  | pendRead (dt : Nat) (init : Init) (word : Fin 13)
  /-- PEND_WRITE (R609): A write of a pending word applies, ends the holder's hold, or is LATE. -/
  | pendWrite (dt : Nat) (init : Init) (word : Fin 13) (value : Word)
  /-- HOLD_EXPIRE (R608): HOLD_CYC expires and deferred sets are applied. -/
  | holdExpire (dt : Nat) (word : Fin 13)
  /-- SH_CFG_WRITE (R614): A write of ICU_SH_CFG retargets or refilters a source. -/
  | shCfgWrite (dt : Nat) (n : Fin 512) (value : Word)
  /-- IPI (R617): A write of ICU_IPI raises inter-processor interrupts. -/
  | ipi (dt : Nat) (init : Init) (value : Word)
  /-- CORE_WFI (R597): A core executes WFI and stops or gates. -/
  | coreWfi (dt : Nat) (core : Fin 4)
  /-- CORE_WAKE (R597): A gated core wakes on its wake request and restarts. -/
  | coreWake (dt : Nat) (core : Fin 4)
  /-- STRAND_TIMEOUT (R615): A line stays high for STRAND_US while its core is gated or reset. -/
  | strandTimeout (dt : Nat) (target : Fin 4)
  /-- XSPI_ERASE (R646): XSPI_PROG_CMD OP ERASE erases a 64 KiB flash block. -/
  | xspiErase (dt : Nat) (value : Word)
  /-- XSPI_PROGRAM (R646): XSPI_PROG_CMD OP PROGRAM programs flash from LP4X. -/
  | xspiProgram (dt : Nat) (value : Word)
  /-- XSPI_PROG_DONE (R646): A flash erase or program ends with its cause. -/
  | xspiProgDone (dt : Nat) (verifyOk : Bool)
  /-- STAGE (R624): XSPI_UPD_CTRL OP STAGE checks and stages an update. -/
  | stage (dt : Nat) (value : Word)
  /-- COMMIT (R632): XSPI_UPD_CTRL OP COMMIT commits a trial. -/
  | commit (dt : Nat) (value : Word)
  /-- REVERT (R631): XSPI_UPD_CTRL OP REVERT reverts a trial. -/
  | revert (dt : Nat) (value : Word)
  /-- UPD_CMD_DONE (R624): An update command ends and sets DONE or FAIL. -/
  | updCmdDone (dt : Nat) (marginOk : Bool)
  /-- FC_HWM_PROGRAMMED (R638): A counter high-water record is programmed and waiting users of the counter proceed. -/
  | fcHwmProgrammed (dt : Nat) (kind : Fin 3)
  /-- FLOCK_ROUND_START (R643): A Flock round starts ROUND_GAP_S after the last and reads the map. -/
  | flockRoundStart (dt : Nat)
  /-- FLOCK_ROUND_END (R643): A Flock round ends after its last needed fragment. -/
  | flockRoundEnd (dt : Nat)
  /-- SAFE_CMD_PUSH (R649): A write of SAFE_CMD_PUSH pushes one command word. -/
  | safeCmdPush (dt : Nat) (value : Word)
  /-- SAFE_CMD_PUSH_LAST (R649): A write of SAFE_CMD_PUSH_LAST ends a protective command, which is checked and accepted or rejected. -/
  | safeCmdPushLast (dt : Nat) (value : Word) (poison : Bool)
  /-- COMMAND_DEADLINE (R651): A command is still in flight at DEADLINE_MS. -/
  | commandDeadline (dt : Nat) (source : Fin 16) (seq : Nat)
  /-- LOOPBACK_BOUND (R654): A SAFETY emission's loopback bound passes and the rise, stay or fall rule is judged. -/
  | loopbackBound (dt : Nat) (fe : Fin 3) (power : Int)
  /-- LOCKSTEP_MISMATCH (R653): The lockstep compare finds the Sheepdog outputs differ. -/
  | lockstepMismatch (dt : Nat)
  /-- TCM_SCRUB (R653): The background scrub reads the Sheepdog TCM. -/
  | tcmScrub (dt : Nat) (ecc : Ecc)
  /-- CFG_SCRUB (R653): Every 1 ms the protected configuration CRC is checked. -/
  | cfgScrub (dt : Nat) (upset : Bool)
  /-- CLOCK_MONITOR (R653): A 10 µs clock-monitor window checks each domain against REFCLK. -/
  | clockMonitor (dt : Nat) (bad : Option Nat)
  /-- VOLTAGE_SAMPLE (R653): Main rails are sampled every 100 µs. -/
  | voltageSample (dt : Nat) (ok : Bool)
  /-- TEMP_SAMPLE (R673): Junction temperature is sampled every 100 µs. -/
  | tempSample (dt : Nat) (tj : Int)
  /-- WD_KICK (R658): A write of SAFE_WD_KICK ends a watchdog window, or counts as early. -/
  | wdKick (dt : Nat) (init : Init) (value : Word)
  /-- WD_EXPIRE (R658): WD_MAX_US passes without a kick. -/
  | wdExpire (dt : Nat)
  /-- WD_RESET (R658): 1 ms after a watchdog detection a system reset is issued. -/
  | wdReset (dt : Nat)
  /-- APP_WD_KICK (R658): A write of SAFE_APP_KICK restarts the application watchdog. -/
  | appWdKick (dt : Nat) (value : Word)
  /-- APP_WD_EXPIRE (R658): APP_WD_MS passes without a kick and APP_WD sets. -/
  | appWdExpire (dt : Nat)
  /-- SAFE_FORCE (R666): A Sheepdog write of FORCE enters the safe state. -/
  | safeForce (dt : Nat) (init : Init) (value : Word)
  /-- SAFE_FW_DONE (R666): A Sheepdog write of FW_DONE records the end of its reaction. -/
  | safeFwDone (dt : Nat) (init : Init) (value : Word)
  /-- SAFE_NOTICE_TX (R660): A safe notice is sent, three times 1 ms apart. -/
  | safeNoticeTx (dt : Nat)
  /-- THROTTLE_BOUNDARY (R674): At a 1 ms boundary a throttle step is applied or released. -/
  | throttleBoundary (dt : Nat)
  /-- THERMAL_OFF (R676): After the thermal safe state's reaction the device shuts down its radios and cores. -/
  | thermalOff (dt : Nat)
  /-- AGEING_EVAL (R678): Once per day of run time the monitors are evaluated and predictions refitted. -/
  | ageingEval (dt : Nat) (measured : List Int)
  /-- PG_MAINS_CHANGE (R684): The PG_MAINS input changes level. -/
  | pgMainsChange (dt : Nat) (level : Bool)
  /-- OUTAGE_ENTER (R685): After OUT_DEBOUNCE_MS on backup the profile becomes OUTAGE. -/
  | outageEnter (dt : Nat)
  /-- OUTAGE_EXIT (R685): After 1 s of mains the admitted profile returns. -/
  | outageExit (dt : Nat)
  /-- VBAT_SAMPLE (R684): VBAT is measured every 100 ms. -/
  | vbatSample (dt : Nat) (mv : Nat)
  /-- SLEEP_REQUEST (R686): A write of GO to HEALTH_SLEEP enters OUTAGE sleep or is refused. -/
  | sleepRequest (dt : Nat) (value : Word)
  /-- OUTAGE_WAKE (R687): A wake cause in OUTAGE sleep drives MAIN_PWR_EN high. -/
  | outageWake (dt : Nat) (cause : WakeCause)
  /-- LAMB_MATCH (R688): The Lamb matches a wake pattern. -/
  | lambMatch (dt : Nat) (rx : List Bool)
  /-- RTC_WAKE (R687): GOOSE_RTC reaches GOOSE_WAKE_AT. -/
  | rtcWake (dt : Nat)
  /-- PERF_SNAPSHOT (R697): At each period the counters are latched and a ring record written or missed. -/
  | perfSnapshot (dt : Nat)
  /-- UART_TX_PUSH (R727): A write of IO_UART_TX pushes an octet. -/
  | uartTxPush (dt : Nat) (n : Fin 2) (value : Word)
  /-- UART_RX_OCTET (R727): An octet arrives on a UART. -/
  | uartRxOctet (dt : Nat) (n : Fin 2) (octet : Byte) (frameErr parErr : Bool)
  /-- UART_RX_POP (R739): A 64-bit read of IO_UART_RX pops an octet. -/
  | uartRxPop (dt : Nat) (n : Fin 2)
  /-- I2C_GO (R727): A write of GO to IO_I2C_CMD starts an I2C transfer. -/
  | i2cGo (dt : Nat) (n : Fin 2) (value : Word)
  /-- I2C_DONE (R729): An I2C transfer ends and DONE sets. -/
  | i2cDone (dt : Nat) (n : Fin 2) (nack : Bool) (data : BitVec 32)
  /-- SPI_GO (R727): A write of GO to IO_SPI_CMD starts an SPI transfer. -/
  | spiGo (dt : Nat) (n : Fin 2) (value : Word)
  /-- SPI_DONE (R729): An SPI transfer ends and DONE sets. -/
  | spiDone (dt : Nat) (n : Fin 2) (data : BitVec 32)
  /-- ALWAYS_ON_SUPPLY_LOSS (R552): VBAT and the main supplies are both absent, so the always-on domain loses power, clearing the Goose latches, the real-time clock and the LAMB registers and leaving the device in PWR_OFF. -/
  | alwaysOnSupplyLoss (dt : Nat)
  /-- FILTER_OUTPUT_FALL (R602): A shared source's glitch-filter output falls to 0 after the input has held 0 for FILT_CNT cycles, so a level source stops re-setting PENDING. -/
  | filterOutputFall (dt : Nat) (n : Fin 512)
  /-- HOLDOVER_SELECTION_REPEAT (R451): While no class is qualified after HOLDOVER_WAIT, the time base repeats its source selection at each whole second. -/
  | holdoverSelectionRepeat (dt : Nat)
  /-- MIGRATION_TRAP (R635): The migration routine on core 0 takes a trap, and the update reverts with cause MIGRATE_FAIL. -/
  | migrationTrap (dt : Nat)
  /-- CACHE_UNCORRECTABLE_ECC (R657): An uncorrectable ECC error in an application core's L1 or the L2 raises a precise access fault on the consuming core and sets ECC_REPORT. -/
  | cacheUncorrectableEcc (dt : Nat) (core : Fin 4)
  /-- TCM_UNCORRECTABLE_READ (R653): A Sheepdog read of its TCM finds an uncorrectable word, and TCM_ECC enters the safe state. -/
  | tcmUncorrectableRead (dt : Nat)
  /-- STAGED_CONFIG_COPY_DONE (R72): The copy of a CONFIG_STAGED image that reached RUN into CONFIG, journalled by CFG_COPY records, completes. -/
  | stagedConfigCopyDone (dt : Nat)
  /-- EMU_INS_NOT_SUPPORTED (R578): The emulated tag receives a command APDU whose CLA or INS it does not support and answers 6E00 or 6D00. -/
  | emuInsNotSupported (dt : Nat) (claOk lastBit : Bool) (ready : Nat)
  deriving DecidableEq, Repr

end Sys2Proof
end

