-- ==== Sys2Proof/Decode.lean ====
section
/-!
DEFINITION. The commands that the opcode table spells as words. No row of the table gives bits (each row's field list is
empty), so no word spells a command.
-/

namespace Sys2Proof

/-- The command that an `nbits`-bit word spells by the table's bits: none. -/
def decodeTableWord (_nbits _w : Nat) : Option Instr := none

end Sys2Proof
end

