-- ==== Sys2Proof/Machine/Cells.lean ====
section
/-!
DEFINITION. Addressed storage as plain data: a list of (address, value) pairs with strictly rising addresses in
which no entry equals what an unlisted address reads as. Register fields, memories and tables are all held so.
-/

namespace Sys2Proof.Machine

/-- The value at address `k`; an unlisted address reads as `d`. -/
def Cells.get {α : Type} (m : List (Nat × α)) (k : Nat) (d : α) : α :=
  match m with
  | [] => d
  | (a, v) :: rest => if a = k then v else Cells.get rest k d

/-- Remove every entry at address `k`. -/
def Cells.erase {α : Type} (m : List (Nat × α)) (k : Nat) : List (Nat × α) :=
  match m with
  | [] => []
  | (a, v) :: rest => if a = k then Cells.erase rest k else (a, v) :: Cells.erase rest k

/-- Put `v` at address `k`, keeping the addresses rising. -/
def Cells.insert {α : Type} (m : List (Nat × α)) (k : Nat) (v : α) : List (Nat × α) :=
  match m with
  | [] => [(k, v)]
  | (a, w) :: rest =>
    if k < a then (k, v) :: (a, w) :: rest
    else if k = a then (k, v) :: rest
    else (a, w) :: Cells.insert rest k v

/-- Write `v` at address `k`: writing what an unlisted address reads as removes the entry. -/
def Cells.set {α : Type} [DecidableEq α] (m : List (Nat × α)) (k : Nat) (v d : α) : List (Nat × α) :=
  if v = d then Cells.erase m k else Cells.insert m k v

/-- Put the values `vs` at the addresses from `k` on, all at once. -/
def Cells.replace {α : Type} [DecidableEq α] (m : List (Nat × α)) (k : Nat) (vs : List α) (d : α) : List (Nat × α) :=
  (m.filter fun e => decide (e.1 < k)) ++ ((vs.zipIdx k).filter fun e => decide (e.1 ≠ d)).map (fun e => (e.2, e.1)) ++
    m.filter fun e => decide (k + vs.length ≤ e.1)

/-- The addresses rise strictly. -/
def Cells.rising {α : Type} : List (Nat × α) → Bool
  | [] => true
  | [_] => true
  | (a, _) :: (b, w) :: rest => decide (a < b) && Cells.rising ((b, w) :: rest)

/-- The canonical form of storage whose unlisted addresses all read as `d`. -/
def Cells.wf {α : Type} [DecidableEq α] (m : List (Nat × α)) (d : α) : Bool :=
  Cells.rising m && m.all fun e => decide (e.2 ≠ d)

end Sys2Proof.Machine
end

