-- ==== Sys2Proof/Machine/RegMap.lean ====
section
/-!
DEFINITION. The register map: one named field per field of every register table of the chapters (R46, R51, R84,
R142, R177, R214, R237, R286, R313, R351, R378, R403, R433, R470, R499, R518, R555, R556, R592, R620, R646, R647,
R666, R690, R691, R703, R726, R727) and one row per register with its access codes (R13).
A field named by an index register (a window) has its own place per index, above the control blocks.
-/

namespace Sys2Proof.Machine

/-- A register field: the register's offset from the control-block base, its bits, and its reset value. -/
structure Fld where
  off : Nat
  hi : Nat
  lo : Nat
  rst : Nat
  deriving DecidableEq, Repr

/-- The place of a field in the field store. -/
def Fld.key (f : Fld) : Nat := f.off * 64 + f.lo

/-- The number of bits of a field. -/
def Fld.width (f : Fld) : Nat := f.hi - f.lo + 1

/-- The access codes of R13; `lock` is the LOCK bit of R14. -/
inductive Acc where
  | rw | ro | wo | w1c | rc | rwl | otp | lock
  deriving DecidableEq, Repr

/-- One field of a register row. -/
structure FieldRow where
  hi : Nat
  lo : Nat
  acc : Acc
  rst : Nat
  deriving DecidableEq, Repr

/-- One register, or `count` registers 8 octets apart. -/
structure RegRow where
  off : Nat
  count : Nat
  fields : List FieldRow
  deriving DecidableEq, Repr

/-- Where window number `w` stores its index `i`. -/
def windowOff (w i : Nat) : Nat := 0x200000 + w * 0x100000 + i * 8

/-- The reset taps of a shaping filter: the root-raised-cosine set of R741, as 64 Q1.15 codes. -/
def firReset (tap : Nat) : Nat := (([65473, 19, 91, 59, 65487, 65436, 65518, 108, 113, 65499, 65360, 65417, 92, 201, 33, 65293, 65276, 100, 472, 357, 65307, 64946, 65467, 980, 1137, 64806, 61810, 60885, 65491, 10693, 23771, 32767] : List Nat)[min tap (63 - tap)]?).getD 0

namespace Reg


/-- SYS_PART_ID (R4). -/
def SYS_PART_ID.PART : Fld := ⟨0x0, 31, 20, 0x960⟩
/-- SYS_PART_ID.GRADE. -/
def SYS_PART_ID.GRADE : Fld := ⟨0x0, 19, 16, 0x1⟩
/-- SYS_PART_ID.STEP_LETTER. -/
def SYS_PART_ID.STEP_LETTER : Fld := ⟨0x0, 15, 8, 0x42⟩
/-- SYS_PART_ID.STEP_DIGIT. -/
def SYS_PART_ID.STEP_DIGIT : Fld := ⟨0x0, 7, 0, 0x31⟩

/-- SYS_BOOT_STATUS (R51). -/
def SYS_BOOT_STATUS.REASON : Fld := ⟨0x40, 63, 48, 0x0⟩
/-- SYS_BOOT_STATUS.SECTION. -/
def SYS_BOOT_STATUS.SECTION : Fld := ⟨0x40, 47, 40, 0x0⟩
/-- SYS_BOOT_STATUS.ITEM. -/
def SYS_BOOT_STATUS.ITEM : Fld := ⟨0x40, 39, 24, 0x0⟩
/-- SYS_BOOT_STATUS.STAGED_REJ. -/
def SYS_BOOT_STATUS.STAGED_REJ : Fld := ⟨0x40, 23, 23, 0x0⟩
/-- SYS_BOOT_STATUS.CFG_SRC. -/
def SYS_BOOT_STATUS.CFG_SRC : Fld := ⟨0x40, 22, 22, 0x0⟩
/-- SYS_BOOT_STATUS.CAL_REDUCED. -/
def SYS_BOOT_STATUS.CAL_REDUCED : Fld := ⟨0x40, 21, 21, 0x0⟩
/-- SYS_BOOT_STATUS.ITEM_HI. -/
def SYS_BOOT_STATUS.ITEM_HI : Fld := ⟨0x40, 20, 20, 0x0⟩
/-- SYS_BOOT_STATUS.STATE. -/
def SYS_BOOT_STATUS.STATE : Fld := ⟨0x40, 3, 0, 0x1⟩

/-- SYS_RESET_CAUSE (R51). -/
def SYS_RESET_CAUSE.CORE : Fld := ⟨0x48, 7, 7, 0x0⟩
/-- SYS_RESET_CAUSE.JTAG. -/
def SYS_RESET_CAUSE.JTAG : Fld := ⟨0x48, 6, 6, 0x0⟩
/-- SYS_RESET_CAUSE.WDOG. -/
def SYS_RESET_CAUSE.WDOG : Fld := ⟨0x48, 5, 5, 0x0⟩
/-- SYS_RESET_CAUSE.SOFT. -/
def SYS_RESET_CAUSE.SOFT : Fld := ⟨0x48, 4, 4, 0x0⟩
/-- SYS_RESET_CAUSE.TAMPER. -/
def SYS_RESET_CAUSE.TAMPER : Fld := ⟨0x48, 3, 3, 0x0⟩
/-- SYS_RESET_CAUSE.BROWNOUT. -/
def SYS_RESET_CAUSE.BROWNOUT : Fld := ⟨0x48, 2, 2, 0x0⟩
/-- SYS_RESET_CAUSE.MAIN_POR. -/
def SYS_RESET_CAUSE.MAIN_POR : Fld := ⟨0x48, 1, 1, 0x0⟩
/-- SYS_RESET_CAUSE.COLD_POR. -/
def SYS_RESET_CAUSE.COLD_POR : Fld := ⟨0x48, 0, 0, 0x1⟩

/-- SYS_RESET_CTRL (R51). -/
def SYS_RESET_CTRL.KEY : Fld := ⟨0x50, 63, 32, 0x0⟩
/-- SYS_RESET_CTRL.TYPE. -/
def SYS_RESET_CTRL.TYPE : Fld := ⟨0x50, 1, 0, 0x0⟩

/-- SYS_EVENT_HEAD (R46). -/
def SYS_EVENT_HEAD.CODE : Fld := ⟨0x100, 63, 56, 0x0⟩
/-- SYS_EVENT_HEAD.SOURCE. -/
def SYS_EVENT_HEAD.SOURCE : Fld := ⟨0x100, 55, 48, 0x0⟩
/-- SYS_EVENT_HEAD.ARG. -/
def SYS_EVENT_HEAD.ARG : Fld := ⟨0x100, 47, 0, 0x0⟩

/-- SYS_EVENT_TIME (R46). -/
def SYS_EVENT_TIME.TIME : Fld := ⟨0x108, 63, 0, 0x0⟩

/-- SYS_EVENT_STATUS (R46). -/
def SYS_EVENT_STATUS.OVF : Fld := ⟨0x110, 63, 63, 0x0⟩
/-- SYS_EVENT_STATUS.POISON. -/
def SYS_EVENT_STATUS.POISON : Fld := ⟨0x110, 62, 62, 0x0⟩
/-- SYS_EVENT_STATUS.LEVEL. -/
def SYS_EVENT_STATUS.LEVEL : Fld := ⟨0x110, 12, 0, 0x0⟩

/-- SYS_EVENT_LOST (R46). -/
def SYS_EVENT_LOST.LOST : Fld := ⟨0x118, 15, 0, 0x0⟩

/-- SYS_EVENT_EN (R46). -/
def SYS_EVENT_EN.EN (i : Nat) : Fld := ⟨0x120 + 8 * i, 63, 0, 0xffffffffffffffff⟩

/-- ICU_STATUS (R620). -/
def ICU_STATUS.LATE : Fld := ⟨0x10000, 63, 63, 0x0⟩
/-- ICU_STATUS.LATE_WORD. -/
def ICU_STATUS.LATE_WORD : Fld := ⟨0x10000, 62, 59, 0x0⟩
/-- ICU_STATUS.LATE_INIT. -/
def ICU_STATUS.LATE_INIT : Fld := ⟨0x10000, 58, 56, 0x0⟩
/-- ICU_STATUS.LINE. -/
def ICU_STATUS.LINE : Fld := ⟨0x10000, 55, 51, 0x0⟩
/-- ICU_STATUS.WAKE_REQ. -/
def ICU_STATUS.WAKE_REQ : Fld := ⟨0x10000, 50, 47, 0x0⟩
/-- ICU_STATUS.SH_HELD. -/
def ICU_STATUS.SH_HELD : Fld := ⟨0x10000, 46, 39, 0x0⟩
/-- ICU_STATUS.PV_HELD. -/
def ICU_STATUS.PV_HELD : Fld := ⟨0x10000, 38, 34, 0x0⟩

/-- ICU_CTRL (R620). -/
def ICU_CTRL.STRAND_US : Fld := ⟨0x10008, 15, 0, 0x64⟩

/-- ICU_IPI (R620). -/
def ICU_IPI.TARGETS : Fld := ⟨0x10010, 4, 0, 0x0⟩

/-- ICU_CORE_PWR (R620). -/
def ICU_CORE_PWR.GATE_EN (i : Nat) : Fld := ⟨0x10020 + 8 * i, 63, 63, 0x0⟩
/-- ICU_CORE_PWR.RESUMED. -/
def ICU_CORE_PWR.RESUMED (i : Nat) : Fld := ⟨0x10020 + 8 * i, 62, 62, 0x0⟩
/-- ICU_CORE_PWR.STATE. -/
def ICU_CORE_PWR.STATE (i : Nat) : Fld := ⟨0x10020 + 8 * i, 57, 56, if i = 0 then 0x0 else 0x3⟩

/-- ICU_SH_PEND (R620). -/
def ICU_SH_PEND.PEND (i : Nat) : Fld := ⟨0x10100 + 8 * i, 63, 0, 0x0⟩

/-- ICU_SH_EN (R620). -/
def ICU_SH_EN.EN (i : Nat) : Fld := ⟨0x10140 + 8 * i, 63, 0, 0x0⟩

/-- ICU_SH_CNT (R620). -/
def ICU_SH_CNT.CNT (i : Nat) : Fld := ⟨0x10200 + 8 * i, 63, 0, 0x0⟩

/-- ICU_PV_PEND (R620). -/
def ICU_PV_PEND.PEND (i : Nat) : Fld := ⟨0x10300 + 8 * i, 63, 0, 0x0⟩

/-- ICU_PV_EN (R620). -/
def ICU_PV_EN.EN (i : Nat) : Fld := ⟨0x10340 + 8 * i, 63, 0, 0x0⟩

/-- ICU_PV_CNT (R620). -/
def ICU_PV_CNT.CNT (i : Nat) : Fld := ⟨0x10400 + 8 * i, 63, 0, 0x0⟩

/-- ICU_SH_CFG (R620). -/
def ICU_SH_CFG.LOCKED (i : Nat) : Fld := ⟨0x11000 + 8 * i, 63, 63, 0x0⟩
/-- ICU_SH_CFG.EDGE. -/
def ICU_SH_CFG.EDGE (i : Nat) : Fld := ⟨0x11000 + 8 * i, 11, 11, 0x0⟩
/-- ICU_SH_CFG.TGT. -/
def ICU_SH_CFG.TGT (i : Nat) : Fld := ⟨0x11000 + 8 * i, 10, 8, 0x7⟩
/-- ICU_SH_CFG.FILT_CNT. -/
def ICU_SH_CFG.FILT_CNT (i : Nat) : Fld := ⟨0x11000 + 8 * i, 7, 0, 0x0⟩

/-- KEYS_STATUS (R555). -/
def KEYS_STATUS.LC : Fld := ⟨0x20000, 63, 61, 0x0⟩
/-- KEYS_STATUS.DEBUG. -/
def KEYS_STATUS.DEBUG : Fld := ⟨0x20000, 60, 60, 0x0⟩
/-- KEYS_STATUS.LADDER. -/
def KEYS_STATUS.LADDER : Fld := ⟨0x20000, 59, 59, 0x0⟩
/-- KEYS_STATUS.LOCKED. -/
def KEYS_STATUS.LOCKED : Fld := ⟨0x20000, 58, 58, 0x0⟩
/-- KEYS_STATUS.ZEROIZED. -/
def KEYS_STATUS.ZEROIZED : Fld := ⟨0x20000, 57, 57, 0x0⟩
/-- KEYS_STATUS.UPDATE_LOCK. -/
def KEYS_STATUS.UPDATE_LOCK : Fld := ⟨0x20000, 56, 56, 0x0⟩
/-- KEYS_STATUS.CUR_VALID. -/
def KEYS_STATUS.CUR_VALID : Fld := ⟨0x20000, 55, 55, 0x0⟩
/-- KEYS_STATUS.CUR_GEN. -/
def KEYS_STATUS.CUR_GEN : Fld := ⟨0x20000, 54, 52, 0x0⟩
/-- KEYS_STATUS.NEXT_GEN. -/
def KEYS_STATUS.NEXT_GEN : Fld := ⟨0x20000, 51, 48, 0x0⟩
/-- KEYS_STATUS.ARB_LEVEL. -/
def KEYS_STATUS.ARB_LEVEL : Fld := ⟨0x20000, 47, 40, 0x0⟩
/-- KEYS_STATUS.SET_VALID. -/
def KEYS_STATUS.SET_VALID : Fld := ⟨0x20000, 39, 39, 0x0⟩
/-- KEYS_STATUS.SET_GEN. -/
def KEYS_STATUS.SET_GEN : Fld := ⟨0x20000, 38, 37, 0x0⟩

/-- KEYS_CMD (R555). -/
def KEYS_CMD.GO : Fld := ⟨0x20008, 63, 63, 0x0⟩
/-- KEYS_CMD.OP. -/
def KEYS_CMD.OP : Fld := ⟨0x20008, 55, 48, 0x0⟩
/-- KEYS_CMD.LEVEL. -/
def KEYS_CMD.LEVEL : Fld := ⟨0x20008, 15, 8, 0x0⟩
/-- KEYS_CMD.SLOT. -/
def KEYS_CMD.SLOT : Fld := ⟨0x20008, 4, 0, 0x0⟩

/-- KEYS_MSG_ADDR (R555). -/
def KEYS_MSG_ADDR.ADDR : Fld := ⟨0x20010, 39, 3, 0x0⟩

/-- KEYS_CMD_STATUS (R555). -/
def KEYS_CMD_STATUS.BUSY : Fld := ⟨0x20018, 63, 63, 0x0⟩
/-- KEYS_CMD_STATUS.DONE. -/
def KEYS_CMD_STATUS.DONE : Fld := ⟨0x20018, 62, 62, 0x0⟩
/-- KEYS_CMD_STATUS.FAIL. -/
def KEYS_CMD_STATUS.FAIL : Fld := ⟨0x20018, 61, 61, 0x0⟩
/-- KEYS_CMD_STATUS.OP. -/
def KEYS_CMD_STATUS.OP : Fld := ⟨0x20018, 55, 48, 0x0⟩
/-- KEYS_CMD_STATUS.CAUSE. -/
def KEYS_CMD_STATUS.CAUSE : Fld := ⟨0x20018, 47, 40, 0x0⟩

/-- KEYS_RESULT_ACK (R555). -/
def KEYS_RESULT_ACK.ACK : Fld := ⟨0x20020, 63, 63, 0x0⟩

/-- KEYS_NONCE (R555). -/
def KEYS_NONCE.NONCE (i : Nat) : Fld := ⟨0x20028 + 8 * i, 63, 0, 0x0⟩

/-- KEYS_ATT_CTR (R555). -/
def KEYS_ATT_CTR.ATT_CTR : Fld := ⟨0x20038, 63, 0, 0x0⟩

/-- KEYS_CHAL (R555). -/
def KEYS_CHAL.CHAL (i : Nat) : Fld := ⟨0x20040 + 8 * i, 63, 0, 0x0⟩

/-- KEYS_DEVICE_ID (R555). -/
def KEYS_DEVICE_ID.DEVICE_ID : Fld := ⟨0x20060, 63, 0, 0x0⟩

/-- KEYS_IDENT_PUB (R555). -/
def KEYS_IDENT_PUB.PUB (i : Nat) : Fld := ⟨0x20080 + 8 * i, 63, 0, 0x0⟩

/-- KEYS_SLOT (R555). -/
def KEYS_SLOT.VALID (i : Nat) : Fld := ⟨0x20100 + 8 * i, 63, 63, 0x0⟩
/-- KEYS_SLOT.ORIGIN. -/
def KEYS_SLOT.ORIGIN (i : Nat) : Fld := ⟨0x20100 + 8 * i, 62, 61, 0x0⟩
/-- KEYS_SLOT.SIZE. -/
def KEYS_SLOT.SIZE (i : Nat) : Fld := ⟨0x20100 + 8 * i, 60, 60, 0x0⟩
/-- KEYS_SLOT.EXPORT. -/
def KEYS_SLOT.EXPORT (i : Nat) : Fld := ⟨0x20100 + 8 * i, 59, 59, 0x0⟩
/-- KEYS_SLOT.USAGE. -/
def KEYS_SLOT.USAGE (i : Nat) : Fld := ⟨0x20100 + 8 * i, 5, 0, 0x0⟩

/-- KEYS_RESULT (R555). -/
def KEYS_RESULT.VALID (i : Nat) : Fld := ⟨0x20200 + 8 * i, 63, 63, 0x0⟩
/-- KEYS_RESULT.DATA. -/
def KEYS_RESULT.DATA (i : Nat) : Fld := ⟨0x20200 + 8 * i, 31, 0, 0x0⟩

/-- KEYS_OTP_SEL (R555). -/
def KEYS_OTP_SEL.WORD : Fld := ⟨0x20300, 9, 0, 0x0⟩

/-- KEYS_OTP_DATA (R555). -/
def KEYS_OTP_DATA.DATA : Fld := ⟨0x20308, 63, 0, 0x0⟩

/-- CRYPTO_STATUS (R313). -/
def CRYPTO_STATUS.ENGINES : Fld := ⟨0x30000, 63, 60, 0x0⟩
/-- CRYPTO_STATUS.BUSY. -/
def CRYPTO_STATUS.BUSY : Fld := ⟨0x30000, 59, 56, 0x0⟩
/-- CRYPTO_STATUS.KMQ_LEVEL. -/
def CRYPTO_STATUS.KMQ_LEVEL : Fld := ⟨0x30000, 41, 32, 0x0⟩
/-- CRYPTO_STATUS.KC_VALID. -/
def CRYPTO_STATUS.KC_VALID : Fld := ⟨0x30000, 12, 0, 0x0⟩

/-- CRYPTO_CTRL (R313). -/
def CRYPTO_CTRL.FLUSH : Fld := ⟨0x30008, 63, 63, 0x0⟩
/-- CRYPTO_CTRL.KEK_SLOT. -/
def CRYPTO_CTRL.KEK_SLOT : Fld := ⟨0x30008, 4, 0, 0x0⟩

/-- CRYPTO_GK_SEL (R313). -/
def CRYPTO_GK_SEL.SLOT : Fld := ⟨0x30010, 5, 0, 0x0⟩

/-- CRYPTO_GK_CFG (R313). -/
def CRYPTO_GK_CFG.VALID (i : Nat) : Fld := ⟨windowOff 2 (i), 63, 63, 0x0⟩
/-- CRYPTO_GK_CFG.TX_ACTIVE. -/
def CRYPTO_GK_CFG.TX_ACTIVE (i : Nat) : Fld := ⟨windowOff 2 (i), 62, 62, 0x0⟩
/-- CRYPTO_GK_CFG.SERVICE. -/
def CRYPTO_GK_CFG.SERVICE (i : Nat) : Fld := ⟨windowOff 2 (i), 61, 61, 0x0⟩
/-- CRYPTO_GK_CFG.TENANT. -/
def CRYPTO_GK_CFG.TENANT (i : Nat) : Fld := ⟨windowOff 2 (i), 15, 8, 0x0⟩
/-- CRYPTO_GK_CFG.KEY_INDEX. -/
def CRYPTO_GK_CFG.KEY_INDEX (i : Nat) : Fld := ⟨windowOff 2 (i), 7, 0, 0x0⟩

/-- CRYPTO_GK_WRAP (R313). -/
def CRYPTO_GK_WRAP.WRAP (i : Nat) : Fld := ⟨0x30020 + 8 * i, 63, 0, 0x0⟩

/-- CRYPTO_GK_CMD (R313). -/
def CRYPTO_GK_CMD.GO : Fld := ⟨0x30038, 63, 63, 0x0⟩
/-- CRYPTO_GK_CMD.OP. -/
def CRYPTO_GK_CMD.OP : Fld := ⟨0x30038, 57, 56, 0x0⟩
/-- CRYPTO_GK_CMD.SERVICE. -/
def CRYPTO_GK_CMD.SERVICE : Fld := ⟨0x30038, 24, 24, 0x0⟩
/-- CRYPTO_GK_CMD.SLOT. -/
def CRYPTO_GK_CMD.SLOT : Fld := ⟨0x30038, 21, 16, 0x0⟩
/-- CRYPTO_GK_CMD.TENANT. -/
def CRYPTO_GK_CMD.TENANT : Fld := ⟨0x30038, 15, 8, 0x0⟩
/-- CRYPTO_GK_CMD.KEY_INDEX. -/
def CRYPTO_GK_CMD.KEY_INDEX : Fld := ⟨0x30038, 7, 0, 0x0⟩

/-- CRYPTO_GK_STATUS (R313). -/
def CRYPTO_GK_STATUS.BUSY : Fld := ⟨0x30040, 63, 63, 0x0⟩
/-- CRYPTO_GK_STATUS.DONE. -/
def CRYPTO_GK_STATUS.DONE : Fld := ⟨0x30040, 62, 62, 0x0⟩
/-- CRYPTO_GK_STATUS.FAIL. -/
def CRYPTO_GK_STATUS.FAIL : Fld := ⟨0x30040, 61, 61, 0x0⟩
/-- CRYPTO_GK_STATUS.CAUSE. -/
def CRYPTO_GK_STATUS.CAUSE : Fld := ⟨0x30040, 60, 58, 0x0⟩

/-- GOOSE_STATUS (R556). -/
def GOOSE_STATUS.ANY : Fld := ⟨0x40000, 63, 63, 0x0⟩
/-- GOOSE_STATUS.FIRST. -/
def GOOSE_STATUS.FIRST : Fld := ⟨0x40000, 62, 59, 0x0⟩
/-- GOOSE_STATUS.FIRST_RESP. -/
def GOOSE_STATUS.FIRST_RESP : Fld := ⟨0x40000, 58, 56, 0x0⟩
/-- GOOSE_STATUS.LATCH. -/
def GOOSE_STATUS.LATCH : Fld := ⟨0x40000, 8, 0, 0x0⟩

/-- GOOSE_LATCH_TIME (R556). -/
def GOOSE_LATCH_TIME.TICK : Fld := ⟨0x40008, 47, 0, 0x0⟩

/-- GOOSE_SRC (R556). -/
def GOOSE_SRC.EN (i : Nat) : Fld := ⟨0x40010 + 8 * i, 63, 63, 0x0⟩
/-- GOOSE_SRC.POL. -/
def GOOSE_SRC.POL (i : Nat) : Fld := ⟨0x40010 + 8 * i, 62, 62, 0x0⟩
/-- GOOSE_SRC.RESPONSE. -/
def GOOSE_SRC.RESPONSE (i : Nat) : Fld := ⟨0x40010 + 8 * i, 61, 59, 0x0⟩
/-- GOOSE_SRC.DEB. -/
def GOOSE_SRC.DEB (i : Nat) : Fld := ⟨0x40010 + 8 * i, 7, 0, 0x0⟩

/-- GOOSE_RTC (R556). -/
def GOOSE_RTC.TICK : Fld := ⟨0x40060, 47, 0, 0x0⟩

/-- GOOSE_WAKE_AT (R556). -/
def GOOSE_WAKE_AT.EN : Fld := ⟨0x40068, 63, 63, 0x0⟩
/-- GOOSE_WAKE_AT.TICK. -/
def GOOSE_WAKE_AT.TICK : Fld := ⟨0x40068, 47, 0, 0x0⟩

/-- FE_STATUS (R142). -/
def FE_STATUS.TEMP (n : Nat) : Fld := ⟨0x50000 + 0x10000 * n, 39, 32, 0x0⟩
/-- FE_STATUS.CARRIERS. -/
def FE_STATUS.CARRIERS (n : Nat) : Fld := ⟨0x50000 + 0x10000 * n, 31, 24, 0x0⟩
/-- FE_STATUS.RX_IN_SERVICE. -/
def FE_STATUS.RX_IN_SERVICE (n : Nat) : Fld := ⟨0x50000 + 0x10000 * n, 15, 15, 0x0⟩
/-- FE_STATUS.TX_IN_SERVICE. -/
def FE_STATUS.TX_IN_SERVICE (n : Nat) : Fld := ⟨0x50000 + 0x10000 * n, 14, 14, 0x0⟩
/-- FE_STATUS.RX_LOCK. -/
def FE_STATUS.RX_LOCK (n : Nat) : Fld := ⟨0x50000 + 0x10000 * n, 13, 13, 0x0⟩
/-- FE_STATUS.TX_LOCK. -/
def FE_STATUS.TX_LOCK (n : Nat) : Fld := ⟨0x50000 + 0x10000 * n, 12, 12, 0x0⟩
/-- FE_STATUS.TX_ON. -/
def FE_STATUS.TX_ON (n : Nat) : Fld := ⟨0x50000 + 0x10000 * n, 11, 11, 0x0⟩
/-- FE_STATUS.BLANKED. -/
def FE_STATUS.BLANKED (n : Nat) : Fld := ⟨0x50000 + 0x10000 * n, 10, 10, 0x0⟩
/-- FE_STATUS.MASK_STOPPED. -/
def FE_STATUS.MASK_STOPPED (n : Nat) : Fld := ⟨0x50000 + 0x10000 * n, 9, 9, 0x0⟩
/-- FE_STATUS.TX_ENTRY. -/
def FE_STATUS.TX_ENTRY (n : Nat) : Fld := ⟨0x50000 + 0x10000 * n, 8, 0, 0x0⟩

/-- FE_RX_CFG (R142). -/
def FE_RX_CFG.RX_LO_KHZ (n : Nat) : Fld := ⟨0x50008 + 0x10000 * n, 31, 0, 0x0⟩

/-- FE_AGC_CTRL (R142). -/
def FE_AGC_CTRL.FREEZE (n : Nat) : Fld := ⟨0x50010 + 0x10000 * n, 15, 15, 0x0⟩
/-- FE_AGC_CTRL.UP_WAIT. -/
def FE_AGC_CTRL.UP_WAIT (n : Nat) : Fld := ⟨0x50010 + 0x10000 * n, 11, 8, 0xa⟩
/-- FE_AGC_CTRL.CLIP_DBFS. -/
def FE_AGC_CTRL.CLIP_DBFS (n : Nat) : Fld := ⟨0x50010 + 0x10000 * n, 7, 4, 0x3⟩
/-- FE_AGC_CTRL.LOW_DBFS. -/
def FE_AGC_CTRL.LOW_DBFS (n : Nat) : Fld := ⟨0x50010 + 0x10000 * n, 3, 0, 0xa⟩

/-- FE_AGC_STATUS (R142). -/
def FE_AGC_STATUS.PEAK_DBFS (n : Nat) : Fld := ⟨0x50018 + 0x10000 * n, 15, 8, 0x0⟩
/-- FE_AGC_STATUS.GAIN_STATE. -/
def FE_AGC_STATUS.GAIN_STATE (n : Nat) : Fld := ⟨0x50018 + 0x10000 * n, 1, 0, 0x0⟩

/-- FE_TX_CTRL (R142). -/
def FE_TX_CTRL.TXD_DATA (n : Nat) : Fld := ⟨0x50020 + 0x10000 * n, 47, 40, 0x32⟩
/-- FE_TX_CTRL.TXD_ACK. -/
def FE_TX_CTRL.TXD_ACK (n : Nat) : Fld := ⟨0x50020 + 0x10000 * n, 39, 32, 0x0⟩
/-- FE_TX_CTRL.CAP_QDBM. -/
def FE_TX_CTRL.CAP_QDBM (n : Nat) : Fld := ⟨0x50020 + 0x10000 * n, 31, 16, if n = 2 then 0x48 else 0x50⟩
/-- FE_TX_CTRL.MAX_CARRIERS. -/
def FE_TX_CTRL.MAX_CARRIERS (n : Nat) : Fld := ⟨0x50020 + 0x10000 * n, 3, 0, if n = 2 then 0x1 else 0x8⟩

/-- FE_CAL_REQ (R142). -/
def FE_CAL_REQ.GO (n : Nat) : Fld := ⟨0x50028 + 0x10000 * n, 63, 63, 0x0⟩
/-- FE_CAL_REQ.KIND. -/
def FE_CAL_REQ.KIND (n : Nat) : Fld := ⟨0x50028 + 0x10000 * n, 19, 16, 0x0⟩
/-- FE_CAL_REQ.ENTRY. -/
def FE_CAL_REQ.ENTRY (n : Nat) : Fld := ⟨0x50028 + 0x10000 * n, 8, 0, 0x0⟩

/-- FE_CAL_STATUS (R142). -/
def FE_CAL_STATUS.BUSY (n : Nat) : Fld := ⟨0x50030 + 0x10000 * n, 63, 63, 0x0⟩
/-- FE_CAL_STATUS.DONE. -/
def FE_CAL_STATUS.DONE (n : Nat) : Fld := ⟨0x50030 + 0x10000 * n, 62, 62, 0x0⟩
/-- FE_CAL_STATUS.FAIL. -/
def FE_CAL_STATUS.FAIL (n : Nat) : Fld := ⟨0x50030 + 0x10000 * n, 61, 61, 0x0⟩
/-- FE_CAL_STATUS.REJECTED. -/
def FE_CAL_STATUS.REJECTED (n : Nat) : Fld := ⟨0x50030 + 0x10000 * n, 60, 60, 0x0⟩
/-- FE_CAL_STATUS.KIND. -/
def FE_CAL_STATUS.KIND (n : Nat) : Fld := ⟨0x50030 + 0x10000 * n, 59, 56, 0x0⟩
/-- FE_CAL_STATUS.STALE_CNT. -/
def FE_CAL_STATUS.STALE_CNT (n : Nat) : Fld := ⟨0x50030 + 0x10000 * n, 41, 32, 0x0⟩
/-- FE_CAL_STATUS.INVALID_CNT. -/
def FE_CAL_STATUS.INVALID_CNT (n : Nat) : Fld := ⟨0x50030 + 0x10000 * n, 25, 16, 0x0⟩
/-- FE_CAL_STATUS.ENTRY. -/
def FE_CAL_STATUS.ENTRY (n : Nat) : Fld := ⟨0x50030 + 0x10000 * n, 8, 0, 0x0⟩

/-- FE_TXCAL_CTRL (R142). -/
def FE_TXCAL_CTRL.BG_EN (n : Nat) : Fld := ⟨0x50038 + 0x10000 * n, 63, 63, 0x1⟩
/-- FE_TXCAL_CTRL.SEL. -/
def FE_TXCAL_CTRL.SEL (n : Nat) : Fld := ⟨0x50038 + 0x10000 * n, 8, 0, 0x0⟩

/-- FE_TXCAL_ENTRY (R142). -/
def FE_TXCAL_ENTRY.STATE (n : Nat) (i : Nat) : Fld := ⟨windowOff 0 (n * 0x8000 + i), 63, 62, 0x0⟩
/-- FE_TXCAL_ENTRY.PRIOR. -/
def FE_TXCAL_ENTRY.PRIOR (n : Nat) (i : Nat) : Fld := ⟨windowOff 0 (n * 0x8000 + i), 61, 60, 0x0⟩
/-- FE_TXCAL_ENTRY.TCAL. -/
def FE_TXCAL_ENTRY.TCAL (n : Nat) (i : Nat) : Fld := ⟨windowOff 0 (n * 0x8000 + i), 59, 48, 0x0⟩
/-- FE_TXCAL_ENTRY.FREQ_KHZ. -/
def FE_TXCAL_ENTRY.FREQ_KHZ (n : Nat) (i : Nat) : Fld := ⟨windowOff 0 (n * 0x8000 + i), 31, 0, 0x0⟩

/-- FE_FEM_CTRL (R142). -/
def FE_FEM_CTRL.RX_GAIN_QDB (n : Nat) : Fld := ⟨0x50048 + 0x10000 * n, 47, 40, 0x0⟩
/-- FE_FEM_CTRL.TX_GAIN_QDB. -/
def FE_FEM_CTRL.TX_GAIN_QDB (n : Nat) : Fld := ⟨0x50048 + 0x10000 * n, 39, 32, 0x0⟩
/-- FE_FEM_CTRL.PATTERNS. -/
def FE_FEM_CTRL.PATTERNS (n : Nat) : Fld := ⟨0x50048 + 0x10000 * n, 31, 16, 0x0⟩
/-- FE_FEM_CTRL.LEAD. -/
def FE_FEM_CTRL.LEAD (n : Nat) : Fld := ⟨0x50048 + 0x10000 * n, 15, 8, 0x0⟩
/-- FE_FEM_CTRL.LAG. -/
def FE_FEM_CTRL.LAG (n : Nat) : Fld := ⟨0x50048 + 0x10000 * n, 7, 1, 0x0⟩
/-- FE_FEM_CTRL.PRESENT. -/
def FE_FEM_CTRL.PRESENT (n : Nat) : Fld := ⟨0x50048 + 0x10000 * n, 0, 0, 0x0⟩

/-- FE_BLANK_CTRL (R142). -/
def FE_BLANK_CTRL.PEERS (n : Nat) : Fld := ⟨0x50050 + 0x10000 * n, 2, 0, 0x0⟩

/-- FE_MASK_CTRL (R142). -/
def FE_MASK_CTRL.RESUME (n : Nat) : Fld := ⟨0x50058 + 0x10000 * n, 63, 63, 0x0⟩
/-- FE_MASK_CTRL.ACT. -/
def FE_MASK_CTRL.ACT (n : Nat) : Fld := ⟨0x50058 + 0x10000 * n, 33, 32, 0x0⟩
/-- FE_MASK_CTRL.BACKOFF_QDB. -/
def FE_MASK_CTRL.BACKOFF_QDB (n : Nat) : Fld := ⟨0x50058 + 0x10000 * n, 7, 0, 0x0⟩

/-- FE_FIR_SEL (R142). -/
def FE_FIR_SEL.CARRIER (n : Nat) : Fld := ⟨0x50060 + 0x10000 * n, 8, 6, 0x0⟩
/-- FE_FIR_SEL.TAP. -/
def FE_FIR_SEL.TAP (n : Nat) : Fld := ⟨0x50060 + 0x10000 * n, 5, 0, 0x0⟩

/-- FE_FIR_DATA (R142). -/
def FE_FIR_DATA.COEF (n : Nat) (i : Nat) : Fld := ⟨windowOff 1 (n * 0x8000 + i), 15, 0, firReset (i % 64)⟩

/-- FE_MASK_SEG (R142). -/
def FE_MASK_SEG.EN (n : Nat) (i : Nat) : Fld := ⟨0x50100 + 0x10000 * n + 8 * i, 63, 63, 0x0⟩
/-- FE_MASK_SEG.LOW_OFS. -/
def FE_MASK_SEG.LOW_OFS (n : Nat) (i : Nat) : Fld := ⟨0x50100 + 0x10000 * n + 8 * i, 47, 32, 0x0⟩
/-- FE_MASK_SEG.HIGH_OFS. -/
def FE_MASK_SEG.HIGH_OFS (n : Nat) (i : Nat) : Fld := ⟨0x50100 + 0x10000 * n + 8 * i, 31, 16, 0x0⟩
/-- FE_MASK_SEG.LIMIT_QDBM. -/
def FE_MASK_SEG.LIMIT_QDBM (n : Nat) (i : Nat) : Fld := ⟨0x50100 + 0x10000 * n + 8 * i, 15, 0, 0x0⟩

/-- CHAN_STATUS (R177). -/
def CHAN_STATUS.MODE : Fld := ⟨0x80000, 63, 62, 0x0⟩
/-- CHAN_STATUS.STORM_AUTO. -/
def CHAN_STATUS.STORM_AUTO : Fld := ⟨0x80000, 61, 61, 0x0⟩
/-- CHAN_STATUS.RECOVERY. -/
def CHAN_STATUS.RECOVERY : Fld := ⟨0x80000, 60, 60, 0x0⟩
/-- CHAN_STATUS.ITER_CAP. -/
def CHAN_STATUS.ITER_CAP : Fld := ⟨0x80000, 59, 52, 0x0⟩
/-- CHAN_STATUS.NARROW_EN. -/
def CHAN_STATUS.NARROW_EN : Fld := ⟨0x80000, 40, 32, 0x0⟩
/-- CHAN_STATUS.WIDE_EN. -/
def CHAN_STATUS.WIDE_EN : Fld := ⟨0x80000, 31, 26, 0x0⟩
/-- CHAN_STATUS.NARROW_BUSY. -/
def CHAN_STATUS.NARROW_BUSY : Fld := ⟨0x80000, 25, 17, 0x0⟩
/-- CHAN_STATUS.WIDE_BUSY. -/
def CHAN_STATUS.WIDE_BUSY : Fld := ⟨0x80000, 16, 11, 0x0⟩

/-- CHAN_HEAR_CTRL (R177). -/
def CHAN_HEAR_CTRL.BASE : Fld := ⟨0x80008, 63, 62, 0x1⟩
/-- CHAN_HEAR_CTRL.AUTO_STORM. -/
def CHAN_HEAR_CTRL.AUTO_STORM : Fld := ⟨0x80008, 61, 61, 0x1⟩
/-- CHAN_HEAR_CTRL.FORCE_STORM. -/
def CHAN_HEAR_CTRL.FORCE_STORM : Fld := ⟨0x80008, 60, 60, 0x0⟩
/-- CHAN_HEAR_CTRL.PERMIT. -/
def CHAN_HEAR_CTRL.PERMIT : Fld := ⟨0x80008, 55, 53, 0x0⟩

/-- CHAN_DET_CTRL (R177). -/
def CHAN_DET_CTRL.DET_SYMS : Fld := ⟨0x80010, 11, 8, 0x6⟩
/-- CHAN_DET_CTRL.DET_THRESH. -/
def CHAN_DET_CTRL.DET_THRESH : Fld := ⟨0x80010, 7, 0, 0x60⟩

/-- CHAN_LANE_CTRL (R177). -/
def CHAN_LANE_CTRL.SYNC_WAIT : Fld := ⟨0x80018, 21, 16, 0x34⟩
/-- CHAN_LANE_CTRL.MAX_AIRTIME. -/
def CHAN_LANE_CTRL.MAX_AIRTIME : Fld := ⟨0x80018, 8, 0, 0x64⟩

/-- CHAN_DFE_CTRL (R177). -/
def CHAN_DFE_CTRL.MU_TRAIN_SHIFT : Fld := ⟨0x80020, 15, 12, 0x6⟩
/-- CHAN_DFE_CTRL.MU_TRACK_SHIFT. -/
def CHAN_DFE_CTRL.MU_TRACK_SHIFT : Fld := ⟨0x80020, 11, 8, 0x9⟩
/-- CHAN_DFE_CTRL.TR_BW. -/
def CHAN_DFE_CTRL.TR_BW : Fld := ⟨0x80020, 5, 4, 0x1⟩
/-- CHAN_DFE_CTRL.DFE_FB_EN. -/
def CHAN_DFE_CTRL.DFE_FB_EN : Fld := ⟨0x80020, 0, 0, 0x1⟩

/-- CHAN_OCC_STATUS (R177). -/
def CHAN_OCC_STATUS.OCC_PCT : Fld := ⟨0x80028, 63, 56, 0x0⟩
/-- CHAN_OCC_STATUS.PEAK_PCT. -/
def CHAN_OCC_STATUS.PEAK_PCT : Fld := ⟨0x80028, 55, 48, 0x0⟩
/-- CHAN_OCC_STATUS.ABOVE_MS. -/
def CHAN_OCC_STATUS.ABOVE_MS : Fld := ⟨0x80028, 47, 32, 0x0⟩
/-- CHAN_OCC_STATUS.BELOW_MS. -/
def CHAN_OCC_STATUS.BELOW_MS : Fld := ⟨0x80028, 31, 16, 0x0⟩
/-- CHAN_OCC_STATUS.RESERVED_LANES. -/
def CHAN_OCC_STATUS.RESERVED_LANES : Fld := ⟨0x80028, 8, 0, 0x0⟩

/-- CHAN_LANE_SEL (R177). -/
def CHAN_LANE_SEL.LANE : Fld := ⟨0x80030, 8, 0, 0x0⟩

/-- CHAN_LANE_STATE (R177). -/
def CHAN_LANE_STATE.STATE : Fld := ⟨0x80038, 63, 60, 0x0⟩
/-- CHAN_LANE_STATE.FE. -/
def CHAN_LANE_STATE.FE : Fld := ⟨0x80038, 59, 58, 0x0⟩
/-- CHAN_LANE_STATE.BIN. -/
def CHAN_LANE_STATE.BIN : Fld := ⟨0x80038, 57, 50, 0x0⟩
/-- CHAN_LANE_STATE.PAIR. -/
def CHAN_LANE_STATE.PAIR : Fld := ⟨0x80038, 49, 49, 0x0⟩
/-- CHAN_LANE_STATE.MODE. -/
def CHAN_LANE_STATE.MODE : Fld := ⟨0x80038, 48, 45, 0x0⟩
/-- CHAN_LANE_STATE.AFC. -/
def CHAN_LANE_STATE.AFC : Fld := ⟨0x80038, 44, 33, 0x0⟩
/-- CHAN_LANE_STATE.RSSI. -/
def CHAN_LANE_STATE.RSSI : Fld := ⟨0x80038, 32, 21, 0x0⟩
/-- CHAN_LANE_STATE.LQ. -/
def CHAN_LANE_STATE.LQ : Fld := ⟨0x80038, 20, 13, 0x0⟩

/-- CHAN_LANE_EXCL (R177). -/
def CHAN_LANE_EXCL.EXCL (i : Nat) : Fld := ⟨0x80040 + 8 * i, 63, 0, 0x0⟩

/-- CHAN_BIN_EN (R177). -/
def CHAN_BIN_EN.EN (i : Nat) : Fld := ⟨0x80100 + 8 * i, 63, 0, 0x0⟩

/-- OX_DEC_CTRL (R214). -/
def OX_DEC_CTRL.ALPHA : Fld := ⟨0x90000, 7, 4, 0xc⟩

/-- OX_DEC_STATUS (R214). -/
def OX_DEC_STATUS.BUSY : Fld := ⟨0x90008, 63, 55, 0x0⟩
/-- OX_DEC_STATUS.PEAK_ITER. -/
def OX_DEC_STATUS.PEAK_ITER : Fld := ⟨0x90008, 15, 8, 0x0⟩

/-- OX_CAP_CTRL (R237). -/
def OX_CAP_CTRL.CLOSE_GAP : Fld := ⟨0x90100, 31, 24, 0x2⟩
/-- OX_CAP_CTRL.CAP_MARGIN. -/
def OX_CAP_CTRL.CAP_MARGIN : Fld := ⟨0x90100, 23, 16, 0xa⟩
/-- OX_CAP_CTRL.LAYER_MAX. -/
def OX_CAP_CTRL.LAYER_MAX : Fld := ⟨0x90100, 9, 8, 0x3⟩
/-- OX_CAP_CTRL.ARM_MAX. -/
def OX_CAP_CTRL.ARM_MAX : Fld := ⟨0x90100, 5, 0, 0x10⟩

/-- OX_CAP_BASE (R237). -/
def OX_CAP_BASE.ADDR : Fld := ⟨0x90108, 39, 18, 0x0⟩
/-- OX_CAP_BASE.EN. -/
def OX_CAP_BASE.EN : Fld := ⟨0x90108, 0, 0, 0x0⟩

/-- OX_CAP_STATUS (R237). -/
def OX_CAP_STATUS.FREE : Fld := ⟨0x90110, 63, 58, 0x0⟩
/-- OX_CAP_STATUS.ARMED. -/
def OX_CAP_STATUS.ARMED : Fld := ⟨0x90110, 57, 52, 0x0⟩
/-- OX_CAP_STATUS.RECORDING. -/
def OX_CAP_STATUS.RECORDING : Fld := ⟨0x90110, 51, 46, 0x0⟩
/-- OX_CAP_STATUS.QUEUED. -/
def OX_CAP_STATUS.QUEUED : Fld := ⟨0x90110, 45, 40, 0x0⟩
/-- OX_CAP_STATUS.PROCESSING. -/
def OX_CAP_STATUS.PROCESSING : Fld := ⟨0x90110, 39, 34, 0x0⟩
/-- OX_CAP_STATUS.CANC_BUSY. -/
def OX_CAP_STATUS.CANC_BUSY : Fld := ⟨0x90110, 33, 30, 0x0⟩

/-- OX_CTX_SEL (R237). -/
def OX_CTX_SEL.CTX : Fld := ⟨0x90118, 4, 0, 0x0⟩

/-- OX_CTX_STATE (R237). -/
def OX_CTX_STATE.STATE : Fld := ⟨0x90120, 63, 61, 0x0⟩
/-- OX_CTX_STATE.FE. -/
def OX_CTX_STATE.FE : Fld := ⟨0x90120, 60, 59, 0x0⟩
/-- OX_CTX_STATE.BIN. -/
def OX_CTX_STATE.BIN : Fld := ⟨0x90120, 58, 51, 0x0⟩
/-- OX_CTX_STATE.TRIGGER. -/
def OX_CTX_STATE.TRIGGER : Fld := ⟨0x90120, 50, 48, 0x0⟩
/-- OX_CTX_STATE.LAYER. -/
def OX_CTX_STATE.LAYER : Fld := ⟨0x90120, 47, 46, 0x0⟩
/-- OX_CTX_STATE.RECOVERED. -/
def OX_CTX_STATE.RECOVERED : Fld := ⟨0x90120, 45, 44, 0x0⟩
/-- OX_CTX_STATE.START. -/
def OX_CTX_STATE.START : Fld := ⟨0x90120, 31, 0, 0x0⟩

/-- OX_RA_CTRL (R237). -/
def OX_RA_CTRL.EN : Fld := ⟨0x90128, 63, 63, 0x1⟩
/-- OX_RA_CTRL.RA_LIFE. -/
def OX_RA_CTRL.RA_LIFE : Fld := ⟨0x90128, 6, 0, 0x14⟩

/-- OX_RA_STATUS (R237). -/
def OX_RA_STATUS.LIVE_FE0 : Fld := ⟨0x90130, 63, 53, 0x0⟩
/-- OX_RA_STATUS.LIVE_FE1. -/
def OX_RA_STATUS.LIVE_FE1 : Fld := ⟨0x90130, 52, 42, 0x0⟩
/-- OX_RA_STATUS.LIVE_FE2. -/
def OX_RA_STATUS.LIVE_FE2 : Fld := ⟨0x90130, 41, 31, 0x0⟩
/-- OX_RA_STATUS.EVICT. -/
def OX_RA_STATUS.EVICT : Fld := ⟨0x90130, 15, 0, 0x0⟩

/-- MAC_STATUS (R286). -/
def MAC_STATUS.TSCH_ON : Fld := ⟨0xa0000, 63, 63, 0x0⟩
/-- MAC_STATUS.FOLLOW. -/
def MAC_STATUS.FOLLOW : Fld := ⟨0xa0000, 62, 62, 0x0⟩
/-- MAC_STATUS.HOLDOVER. -/
def MAC_STATUS.HOLDOVER : Fld := ⟨0xa0000, 61, 61, 0x0⟩
/-- MAC_STATUS.SRC. -/
def MAC_STATUS.SRC : Fld := ⟨0xa0000, 60, 59, 0x0⟩
/-- MAC_STATUS.MISSES. -/
def MAC_STATUS.MISSES : Fld := ⟨0xa0000, 58, 57, 0x0⟩

/-- MAC_ASN (R286). -/
def MAC_ASN.ASN : Fld := ⟨0xa0008, 39, 0, 0x0⟩

/-- MAC_ASN_EPOCH (R286). -/
def MAC_ASN_EPOCH.EPOCH_NS : Fld := ⟨0xa0010, 63, 0, 0x0⟩

/-- MAC_SLOT_0 (R286). -/
def MAC_SLOT_0.SLOT_LEN : Fld := ⟨0xa0018, 47, 32, 0x3e8⟩
/-- MAC_SLOT_0.TX_OFFSET. -/
def MAC_SLOT_0.TX_OFFSET : Fld := ⟨0xa0018, 31, 16, 0x848⟩
/-- MAC_SLOT_0.RX_WAIT. -/
def MAC_SLOT_0.RX_WAIT : Fld := ⟨0xa0018, 15, 0, 0x898⟩

/-- MAC_SLOT_1 (R286). -/
def MAC_SLOT_1.TX_ACK_DELAY : Fld := ⟨0xa0020, 63, 48, 0x3e8⟩
/-- MAC_SLOT_1.ACK_WAIT. -/
def MAC_SLOT_1.ACK_WAIT : Fld := ⟨0xa0020, 47, 32, 0x190⟩
/-- MAC_SLOT_1.CCA_OFFSET. -/
def MAC_SLOT_1.CCA_OFFSET : Fld := ⟨0xa0020, 31, 16, 0x708⟩
/-- MAC_SLOT_1.CCA_LEN. -/
def MAC_SLOT_1.CCA_LEN : Fld := ⟨0xa0020, 15, 0, 0xa0⟩

/-- MAC_CSMA_CTRL (R286). -/
def MAC_CSMA_CTRL.CCA_THRESH : Fld := ⟨0xa0028, 31, 24, 0xa6⟩
/-- MAC_CSMA_CTRL.MIN_BE. -/
def MAC_CSMA_CTRL.MIN_BE : Fld := ⟨0xa0028, 15, 12, 0x1⟩
/-- MAC_CSMA_CTRL.MAX_BE. -/
def MAC_CSMA_CTRL.MAX_BE : Fld := ⟨0xa0028, 11, 8, 0x7⟩
/-- MAC_CSMA_CTRL.MAX_RETRIES. -/
def MAC_CSMA_CTRL.MAX_RETRIES : Fld := ⟨0xa0028, 3, 0, 0x3⟩

/-- MAC_ADDR (R286). -/
def MAC_ADDR.PAN_ID : Fld := ⟨0xa0030, 31, 16, 0x0⟩
/-- MAC_ADDR.SHORT. -/
def MAC_ADDR.SHORT : Fld := ⟨0xa0030, 15, 0, 0x0⟩

/-- MAC_EB_CTRL (R286). -/
def MAC_EB_CTRL.EN : Fld := ⟨0xa0038, 63, 63, 0x1⟩
/-- MAC_EB_CTRL.MODE. -/
def MAC_EB_CTRL.MODE : Fld := ⟨0xa0038, 55, 52, 0x3⟩
/-- MAC_EB_CTRL.CR. -/
def MAC_EB_CTRL.CR : Fld := ⟨0xa0038, 49, 48, 0x0⟩
/-- MAC_EB_CTRL.FULL_EVERY. -/
def MAC_EB_CTRL.FULL_EVERY : Fld := ⟨0xa0038, 47, 40, 0x8⟩
/-- MAC_EB_CTRL.MAX_LEN. -/
def MAC_EB_CTRL.MAX_LEN : Fld := ⟨0xa0038, 26, 16, 0x7f⟩
/-- MAC_EB_CTRL.KEY_SLOT. -/
def MAC_EB_CTRL.KEY_SLOT : Fld := ⟨0xa0038, 5, 0, 0x0⟩

/-- MAC_FLOOD_CTRL (R286). -/
def MAC_FLOOD_CTRL.SEED_ID : Fld := ⟨0xa0040, 63, 48, 0x0⟩
/-- MAC_FLOOD_CTRL.TWIN_SEED. -/
def MAC_FLOOD_CTRL.TWIN_SEED : Fld := ⟨0xa0040, 47, 32, 0x0⟩
/-- MAC_FLOOD_CTRL.TWIN_EN. -/
def MAC_FLOOD_CTRL.TWIN_EN : Fld := ⟨0xa0040, 31, 31, 0x0⟩
/-- MAC_FLOOD_CTRL.HOPS. -/
def MAC_FLOOD_CTRL.HOPS : Fld := ⟨0xa0040, 19, 16, 0x8⟩
/-- MAC_FLOOD_CTRL.LIFE. -/
def MAC_FLOOD_CTRL.LIFE : Fld := ⟨0xa0040, 9, 0, 0x3c⟩

/-- MAC_WAKE_REQ (R286). -/
def MAC_WAKE_REQ.GO : Fld := ⟨0xa0048, 63, 63, 0x0⟩
/-- MAC_WAKE_REQ.FR. -/
def MAC_WAKE_REQ.FR : Fld := ⟨0xa0048, 41, 40, 0x0⟩
/-- MAC_WAKE_REQ.REPS. -/
def MAC_WAKE_REQ.REPS : Fld := ⟨0xa0048, 39, 32, 0x0⟩
/-- MAC_WAKE_REQ.ADDR. -/
def MAC_WAKE_REQ.ADDR : Fld := ⟨0xa0048, 31, 0, 0x0⟩

/-- MAC_WAKE_STATUS (R286). -/
def MAC_WAKE_STATUS.BUSY : Fld := ⟨0xa0050, 63, 63, 0x0⟩
/-- MAC_WAKE_STATUS.DONE. -/
def MAC_WAKE_STATUS.DONE : Fld := ⟨0xa0050, 62, 62, 0x0⟩
/-- MAC_WAKE_STATUS.REFUSED. -/
def MAC_WAKE_STATUS.REFUSED : Fld := ⟨0xa0050, 61, 61, 0x0⟩
/-- MAC_WAKE_STATUS.CAUSE. -/
def MAC_WAKE_STATUS.CAUSE : Fld := ⟨0xa0050, 60, 58, 0x0⟩

/-- MAC_FR (R286). -/
def MAC_FR.EN (i : Nat) : Fld := ⟨0xa0100 + 8 * i, 63, 63, 0x0⟩
/-- MAC_FR.FE. -/
def MAC_FR.FE (i : Nat) : Fld := ⟨0xa0100 + 8 * i, 61, 60, 0x0⟩
/-- MAC_FR.BIN. -/
def MAC_FR.BIN (i : Nat) : Fld := ⟨0xa0100 + 8 * i, 59, 52, 0x0⟩
/-- MAC_FR.MIN_BE. -/
def MAC_FR.MIN_BE (i : Nat) : Fld := ⟨0xa0100 + 8 * i, 51, 48, 0x3⟩
/-- MAC_FR.MAX_BE. -/
def MAC_FR.MAX_BE (i : Nat) : Fld := ⟨0xa0100 + 8 * i, 47, 44, 0x5⟩
/-- MAC_FR.MAX_TRIES. -/
def MAC_FR.MAX_TRIES (i : Nat) : Fld := ⟨0xa0100 + 8 * i, 43, 40, 0x4⟩
/-- MAC_FR.THRESH. -/
def MAC_FR.THRESH (i : Nat) : Fld := ⟨0xa0100 + 8 * i, 39, 32, 0xa6⟩
/-- MAC_FR.LISTEN. -/
def MAC_FR.LISTEN (i : Nat) : Fld := ⟨0xa0100 + 8 * i, 31, 16, 0xa0⟩
/-- MAC_FR.CHNUM. -/
def MAC_FR.CHNUM (i : Nat) : Fld := ⟨0xa0100 + 8 * i, 15, 0, 0x0⟩

/-- MAC_SF (R286). -/
def MAC_SF.EN (i : Nat) : Fld := ⟨0xa0140 + 8 * i, 63, 63, 0x0⟩
/-- MAC_SF.HANDLE. -/
def MAC_SF.HANDLE (i : Nat) : Fld := ⟨0xa0140 + 8 * i, 55, 48, 0x0⟩
/-- MAC_SF.HOP_LEN. -/
def MAC_SF.HOP_LEN (i : Nat) : Fld := ⟨0xa0140 + 8 * i, 40, 32, 0x0⟩
/-- MAC_SF.LENGTH. -/
def MAC_SF.LENGTH (i : Nat) : Fld := ⟨0xa0140 + 8 * i, 15, 0, 0x0⟩

/-- MAC_TSRC_ADDR (R286). -/
def MAC_TSRC_ADDR.TSRC_ADDR (i : Nat) : Fld := ⟨0xa0200 + 8 * i, 63, 0, 0x0⟩

/-- MAC_TSRC_CFG (R286). -/
def MAC_TSRC_CFG.EN (i : Nat) : Fld := ⟨0xa0220 + 8 * i, 63, 63, 0x0⟩
/-- MAC_TSRC_CFG.PERIOD. -/
def MAC_TSRC_CFG.PERIOD (i : Nat) : Fld := ⟨0xa0220 + 8 * i, 15, 0, 0x3e8⟩

/-- MAC_FLOCK_CTRL (R647). -/
def MAC_FLOCK_CTRL.EN : Fld := ⟨0xa0300, 63, 63, 0x0⟩
/-- MAC_FLOCK_CTRL.ROUND_GAP_S. -/
def MAC_FLOCK_CTRL.ROUND_GAP_S : Fld := ⟨0xa0300, 15, 0, 0x3c⟩

/-- MAC_FLOCK_BASE (R647). -/
def MAC_FLOCK_BASE.IMG : Fld := ⟨0xa0308, 63, 42, 0x0⟩
/-- MAC_FLOCK_BASE.MAP. -/
def MAC_FLOCK_BASE.MAP : Fld := ⟨0xa0308, 41, 22, 0x0⟩
/-- MAC_FLOCK_BASE.PRESENT. -/
def MAC_FLOCK_BASE.PRESENT : Fld := ⟨0xa0308, 0, 0, 0x0⟩

/-- MAC_FLOCK_STATUS (R647). -/
def MAC_FLOCK_STATUS.ROUND_BUSY : Fld := ⟨0xa0310, 63, 63, 0x0⟩
/-- MAC_FLOCK_STATUS.SLOT. -/
def MAC_FLOCK_STATUS.SLOT : Fld := ⟨0xa0310, 62, 59, 0x0⟩
/-- MAC_FLOCK_STATUS.FRAG. -/
def MAC_FLOCK_STATUS.FRAG : Fld := ⟨0xa0310, 58, 49, 0x0⟩
/-- MAC_FLOCK_STATUS.ROUNDS. -/
def MAC_FLOCK_STATUS.ROUNDS : Fld := ⟨0xa0310, 47, 32, 0x0⟩
/-- MAC_FLOCK_STATUS.SENT. -/
def MAC_FLOCK_STATUS.SENT : Fld := ⟨0xa0310, 31, 16, 0x0⟩
/-- MAC_FLOCK_STATUS.SKIPPED. -/
def MAC_FLOCK_STATUS.SKIPPED : Fld := ⟨0xa0310, 15, 0, 0x0⟩

/-- MAC_FLOCK_IMG (R647). -/
def MAC_FLOCK_IMG.EN (i : Nat) : Fld := ⟨0xa0400 + 8 * i, 63, 63, 0x0⟩
/-- MAC_FLOCK_IMG.FE_MASK. -/
def MAC_FLOCK_IMG.FE_MASK (i : Nat) : Fld := ⟨0xa0400 + 8 * i, 62, 60, 0x0⟩
/-- MAC_FLOCK_IMG.TENANT. -/
def MAC_FLOCK_IMG.TENANT (i : Nat) : Fld := ⟨0xa0400 + 8 * i, 59, 52, 0x0⟩
/-- MAC_FLOCK_IMG.LEN. -/
def MAC_FLOCK_IMG.LEN (i : Nat) : Fld := ⟨0xa0400 + 8 * i, 49, 32, 0x0⟩
/-- MAC_FLOCK_IMG.IMAGE_ID. -/
def MAC_FLOCK_IMG.IMAGE_ID (i : Nat) : Fld := ⟨0xa0400 + 8 * i, 31, 0, 0x0⟩

/-- MAC_HOP (R286). -/
def MAC_HOP.FE (i : Nat) : Fld := ⟨0xa8000 + 8 * i, 31, 30, 0x0⟩
/-- MAC_HOP.BIN. -/
def MAC_HOP.BIN (i : Nat) : Fld := ⟨0xa8000 + 8 * i, 23, 16, 0x0⟩
/-- MAC_HOP.CHNUM. -/
def MAC_HOP.CHNUM (i : Nat) : Fld := ⟨0xa8000 + 8 * i, 15, 0, 0x0⟩

/-- MAC_SAU_LIST (R84). -/
def MAC_SAU_LIST.ADDR : Fld := ⟨0xae000, 39, 4, 0x0⟩

/-- MAC_SAU_ACT_ASN (R84). -/
def MAC_SAU_ACT_ASN.ACT_ASN : Fld := ⟨0xae008, 39, 0, 0x0⟩

/-- MAC_SAU_CTRL (R84). -/
def MAC_SAU_CTRL.GO : Fld := ⟨0xae010, 63, 63, 0x0⟩
/-- MAC_SAU_CTRL.CANCEL. -/
def MAC_SAU_CTRL.CANCEL : Fld := ⟨0xae010, 62, 62, 0x0⟩
/-- MAC_SAU_CTRL.COUNT. -/
def MAC_SAU_CTRL.COUNT : Fld := ⟨0xae010, 12, 0, 0x0⟩

/-- MAC_SAU_STATUS (R84). -/
def MAC_SAU_STATUS.BUSY : Fld := ⟨0xae018, 63, 63, 0x0⟩
/-- MAC_SAU_STATUS.DONE. -/
def MAC_SAU_STATUS.DONE : Fld := ⟨0xae018, 62, 62, 0x0⟩
/-- MAC_SAU_STATUS.ACCEPTED. -/
def MAC_SAU_STATUS.ACCEPTED : Fld := ⟨0xae018, 61, 61, 0x0⟩
/-- MAC_SAU_STATUS.PENDING. -/
def MAC_SAU_STATUS.PENDING : Fld := ⟨0xae018, 60, 60, 0x0⟩
/-- MAC_SAU_STATUS.APPLIED. -/
def MAC_SAU_STATUS.APPLIED : Fld := ⟨0xae018, 59, 59, 0x0⟩
/-- MAC_SAU_STATUS.REASON. -/
def MAC_SAU_STATUS.REASON : Fld := ⟨0xae018, 47, 32, 0x0⟩
/-- MAC_SAU_STATUS.ITEM. -/
def MAC_SAU_STATUS.ITEM : Fld := ⟨0xae018, 31, 16, 0x0⟩

/-- FWD_IDX_STATUS (R351). -/
def FWD_IDX_STATUS.VALID_SLOTS : Fld := ⟨0xb0000, 63, 44, 0x0⟩
/-- FWD_IDX_STATUS.PARKED. -/
def FWD_IDX_STATUS.PARKED : Fld := ⟨0xb0000, 43, 35, 0x0⟩
/-- FWD_IDX_STATUS.SWEEP_POS. -/
def FWD_IDX_STATUS.SWEEP_POS : Fld := ⟨0xb0000, 16, 0, 0x0⟩

/-- FWD_IDX_CTRL (R351). -/
def FWD_IDX_CTRL.SWEEP_EN : Fld := ⟨0xb0008, 63, 63, 0x1⟩
/-- FWD_IDX_CTRL.JOIN_HOLD. -/
def FWD_IDX_CTRL.JOIN_HOLD : Fld := ⟨0xb0008, 37, 32, 0x5⟩
/-- FWD_IDX_CTRL.SWEEP_PERIOD. -/
def FWD_IDX_CTRL.SWEEP_PERIOD : Fld := ⟨0xb0008, 16, 0, 0x5460⟩

/-- FWD_REC_BASE (R351). -/
def FWD_REC_BASE.ADDR : Fld := ⟨0xb0010, 39, 20, 0x0⟩
/-- FWD_REC_BASE.EN. -/
def FWD_REC_BASE.EN : Fld := ⟨0xb0010, 0, 0, 0x0⟩

/-- FWD_HASH_KEY (R351). -/
def FWD_HASH_KEY.EUI64 : Fld := ⟨0xb0018, 63, 0, 0x0⟩

/-- FWD_HASH_RESULT (R351). -/
def FWD_HASH_RESULT.H1 : Fld := ⟨0xb0020, 31, 16, 0x0⟩
/-- FWD_HASH_RESULT.H0. -/
def FWD_HASH_RESULT.H0 : Fld := ⟨0xb0020, 15, 0, 0x0⟩

/-- FWD_MULE_LIST (R351). -/
def FWD_MULE_LIST.ADDR : Fld := ⟨0xb0028, 39, 6, 0x0⟩

/-- FWD_MULE_CTRL (R351). -/
def FWD_MULE_CTRL.GO : Fld := ⟨0xb0030, 63, 63, 0x0⟩

/-- FWD_MULE_STATUS (R351). -/
def FWD_MULE_STATUS.BUSY : Fld := ⟨0xb0038, 63, 63, 0x0⟩
/-- FWD_MULE_STATUS.DONE. -/
def FWD_MULE_STATUS.DONE : Fld := ⟨0xb0038, 62, 62, 0x0⟩
/-- FWD_MULE_STATUS.FAIL. -/
def FWD_MULE_STATUS.FAIL : Fld := ⟨0xb0038, 61, 61, 0x0⟩
/-- FWD_MULE_STATUS.CAUSE. -/
def FWD_MULE_STATUS.CAUSE : Fld := ⟨0xb0038, 55, 48, 0x0⟩
/-- FWD_MULE_STATUS.DESC. -/
def FWD_MULE_STATUS.DESC : Fld := ⟨0xb0038, 47, 32, 0x0⟩

/-- FWD_MULE_DONE (R351). -/
def FWD_MULE_DONE.CAUSE : Fld := ⟨0xb0040, 63, 56, 0x0⟩
/-- FWD_MULE_DONE.DESC. -/
def FWD_MULE_DONE.DESC : Fld := ⟨0xb0040, 55, 40, 0x0⟩
/-- FWD_MULE_DONE.ADDR. -/
def FWD_MULE_DONE.ADDR : Fld := ⟨0xb0040, 39, 6, 0x0⟩
/-- FWD_MULE_DONE.NONEMPTY. -/
def FWD_MULE_DONE.NONEMPTY : Fld := ⟨0xb0040, 0, 0, 0x0⟩

/-- FWD_LEARN_WORD (R351). -/
def FWD_LEARN_WORD.DATA : Fld := ⟨0xb0048, 63, 0, 0x0⟩

/-- FWD_LEARN_STATUS (R351). -/
def FWD_LEARN_STATUS.OVF : Fld := ⟨0xb0050, 63, 63, 0x0⟩
/-- FWD_LEARN_STATUS.SOP. -/
def FWD_LEARN_STATUS.SOP : Fld := ⟨0xb0050, 62, 62, 0x0⟩
/-- FWD_LEARN_STATUS.EOP. -/
def FWD_LEARN_STATUS.EOP : Fld := ⟨0xb0050, 61, 61, 0x0⟩
/-- FWD_LEARN_STATUS.POISON. -/
def FWD_LEARN_STATUS.POISON : Fld := ⟨0xb0050, 60, 60, 0x0⟩
/-- FWD_LEARN_STATUS.LEVEL. -/
def FWD_LEARN_STATUS.LEVEL : Fld := ⟨0xb0050, 15, 0, 0x0⟩

/-- FWD_LEARN_LOST (R351). -/
def FWD_LEARN_LOST.LOST : Fld := ⟨0xb0058, 15, 0, 0x0⟩

/-- FWD_PIPE_CTRL (R378). -/
def FWD_PIPE_CTRL.SRC_CHECK : Fld := ⟨0xb0100, 63, 63, 0x1⟩
/-- FWD_PIPE_CTRL.DEFAULT_CORE. -/
def FWD_PIPE_CTRL.DEFAULT_CORE : Fld := ⟨0xb0100, 1, 0, 0x0⟩

/-- FWD_PIPE_STATUS (R378). -/
def FWD_PIPE_STATUS.TRIE_ERR : Fld := ⟨0xb0108, 63, 48, 0x0⟩

/-- FWD_TRIE_TEST_KEY (R378). -/
def FWD_TRIE_TEST_KEY.ADDR_HI : Fld := ⟨0xb0110, 63, 0, 0x0⟩

/-- FWD_TRIE_TEST_RESULT (R378). -/
def FWD_TRIE_TEST_RESULT.MATCH : Fld := ⟨0xb0118, 63, 63, 0x0⟩
/-- FWD_TRIE_TEST_RESULT.INDEX. -/
def FWD_TRIE_TEST_RESULT.INDEX : Fld := ⟨0xb0118, 47, 32, 0x0⟩
/-- FWD_TRIE_TEST_RESULT.WORD. -/
def FWD_TRIE_TEST_RESULT.WORD : Fld := ⟨0xb0118, 31, 0, 0x0⟩

/-- FWD_NH (R378). -/
def FWD_NH.VALID (i : Nat) : Fld := ⟨0xb0200 + 8 * i, 63, 63, 0x0⟩
/-- FWD_NH.TAG. -/
def FWD_NH.TAG (i : Nat) : Fld := ⟨0xb0200 + 8 * i, 62, 62, 0x0⟩
/-- FWD_NH.VID. -/
def FWD_NH.VID (i : Nat) : Fld := ⟨0xb0200 + 8 * i, 59, 48, 0x0⟩
/-- FWD_NH.DMAC. -/
def FWD_NH.DMAC (i : Nat) : Fld := ⟨0xb0200 + 8 * i, 47, 0, 0x0⟩

/-- SCHED_STATUS (R433). -/
def SCHED_STATUS.RETRY_USED : Fld := ⟨0xc0000, 63, 51, 0x0⟩
/-- SCHED_STATUS.WHEEL. -/
def SCHED_STATUS.WHEEL : Fld := ⟨0xc0000, 50, 36, 0x0⟩

/-- SCHED_Q_SEL (R433). -/
def SCHED_Q_SEL.QUEUE : Fld := ⟨0xc0008, 13, 0, 0x0⟩

/-- SCHED_Q_RATE (R433). -/
def SCHED_Q_RATE.CIR (i : Nat) : Fld := ⟨windowOff 4 (i), 63, 32, 0x0⟩
/-- SCHED_Q_RATE.PIR. -/
def SCHED_Q_RATE.PIR (i : Nat) : Fld := ⟨windowOff 4 (i), 31, 0, 0x0⟩

/-- SCHED_Q_BURST (R433). -/
def SCHED_Q_BURST.CBS (i : Nat) : Fld := ⟨windowOff 5 (i), 63, 40, 0x0⟩
/-- SCHED_Q_BURST.PBS. -/
def SCHED_Q_BURST.PBS (i : Nat) : Fld := ⟨windowOff 5 (i), 39, 16, 0x0⟩

/-- SCHED_Q_DWRR (R433). -/
def SCHED_Q_DWRR.QUANTUM (i : Nat) : Fld := ⟨windowOff 6 (i), 63, 40, 0x1⟩
/-- SCHED_Q_DWRR.DEFICIT. -/
def SCHED_Q_DWRR.DEFICIT (i : Nat) : Fld := ⟨windowOff 6 (i), 39, 16, 0x0⟩
/-- SCHED_Q_DWRR.ON_WHEEL. -/
def SCHED_Q_DWRR.ON_WHEEL (i : Nat) : Fld := ⟨windowOff 6 (i), 2, 2, 0x0⟩
/-- SCHED_Q_DWRR.COMMIT_OK. -/
def SCHED_Q_DWRR.COMMIT_OK (i : Nat) : Fld := ⟨windowOff 6 (i), 1, 1, 0x0⟩
/-- SCHED_Q_DWRR.PEAK_OK. -/
def SCHED_Q_DWRR.PEAK_OK (i : Nat) : Fld := ⟨windowOff 6 (i), 0, 0, 0x0⟩

/-- SCHED_T_SEL (R433). -/
def SCHED_T_SEL.PORT : Fld := ⟨0xc0028, 10, 8, 0x0⟩
/-- SCHED_T_SEL.TENANT. -/
def SCHED_T_SEL.TENANT : Fld := ⟨0xc0028, 7, 0, 0x0⟩

/-- SCHED_T_CFG (R433). -/
def SCHED_T_CFG.WEIGHT (i : Nat) : Fld := ⟨windowOff 7 (i), 63, 48, 0x1⟩
/-- SCHED_T_CFG.T_PBS. -/
def SCHED_T_CFG.T_PBS (i : Nat) : Fld := ⟨windowOff 7 (i), 47, 24, 0x0⟩

/-- SCHED_DUTY_SEL (R433). -/
def SCHED_DUTY_SEL.SUBBAND : Fld := ⟨0xc0038, 4, 0, 0x0⟩

/-- SCHED_DUTY_CFG (R433). -/
def SCHED_DUTY_CFG.HOUR_MS (i : Nat) : Fld := ⟨windowOff 9 (i), 63, 42, 0x36ee80⟩
/-- SCHED_DUTY_CFG.RESERVE_MS. -/
def SCHED_DUTY_CFG.RESERVE_MS (i : Nat) : Fld := ⟨windowOff 9 (i), 41, 26, 0x0⟩
/-- SCHED_DUTY_CFG.PRESET_MS. -/
def SCHED_DUTY_CFG.PRESET_MS (i : Nat) : Fld := ⟨windowOff 9 (i), 25, 10, 0x0⟩

/-- SCHED_DUTY_STATUS (R433). -/
def SCHED_DUTY_STATUS.HOLD (i : Nat) : Fld := ⟨windowOff 10 (i), 63, 62, 0x0⟩
/-- SCHED_DUTY_STATUS.USED. -/
def SCHED_DUTY_STATUS.USED (i : Nat) : Fld := ⟨windowOff 10 (i), 61, 26, 0x0⟩

/-- SCHED_POL_SEL (R433). -/
def SCHED_POL_SEL.POLICER : Fld := ⟨0xc0050, 13, 0, 0x0⟩

/-- SCHED_POL_CFG (R433). -/
def SCHED_POL_CFG.MODE (i : Nat) : Fld := ⟨windowOff 11 (i), 63, 62, 0x0⟩
/-- SCHED_POL_CFG.AWARE. -/
def SCHED_POL_CFG.AWARE (i : Nat) : Fld := ⟨windowOff 11 (i), 61, 61, 0x0⟩
/-- SCHED_POL_CFG.COUPLED. -/
def SCHED_POL_CFG.COUPLED (i : Nat) : Fld := ⟨windowOff 11 (i), 60, 60, 0x0⟩
/-- SCHED_POL_CFG.YELLOW_ACT. -/
def SCHED_POL_CFG.YELLOW_ACT (i : Nat) : Fld := ⟨windowOff 11 (i), 59, 58, 0x0⟩
/-- SCHED_POL_CFG.RED_ACT. -/
def SCHED_POL_CFG.RED_ACT (i : Nat) : Fld := ⟨windowOff 11 (i), 57, 57, 0x0⟩
/-- SCHED_POL_CFG.YELLOW_DSCP. -/
def SCHED_POL_CFG.YELLOW_DSCP (i : Nat) : Fld := ⟨windowOff 11 (i), 49, 44, 0x0⟩
/-- SCHED_POL_CFG.RED_DSCP. -/
def SCHED_POL_CFG.RED_DSCP (i : Nat) : Fld := ⟨windowOff 11 (i), 43, 38, 0x0⟩

/-- SCHED_POL_RATE (R433). -/
def SCHED_POL_RATE.CIR (i : Nat) : Fld := ⟨windowOff 12 (i), 63, 32, 0x0⟩
/-- SCHED_POL_RATE.PIR_EIR. -/
def SCHED_POL_RATE.PIR_EIR (i : Nat) : Fld := ⟨windowOff 12 (i), 31, 0, 0x0⟩

/-- SCHED_POL_BURST (R433). -/
def SCHED_POL_BURST.CBS (i : Nat) : Fld := ⟨windowOff 13 (i), 63, 40, 0x0⟩
/-- SCHED_POL_BURST.PBS_EBS. -/
def SCHED_POL_BURST.PBS_EBS (i : Nat) : Fld := ⟨windowOff 13 (i), 39, 16, 0x0⟩

/-- SCHED_POL_STATUS (R433). -/
def SCHED_POL_STATUS.GREEN (i : Nat) : Fld := ⟨windowOff 14 (i), 63, 48, 0x0⟩
/-- SCHED_POL_STATUS.YELLOW. -/
def SCHED_POL_STATUS.YELLOW (i : Nat) : Fld := ⟨windowOff 14 (i), 47, 32, 0x0⟩
/-- SCHED_POL_STATUS.RED. -/
def SCHED_POL_STATUS.RED (i : Nat) : Fld := ⟨windowOff 14 (i), 31, 16, 0x0⟩

/-- SCHED_PMAP_SEL (R433). -/
def SCHED_PMAP_SEL.KEY : Fld := ⟨0xc0078, 12, 0, 0x0⟩

/-- SCHED_PMAP (R433). -/
def SCHED_PMAP.EN (i : Nat) : Fld := ⟨windowOff 15 (i), 63, 63, 0x0⟩
/-- SCHED_PMAP.POLICER. -/
def SCHED_PMAP.POLICER (i : Nat) : Fld := ⟨windowOff 15 (i), 13, 0, 0x0⟩

/-- SCHED_T_PIR (R433). -/
def SCHED_T_PIR.T_PIR (i : Nat) : Fld := ⟨windowOff 8 (i), 31, 0, 0x0⟩

/-- QMGR_STATUS (R403). -/
def QMGR_STATUS.FREE_CELLS : Fld := ⟨0xd0000, 63, 41, 0x0⟩
/-- QMGR_STATUS.FREE_ONCHIP. -/
def QMGR_STATUS.FREE_ONCHIP : Fld := ⟨0xd0000, 40, 28, 0x0⟩
/-- QMGR_STATUS.FREE_DESC. -/
def QMGR_STATUS.FREE_DESC : Fld := ⟨0xd0000, 27, 14, 0x0⟩

/-- QMGR_POOL_CFG (R403). -/
def QMGR_POOL_CFG.RESERVE : Fld := ⟨0xd0008, 21, 0, 0x1000⟩

/-- QMGR_BUF_BASE (R403). -/
def QMGR_BUF_BASE.ADDR : Fld := ⟨0xd0010, 39, 20, 0x0⟩
/-- QMGR_BUF_BASE.SIZE. -/
def QMGR_BUF_BASE.SIZE : Fld := ⟨0xd0010, 4, 1, 0x0⟩
/-- QMGR_BUF_BASE.EN. -/
def QMGR_BUF_BASE.EN : Fld := ⟨0xd0010, 0, 0, 0x0⟩

/-- QMGR_Q_SEL (R403). -/
def QMGR_Q_SEL.QUEUE : Fld := ⟨0xd0018, 13, 0, 0x0⟩

/-- QMGR_Q_CFG (R403). -/
def QMGR_Q_CFG.EN (i : Nat) : Fld := ⟨windowOff 3 (i), 63, 63, 0x0⟩
/-- QMGR_Q_CFG.QMAX. -/
def QMGR_Q_CFG.QMAX (i : Nat) : Fld := ⟨windowOff 3 (i), 62, 40, 0x1000⟩
/-- QMGR_Q_CFG.SPILL_THRESH. -/
def QMGR_Q_CFG.SPILL_THRESH (i : Nat) : Fld := ⟨windowOff 3 (i), 39, 27, 0x20⟩
/-- QMGR_Q_CFG.LIFE_MS. -/
def QMGR_Q_CFG.LIFE_MS (i : Nat) : Fld := ⟨windowOff 3 (i), 15, 0, 0x0⟩

/-- QMGR_Q_STATUS (R403). -/
def QMGR_Q_STATUS.PKTS : Fld := ⟨0xd0028, 63, 41, 0x0⟩
/-- QMGR_Q_STATUS.CELLS. -/
def QMGR_Q_STATUS.CELLS : Fld := ⟨0xd0028, 40, 18, 0x0⟩
/-- QMGR_Q_STATUS.ONCHIP_CELLS. -/
def QMGR_Q_STATUS.ONCHIP_CELLS : Fld := ⟨0xd0028, 17, 5, 0x0⟩

/-- QMGR_FIFO_DROP (R403). -/
def QMGR_FIFO_DROP.GO : Fld := ⟨0xd0030, 63, 63, 0x0⟩
/-- QMGR_FIFO_DROP.FIFO. -/
def QMGR_FIFO_DROP.FIFO : Fld := ⟨0xd0030, 3, 0, 0x0⟩

/-- QMGR_FIFO_PROT (R403). -/
def QMGR_FIFO_PROT.UNCORR (i : Nat) : Fld := ⟨0xd0100 + 8 * i, 63, 63, 0x0⟩
/-- QMGR_FIFO_PROT.CORR_CNT. -/
def QMGR_FIFO_PROT.CORR_CNT (i : Nat) : Fld := ⟨0xd0100 + 8 * i, 15, 0, 0x0⟩

/-- QMGR_XING_PROT (R403). -/
def QMGR_XING_PROT.UNCORR : Fld := ⟨0xd0180, 63, 63, 0x0⟩
/-- QMGR_XING_PROT.CORR_CNT. -/
def QMGR_XING_PROT.CORR_CNT : Fld := ⟨0xd0180, 15, 0, 0x0⟩

/-- QMGR_MBOX_RX_DATA (R403). -/
def QMGR_MBOX_RX_DATA.DATA (i : Nat) : Fld := ⟨0xd0200 + 8 * i, 63, 0, 0x0⟩

/-- QMGR_MBOX_RX_STATUS (R403). -/
def QMGR_MBOX_RX_STATUS.SOP (i : Nat) : Fld := ⟨0xd0220 + 8 * i, 63, 63, 0x0⟩
/-- QMGR_MBOX_RX_STATUS.EOP. -/
def QMGR_MBOX_RX_STATUS.EOP (i : Nat) : Fld := ⟨0xd0220 + 8 * i, 62, 62, 0x0⟩
/-- QMGR_MBOX_RX_STATUS.POISON. -/
def QMGR_MBOX_RX_STATUS.POISON (i : Nat) : Fld := ⟨0xd0220 + 8 * i, 61, 61, 0x0⟩
/-- QMGR_MBOX_RX_STATUS.LEVEL. -/
def QMGR_MBOX_RX_STATUS.LEVEL (i : Nat) : Fld := ⟨0xd0220 + 8 * i, 10, 0, 0x0⟩

/-- QMGR_MBOX_TX_DATA (R403). -/
def QMGR_MBOX_TX_DATA.DATA (i : Nat) : Fld := ⟨0xd0240 + 8 * i, 63, 0, 0x0⟩

/-- QMGR_MBOX_TX_LAST (R403). -/
def QMGR_MBOX_TX_LAST.DATA (i : Nat) : Fld := ⟨0xd0260 + 8 * i, 63, 0, 0x0⟩

/-- QMGR_MBOX_TX_STATUS (R403). -/
def QMGR_MBOX_TX_STATUS.OVF (i : Nat) : Fld := ⟨0xd0280 + 8 * i, 63, 63, 0x0⟩
/-- QMGR_MBOX_TX_STATUS.REJECT. -/
def QMGR_MBOX_TX_STATUS.REJECT (i : Nat) : Fld := ⟨0xd0280 + 8 * i, 62, 62, 0x0⟩
/-- QMGR_MBOX_TX_STATUS.CAUSE. -/
def QMGR_MBOX_TX_STATUS.CAUSE (i : Nat) : Fld := ⟨0xd0280 + 8 * i, 61, 59, 0x0⟩
/-- QMGR_MBOX_TX_STATUS.SPACE. -/
def QMGR_MBOX_TX_STATUS.SPACE (i : Nat) : Fld := ⟨0xd0280 + 8 * i, 10, 0, 0x400⟩

/-- TIME_STATUS (R470). -/
def TIME_STATUS.STEP_USED : Fld := ⟨0xe0000, 63, 63, 0x0⟩
/-- TIME_STATUS.WAIVED. -/
def TIME_STATUS.WAIVED : Fld := ⟨0xe0000, 62, 62, 0x0⟩
/-- TIME_STATUS.STEP_ERR. -/
def TIME_STATUS.STEP_ERR : Fld := ⟨0xe0000, 61, 61, 0x0⟩
/-- TIME_STATUS.HOLDOVER. -/
def TIME_STATUS.HOLDOVER : Fld := ⟨0xe0000, 60, 60, 0x0⟩
/-- TIME_STATUS.SLEWING. -/
def TIME_STATUS.SLEWING : Fld := ⟨0xe0000, 59, 59, 0x0⟩
/-- TIME_STATUS.SEL. -/
def TIME_STATUS.SEL : Fld := ⟨0xe0000, 58, 57, 0x0⟩
/-- TIME_STATUS.PTP_Q. -/
def TIME_STATUS.PTP_Q : Fld := ⟨0xe0000, 56, 56, 0x0⟩
/-- TIME_STATUS.PPS_Q. -/
def TIME_STATUS.PPS_Q : Fld := ⟨0xe0000, 55, 55, 0x0⟩
/-- TIME_STATUS.EB_Q. -/
def TIME_STATUS.EB_Q : Fld := ⟨0xe0000, 54, 54, 0x0⟩
/-- TIME_STATUS.CLAMPED. -/
def TIME_STATUS.CLAMPED : Fld := ⟨0xe0000, 53, 53, 0x0⟩
/-- TIME_STATUS.CHG. -/
def TIME_STATUS.CHG : Fld := ⟨0xe0000, 52, 52, 0x0⟩

/-- TIME_NOW (R470). -/
def TIME_NOW.TIME_NS : Fld := ⟨0xe0008, 63, 0, 0x0⟩

/-- TIME_INC (R470). -/
def TIME_INC.INC : Fld := ⟨0xe0010, 35, 0, 0x1a0aaaaab⟩

/-- TIME_STEP (R470). -/
def TIME_STEP.OFS : Fld := ⟨0xe0018, 63, 0, 0x0⟩

/-- TIME_CTRL (R470). -/
def TIME_CTRL.WAIVE : Fld := ⟨0xe0020, 63, 63, 0x0⟩
/-- TIME_CTRL.SERVO_EN. -/
def TIME_CTRL.SERVO_EN : Fld := ⟨0xe0020, 62, 62, 0x0⟩

/-- TIME_SLEW (R470). -/
def TIME_SLEW.SLEW_REM : Fld := ⟨0xe0028, 47, 0, 0x0⟩

/-- TIME_SERVO (R470). -/
def TIME_SERVO.P_GAIN : Fld := ⟨0xe0030, 63, 48, 0xb3⟩
/-- TIME_SERVO.I_GAIN. -/
def TIME_SERVO.I_GAIN : Fld := ⟨0xe0030, 47, 32, 0x12⟩
/-- TIME_SERVO.STEP_THRESH. -/
def TIME_SERVO.STEP_THRESH : Fld := ⟨0xe0030, 31, 0, 0x3e8⟩

/-- TIME_OFS_IN (R470). -/
def TIME_OFS_IN.THETA : Fld := ⟨0xe0038, 63, 0, 0x0⟩

/-- TIME_OFS_LAST (R470). -/
def TIME_OFS_LAST.SRC : Fld := ⟨0xe0040, 63, 62, 0x0⟩
/-- TIME_OFS_LAST.THETA. -/
def TIME_OFS_LAST.THETA : Fld := ⟨0xe0040, 47, 0, 0x0⟩

/-- TIME_SRC_CTRL (R470). -/
def TIME_SRC_CTRL.PRIO_PTP : Fld := ⟨0xe0048, 63, 62, 0x0⟩
/-- TIME_SRC_CTRL.PRIO_PPS. -/
def TIME_SRC_CTRL.PRIO_PPS : Fld := ⟨0xe0048, 61, 60, 0x0⟩
/-- TIME_SRC_CTRL.PRIO_EB. -/
def TIME_SRC_CTRL.PRIO_EB : Fld := ⟨0xe0048, 59, 58, 0x0⟩
/-- TIME_SRC_CTRL.PTP_PORT. -/
def TIME_SRC_CTRL.PTP_PORT : Fld := ⟨0xe0048, 57, 56, 0x0⟩
/-- TIME_SRC_CTRL.PTP_DOMAIN. -/
def TIME_SRC_CTRL.PTP_DOMAIN : Fld := ⟨0xe0048, 55, 48, 0x0⟩
/-- TIME_SRC_CTRL.HOLDOVER_WAIT. -/
def TIME_SRC_CTRL.HOLDOVER_WAIT : Fld := ⟨0xe0048, 47, 36, 0x1e⟩
/-- TIME_SRC_CTRL.REVERT_S. -/
def TIME_SRC_CTRL.REVERT_S : Fld := ⟨0xe0048, 35, 28, 0xa⟩
/-- TIME_SRC_CTRL.PTP_TIMEOUT. -/
def TIME_SRC_CTRL.PTP_TIMEOUT : Fld := ⟨0xe0048, 27, 16, 0x12c⟩
/-- TIME_SRC_CTRL.UTC_OFS. -/
def TIME_SRC_CTRL.UTC_OFS : Fld := ⟨0xe0048, 15, 0, 0x0⟩

/-- TIME_PPS_CTRL (R470). -/
def TIME_PPS_CTRL.IN_EN : Fld := ⟨0xe0050, 63, 63, 0x0⟩
/-- TIME_PPS_CTRL.OUT_EN. -/
def TIME_PPS_CTRL.OUT_EN : Fld := ⟨0xe0050, 62, 62, 0x0⟩
/-- TIME_PPS_CTRL.OUT_WIDTH. -/
def TIME_PPS_CTRL.OUT_WIDTH : Fld := ⟨0xe0050, 61, 54, 0x64⟩
/-- TIME_PPS_CTRL.WIN. -/
def TIME_PPS_CTRL.WIN : Fld := ⟨0xe0050, 51, 32, 0x3e8⟩
/-- TIME_PPS_CTRL.IN_OFS. -/
def TIME_PPS_CTRL.IN_OFS : Fld := ⟨0xe0050, 31, 16, 0x0⟩
/-- TIME_PPS_CTRL.OUT_OFS. -/
def TIME_PPS_CTRL.OUT_OFS : Fld := ⟨0xe0050, 15, 0, 0x0⟩

/-- TIME_TC (R470). -/
def TIME_TC.TC_ETH : Fld := ⟨0xe0058, 63, 63, 0x0⟩
/-- TIME_TC.TC_HERD. -/
def TIME_TC.TC_HERD : Fld := ⟨0xe0058, 62, 62, 0x0⟩
/-- TIME_TC.NO_TRAILER. -/
def TIME_TC.NO_TRAILER : Fld := ⟨0xe0058, 31, 16, 0x0⟩
/-- TIME_TC.PDELAY_DROP. -/
def TIME_TC.PDELAY_DROP : Fld := ⟨0xe0058, 15, 0, 0x0⟩

/-- TIME_TS_WORD (R470). -/
def TIME_TS_WORD.DATA : Fld := ⟨0xe0060, 63, 0, 0x0⟩

/-- TIME_TS_STATUS (R470). -/
def TIME_TS_STATUS.OVF : Fld := ⟨0xe0068, 63, 63, 0x0⟩
/-- TIME_TS_STATUS.WORD1. -/
def TIME_TS_STATUS.WORD1 : Fld := ⟨0xe0068, 62, 62, 0x0⟩
/-- TIME_TS_STATUS.LOST. -/
def TIME_TS_STATUS.LOST : Fld := ⟨0xe0068, 31, 16, 0x0⟩
/-- TIME_TS_STATUS.LEVEL. -/
def TIME_TS_STATUS.LEVEL : Fld := ⟨0xe0068, 8, 0, 0x0⟩

/-- TIME_ALARM (R470). -/
def TIME_ALARM.ARMED (i : Nat) : Fld := ⟨0xe0100 + 8 * i, 63, 63, 0x0⟩
/-- TIME_ALARM.FIRED. -/
def TIME_ALARM.FIRED (i : Nat) : Fld := ⟨0xe0100 + 8 * i, 62, 62, 0x0⟩
/-- TIME_ALARM.TARGET. -/
def TIME_ALARM.TARGET (i : Nat) : Fld := ⟨0xe0100 + 8 * i, 31, 0, 0x0⟩

/-- TIME_PORT_LAT (R470). -/
def TIME_PORT_LAT.RX_LAT (i : Nat) : Fld := ⟨0xe0200 + 8 * i, 63, 32, 0x0⟩
/-- TIME_PORT_LAT.TX_LAT. -/
def TIME_PORT_LAT.TX_LAT (i : Nat) : Fld := ⟨0xe0200 + 8 * i, 31, 0, 0x0⟩

/-- ETH_STATUS (R499). -/
def ETH_STATUS.ETH0_UP : Fld := ⟨0xf0000, 63, 63, 0x0⟩
/-- ETH_STATUS.ETH1_UP. -/
def ETH_STATUS.ETH1_UP : Fld := ⟨0xf0000, 62, 62, 0x0⟩
/-- ETH_STATUS.MGMT_UP. -/
def ETH_STATUS.MGMT_UP : Fld := ⟨0xf0000, 61, 61, 0x0⟩
/-- ETH_STATUS.PRP_ON. -/
def ETH_STATUS.PRP_ON : Fld := ⟨0xf0000, 60, 60, 0x0⟩
/-- ETH_STATUS.MGMT_ON. -/
def ETH_STATUS.MGMT_ON : Fld := ⟨0xf0000, 59, 59, 0x0⟩

/-- ETH_PORT_CFG (R499). -/
def ETH_PORT_CFG.MODE (i : Nat) : Fld := ⟨0xf0008 + 8 * i, 61, 60, 0x2⟩
/-- ETH_PORT_CFG.VID. -/
def ETH_PORT_CFG.VID (i : Nat) : Fld := ⟨0xf0008 + 8 * i, 11, 0, 0x0⟩

/-- ETH_MAC_BASE (R499). -/
def ETH_MAC_BASE.BASE_MAC : Fld := ⟨0xf0018, 47, 0, 0x0⟩

/-- ETH_PRP_CTRL (R499). -/
def ETH_PRP_CTRL.PRP_EN : Fld := ⟨0xf0020, 63, 63, 0x0⟩
/-- ETH_PRP_CTRL.PRP_LIFE. -/
def ETH_PRP_CTRL.PRP_LIFE : Fld := ⟨0xf0020, 9, 0, 0x190⟩

/-- ETH_PRP_STATUS (R499). -/
def ETH_PRP_STATUS.USED : Fld := ⟨0xf0028, 63, 51, 0x0⟩
/-- ETH_PRP_STATUS.DISCARDED. -/
def ETH_PRP_STATUS.DISCARDED : Fld := ⟨0xf0028, 31, 16, 0x0⟩
/-- ETH_PRP_STATUS.EVICT. -/
def ETH_PRP_STATUS.EVICT : Fld := ⟨0xf0028, 15, 0, 0x0⟩

/-- ETH_MDIO (R499). -/
def ETH_MDIO.GO : Fld := ⟨0xf0030, 63, 63, 0x0⟩
/-- ETH_MDIO.BUSY. -/
def ETH_MDIO.BUSY : Fld := ⟨0xf0030, 62, 62, 0x0⟩
/-- ETH_MDIO.RD. -/
def ETH_MDIO.RD : Fld := ⟨0xf0030, 61, 61, 0x0⟩
/-- ETH_MDIO.PHY. -/
def ETH_MDIO.PHY : Fld := ⟨0xf0030, 57, 53, 0x0⟩
/-- ETH_MDIO.REG. -/
def ETH_MDIO.REG : Fld := ⟨0xf0030, 52, 48, 0x0⟩
/-- ETH_MDIO.DATA. -/
def ETH_MDIO.DATA : Fld := ⟨0xf0030, 15, 0, 0x0⟩

/-- ETH_MGMT_TX_DATA (R499). -/
def ETH_MGMT_TX_DATA.DATA : Fld := ⟨0xf0038, 63, 0, 0x0⟩

/-- ETH_MGMT_TX_LAST (R499). -/
def ETH_MGMT_TX_LAST.DATA : Fld := ⟨0xf0040, 63, 0, 0x0⟩

/-- ETH_MGMT_TX_STATUS (R499). -/
def ETH_MGMT_TX_STATUS.OVF : Fld := ⟨0xf0048, 63, 63, 0x0⟩
/-- ETH_MGMT_TX_STATUS.SPACE. -/
def ETH_MGMT_TX_STATUS.SPACE : Fld := ⟨0xf0048, 9, 0, 0x200⟩

/-- ETH_PAIR_STATUS (R518). -/
def ETH_PAIR_STATUS.ROLE : Fld := ⟨0xf0100, 63, 62, 0x0⟩
/-- ETH_PAIR_STATUS.SYNCING. -/
def ETH_PAIR_STATUS.SYNCING : Fld := ⟨0xf0100, 61, 61, 0x0⟩
/-- ETH_PAIR_STATUS.PEER_SEEN. -/
def ETH_PAIR_STATUS.PEER_SEEN : Fld := ⟨0xf0100, 60, 60, 0x0⟩
/-- ETH_PAIR_STATUS.PEER_SYNCING. -/
def ETH_PAIR_STATUS.PEER_SYNCING : Fld := ⟨0xf0100, 59, 59, 0x0⟩
/-- ETH_PAIR_STATUS.MISMATCH. -/
def ETH_PAIR_STATUS.MISMATCH : Fld := ⟨0xf0100, 58, 58, 0x0⟩
/-- ETH_PAIR_STATUS.DRILL_PEND. -/
def ETH_PAIR_STATUS.DRILL_PEND : Fld := ⟨0xf0100, 57, 57, 0x0⟩
/-- ETH_PAIR_STATUS.DRILL_FAIL. -/
def ETH_PAIR_STATUS.DRILL_FAIL : Fld := ⟨0xf0100, 56, 56, 0x0⟩
/-- ETH_PAIR_STATUS.UNIT. -/
def ETH_PAIR_STATUS.UNIT : Fld := ⟨0xf0100, 55, 55, 0x0⟩
/-- ETH_PAIR_STATUS.EPOCH. -/
def ETH_PAIR_STATUS.EPOCH : Fld := ⟨0xf0100, 31, 0, 0x0⟩

/-- ETH_PAIR_CTRL (R518). -/
def ETH_PAIR_CTRL.DRILL : Fld := ⟨0xf0108, 63, 63, 0x0⟩
/-- ETH_PAIR_CTRL.SYNC_DONE. -/
def ETH_PAIR_CTRL.SYNC_DONE : Fld := ⟨0xf0108, 62, 62, 0x0⟩

/-- ETH_PAIR_TIMING (R518). -/
def ETH_PAIR_TIMING.RENEW_MS : Fld := ⟨0xf0110, 47, 32, 0x64⟩
/-- ETH_PAIR_TIMING.LEASE_MS. -/
def ETH_PAIR_TIMING.LEASE_MS : Fld := ⟨0xf0110, 31, 16, 0x190⟩
/-- ETH_PAIR_TIMING.DRIFT_GUARD_MS. -/
def ETH_PAIR_TIMING.DRIFT_GUARD_MS : Fld := ⟨0xf0110, 15, 0, 0x14⟩

/-- ETH_PAIR_CFG (R518). -/
def ETH_PAIR_CFG.TWIN_CLASSES : Fld := ⟨0xf0118, 63, 56, 0x0⟩
/-- ETH_PAIR_CFG.SF_MASK. -/
def ETH_PAIR_CFG.SF_MASK : Fld := ⟨0xf0118, 55, 48, 0xff⟩
/-- ETH_PAIR_CFG.PAIR_KEY_SLOT. -/
def ETH_PAIR_CFG.PAIR_KEY_SLOT : Fld := ⟨0xf0118, 36, 32, 0x0⟩
/-- ETH_PAIR_CFG.DRILL_PERIOD_H. -/
def ETH_PAIR_CFG.DRILL_PERIOD_H : Fld := ⟨0xf0118, 31, 16, 0x0⟩
/-- ETH_PAIR_CFG.DRILL_PHASE_H. -/
def ETH_PAIR_CFG.DRILL_PHASE_H : Fld := ⟨0xf0118, 15, 0, 0x0⟩

/-- ETH_PAIR_PEER (R518). -/
def ETH_PAIR_PEER.PEER_MAC : Fld := ⟨0xf0120, 47, 0, 0x0⟩

/-- ETH_PAIR_COUNT (R518). -/
def ETH_PAIR_COUNT.LEASE_BAD : Fld := ⟨0xf0128, 63, 48, 0x0⟩
/-- ETH_PAIR_COUNT.STANDBY_DROP. -/
def ETH_PAIR_COUNT.STANDBY_DROP : Fld := ⟨0xf0128, 47, 32, 0x0⟩
/-- ETH_PAIR_COUNT.TWIN_NO_SEQ. -/
def ETH_PAIR_COUNT.TWIN_NO_SEQ : Fld := ⟨0xf0128, 31, 16, 0x0⟩
/-- ETH_PAIR_COUNT.STALE_EPOCH. -/
def ETH_PAIR_COUNT.STALE_EPOCH : Fld := ⟨0xf0128, 15, 0, 0x0⟩

/-- HERD_STATUS (R499). -/
def HERD_STATUS.HERD_ID : Fld := ⟨0x100000, 63, 61, 0x0⟩
/-- HERD_STATUS.MEMBERS. -/
def HERD_STATUS.MEMBERS : Fld := ⟨0x100000, 60, 57, 0x1⟩
/-- HERD_STATUS.E_UP. -/
def HERD_STATUS.E_UP : Fld := ⟨0x100000, 56, 56, 0x0⟩
/-- HERD_STATUS.W_UP. -/
def HERD_STATUS.W_UP : Fld := ⟨0x100000, 55, 55, 0x0⟩
/-- HERD_STATUS.REPL_SYNC. -/
def HERD_STATUS.REPL_SYNC : Fld := ⟨0x100000, 54, 54, 0x0⟩
/-- HERD_STATUS.REACH. -/
def HERD_STATUS.REACH : Fld := ⟨0x100000, 53, 46, 0x0⟩
/-- HERD_STATUS.MISMATCH. -/
def HERD_STATUS.MISMATCH : Fld := ⟨0x100000, 45, 38, 0x0⟩
/-- HERD_STATUS.TIME_DIR. -/
def HERD_STATUS.TIME_DIR : Fld := ⟨0x100000, 37, 37, 0x0⟩

/-- HERD_CTRL (R499). -/
def HERD_CTRL.PREFIX_FROM_MASTER : Fld := ⟨0x100008, 63, 63, 0x0⟩
/-- HERD_CTRL.HERD_TIME. -/
def HERD_CTRL.HERD_TIME : Fld := ⟨0x100008, 62, 62, 0x0⟩
/-- HERD_CTRL.LEARN_FWD. -/
def HERD_CTRL.LEARN_FWD : Fld := ⟨0x100008, 61, 61, 0x0⟩
/-- HERD_CTRL.BACKHAUL_AT_MASTER. -/
def HERD_CTRL.BACKHAUL_AT_MASTER : Fld := ⟨0x100008, 60, 60, 0x0⟩
/-- HERD_CTRL.HERD_SEED. -/
def HERD_CTRL.HERD_SEED : Fld := ⟨0x100008, 15, 0, 0x0⟩

/-- HERD_COUNT (R499). -/
def HERD_COUNT.SEEK_DROP : Fld := ⟨0x100010, 63, 48, 0x0⟩
/-- HERD_COUNT.SEEK_END. -/
def HERD_COUNT.SEEK_END : Fld := ⟨0x100010, 47, 32, 0x0⟩
/-- HERD_COUNT.CRC_ERR. -/
def HERD_COUNT.CRC_ERR : Fld := ⟨0x100010, 31, 16, 0x0⟩
/-- HERD_COUNT.HOP_DROP. -/
def HERD_COUNT.HOP_DROP : Fld := ⟨0x100010, 15, 0, 0x0⟩

/-- HERD_LINK_DELAY (R499). -/
def HERD_LINK_DELAY.DELAY_E : Fld := ⟨0x100018, 63, 32, 0x0⟩
/-- HERD_LINK_DELAY.DELAY_W. -/
def HERD_LINK_DELAY.DELAY_W : Fld := ⟨0x100018, 31, 0, 0x0⟩

/-- NFC_STATUS (R592). -/
def NFC_STATUS.READY : Fld := ⟨0x110000, 63, 63, 0x0⟩
/-- NFC_STATUS.FIELD_ON. -/
def NFC_STATUS.FIELD_ON : Fld := ⟨0x110000, 62, 62, 0x0⟩
/-- NFC_STATUS.EXT_FIELD. -/
def NFC_STATUS.EXT_FIELD : Fld := ⟨0x110000, 61, 61, 0x0⟩
/-- NFC_STATUS.EMU_SESSION. -/
def NFC_STATUS.EMU_SESSION : Fld := ⟨0x110000, 60, 60, 0x0⟩
/-- NFC_STATUS.EMU_ACTIVE. -/
def NFC_STATUS.EMU_ACTIVE : Fld := ⟨0x110000, 59, 59, 0x0⟩
/-- NFC_STATUS.PROVISIONED. -/
def NFC_STATUS.PROVISIONED : Fld := ⟨0x110000, 58, 58, 0x0⟩
/-- NFC_STATUS.TUNE. -/
def NFC_STATUS.TUNE : Fld := ⟨0x110000, 57, 50, 0x0⟩

/-- NFC_RDR_CTRL (R592). -/
def NFC_RDR_CTRL.FIELD : Fld := ⟨0x110008, 63, 63, 0x0⟩
/-- NFC_RDR_CTRL.PROTO. -/
def NFC_RDR_CTRL.PROTO : Fld := ⟨0x110008, 62, 61, 0x0⟩
/-- NFC_RDR_CTRL.RATE. -/
def NFC_RDR_CTRL.RATE : Fld := ⟨0x110008, 60, 59, 0x0⟩
/-- NFC_RDR_CTRL.ASK100. -/
def NFC_RDR_CTRL.ASK100 : Fld := ⟨0x110008, 58, 58, 0x0⟩
/-- NFC_RDR_CTRL.DRIVE_MW. -/
def NFC_RDR_CTRL.DRIVE_MW : Fld := ⟨0x110008, 41, 32, 0x1f4⟩

/-- NFC_RDR_TIMING (R592). -/
def NFC_RDR_TIMING.GUARD : Fld := ⟨0x110010, 63, 48, 0x1fe⟩
/-- NFC_RDR_TIMING.RESET_T. -/
def NFC_RDR_TIMING.RESET_T : Fld := ⟨0x110010, 47, 32, 0x1fe⟩
/-- NFC_RDR_TIMING.TIMEOUT. -/
def NFC_RDR_TIMING.TIMEOUT : Fld := ⟨0x110010, 19, 0, 0x1388⟩

/-- NFC_RDR_BUF (R592). -/
def NFC_RDR_BUF.ADDR : Fld := ⟨0x110018, 39, 10, 0x0⟩

/-- NFC_RDR_CMD (R592). -/
def NFC_RDR_CMD.GO : Fld := ⟨0x110020, 63, 63, 0x0⟩
/-- NFC_RDR_CMD.CRC_TX. -/
def NFC_RDR_CMD.CRC_TX : Fld := ⟨0x110020, 62, 62, 0x0⟩
/-- NFC_RDR_CMD.CRC_RX. -/
def NFC_RDR_CMD.CRC_RX : Fld := ⟨0x110020, 61, 61, 0x0⟩
/-- NFC_RDR_CMD.PARITY. -/
def NFC_RDR_CMD.PARITY : Fld := ⟨0x110020, 60, 60, 0x0⟩
/-- NFC_RDR_CMD.TX_BITS. -/
def NFC_RDR_CMD.TX_BITS : Fld := ⟨0x110020, 12, 0, 0x0⟩

/-- NFC_RDR_RESULT (R592). -/
def NFC_RDR_RESULT.BUSY : Fld := ⟨0x110028, 63, 63, 0x0⟩
/-- NFC_RDR_RESULT.DONE. -/
def NFC_RDR_RESULT.DONE : Fld := ⟨0x110028, 62, 62, 0x0⟩
/-- NFC_RDR_RESULT.CAUSE. -/
def NFC_RDR_RESULT.CAUSE : Fld := ⟨0x110028, 61, 58, 0x0⟩
/-- NFC_RDR_RESULT.RX_BITS. -/
def NFC_RDR_RESULT.RX_BITS : Fld := ⟨0x110028, 57, 45, 0x0⟩
/-- NFC_RDR_RESULT.COLL_POS. -/
def NFC_RDR_RESULT.COLL_POS : Fld := ⟨0x110028, 44, 32, 0x0⟩

/-- NFC_AC_CTRL (R592). -/
def NFC_AC_CTRL.GO : Fld := ⟨0x110030, 63, 63, 0x0⟩
/-- NFC_AC_CTRL.PROTO. -/
def NFC_AC_CTRL.PROTO : Fld := ⟨0x110030, 62, 62, 0x0⟩
/-- NFC_AC_CTRL.ALL. -/
def NFC_AC_CTRL.ALL : Fld := ⟨0x110030, 61, 61, 0x0⟩
/-- NFC_AC_CTRL.AFI_EN. -/
def NFC_AC_CTRL.AFI_EN : Fld := ⟨0x110030, 60, 60, 0x0⟩
/-- NFC_AC_CTRL.AFI. -/
def NFC_AC_CTRL.AFI : Fld := ⟨0x110030, 59, 52, 0x0⟩
/-- NFC_AC_CTRL.MAX. -/
def NFC_AC_CTRL.MAX : Fld := ⟨0x110030, 51, 43, 0x0⟩
/-- NFC_AC_CTRL.ADDR. -/
def NFC_AC_CTRL.ADDR : Fld := ⟨0x110030, 39, 4, 0x0⟩

/-- NFC_AC_STATUS (R592). -/
def NFC_AC_STATUS.BUSY : Fld := ⟨0x110038, 63, 63, 0x0⟩
/-- NFC_AC_STATUS.DONE. -/
def NFC_AC_STATUS.DONE : Fld := ⟨0x110038, 62, 62, 0x0⟩
/-- NFC_AC_STATUS.CAUSE. -/
def NFC_AC_STATUS.CAUSE : Fld := ⟨0x110038, 61, 59, 0x0⟩
/-- NFC_AC_STATUS.COUNT. -/
def NFC_AC_STATUS.COUNT : Fld := ⟨0x110038, 58, 50, 0x0⟩
/-- NFC_AC_STATUS.UNRESOLVED. -/
def NFC_AC_STATUS.UNRESOLVED : Fld := ⟨0x110038, 49, 42, 0x0⟩
/-- NFC_AC_STATUS.ROUNDS. -/
def NFC_AC_STATUS.ROUNDS : Fld := ⟨0x110038, 41, 32, 0x0⟩

/-- NFC_ORIG_CTRL (R592). -/
def NFC_ORIG_CTRL.GO : Fld := ⟨0x110040, 63, 63, 0x0⟩
/-- NFC_ORIG_CTRL.HASH. -/
def NFC_ORIG_CTRL.HASH : Fld := ⟨0x110040, 62, 62, 0x0⟩
/-- NFC_ORIG_CTRL.ADDR. -/
def NFC_ORIG_CTRL.ADDR : Fld := ⟨0x110040, 39, 6, 0x0⟩

/-- NFC_ORIG_STATUS (R592). -/
def NFC_ORIG_STATUS.BUSY : Fld := ⟨0x110048, 63, 63, 0x0⟩
/-- NFC_ORIG_STATUS.DONE. -/
def NFC_ORIG_STATUS.DONE : Fld := ⟨0x110048, 62, 62, 0x0⟩
/-- NFC_ORIG_STATUS.MATCH. -/
def NFC_ORIG_STATUS.MATCH : Fld := ⟨0x110048, 61, 61, 0x0⟩
/-- NFC_ORIG_STATUS.KEY. -/
def NFC_ORIG_STATUS.KEY : Fld := ⟨0x110048, 60, 58, 0x0⟩
/-- NFC_ORIG_STATUS.BAD_INPUT. -/
def NFC_ORIG_STATUS.BAD_INPUT : Fld := ⟨0x110048, 57, 57, 0x0⟩

/-- NFC_PRES_CTRL (R592). -/
def NFC_PRES_CTRL.EN : Fld := ⟨0x110050, 63, 63, 0x0⟩
/-- NFC_PRES_CTRL.PING_MS. -/
def NFC_PRES_CTRL.PING_MS : Fld := ⟨0x110050, 41, 32, 0x1f4⟩
/-- NFC_PRES_CTRL.AMP_THR. -/
def NFC_PRES_CTRL.AMP_THR : Fld := ⟨0x110050, 15, 8, 0x1e⟩
/-- NFC_PRES_CTRL.PHASE_THR. -/
def NFC_PRES_CTRL.PHASE_THR : Fld := ⟨0x110050, 7, 0, 0x14⟩

/-- NFC_PRES_STATUS (R592). -/
def NFC_PRES_STATUS.PRESENT : Fld := ⟨0x110058, 63, 63, 0x0⟩
/-- NFC_PRES_STATUS.SLEEP_WAKE. -/
def NFC_PRES_STATUS.SLEEP_WAKE : Fld := ⟨0x110058, 62, 62, 0x0⟩
/-- NFC_PRES_STATUS.AMP_DEV. -/
def NFC_PRES_STATUS.AMP_DEV : Fld := ⟨0x110058, 47, 32, 0x0⟩
/-- NFC_PRES_STATUS.PHASE_DEV. -/
def NFC_PRES_STATUS.PHASE_DEV : Fld := ⟨0x110058, 31, 16, 0x0⟩
/-- NFC_PRES_STATUS.PINGS. -/
def NFC_PRES_STATUS.PINGS : Fld := ⟨0x110058, 15, 0, 0x0⟩

/-- NFC_FWM_CMD (R592). -/
def NFC_FWM_CMD.GO : Fld := ⟨0x110060, 63, 63, 0x0⟩
/-- NFC_FWM_CMD.OP. -/
def NFC_FWM_CMD.OP : Fld := ⟨0x110060, 62, 59, 0x0⟩
/-- NFC_FWM_CMD.INDEX. -/
def NFC_FWM_CMD.INDEX : Fld := ⟨0x110060, 44, 40, 0x0⟩
/-- NFC_FWM_CMD.ADDR. -/
def NFC_FWM_CMD.ADDR : Fld := ⟨0x110060, 39, 8, 0x0⟩

/-- NFC_FWM_STATUS (R592). -/
def NFC_FWM_STATUS.BUSY : Fld := ⟨0x110068, 63, 63, 0x0⟩
/-- NFC_FWM_STATUS.DONE. -/
def NFC_FWM_STATUS.DONE : Fld := ⟨0x110068, 62, 62, 0x0⟩
/-- NFC_FWM_STATUS.FAIL. -/
def NFC_FWM_STATUS.FAIL : Fld := ⟨0x110068, 61, 61, 0x0⟩
/-- NFC_FWM_STATUS.CAUSE. -/
def NFC_FWM_STATUS.CAUSE : Fld := ⟨0x110068, 60, 57, 0x0⟩
/-- NFC_FWM_STATUS.EMU_WRITE. -/
def NFC_FWM_STATUS.EMU_WRITE : Fld := ⟨0x110068, 56, 56, 0x0⟩
/-- NFC_FWM_STATUS.VERSION. -/
def NFC_FWM_STATUS.VERSION : Fld := ⟨0x110068, 55, 40, 0x0⟩

/-- NFC_EMU_CTRL (R592). -/
def NFC_EMU_CTRL.EN : Fld := ⟨0x110070, 63, 63, 0x1⟩
/-- NFC_EMU_CTRL.ACTIVE_EN. -/
def NFC_EMU_CTRL.ACTIVE_EN : Fld := ⟨0x110070, 62, 62, 0x1⟩
/-- NFC_EMU_CTRL.SESSIONS. -/
def NFC_EMU_CTRL.SESSIONS : Fld := ⟨0x110070, 47, 32, 0x0⟩
/-- NFC_EMU_CTRL.WRITES. -/
def NFC_EMU_CTRL.WRITES : Fld := ⟨0x110070, 31, 16, 0x0⟩

/-- LAMB_CTRL (R691). -/
def LAMB_CTRL.EN : Fld := ⟨0x120000, 63, 63, 0x0⟩
/-- LAMB_CTRL.CAL_OK. -/
def LAMB_CTRL.CAL_OK : Fld := ⟨0x120000, 62, 62, 0x0⟩
/-- LAMB_CTRL.THRESH. -/
def LAMB_CTRL.THRESH : Fld := ⟨0x120000, 15, 8, 0x0⟩
/-- LAMB_CTRL.ERR_TOL. -/
def LAMB_CTRL.ERR_TOL : Fld := ⟨0x120000, 2, 0, 0x2⟩

/-- LAMB_PAT (R691). -/
def LAMB_PAT.EN (i : Nat) : Fld := ⟨0x120010 + 8 * i, 63, 63, 0x0⟩
/-- LAMB_PAT.ADDR. -/
def LAMB_PAT.ADDR (i : Nat) : Fld := ⟨0x120010 + 8 * i, 31, 0, 0x0⟩

/-- LAMB_WAKE (R691). -/
def LAMB_WAKE.CAUSE : Fld := ⟨0x120030, 63, 59, 0x0⟩
/-- LAMB_WAKE.PAT. -/
def LAMB_WAKE.PAT : Fld := ⟨0x120030, 58, 57, 0x0⟩
/-- LAMB_WAKE.IGNORED. -/
def LAMB_WAKE.IGNORED : Fld := ⟨0x120030, 47, 32, 0x0⟩
/-- LAMB_WAKE.WAKES. -/
def LAMB_WAKE.WAKES : Fld := ⟨0x120030, 31, 16, 0x0⟩

/-- PERF_CTRL (R703). -/
def PERF_CTRL.EN : Fld := ⟨0x130000, 63, 63, 0x0⟩
/-- PERF_CTRL.PERIOD_US. -/
def PERF_CTRL.PERIOD_US : Fld := ⟨0x130000, 25, 0, 0xf4240⟩

/-- PERF_RING_BASE (R703). -/
def PERF_RING_BASE.ADDR : Fld := ⟨0x130008, 39, 16, 0x0⟩
/-- PERF_RING_BASE.COUNT. -/
def PERF_RING_BASE.COUNT : Fld := ⟨0x130008, 15, 0, 0x0⟩

/-- PERF_RING_WR (R703). -/
def PERF_RING_WR.WR : Fld := ⟨0x130010, 15, 0, 0x0⟩

/-- PERF_RING_RD (R703). -/
def PERF_RING_RD.RD : Fld := ⟨0x130018, 15, 0, 0x0⟩

/-- PERF_STATUS (R703). -/
def PERF_STATUS.MISSED : Fld := ⟨0x130020, 63, 48, 0x0⟩
/-- PERF_STATUS.LAST_SEQ. -/
def PERF_STATUS.LAST_SEQ : Fld := ⟨0x130020, 47, 0, 0x0⟩

/-- PERF_CTR_SEL (R703). -/
def PERF_CTR_SEL.CTR : Fld := ⟨0x130028, 9, 0, 0x0⟩

/-- PERF_CTR (R703). -/
def PERF_CTR.OVF : Fld := ⟨0x130030, 63, 63, 0x0⟩
/-- PERF_CTR.VALUE. -/
def PERF_CTR.VALUE : Fld := ⟨0x130030, 47, 0, 0x0⟩

/-- HEALTH_STATUS (R690). -/
def HEALTH_STATUS.TEMP : Fld := ⟨0x140000, 63, 52, 0x0⟩
/-- HEALTH_STATUS.PROFILE. -/
def HEALTH_STATUS.PROFILE : Fld := ⟨0x140000, 51, 50, 0x0⟩
/-- HEALTH_STATUS.ON_BACKUP. -/
def HEALTH_STATUS.ON_BACKUP : Fld := ⟨0x140000, 49, 49, 0x0⟩
/-- HEALTH_STATUS.THERMAL_OFF. -/
def HEALTH_STATUS.THERMAL_OFF : Fld := ⟨0x140000, 48, 48, 0x0⟩
/-- HEALTH_STATUS.STEPS. -/
def HEALTH_STATUS.STEPS : Fld := ⟨0x140000, 47, 43, 0x0⟩
/-- HEALTH_STATUS.PEAK_TEMP. -/
def HEALTH_STATUS.PEAK_TEMP : Fld := ⟨0x140000, 42, 31, 0x0⟩
/-- HEALTH_STATUS.VBAT. -/
def HEALTH_STATUS.VBAT : Fld := ⟨0x140000, 30, 18, 0x0⟩

/-- HEALTH_CFG (R690). -/
def HEALTH_CFG.WARN_DAYS : Fld := ⟨0x140008, 63, 48, 0x16d⟩
/-- HEALTH_CFG.VBAT_WAKE_MIN. -/
def HEALTH_CFG.VBAT_WAKE_MIN : Fld := ⟨0x140008, 47, 32, 0xce4⟩
/-- HEALTH_CFG.OUT_DEBOUNCE_MS. -/
def HEALTH_CFG.OUT_DEBOUNCE_MS : Fld := ⟨0x140008, 31, 16, 0x32⟩
/-- HEALTH_CFG.OUTAGE_EN. -/
def HEALTH_CFG.OUTAGE_EN : Fld := ⟨0x140008, 15, 15, 0x0⟩
/-- HEALTH_CFG.AMB_MAX. -/
def HEALTH_CFG.AMB_MAX : Fld := ⟨0x140008, 7, 0, 0x55⟩

/-- HEALTH_SLEEP (R690). -/
def HEALTH_SLEEP.GO : Fld := ⟨0x140010, 63, 63, 0x0⟩
/-- HEALTH_SLEEP.REFUSED. -/
def HEALTH_SLEEP.REFUSED : Fld := ⟨0x140010, 62, 62, 0x0⟩
/-- HEALTH_SLEEP.CAUSE. -/
def HEALTH_SLEEP.CAUSE : Fld := ⟨0x140010, 61, 59, 0x0⟩

/-- HEALTH_MON_SEL (R690). -/
def HEALTH_MON_SEL.MON : Fld := ⟨0x140018, 4, 0, 0x0⟩

/-- HEALTH_MON (R690). -/
def HEALTH_MON.EOL_DAYS (i : Nat) : Fld := ⟨windowOff 16 (i), 63, 48, 0xffff⟩
/-- HEALTH_MON.CONF. -/
def HEALTH_MON.CONF (i : Nat) : Fld := ⟨windowOff 16 (i), 47, 46, 0x0⟩
/-- HEALTH_MON.SAMPLES. -/
def HEALTH_MON.SAMPLES (i : Nat) : Fld := ⟨windowOff 16 (i), 45, 32, 0x0⟩
/-- HEALTH_MON.VALUE. -/
def HEALTH_MON.VALUE (i : Nat) : Fld := ⟨windowOff 16 (i), 31, 0, 0x0⟩

/-- SAFE_STATUS (R666). -/
def SAFE_STATUS.SAFE : Fld := ⟨0x150000, 63, 63, 0x0⟩
/-- SAFE_STATUS.PEER_SAFE. -/
def SAFE_STATUS.PEER_SAFE : Fld := ⟨0x150000, 62, 62, 0x0⟩
/-- SAFE_STATUS.FW_DONE. -/
def SAFE_STATUS.FW_DONE : Fld := ⟨0x150000, 61, 61, 0x0⟩
/-- SAFE_STATUS.MECH. -/
def SAFE_STATUS.MECH : Fld := ⟨0x150000, 55, 48, 0x0⟩
/-- SAFE_STATUS.IN_FLIGHT. -/
def SAFE_STATUS.IN_FLIGHT : Fld := ⟨0x150000, 47, 40, 0x0⟩
/-- SAFE_STATUS.DETAIL. -/
def SAFE_STATUS.DETAIL : Fld := ⟨0x150000, 31, 0, 0x0⟩

/-- SAFE_MON_STATUS (R666). -/
def SAFE_MON_STATUS.APP_WD : Fld := ⟨0x150008, 19, 19, 0x0⟩
/-- SAFE_MON_STATUS.ECC_REPORT. -/
def SAFE_MON_STATUS.ECC_REPORT : Fld := ⟨0x150008, 18, 18, 0x0⟩
/-- SAFE_MON_STATUS.FIFO_REPORT. -/
def SAFE_MON_STATUS.FIFO_REPORT : Fld := ⟨0x150008, 17, 17, 0x0⟩
/-- SAFE_MON_STATUS.CLK_REPORT. -/
def SAFE_MON_STATUS.CLK_REPORT : Fld := ⟨0x150008, 16, 16, 0x0⟩
/-- SAFE_MON_STATUS.MON. -/
def SAFE_MON_STATUS.MON : Fld := ⟨0x150008, 15, 1, 0x0⟩

/-- SAFE_CTRL (R666). -/
def SAFE_CTRL.FORCE : Fld := ⟨0x150010, 63, 63, 0x0⟩
/-- SAFE_CTRL.FW_DONE. -/
def SAFE_CTRL.FW_DONE : Fld := ⟨0x150010, 62, 62, 0x0⟩

/-- SAFE_WD_KICK (R666). -/
def SAFE_WD_KICK.KEY : Fld := ⟨0x150018, 7, 0, 0x0⟩

/-- SAFE_APP_KICK (R666). -/
def SAFE_APP_KICK.KEY : Fld := ⟨0x150020, 7, 0, 0x0⟩

/-- SAFE_WD_CFG (R666). -/
def SAFE_WD_CFG.WD_MIN_US : Fld := ⟨0x150028, 63, 48, 0x64⟩
/-- SAFE_WD_CFG.WD_MAX_US. -/
def SAFE_WD_CFG.WD_MAX_US : Fld := ⟨0x150028, 47, 32, 0x1f40⟩
/-- SAFE_WD_CFG.FW_REACT_US. -/
def SAFE_WD_CFG.FW_REACT_US : Fld := ⟨0x150028, 31, 16, 0x0⟩
/-- SAFE_WD_CFG.APP_WD_MS. -/
def SAFE_WD_CFG.APP_WD_MS : Fld := ⟨0x150028, 15, 0, 0x0⟩

/-- SAFE_CMD_PUSH (R666). -/
def SAFE_CMD_PUSH.DATA : Fld := ⟨0x150030, 63, 0, 0x0⟩

/-- SAFE_CMD_PUSH_LAST (R666). -/
def SAFE_CMD_PUSH_LAST.DATA : Fld := ⟨0x150038, 63, 0, 0x0⟩

/-- SAFE_CMD_STATUS (R666). -/
def SAFE_CMD_STATUS.OVF : Fld := ⟨0x150040, 63, 63, 0x0⟩
/-- SAFE_CMD_STATUS.REJECT. -/
def SAFE_CMD_STATUS.REJECT : Fld := ⟨0x150040, 62, 62, 0x0⟩
/-- SAFE_CMD_STATUS.CAUSE. -/
def SAFE_CMD_STATUS.CAUSE : Fld := ⟨0x150040, 61, 58, 0x0⟩
/-- SAFE_CMD_STATUS.SPACE. -/
def SAFE_CMD_STATUS.SPACE : Fld := ⟨0x150040, 57, 49, 0x100⟩

/-- SAFE_SRC (R666). -/
def SAFE_SRC.KIND (i : Nat) : Fld := ⟨0x150100 + 8 * i, 63, 62, 0x0⟩
/-- SAFE_SRC.GPIO. -/
def SAFE_SRC.GPIO (i : Nat) : Fld := ⟨0x150100 + 8 * i, 61, 57, 0x0⟩
/-- SAFE_SRC.DEADLINE_MS. -/
def SAFE_SRC.DEADLINE_MS (i : Nat) : Fld := ⟨0x150100 + 8 * i, 31, 16, 0x0⟩
/-- SAFE_SRC.BUDGET_NS. -/
def SAFE_SRC.BUDGET_NS (i : Nat) : Fld := ⟨0x150100 + 8 * i, 15, 0, 0x0⟩

/-- XSPI_PROG_ADDR (R646). -/
def XSPI_PROG_ADDR.SRC : Fld := ⟨0x160000, 59, 28, 0x0⟩
/-- XSPI_PROG_ADDR.OFS. -/
def XSPI_PROG_ADDR.OFS : Fld := ⟨0x160000, 27, 0, 0x0⟩

/-- XSPI_PROG_CMD (R646). -/
def XSPI_PROG_CMD.GO : Fld := ⟨0x160008, 63, 63, 0x0⟩
/-- XSPI_PROG_CMD.OP. -/
def XSPI_PROG_CMD.OP : Fld := ⟨0x160008, 62, 60, 0x0⟩
/-- XSPI_PROG_CMD.LEN. -/
def XSPI_PROG_CMD.LEN : Fld := ⟨0x160008, 16, 0, 0x0⟩

/-- XSPI_PROG_STATUS (R646). -/
def XSPI_PROG_STATUS.BUSY : Fld := ⟨0x160010, 63, 63, 0x0⟩
/-- XSPI_PROG_STATUS.DONE. -/
def XSPI_PROG_STATUS.DONE : Fld := ⟨0x160010, 62, 62, 0x0⟩
/-- XSPI_PROG_STATUS.FAIL. -/
def XSPI_PROG_STATUS.FAIL : Fld := ⟨0x160010, 61, 61, 0x0⟩
/-- XSPI_PROG_STATUS.CAUSE. -/
def XSPI_PROG_STATUS.CAUSE : Fld := ⟨0x160010, 60, 57, 0x0⟩

/-- XSPI_UPD_CTRL (R646). -/
def XSPI_UPD_CTRL.GO : Fld := ⟨0x160018, 63, 63, 0x0⟩
/-- XSPI_UPD_CTRL.OP. -/
def XSPI_UPD_CTRL.OP : Fld := ⟨0x160018, 57, 56, 0x0⟩
/-- XSPI_UPD_CTRL.MOTION_SW. -/
def XSPI_UPD_CTRL.MOTION_SW : Fld := ⟨0x160018, 0, 0, 0x0⟩

/-- XSPI_UPD_STATUS (R646). -/
def XSPI_UPD_STATUS.BUSY : Fld := ⟨0x160020, 63, 63, 0x0⟩
/-- XSPI_UPD_STATUS.DONE. -/
def XSPI_UPD_STATUS.DONE : Fld := ⟨0x160020, 62, 62, 0x0⟩
/-- XSPI_UPD_STATUS.FAIL. -/
def XSPI_UPD_STATUS.FAIL : Fld := ⟨0x160020, 61, 61, 0x0⟩
/-- XSPI_UPD_STATUS.PENDING. -/
def XSPI_UPD_STATUS.PENDING : Fld := ⟨0x160020, 60, 60, 0x0⟩
/-- XSPI_UPD_STATUS.TRIAL. -/
def XSPI_UPD_STATUS.TRIAL : Fld := ⟨0x160020, 59, 59, 0x0⟩
/-- XSPI_UPD_STATUS.TRIAL_N. -/
def XSPI_UPD_STATUS.TRIAL_N : Fld := ⟨0x160020, 58, 51, 0x0⟩
/-- XSPI_UPD_STATUS.CAUSE. -/
def XSPI_UPD_STATUS.CAUSE : Fld := ⟨0x160020, 50, 47, 0x0⟩

/-- DDRC_STATUS (R726). -/
def DDRC_STATUS.TRAINED : Fld := ⟨0x170000, 63, 63, 0x0⟩
/-- DDRC_STATUS.SIZE_GIB. -/
def DDRC_STATUS.SIZE_GIB : Fld := ⟨0x170000, 62, 60, 0x0⟩

/-- DDRC_ECC (R726). -/
def DDRC_ECC.UNCORR : Fld := ⟨0x170008, 63, 63, 0x0⟩
/-- DDRC_ECC.CORR. -/
def DDRC_ECC.CORR : Fld := ⟨0x170008, 55, 40, 0x0⟩
/-- DDRC_ECC.ADDR. -/
def DDRC_ECC.ADDR : Fld := ⟨0x170008, 39, 6, 0x0⟩

/-- PCIE_STATUS (R499). -/
def PCIE_STATUS.LINK_UP : Fld := ⟨0x180000, 63, 63, 0x0⟩
/-- PCIE_STATUS.LANES. -/
def PCIE_STATUS.LANES : Fld := ⟨0x180000, 62, 61, 0x0⟩
/-- PCIE_STATUS.SPEED. -/
def PCIE_STATUS.SPEED : Fld := ⟨0x180000, 60, 59, 0x0⟩
/-- PCIE_STATUS.MSI_EN. -/
def PCIE_STATUS.MSI_EN : Fld := ⟨0x180000, 58, 58, 0x0⟩
/-- PCIE_STATUS.WR_ERR. -/
def PCIE_STATUS.WR_ERR : Fld := ⟨0x180000, 15, 0, 0x0⟩

/-- PCIE_MSI_REQ (R499). -/
def PCIE_MSI_REQ.GO : Fld := ⟨0x180008, 63, 63, 0x0⟩

/-- IO_GPIO_DIR (R727). -/
def IO_GPIO_DIR.PIN : Fld := ⟨0x190000, 23, 0, 0x0⟩

/-- IO_GPIO_OUT (R727). -/
def IO_GPIO_OUT.PIN : Fld := ⟨0x190008, 23, 0, 0x0⟩

/-- IO_GPIO_IN (R727). -/
def IO_GPIO_IN.PIN : Fld := ⟨0x190010, 23, 0, 0x0⟩

/-- IO_UART_CFG (R727). -/
def IO_UART_CFG.EN (i : Nat) : Fld := ⟨0x190100 + 8 * i, 63, 63, 0x0⟩
/-- IO_UART_CFG.STOP2. -/
def IO_UART_CFG.STOP2 (i : Nat) : Fld := ⟨0x190100 + 8 * i, 62, 62, 0x0⟩
/-- IO_UART_CFG.PARITY. -/
def IO_UART_CFG.PARITY (i : Nat) : Fld := ⟨0x190100 + 8 * i, 61, 60, 0x0⟩
/-- IO_UART_CFG.TX_OVF. -/
def IO_UART_CFG.TX_OVF (i : Nat) : Fld := ⟨0x190100 + 8 * i, 59, 59, 0x0⟩
/-- IO_UART_CFG.RX_OVF. -/
def IO_UART_CFG.RX_OVF (i : Nat) : Fld := ⟨0x190100 + 8 * i, 58, 58, 0x0⟩
/-- IO_UART_CFG.RX_LEVEL. -/
def IO_UART_CFG.RX_LEVEL (i : Nat) : Fld := ⟨0x190100 + 8 * i, 47, 40, 0x0⟩
/-- IO_UART_CFG.TX_SPACE. -/
def IO_UART_CFG.TX_SPACE (i : Nat) : Fld := ⟨0x190100 + 8 * i, 39, 32, 0x40⟩
/-- IO_UART_CFG.DIV. -/
def IO_UART_CFG.DIV (i : Nat) : Fld := ⟨0x190100 + 8 * i, 15, 0, 0x208⟩

/-- IO_UART_TX (R727). -/
def IO_UART_TX.DATA (i : Nat) : Fld := ⟨0x190110 + 8 * i, 7, 0, 0x0⟩

/-- IO_UART_RX (R727). -/
def IO_UART_RX.VALID (i : Nat) : Fld := ⟨0x190120 + 8 * i, 63, 63, 0x0⟩
/-- IO_UART_RX.FRAME_ERR. -/
def IO_UART_RX.FRAME_ERR (i : Nat) : Fld := ⟨0x190120 + 8 * i, 62, 62, 0x0⟩
/-- IO_UART_RX.PAR_ERR. -/
def IO_UART_RX.PAR_ERR (i : Nat) : Fld := ⟨0x190120 + 8 * i, 61, 61, 0x0⟩
/-- IO_UART_RX.DATA. -/
def IO_UART_RX.DATA (i : Nat) : Fld := ⟨0x190120 + 8 * i, 7, 0, 0x0⟩

/-- IO_I2C_CMD (R727). -/
def IO_I2C_CMD.GO (i : Nat) : Fld := ⟨0x190200 + 8 * i, 63, 63, 0x0⟩
/-- IO_I2C_CMD.READ. -/
def IO_I2C_CMD.READ (i : Nat) : Fld := ⟨0x190200 + 8 * i, 62, 62, 0x0⟩
/-- IO_I2C_CMD.FAST. -/
def IO_I2C_CMD.FAST (i : Nat) : Fld := ⟨0x190200 + 8 * i, 61, 61, 0x0⟩
/-- IO_I2C_CMD.ADDR. -/
def IO_I2C_CMD.ADDR (i : Nat) : Fld := ⟨0x190200 + 8 * i, 54, 48, 0x0⟩
/-- IO_I2C_CMD.NBYTES. -/
def IO_I2C_CMD.NBYTES (i : Nat) : Fld := ⟨0x190200 + 8 * i, 42, 40, 0x0⟩
/-- IO_I2C_CMD.DATA. -/
def IO_I2C_CMD.DATA (i : Nat) : Fld := ⟨0x190200 + 8 * i, 31, 0, 0x0⟩

/-- IO_I2C_STATUS (R727). -/
def IO_I2C_STATUS.BUSY (i : Nat) : Fld := ⟨0x190210 + 8 * i, 63, 63, 0x0⟩
/-- IO_I2C_STATUS.DONE. -/
def IO_I2C_STATUS.DONE (i : Nat) : Fld := ⟨0x190210 + 8 * i, 62, 62, 0x0⟩
/-- IO_I2C_STATUS.NACK. -/
def IO_I2C_STATUS.NACK (i : Nat) : Fld := ⟨0x190210 + 8 * i, 61, 61, 0x0⟩
/-- IO_I2C_STATUS.DATA. -/
def IO_I2C_STATUS.DATA (i : Nat) : Fld := ⟨0x190210 + 8 * i, 31, 0, 0x0⟩

/-- IO_SPI_CMD (R727). -/
def IO_SPI_CMD.GO (i : Nat) : Fld := ⟨0x190300 + 8 * i, 63, 63, 0x0⟩
/-- IO_SPI_CMD.MODE. -/
def IO_SPI_CMD.MODE (i : Nat) : Fld := ⟨0x190300 + 8 * i, 62, 61, 0x0⟩
/-- IO_SPI_CMD.DIV. -/
def IO_SPI_CMD.DIV (i : Nat) : Fld := ⟨0x190300 + 8 * i, 55, 48, 0x0⟩
/-- IO_SPI_CMD.NBYTES. -/
def IO_SPI_CMD.NBYTES (i : Nat) : Fld := ⟨0x190300 + 8 * i, 42, 40, 0x0⟩
/-- IO_SPI_CMD.DATA. -/
def IO_SPI_CMD.DATA (i : Nat) : Fld := ⟨0x190300 + 8 * i, 31, 0, 0x0⟩

/-- IO_SPI_STATUS (R727). -/
def IO_SPI_STATUS.BUSY (i : Nat) : Fld := ⟨0x190310 + 8 * i, 63, 63, 0x0⟩
/-- IO_SPI_STATUS.DONE. -/
def IO_SPI_STATUS.DONE (i : Nat) : Fld := ⟨0x190310 + 8 * i, 62, 62, 0x0⟩
/-- IO_SPI_STATUS.DATA. -/
def IO_SPI_STATUS.DATA (i : Nat) : Fld := ⟨0x190310 + 8 * i, 31, 0, 0x0⟩

/-- The LOCK bit of a block (R14). -/
def LOCK (block : Nat) : Fld := ⟨block * 0x10000 + 0xfff8, 0, 0, 0x0⟩

/-- The registers of SYS. -/
def rowsSYS : List RegRow := [
  ⟨0x0, 1, [⟨31, 20, .ro, 0x960⟩, ⟨19, 16, .ro, 0x1⟩, ⟨15, 8, .ro, 0x42⟩, ⟨7, 0, .ro, 0x31⟩]⟩,
  ⟨0x40, 1, [⟨63, 48, .ro, 0x0⟩, ⟨47, 40, .ro, 0x0⟩, ⟨39, 24, .ro, 0x0⟩, ⟨23, 23, .ro, 0x0⟩, ⟨22, 22, .ro, 0x0⟩, ⟨21, 21, .ro, 0x0⟩, ⟨20, 20, .ro, 0x0⟩, ⟨3, 0, .ro, 0x1⟩]⟩,
  ⟨0x48, 1, [⟨7, 7, .w1c, 0x0⟩, ⟨6, 6, .w1c, 0x0⟩, ⟨5, 5, .w1c, 0x0⟩, ⟨4, 4, .w1c, 0x0⟩, ⟨3, 3, .w1c, 0x0⟩, ⟨2, 2, .w1c, 0x0⟩, ⟨1, 1, .w1c, 0x0⟩, ⟨0, 0, .w1c, 0x1⟩]⟩,
  ⟨0x50, 1, [⟨63, 32, .wo, 0x0⟩, ⟨1, 0, .wo, 0x0⟩]⟩,
  ⟨0x100, 1, [⟨63, 56, .rc, 0x0⟩, ⟨55, 48, .rc, 0x0⟩, ⟨47, 0, .rc, 0x0⟩]⟩,
  ⟨0x108, 1, [⟨63, 0, .ro, 0x0⟩]⟩,
  ⟨0x110, 1, [⟨63, 63, .w1c, 0x0⟩, ⟨62, 62, .ro, 0x0⟩, ⟨12, 0, .ro, 0x0⟩]⟩,
  ⟨0x118, 1, [⟨15, 0, .rc, 0x0⟩]⟩,
  ⟨0x120, 4, [⟨63, 0, .rw, 0xffffffffffffffff⟩]⟩,
  ⟨0xfff8, 1, [⟨0, 0, .lock, 0x0⟩]⟩]

/-- The registers of ICU. -/
def rowsICU : List RegRow := [
  ⟨0x0, 1, [⟨63, 63, .w1c, 0x0⟩, ⟨62, 59, .ro, 0x0⟩, ⟨58, 56, .ro, 0x0⟩, ⟨55, 51, .ro, 0x0⟩, ⟨50, 47, .ro, 0x0⟩, ⟨46, 39, .ro, 0x0⟩, ⟨38, 34, .ro, 0x0⟩]⟩,
  ⟨0x8, 1, [⟨15, 0, .rwl, 0x64⟩]⟩,
  ⟨0x10, 1, [⟨4, 0, .wo, 0x0⟩]⟩,
  ⟨0x20, 4, [⟨63, 63, .rw, 0x0⟩, ⟨62, 62, .w1c, 0x0⟩, ⟨57, 56, .ro, 0x0⟩]⟩,
  ⟨0x100, 8, [⟨63, 0, .rw, 0x0⟩]⟩,
  ⟨0x140, 8, [⟨63, 0, .rw, 0x0⟩]⟩,
  ⟨0x200, 32, [⟨63, 0, .rc, 0x0⟩]⟩,
  ⟨0x300, 5, [⟨63, 0, .rw, 0x0⟩]⟩,
  ⟨0x340, 5, [⟨63, 0, .rw, 0x0⟩]⟩,
  ⟨0x400, 20, [⟨63, 0, .rc, 0x0⟩]⟩,
  ⟨0x1000, 512, [⟨63, 63, .ro, 0x0⟩, ⟨11, 11, .rw, 0x0⟩, ⟨10, 8, .rw, 0x7⟩, ⟨7, 0, .rw, 0x0⟩]⟩,
  ⟨0xfff8, 1, [⟨0, 0, .lock, 0x0⟩]⟩]

/-- The registers of KEYS. -/
def rowsKEYS : List RegRow := [
  ⟨0x0, 1, [⟨63, 61, .ro, 0x0⟩, ⟨60, 60, .ro, 0x0⟩, ⟨59, 59, .ro, 0x0⟩, ⟨58, 58, .ro, 0x0⟩, ⟨57, 57, .ro, 0x0⟩, ⟨56, 56, .ro, 0x0⟩, ⟨55, 55, .ro, 0x0⟩, ⟨54, 52, .ro, 0x0⟩, ⟨51, 48, .ro, 0x0⟩, ⟨47, 40, .ro, 0x0⟩, ⟨39, 39, .ro, 0x0⟩, ⟨38, 37, .ro, 0x0⟩]⟩,
  ⟨0x8, 1, [⟨63, 63, .wo, 0x0⟩, ⟨55, 48, .wo, 0x0⟩, ⟨15, 8, .wo, 0x0⟩, ⟨4, 0, .wo, 0x0⟩]⟩,
  ⟨0x10, 1, [⟨39, 3, .rw, 0x0⟩]⟩,
  ⟨0x18, 1, [⟨63, 63, .ro, 0x0⟩, ⟨62, 62, .w1c, 0x0⟩, ⟨61, 61, .w1c, 0x0⟩, ⟨55, 48, .ro, 0x0⟩, ⟨47, 40, .ro, 0x0⟩]⟩,
  ⟨0x20, 1, [⟨63, 63, .wo, 0x0⟩]⟩,
  ⟨0x28, 2, [⟨63, 0, .ro, 0x0⟩]⟩,
  ⟨0x38, 1, [⟨63, 0, .ro, 0x0⟩]⟩,
  ⟨0x40, 4, [⟨63, 0, .rw, 0x0⟩]⟩,
  ⟨0x60, 1, [⟨63, 0, .otp, 0x0⟩]⟩,
  ⟨0x80, 8, [⟨63, 0, .ro, 0x0⟩]⟩,
  ⟨0x100, 32, [⟨63, 63, .ro, 0x0⟩, ⟨62, 61, .ro, 0x0⟩, ⟨60, 60, .ro, 0x0⟩, ⟨59, 59, .ro, 0x0⟩, ⟨5, 0, .ro, 0x0⟩]⟩,
  ⟨0x200, 16, [⟨63, 63, .ro, 0x0⟩, ⟨31, 0, .ro, 0x0⟩]⟩,
  ⟨0x300, 1, [⟨9, 0, .rw, 0x0⟩]⟩,
  ⟨0x308, 1, [⟨63, 0, .otp, 0x0⟩]⟩,
  ⟨0xfff8, 1, [⟨0, 0, .lock, 0x0⟩]⟩]

/-- The registers of CRYPTO. -/
def rowsCRYPTO : List RegRow := [
  ⟨0x0, 1, [⟨63, 60, .ro, 0x0⟩, ⟨59, 56, .ro, 0x0⟩, ⟨41, 32, .ro, 0x0⟩, ⟨12, 0, .ro, 0x0⟩]⟩,
  ⟨0x8, 1, [⟨63, 63, .wo, 0x0⟩, ⟨4, 0, .rwl, 0x0⟩]⟩,
  ⟨0x10, 1, [⟨5, 0, .rw, 0x0⟩]⟩,
  ⟨0x18, 1, [⟨63, 63, .ro, 0x0⟩, ⟨62, 62, .ro, 0x0⟩, ⟨61, 61, .ro, 0x0⟩, ⟨15, 8, .ro, 0x0⟩, ⟨7, 0, .ro, 0x0⟩]⟩,
  ⟨0x20, 3, [⟨63, 0, .wo, 0x0⟩]⟩,
  ⟨0x38, 1, [⟨63, 63, .wo, 0x0⟩, ⟨57, 56, .wo, 0x0⟩, ⟨24, 24, .wo, 0x0⟩, ⟨21, 16, .wo, 0x0⟩, ⟨15, 8, .wo, 0x0⟩, ⟨7, 0, .wo, 0x0⟩]⟩,
  ⟨0x40, 1, [⟨63, 63, .ro, 0x0⟩, ⟨62, 62, .w1c, 0x0⟩, ⟨61, 61, .w1c, 0x0⟩, ⟨60, 58, .ro, 0x0⟩]⟩,
  ⟨0xfff8, 1, [⟨0, 0, .lock, 0x0⟩]⟩]

/-- The registers of GOOSE. -/
def rowsGOOSE : List RegRow := [
  ⟨0x0, 1, [⟨63, 63, .ro, 0x0⟩, ⟨62, 59, .ro, 0x0⟩, ⟨58, 56, .ro, 0x0⟩, ⟨8, 0, .ro, 0x0⟩]⟩,
  ⟨0x8, 1, [⟨47, 0, .ro, 0x0⟩]⟩,
  ⟨0x10, 9, [⟨63, 63, .ro, 0x0⟩, ⟨62, 62, .ro, 0x0⟩, ⟨61, 59, .ro, 0x0⟩, ⟨7, 0, .ro, 0x0⟩]⟩,
  ⟨0x60, 1, [⟨47, 0, .ro, 0x0⟩]⟩,
  ⟨0x68, 1, [⟨63, 63, .rw, 0x0⟩, ⟨47, 0, .rw, 0x0⟩]⟩,
  ⟨0xfff8, 1, [⟨0, 0, .lock, 0x0⟩]⟩]

/-- The registers of FEn. -/
def rowsFE : List RegRow := [
  ⟨0x0, 1, [⟨39, 32, .ro, 0x0⟩, ⟨31, 24, .ro, 0x0⟩, ⟨15, 15, .ro, 0x0⟩, ⟨14, 14, .ro, 0x0⟩, ⟨13, 13, .ro, 0x0⟩, ⟨12, 12, .ro, 0x0⟩, ⟨11, 11, .ro, 0x0⟩, ⟨10, 10, .ro, 0x0⟩, ⟨9, 9, .ro, 0x0⟩, ⟨8, 0, .ro, 0x0⟩]⟩,
  ⟨0x8, 1, [⟨31, 0, .rwl, 0x0⟩]⟩,
  ⟨0x10, 1, [⟨15, 15, .rw, 0x0⟩, ⟨11, 8, .rw, 0xa⟩, ⟨7, 4, .rw, 0x3⟩, ⟨3, 0, .rw, 0xa⟩]⟩,
  ⟨0x18, 1, [⟨15, 8, .ro, 0x0⟩, ⟨1, 0, .ro, 0x0⟩]⟩,
  ⟨0x20, 1, [⟨47, 40, .rwl, 0x32⟩, ⟨39, 32, .rwl, 0x0⟩, ⟨31, 16, .rwl, 0x0⟩, ⟨3, 0, .rwl, 0x0⟩]⟩,
  ⟨0x28, 1, [⟨63, 63, .wo, 0x0⟩, ⟨19, 16, .wo, 0x0⟩, ⟨8, 0, .wo, 0x0⟩]⟩,
  ⟨0x30, 1, [⟨63, 63, .ro, 0x0⟩, ⟨62, 62, .w1c, 0x0⟩, ⟨61, 61, .w1c, 0x0⟩, ⟨60, 60, .w1c, 0x0⟩, ⟨59, 56, .ro, 0x0⟩, ⟨41, 32, .ro, 0x0⟩, ⟨25, 16, .ro, 0x0⟩, ⟨8, 0, .ro, 0x0⟩]⟩,
  ⟨0x38, 1, [⟨63, 63, .rw, 0x1⟩, ⟨8, 0, .rw, 0x0⟩]⟩,
  ⟨0x40, 1, [⟨63, 62, .ro, 0x0⟩, ⟨61, 60, .ro, 0x0⟩, ⟨59, 48, .ro, 0x0⟩, ⟨31, 0, .ro, 0x0⟩]⟩,
  ⟨0x48, 1, [⟨47, 40, .rwl, 0x0⟩, ⟨39, 32, .rwl, 0x0⟩, ⟨31, 16, .rwl, 0x0⟩, ⟨15, 8, .rwl, 0x0⟩, ⟨7, 1, .rwl, 0x0⟩, ⟨0, 0, .rwl, 0x0⟩]⟩,
  ⟨0x50, 1, [⟨2, 0, .rwl, 0x0⟩]⟩,
  ⟨0x58, 1, [⟨63, 63, .wo, 0x0⟩, ⟨33, 32, .rwl, 0x0⟩, ⟨7, 0, .ro, 0x0⟩]⟩,
  ⟨0x60, 1, [⟨8, 6, .rw, 0x0⟩, ⟨5, 0, .rw, 0x0⟩]⟩,
  ⟨0x68, 1, [⟨15, 0, .rw, 0x0⟩]⟩,
  ⟨0x100, 32, [⟨63, 63, .rwl, 0x0⟩, ⟨47, 32, .rwl, 0x0⟩, ⟨31, 16, .rwl, 0x0⟩, ⟨15, 0, .rwl, 0x0⟩]⟩,
  ⟨0xfff8, 1, [⟨0, 0, .lock, 0x0⟩]⟩]

/-- The registers of CHAN. -/
def rowsCHAN : List RegRow := [
  ⟨0x0, 1, [⟨63, 62, .ro, 0x0⟩, ⟨61, 61, .ro, 0x0⟩, ⟨60, 60, .ro, 0x0⟩, ⟨59, 52, .ro, 0x0⟩, ⟨40, 32, .ro, 0x0⟩, ⟨31, 26, .ro, 0x0⟩, ⟨25, 17, .ro, 0x0⟩, ⟨16, 11, .ro, 0x0⟩]⟩,
  ⟨0x8, 1, [⟨63, 62, .rw, 0x1⟩, ⟨61, 61, .rw, 0x1⟩, ⟨60, 60, .rw, 0x0⟩, ⟨55, 53, .rwl, 0x0⟩]⟩,
  ⟨0x10, 1, [⟨11, 8, .rw, 0x6⟩, ⟨7, 0, .rw, 0x60⟩]⟩,
  ⟨0x18, 1, [⟨21, 16, .rw, 0x34⟩, ⟨8, 0, .rw, 0x64⟩]⟩,
  ⟨0x20, 1, [⟨15, 12, .rw, 0x6⟩, ⟨11, 8, .rw, 0x9⟩, ⟨5, 4, .rw, 0x1⟩, ⟨0, 0, .rw, 0x1⟩]⟩,
  ⟨0x28, 1, [⟨63, 56, .ro, 0x0⟩, ⟨55, 48, .rc, 0x0⟩, ⟨47, 32, .ro, 0x0⟩, ⟨31, 16, .ro, 0x0⟩, ⟨8, 0, .ro, 0x0⟩]⟩,
  ⟨0x30, 1, [⟨8, 0, .rw, 0x0⟩]⟩,
  ⟨0x38, 1, [⟨63, 60, .ro, 0x0⟩, ⟨59, 58, .ro, 0x0⟩, ⟨57, 50, .ro, 0x0⟩, ⟨49, 49, .ro, 0x0⟩, ⟨48, 45, .ro, 0x0⟩, ⟨44, 33, .ro, 0x0⟩, ⟨32, 21, .ro, 0x0⟩, ⟨20, 13, .ro, 0x0⟩]⟩,
  ⟨0x40, 5, [⟨63, 0, .ro, 0x0⟩]⟩,
  ⟨0x100, 9, [⟨63, 0, .rwl, 0x0⟩]⟩,
  ⟨0xfff8, 1, [⟨0, 0, .lock, 0x0⟩]⟩]

/-- The registers of OX. -/
def rowsOX : List RegRow := [
  ⟨0x0, 1, [⟨7, 4, .rw, 0xc⟩]⟩,
  ⟨0x8, 1, [⟨63, 55, .ro, 0x0⟩, ⟨15, 8, .rc, 0x0⟩]⟩,
  ⟨0x100, 1, [⟨31, 24, .rw, 0x2⟩, ⟨23, 16, .rw, 0xa⟩, ⟨9, 8, .rw, 0x3⟩, ⟨5, 0, .rw, 0x10⟩]⟩,
  ⟨0x108, 1, [⟨39, 18, .rwl, 0x0⟩, ⟨0, 0, .rwl, 0x0⟩]⟩,
  ⟨0x110, 1, [⟨63, 58, .ro, 0x0⟩, ⟨57, 52, .ro, 0x0⟩, ⟨51, 46, .ro, 0x0⟩, ⟨45, 40, .ro, 0x0⟩, ⟨39, 34, .ro, 0x0⟩, ⟨33, 30, .ro, 0x0⟩]⟩,
  ⟨0x118, 1, [⟨4, 0, .rw, 0x0⟩]⟩,
  ⟨0x120, 1, [⟨63, 61, .ro, 0x0⟩, ⟨60, 59, .ro, 0x0⟩, ⟨58, 51, .ro, 0x0⟩, ⟨50, 48, .ro, 0x0⟩, ⟨47, 46, .ro, 0x0⟩, ⟨45, 44, .ro, 0x0⟩, ⟨31, 0, .ro, 0x0⟩]⟩,
  ⟨0x128, 1, [⟨63, 63, .rw, 0x1⟩, ⟨6, 0, .rw, 0x14⟩]⟩,
  ⟨0x130, 1, [⟨63, 53, .ro, 0x0⟩, ⟨52, 42, .ro, 0x0⟩, ⟨41, 31, .ro, 0x0⟩, ⟨15, 0, .rc, 0x0⟩]⟩,
  ⟨0xfff8, 1, [⟨0, 0, .lock, 0x0⟩]⟩]

/-- The registers of MAC. -/
def rowsMAC : List RegRow := [
  ⟨0x0, 1, [⟨63, 63, .ro, 0x0⟩, ⟨62, 62, .ro, 0x0⟩, ⟨61, 61, .ro, 0x0⟩, ⟨60, 59, .ro, 0x0⟩, ⟨58, 57, .ro, 0x0⟩]⟩,
  ⟨0x8, 1, [⟨39, 0, .ro, 0x0⟩]⟩,
  ⟨0x10, 1, [⟨63, 0, .rwl, 0x0⟩]⟩,
  ⟨0x18, 1, [⟨47, 32, .rwl, 0x3e8⟩, ⟨31, 16, .rwl, 0x848⟩, ⟨15, 0, .rwl, 0x898⟩]⟩,
  ⟨0x20, 1, [⟨63, 48, .rwl, 0x3e8⟩, ⟨47, 32, .rwl, 0x190⟩, ⟨31, 16, .rwl, 0x708⟩, ⟨15, 0, .rwl, 0xa0⟩]⟩,
  ⟨0x28, 1, [⟨31, 24, .rw, 0xa6⟩, ⟨15, 12, .rw, 0x1⟩, ⟨11, 8, .rw, 0x7⟩, ⟨3, 0, .rw, 0x3⟩]⟩,
  ⟨0x30, 1, [⟨31, 16, .rwl, 0x0⟩, ⟨15, 0, .rwl, 0x0⟩]⟩,
  ⟨0x38, 1, [⟨63, 63, .rw, 0x1⟩, ⟨55, 52, .rw, 0x3⟩, ⟨49, 48, .rw, 0x0⟩, ⟨47, 40, .rw, 0x8⟩, ⟨26, 16, .rw, 0x7f⟩, ⟨5, 0, .rw, 0x0⟩]⟩,
  ⟨0x40, 1, [⟨63, 48, .rwl, 0x0⟩, ⟨47, 32, .rwl, 0x0⟩, ⟨31, 31, .rwl, 0x0⟩, ⟨19, 16, .rw, 0x8⟩, ⟨9, 0, .rw, 0x3c⟩]⟩,
  ⟨0x48, 1, [⟨63, 63, .wo, 0x0⟩, ⟨41, 40, .wo, 0x0⟩, ⟨39, 32, .wo, 0x0⟩, ⟨31, 0, .wo, 0x0⟩]⟩,
  ⟨0x50, 1, [⟨63, 63, .ro, 0x0⟩, ⟨62, 62, .w1c, 0x0⟩, ⟨61, 61, .w1c, 0x0⟩, ⟨60, 58, .ro, 0x0⟩]⟩,
  ⟨0x100, 4, [⟨63, 63, .rwl, 0x0⟩, ⟨61, 60, .rwl, 0x0⟩, ⟨59, 52, .rwl, 0x0⟩, ⟨51, 48, .rwl, 0x3⟩, ⟨47, 44, .rwl, 0x5⟩, ⟨43, 40, .rwl, 0x4⟩, ⟨39, 32, .rwl, 0xa6⟩, ⟨31, 16, .rwl, 0xa0⟩, ⟨15, 0, .rwl, 0x0⟩]⟩,
  ⟨0x140, 8, [⟨63, 63, .rwl, 0x0⟩, ⟨55, 48, .rwl, 0x0⟩, ⟨40, 32, .rwl, 0x0⟩, ⟨15, 0, .rwl, 0x0⟩]⟩,
  ⟨0x200, 4, [⟨63, 0, .rwl, 0x0⟩]⟩,
  ⟨0x220, 4, [⟨63, 63, .rwl, 0x0⟩, ⟨15, 0, .rwl, 0x3e8⟩]⟩,
  ⟨0x300, 1, [⟨63, 63, .rw, 0x0⟩, ⟨15, 0, .rw, 0x3c⟩]⟩,
  ⟨0x308, 1, [⟨63, 42, .rwl, 0x0⟩, ⟨41, 22, .rwl, 0x0⟩, ⟨0, 0, .rwl, 0x0⟩]⟩,
  ⟨0x310, 1, [⟨63, 63, .ro, 0x0⟩, ⟨62, 59, .ro, 0x0⟩, ⟨58, 49, .ro, 0x0⟩, ⟨47, 32, .rc, 0x0⟩, ⟨31, 16, .rc, 0x0⟩, ⟨15, 0, .rc, 0x0⟩]⟩,
  ⟨0x400, 16, [⟨63, 63, .rw, 0x0⟩, ⟨62, 60, .rw, 0x0⟩, ⟨59, 52, .rw, 0x0⟩, ⟨49, 32, .rw, 0x0⟩, ⟨31, 0, .rw, 0x0⟩]⟩,
  ⟨0x8000, 2048, [⟨31, 30, .rwl, 0x0⟩, ⟨23, 16, .rwl, 0x0⟩, ⟨15, 0, .rwl, 0x0⟩]⟩,
  ⟨0xe000, 1, [⟨39, 4, .rw, 0x0⟩]⟩,
  ⟨0xe008, 1, [⟨39, 0, .rw, 0x0⟩]⟩,
  ⟨0xe010, 1, [⟨63, 63, .wo, 0x0⟩, ⟨62, 62, .wo, 0x0⟩, ⟨12, 0, .rw, 0x0⟩]⟩,
  ⟨0xe018, 1, [⟨63, 63, .ro, 0x0⟩, ⟨62, 62, .w1c, 0x0⟩, ⟨61, 61, .ro, 0x0⟩, ⟨60, 60, .ro, 0x0⟩, ⟨59, 59, .w1c, 0x0⟩, ⟨47, 32, .ro, 0x0⟩, ⟨31, 16, .ro, 0x0⟩]⟩,
  ⟨0xfff8, 1, [⟨0, 0, .lock, 0x0⟩]⟩]

/-- The registers of FWD. -/
def rowsFWD : List RegRow := [
  ⟨0x0, 1, [⟨63, 44, .ro, 0x0⟩, ⟨43, 35, .ro, 0x0⟩, ⟨16, 0, .ro, 0x0⟩]⟩,
  ⟨0x8, 1, [⟨63, 63, .rw, 0x1⟩, ⟨37, 32, .rw, 0x5⟩, ⟨16, 0, .rw, 0x5460⟩]⟩,
  ⟨0x10, 1, [⟨39, 20, .rwl, 0x0⟩, ⟨0, 0, .rwl, 0x0⟩]⟩,
  ⟨0x18, 1, [⟨63, 0, .rw, 0x0⟩]⟩,
  ⟨0x20, 1, [⟨31, 16, .ro, 0x0⟩, ⟨15, 0, .ro, 0x0⟩]⟩,
  ⟨0x28, 1, [⟨39, 6, .rw, 0x0⟩]⟩,
  ⟨0x30, 1, [⟨63, 63, .wo, 0x0⟩]⟩,
  ⟨0x38, 1, [⟨63, 63, .ro, 0x0⟩, ⟨62, 62, .w1c, 0x0⟩, ⟨61, 61, .w1c, 0x0⟩, ⟨55, 48, .ro, 0x0⟩, ⟨47, 32, .ro, 0x0⟩]⟩,
  ⟨0x40, 1, [⟨63, 56, .rc, 0x0⟩, ⟨55, 40, .rc, 0x0⟩, ⟨39, 6, .rc, 0x0⟩, ⟨0, 0, .rc, 0x0⟩]⟩,
  ⟨0x48, 1, [⟨63, 0, .rc, 0x0⟩]⟩,
  ⟨0x50, 1, [⟨63, 63, .w1c, 0x0⟩, ⟨62, 62, .ro, 0x0⟩, ⟨61, 61, .ro, 0x0⟩, ⟨60, 60, .ro, 0x0⟩, ⟨15, 0, .ro, 0x0⟩]⟩,
  ⟨0x58, 1, [⟨15, 0, .rc, 0x0⟩]⟩,
  ⟨0x100, 1, [⟨63, 63, .rw, 0x1⟩, ⟨1, 0, .rw, 0x0⟩]⟩,
  ⟨0x108, 1, [⟨63, 48, .rc, 0x0⟩]⟩,
  ⟨0x110, 1, [⟨63, 0, .rw, 0x0⟩]⟩,
  ⟨0x118, 1, [⟨63, 63, .ro, 0x0⟩, ⟨47, 32, .ro, 0x0⟩, ⟨31, 0, .ro, 0x0⟩]⟩,
  ⟨0x200, 16, [⟨63, 63, .rwl, 0x0⟩, ⟨62, 62, .rwl, 0x0⟩, ⟨59, 48, .rwl, 0x0⟩, ⟨47, 0, .rwl, 0x0⟩]⟩,
  ⟨0xfff8, 1, [⟨0, 0, .lock, 0x0⟩]⟩]

/-- The registers of SCHED. -/
def rowsSCHED : List RegRow := [
  ⟨0x0, 1, [⟨63, 51, .ro, 0x0⟩, ⟨50, 36, .ro, 0x0⟩]⟩,
  ⟨0x8, 1, [⟨13, 0, .rw, 0x0⟩]⟩,
  ⟨0x10, 1, [⟨63, 32, .rwl, 0x0⟩, ⟨31, 0, .rw, 0x0⟩]⟩,
  ⟨0x18, 1, [⟨63, 40, .rwl, 0x0⟩, ⟨39, 16, .rw, 0x0⟩]⟩,
  ⟨0x20, 1, [⟨63, 40, .rw, 0x1⟩, ⟨39, 16, .ro, 0x0⟩, ⟨2, 2, .ro, 0x0⟩, ⟨1, 1, .ro, 0x0⟩, ⟨0, 0, .ro, 0x0⟩]⟩,
  ⟨0x28, 1, [⟨10, 8, .rw, 0x0⟩, ⟨7, 0, .rw, 0x0⟩]⟩,
  ⟨0x30, 1, [⟨63, 48, .rw, 0x1⟩, ⟨47, 24, .rw, 0x0⟩]⟩,
  ⟨0x38, 1, [⟨4, 0, .rw, 0x0⟩]⟩,
  ⟨0x40, 1, [⟨63, 42, .rwl, 0x36ee80⟩, ⟨41, 26, .rwl, 0x0⟩, ⟨25, 10, .rwl, 0x0⟩]⟩,
  ⟨0x48, 1, [⟨63, 62, .ro, 0x0⟩, ⟨61, 26, .ro, 0x0⟩]⟩,
  ⟨0x50, 1, [⟨13, 0, .rw, 0x0⟩]⟩,
  ⟨0x58, 1, [⟨63, 62, .rw, 0x0⟩, ⟨61, 61, .rw, 0x0⟩, ⟨60, 60, .rw, 0x0⟩, ⟨59, 58, .rw, 0x0⟩, ⟨57, 57, .rw, 0x0⟩, ⟨49, 44, .rw, 0x0⟩, ⟨43, 38, .rw, 0x0⟩]⟩,
  ⟨0x60, 1, [⟨63, 32, .rw, 0x0⟩, ⟨31, 0, .rw, 0x0⟩]⟩,
  ⟨0x68, 1, [⟨63, 40, .rw, 0x0⟩, ⟨39, 16, .rw, 0x0⟩]⟩,
  ⟨0x70, 1, [⟨63, 48, .rc, 0x0⟩, ⟨47, 32, .rc, 0x0⟩, ⟨31, 16, .rc, 0x0⟩]⟩,
  ⟨0x78, 1, [⟨12, 0, .rw, 0x0⟩]⟩,
  ⟨0x80, 1, [⟨63, 63, .rw, 0x0⟩, ⟨13, 0, .rw, 0x0⟩]⟩,
  ⟨0x88, 1, [⟨31, 0, .rw, 0x0⟩]⟩,
  ⟨0xfff8, 1, [⟨0, 0, .lock, 0x0⟩]⟩]

/-- The registers of QMGR. -/
def rowsQMGR : List RegRow := [
  ⟨0x0, 1, [⟨63, 41, .ro, 0x0⟩, ⟨40, 28, .ro, 0x0⟩, ⟨27, 14, .ro, 0x0⟩]⟩,
  ⟨0x8, 1, [⟨21, 0, .rw, 0x1000⟩]⟩,
  ⟨0x10, 1, [⟨39, 20, .rwl, 0x0⟩, ⟨4, 1, .rwl, 0x0⟩, ⟨0, 0, .rwl, 0x0⟩]⟩,
  ⟨0x18, 1, [⟨13, 0, .rw, 0x0⟩]⟩,
  ⟨0x20, 1, [⟨63, 63, .rw, 0x0⟩, ⟨62, 40, .rw, 0x1000⟩, ⟨39, 27, .rw, 0x20⟩, ⟨15, 0, .rw, 0x0⟩]⟩,
  ⟨0x28, 1, [⟨63, 41, .ro, 0x0⟩, ⟨40, 18, .ro, 0x0⟩, ⟨17, 5, .ro, 0x0⟩]⟩,
  ⟨0x30, 1, [⟨63, 63, .wo, 0x0⟩, ⟨3, 0, .wo, 0x0⟩]⟩,
  ⟨0x100, 13, [⟨63, 63, .w1c, 0x0⟩, ⟨15, 0, .rc, 0x0⟩]⟩,
  ⟨0x180, 1, [⟨63, 63, .w1c, 0x0⟩, ⟨15, 0, .rc, 0x0⟩]⟩,
  ⟨0x200, 4, [⟨63, 0, .rc, 0x0⟩]⟩,
  ⟨0x220, 4, [⟨63, 63, .ro, 0x0⟩, ⟨62, 62, .ro, 0x0⟩, ⟨61, 61, .ro, 0x0⟩, ⟨10, 0, .ro, 0x0⟩]⟩,
  ⟨0x240, 4, [⟨63, 0, .wo, 0x0⟩]⟩,
  ⟨0x260, 4, [⟨63, 0, .wo, 0x0⟩]⟩,
  ⟨0x280, 4, [⟨63, 63, .w1c, 0x0⟩, ⟨62, 62, .w1c, 0x0⟩, ⟨61, 59, .ro, 0x0⟩, ⟨10, 0, .ro, 0x400⟩]⟩,
  ⟨0xfff8, 1, [⟨0, 0, .lock, 0x0⟩]⟩]

/-- The registers of TIME. -/
def rowsTIME : List RegRow := [
  ⟨0x0, 1, [⟨63, 63, .ro, 0x0⟩, ⟨62, 62, .ro, 0x0⟩, ⟨61, 61, .w1c, 0x0⟩, ⟨60, 60, .ro, 0x0⟩, ⟨59, 59, .ro, 0x0⟩, ⟨58, 57, .ro, 0x0⟩, ⟨56, 56, .ro, 0x0⟩, ⟨55, 55, .ro, 0x0⟩, ⟨54, 54, .ro, 0x0⟩, ⟨53, 53, .w1c, 0x0⟩, ⟨52, 52, .w1c, 0x0⟩]⟩,
  ⟨0x8, 1, [⟨63, 0, .ro, 0x0⟩]⟩,
  ⟨0x10, 1, [⟨35, 0, .rw, 0x1a0aaaaab⟩]⟩,
  ⟨0x18, 1, [⟨63, 0, .wo, 0x0⟩]⟩,
  ⟨0x20, 1, [⟨63, 63, .wo, 0x0⟩, ⟨62, 62, .rwl, 0x0⟩]⟩,
  ⟨0x28, 1, [⟨47, 0, .ro, 0x0⟩]⟩,
  ⟨0x30, 1, [⟨63, 48, .rw, 0xb3⟩, ⟨47, 32, .rw, 0x12⟩, ⟨31, 0, .rw, 0x3e8⟩]⟩,
  ⟨0x38, 1, [⟨63, 0, .wo, 0x0⟩]⟩,
  ⟨0x40, 1, [⟨63, 62, .ro, 0x0⟩, ⟨47, 0, .ro, 0x0⟩]⟩,
  ⟨0x48, 1, [⟨63, 62, .rwl, 0x0⟩, ⟨61, 60, .rwl, 0x0⟩, ⟨59, 58, .rwl, 0x0⟩, ⟨57, 56, .rwl, 0x0⟩, ⟨55, 48, .rwl, 0x0⟩, ⟨47, 36, .rwl, 0x1e⟩, ⟨35, 28, .rwl, 0xa⟩, ⟨27, 16, .rwl, 0x12c⟩, ⟨15, 0, .rw, 0x0⟩]⟩,
  ⟨0x50, 1, [⟨63, 63, .rwl, 0x0⟩, ⟨62, 62, .rwl, 0x0⟩, ⟨61, 54, .rwl, 0x64⟩, ⟨51, 32, .rwl, 0x3e8⟩, ⟨31, 16, .rwl, 0x0⟩, ⟨15, 0, .rwl, 0x0⟩]⟩,
  ⟨0x58, 1, [⟨63, 63, .rwl, 0x0⟩, ⟨62, 62, .rwl, 0x0⟩, ⟨31, 16, .rc, 0x0⟩, ⟨15, 0, .rc, 0x0⟩]⟩,
  ⟨0x60, 1, [⟨63, 0, .rc, 0x0⟩]⟩,
  ⟨0x68, 1, [⟨63, 63, .w1c, 0x0⟩, ⟨62, 62, .ro, 0x0⟩, ⟨31, 16, .rc, 0x0⟩, ⟨8, 0, .ro, 0x0⟩]⟩,
  ⟨0x100, 16, [⟨63, 63, .rw, 0x0⟩, ⟨62, 62, .w1c, 0x0⟩, ⟨31, 0, .rw, 0x0⟩]⟩,
  ⟨0x200, 4, [⟨63, 32, .rwl, 0x0⟩, ⟨31, 0, .rwl, 0x0⟩]⟩,
  ⟨0xfff8, 1, [⟨0, 0, .lock, 0x0⟩]⟩]

/-- The registers of ETH. -/
def rowsETH : List RegRow := [
  ⟨0x0, 1, [⟨63, 63, .ro, 0x0⟩, ⟨62, 62, .ro, 0x0⟩, ⟨61, 61, .ro, 0x0⟩, ⟨60, 60, .ro, 0x0⟩, ⟨59, 59, .ro, 0x0⟩]⟩,
  ⟨0x8, 2, [⟨61, 60, .rwl, 0x2⟩, ⟨11, 0, .rwl, 0x0⟩]⟩,
  ⟨0x18, 1, [⟨47, 0, .rwl, 0x0⟩]⟩,
  ⟨0x20, 1, [⟨63, 63, .rwl, 0x0⟩, ⟨9, 0, .rw, 0x190⟩]⟩,
  ⟨0x28, 1, [⟨63, 51, .ro, 0x0⟩, ⟨31, 16, .rc, 0x0⟩, ⟨15, 0, .rc, 0x0⟩]⟩,
  ⟨0x30, 1, [⟨63, 63, .wo, 0x0⟩, ⟨62, 62, .ro, 0x0⟩, ⟨61, 61, .rw, 0x0⟩, ⟨57, 53, .rw, 0x0⟩, ⟨52, 48, .rw, 0x0⟩, ⟨15, 0, .rw, 0x0⟩]⟩,
  ⟨0x38, 1, [⟨63, 0, .wo, 0x0⟩]⟩,
  ⟨0x40, 1, [⟨63, 0, .wo, 0x0⟩]⟩,
  ⟨0x48, 1, [⟨63, 63, .w1c, 0x0⟩, ⟨9, 0, .ro, 0x200⟩]⟩,
  ⟨0x100, 1, [⟨63, 62, .ro, 0x0⟩, ⟨61, 61, .ro, 0x0⟩, ⟨60, 60, .ro, 0x0⟩, ⟨59, 59, .ro, 0x0⟩, ⟨58, 58, .ro, 0x0⟩, ⟨57, 57, .ro, 0x0⟩, ⟨56, 56, .w1c, 0x0⟩, ⟨55, 55, .ro, 0x0⟩, ⟨31, 0, .ro, 0x0⟩]⟩,
  ⟨0x108, 1, [⟨63, 63, .wo, 0x0⟩, ⟨62, 62, .wo, 0x0⟩]⟩,
  ⟨0x110, 1, [⟨47, 32, .rwl, 0x64⟩, ⟨31, 16, .rwl, 0x190⟩, ⟨15, 0, .rwl, 0x14⟩]⟩,
  ⟨0x118, 1, [⟨63, 56, .rwl, 0x0⟩, ⟨55, 48, .rwl, 0xff⟩, ⟨36, 32, .rwl, 0x0⟩, ⟨31, 16, .rw, 0x0⟩, ⟨15, 0, .rw, 0x0⟩]⟩,
  ⟨0x120, 1, [⟨47, 0, .rwl, 0x0⟩]⟩,
  ⟨0x128, 1, [⟨63, 48, .rc, 0x0⟩, ⟨47, 32, .rc, 0x0⟩, ⟨31, 16, .rc, 0x0⟩, ⟨15, 0, .rc, 0x0⟩]⟩,
  ⟨0xfff8, 1, [⟨0, 0, .lock, 0x0⟩]⟩]

/-- The registers of HERD. -/
def rowsHERD : List RegRow := [
  ⟨0x0, 1, [⟨63, 61, .ro, 0x0⟩, ⟨60, 57, .ro, 0x1⟩, ⟨56, 56, .ro, 0x0⟩, ⟨55, 55, .ro, 0x0⟩, ⟨54, 54, .ro, 0x0⟩, ⟨53, 46, .ro, 0x0⟩, ⟨45, 38, .ro, 0x0⟩, ⟨37, 37, .ro, 0x0⟩]⟩,
  ⟨0x8, 1, [⟨63, 63, .rwl, 0x0⟩, ⟨62, 62, .rwl, 0x0⟩, ⟨61, 61, .rwl, 0x0⟩, ⟨60, 60, .rwl, 0x0⟩, ⟨15, 0, .rwl, 0x0⟩]⟩,
  ⟨0x10, 1, [⟨63, 48, .rc, 0x0⟩, ⟨47, 32, .rc, 0x0⟩, ⟨31, 16, .rc, 0x0⟩, ⟨15, 0, .rc, 0x0⟩]⟩,
  ⟨0x18, 1, [⟨63, 32, .ro, 0x0⟩, ⟨31, 0, .ro, 0x0⟩]⟩,
  ⟨0xfff8, 1, [⟨0, 0, .lock, 0x0⟩]⟩]

/-- The registers of NFC. -/
def rowsNFC : List RegRow := [
  ⟨0x0, 1, [⟨63, 63, .ro, 0x0⟩, ⟨62, 62, .ro, 0x0⟩, ⟨61, 61, .ro, 0x0⟩, ⟨60, 60, .ro, 0x0⟩, ⟨59, 59, .ro, 0x0⟩, ⟨58, 58, .ro, 0x0⟩, ⟨57, 50, .ro, 0x0⟩]⟩,
  ⟨0x8, 1, [⟨63, 63, .rw, 0x0⟩, ⟨62, 61, .rw, 0x0⟩, ⟨60, 59, .rw, 0x0⟩, ⟨58, 58, .rw, 0x0⟩, ⟨41, 32, .rw, 0x1f4⟩]⟩,
  ⟨0x10, 1, [⟨63, 48, .rw, 0x1fe⟩, ⟨47, 32, .rw, 0x1fe⟩, ⟨19, 0, .rw, 0x1388⟩]⟩,
  ⟨0x18, 1, [⟨39, 10, .rw, 0x0⟩]⟩,
  ⟨0x20, 1, [⟨63, 63, .wo, 0x0⟩, ⟨62, 62, .wo, 0x0⟩, ⟨61, 61, .wo, 0x0⟩, ⟨60, 60, .wo, 0x0⟩, ⟨12, 0, .wo, 0x0⟩]⟩,
  ⟨0x28, 1, [⟨63, 63, .ro, 0x0⟩, ⟨62, 62, .w1c, 0x0⟩, ⟨61, 58, .ro, 0x0⟩, ⟨57, 45, .ro, 0x0⟩, ⟨44, 32, .ro, 0x0⟩]⟩,
  ⟨0x30, 1, [⟨63, 63, .wo, 0x0⟩, ⟨62, 62, .rw, 0x0⟩, ⟨61, 61, .rw, 0x0⟩, ⟨60, 60, .rw, 0x0⟩, ⟨59, 52, .rw, 0x0⟩, ⟨51, 43, .rw, 0x0⟩, ⟨39, 4, .rw, 0x0⟩]⟩,
  ⟨0x38, 1, [⟨63, 63, .ro, 0x0⟩, ⟨62, 62, .w1c, 0x0⟩, ⟨61, 59, .ro, 0x0⟩, ⟨58, 50, .ro, 0x0⟩, ⟨49, 42, .ro, 0x0⟩, ⟨41, 32, .ro, 0x0⟩]⟩,
  ⟨0x40, 1, [⟨63, 63, .wo, 0x0⟩, ⟨62, 62, .rw, 0x0⟩, ⟨39, 6, .rw, 0x0⟩]⟩,
  ⟨0x48, 1, [⟨63, 63, .ro, 0x0⟩, ⟨62, 62, .w1c, 0x0⟩, ⟨61, 61, .ro, 0x0⟩, ⟨60, 58, .ro, 0x0⟩, ⟨57, 57, .ro, 0x0⟩]⟩,
  ⟨0x50, 1, [⟨63, 63, .rw, 0x0⟩, ⟨41, 32, .rw, 0x1f4⟩, ⟨15, 8, .rw, 0x1e⟩, ⟨7, 0, .rw, 0x14⟩]⟩,
  ⟨0x58, 1, [⟨63, 63, .w1c, 0x0⟩, ⟨62, 62, .w1c, 0x0⟩, ⟨47, 32, .ro, 0x0⟩, ⟨31, 16, .ro, 0x0⟩, ⟨15, 0, .rc, 0x0⟩]⟩,
  ⟨0x60, 1, [⟨63, 63, .wo, 0x0⟩, ⟨62, 59, .wo, 0x0⟩, ⟨44, 40, .wo, 0x0⟩, ⟨39, 8, .wo, 0x0⟩]⟩,
  ⟨0x68, 1, [⟨63, 63, .ro, 0x0⟩, ⟨62, 62, .w1c, 0x0⟩, ⟨61, 61, .w1c, 0x0⟩, ⟨60, 57, .ro, 0x0⟩, ⟨56, 56, .w1c, 0x0⟩, ⟨55, 40, .ro, 0x0⟩]⟩,
  ⟨0x70, 1, [⟨63, 63, .rw, 0x1⟩, ⟨62, 62, .rw, 0x1⟩, ⟨47, 32, .rc, 0x0⟩, ⟨31, 16, .rc, 0x0⟩]⟩,
  ⟨0xfff8, 1, [⟨0, 0, .lock, 0x0⟩]⟩]

/-- The registers of LAMB. -/
def rowsLAMB : List RegRow := [
  ⟨0x0, 1, [⟨63, 63, .rw, 0x0⟩, ⟨62, 62, .ro, 0x0⟩, ⟨15, 8, .ro, 0x0⟩, ⟨2, 0, .rw, 0x2⟩]⟩,
  ⟨0x10, 4, [⟨63, 63, .rw, 0x0⟩, ⟨31, 0, .rw, 0x0⟩]⟩,
  ⟨0x30, 1, [⟨63, 59, .ro, 0x0⟩, ⟨58, 57, .ro, 0x0⟩, ⟨47, 32, .rc, 0x0⟩, ⟨31, 16, .rc, 0x0⟩]⟩,
  ⟨0xfff8, 1, [⟨0, 0, .lock, 0x0⟩]⟩]

/-- The registers of PERF. -/
def rowsPERF : List RegRow := [
  ⟨0x0, 1, [⟨63, 63, .rw, 0x0⟩, ⟨25, 0, .rw, 0xf4240⟩]⟩,
  ⟨0x8, 1, [⟨39, 16, .rwl, 0x0⟩, ⟨15, 0, .rwl, 0x0⟩]⟩,
  ⟨0x10, 1, [⟨15, 0, .ro, 0x0⟩]⟩,
  ⟨0x18, 1, [⟨15, 0, .rw, 0x0⟩]⟩,
  ⟨0x20, 1, [⟨63, 48, .rc, 0x0⟩, ⟨47, 0, .ro, 0x0⟩]⟩,
  ⟨0x28, 1, [⟨9, 0, .rw, 0x0⟩]⟩,
  ⟨0x30, 1, [⟨63, 63, .w1c, 0x0⟩, ⟨47, 0, .ro, 0x0⟩]⟩,
  ⟨0xfff8, 1, [⟨0, 0, .lock, 0x0⟩]⟩]

/-- The registers of HEALTH. -/
def rowsHEALTH : List RegRow := [
  ⟨0x0, 1, [⟨63, 52, .ro, 0x0⟩, ⟨51, 50, .ro, 0x0⟩, ⟨49, 49, .ro, 0x0⟩, ⟨48, 48, .ro, 0x0⟩, ⟨47, 43, .ro, 0x0⟩, ⟨42, 31, .rc, 0x0⟩, ⟨30, 18, .ro, 0x0⟩]⟩,
  ⟨0x8, 1, [⟨63, 48, .rwl, 0x16d⟩, ⟨47, 32, .rwl, 0xce4⟩, ⟨31, 16, .rwl, 0x32⟩, ⟨15, 15, .rwl, 0x0⟩, ⟨7, 0, .rwl, 0x55⟩]⟩,
  ⟨0x10, 1, [⟨63, 63, .wo, 0x0⟩, ⟨62, 62, .w1c, 0x0⟩, ⟨61, 59, .ro, 0x0⟩]⟩,
  ⟨0x18, 1, [⟨4, 0, .rw, 0x0⟩]⟩,
  ⟨0x20, 1, [⟨63, 48, .ro, 0xffff⟩, ⟨47, 46, .ro, 0x0⟩, ⟨45, 32, .ro, 0x0⟩, ⟨31, 0, .ro, 0x0⟩]⟩,
  ⟨0xfff8, 1, [⟨0, 0, .lock, 0x0⟩]⟩]

/-- The registers of SAFE. -/
def rowsSAFE : List RegRow := [
  ⟨0x0, 1, [⟨63, 63, .ro, 0x0⟩, ⟨62, 62, .w1c, 0x0⟩, ⟨61, 61, .ro, 0x0⟩, ⟨55, 48, .ro, 0x0⟩, ⟨47, 40, .ro, 0x0⟩, ⟨31, 0, .ro, 0x0⟩]⟩,
  ⟨0x8, 1, [⟨19, 19, .w1c, 0x0⟩, ⟨18, 18, .w1c, 0x0⟩, ⟨17, 17, .w1c, 0x0⟩, ⟨16, 16, .w1c, 0x0⟩, ⟨15, 1, .w1c, 0x0⟩]⟩,
  ⟨0x10, 1, [⟨63, 63, .wo, 0x0⟩, ⟨62, 62, .wo, 0x0⟩]⟩,
  ⟨0x18, 1, [⟨7, 0, .wo, 0x0⟩]⟩,
  ⟨0x20, 1, [⟨7, 0, .wo, 0x0⟩]⟩,
  ⟨0x28, 1, [⟨63, 48, .rwl, 0x64⟩, ⟨47, 32, .rwl, 0x1f40⟩, ⟨31, 16, .rwl, 0x0⟩, ⟨15, 0, .rwl, 0x0⟩]⟩,
  ⟨0x30, 1, [⟨63, 0, .wo, 0x0⟩]⟩,
  ⟨0x38, 1, [⟨63, 0, .wo, 0x0⟩]⟩,
  ⟨0x40, 1, [⟨63, 63, .w1c, 0x0⟩, ⟨62, 62, .w1c, 0x0⟩, ⟨61, 58, .ro, 0x0⟩, ⟨57, 49, .ro, 0x100⟩]⟩,
  ⟨0x100, 16, [⟨63, 62, .rwl, 0x0⟩, ⟨61, 57, .rwl, 0x0⟩, ⟨31, 16, .rwl, 0x0⟩, ⟨15, 0, .rwl, 0x0⟩]⟩,
  ⟨0xfff8, 1, [⟨0, 0, .lock, 0x0⟩]⟩]

/-- The registers of XSPI. -/
def rowsXSPI : List RegRow := [
  ⟨0x0, 1, [⟨59, 28, .rw, 0x0⟩, ⟨27, 0, .rw, 0x0⟩]⟩,
  ⟨0x8, 1, [⟨63, 63, .wo, 0x0⟩, ⟨62, 60, .wo, 0x0⟩, ⟨16, 0, .wo, 0x0⟩]⟩,
  ⟨0x10, 1, [⟨63, 63, .ro, 0x0⟩, ⟨62, 62, .w1c, 0x0⟩, ⟨61, 61, .w1c, 0x0⟩, ⟨60, 57, .ro, 0x0⟩]⟩,
  ⟨0x18, 1, [⟨63, 63, .wo, 0x0⟩, ⟨57, 56, .wo, 0x0⟩, ⟨0, 0, .rw, 0x0⟩]⟩,
  ⟨0x20, 1, [⟨63, 63, .ro, 0x0⟩, ⟨62, 62, .w1c, 0x0⟩, ⟨61, 61, .w1c, 0x0⟩, ⟨60, 60, .ro, 0x0⟩, ⟨59, 59, .ro, 0x0⟩, ⟨58, 51, .ro, 0x0⟩, ⟨50, 47, .ro, 0x0⟩]⟩,
  ⟨0xfff8, 1, [⟨0, 0, .lock, 0x0⟩]⟩]

/-- The registers of DDRC. -/
def rowsDDRC : List RegRow := [
  ⟨0x0, 1, [⟨63, 63, .ro, 0x0⟩, ⟨62, 60, .ro, 0x0⟩]⟩,
  ⟨0x8, 1, [⟨63, 63, .w1c, 0x0⟩, ⟨55, 40, .rc, 0x0⟩, ⟨39, 6, .ro, 0x0⟩]⟩,
  ⟨0xfff8, 1, [⟨0, 0, .lock, 0x0⟩]⟩]

/-- The registers of PCIE. -/
def rowsPCIE : List RegRow := [
  ⟨0x0, 1, [⟨63, 63, .ro, 0x0⟩, ⟨62, 61, .ro, 0x0⟩, ⟨60, 59, .ro, 0x0⟩, ⟨58, 58, .ro, 0x0⟩, ⟨15, 0, .rc, 0x0⟩]⟩,
  ⟨0x8, 1, [⟨63, 63, .wo, 0x0⟩]⟩,
  ⟨0xfff8, 1, [⟨0, 0, .lock, 0x0⟩]⟩]

/-- The registers of IO. -/
def rowsIO : List RegRow := [
  ⟨0x0, 1, [⟨23, 0, .rw, 0x0⟩]⟩,
  ⟨0x8, 1, [⟨23, 0, .rw, 0x0⟩]⟩,
  ⟨0x10, 1, [⟨23, 0, .ro, 0x0⟩]⟩,
  ⟨0x100, 2, [⟨63, 63, .rw, 0x0⟩, ⟨62, 62, .rw, 0x0⟩, ⟨61, 60, .rw, 0x0⟩, ⟨59, 59, .w1c, 0x0⟩, ⟨58, 58, .w1c, 0x0⟩, ⟨47, 40, .ro, 0x0⟩, ⟨39, 32, .ro, 0x40⟩, ⟨15, 0, .rw, 0x208⟩]⟩,
  ⟨0x110, 2, [⟨7, 0, .wo, 0x0⟩]⟩,
  ⟨0x120, 2, [⟨63, 63, .rc, 0x0⟩, ⟨62, 62, .rc, 0x0⟩, ⟨61, 61, .rc, 0x0⟩, ⟨7, 0, .rc, 0x0⟩]⟩,
  ⟨0x200, 2, [⟨63, 63, .wo, 0x0⟩, ⟨62, 62, .wo, 0x0⟩, ⟨61, 61, .wo, 0x0⟩, ⟨54, 48, .wo, 0x0⟩, ⟨42, 40, .wo, 0x0⟩, ⟨31, 0, .wo, 0x0⟩]⟩,
  ⟨0x210, 2, [⟨63, 63, .ro, 0x0⟩, ⟨62, 62, .w1c, 0x0⟩, ⟨61, 61, .ro, 0x0⟩, ⟨31, 0, .ro, 0x0⟩]⟩,
  ⟨0x300, 2, [⟨63, 63, .wo, 0x0⟩, ⟨62, 61, .wo, 0x0⟩, ⟨55, 48, .wo, 0x0⟩, ⟨42, 40, .wo, 0x0⟩, ⟨31, 0, .wo, 0x0⟩]⟩,
  ⟨0x310, 2, [⟨63, 63, .ro, 0x0⟩, ⟨62, 62, .w1c, 0x0⟩, ⟨31, 0, .ro, 0x0⟩]⟩,
  ⟨0xfff8, 1, [⟨0, 0, .lock, 0x0⟩]⟩]

/-- The registers of a block, by block number (R26). -/
def blockRows : Nat → List RegRow
  | 0 => rowsSYS
  | 1 => rowsICU
  | 2 => rowsKEYS
  | 3 => rowsCRYPTO
  | 4 => rowsGOOSE
  | 5 => rowsFE
  | 6 => rowsFE
  | 7 => rowsFE
  | 8 => rowsCHAN
  | 9 => rowsOX
  | 10 => rowsMAC
  | 11 => rowsFWD
  | 12 => rowsSCHED
  | 13 => rowsQMGR
  | 14 => rowsTIME
  | 15 => rowsETH
  | 16 => rowsHERD
  | 17 => rowsNFC
  | 18 => rowsLAMB
  | 19 => rowsPERF
  | 20 => rowsHEALTH
  | 21 => rowsSAFE
  | 22 => rowsXSPI
  | 23 => rowsDDRC
  | 24 => rowsPCIE
  | 25 => rowsIO
  | _ => []

/-- The register at an offset from the control-block base, if one lies there (R12). -/
def rowAt (off : Nat) : Option RegRow :=
  (blockRows (off / 0x10000)).find? fun r =>
    r.off ≤ off % 0x10000 && off % 0x10000 < r.off + 8 * r.count

end Reg

end Sys2Proof.Machine
end

