-- ==== Sys2Proof/Machine/Operands.lean ====
section
/-!
DEFINITION. Reading and building the numbers the chapters pack into words: bit fields, two's complement, byte order,
the modular comparison of R20 and the checksums several chapters share.
-/

namespace Sys2Proof.Machine

/-- Bits `hi` down to `lo` of `v`. -/
def bits (v hi lo : Nat) : Nat := (v / 2 ^ lo) % 2 ^ (hi - lo + 1)

/-- Bit `n` of `v`. -/
def bit (v n : Nat) : Bool := (v / 2 ^ n) % 2 = 1

/-- `v` with bits `hi` down to `lo` replaced by `x`: the word of a command whose name fixes those bits. -/
def putBits (v hi lo x : Nat) : Nat := v - bits v hi lo * 2 ^ lo + x % 2 ^ (hi - lo + 1) * 2 ^ lo

/-- A Bool as a bit. -/
def b2n (b : Bool) : Nat := if b then 1 else 0

/-- `v` cut to `w` bits and put at bit `lo`. -/
def at' (v w lo : Nat) : Nat := (v % 2 ^ w) * 2 ^ lo

/-- An element put before the first of a list that it does not come after. -/
def insertBy {α : Type} (le : α → α → Bool) (a : α) : List α → List α
  | [] => [a]
  | b :: l => if le a b then a :: b :: l else b :: insertBy le a l

/-- A list in order; elements that are equal in it keep their order. -/
def sortBy {α : Type} (le : α → α → Bool) (l : List α) : List α := l.foldr (insertBy le) []

/-- The `w`-bit two's-complement reading of `v`. -/
def toSigned (w v : Nat) : Int :=
  if v % 2 ^ w < 2 ^ (w - 1) then (v % 2 ^ w : Nat) else ((v % 2 ^ w : Nat) : Int) - (2 ^ w : Nat)

/-- The `w`-bit two's-complement code of `x`. -/
def ofSigned (w : Nat) (x : Int) : Nat := (x % ((2 ^ w : Nat) : Int)).toNat

/-- `x` held between `-m` and `m`. -/
def clampInt (m x : Int) : Int := if x > m then m else if x < -m then -m else x

/-- `x` saturated to a `w`-bit two's-complement number. -/
def satSigned (w : Nat) (x : Int) : Int :=
  if x > ((2 ^ (w - 1) : Nat) : Int) - 1 then ((2 ^ (w - 1) : Nat) : Int) - 1
  else if x < -((2 ^ (w - 1) : Nat) : Int) then -((2 ^ (w - 1) : Nat) : Int) else x

/-- The signed difference (intN)(a - b) of R20. -/
def diffN (w a b : Nat) : Int := toSigned w (a % 2 ^ w + 2 ^ w - b % 2 ^ w)

/-- `a` is later than `b` in a `w`-bit counter (R20). -/
def later (w a b : Nat) : Bool := decide (0 < diffN w a b)

/-- Division rounded up. -/
def ceilDiv (a b : Nat) : Nat := (a + b - 1) / b

/-- The number whose little-endian octets are `bs`. -/
def leNat : List Byte → Nat
  | [] => 0
  | b :: bs => b.toNat + 256 * leNat bs

/-- The number whose big-endian octets are `bs`. -/
def beNat (bs : List Byte) : Nat := leNat bs.reverse

/-- The `n` little-endian octets of `v`. -/
def leBytes : Nat → Nat → List Byte
  | 0, _ => []
  | n + 1, v => BitVec.ofNat 8 v :: leBytes n (v / 256)

/-- The `n` big-endian octets of `v`. -/
def beBytes (n v : Nat) : List Byte := (leBytes n v).reverse

/-- `n` little-endian octets of `bs` from `off`; octets past the end read zero. -/
def field (bs : List Byte) (off n : Nat) : Nat := leNat ((bs.drop off).take n)

/-- `n` big-endian octets of `bs` from `off`. -/
def fieldBE (bs : List Byte) (off n : Nat) : Nat := beNat ((bs.drop off).take n)

/-- The number of set bits among the low `w` bits of `v`. -/
def popCount : Nat → Nat → Nat
  | 0, _ => 0
  | w + 1, v => v % 2 + popCount w (v / 2)

/-- The lowest `i` below `n` with `p i`. -/
def firstBelow (n : Nat) (p : Nat → Bool) : Option Nat := (List.range n).find? p

/-- One shift of a reflected CRC register. -/
def crcShift (poly r : Nat) : Nat := if r % 2 = 1 then (r / 2) ^^^ poly else r / 2

/-- A reflected CRC over octets, register `r` in and out. -/
def crcReflected (poly : Nat) : List Byte → Nat → Nat
  | [], r => r
  | b :: bs, r =>
    crcReflected poly bs (Nat.repeat (crcShift poly) 8 (r ^^^ b.toNat))

/-- CRC-32C of R648: polynomial 0x1EDC_6F41 reflected, initial and final 0xFFFF_FFFF. -/
def crc32c (bs : List Byte) : Nat := crcReflected 0x82F63B78 bs 0xFFFFFFFF ^^^ 0xFFFFFFFF

/-- CRC-32 of R193: polynomial 0x04C1_1DB7 reflected, initial and final 0xFFFF_FFFF. -/
def crc32 (bs : List Byte) : Nat := crcReflected 0xEDB88320 bs 0xFFFFFFFF ^^^ 0xFFFFFFFF

/-- The ITU-T CRC-16 of the standard's two-octet FCS (R208): x^16 + x^12 + x^5 + 1 reflected, initial 0. -/
def crc16 (bs : List Byte) : Nat := crcReflected 0x8408 bs 0

/-- The CRC of a contactless frame (R563): CRC_A of ISO/IEC 14443 Type A, or CRC_B, which ISO/IEC 15693 has too. -/
def crcA (bs : List Byte) : Nat := crcReflected 0x8408 bs 0x6363
def crcB (bs : List Byte) : Nat := crcReflected 0x8408 bs 0xFFFF ^^^ 0xFFFF
def crcNfc (proto : Nat) (bs : List Byte) : Nat := if proto = 1 ∨ proto = 2 then crcB bs else crcA bs

end Sys2Proof.Machine
end

