-- ==== Sys2Proof/Machine/Sha.lean ====
section
/-!
DEFINITION. SHA-256 as FIPS 180-4 gives it, and HMAC-SHA-256 (R500, R529, R540, R660).
-/

namespace Sys2Proof.Machine

/-- The round constants, and the initial hash value. -/
def shaK : List Nat :=
  [0x428a2f98, 0x71374491, 0xb5c0fbcf, 0xe9b5dba5, 0x3956c25b, 0x59f111f1, 0x923f82a4, 0xab1c5ed5] ++
  [0xd807aa98, 0x12835b01, 0x243185be, 0x550c7dc3, 0x72be5d74, 0x80deb1fe, 0x9bdc06a7, 0xc19bf174] ++
  [0xe49b69c1, 0xefbe4786, 0x0fc19dc6, 0x240ca1cc, 0x2de92c6f, 0x4a7484aa, 0x5cb0a9dc, 0x76f988da] ++
  [0x983e5152, 0xa831c66d, 0xb00327c8, 0xbf597fc7, 0xc6e00bf3, 0xd5a79147, 0x06ca6351, 0x14292967] ++
  [0x27b70a85, 0x2e1b2138, 0x4d2c6dfc, 0x53380d13, 0x650a7354, 0x766a0abb, 0x81c2c92e, 0x92722c85] ++
  [0xa2bfe8a1, 0xa81a664b, 0xc24b8b70, 0xc76c51a3, 0xd192e819, 0xd6990624, 0xf40e3585, 0x106aa070] ++
  [0x19a4c116, 0x1e376c08, 0x2748774c, 0x34b0bcb5, 0x391c0cb3, 0x4ed8aa4a, 0x5b9cca4f, 0x682e6ff3] ++
  [0x748f82ee, 0x78a5636f, 0x84c87814, 0x8cc70208, 0x90befffa, 0xa4506ceb, 0xbef9a3f7, 0xc67178f2]
def shaInit : List Nat :=
  [0x6a09e667, 0xbb67ae85, 0x3c6ef372, 0xa54ff53a, 0x510e527f, 0x9b05688c, 0x1f83d9ab, 0x5be0cd19]

/-- A 32-bit word turned right. -/
def rotr (n x : Nat) : Nat := x / 2 ^ n + x % 2 ^ n * 2 ^ (32 - n)

/-- A sum of 32-bit words. -/
def add32 (l : List Nat) : Nat := l.foldl (· + ·) 0 % 2 ^ 32

/-- The message schedule, latest word first, extended by `n` words. -/
def shaExtend : Nat → List Nat → List Nat
  | 0, w => w
  | n + 1, w =>
    let a := w.getD 14 0
    let b := w.getD 1 0
    let s0 := rotr 7 a ^^^ rotr 18 a ^^^ (a / 8)
    let s1 := rotr 17 b ^^^ rotr 19 b ^^^ (b / 1024)
    shaExtend n (add32 [w.getD 15 0, s0, w.getD 6 0, s1] :: w)

/-- One round on the eight working words. -/
def shaRound (v : List Nat) (kw : Nat × Nat) : List Nat :=
  match v with
  | [a, b, c, d, e, f, g, h] =>
    let t1 := add32 [h, rotr 6 e ^^^ rotr 11 e ^^^ rotr 25 e, (e &&& f) ^^^ ((2 ^ 32 - 1 - e) &&& g), kw.1, kw.2]
    let t2 := add32 [rotr 2 a ^^^ rotr 13 a ^^^ rotr 22 a, (a &&& b) ^^^ (a &&& c) ^^^ (b &&& c)]
    [add32 [t1, t2], a, b, c, add32 [d, t1], e, f, g]
  | _ => v

/-- The number of a 4-octet word, most significant octet first. -/
def shaWord (l : List Byte) : Nat := beNat l

/-- The first `n` words of a block. -/
def shaWords : Nat → List Byte → List Nat
  | 0, _ => []
  | n + 1, l => shaWord (l.take 4) :: shaWords n (l.drop 4)

/-- One block of 64 octets. -/
def shaBlock (h : List Nat) (b : List Byte) : List Nat :=
  let w := (shaExtend 48 (shaWords 16 b).reverse).reverse
  ((h.zip ((shaK.zip w).foldl shaRound h)).map fun x => add32 [x.1, x.2])

/-- Blocks of 64 octets, one after another. -/
def shaBlocks : Nat → List Nat → List Byte → List Nat
  | 0, h, _ => h
  | n + 1, h, l => shaBlocks n (shaBlock h (l.take 64)) (l.drop 64)

/-- The padded message: a one bit, zeros, and the length in bits. -/
def shaPad (m : List Byte) : List Byte :=
  m ++ [0x80] ++ List.replicate ((119 - m.length % 64) % 64) 0 ++ beBytes 8 (8 * m.length)

/-- SHA-256 of a message, 32 octets. -/
def sha256 (m : List Byte) : List Byte :=
  let p := shaPad m
  (shaBlocks (p.length / 64) shaInit p).flatMap (beBytes 4)

/-- HMAC-SHA-256 of a message under a key. -/
def hmac (key message : List Byte) : List Byte :=
  let k := if 64 < key.length then sha256 key else key
  let k := k ++ List.replicate (64 - k.length) 0
  sha256 ((k.map fun x => x ^^^ 0x5c) ++ sha256 ((k.map fun x => x ^^^ 0x36) ++ message))

end Sys2Proof.Machine
end

