-- ==== Sys2Proof/Machine/Aes.lean ====
section
/-!
DEFINITION. AES as FIPS 197 gives it, and what the chapters build on it: AES key wrap of RFC 3394 (R297, R537), and AES-CCM with
13-octet nonces (R287 to R294, R543). Blocks are lists of 16 octets as numbers.
-/

namespace Sys2Proof.Machine

/-- The substitution box: octet `x` of this number, from the least significant. -/
def aesBox : Nat :=
  0xc072a49cafa2d4adf04759fa7dc982ca76abd7fe2b670130c56f6bf27b777c63 +
  0x75b227ebe28012079a059618c323c7041531d871f1e5a534ccf73f362693fdb7 * 2 ^ 256 +
  0xcf584c4a39becb6a5bb1fc20ed00d153842fe329b3d63b52a05a6e1b1a2c8309 * 2 ^ 512 +
  0xd2f3ff1021dab6bcf5389d928f40a351a89f3c507f02f94585334d43fbaaefd0 * 2 ^ 768 +
  0xdb0b5ede14b8ee4688902a22dc4f816073195d643d7ea7c41744975fec130ccd * 2 ^ 1024 +
  0x08ae7a65eaf4566ca94ed58d6d37c8e779e4959162acd3c25c2406490a3a32e0 * 2 ^ 1280 +
  0x9e1dc186b95735610ef6034866b53e708a8bbd4b1f74dde8c6b4a61c2e2578ba * 2 ^ 1536 +
  0x16bb54b00f2d99416842e6bf0d89a18cdf2855cee9871e9b948ed9691198f8e1 * 2 ^ 1792

/-- The inverse substitution box. -/
def aesBoxInv : Nat :=
  0xcbe9dec444438e3487ff2f9b8239e37cfbd7f3819ea340bf38a53630d56a0952 +
  0x25d18b6d49a25b76b224d92866a12e084ec3fa420b954cee3d23c2a632947b54 * 2 ^ 256 +
  0x849d8da75746155edab9edfd5048706c92b6655dcc5ca4d41698688664f6f872 * 2 ^ 512 +
  0x6b8a130103bdafc1020f3fca8f1e2cd00645b3b80558e4f70ad3bc8c00abd890 * 2 ^ 768 +
  0x6edf751ce837f9e28535ade72274ac9673e6b4f0cecff297eadc674f4111913a * 2 ^ 1024 +
  0xf45acd78fec0db9a2079d2c64b3e56fc1bbe18aa0e62b76f89c5291d711af147 * 2 ^ 1280 +
  0xef9cc9939f7ae52d0d4ab519a97f51605fec8027591012b131c7078833a8dd1f * 2 ^ 1536 +
  0x7d0c2155631469e126d677ba7e042b17619953833cbbebc8b0f52aae4d3be0a0 * 2 ^ 1792

/-- An octet of a table. -/
def boxAt (box x : Nat) : Nat := box / 2 ^ (8 * x) % 256

/-- Exclusive or, octet by octet. -/
def xorList (a b : List Nat) : List Nat := (a.zip b).map fun x => x.1 ^^^ x.2

/-- Multiplication by x in the field of 256 elements, and by any element of at most four bits. -/
def gfDouble (x : Nat) : Nat := if x < 128 then 2 * x else (2 * x - 256) ^^^ 0x1b
def gfMul (k x : Nat) : Nat :=
  (if bit k 0 then x else 0) ^^^ (if bit k 1 then gfDouble x else 0) ^^^ (if bit k 2 then gfDouble (gfDouble x) else 0) ^^^
    (if bit k 3 then gfDouble (gfDouble (gfDouble x)) else 0)

/-- One word of the key schedule, from the words before it, latest first; `nk` words of key and round constant `rcon`. -/
def keyWord (nk i rcon : Nat) (ws : List (List Nat)) : List Nat :=
  let t := ws.headD []
  let t := if i % nk = 0 then xorList ((t.drop 1 ++ t.take 1).map (boxAt aesBox)) [rcon, 0, 0, 0]
    else if 6 < nk ∧ i % nk = 4 then t.map (boxAt aesBox) else t
  xorList (ws.getD (nk - 1) []) t

/-- The key schedule from word `i` on: `left` words more. -/
def keyWords (nk : Nat) : Nat → Nat → Nat → List (List Nat) → List (List Nat)
  | 0, _, _, ws => ws
  | left + 1, i, rcon, ws =>
    keyWords nk left (i + 1) (if i % nk = 0 then gfDouble rcon else rcon) (keyWord nk i rcon ws :: ws)

/-- Cut a list into pieces of `n`. -/
def pieces (n : Nat) : Nat → List α → List (List α)
  | 0, _ => []
  | k + 1, l => if l.isEmpty then [] else l.take n :: pieces n k (l.drop n)

/-- The round keys of a key of 16 or 32 octets, 16 octets each. -/
def roundKeys (key : List Byte) : List (List Nat) :=
  let nk := key.length / 4
  let first := (pieces 4 nk (key.map (·.toNat))).reverse
  pieces 16 (nk + 7) (keyWords nk (4 * (nk + 7) - nk) nk 1 first).reverse.flatten

/-- The row shift, and its inverse. -/
def shiftRows (b : List Nat) : List Nat := (List.range 16).map fun i => b.getD (i % 4 + 4 * ((i / 4 + i % 4) % 4)) 0
def shiftRowsInv (b : List Nat) : List Nat := (List.range 16).map fun i => b.getD (i % 4 + 4 * ((i / 4 + 4 - i % 4) % 4)) 0

/-- The column mix with the coefficients of one row. -/
def mixColumns (k : List Nat) (b : List Nat) : List Nat :=
  (pieces 4 4 b).flatMap fun c => (List.range 4).map fun r =>
    (List.range 4).foldl (fun a j => a ^^^ gfMul (k.getD ((j + 4 - r) % 4) 0) (c.getD j 0)) 0

/-- The rounds of the cipher after the first key: the last one mixes no columns. -/
def aesRounds : List (List Nat) → List Nat → List Nat
  | [], b => b
  | [k], b => xorList (shiftRows (b.map (boxAt aesBox))) k
  | k :: ks, b => aesRounds ks (xorList (mixColumns [2, 3, 1, 1] (shiftRows (b.map (boxAt aesBox)))) k)

/-- The cipher under round keys. -/
def aesEncrypt (ks : List (List Nat)) (b : List Nat) : List Nat := aesRounds (ks.drop 1) (xorList b (ks.headD []))

/-- The rounds of the inverse cipher, keys in reverse order. -/
def aesRoundsInv : List (List Nat) → List Nat → List Nat
  | [], b => b
  | [k], b => xorList ((shiftRowsInv b).map (boxAt aesBoxInv)) k
  | k :: ks, b => aesRoundsInv ks (mixColumns [14, 11, 13, 9] (xorList ((shiftRowsInv b).map (boxAt aesBoxInv)) k))

/-- The inverse cipher under round keys. -/
def aesDecrypt (ks : List (List Nat)) (b : List Nat) : List Nat :=
  aesRoundsInv (ks.reverse.drop 1) (xorList b (ks.getLast?.getD []))

/-- Is this an AES key (R530: 128 or 256 bits)? -/
def aesKey (key : List Byte) : Bool := decide (key.length = 16 ∨ key.length = 32)

/-! AES key wrap (RFC 3394). -/

/-- The default initial value (R297). -/
def wrapIv : List Nat := List.replicate 8 0xA6

/-- A step counter as 8 octets, most significant first. -/
def stepOctets (t : Nat) : List Nat := (beBytes 8 t).map (·.toNat)

/-- One pass of the wrapping over the blocks, from step `t` on. -/
def wrapPass (ks : List (List Nat)) : Nat → List Nat → List (List Nat) → List Nat × List (List Nat)
  | _, a, [] => (a, [])
  | t, a, r :: rs =>
    let b := aesEncrypt ks (a ++ r)
    let x := wrapPass ks (t + 1) (xorList (b.take 8) (stepOctets t)) rs
    (x.1, b.drop 8 :: x.2)

/-- One pass of the unwrapping over the blocks, last block first, from step `t` down. -/
def unwrapPass (ks : List (List Nat)) : Nat → List Nat → List (List Nat) → List Nat × List (List Nat)
  | _, a, [] => (a, [])
  | t, a, r :: rs =>
    let b := aesDecrypt ks (xorList a (stepOctets t) ++ r)
    let x := unwrapPass ks (t - 1) (b.take 8) rs
    (x.1, b.drop 8 :: x.2)

/-- The wrapping of a key, 8 octets longer (R537). -/
def keyWrap (kek key : List Byte) : List Byte :=
  let ks := roundKeys kek
  let n := key.length / 8
  let r := (List.range 6).foldl (fun (x : List Nat × List (List Nat)) j => wrapPass ks (n * j + 1) x.1 x.2)
    (wrapIv, pieces 8 n (key.map (·.toNat)))
  (r.1 ++ r.2.flatten).map (BitVec.ofNat 8)

/-- The key that a wrapped value holds; `none` when the integrity check fails or the key-encryption key is no AES key (R297). -/
def keyUnwrap (kek w : List Byte) : Option (List Byte) :=
  let ks := roundKeys kek
  let n := w.length / 8 - 1
  let b := w.map (·.toNat)
  let r := (List.range 6).foldl (fun (x : List Nat × List (List Nat)) j => unwrapPass ks (n * (6 - j)) x.1 x.2)
    (b.take 8, (pieces 8 n (b.drop 8)).reverse)
  if aesKey kek ∧ r.1 = wrapIv then some (r.2.reverse.flatten.map (BitVec.ofNat 8)) else none

/-! AES-CCM with a length field of two octets. -/

/-- A block of 16 octets, filled up with zeros. -/
def padBlock (b : List Nat) : List Nat := b ++ List.replicate (16 - b.length) 0

/-- The blocks of data, the last one filled up with zeros. -/
def blocksOf (l : List Nat) : List (List Nat) := (pieces 16 (l.length / 16 + 1) l).map padBlock

/-- The blocks that CCM authenticates: the flags with the nonce and the length, the associated data with its length, the message. -/
def ccmBlocks (nonce aad msg : List Nat) (m : Nat) : List (List Nat) :=
  let flags := (if aad.isEmpty then 0 else 64) + 8 * ((m - 2) / 2) + 1
  let two := fun (n : Nat) => [n / 256 % 256, n % 256]
  [[flags] ++ nonce ++ two msg.length] ++ (if aad.isEmpty then [] else blocksOf (two aad.length ++ aad)) ++ blocksOf msg

/-- The key stream block `i`. -/
def ccmStream (ks : List (List Nat)) (nonce : List Nat) (i : Nat) : List Nat :=
  aesEncrypt ks ([1] ++ nonce ++ [i / 256 % 256, i % 256])

/-- Encrypt or decrypt a message: exclusive or with the key stream. -/
def ccmCrypt (key nonce msg : List Byte) : List Byte :=
  let ks := roundKeys key
  let n := nonce.map (·.toNat)
  (((pieces 16 (msg.length / 16 + 1) (msg.map (·.toNat))).zipIdx 1).flatMap fun b =>
    xorList b.1 (ccmStream ks n b.2)).map (BitVec.ofNat 8)

/-- The MIC of `m` octets over associated data and a plaintext message. -/
def ccmTag (key nonce aad msg : List Byte) (m : Nat) : List Byte :=
  let ks := roundKeys key
  let n := nonce.map (·.toNat)
  let t := (ccmBlocks n (aad.map (·.toNat)) (msg.map (·.toNat)) m).foldl (fun x b => aesEncrypt ks (xorList x b)) (List.replicate 16 0)
  ((xorList t (ccmStream ks n 0)).take m).map (BitVec.ofNat 8)

end Sys2Proof.Machine
end

