-- ==== Sys2Proof/Machine/State.lean ====
section
/-!
DEFINITION. The state of the block as plain data, the reasons a step can stop, and the state after reset.
Register fields live in one field store (RegMap.lean names them); what stands behind the registers lives in one
structure per block.
-/

namespace Sys2Proof.Machine

/-- The response to the last bus access (R7, R9, R12, R22): its data, whether it was a bus error, and whether a PCIe
request was answered with Unsupported Request (R22, R480). -/
structure BusResult where
  data : Nat := 0
  err : Bool := false
  unsupported : Bool := false
  deriving DecidableEq, Repr

/-- One record of the EVENT FIFO (R42 to R47). -/
structure EventRec where
  code : Nat
  source : Nat
  arg : Nat
  time : Nat
  deriving DecidableEq, Repr

/-- Addressed memories (R22, R24): sparse lists in canonical form. -/
structure Memories where
  /-- LP4X octets; an unlisted octet reads zero. -/
  lp4x : List Host.Cell := []
  /-- Sheepdog TCM octets; an unlisted octet reads zero. -/
  tcm : List Host.Cell := []
  /-- Flash octets (R621); an unlisted octet is erased, 0xFF. -/
  flash : List Host.Cell := []
  /-- OTP words (R519); an unlisted word is unburned, zero. -/
  otp : List (Nat × Word) := []
  /-- FWM octets (R583); an unlisted octet is erased, 0xFF. -/
  fwm : List Host.Cell := []
  /-- How often each 64 KiB block of the flash has been erased (R678). -/
  erases : List (Nat × Nat) := []
  deriving DecidableEq, Repr

/-- An IEEE 802.15.4 address (R257). -/
inductive Addr where
  | absent
  | short (a : Nat)
  | ext (a : Nat)
  deriving DecidableEq, Repr

/-- The auxiliary security header of a frame: level, key identifier mode, Key Index, frame counter. -/
structure AuxSec where
  level : Nat
  keyMode : Nat
  keyIndex : Nat := 0
  counter : Option Nat
  deriving DecidableEq, Repr

/-- What the octets of a PSDU spell in the IEEE 802.15.4 format (R257): its frame type is 0 beacon, 1 data, 2 acknowledgement,
otherwise another. -/
structure MacFrame where
  /-- The octets spell no frame: a reserved addressing mode, or fields that run past the end. -/
  bad : Bool := false
  version : Nat := 0
  ftype : Nat := 0
  ackReq : Bool := false
  seqNo : Option Nat := none
  dst : Addr := .absent
  src : Addr := .absent
  sec : Option AuxSec := none
  flood : Option Flood := none
  /-- A header termination IE announces payload IEs. -/
  payloadIes : Bool := false
  /-- Octets from the frame-control field through the end of the header IEs (R294). -/
  hdrLen : Nat := 0
  /-- The octets of the frame without its FCS. -/
  raw : List Byte := []
  deriving DecidableEq, Repr

/-- A MAC frame that the device sends (R257, R265, R268): what its header and payload hold but for the frame counter and the Key
Index, which are settled when it is encrypted. -/
structure TxFrame where
  ftype : Nat
  ackReq : Bool := false
  seqNo : Option Nat := none
  dst : Addr
  src : Addr := .absent
  /-- PAN ID Compression. -/
  comp : Bool := true
  level : Nat
  /-- Key identifier mode 1: the frame is under a group key. -/
  group : Bool := false
  /-- Header IEs, and a termination IE where one stands. -/
  ies : List Byte := []
  payload : List Byte := []
  deriving DecidableEq, Repr

/-- One entry of the timestamp queue (R460). -/
structure Stamp where
  word0 : Nat
  ns : Nat
  deriving DecidableEq, Repr

/-- The TIME block behind its registers (R434 to R470). -/
structure TimeState where
  /-- The DSP PLL has locked since the last full restart (R437). -/
  running : Bool := false
  /-- TIME_NS. -/
  ns : Nat := 0
  /-- The 32-bit fraction register. -/
  frac : Nat := 0
  /-- SLEW_REM in units of 2^-32 ns. -/
  slew : Int := 0
  /-- The servo's integral term I (R453). -/
  integral : Int := 0
  /-- Ticks at the latest write of TIME_OFS_IN. -/
  ptpAt : Option Nat := none
  /-- Ticks since which PTP, PPS and EB are qualified. -/
  ptpSince : Option Nat := none
  ppsSince : Option Nat := none
  ebSince : Option Nat := none
  /-- Ticks at which holdover started (R451). -/
  holdAt : Nat := 0
  /-- The whole second of TIME_NS of the last selection made in holdover. -/
  selectAt : Option Nat := none
  /-- Ticks of the cycle of the last accepted step, in which no servo step acts (R444). -/
  stepTick : Option Nat := none
  /-- TIME_NS of the last accepted or expected 1PPS edge. -/
  ppsEdge : Option Nat := none
  /-- Edges accepted since the last miss (R449), and consecutive misses. -/
  ppsRun : Nat := 0
  ppsMisses : Nat := 0
  /-- The 1PPS output and the TIME_NS at which it rose (R457). -/
  ppsOut : Bool := false
  ppsRose : Nat := 0
  /-- The timestamp queue, oldest first, and whether word 0 of the oldest has been popped. -/
  stamps : List Stamp := []
  word1 : Bool := false
  deriving DecidableEq, Repr

/-- A RADIO_PLAN sub-band record (R134). -/
structure SubBand where
  fe : Nat
  index : Nat
  modes : Nat
  lowKhz : Nat
  highKhz : Nat
  capQdbm : Int
  syncTol : Nat
  deriving DecidableEq, Repr

/-- What a release debited, so that it can be returned (R410, R412, R420). -/
structure Debit where
  port : Nat
  excess : Bool
  tenant : Nat
  queue : Nat
  /-- Classes 2 to 7 draw on deficits; which buckets were debited. -/
  weighted : Bool
  committed : Bool
  peak : Bool
  byTenant : Bool
  cost : Nat
  sub : Nat
  second : Nat
  deriving DecidableEq, Repr

/-- A packet from enqueue to egress (R383, R396). `record` 0x3FFFF marks a broadcast packet; `head` and `time` are the
mailbox words of R396 for a core-bound packet; `ingress` is the PORT code and the timestamp, in 2^-16 ns, that R463 needs. -/
structure Packet where
  id : Nat := 0
  queue : Nat := 0
  cls : Nat := 0
  tenant : Nat := 0
  record : Nat := 0x3FFFF
  len : Nat := 1
  enqUs : Nat := 0
  onchip : Bool := false
  /-- The cells and the descriptor that it takes in LP4X (R381 to R383). -/
  cells : List Nat := []
  desc : Nat := 0
  data : List Byte := []
  head : Nat := 0
  time : Nat := 0
  flood : Option Flood := none
  /-- A protective command: source and SEQ (R648). -/
  safety : Option (Nat × Nat) := none
  /-- The free-run channel that firmware named (R398). -/
  freeRun : Option Nat := none
  /-- A flood that is bound to no tenant takes the SERVICE group key (R306). -/
  service : Bool := false
  /-- For a radio packet `data` is the MAC payload, and `len` counts the MAC header too (R405): its destination, its sequence number,
  and whether its payload begins with payload IEs. -/
  dst : Addr := .absent
  seqNo : Option Nat := none
  ies : Bool := false
  /-- WRAPPED_KEY of its link record as fetched at step 3 (R303). -/
  wrapped : List Byte := []
  ingress : Option (Nat × Nat) := none
  /-- Failed attempts, backoff exponent and backoff count (R253, R254). -/
  tries : Nat := 0
  be : Nat := 0
  backoff : Nat := 0
  /-- MAX_BE and MAX_RETRIES when its first attempt committed (R286). -/
  beMax : Nat := 0
  retryMax : Nat := 0
  deriving DecidableEq, Repr

/-- What a carrier carries. -/
inductive Load where
  | data (p : Packet) (d : Debit) (retry : Bool)
  | beacon (cell : Nat)
  /-- An acknowledgement: the record of the frame it answers, and the ASN of that frame's timeslot (R292). -/
  | ack (record asn : Nat)
  | wake (addr reps : Nat)
  deriving DecidableEq, Repr

/-- One carrier of an emission (R249). -/
structure Carrier where
  bin : Nat
  freqKhz : Nat
  mode : Nat
  cr : Nat
  /-- Octets of PSDU and airtime in µs. -/
  len : Nat
  airtimeUs : Nat
  /-- Power at the antenna and at the device's pin in 0.25 dBm, once emitting (R112 to R117). -/
  powerQdbm : Int := 0
  pinQdbm : Int := 0
  load : Load
  /-- SEQ of its PHY header (R185, R186), and its frame; a wake-up pattern has none. -/
  seq : Nat := 0
  frame : Option TxFrame := none
  /-- The PSDU once its CCM* job has ended, with MIC and FCS; empty before. -/
  psdu : List Byte := []
  /-- The cell it fills; whether that cell is SHARED. -/
  cell : Nat := 0
  shared : Bool := false
  /-- Its channel has been assessed free (R252). -/
  assessed : Bool := false
  /-- Duty debited for it at commit or admission: the sub-band and the second (R420). -/
  duty : Option (Nat × Nat) := none
  deriving DecidableEq, Repr

/-- How far an emission has come (R104 to R106, R251). -/
inductive Phase where
  | planned
  | committed
  | hopping
  | locked
  | emitting
  deriving DecidableEq, Repr

/-- An emission of a chain (R249, R251). `kind` is 0 data, 1 acknowledgement, 2 beacon, 3 wake-up pattern (R141). -/
structure Emission where
  /-- A number of its own, by which its CCM* jobs know it. -/
  id : Nat := 0
  kind : Nat
  /-- TIME_NS of commit and of the nominal instant; of the first chip once emitting. -/
  commitNs : Nat
  nominalNs : Nat
  startNs : Nat := 0
  /-- Deferral allowed, µs. -/
  deferUs : Nat := 0
  /-- TX LO in kHz and the table entry; `scratch` for a frequency absent from the table. -/
  loKhz : Nat
  entry : Nat := 0
  scratch : Bool := false
  asn : Nat := 0
  /-- On a free-run channel. -/
  freeRun : Option Nat := none
  /-- The device's own counter, taken at commit (R265). -/
  counter : Nat := 0
  carriers : List Carrier
  phase : Phase := .planned
  deriving DecidableEq, Repr

/-- A running calibration of a transmit-table entry (R100, R102, R139). -/
structure EntryCal where
  entry : Nat
  requested : Bool
  deriving DecidableEq, Repr

/-- A running calibration request (R138, R139): its KIND, the entries still to do, and whether one has failed. -/
structure CalRequest where
  kind : Nat
  entries : List Nat
  failed : Bool := false
  deriving DecidableEq, Repr

/-- A front end behind its registers (R92 to R142). -/
structure FrontEnd where
  /-- Die temperature in 0.125 °C. -/
  die : Int := 0
  /-- Committed emissions, earliest first. -/
  emissions : List Emission := []
  /-- TIME_NS of the last chip of the last emission. -/
  lastChipNs : Nat := 0
  cal : Option EntryCal := none
  request : Option CalRequest := none
  /-- The INVALID entry that background calibration last attempted (R102). -/
  lastAttempt : Option Nat := none
  /-- Used entries of the table (R97). -/
  used : Nat := 0
  /-- The multiple of 10 ms at which the temperatures were last compared (R99). -/
  tempAt : Option Nat := none
  dpdFailed : Bool := false
  /-- Emission that DPD tracking has seen since it was last reset, µs (R119, R139). -/
  dpdUs : Nat := 0
  /-- 100 µs windows of the present emission that the mask monitor has evaluated (R121). -/
  maskDone : Nat := 0
  /-- Front ends whose emission blanks this receiver (R123, R125). -/
  blankedBy : List Nat := []
  /-- The pattern on the lines in a phase of CALIBRATE for which no rule names one (R128). -/
  femOpen : Nat := 0
  /-- TIME_NS from which the detectors have run without a stop (R147). -/
  detectNs : Nat := 0
  /-- Taps in use, by carrier and tap, that differ from the reset set (R120). -/
  firLive : List (Nat × Nat) := []
  deriving DecidableEq, Repr

/-- The states of a lane (R157). -/
inductive LaneStage where
  | free
  | reserved
  | acquire
  | syncSearch
  | header
  | payload
  | inject
  deriving DecidableEq, Repr

/-- The equaliser of a lane (R162): its taps, and the settings in force at the lane's allocation. -/
structure Equaliser where
  ff : List Cplx := []
  fb : List Cplx := []
  /-- Training is over: the last chip of the sync word has passed. -/
  tracking : Bool := false
  muTrain : Nat := 0
  muTrack : Nat := 0
  fbOn : Bool := false
  /-- The bandwidth of the chip-timing loop (R161). -/
  trBw : Nat := 0
  deriving DecidableEq, Repr

/-- A lane (R152 to R166). -/
structure Lane where
  stage : LaneStage := .free
  /-- The number of the allocation, and whether it claimed a reservation (R153). -/
  claim : Nat := 0
  reserved : Bool := false
  eq : Equaliser := {}
  /-- Outside the enabled set since a mode change: DRAIN (R174). -/
  drain : Bool := false
  fe : Nat := 0
  bin : Nat := 0
  mode : Nat := 0
  afc : Int := 0
  rssi : Int := 0
  lq : Nat := 0
  overlap : Bool := false
  /-- TIME_NS of the frame's first chip, of allocation, and of the sync word. -/
  timingNs : Nat := 0
  allocNs : Nat := 0
  syncNs : Nat := 0
  /-- SYNC_WAIT and MAX_AIRTIME at allocation. -/
  syncWait : Nat := 0
  maxAirtime : Nat := 0
  /-- For a reservation: the cell and the TIME_NS at which its window opens and ends. -/
  cell : Nat := 0
  windowFrom : Nat := 0
  windowTo : Nat := 0
  /-- The TIME_NS of the frame's last chip once its header is known. -/
  endNs : Nat := 0
  /-- The capture context this lane is armed on (R221, R736). -/
  context : Option Nat := none
  deriving DecidableEq, Repr

/-- Decoder settings that were in force until an instant of TIME_NS: the iteration cap and ALPHA (R174, R205, R215). -/
structure DecSetting where
  untilNs : Nat
  cap : Nat
  alpha : Nat
  deriving DecidableEq, Repr

/-- A frame at its payload decoder (R202 to R207), by lane, with its frame descriptor (R165). -/
structure DecodeJob where
  /-- The number of its lane's allocation. -/
  claim : Nat
  fe : Nat
  bin : Nat
  mode : Nat
  /-- SEQ of the PHY header (R185). -/
  seq : Nat
  cr : Nat
  z : Nat
  len : Nat
  /-- The PHR announces a two-octet FCS (R208, R209). -/
  fcs2 : Bool := false
  afc : Int
  rssi : Int
  lq : Nat
  overlap : Bool
  syncNs : Nat
  endNs : Nat
  /-- Whitened octets of the codewords decoded so far, and how many those are. -/
  octets : List Byte := []
  done : Nat := 0
  /-- Settings that changed since the header was accepted, oldest first. -/
  past : List DecSetting := []
  context : Option Nat := none
  deriving DecidableEq, Repr

/-- A reservation that found no free lane (R153). -/
structure PendingRsv where
  cell : Nat
  fe : Nat
  bin : Nat
  windowFrom : Nat
  windowTo : Nat
  deriving DecidableEq, Repr

/-- A detection that received no lane and still suppresses its detector (R151). -/
structure Missed where
  fe : Nat
  bin : Nat
  mode : Nat
  timingNs : Nat
  untilNs : Nat
  deriving DecidableEq, Repr

/-- A count per 1 ms window (R176, R235, R301, R311, R392, R402): the window, its count, and the window before. -/
structure MsWindow where
  window : Nat := 0
  count : Nat := 0
  previous : Nat := 0
  deriving DecidableEq, Repr

/-- Channelizers, detectors and lanes behind their registers (R143 to R177). -/
structure Hearing where
  subbands : List SubBand := []
  /-- Lanes that are not FREE, by number. -/
  lanes : List (Nat × Lane) := []
  pendingRsv : List PendingRsv := []
  missed : List Missed := []
  missWindow : List (Nat × MsWindow) := []
  /-- Allocations made since the last full restart. -/
  claims : Nat := 0
  /-- Mean powers of a bin in its last 16 complete windows, newest first, by 256 × front end + bin (R748). -/
  floors : List (Nat × List Int) := []
  /-- The millisecond of TIME_NS at which occupancy was last sampled (R170). -/
  sampledMs : Option Nat := none
  /-- TIME_NS at entry to STORM. -/
  stormNs : Nat := 0
  deriving DecidableEq, Repr

/-- The states of a capture context (R219). -/
inductive CtxStage where
  | free
  | armed
  | recording
  | queued
  | processing
  deriving DecidableEq, Repr

/-- A capture context (R217 to R223). -/
structure Context where
  stage : CtxStage := .free
  fe : Nat := 0
  bin : Nat := 0
  trigger : Nat := 0
  layer : Nat := 0
  recovered : Nat := 0
  /-- TIME_NS of its first sample, and of its closing. -/
  startNs : Nat := 0
  endNs : Nat := 0
  /-- Allocations of the lanes armed on it whose frames have not ended (R736). -/
  armed : List Nat := []
  /-- TIME_NS of the last chip of the last frame whose header a lane accepted (R223). -/
  lastChipNs : Option Nat := none
  /-- CLOSE_GAP in ms and LAYER_MAX when it was armed or opened. -/
  closeGap : Nat := 0
  layerMax : Nat := 0
  deriving DecidableEq, Repr

/-- A frame whose header a lane accepted (R223), on the bin of a context: TIME_NS of its first and last chips. Once it has passed
step 5 of R33, what a canceller needs of it (R226): its RSSI and sync timestamp. -/
structure Heard where
  claim : Nat
  fe : Nat
  bin : Nat
  mode : Nat
  firstNs : Nat
  endNs : Nat
  syncNs : Nat
  rssi : Int
  passed : Bool := false
  deriving DecidableEq, Repr

/-- An entry of an announcement table (R232). -/
structure RaEntry where
  short : Nat
  fcBase : Nat
  map : Nat
  /-- Ticks at its last renewal or its addition. -/
  at_ : Nat
  deriving DecidableEq, Repr

/-- How far a received frame has come on the uplink path (R33). -/
inductive UpStage where
  /-- Step 6: its lookup and record fetch. -/
  | fetch
  /-- Step 7: it waits in the key-miss queue. -/
  | keyMiss
  /-- Step 8: it waits for a CCM* engine. -/
  | waiting
  /-- Step 8: an engine works on it. -/
  | verifying
  deriving DecidableEq, Repr

/-- A received frame between steps 5 and 9 of R33. -/
structure UpFrame where
  id : Nat
  lane : Option Nat
  fe : Nat
  bin : Nat
  mode : Nat
  cr : Nat
  /-- SEQ of the PHY header (R185). -/
  seq : Nat := 0
  recovered : Bool
  rssi : Int
  lq : Nat
  syncNs : Nat
  /-- TIME_NS of its first and last chip. -/
  firstNs : Nat
  endNs : Nat
  len : Nat
  frame : MacFrame
  stage : UpStage := .fetch
  record : Nat := 0
  /-- The counter of R259 and whether it is the ASN. -/
  counter : Nat := 0
  asnCounter : Bool := false
  /-- The key that its unwrap has yielded (R299); `none` where the key cache or a group-key slot holds it. -/
  key : Option (List Byte) := none
  /-- WRAPPED_KEY as fetched at step 6 (R300). -/
  wrapped : List Byte := []
  deriving DecidableEq, Repr

/-- The Ox pool behind its registers (R202 to R237). -/
structure OxState where
  /-- Frames at their payload decoders, by lane. -/
  jobs : List (Nat × DecodeJob) := []
  /-- Contexts that are not FREE, by number. -/
  contexts : List (Nat × Context) := []
  /-- QUEUED contexts in the order in which they closed (R225). -/
  queue : List Nat := []
  missWindow : List (Nat × MsWindow) := []
  /-- Frames of the last second whose headers lanes accepted on sub-GHz bins. -/
  heard : List Heard := []
  /-- Announcement tables of FE0 to FE2, in table order (R232). -/
  ra0 : List RaEntry := []
  ra1 : List RaEntry := []
  ra2 : List RaEntry := []
  /-- The place in the table after the last entry the previous beacon carried, per front end (R233). -/
  raNext : List (Nat × Nat) := []
  deriving DecidableEq, Repr

/-- A word of a protected FIFO (R390). -/
structure FifoWord where
  data : Nat
  sop : Bool := false
  eop : Bool := false
  deriving DecidableEq, Repr

/-- A slot of the node index (R315). -/
structure Slot where
  eui : Nat := 0
  record : Nat := 0
  valid : Bool := false
  hit : Bool := false
  aged : Bool := false
  deriving DecidableEq, Repr

/-- A fetched Mule descriptor: its 8 words, or the cause with which it fails (R342). -/
inductive MuleDesc where
  | words (w : List Nat)
  | bad (cause : Nat)
  deriving DecidableEq, Repr

/-- The Mule behind its registers (R334 to R343). -/
structure MuleState where
  /-- Address of the list; descriptors fetched; the buffer of fetched descriptors, next one first; the
  index of the next one. -/
  list : Nat := 0
  fetched : Nat := 0
  buffer : List MuleDesc := []
  pos : Nat := 0
  /-- The lock group in force: its two buckets (16-bit bucket with the way in bit 16), the index of its LOCK_PAIR, and
  the tick of its execution. -/
  locks : Option (Nat × Nat) := none
  groupAt : Nat := 0
  lockTick : Nat := 0
  deriving DecidableEq, Repr

/-- Node tables and learning behind their registers (R314 to R351). -/
structure TableState where
  /-- Index slots that are not empty, by 4 × (65,536 × way + bucket) + slot. -/
  index : List (Nat × Slot) := []
  /-- Short-address entries, seen-cache words, schedule cells and trie words (R352) that are not zero. -/
  shorts : List (Nat × Nat) := []
  seen : List (Nat × Nat) := []
  cells : List (Nat × Nat) := []
  trie : List (Nat × Nat) := []
  /-- Context 0 by tenant, and contexts 1 to 15 as (prefix, length) (R367). -/
  tenantPrefix : List (Nat × Nat) := []
  contexts : List (Nat × Nat × Nat) := []
  mule : MuleState := {}
  /-- MULE_DONE and LEARN FIFO words, oldest first. -/
  muleDone : List Nat := []
  learn : List FifoWord := []
  learnWindow : MsWindow := {}
  /-- The recent-event filter, oldest first: the key with the tick of its event (R328). -/
  recent : List (Nat × Nat) := []
  /-- Ticks at the sweeper's grid origin and visits due since then that have been made (R737). -/
  sweepTick : Nat := 0
  sweepDone : Nat := 0
  /-- The slot at which a held visit goes on (R346). -/
  sweepAt : Nat := 0
  /-- Frames and packets whose lookup is parked, and those that resumed and have not gone on yet, in order of arrival (R337). -/
  parking : List Nat := []
  resumed : List Nat := []
  /-- The tick of the last lookup that hit, and the slots that were hit at it (R347). -/
  hitTick : Nat := 0
  hitSlots : List Nat := []
  deriving DecidableEq, Repr

/-- What a CCM* job is for (R293): a received frame; or the carrier on a bin of an emission of a front end, an acknowledgement or
another frame. -/
inductive JobKind where
  | verify (frame : Nat)
  | ack (fe emission bin : Nat)
  | encrypt (fe emission bin nominalNs : Nat)
  deriving DecidableEq, Repr

/-- A CCM* job, and the engine that runs it with what it copied at its start (R293): the key, the nonce (R291), the authenticated-only
octets and the others, the security level. -/
structure CcmJob where
  kind : JobKind
  engine : Option Nat := none
  key : List Byte := []
  nonce : List Byte := []
  aad : List Byte := []
  body : List Byte := []
  level : Nat := 0
  deriving DecidableEq, Repr

/-- An unwrap in progress, and whether its result may enter the key cache (R299). -/
structure Unwrap where
  record : Nat
  keep : Bool := true
  deriving DecidableEq, Repr

/-- Frame protection behind its registers (R287 to R313). -/
structure CryptoState where
  /-- The key cache: per set, the ways in use, most recently used first (R298). -/
  cache : List (Nat × List (Nat × List Byte)) := []
  /-- Keys of the group-key slots. -/
  groupKeys : List (Nat × List Byte) := []
  unwraps : List Unwrap := []
  /-- Jobs in order of arrival. -/
  jobs : List CcmJob := []
  /-- Key material of the key slots 0 to 31 (R533). -/
  slotKeys : List (Nat × List Byte) := []
  micWindow : List (Nat × MsWindow) := []
  missWindow : List (Nat × MsWindow) := []
  deriving DecidableEq, Repr

/-- An IPv6 packet on its way to the merged decision (R37, R41). `port` is its PORT code of R396; `record` its sender's
record, for a packet from the mesh; `core` marks a packet that firmware wrote (R398). -/
structure Routed where
  datagram : List Byte
  cls : Nat
  tenant : Nat := 0
  record : Option Nat := none
  port : Nat := 0
  /-- It came from the wire or the Herd link (R507). -/
  wired : Bool := false
  core : Bool := false
  /-- The sync timestamp of a packet from the mesh. -/
  time : Nat := 0
  /-- Sequence number of the PRP trailer it arrived with (R511). -/
  prpSeq : Option Nat := none
  /-- The PORT code and the timestamp, in 2^-16 ns, of an event message that was received (R463). -/
  ingress : Option (Nat × Nat) := none
  /-- The twin trailer it gains on its way to the backhaul (R376). -/
  trailer : List Byte := []
  /-- The flood header it gains from a seek (R495). -/
  flood : Option Flood := none
  /-- A protective command: source and SEQ (R648). -/
  safety : Option (Nat × Nat) := none
  deriving DecidableEq, Repr

/-- A downlink packet between steps 2 and 5 of R39. -/
structure DownPacket where
  id : Nat
  pkt : Routed
  /-- The record that the exact lookup selected; `none` while that lookup has not been made (R337). -/
  record : Option Nat
  /-- The SEEK that makes the lookup, with the port on which it came (R494). -/
  seek : Option (Nat × HerdFrame) := none
  /-- A short-form destination is confirmed at step 4 (R366). -/
  shortForm : Bool := false
  /-- It waits for its link record's key in the key-miss queue (R303), with the destination and the payload that step 4 built. -/
  keyMiss : Bool := false
  link : Nat := 0
  mac : Addr := .absent
  payload : List Byte := []
  wrapped : List Byte := []
  deriving DecidableEq, Repr

/-- Queues and mailboxes behind their registers (R379 to R403). -/
structure QueueState where
  /-- Packets by queue, head first. -/
  queues : List (Nat × List Packet) := []
  /-- LP4X cells of broken queues that the pool scan has yet to reclaim (R388). -/
  lost : List Nat := []
  dropWindow : MsWindow := {}
  fifoWindow : List (Nat × MsWindow) := []
  /-- Mailbox FIFO words: MBOX_RX_0 to 3 and MBOX_TX_0 to 3. -/
  rx : List (Nat × List FifoWord) := []
  tx : List (Nat × List FifoWord) := []
  /-- FIFOs whose last popped word was not an EOP (R394). -/
  midRead : List Nat := []
  /-- Mailboxes whose packet being written lost a word (R400). -/
  txBroken : List Nat := []
  deriving DecidableEq, Repr

/-- A shaping bucket: tokens in 1/65,536 cost unit and TIME_NS of the last update (R413, R414). -/
structure Bucket where
  tokens : Int := 0
  atNs : Nat := 0
  deriving DecidableEq, Repr

/-- A timing-wheel entry: the bucket, its due time and the time at which its slot comes due, µs, and its wheel (R415). -/
structure WheelEntry where
  bucket : Nat
  due : Nat
  slot : Nat
  fine : Bool
  deriving DecidableEq, Repr

/-- A duty shaper: its buckets by second, and the limit of the latest rise of HOLD in µs (R417, R421). -/
structure Duty where
  seconds : List (Nat × Nat) := []
  limit : Nat := 0
  deriving DecidableEq, Repr

/-- The two token buckets of a policer, in 1/65,536 octet, and TIME_NS of the last update (R423). -/
structure Meter where
  first : Nat
  second : Nat
  atNs : Nat
  deriving DecidableEq, Repr

/-- The scheduler behind its registers (R404 to R433). -/
structure SchedState where
  /-- Tenants of the TENANTS section and their SEQ (R430). -/
  tenants : Nat := 0
  tenantSeq : List (Nat × Nat) := []
  /-- Buckets by number: 3 × queue for committed, + 1 for peak; 3 × (256 × port + tenant) + 2 for tenant. -/
  buckets : List (Nat × Bucket) := []
  wheel : List WheelEntry := []
  /-- Tenant deficits by 512 × port + 256 × round + tenant, class deficits by 2 × queue + round. -/
  deficits : List (Nat × Nat) := []
  classDeficits : List (Nat × Nat) := []
  /-- Tenant and class whose turn it is, by 2 × port + round and by 512 × port + 256 × round + tenant. -/
  turns : List (Nat × Nat) := []
  classTurns : List (Nat × Nat) := []
  /-- Tenant served last in classes 0 and 1, by 2 × port + class. -/
  served : List (Nat × Nat) := []
  /-- The retry store (R411). -/
  retry : List Packet := []
  duty : List (Nat × Duty) := []
  /-- The last whole second of TIME_NS that has been noticed (R417). -/
  dutySec : Nat := 0
  /-- Policers whose buckets are not full. -/
  meters : List (Nat × Meter) := []
  deriving DecidableEq, Repr

/-- An acknowledgement window (R267). -/
structure AckWait where
  fe : Nat
  bin : Nat
  record : Nat
  fromNs : Nat
  toNs : Nat
  freeRun : Option Nat
  shared : Bool
  /-- The sequence number of the frame that was sent. -/
  seqNo : Option Nat := none
  deriving DecidableEq, Repr

/-- A free-run channel at work (R255): listening, or its emission is with the chain. -/
structure FreeRun where
  be : Nat
  busy : Nat := 0
  /-- TIME_NS at which the listen ends. -/
  untilNs : Nat
  listening : Bool := true
  load : Load
  deriving DecidableEq, Repr

/-- A wake-up request (R283, R284). -/
structure Wake where
  addr : Nat
  reps : Nat
  fr : Nat
  admitted : Bool := false
  deriving DecidableEq, Repr

/-- A flood that the device originates and that waits for a 20 ms window (R280): the queues it goes into, and 1,024 × the image
slot + the fragment when it is a Flock fragment (R644). -/
structure FloodWait where
  queues : List Nat
  pkt : Packet
  flock : Option Nat := none
  deriving DecidableEq, Repr

/-- Medium access behind its registers (R238 to R286). -/
structure MacState where
  /-- Beacons committed per front end (R742) and the slotframe at which the next hopping IE goes on (R271). -/
  ebCount : List (Nat × Nat) := []
  hopNext : Nat := 0
  ackWaits : List AckWait := []
  freeRuns : List (Nat × FreeRun) := []
  wake : Option Wake := none
  /-- Own floods that wait for a 20 ms window, and the window last used (R280). -/
  floods : List FloodWait := []
  floodWindow : Option Nat := none
  /-- TIME_NS from which the next beacon of the source is expected, and whether the last one heard failed the ASN test. -/
  tsrcNs : Nat := 0
  tsrcBad : Bool := false
  /-- Tick since which the source named by SRC has been without qualification (R449). -/
  tsrcLost : Option Nat := none
  /-- The timeslot last begun. -/
  lastAsn : Option Nat := none
  deriving DecidableEq, Repr

/-- An accepted protective command in flight (R651): its octets and the tick of acceptance. -/
structure Flight where
  source : Nat
  seq : Nat
  octets : List Byte
  tick : Nat
  deriving DecidableEq, Repr

/-- A SAFETY-class emission that the loopback watches (R654): front end, ASN, the instants of R654 in TIME_NS, and the commands
it carries. -/
structure Loopback where
  fe : Nat
  asn : Nat
  riseByNs : Nat
  stayToNs : Nat
  fallByNs : Nat
  commands : List (Nat × Nat)
  /-- How many of the three rules have been met. -/
  passed : Nat := 0
  /-- Commanded power at the pin in 0.25 dBm once it emits, and TIME_NS since which its power has been low. -/
  qdbm : Int := 0
  fellNs : Option Nat := none
  deriving DecidableEq, Repr

/-- The SAFE block behind its registers (R648 to R666). -/
structure SafeState where
  flights : List Flight := []
  /-- INPUT sources whose event no accepted command has followed yet (R651). -/
  inputs : List Nat := []
  /-- The last accepted SEQ of each source. -/
  lastSeq : List (Nat × Nat) := []
  /-- Words of the command being pushed. -/
  words : List Nat := []
  loopbacks : List Loopback := []
  /-- Ticks at which the running window of each watchdog began, and whether a kick began the Sheepdog's; the tick of a
  watchdog detection whose reset is due. -/
  wdTick : Nat := 0
  wdKicked : Bool := false
  appTick : Nat := 0
  wdReset : Option Nat := none
  /-- TIME_NS and tick of the detection; notices sent, and the tick of the last one. -/
  safeNs : Nat := 0
  safeTick : Nat := 0
  notices : Nat := 0
  noticeTick : Nat := 0
  /-- CRC-32 of the protected fields when ADMIT last completed (R653). -/
  scrubCrc : Nat := 0
  /-- Consecutive out-of-range samples of the main rails, and of the junction at 115 °C. -/
  volts : Nat := 0
  hots : Nat := 0
  /-- Ticks of the last sample of each. -/
  voltTick : Option Nat := none
  tempTick : Option Nat := none
  deriving DecidableEq, Repr

/-- A drill under way (R514): the EPOCH and ACT_ASN of its HANDOVER, whether this device sent it, whether it is agreed, and
the tick at which it was sent or accepted. -/
structure Drill where
  epoch : Nat
  actAsn : Nat
  sent : Bool
  agreed : Bool
  tick : Nat
  deriving DecidableEq, Repr

/-- The site pair behind its registers (R500 to R515). -/
structure LeaseState where
  /-- The next SEQ to send, and the last valid SEQ from the peer. -/
  seq : Nat := 0
  peerSeq : Option Nat := none
  /-- TIME_NS of the last RENEW sent and of the last one that counts as a renewal. -/
  sentNs : Nat := 0
  renewNs : Nat := 0
  /-- TIME_NS of the last valid RENEW heard, of the end of holding, and of entry to RUN. -/
  heardNs : Option Nat := none
  stoppedNs : Option Nat := none
  runNs : Nat := 0
  /-- TIME_NS of the last valid frame, and of the last STBY without SYNCING. -/
  peerNs : Option Nat := none
  stbyNs : Option Nat := none
  prefer : Bool := false
  drill : Option Drill := none
  /-- ACT_ASN of the last drill that took effect, and whether the device held the lease before it (R515). -/
  switched : Option (Nat × Bool) := none
  /-- The last whole hour at which a scheduled drill started. -/
  hour : Option Nat := none
  deriving DecidableEq, Repr

/-- The schedule admission unit behind its registers (R84 to R91): the accepted list as (OP, INDEX, VALUE), with the ASN
at which it takes effect. -/
structure SauState where
  pending : Option (Nat × List (Nat × Nat × Nat)) := none
  deriving DecidableEq, Repr

/-- A Herd port behind HERD_STATUS (R487, R491): good HELLOs in a row, ticks at the last HELLO heard and sent, the
HERD_ID the partner reported; the last DELAY exchange. -/
structure RingPort where
  good : Nat := 0
  heard : Nat := 0
  sent : Nat := 0
  seen : Nat := 0xF
  delayAt : Nat := 0
  deriving DecidableEq, Repr

/-- Wired ports behind their registers (R471 to R499). -/
structure WireState where
  /-- The PRP sequence number of the next frame pair, and the discard table: source MAC × 65,536 + sequence number, with
  the tick of its entry, oldest first (R474, R475). -/
  prpSeq : Nat := 0
  prp : List (Nat × Nat) := []
  /-- Words pushed for MGMT, LENGTH first, and whether one of them was lost (R478). -/
  mgmt : List Nat := []
  mgmtLost : Bool := false
  /-- Seek counters by bucket, and the value at which they started (R494). -/
  seek : List (Nat × Nat) := []
  seekBase : Nat := 0
  seekWindow : MsWindow := {}
  east : RingPort := {}
  west : RingPort := {}
  /-- Tick at the last TIME frame sent, and at the last one heard from the direction in use (R491). -/
  timeSent : Nat := 0
  timeHeard : Nat := 0
  /-- Members that await a full copy of the trie (R490). -/
  copies : List Nat := []
  deriving DecidableEq, Repr

/-- Running totals of a port (R702): octets, airtime in µs and packets, sent and received. -/
structure PortTotals where
  txBytes : Nat := 0
  rxBytes : Nat := 0
  txAir : Nat := 0
  rxAir : Nat := 0
  txPkts : Nat := 0
  rxPkts : Nat := 0
  deriving DecidableEq, Repr

/-- The PERF collector behind its registers (R697 to R702). -/
structure PerfState where
  /-- Totals by port of R404, and those latched with the last record. -/
  totals : List (Nat × PortTotals) := []
  base : List (Nat × PortTotals) := []
  /-- The period in force, µs; `none` while EN is clear (R698). -/
  period : Option Nat := none
  /-- The last multiple taken, or TIME_NS when EN took effect; TIME_NS at which the window in progress began. -/
  fromNs : Nat := 0
  windowNs : Nat := 0
  /-- SEQ of the next record; whether it carries FIRST and STEPPED; snapshots missed since the last one. -/
  seq : Nat := 0
  first : Bool := false
  stepped : Bool := false
  missed : Nat := 0
  deriving DecidableEq, Repr

/-- A record of the monitor log (R680), whose layout in its block no rule gives: HLOG_OFS, run time in ticks, the HEALTH_MON words,
and the samples and burn times that the fits rest on. -/
structure HealthLog where
  ofs : Nat
  run : Nat
  words : List (Nat × Nat)
  samples : List (Nat × List (Nat × Int))
  burns : List (Nat × Nat)
  deriving DecidableEq, Repr

/-- The HEALTH block behind its registers (R670 to R690). -/
structure HealthState where
  /-- Consecutive samples at or above T1, T2 and T3 (R674). -/
  hot1 : Nat := 0
  hot2 : Nat := 0
  hot3 : Nat := 0
  /-- Ticks since which T_j has stood below T1, T2 and T3 less 5 °C. -/
  cool1 : Option Nat := none
  cool2 : Option Nat := none
  cool3 : Option Nat := none
  /-- The 1 ms boundary last used for a throttle step, and the tick of the last release. -/
  boundary : Option Nat := none
  released : Option Nat := none
  /-- PG_MAINS, and the tick of its last change (R684, R685). -/
  mains : Bool := true
  mainsTick : Nat := 0
  /-- Profile of the PROFILE section (R672). -/
  profile : Nat := 0
  /-- Run time before the present run, and the tick of entry to RUN; run time at the last evaluation, in ticks (R678). -/
  runBase : Nat := 0
  runTick : Nat := 0
  evalAt : Nat := 0
  /-- Monitors whose EOL_WARN was raised and not yet re-armed, one bit each (R681). -/
  warned : Nat := 0
  /-- The samples of each monitor, run time in ticks with the value, oldest first (R678). -/
  samples : List (Nat × List (Nat × Int)) := []
  /-- The burns of generations, by MON 15 and 16 with the run time, oldest first (R678). -/
  burns : List (Nat × Nat) := []
  /-- Corrected LP4X words since the last evaluation (R678). -/
  corrected : Nat := 0
  /-- The newest valid record of the monitor log in the flash, and whether it lies in the second block (R680). -/
  log : Option HealthLog := none
  logSecond : Bool := false
  /-- Tick of the last VBAT measurement (R684). -/
  vbatTick : Option Nat := none
  /-- HLOG_OFS of the PROFILE section. -/
  logOfs : Nat := 0
  /-- OUTAGE sleep (R687), and NFC_PRES_CTRL as copied into the always-on domain (R686). -/
  sleep : Bool := false
  presence : Nat := 0
  /-- A wake has driven MAIN_PWR_EN high, and the main rails have not come up yet. -/
  waking : Bool := false
  deriving DecidableEq, Repr

/-- A read hold on a pending word (R607, R608): its number, its holder, the tick at which it was last started, and the
deferred events by source, oldest first. -/
structure Hold where
  number : Nat
  holder : Nat
  tick : Nat
  deferred : List Nat := []
  deriving DecidableEq, Repr

/-- The interrupt controller behind its registers (R597 to R617). -/
structure IcuState where
  /-- Shared sources whose filter output is 1. -/
  high : List (Nat × Bool) := []
  /-- Sources that another block raised for an instant and whose event is still to come (R650). -/
  raised : List Nat := []
  /-- Holds by pending word: 0 to 7 shared, 8 to 12 private; holds opened so far. -/
  holds : List (Nat × Hold) := []
  opened : Nat := 0
  /-- The hold that stood at an initiator's last read of a word since its own last write to it, by 8 × word + initiator. -/
  marks : List (Nat × Nat) := []
  /-- Ticks since which a target's line has been high while its core is GATED or RESET (R615). -/
  stranded : List (Nat × Nat) := []
  deriving DecidableEq, Repr

/-- A KEYS operation that runs (R542): its code, LEVEL and SLOT, whether it came through KEYS_ACCESS (R719), and the tick of
its start. -/
structure KeysOp where
  op : Nat
  level : Nat := 0
  slot : Nat := 0
  jtag : Bool := false
  tick : Nat := 0
  deriving DecidableEq, Repr

/-- The KEYS block behind its registers (R519 to R545). -/
structure KeysState where
  /-- The OTP has been sensed in this start (R555). -/
  sensed : Bool := false
  /-- The life-cycle state in force, by its code (R524, R526). -/
  lc : Nat := 0
  op : Option KeysOp := none
  /-- Words of the JTAG message buffer that are not zero (R719). -/
  jtagBuf : List (Nat × Word) := []
  /-- OWNER_GEN of slot 1's derivation (R531). -/
  attGen : Nat := 0
  /-- The key ladder has run in this start (R62). -/
  laddered : Bool := false
  /-- MEAS of R540. -/
  meas : List Byte := []
  deriving DecidableEq, Repr

/-- A write to a shadow register of the always-on domain that has not reached it (R31, R550): the register, the octets written,
and for a 32-bit write the half they fill, `true` the upper (R8). -/
inductive AonWrite where
  | reg (off : Nat) (value : Word) (half : Option Bool)
  | clear (sources : Nat)
  deriving DecidableEq, Repr

/-- A latched Goose source (R546, R554): the boot state when it latched, 0xE in OUTAGE sleep, and whether it aborted a KEYS
operation. -/
structure GooseLatch where
  src : Nat
  phase : Nat
  abort : Bool := false
  deriving DecidableEq, Repr

/-- The always-on domain (R31, R546 to R556, R687). -/
structure AonState where
  /-- Tick at which GOOSE_RTC was zero. -/
  rtcTick : Nat := 0
  /-- Writes on their way, oldest first, and the tick of the oldest. -/
  writes : List AonWrite := []
  writeTick : Nat := 0
  /-- Latched sources in the order in which they latched. -/
  latches : List GooseLatch := []
  /-- A card-presence detection in OUTAGE sleep: AMP_DEV and PHASE_DEV (R571). -/
  card : Option (Nat × Nat) := none
  /-- The code that AVS_VID drives (R706). -/
  avs : Nat := 8
  deriving DecidableEq, Repr

/-- An operation of the reader (R564). -/
inductive RdrOp where
  | transceive (cmd : Word) (buf proto till : Nat)
  | anticollision (ctrl : Word)
  | originality (ctrl : Word)
  deriving DecidableEq, Repr

/-- An emulation session (R574): its mode, the UID it answers with, how many cascade levels are selected, whether the ATS has
been sent, and the file selected. -/
structure EmuSession where
  active : Bool
  uid : List Byte
  atqa : Nat
  levels : Nat := 0
  rats : Bool := false
  app : Bool := false
  file : Option Nat := none
  deriving DecidableEq, Repr

/-- The contactless interface behind its registers (R557 to R580). -/
structure NfcState where
  op : Option RdrOp := none
  /-- Ticks at which the field was last switched off, and from which an operation may begin (R559, R560). -/
  offTick : Option Nat := none
  beginTick : Nat := 0
  /-- Baseline amplitude and phase in 1/65,536 of the measured unit, and the tick of the last ping (R570). -/
  baseAmp : Int := 0
  basePhase : Int := 0
  pingTick : Nat := 0
  emu : Option EmuSession := none
  deriving DecidableEq, Repr

/-- An operation of the FWM (R587): from firmware, or from the emulated tag; its code in NFC_FWM_CMD; its cause when it cannot run. -/
structure FwmOp where
  emu : Bool := false
  /-- Of an ACTIVE session. -/
  active : Bool := false
  op : Nat
  index : Nat := 0
  addr : Nat := 0
  cause : Nat := 0
  /-- For the emulated tag: offset, length and octets of the command, the last bit and readiness of the reply (R576). -/
  ofs : Nat := 0
  len : Nat := 0
  data : List Byte := []
  last : Bool := false
  ready : Nat := 0
  started : Bool := false
  deriving DecidableEq, Repr

/-- An erase or program of the flash (R646). -/
structure ProgOp where
  erase : Bool
  src : Nat
  ofs : Nat
  len : Nat
  deriving DecidableEq, Repr

/-- An exchange under way at a start (R627 to R631): the block and phase (0 A, 1 B, 2 C) that come next, whether it swaps
back, and whether the phase is being repeated. -/
structure Swap where
  block : Nat
  phase : Nat
  back : Bool
  again : Bool := false
  deriving DecidableEq, Repr

/-- The XSPI block and the update machinery behind their registers (R621 to R637). -/
structure UpdState where
  prog : Option ProgOp := none
  /-- The update command that runs: 1 STAGE, 2 COMMIT, 3 REVERT. -/
  cmd : Option Nat := none
  swap : Option Swap := none
  /-- CONFIG_STAGED is passed over for this start (R626). -/
  passStaged : Bool := false
  /-- Cause with which a revert under way is reported (R645). -/
  revertCause : Nat := 0
  /-- Tick at which the migration routine was entered, and the slot that it writes (R635). -/
  migTick : Nat := 0
  migSlot : Nat := 0
  /-- Level of MOTION_IN. -/
  motionIn : Bool := false
  /-- CONFIG_STAGED is being copied into CONFIG (R72, R632), and the copy belongs to a COMMIT. -/
  copying : Bool := false
  commit : Bool := false
  deriving DecidableEq, Repr

/-- The Flock behind its registers (R641 to R644): the tick at which the last round ended. The fragments still to emit in
the running round wait among the MAC's floods. -/
structure FlockState where
  endTick : Option Nat := none
  deriving DecidableEq, Repr

/-- The serial controllers and GPIO behind their registers (R726 to R729). -/
structure IoState where
  /-- Ball levels of GPIO_0 to GPIO_23, one bit each. -/
  balls : Nat := 0
  uartTx0 : List Byte := []
  uartTx1 : List Byte := []
  /-- Received octets with FRAME_ERR in bit 9 and PAR_ERR in bit 8. -/
  uartRx0 : List Nat := []
  uartRx1 : List Nat := []
  /-- Ticks at which the octet at the head of each transmit FIFO began. -/
  uartAt0 : Nat := 0
  uartAt1 : Nat := 0
  /-- READ and NBYTES of a running I2C transfer; NBYTES of a running SPI transfer. -/
  i2c0 : Option (Bool × Nat) := none
  i2c1 : Option (Bool × Nat) := none
  spi0 : Option Nat := none
  spi1 : Option Nat := none
  deriving DecidableEq, Repr

/-- The start in progress (R54 to R83). -/
structure BootState where
  /-- Straps HERD_ID[2:0]. -/
  herdId : Nat := 0
  /-- Flash offset of the image being verified, admitted or run. -/
  image : Nat := 0x1000000
  /-- The CORE_IMAGES section and SEC_VER of that image once it is verified (R66, R593, R625). -/
  cores : List Byte := []
  secVer : Nat := 0
  /-- Phases of R80 that have ended. -/
  calPhase : Nat := 0
  /-- A calibration failure removed something that the configuration uses (R83), and the front end it names. -/
  lost : Option Nat := none
  /-- ENABLE of the admitted front ends, two bits each (R133), and the front ends that a failed phase A took out (R82). -/
  enable : Nat := 0
  feOut : List Nat := []
  /-- WAIVE_FIRST of the TIME section (R441). -/
  waiveFirst : Bool := false
  /-- The device is without power (R552). -/
  off : Bool := false
  deriving DecidableEq, Repr

/-- The counters that persist across full restarts (R638), by KIND: the value, and the value whose record is being
programmed. -/
structure NvState where
  value : List (Nat × Nat) := []
  programming : List (Nat × Nat) := []
  deriving DecidableEq, Repr

/-- What a carrier sends: the chips of a Fostaic frame, each by whether I and Q are negative (R181, R185); the octets of a frame of
an IEEE 802.15.4 mode, and whether its synchronisation header and PHR stand in front (R210: not for SUN, whose standard gives them);
a carrier keyed on and off bit by bit (R211). -/
inductive OnAir where
  | chips (l : List (Bool × Bool))
  | octets (header : Bool) (l : List Byte)
  | keyed (l : List Bool)
  deriving DecidableEq, Repr

/-- What the block has put on its ports, newest last (the model's own log). -/
inductive Out where
  /-- A level driven on a named pin. -/
  | pin (p : Pin) (level : Bool)
  /-- An emission leaves a front end: which, its kind, its carriers, what each sends, and the TIME_NS of its first chip. -/
  | emission (fe kind : Nat) (carriers : List Carrier) (air : List OnAir) (startNs : Nat)
  /-- A front end emits DPD training on channels of RADIO_PLAN, at no more than the transmit cap (R81). -/
  | training (fe : Nat)
  /-- A front end's PA ramps down before the emission's last chip. -/
  | rampDown (fe : Nat)
  /-- A frame leaves a wired port (R404): 3 ETH0, 4 ETH1, 5 HERD_E, 6 HERD_W, 8 MGMT; its octets without FCS. -/
  | frame (port : Nat) (octets : List Byte)
  /-- A herd frame that the HERD block sends (R485 to R494): 0 HERD_E, 1 HERD_W. -/
  | herd (port : Nat) (f : HerdFrame)

  /-- A Clause 22 frame on MDIO (R478): read, PHY and register address, data. -/
  | mdio (rd : Bool) (phy reg data : Nat)
  /-- The MSI of the PCIe endpoint (R482). -/
  | msi

  /-- The full copy of the trie for a member (R490): the words that are not zero, and FWD_NH_0 to FWD_NH_15. -/
  | trieCopy (member : Nat) (words : List (Nat × Nat)) (hops : List Nat)

  /-- An application core, or the Sheepdog as 4, starts at this address (R596, R597). -/
  | coreStart (core entry : Nat)
  /-- A precise access fault on an application core (R657). -/
  | coreFault (core : Nat)

  /-- The reader drives its field at so many mW, or switches it off at 0 (R559 to R561). -/
  | field (mw : Nat)
  /-- The reader sends these bits (R563). -/
  | nfcSend (proto rate : Nat) (ask100 : Bool) (bits : List Bool)
  /-- The emulated tag replies: carrier cycles after the last pause, and the bits or octets of the reply (R576). -/
  | tagReply (carriers bits : Nat) (octets : List Byte)
  /-- Octets of a UART, an I2C write or an SPI transfer leave the device (R727). -/
  | uart (n : Nat) (b : Byte)
  | i2c (n addr : Nat) (read fast : Bool) (octets : List Byte)
  | spi (n mode div : Nat) (octets : List Byte)

  /-- Core 0 enters the migration routine with a0, a1 and a2 (R635). -/
  | migrate (entry a0 a1 a2 : Nat)
  /-- AVS_VID takes a code (R706). -/
  | avs (code : Nat)

  deriving DecidableEq, Repr

/-- The machine. -/
structure State where
  /-- DSP_CLK ticks of true time since cold power-on (the model's own clock). -/
  tick : Nat := 0
  /-- How many free values have been drawn (the model's own counter). -/
  freeCtr : Nat := 0
  bus : BusResult := {}
  outs : List Out := []
  /-- Register fields that differ from their reset values. -/
  fields : List (Nat × Nat) := []
  /-- Register fields as they stood when the present DSP_CLK cycle began (the model's own record, which R16 needs). -/
  cycle : List (Nat × Nat) := []
  /-- Counters that are not zero, by counter name: 48 bits of value and, above them, the OVF bit (R694). -/
  counters : List (Nat × Nat) := []
  /-- Counters as they stood when the present DSP_CLK cycle began (the model's own record, which R696 needs). -/
  cycleCounters : List (Nat × Nat) := []
  /-- The EVENT FIFO, oldest record first (R42). -/
  events : List EventRec := []
  mem : Memories := {}
  time : TimeState := {}
  fe0 : FrontEnd := {}
  fe1 : FrontEnd := {}
  fe2 : FrontEnd := {}
  hear : Hearing := {}
  ox : OxState := {}
  /-- Received frames between steps 5 and 9 of R33, in order of arrival, and the next frame number. -/
  up : List UpFrame := []
  nextFrame : Nat := 0

  tables : TableState := {}
  crypto : CryptoState := {}
  /-- Downlink packets between steps 2 and 5 of R39, and floods. -/
  down : List DownPacket := []
  q : QueueState := {}
  sched : SchedState := {}
  mac : MacState := {}

  safe : SafeState := {}
  nv : NvState := {}

  lease : LeaseState := {}
  sau : SauState := {}
  /-- Section types of the admitted image (R69). -/
  loaded : List Nat := []

  wire : WireState := {}

  perf : PerfState := {}
  health : HealthState := {}
  icu : IcuState := {}

  keys : KeysState := {}
  aon : AonState := {}
  nfc : NfcState := {}
  /-- FWM operations in order of arrival (R587). -/
  fwm : List FwmOp := []
  upd : UpdState := {}
  flock : FlockState := {}
  io : IoState := {}
  start : BootState := {}

  /-- The commands that wait, first in, first out. -/
  pending : List Instr := []
  deriving DecidableEq, Repr

/-- Reasons the machine stops. The chapters give the hardware no stop: a forbidden access is a bus error response. -/
inductive Fault where
  /-- Raised by no command: kept so that the outcome has a type. Safe. -/
  | none
  deriving DecidableEq, Repr

/-- Reasons a command gets no meaning. -/
inductive Refusal where
  /-- The command has no meaning in this model yet. Raised by no command: every one has its meaning. Safe. -/
  | notModelled (mnemonic : String)
  deriving DecidableEq, Repr

/-- What a command answers. -/
abbrev Result := Host.Outcome State Fault Refusal

/-- The machine at the instant a cold power-on has reset every domain (R49, R51, R52): AON_ONLY, RESET_CAUSE 0x1,
every register at its reset value, no memory written, no command waiting. -/
def State.reset : State := {}

end Sys2Proof.Machine
end

