-- ==== Sys2Proof/Machine/Frame.lean ====
section
/-!
DEFINITION. MAC frames as octets (R257): reading the fields of a frame of the IEEE 802.15.4 format, its security header and its
information elements, and writing those that the device sends. The places of the fields are those of that standard.
-/

namespace Sys2Proof.Machine

/-! Reading. -/

/-- MIC octets of a security level (R287). -/
def micLen (level : Nat) : Nat := ([0, 4, 8, 16, 0, 4, 8, 16] : List Nat).getD level 0

/-- Is the payload encrypted at a security level (R287)? -/
def encrypts (level : Nat) : Bool := decide (4 ≤ level)

/-- Octets of the frame with what is still to be read. -/
abbrev Rest := Option (List Byte)

/-- Take `n` octets; the number that they spell least significant octet first. -/
def takeLE (n : Nat) (l : List Byte) : Option (Nat × List Byte) :=
  if n ≤ l.length then some (leNat (l.take n), l.drop n) else none

/-- Which PAN IDs a frame holds: destination and source, from its version, addressing modes and PAN ID compression. -/
def panIds (version dst src : Nat) (comp : Bool) : Bool × Bool :=
  if version < 2 then (dst ≠ 0, src ≠ 0 && !comp)
  else match dst, src with
    | 0, 0 => (comp, false)
    | 0, _ => (false, !comp)
    | _, 0 => (!comp, false)
    | 3, 3 => (!comp, false)
    | _, _ => (true, !comp)

/-- Read an address by its mode: 0 absent, 2 short, 3 extended; 1 is reserved. -/
def takeAddr (mode : Nat) (l : List Byte) : Option (Addr × List Byte) :=
  match mode with
  | 0 => some (.absent, l)
  | 2 => (takeLE 2 l).map fun r => (.short r.1, r.2)
  | 3 => (takeLE 8 l).map fun r => (.ext r.1, r.2)
  | _ => none

/-- Read the auxiliary security header: the security control, the frame counter unless suppressed, and the key identifier. -/
def takeSec (l : List Byte) : Option (AuxSec × List Byte) :=
  (takeLE 1 l).bind fun c =>
    let mode := bits c.1 4 3
    let skip := if mode = 2 then 4 else if mode = 3 then 8 else 0
    let ctr := if bit c.1 5 then some (none, c.2) else (takeLE 4 c.2).map fun r => (some r.1, r.2)
    ctr.bind fun k =>
      if mode = 0 then some ({ level := bits c.1 2 0, keyMode := 0, counter := k.1 }, k.2)
      else (takeLE skip k.2).bind fun r => (takeLE 1 r.2).map fun i =>
        ({ level := bits c.1 2 0, keyMode := mode, keyIndex := i.1, counter := k.1 }, i.2)

/-- The octets that open every Prebry element: the company identifier and a SUBTYPE (R231, R269, R271, R275). -/
def prebry (subtype : Nat) : List Byte := [0x4A, 0x9E, 0x61] ++ leBytes 1 subtype

/-- The flood header in the content of a vendor-specific header IE (R275). -/
def floodOf (content : List Byte) : Option Flood :=
  if content.take 4 = prebry 0x10 ∧ content.length = 9 then
    some { seed := field content 4 2, seq := field content 6 2, hops := field content 8 1 % 16 }
  else none

/-- The header IEs of a frame: how many octets they take, the flood header among them, and whether payload IEs follow. They end
at a termination IE, 0x7E before payload IEs and 0x7F before the payload, or at the MIC. Unknown ones are skipped. -/
def headerIes : Nat → List Byte → Option (Nat × Option Flood × Bool)
  | 0, _ => none
  | fuel + 1, l =>
    if l.isEmpty then some (0, none, false)
    else (takeLE 2 l).bind fun d =>
      let n := bits d.1 6 0
      let id := bits d.1 14 7
      if bit d.1 15 then none
      else if id = 0x7E then some (2, none, true)
      else if id = 0x7F then some (2, none, false)
      else if d.2.length < n then none
      else (headerIes fuel (d.2.drop n)).map fun r =>
        let here := if id = 0 then floodOf (d.2.take n) else none
        (2 + n + r.1, (match here with | some f => some f | none => r.2.1), r.2.2)

/-- Read the fields of a frame's octets, without its FCS; `none` where they spell no frame. -/
def frameFields (raw : List Byte) : Option MacFrame :=
  (takeLE 2 raw).bind fun fc =>
    let version := bits fc.1 13 12
    let dstMode := bits fc.1 11 10
    let srcMode := bits fc.1 15 14
    let pans := panIds version dstMode srcMode (bit fc.1 6)
    let f : MacFrame := { version := version, ftype := bits fc.1 2 0, ackReq := bit fc.1 5, raw := raw }
    let seq := if 2 ≤ version ∧ bit fc.1 8 then some (none, fc.2) else (takeLE 1 fc.2).map fun r => (some r.1, r.2)
    seq.bind fun q =>
    (takeLE (if pans.1 then 2 else 0) q.2).bind fun p =>
    (takeAddr dstMode p.2).bind fun d =>
    (takeLE (if pans.2 then 2 else 0) d.2).bind fun p =>
    (takeAddr srcMode p.2).bind fun a =>
    let f := { f with seqNo := q.1, dst := d.1, src := a.1 }
    let sec := if bit fc.1 3 then (takeSec a.2).map fun r => (some r.1, r.2) else some (none, a.2)
    sec.bind fun x =>
      let f := { f with sec := x.1, hdrLen := raw.length - x.2.length }
      let mic := micLen ((x.1.map (·.level)).getD 0)
      if x.2.length < mic then none
      else if 2 ≤ version ∧ bit fc.1 9 then
        (headerIes (x.2.length + 1) (x.2.take (x.2.length - mic))).map fun i =>
          { f with hdrLen := f.hdrLen + i.1, flood := i.2.1, payloadIes := i.2.2 }
      else some f

/-- A frame as its octets spell it (R257). Frame types 4 to 7 have formats of their own, which the device does not read. -/
def frameOf (raw : List Byte) : MacFrame :=
  match frameFields raw with
  | some f => if f.ftype ≤ 3 then f else { bad := true, version := f.version, ftype := f.ftype, raw := raw }
  | none => { bad := true, raw := raw }

/-- The payload of a frame: what lies between its header IEs and its MIC, encrypted or not. -/
def framePayload (f : MacFrame) : List Byte :=
  (f.raw.take (f.raw.length - micLen ((f.sec.map (·.level)).getD 0))).drop f.hdrLen

/-- The MIC of a frame. -/
def frameMic (f : MacFrame) : List Byte := f.raw.drop (f.raw.length - micLen ((f.sec.map (·.level)).getD 0))

/-- A payload IE: its group identifier and its content. -/
structure PayloadIe where
  group : Nat
  content : List Byte
  deriving DecidableEq, Repr

/-- The payload IEs at the head of a payload, and what follows them; they end at the termination IE, group 0xF, or at the end. -/
def payloadIes : Nat → List Byte → List PayloadIe × List Byte
  | 0, l => ([], l)
  | fuel + 1, l =>
    match takeLE 2 l with
    | none => ([], [])
    | some d =>
      let n := bits d.1 10 0
      let g := bits d.1 14 11
      if !bit d.1 15 || decide (d.2.length < n) then ([], l)
      else if g = 0xF then ([], d.2.drop n)
      else
        let r := payloadIes fuel (d.2.drop n)
        ({ group := g, content := d.2.take n } :: r.1, r.2)

/-- The payload IEs and the payload proper of a frame whose plaintext payload is `l`. -/
def splitPayload (f : MacFrame) (l : List Byte) : List PayloadIe × List Byte :=
  if f.payloadIes then payloadIes (l.length + 1) l else ([], l)

/-- The nested IEs of an MLME IE: the short ones as (sub-ID, content); long ones, with sub-IDs 8 to 15, in the same list. -/
def nestedIes : Nat → List Byte → List (Nat × List Byte)
  | 0, _ => []
  | fuel + 1, l =>
    match takeLE 2 l with
    | none => []
    | some d =>
      let n := if bit d.1 15 then bits d.1 10 0 else bits d.1 7 0
      let id := if bit d.1 15 then bits d.1 14 11 else bits d.1 14 8
      if d.2.length < n then [] else (id, d.2.take n) :: nestedIes fuel (d.2.drop n)

/-- The ASN of a beacon: the TSCH Synchronization IE, sub-ID 0x1A (R268). -/
def beaconAsn (ies : List PayloadIe) : Option Nat :=
  ((ies.filter fun i => decide (i.group = 1)).flatMap fun i => nestedIes (i.content.length + 1) i.content).findSome? fun n =>
    if n.1 = 0x1A ∧ 5 ≤ n.2.length then some (field n.2 0 5) else none

/-- TAI_NS of a beacon: the Prebry time IE (R269). -/
def beaconTai (ies : List PayloadIe) : Option Nat :=
  ies.findSome? fun i =>
    if i.group = 2 ∧ i.content.take 4 = prebry 0x02 ∧ 15 ≤ i.content.length then some (field i.content 4 8) else none

/-! Writing. -/

/-- The addressing mode of an address, and its octets. -/
def addrMode : Addr → Nat
  | .absent => 0
  | .short _ => 2
  | .ext _ => 3
def addrOctets : Addr → List Byte
  | .absent => []
  | .short a => leBytes 2 a
  | .ext k => leBytes 8 k

/-- A header IE, and a payload IE. -/
def headerIe (element : Nat) (content : List Byte) : List Byte := leBytes 2 (at' content.length 7 0 + at' element 8 7) ++ content
def payloadIe (group : Nat) (content : List Byte) : List Byte :=
  leBytes 2 (at' content.length 11 0 + at' group 4 11 + 2 ^ 15) ++ content

/-- The short and the long nested IE of an MLME IE of its own. -/
def nestedShort (id : Nat) (content : List Byte) : List Byte :=
  payloadIe 1 (leBytes 2 (at' content.length 8 0 + at' id 7 8) ++ content)
def nestedLong (id : Nat) (content : List Byte) : List Byte :=
  payloadIe 1 (leBytes 2 (at' content.length 11 0 + at' id 4 11 + 2 ^ 15) ++ content)

/-- A flood header (R275). -/
def floodIe (f : Flood) : List Byte := headerIe 0 (prebry 0x10 ++ leBytes 2 f.seed ++ leBytes 2 f.seq ++ leBytes 1 (f.hops % 16))

/-- The termination IEs of the header: before payload IEs, and before a payload. -/
def termBeforeIes : List Byte := headerIe 0x7E []
def termBeforePayload : List Byte := headerIe 0x7F []

/-- The auxiliary security header (R265, R268, R306): where the counter is suppressed, the ASN is in the nonce. -/
def auxOctets (level : Nat) (group : Bool) (keyIndex : Nat) (counter : Option Nat) : List Byte :=
  leBytes 1 (level % 8 + (if group then 8 else 0) + (if counter.isNone then 0x60 else 0)) ++
    (match counter with | some c => leBytes 4 c | none => []) ++ (if group then leBytes 1 keyIndex else [])

/-- The octets of a frame from the frame-control field through the end of its header IEs (R294). -/
def TxFrame.header (f : TxFrame) (pan keyIndex : Nat) (counter : Option Nat) : List Byte :=
  let pans := panIds 2 (addrMode f.dst) (addrMode f.src) f.comp
  let control := f.ftype % 8 + 8 + (if f.ackReq then 0x20 else 0) + (if f.comp then 0x40 else 0) +
    (if f.seqNo.isNone then 0x100 else 0) + (if f.ies.isEmpty then 0 else 0x200) + addrMode f.dst * 0x400 + 0x2000 +
    addrMode f.src * 0x4000
  leBytes 2 control ++ (match f.seqNo with | some n => leBytes 1 n | none => []) ++
    (if pans.1 then leBytes 2 pan else []) ++ addrOctets f.dst ++ (if pans.2 then leBytes 2 pan else []) ++ addrOctets f.src ++
    auxOctets f.level f.group keyIndex counter ++ f.ies

/-- The octets of a frame's PSDU (R405): header, payload, MIC and FCS. -/
def TxFrame.psduLen (f : TxFrame) (explicit : Bool) (fcs : Nat) : Nat :=
  (f.header 0 0 (if explicit then some 0 else none)).length + f.payload.length + micLen f.level + fcs

/-! CCM* (R291, R294). -/

/-- The nonce of a frame: its sender's extended address, then its counter and level, or the ASN (R291). -/
def nonceOf (sender : Nat) (counter : Option Nat) (level asn : Nat) : List Byte :=
  beBytes 8 sender ++ (match counter with | some c => beBytes 4 c ++ beBytes 1 level | none => beBytes 5 asn)

/-- What is authenticated only, and what is encrypted too, of a frame's header and payload at a level (R294). -/
def ccmParts (level : Nat) (header payload : List Byte) : List Byte × List Byte :=
  if encrypts level then (header, payload) else (header ++ payload, [])

end Sys2Proof.Machine
end

