-- ==== Sys2Proof/Config.lean ====
section
/-!
DEFINITION. What one part fixes and the manual does not, and the free values: constants without a body, of which
nothing can be proved. A statement about the model holds for every value of them.
-/

namespace Sys2Proof.Config

/-- The grade fuse of SYS_PART_ID (R4): true for PBE960-XC, false for PBE960-IC. -/
opaque gradeXC : Bool

/-- The `n`-th value that the manual leaves open (a random draw, an unstated number). -/
opaque freeValue : Nat → Nat

/-- The part's fused AVS code, 0 to 15 (R706). -/
opaque avsCode : Nat

/-- The contents of the boot ROM (R22), which the manual does not list. -/
opaque bootRomByte : Nat → Byte

/-- The SUN O-QPSK frame duration in µs of the standard that R209 and R210 name, by RateMode and PSDU octets; the RateMode in
which the device sends, and the standard's start-of-frame delimiter (R163). -/
opaque sunAirtimeUs : Nat → Nat → Nat
opaque sunRate : Nat
opaque sunSfd : Nat

/-- Does the payload decoder round the scaled message of a product ALPHA × magnitude up (R204)? No rule tells. -/
opaque scaleRoundsUp : Nat → Bool

/-- Are the predicted days of a fit rounded up (R679)? And what the fits yield where no rule gives exact arithmetic: the
coefficient of determination of samples that do not vary and of the burns, and, for the fits in logarithms of MON 0 to 11 and 18
over samples of run time and value, the predicted days (none: no approach) and that coefficient. -/
opaque eolRoundsUp : Rat → Bool
opaque flatR2 : List (Nat × Int) → Rat
opaque burnR2 : List Nat → Rat
opaque logFit : Nat → List (Nat × Int) → Nat → Option Rat × Rat

/-- The SUN O-QPSK symbol time of that standard, in 1/256 µs. -/
opaque sunSymbol256 : Nat

/-- Which of the named counters stands at counter number `n` (R692, R693): the names lie in the boot ROM. -/
opaque counterName : Nat → Option Nat

/-- The mode and code rate of broadcast frames by front end, and a number that picks their security level among those emitted, which
no rule states. -/
opaque broadcastMode : Nat → Nat
opaque broadcastCR : Nat → Nat
opaque broadcastPick : Nat → Nat

/-- SEQ of frames that no node's tenant gives one, beacons and broadcast frames, by front end (R186). -/
opaque broadcastSeq : Nat → Nat

/-- The form of the MAC header of data frames, which no rule states: short destination and source addresses where there are some, a
sequence number, PAN ID Compression. -/
structure HeaderForm where
  dstShort : Bool := false
  srcShort : Bool := false
  seqNo : Bool := false
  comp : Bool := false
  deriving Inhabited
opaque dataForm : HeaderForm

/-- What a configuration requires of the OTP (R76, code 0x0212): generations of the owner and of the settings, and the section
and item that would name them. No rule tells which configurations require any. -/
structure RequiredGens where
  owner : Nat := 0
  settings : Nat := 0
  sect : Nat := 0
  item : Nat := 0
  deriving Inhabited
opaque requiredGens : List (Nat × List Byte) → RequiredGens

/-- The longest frame airtime in µs that the modes of a front end's cells permit, and the airtime of their longest
acknowledgement: quantities that the SLOT_TURNAROUND check names and no rule computes. -/
opaque longestFrameUs : Nat → Nat
opaque longestAckUs : Nat → Nat

end Sys2Proof.Config
end

