-- ==== Sys2Proof/Machine/Ops.lean ====
section
/-!
DEFINITION. The named operations every command is written with: register fields, free values, events and counters,
memory, and the passing of time.
-/

namespace Sys2Proof.Machine

/-! Register fields. -/

/-- The value of a register field. -/
def State.get (s : State) (f : Fld) : Nat := Cells.get s.fields f.key f.rst % 2 ^ f.width

/-- Whether a one-bit field is set. -/
def State.flag (s : State) (f : Fld) : Bool := decide (s.get f ≠ 0)

/-- Write a register field; bits beyond its width are dropped. -/
def State.set (s : State) (f : Fld) (v : Nat) : State :=
  { s with fields := Cells.set s.fields f.key (v % 2 ^ f.width) f.rst }

/-- The value that a register field had when the present cycle began (R16). -/
def State.before (s : State) (f : Fld) : Nat := Cells.get s.cycle f.key f.rst % 2 ^ f.width

/-- Write a one-bit field. -/
def State.setFlag (s : State) (f : Fld) (b : Bool) : State := s.set f (b2n b)

/-- Add to a counting field, saturating at its width. -/
def State.bump (s : State) (f : Fld) (n : Nat := 1) : State :=
  s.set f (min (s.get f + n) (2 ^ f.width - 1))

/-- Set bit `n` of a field. -/
def State.setBit (s : State) (f : Fld) (n : Nat) : State := s.set f (s.get f ||| 2 ^ n)

/-- Clear bit `n` of a field. -/
def State.clearBit (s : State) (f : Fld) (n : Nat) : State :=
  s.set f (s.get f - b2n (bit (s.get f) n) * 2 ^ n)

/-- Apply an operation when a condition holds. -/
def State.onlyIf (s : State) (c : Bool) (k : State → State) : State := if c then k s else s

/-! Free values. -/

/-- The next free value: nothing constrains it. -/
def State.free (s : State) : Nat := Config.freeValue s.freeCtr

/-- Move on to the next free value. -/
def State.drawn (s : State) : State := { s with freeCtr := s.freeCtr + 1 }

/-- Octets that no rule fixes, out of one free value. -/
def octetsOf (v n : Nat) : List Byte := (List.range n).map fun i => BitVec.ofNat 8 (v / 256 ^ i)

/-! Counters and events. -/

/-- Add to a named counter: 48 bits that wrap and set OVF (R694). -/
def State.count (s : State) (c : Nat) (n : Nat := 1) : State :=
  let old := Cells.get s.counters c 0
  let v := old % 2 ^ 48 + n
  let ovf := old / 2 ^ 48 ≠ 0 || 2 ^ 48 ≤ v
  { s with counters := Cells.set s.counters c (v % 2 ^ 48 + b2n ovf * 2 ^ 48) 0 }

/-- Is an event code enabled in SYS_EVENT_EN (R44)? -/
def State.eventEnabled (s : State) (code : Nat) : Bool :=
  bit (s.get (Reg.SYS_EVENT_EN.EN (code / 64))) (code % 64)

/-- A record arrives at the EVENT FIFO (R42): a full FIFO discards it. -/
def State.recordEvent (s : State) (r : EventRec) : State :=
  if s.events.length < 4096 then { s with events := s.events ++ [r] }
  else (s.setFlag Reg.SYS_EVENT_STATUS.OVF true).bump Reg.SYS_EVENT_LOST.LOST

/-- An event occurs (R44): it is counted, and recorded when its code is enabled. -/
def State.event (s : State) (code source arg : Nat) : State :=
  let s := s.count code
  s.onlyIf (s.eventEnabled code) fun s =>
    s.recordEvent { code := code, source := source, arg := arg % 2 ^ 48, time := s.time.ns }

/-! Running totals of the ports (R702). -/

/-- Octets, airtime and one packet sent on a port. -/
def State.portTx (s : State) (port bytes air : Nat) : State :=
  let t := Cells.get s.perf.totals port {}
  let t' := { t with txBytes := t.txBytes + bytes, txAir := t.txAir + air, txPkts := t.txPkts + 1 }
  { s with perf := { s.perf with totals := Cells.set s.perf.totals port t' {} } }

/-- Octets, airtime and one packet received on a port. -/
def State.portRx (s : State) (port bytes air : Nat) : State :=
  let t := Cells.get s.perf.totals port {}
  let t' := { t with rxBytes := t.rxBytes + bytes, rxAir := t.rxAir + air, rxPkts := t.rxPkts + 1 }
  { s with perf := { s.perf with totals := Cells.set s.perf.totals port t' {} } }

/-- The octets of a wired frame under R406: `len` counts the frame without its FCS. -/
def wireOctets (len : Nat) : Nat := max 64 (len + 4) + 20

/-- The octets of a herd frame (R484). -/
def herdOctetsOf (f : HerdFrame) : Nat := 20 + f.payload.length

/-- Put something on a port; frames of the wired ports count in their totals. -/
def State.emit (s : State) (o : Out) : State :=
  let s := match o with
    | .frame port octets => if port < 5 then s.portTx port (wireOctets octets.length) 0 else s
    | .herd port f => s.portTx (5 + port) (herdOctetsOf f) 0
    | _ => s
  { s with outs := s.outs ++ [o] }

/-- Raise a shared interrupt source for an instant (R650): its event follows. -/
def State.raise (s : State) (n : Nat) : State := { s with icu := { s.icu with raised := s.icu.raised ++ [n] } }

/-- Answer a bus access. -/
def State.answer (s : State) (data : Nat) : State := { s with bus := { data := data, err := false } }

/-- Answer a bus access with a bus error (R7, R9, R22). -/
def State.busError (s : State) : State := { s with bus := { data := 0, err := true } }

/-! Memory. -/

/-- The usable octets of LP4X: seven eighths of the installed capacity (R23). -/
def State.lp4xSize (s : State) : Nat := s.get Reg.DDRC_STATUS.SIZE_GIB * 2 ^ 30 / 8 * 7

/-- The base of LP4X in the address map (R22). -/
def lp4xBase : Nat := 0x10_0000_0000

/-- Do `n` octets from physical address `a` lie in the usable LP4X window? -/
def State.inLp4x (s : State) (a n : Nat) : Bool :=
  decide (lp4xBase ≤ a ∧ a + n ≤ lp4xBase + s.lp4xSize)

/-- `n` octets of a byte memory from `a`. -/
def readBytes (m : List Host.Cell) (d : Byte) (a : Nat) : Nat → List Byte
  | 0 => []
  | n + 1 => Cells.get m a d :: readBytes m d (a + 1) n

/-- Write octets into a byte memory from `a`. -/
def writeBytes (m : List Host.Cell) (d : Byte) (a : Nat) : List Byte → List Host.Cell
  | [] => m
  | b :: bs => writeBytes (Cells.set m a b d) d (a + 1) bs

/-- `n` octets of LP4X from physical address `a`. -/
def State.ddr (s : State) (a n : Nat) : List Byte := readBytes s.mem.lp4x 0 a n

/-- `n` octets of LP4X as a little-endian number. -/
def State.ddrLE (s : State) (a n : Nat) : Nat := leNat (s.ddr a n)

/-- Write octets into LP4X at physical address `a`. -/
def State.ddrWrite (s : State) (a : Nat) (bs : List Byte) : State :=
  { s with mem := { s.mem with lp4x := writeBytes s.mem.lp4x 0 a bs } }

/-- Put octets in place of what a stretch of LP4X holds from physical address `a`. -/
def State.ddrReplace (s : State) (a : Nat) (bs : List Byte) : State :=
  { s with mem := { s.mem with lp4x := Cells.replace s.mem.lp4x a bs 0 } }

/-- Write octets into the Sheepdog's TCM at offset `a`. -/
def State.tcmWrite (s : State) (a : Nat) (bs : List Byte) : State :=
  { s with mem := { s.mem with tcm := writeBytes s.mem.tcm 0 a bs } }

/-- An uncorrectable word of LP4X was read at physical address `a` (R657, R726). -/
def State.ddrUncorr (s : State) (a : Nat) : State :=
  ((s.setFlag Reg.DDRC_ECC.UNCORR true).set Reg.DDRC_ECC.ADDR (a / 64)).setFlag Reg.SAFE_MON_STATUS.ECC_REPORT true

/-- Corrected words of LP4X were read (R678, R726). -/
def State.ddrCorrected (s : State) (n : Nat) : State :=
  let s := s.set Reg.DDRC_ECC.CORR (min 65535 (s.get Reg.DDRC_ECC.CORR + n))
  { s with health := { s.health with corrected := s.health.corrected + n } }

/-- `n` octets of the flash from offset `a`. -/
def State.flash (s : State) (a n : Nat) : List Byte := readBytes s.mem.flash 0xff a n

/-- Write octets into the flash at offset `a`. -/
def State.flashWrite (s : State) (a : Nat) (bs : List Byte) : State :=
  { s with mem := { s.mem with flash := writeBytes s.mem.flash 0xff a bs } }

/-- One more erase of the 64 KiB blocks from offset `a` on. -/
def wornBlocks (l : List (Nat × Nat)) (a n : Nat) : List (Nat × Nat) :=
  (List.range ((n + 65535) / 65536)).foldl (fun l k => Cells.set l (a / 65536 + k) (Cells.get l (a / 65536 + k) 0 + 1) 0) l

/-- Erase `n` octets of the flash from offset `a`. -/
def State.flashErase (s : State) (a n : Nat) : State :=
  { s with mem := { s.mem with
    flash := s.mem.flash.filter fun c => decide (c.1 < a ∨ a + n ≤ c.1),
    erases := wornBlocks s.mem.erases a n } }

/-- OTP word `w` as burned. -/
def State.otp (s : State) (w : Nat) : Nat := (Cells.get s.mem.otp w 0).toNat

/-- Burn bits into OTP word `w`: bits only ever set (R519). -/
def State.otpBurn (s : State) (w v : Nat) : State :=
  { s with mem := { s.mem with
    otp := Cells.set s.mem.otp w (Cells.get s.mem.otp w 0 ||| BitVec.ofNat 64 v) 0 } }

/-- `n` octets of the FWM from octet `a`. -/
def State.fwmRead (s : State) (a n : Nat) : List Byte := readBytes s.mem.fwm 0xff a n

/-- Write octets into the FWM at octet `a`. -/
def State.fwmWrite (s : State) (a : Nat) (bs : List Byte) : State :=
  { s with mem := { s.mem with fwm := writeBytes s.mem.fwm 0xff a bs } }

/-- The canonical form of every memory: addresses rise, and no entry equals what an unlisted address reads as. -/
def Memory.wf (m : Memories) : Bool :=
  Cells.wf m.lp4x 0 && Cells.wf m.tcm 0 && Cells.wf m.flash 0xff && Cells.wf m.otp 0 && Cells.wf m.fwm 0xff

/-! Time. -/

/-- DSP_CLK ticks in one second (R27). -/
def ticksPerSecond : Nat := 614400000

/-- Has at least `ns` nanoseconds of true time passed since tick `t`? One tick is 625/384 ns (R435). -/
def State.elapsedNs (s : State) (t ns : Nat) : Bool := decide (ns * 384 ≤ (s.tick - t) * 625)

/-- Has at least `us` microseconds passed since tick `t`? -/
def State.elapsedUs (s : State) (t us : Nat) : Bool := s.elapsedNs t (us * 1000)

/-- Has at least `ms` milliseconds passed since tick `t`? -/
def State.elapsedMs (s : State) (t ms : Nat) : Bool := s.elapsedNs t (ms * 1000000)

/-- Has at least `sec` seconds passed since tick `t`? -/
def State.elapsedSec (s : State) (t sec : Nat) : Bool := s.elapsedNs t (sec * 1000000000)

/-- The nominal increment NOM (R435) and the rate limit (R436). -/
def incNom : Nat := 0x1A0AAAAAB
def incLimit : Nat := 1398101

/-- How far a slew moves in `n` ticks at increment `inc` (R443): towards zero, at the difference between the limit
increment and `inc`, ending at exactly zero. -/
def slewStep (slew : Int) (inc n : Nat) : Int :=
  if 0 < slew then min slew (((incNom + incLimit - inc) * n : Nat) : Int)
  else -(min (-slew) (((inc - (incNom - incLimit)) * n : Nat) : Int))

/-- TIME_NS after `n` ticks at increment `inc` (R434, R443). -/
def TimeState.run (t : TimeState) (inc n : Nat) : TimeState :=
  if t.running then
    let moved := slewStep t.slew inc n
    let total : Int := ((t.ns * 2 ^ 32 + t.frac + inc * n : Nat) : Int) + moved
    let u := total.toNat
    { t with ns := (u / 2 ^ 32) % 2 ^ 64, frac := u % 2 ^ 32, slew := t.slew - moved }
  else t

/-- Time passes: `dt` ticks of DSP_CLK. A command at `dt` 0 falls in the same cycle as the one before it (R16). -/
def State.advance (s : State) (dt : Nat) : State :=
  { s with tick := s.tick + dt, time := s.time.run (s.get Reg.TIME_INC.INC) dt,
           cycle := if dt = 0 then s.cycle else s.fields,
           cycleCounters := if dt = 0 then s.cycleCounters else s.counters }

/-- A command of the block: time passes, then its effect happens. The queue and the passing of true time are no effect of
a command. -/
def step' (dt : Nat) (s : State) (k : State → State) : Result :=
  .next { k (s.advance dt) with tick := s.tick + dt, pending := s.pending }

/-- A command with a precondition of the state: without it, only time passes. -/
def whenever (dt : Nat) (s : State) (c : State → Bool) (k : State → State) : Result :=
  step' dt s fun s => s.onlyIf (c s) k

/-! Block numbers (R26) and event codes (R47). -/

namespace Block
def SYS : Nat := 0
def ICU : Nat := 1
def KEYS : Nat := 2
def CRYPTO : Nat := 3
def GOOSE : Nat := 4
def FE (n : Nat) : Nat := 5 + n
def CHAN : Nat := 8
def OX : Nat := 9
def MAC : Nat := 10
def FWD : Nat := 11
def SCHED : Nat := 12
def QMGR : Nat := 13
def TIME : Nat := 14
def ETH : Nat := 15
def HERD : Nat := 16
def NFC : Nat := 17
def LAMB : Nat := 18
def PERF : Nat := 19
def HEALTH : Nat := 20
def SAFE : Nat := 21
def XSPI : Nat := 22
def DDRC : Nat := 23
def PCIE : Nat := 24
def IO : Nat := 25
end Block

namespace Ev
def CONFIG_REFUSED : Nat := 0x01
def SCHED_REFUSED : Nat := 0x02
def UPDATE_REFUSED : Nat := 0x03
def TX_LATE : Nat := 0x10
def RX_BLANKED : Nat := 0x11
def MASK_VIOLATION : Nat := 0x12
def CAL_FAIL : Nat := 0x13
def LANE_MISS : Nat := 0x18
def STORM_ENTER : Nat := 0x19
def STORM_EXIT : Nat := 0x1A
def CAPTURE_MISS : Nat := 0x20
def DUP_REACK : Nat := 0x28
def REPLAY : Nat := 0x29
def ACK_LATE : Nat := 0x2A
def TIME_SRC_LOST : Nat := 0x2B
def MIC_FAIL : Nat := 0x30
def KEY_MISS_FULL : Nat := 0x31
def LEARN_OVERFLOW : Nat := 0x38
def MULE_LOCK_BROKEN : Nat := 0x39
def AGED_OUT : Nat := 0x3A
def SEEK_DROP : Nat := 0x3B
def HERD_RING_BREAK : Nat := 0x3C
def QUEUE_DROP : Nat := 0x40
def FIFO_UNCORR : Nat := 0x41
def DUTY_HOLD : Nat := 0x48
def STEP_REFUSED : Nat := 0x50
def PPS_LOST : Nat := 0x51
def LEASE_TAKEN : Nat := 0x58
def LEASE_LOST : Nat := 0x59
def STRANDED : Nat := 0x60
def TAMPER : Nat := 0x68
def SAFE_ENTERED : Nat := 0x70
def THROTTLE : Nat := 0x78
def EOL_WARN : Nat := 0x79
def CARD_PRESENT : Nat := 0x80
end Ev

/-! Counters that are no event, named as the owning chapters name them (R692, R693). -/

namespace Ctr
def PPS_IGNORED : Nat := 256
def DIV_SUPPRESS : Nat := 257
def RSV_MISS : Nat := 258
def SYNC_MISS : Nat := 259
def HDR_FAIL : Nat := 260
def DEC_FAIL : Nat := 261
def FCS_FAIL : Nat := 262
def ARM_SKIP : Nat := 263
def NOT_CAPTURABLE : Nat := 264
def LAYER_FAIL : Nat := 265
def CAP_ABORT : Nat := 266
def RA_EVICT : Nat := 267
def BG_CAL_FAIL : Nat := 268
def DUP_KEY : Nat := 269
def SRC_MISS : Nat := 270
def FRAME_UNSUPPORTED : Nat := 271
def UNSECURED_DROP : Nat := 272
def GROUP_MISUSE : Nat := 273
def FLOOD_OLD : Nat := 274
def FLOOD_DUP : Nat := 275
def FLOOD_ECHO : Nat := 276
def ASN_MISMATCH : Nat := 277
def CELL_SKIP : Nat := 278
def TX_DISPLACED : Nat := 279
def ACK_BUSY : Nat := 280
def ACK_DUTY : Nat := 281
def EB_DUTY : Nat := 282
def EB_SKIP : Nat := 283
def TX_FAIL : Nat := 284
def LBT_FAIL : Nat := 285
def RETRY_FULL : Nat := 286
def POLICE_DROP : Nat := 287
def NODE_MISS : Nat := 288
def ROUTE_MISS : Nat := 289
def TENANT_MISMATCH : Nat := 290
def NO_ROUTE : Nat := 291
def HOP_LIMIT : Nat := 292
def SPOOF : Nat := 293
def DECOMP_FAIL : Nat := 294
def DECOMP_TO_CORE : Nat := 295
def FRAG_TO_CORE : Nat := 296
def ACK_STANDBY : Nat := 297
def SELF_ROUTE : Nat := 298
def ETH_FILTER : Nat := 299
def ETH_DROP : Nat := 300
def HW_FIFO_DROP : Nat := 301
def FC_EXHAUSTED : Nat := 302
end Ctr

end Sys2Proof.Machine
end

