-- ==== Sys2Proof/Machine/Ring.lean ====
section
/-!
DEFINITION. Sending on the Herd link (R484 to R486): which port reaches a member, and the frames the HERD block
sends.
-/

namespace Sys2Proof.Machine

/-- The device's HERD_ID and the size of its herd. -/
def State.herdId (s : State) : Nat := s.get Reg.HERD_STATUS.HERD_ID
def State.members (s : State) : Nat := s.get Reg.HERD_STATUS.MEMBERS

/-- Is the device the herd master (R488)? -/
def State.isMaster (s : State) : Bool := decide (s.herdId = 0)

/-- Is a Herd port up: 0 HERD_E, 1 HERD_W? -/
def ringUp (s : State) (port : Nat) : Bool :=
  if port = 0 then s.flag Reg.HERD_STATUS.E_UP else s.flag Reg.HERD_STATUS.W_UP

/-- Hops eastward from this member to member `d` (R486). -/
def hopsEast (s : State) (d : Nat) : Nat := (d + s.members - s.herdId) % max 1 s.members

/-- The port that reaches member `d`, if one does (R486). -/
def ringPort (s : State) (d : Nat) : Option Nat :=
  let first := if hopsEast s d ≤ s.members / 2 then 0 else 1
  if ringUp s first then some first else if ringUp s (1 - first) then some (1 - first) else none

/-- Send a herd frame to one member (R486). -/
def herdSend (s : State) (f : HerdFrame) : State :=
  match ringPort s f.dst with
  | some p => s.emit (.herd p f)
  | none => s

/-- Send a herd frame to every member on both ports, each direction with its own HOPS (R486). -/
def herdFlood (s : State) (f : HerdFrame) : State :=
  let east := ceilDiv (s.members - 1) 2
  let west := s.members - 1 - east
  let s := s.onlyIf (ringUp s 0 && decide (0 < east)) fun s => s.emit (.herd 0 { f with dst := 0xF, hops := east - 1 })
  s.onlyIf (ringUp s 1 && decide (0 < west)) fun s => s.emit (.herd 1 { f with dst := 0xF, hops := west - 1 })

end Sys2Proof.Machine
end

