-- ==== Sys2Proof/Machine/SafeCore.lean ====
section
/-!
DEFINITION. Entering the safe state (R653, R659 to R662), the REPORT bits, the words of protected FIFOs (R392, R393)
and the boot states these depend on.
-/

namespace Sys2Proof.Machine

/-! The boot states (R54). -/

namespace Boot
def AON_ONLY : Nat := 1
def BOOT_ROM : Nat := 2
def LIFE_CYCLE_READ : Nat := 3
def IMAGE_VERIFY : Nat := 4
def UPDATE_COPY : Nat := 5
def MIGRATE : Nat := 6
def ADMIT : Nat := 7
def CALIBRATE : Nat := 8
def RUN : Nat := 9
def CONFIG_REFUSED : Nat := 10
def TAMPER_HOLD : Nat := 11
def SAFE : Nat := 12
end Boot

/-- The boot state. -/
def State.boot (s : State) : Nat := s.get Reg.SYS_BOOT_STATUS.STATE

/-- Is the device in RUN? -/
def State.inRun (s : State) : Bool := decide (s.boot = Boot.RUN)

/-- Has ADMIT completed, in a start that has not ended in an exit state (R58, R79)? -/
def State.admitted (s : State) : Bool := decide (s.boot = Boot.CALIBRATE ∨ s.boot = Boot.RUN)

/-! Front ends. -/

/-- Front end `n`. -/
def State.fe (s : State) (n : Nat) : FrontEnd := if n = 0 then s.fe0 else if n = 1 then s.fe1 else s.fe2

/-- Put front end `n`. -/
def State.setFe (s : State) (n : Nat) (f : FrontEnd) : State :=
  if n = 0 then { s with fe0 := f } else if n = 1 then { s with fe1 := f } else { s with fe2 := f }

/-- Does a carrier carry a class 0 packet? -/
def Carrier.safety (c : Carrier) : Bool :=
  match c.load with
  | .data p _ _ => decide (p.cls = 0)
  | _ => false

/-- The emission that is leaving a front end, if one is. -/
def emitting (s : State) (fe : Nat) : Option Emission :=
  (s.fe fe).emissions.find? fun e => decide (e.phase = .emitting)

/-- The chain of a front end has stopped emitting: the last chip was now (R123). -/
def chainOff (s : State) (fe : Nat) : State :=
  let f := s.fe fe
  let s := s.setFe fe { f with emissions := f.emissions.filter (fun e => decide (e.phase ≠ .emitting))
                               lastChipNs := s.time.ns }
  (s.setFlag (Reg.FE_STATUS.TX_ON fe) false).set (Reg.FE_STATUS.CARRIERS fe) 0

/-- Ramp down a SAFETY-class emission in progress (R659 step 2). -/
def rampSafety (s : State) (fe : Nat) : State :=
  match emitting s fe with
  | none => s
  | some e => s.onlyIf (e.carriers.any Carrier.safety) fun s => (chainOff s fe).emit (.rampDown fe)

/-- Put SAFE_N. -/
def safePin (s : State) (level : Bool) : State := s.emit (.pin .safeN level)

/-- SAFE_ENTERED with its argument (R662). -/
def safeEvent (s : State) (mech source detail : Nat) : State :=
  s.event Ev.SAFE_ENTERED Block.SAFE (at' mech 8 40 + at' s.boot 4 36 + at' source 4 32 + at' detail 32 0)

/-- A detection in the cycle in which the safe state was entered: the lowest MECH is the one named (R661). -/
def safeRename (s : State) (mech source detail : Nat) : State :=
  if s.inRun && decide (s.safe.safeTick = s.tick ∧ mech < s.get Reg.SAFE_STATUS.MECH) then
    let arg := at' mech 8 40 + at' s.boot 4 36 + at' source 4 32 + at' detail 32 0
    let s := (s.set Reg.SAFE_STATUS.MECH mech).set Reg.SAFE_STATUS.DETAIL detail
    { s with events := s.events.map fun r => if r.code = Ev.SAFE_ENTERED then { r with arg := arg } else r }
  else s

/-- A mechanism detects a fault (R653): in RUN the steps of R659; during a start, boot state SAFE (R59, R661). A detection
made in the safe state sets its MON bit only. -/
def enterSafe (s : State) (mech source detail : Nat) : State :=
  let s := s.set Reg.SAFE_MON_STATUS.MON (s.get Reg.SAFE_MON_STATUS.MON ||| 2 ^ (mech - 1))
  if s.flag Reg.SAFE_STATUS.SAFE || decide (s.boot = Boot.SAFE) then safeRename s mech source detail
  else
    let s := safeEvent s mech source detail
    let s := safePin s false
    let s := ((s.setFlag Reg.SAFE_STATUS.SAFE true).set Reg.SAFE_STATUS.MECH mech).set Reg.SAFE_STATUS.DETAIL detail
    if s.inRun then
      let s := rampSafety (rampSafety (rampSafety s 0) 1) 2
      { s with safe := { s.safe with flights := [], inputs := [], loopbacks := [], safeNs := s.time.ns, safeTick := s.tick, notices := 0 } }
    else s.set Reg.SYS_BOOT_STATUS.STATE Boot.SAFE

/-- Commands in flight (R651): accepted ones, and the events of INPUT sources that none has followed yet. -/
def inFlight (s : State) : Nat := s.safe.flights.length + s.safe.inputs.length

/-- Is the device in the safe state? -/
def State.safeNow (s : State) : Bool := s.flag Reg.SAFE_STATUS.SAFE

/-! Windows of 1 ms. -/

/-- The 1 ms window of TIME_NS. -/
def State.msNow (s : State) : Nat := s.time.ns / 1000000

/-- One more occurrence in the present window; also whether it is the window's first. -/
def MsWindow.add (w : MsWindow) (now : Nat) : MsWindow × Bool :=
  if w.window = now ∧ w.count ≠ 0 then ({ w with count := w.count + 1 }, false)
  else ({ window := now, count := 1, previous := if w.window + 1 = now then w.count else 0 }, true)

/-! Protected FIFOs (R390 to R395). -/

namespace Fifo
def EVENT : Nat := 0
def LEARN : Nat := 1
def MULE_DONE : Nat := 2
def RX_DELIVER : Nat := 3
def TX_REQ : Nat := 4
def MBOX_RX (n : Nat) : Nat := 5 + n
def MBOX_TX (n : Nat) : Nat := 9 + n
def XING : Nat := 0xFF
end Fifo

/-- Run time in RUN, in ticks (R678). -/
def runTime (s : State) : Nat := s.health.runBase + if s.inRun then s.tick - s.health.runTick else 0

/-- Is this cycle a 1 ms boundary of TIME_NS? -/
def msBoundary (s : State) : Bool := decide (s.time.ns % 1000000 < 2)

/-- FIFO_UNCORR, at most once per FIFO in each 1 ms window (R402). -/
def fifoUncorr (s : State) (fifo block : Nat) (hw : Bool) : State :=
  let r := (Cells.get s.q.fifoWindow fifo {}).add s.msNow
  let s := { s with q := { s.q with fifoWindow := Cells.set s.q.fifoWindow fifo r.1 {} } }
  if r.2 then s.event Ev.FIFO_UNCORR (if fifo = Fifo.XING then block else Block.QMGR) (at' fifo 8 40 + at' block 8 32 + at' (b2n hw) 1 31)
  else s.count Ev.FIFO_UNCORR

/-- A word of a protected FIFO is read with these check bits (R392, R395). `safety`: the word is on the protective-command
path, so that the FIFO mechanism of R653 detects it. -/
def fifoRead (s : State) (fifo block : Nat) (hw safety : Bool) (e : Ecc) : State :=
  match e with
  | .ok => s
  | .corrected =>
    if fifo = Fifo.XING then s.bump Reg.QMGR_XING_PROT.CORR_CNT else s.bump (Reg.QMGR_FIFO_PROT.CORR_CNT fifo)
  | .uncorrectable =>
    let s := if fifo = Fifo.XING then s.setFlag Reg.QMGR_XING_PROT.UNCORR true
      else s.setFlag (Reg.QMGR_FIFO_PROT.UNCORR fifo) true
    let s := fifoUncorr s fifo block hw
    let s := s.onlyIf hw fun s => s.count Ctr.HW_FIFO_DROP
    if safety then enterSafe s 0x0B 0 fifo else s.setFlag Reg.SAFE_MON_STATUS.FIFO_REPORT true

/-- A packet crosses a dual-clock queue to a block (R29, R395): after an uncorrectable word the block discards it (R393). -/
def crossed (s : State) (block : Nat) (e : Ecc) (k : State → State) : State :=
  let s := fifoRead s Fifo.XING block true false e
  if e = .uncorrectable then s else k s

end Sys2Proof.Machine
end

