-- ==== Sys2Proof/Machine/Tables.lean ====
section
/-!
DEFINITION. The node index, the short-address table, node records and learn events (R314 to R332): the operations that
lookups, the Mule and the sweeper share.
-/

namespace Sys2Proof.Machine

/-- Put the tables. -/
def State.setTables (s : State) (t : TableState) : State := { s with tables := t }

/-! The index (R314 to R317). A bucket is numbered 65,536 × way + bucket. -/

/-- The two buckets of a key: H0 in way 0 and H1 in way 1 (R316). -/
def hash0 (s : State) (key : Nat) : Nat :=
  (crcReflected 0x82F63B78 (beBytes 8 key) (bits (s.otp 6) 31 0) ^^^ 0xFFFFFFFF) % 65536
def hash1 (s : State) (key : Nat) : Nat :=
  65536 + (crcReflected 0xEDB88320 (beBytes 8 key) (bits (s.otp 6) 63 32) ^^^ 0xFFFFFFFF) % 65536

/-- The key's own bucket in a way. -/
def ownBucket (s : State) (way key : Nat) : Nat := if way = 0 then hash0 s key else hash1 s key

/-- A slot of the index. -/
def slotAt (s : State) (bucket i : Nat) : Slot := Cells.get s.tables.index (4 * bucket + i) {}

/-- Put a slot. -/
def setSlot (s : State) (bucket i : Nat) (v : Slot) : State :=
  s.setTables { s.tables with index := Cells.set s.tables.index (4 * bucket + i) v {} }

/-- The slots that match a key, lowest way and slot first. -/
def matches' (s : State) (key : Nat) : List (Nat × Nat) :=
  ([hash0 s key, hash1 s key].flatMap fun b => (List.range 4).map fun i => (b, i)).filter fun p =>
    (slotAt s p.1 p.2).valid && decide ((slotAt s p.1 p.2).eui = key)

/-- Is a bucket locked by the Mule (R336)? -/
def bucketLocked (s : State) (b : Nat) : Bool :=
  match s.tables.mule.locks with
  | none => false
  | some (x, y) => decide (b = x ∨ b = y)

/-- Does a lookup of this key park (R337)? -/
def lookupParks (s : State) (key : Nat) : Bool := bucketLocked s (hash0 s key) || bucketLocked s (hash1 s key)

/-- Parked lookups resume (R337). -/
def resumeParked (s : State) : State :=
  s.setTables { s.tables with parking := [], resumed := s.tables.resumed ++ s.tables.parking }

/-- Is the parking queue full, so that no new lookup is issued (R337)? -/
def parkingFull (s : State) : Bool := decide (256 ≤ s.tables.parking.length)

/-- A lookup parks (R337). -/
def park (s : State) (id : Nat) : State := s.setTables { s.tables with parking := s.tables.parking ++ [id] }

/-- May a frame or packet make its lookup? Not while it is parked or the parking queue is full, nor ahead of one that resumed before
it (R337). -/
def onTurn (s : State) (id : Nat) : Bool :=
  !parkingFull s && !s.tables.parking.contains id &&
    (!s.tables.resumed.contains id || decide (s.tables.resumed.head? = some id))

/-- A frame or packet that resumed goes on. -/
def goesOn (s : State) (id : Nat) : State :=
  s.setTables { s.tables with resumed := s.tables.resumed.filter (· ≠ id) }

/-- A slot is hit at this tick (R347). -/
def noteHit (s : State) (n : Nat) : State :=
  s.setTables { s.tables with hitTick := s.tick, hitSlots := n :: (if s.tables.hitTick = s.tick then s.tables.hitSlots else []) }

/-- Has a lookup hit this slot at this very tick (R347)? -/
def hitNow (s : State) (n : Nat) : Bool := decide (s.tables.hitTick = s.tick) && s.tables.hitSlots.contains n

/-- Is the record region present (R351)? -/
def recordsOn (s : State) : Bool := s.flag Reg.FWD_REC_BASE.EN

/-- The record an exact lookup returns (R317). -/
def lookupRecord (s : State) (key : Nat) : Option Nat :=
  if recordsOn s then (matches' s key).head?.map fun p => (slotAt s p.1 p.2).record else none

/-- An exact lookup: HIT is set and AGED cleared in the slot it hits (R317). -/
def touch (s : State) (key : Nat) : State :=
  if recordsOn s then
    match matches' s key with
    | [] => s
    | p :: rest =>
      let s := noteHit (setSlot s p.1 p.2 { slotAt s p.1 p.2 with hit := true, aged := false }) (4 * p.1 + p.2)
      s.onlyIf (!rest.isEmpty) fun s => s.count Ctr.DUP_KEY
  else s

/-! The short-address table (R320, R321). -/

/-- The record that a short address names, if its entry is VALID. -/
def shortRecord (s : State) (a : Nat) : Option Nat :=
  let e := Cells.get s.tables.shorts a 0
  if recordsOn s && bit e 31 then some (bits e 17 0) else none

/-! Records (R322, R323). -/

/-- The physical address of a record. -/
def recordBase (s : State) (r : Nat) : Nat := s.get Reg.FWD_REC_BASE.ADDR * 2 ^ 20 + 256 * r

/-- `n` octets at `off` of a record, little-endian. -/
def rec' (s : State) (r off n : Nat) : Nat := s.ddrLE (recordBase s r + off) n

/-- Write `n` octets at `off` of a record. -/
def setRec (s : State) (r off n v : Nat) : State := s.ddrWrite (recordBase s r + off) (leBytes n v)

/-- Add one to a counter of a record, saturating. -/
def bumpRec (s : State) (r off n : Nat) : State := setRec s r off n (min (rec' s r off n + 1) (2 ^ (8 * n) - 1))

def recEui (s : State) (r : Nat) : Nat := rec' s r 0x00 8
def recShort (s : State) (r : Nat) : Nat := rec' s r 0x08 2
def recTenant (s : State) (r : Nat) : Nat := rec' s r 0x0A 1
def recSafety (s : State) (r : Nat) : Bool := bit (rec' s r 0x0B 1) 1
def recMovedPend (s : State) (r : Nat) : Bool := bit (rec' s r 0x0B 1) 2
def recLevel (s : State) (r : Nat) : Nat := rec' s r 0x0C 1 % 8
def recMode (s : State) (r : Nat) : Nat := rec' s r 0x0D 1 % 16
def recCR (s : State) (r : Nat) : Nat := bits (rec' s r 0x0D 1) 5 4
def recHomeFe (s : State) (r : Nat) : Nat := rec' s r 0x0E 1
def recHomeHerd (s : State) (r : Nat) : Nat := rec' s r 0x0F 1
def recLastFc (s : State) (r : Nat) : Nat := rec' s r 0x10 4
def recWrapped (s : State) (r : Nat) : List Byte := s.ddr (recordBase s r + 0x18) 24
def recRouteLen (s : State) (r : Nat) : Nat := rec' s r 0x40 1
def recRoute (s : State) (r i : Nat) : Nat := rec' s r (0x48 + 8 * i) 8

/-- FCS octets of a mode (R193, R208, R405). -/
def fcsLen (fe : Nat) : Nat := if fe = 2 then 2 else 4

/-! Addresses (R321, R366). -/

/-- The record that a short-form address selects: its entry is VALID, and the record's EUI-64 returns the same record. -/
def shortSelects (s : State) (a : Nat) : Option Nat :=
  match shortRecord s a with
  | none => none
  | some r => if lookupRecord s (recEui s r) = some r then some r else none

/-- The record that a source address selects, and the state after its lookup. -/
def resolve (s : State) : Addr → Option Nat × State
  | .absent => (none, s)
  | .ext k => (lookupRecord s k, touch s k)
  | .short a => (shortSelects s a, match shortRecord s a with
    | none => s
    | some r => touch s (recEui s r))

/-- Does the lookup that an address needs park (R337)? -/
def addrParks (s : State) : Addr → Bool
  | .absent => false
  | .ext k => lookupParks s k
  | .short a => match shortRecord s a with
    | none => false
    | some r => lookupParks s (recEui s r)

/-! Learn events (R327 to R331). -/

/-- The LEARN FIFO has room for an event. -/
def learnRoom (s : State) : Bool := decide (s.tables.learn.length + 4 ≤ 32768)

/-- Enter a learn event's four words (R330). -/
def learnPush (s : State) (w0 w1 w2 w3 : Nat) : State :=
  s.setTables { s.tables with learn := s.tables.learn ++
    [{ data := w0, sop := true }, { data := w1 }, { data := w2 }, { data := w3, eop := true }] }

/-- A learn event is discarded (R331, R350). -/
def learnLost (s : State) (kind : Nat) : State :=
  let r := s.tables.learnWindow.add s.msNow
  let s := s.setTables { s.tables with learnWindow := r.1 }
  let s := (s.setFlag Reg.FWD_LEARN_STATUS.OVF true).bump Reg.FWD_LEARN_LOST.LOST
  if r.2 then s.event Ev.LEARN_OVERFLOW Block.FWD (at' kind 4 44 + at' (min r.1.previous 65535) 16 16)
  else s.count Ev.LEARN_OVERFLOW

/-- Enter a JOIN, NEW_SHORT or MOVED event, or forward it to the herd master (R331, R492); also whether it got away. -/
def learnOffer (s : State) (kind w0 w1 w2 w3 : Nat) : State × Bool :=
  if s.flag Reg.HERD_CTRL.LEARN_FWD && !s.isMaster then
    match ringPort s 0 with
    | none => (learnLost s kind, false)
    | some _ => (herdSend s { type := 4, dst := 0, src := s.herdId, hops := s.members - 1, flags := 0
                              payload := leBytes 8 w0 ++ leBytes 8 w1 ++ leBytes 8 w2 ++ leBytes 8 w3 }, true)
  else if learnRoom s then (learnPush s w0 w1 w2 w3, true)
  else (learnLost s kind, false)

/-- JOIN_HOLD in seconds (R351). -/
def joinHold (s : State) : Nat := min 60 (max 1 (s.get Reg.FWD_IDX_CTRL.JOIN_HOLD))

/-- Did this key produce an event within JOIN_HOLD (R327, R328)? -/
def recently (s : State) (key : Nat) : Bool :=
  s.tables.recent.any fun e => decide (e.1 = key) && !s.elapsedSec e.2 (joinHold s)

/-- The key enters the recent-event filter; when full, its oldest entry is replaced (R328). -/
def noteRecent (s : State) (key : Nat) : State :=
  let l := s.tables.recent.filter fun e => decide (e.1 ≠ key)
  let l := if l.length < 1024 then l else l.drop 1
  s.setTables { s.tables with recent := l ++ [(key, s.tick)] }

/-- The frame counter a learn event shows: the value, CTR_ASN, CTR_NONE (R330). -/
structure LearnFc where
  fc : Nat
  isAsn : Bool
  isNone : Bool

/-- The words 0 and 2 of a learn event about a frame (R330). -/
def learnWord0 (s : State) (kind lane : Nat) (u : UpFrame) (record : Nat) (c : LearnFc) : Nat :=
  at' kind 4 60 + at' s.herdId 3 57 + at' u.fe 2 55 + at' lane 9 46 + at' (ofSigned 12 u.rssi) 12 34 + at' u.lq 8 26
    + at' record 18 8 + at' (b2n c.isAsn) 1 7 + at' (b2n c.isNone) 1 6
def learnWord2 (u : UpFrame) (short : Nat) (c : LearnFc) : Nat := at' c.fc 32 32 + at' short 16 16 + at' u.bin 8 8

/-- The learn event of a frame at step 6 (R327, R329): at most one, of the first kind whose condition holds. -/
def learn (s : State) (u : UpFrame) (record : Option Nat) (c : LearnFc) : State :=
  let lane := u.lane.getD (s.free % 512)
  let s := s.onlyIf u.lane.isNone State.drawn
  let short := match u.frame.src with
    | .short a => a
    | _ => 0xFFFE
  let plain := fun (s : State) (kind eui key : Nat) =>
    if recently s key then s
    else
      let r := learnOffer s kind (learnWord0 s kind lane u 0 c) eui (learnWord2 u short c) u.syncNs
      if r.2 then noteRecent r.1 key else r.1
  match u.frame.src with
  | .absent => s
  | .ext k =>
    if (lookupRecord s k).isNone then plain s 1 k (2 * k) else moved s lane short
  | .short a =>
    if (shortRecord s a).isNone then plain s 2 0 (2 * a + 1) else moved s lane short
where
  moved (s : State) (lane short : Nat) : State :=
    match record with
    | none => s
    | some r =>
      if (recHomeFe s r ≠ u.fe ∨ recHomeHerd s r ≠ s.herdId) ∧ !recMovedPend s r then
        let o := learnOffer s 3 (learnWord0 s 3 lane u r c) (recEui s r) (learnWord2 u short c) u.syncNs
        if o.2 then setRec o.1 r 0x0B 1 (rec' o.1 r 0x0B 1 ||| 4) else o.1
      else s

/-- A 64-bit read of FWD_LEARN_WORD (R739). -/
def learnPop (s : State) (ecc : Ecc) : State :=
  match s.tables.learn with
  | [] => s.answer 0
  | w :: rest =>
    let s := s.setTables { s.tables with learn := rest }
    let s := fifoRead s Fifo.LEARN Block.FWD false false ecc
    let s := { s with q := { s.q with midRead :=
      (s.q.midRead.filter (· ≠ Fifo.LEARN)) ++ (if w.eop then [] else [Fifo.LEARN]) } }
    let s := ((s.setFlag Reg.FWD_LEARN_STATUS.SOP w.sop).setFlag Reg.FWD_LEARN_STATUS.EOP w.eop).setFlag
      Reg.FWD_LEARN_STATUS.POISON (decide (ecc = .uncorrectable))
    s.answer w.data

/-- A 64-bit read of FWD_MULE_DONE (R342, R739). -/
def muleDonePop (s : State) (ecc : Ecc) : State :=
  match s.tables.muleDone with
  | [] => s.answer 0
  | w :: rest =>
    let s := s.setTables { s.tables with muleDone := rest }
    (fifoRead s Fifo.MULE_DONE Block.FWD false false ecc).answer w

/-- FWD_LEARN_WORD_POP (R739, R392): a 64-bit read pops one learn-event word. -/
def execFwdLearnWordPop (dt : Nat) (ecc : Ecc) (s : State) : Result := step' dt s fun s => learnPop s ecc

/-- FWD_MULE_DONE_POP (R739, R392): a 64-bit read pops one completion word. -/
def execFwdMuleDonePop (dt : Nat) (ecc : Ecc) (s : State) : Result := step' dt s fun s => muleDonePop s ecc

/-- HASH_KEY_WRITE (R316): a write of FWD_HASH_KEY gives the key's two buckets. -/
def writeHashKey (s : State) (key : Nat) : State :=
  ((s.set Reg.FWD_HASH_KEY.EUI64 key).set Reg.FWD_HASH_RESULT.H0 (hash0 s key)).set
    Reg.FWD_HASH_RESULT.H1 (hash1 s key)
def execHashKeyWrite (dt : Nat) (value : Word) (s : State) : Result :=
  step' dt s fun s => (writeHashKey s value.toNat).answer 0

/-! The sweeper (R344 to R348, R737). -/

/-- One interval of the sweeper's grid in ticks × 131,072 (R344). -/
def sweepTicks (s : State) : Nat := min 86400 (max 1 (s.get Reg.FWD_IDX_CTRL.SWEEP_PERIOD)) * ticksPerSecond

/-- The grid restarts now (R737). -/
def restartSweep (s : State) : State := s.setTables { s.tables with sweepTick := s.tick, sweepDone := 0 }

/-- Is a visit due (R737)? -/
def sweepDue (s : State) : Bool :=
  s.flag Reg.FWD_IDX_CTRL.SWEEP_EN && s.inRun &&
    decide ((s.tables.sweepDone + 1) * sweepTicks s ≤ (s.tick - s.tables.sweepTick) * 131072)

/-- Write FWD_IDX_CTRL (R351, R737): SWEEP_PERIOD is written, so the grid restarts. -/
def writeIdxCtrl (s : State) (v : Nat) : State :=
  let s := ((s.setFlag Reg.FWD_IDX_CTRL.SWEEP_EN (bit v 63)).set Reg.FWD_IDX_CTRL.JOIN_HOLD (bits v 37 32)).set
    Reg.FWD_IDX_CTRL.SWEEP_PERIOD (bits v 16 0)
  restartSweep s

/-- Write the upper half of FWD_IDX_CTRL alone: the grid restarts when SWEEP_EN is set after being clear (R737). -/
def writeIdxCtrlHigh (s : State) (v : Nat) : State :=
  let was := s.flag Reg.FWD_IDX_CTRL.SWEEP_EN
  let s := (s.setFlag Reg.FWD_IDX_CTRL.SWEEP_EN (bit v 63)).set Reg.FWD_IDX_CTRL.JOIN_HOLD (bits v 37 32)
  s.onlyIf (!was && bit v 63) restartSweep

/-- SWEEP_CTRL_WRITE (R737): a write of FWD_IDX_CTRL restarts the grid. -/
def execSweepCtrlWrite (dt : Nat) (value : Word) (s : State) : Result :=
  step' dt s fun s => (writeIdxCtrl s value.toNat).answer 0

/-! The key cache (R298, R299). -/

/-- A record's key in the cache, most recently used first. -/
def cachedKey (s : State) (r : Nat) : Option (List Byte) :=
  ((Cells.get s.crypto.cache (r % 1024) []).find? fun e => decide (e.1 = r)).map (·.2)

/-- Put the ways of a set. -/
def setCache (s : State) (set : Nat) (ways : List (Nat × List Byte)) : State :=
  { s with crypto := { s.crypto with cache := Cells.set s.crypto.cache set ways [] } }

/-- Use a cached key: it becomes the most recently used way of its set. -/
def useKey (s : State) (r : Nat) (k : List Byte) : State :=
  setCache s (r % 1024) ((r, k) :: (Cells.get s.crypto.cache (r % 1024) []).filter fun e => decide (e.1 ≠ r))

/-- Enter a key: it replaces the least recently used way of a full set (R298). -/
def cacheKey (s : State) (r : Nat) (k : List Byte) : State :=
  setCache s (r % 1024) (((r, k) :: (Cells.get s.crypto.cache (r % 1024) []).filter fun e => decide (e.1 ≠ r)).take 4)

/-- Invalidate a record's cache entry; an unwrap under way keeps its result out of the cache (R299). -/
def dropKey (s : State) (r : Nat) : State :=
  let s := setCache s (r % 1024) ((Cells.get s.crypto.cache (r % 1024) []).filter fun e => decide (e.1 ≠ r))
  { s with crypto := { s.crypto with
    unwraps := s.crypto.unwraps.map fun u => if u.record = r then { u with keep := false } else u } }

/-- Invalidate every cache entry (R299). -/
def flushKeys (s : State) : State :=
  { s with crypto := { s.crypto with cache := [], unwraps := s.crypto.unwraps.map fun u => { u with keep := false } } }

/-- Visit one slot (R345): a lookup that hit it in the same cycle takes effect after the visit (R347). `none` when the sweeper must hold for room in the LEARN FIFO (R346). -/
def sweepSlot (s : State) (b i : Nat) : Option State :=
  let v := slotAt s b i
  if !v.valid || hitNow s (4 * b + i) then some s
  else if v.hit then some (setSlot s b i { v with hit := false })
  else if !v.aged then some (setSlot s b i { v with aged := true })
  else if !learnRoom s then none
  else
    let s := dropKey (setSlot s b i { v with valid := false }) v.record
    let eui := if recordsOn s then recEui s v.record else v.eui
    let s := learnPush s (at' 4 4 60 + at' s.herdId 3 57 + at' v.record 18 8) eui (at' 0xFFFE 16 16) s.time.ns
    some (s.event Ev.AGED_OUT Block.FWD (at' v.record 18 30 + at' b 17 13 + at' i 2 11))

/-- Visit the listed slots of a bucket; the sweeper moves on when they are done, or holds (R346). -/
def sweepFrom (s : State) (b : Nat) : List Nat → State
  | [] => (s.set Reg.FWD_IDX_STATUS.SWEEP_POS (b + 1)).setTables
      { s.tables with sweepDone := s.tables.sweepDone + 1, sweepAt := 0 }
  | i :: rest => match sweepSlot s b i with
    | none => s.setTables { s.tables with sweepAt := i }
    | some s' => sweepFrom s' b rest

/-- SWEEP_VISIT (R345): the sweeper visits the bucket in SWEEP_POS, once it is due and not locked. -/
def execSweepVisit (dt : Nat) (s : State) : Result :=
  whenever dt s (fun s => sweepDue s && !bucketLocked s (s.get Reg.FWD_IDX_STATUS.SWEEP_POS)) fun s =>
    sweepFrom s (s.get Reg.FWD_IDX_STATUS.SWEEP_POS) ((List.range 4).drop s.tables.sweepAt)

end Sys2Proof.Machine
end

