-- ==== Sys2Proof/Machine/Crypto.lean ====
section
/-!
DEFINITION. Frame protection (R287 to R313): engines and jobs, the key-miss queue, group-key slots and failures.
-/

namespace Sys2Proof.Machine

/-- Put the CRYPTO block. -/
def State.setCrypto (s : State) (c : CryptoState) : State := { s with crypto := c }

/-! Engines and jobs (R293 to R296). -/

/-- Enabled engines (R296). -/
def engines (s : State) : Nat :=
  match s.get Reg.HEALTH_STATUS.PROFILE with
  | 0 => 8
  | 1 => 6
  | 2 => 4
  | _ => 1

/-- A job waits. -/
def addJob (s : State) (k : JobKind) : State := s.setCrypto { s.crypto with jobs := s.crypto.jobs ++ [{ kind := k }] }

/-- The class in which a job is started (R295). -/
def jobClass (s : State) : JobKind → Nat
  | .ack _ _ _ => 1
  | .encrypt _ _ _ nominal => if nominal ≤ s.time.ns + 400000 then 2 else 4
  | .verify _ => 3

/-- Is a job for a verification? -/
def JobKind.isVerify : JobKind → Bool
  | .verify _ => true
  | _ => false

/-- May this engine take this job (R295)? With two or more engines, engine 0 takes only verifications. -/
def engineTakes (s : State) (engine : Nat) (k : JobKind) : Bool :=
  decide (engine ≠ 0) || decide (engines s ≤ 1) || k.isVerify

/-- The waiting job that this engine starts: the lowest class, and in it the oldest (R295). -/
def nextJob (s : State) (engine : Nat) : Option CcmJob :=
  let waiting := s.crypto.jobs.filter fun j => j.engine.isNone && engineTakes s engine j.kind
  waiting.foldl (fun b j => match b with
    | none => some j
    | some o => if jobClass s j.kind < jobClass s o.kind then some j else some o) none

/-- Is an engine at work? -/
def engineBusy (s : State) (engine : Nat) : Bool := s.crypto.jobs.any fun j => decide (j.engine = some engine)

/-- The job that an engine runs. -/
def engineJob (s : State) (engine : Nat) : Option CcmJob := s.crypto.jobs.find? fun j => decide (j.engine = some engine)

/-- The job of an engine is over. -/
def endJob (s : State) (engine : Nat) : State :=
  s.setCrypto { s.crypto with jobs := s.crypto.jobs.filter fun j => decide (j.engine ≠ some engine) }

/-! The key-miss queue and the unwrap units (R300 to R303). -/

/-- Frames and packets in the key-miss queue. -/
def keyMissLevel (s : State) : Nat :=
  (s.up.filter fun u => decide (u.stage = .keyMiss)).length + (s.down.filter (·.keyMiss)).length

/-- Records whose frames wait in the key-miss queue, by frame number. -/
def keyMissRecords (s : State) : List Nat :=
  let ups := (s.up.filter fun u => decide (u.stage = .keyMiss)).map fun u => (u.id, u.record)
  let downs := (s.down.filter (·.keyMiss)).map fun p => (p.id, p.link)
  (sortBy (fun a b => decide (a.1 ≤ b.1)) (ups ++ downs)).map (·.2)

/-- The two unwrap units take the records that have waited longest (R300). -/
def startUnwraps (s : State) : State :=
  (keyMissRecords s).foldl (fun s r =>
    if s.crypto.unwraps.length < 2 ∧ !(s.crypto.unwraps.any fun u => decide (u.record = r)) then
      s.setCrypto { s.crypto with unwraps := s.crypto.unwraps ++ [{ record := r }] }
    else s) s

/-- KEY_MISS_FULL (R301, R312). -/
def keyMissFull (s : State) (fe : Nat) : State :=
  let r := (Cells.get s.crypto.missWindow fe {}).add s.msNow
  let s := s.setCrypto { s.crypto with missWindow := Cells.set s.crypto.missWindow fe r.1 {} }
  if r.2 then s.event Ev.KEY_MISS_FULL Block.CRYPTO (at' fe 2 46 + at' (min r.1.previous 65535) 16 16)
  else s.count Ev.KEY_MISS_FULL

/-- Is a slot VALID with a usage bit (R532)? -/
def slotHas (s : State) (n usage : Nat) : Bool := s.flag (Reg.KEYS_SLOT.VALID n) && bit (s.get (Reg.KEYS_SLOT.USAGE n)) usage

/-- The key-encryption key (R297). -/
def kekOf (s : State) : List Byte := Cells.get s.crypto.slotKeys (s.get Reg.CRYPTO_CTRL.KEK_SLOT) []

/-- The key that a wrapped value yields under it: none where the integrity check fails, or where the slot has no wrap usage (R297). -/
def kekUnwrap (s : State) (w : List Byte) : Option (List Byte) :=
  if slotHas s (s.get Reg.CRYPTO_CTRL.KEK_SLOT) 3 then keyUnwrap (kekOf s) w else none

/-! MIC_FAIL (R311, R312). -/

/-- A secured frame fails with a cause; `record` is none for a beacon. -/
def micFail (s : State) (record : Option Nat) (fe cause level : Nat) (group : Option Nat) : State :=
  let r := (Cells.get s.crypto.micWindow fe {}).add s.msNow
  let s := s.setCrypto { s.crypto with micWindow := Cells.set s.crypto.micWindow fe r.1 {} }
  let s := match record with
    | some n => bumpRec s n 0x90 2
    | none => s
  if r.2 then s.event Ev.MIC_FAIL Block.CRYPTO
    (at' (record.getD 0x3FFFF) 18 30 + at' fe 2 28 + at' cause 2 26 + at' level 3 23 + at' (b2n group.isSome) 1 22
      + at' (group.getD 0) 8 14 + at' (min r.1.previous 16383) 14 0)
  else s.count Ev.MIC_FAIL

/-! Group-key slots (R304 to R308). -/

/-- Does a valid slot hold a key for this tenant (or SERVICE) and Key Index? -/
def gkHolds (s : State) (i tenant index : Nat) (service : Bool) : Bool :=
  s.flag (Reg.CRYPTO_GK_CFG.VALID i) && decide (s.get (Reg.CRYPTO_GK_CFG.KEY_INDEX i) = index) &&
    (if service then s.flag (Reg.CRYPTO_GK_CFG.SERVICE i)
     else !s.flag (Reg.CRYPTO_GK_CFG.SERVICE i) && decide (s.get (Reg.CRYPTO_GK_CFG.TENANT i) = tenant))

/-- The slot that a received frame under key identifier mode 1 uses (R304). -/
def gkFor (s : State) (tenant index : Nat) : Option Nat :=
  firstBelow 64 fun i => gkHolds s i tenant index false || gkHolds s i tenant index true

/-- Is there a valid slot with this Key Index for another tenant? -/
def gkOther (s : State) (index : Nat) : Bool :=
  (firstBelow 64 fun i => s.flag (Reg.CRYPTO_GK_CFG.VALID i) && decide (s.get (Reg.CRYPTO_GK_CFG.KEY_INDEX i) = index)).isSome

/-- The TX_ACTIVE slot of a tenant, or of SERVICE (R306). -/
def gkTx (s : State) (tenant : Option Nat) : Option Nat :=
  firstBelow 64 fun i => s.flag (Reg.CRYPTO_GK_CFG.VALID i) && s.flag (Reg.CRYPTO_GK_CFG.TX_ACTIVE i) &&
    (match tenant with
     | none => s.flag (Reg.CRYPTO_GK_CFG.SERVICE i)
     | some t => !s.flag (Reg.CRYPTO_GK_CFG.SERVICE i) && decide (s.get (Reg.CRYPTO_GK_CFG.TENANT i) = t))

/-- Put a key into a slot. -/
def gkPut (s : State) (i tenant index : Nat) (service : Bool) (key : List Byte) : State :=
  let s := (s.setFlag (Reg.CRYPTO_GK_CFG.VALID i) true).setFlag (Reg.CRYPTO_GK_CFG.TX_ACTIVE i) false
  let s := (s.setFlag (Reg.CRYPTO_GK_CFG.SERVICE i) service).set (Reg.CRYPTO_GK_CFG.TENANT i) tenant
  let s := s.set (Reg.CRYPTO_GK_CFG.KEY_INDEX i) index
  s.setCrypto { s.crypto with groupKeys := Cells.set s.crypto.groupKeys i key [] }

/-- Empty a slot. -/
def gkEmpty (s : State) (i : Nat) : State :=
  let s := (s.setFlag (Reg.CRYPTO_GK_CFG.VALID i) false).setFlag (Reg.CRYPTO_GK_CFG.TX_ACTIVE i) false
  let s := (s.setFlag (Reg.CRYPTO_GK_CFG.SERVICE i) false).set (Reg.CRYPTO_GK_CFG.TENANT i) 0
  let s := s.set (Reg.CRYPTO_GK_CFG.KEY_INDEX i) 0
  s.setCrypto { s.crypto with groupKeys := Cells.erase s.crypto.groupKeys i }

/-- Make a valid slot TX_ACTIVE in place of the one it replaces (R307). -/
def gkActivate (s : State) (i : Nat) : State :=
  let mine := if s.flag (Reg.CRYPTO_GK_CFG.SERVICE i) then none else some (s.get (Reg.CRYPTO_GK_CFG.TENANT i))
  let s := match gkTx s mine with
    | some j => s.setFlag (Reg.CRYPTO_GK_CFG.TX_ACTIVE j) false
    | none => s
  s.setFlag (Reg.CRYPTO_GK_CFG.TX_ACTIVE i) true

/-- The cause with which a LOAD fails, if it does (R308): 1 UNWRAP, 2 DUPLICATE, 4 BAD_INDEX. -/
def gkLoadCause (s : State) (key : Option (List Byte)) (i tenant index : Nat) (service : Bool) : Option Nat :=
  if key.isNone then some 1
  else if (firstBelow 64 fun j => decide (j ≠ i) && gkHolds s j tenant index service).isSome then some 2
  else if index = 0 ∨ (!service ∧ s.sched.tenants ≤ tenant) then some 4
  else none

/-- A slot command ends (R308). -/
def gkDone (s : State) (cause : Option Nat) : State :=
  let s := (s.setFlag Reg.CRYPTO_GK_STATUS.DONE true).set Reg.CRYPTO_GK_STATUS.CAUSE (cause.getD 0)
  s.onlyIf cause.isSome fun s => s.setFlag Reg.CRYPTO_GK_STATUS.FAIL true

/-- The wrapped key in CRYPTO_GK_WRAP_0 to 2 (R313). -/
def gkWrapped (s : State) : List Byte :=
  (List.range 3).flatMap fun k => leBytes 8 (s.get (Reg.CRYPTO_GK_WRAP.WRAP k))

/-- A write of CRYPTO_GK_CMD with OP LOAD (R307, R308, R313): the WRAP registers are zeroised in any case. -/
def gkLoad (s : State) (v : Nat) : State :=
  let i := bits v 21 16
  let service := bit v 24
  let key := kekUnwrap s (gkWrapped s)
  let cause := gkLoadCause s key i (bits v 15 8) (bits v 7 0) service
  let s := s.onlyIf cause.isNone fun s =>
    gkPut s i (bits v 15 8) (bits v 7 0) service (key.getD [])
  let s := (List.range 3).foldl (fun s k => s.set (Reg.CRYPTO_GK_WRAP.WRAP k) 0) s
  gkDone s cause

/-- With OP CLEAR, and with OP SET_TX (R307, R308). -/
def gkClear (s : State) (v : Nat) : State := gkDone (gkEmpty s (bits v 21 16)) none
def gkSetTx (s : State) (v : Nat) : State :=
  let i := bits v 21 16
  if s.flag (Reg.CRYPTO_GK_CFG.VALID i) then gkDone (gkActivate s i) none else gkDone s (some 3)

/-- A write of CRYPTO_GK_CMD: OP selects the command; without GO, or with OP 0, it is ignored. -/
def writeGkCmd (s : State) (v : Nat) : State :=
  if !bit v 63 then s
  else match bits v 57 56 with
    | 1 => gkLoad s v
    | 2 => gkClear s v
    | 3 => gkSetTx s v
    | _ => s

/-- The word of a CRYPTO_GK_CMD command: GO and its OP (R313). -/
def gkWord (value : Word) (op : Nat) : Nat := putBits (putBits value.toNat 63 63 1) 57 56 op

/-- GK_LOAD (R307, R308). -/
def execGkLoad (dt : Nat) (value : Word) (s : State) : Result :=
  step' dt s fun s => (writeGkCmd s (gkWord value 1)).answer 0

/-- GK_CLEAR (R307). -/
def execGkClear (dt : Nat) (value : Word) (s : State) : Result :=
  step' dt s fun s => (writeGkCmd s (gkWord value 2)).answer 0

/-- GK_SET_TX (R307). -/
def execGkSetTx (dt : Nat) (value : Word) (s : State) : Result :=
  step' dt s fun s => (writeGkCmd s (gkWord value 3)).answer 0

/-- KEY_CACHE_FLUSH (R299): a write of CRYPTO_CTRL with FLUSH. -/
def writeCryptoCtrl (s : State) (v : Nat) : State :=
  let s := s.onlyIf (bit v 63) flushKeys
  s.onlyIf (!s.flag (Reg.LOCK Block.CRYPTO)) fun s => s.set Reg.CRYPTO_CTRL.KEK_SLOT (bits v 4 0)
def execKeyCacheFlush (dt : Nat) (value : Word) (s : State) : Result :=
  step' dt s fun s => (writeCryptoCtrl s value.toNat).answer 0

end Sys2Proof.Machine
end

