-- ==== Sys2Proof/Machine/Waveform.lean ====
section
/-!
DEFINITION. The waveforms as functions (chapter 5): modes, spreading sequences, the PHY header, whitening, the LDPC
encoder, airtime and wake-up patterns.
-/

namespace Sys2Proof.Machine

/-- Is a mode number one of the Fostaic FD modes, FDW modes, or any Fostaic mode (R178)? -/
def isFD (m : Nat) : Bool := decide (m ≤ 6)
def isFDW (m : Nat) : Bool := decide (7 ≤ m ∧ m ≤ 10)
def isFostaic (m : Nat) : Bool := decide (m ≤ 10)

/-- SUN O-QPSK and O-QPSK 2.4 GHz (R178). -/
def modeSUN : Nat := 11
def modeOQPSK : Nat := 15

/-- Is a mode number not reserved (R178)? -/
def modeValid (m : Nat) : Bool := decide (m ≤ 11 ∨ m = 15)

/-- The spreading factor of a Fostaic mode (R178). -/
def modeSF (m : Nat) : Nat := if isFD m then 2 ^ m else 2 ^ (m - 7)

/-- The symbol time in 1/256 µs: SF ÷ 128 kchip/s in FD and SF ÷ 256 kchip/s in FDW (R151, R178); the standard's
16 µs at 2.4 GHz; SUN modes follow their standard. -/
def symbolTime256 (m : Nat) : Nat :=
  if isFD m then modeSF m * 2000 else if isFDW m then modeSF m * 1000
  else if m = modeOQPSK then 4096 else Config.sunSymbol256

/-- `n` symbol times in ns, rounded down. -/
def symbolsNs (m n : Nat) : Nat := n * symbolTime256 m * 1000 / 256

/-- Four chips in ns, the timing window of R151 and R155. -/
def fourChipsNs (m : Nat) : Nat :=
  if isFD m then 31250 else if isFDW m then 15625 else if m = modeOQPSK then 2000 else 40000

/-- The preamble symbols of a mode: 32 for a Fostaic mode (R187); 8 in the standard's. -/
def preambleSyms (m : Nat) : Nat := if isFostaic m then 32 else 8

/-- The preamble duration T_pre of R243 in ns. -/
def preambleNs (m : Nat) : Nat := symbolsNs m (preambleSyms m)

/-- The sync word of the Fostaic modes (R188), and the start-of-frame delimiter at 2.4 GHz (R208). -/
def syncWord : Nat := 0x7A1C93E5
def oqpskSfd : Nat := 0xA7

/-- How long the sync word or delimiter of a mode lasts, and the PHY header after it, in ns (R187, R208): 16 and 64 symbols in a
Fostaic mode, two and two at 2.4 GHz. SUN modes follow their standard, of which the model counts nothing here. -/
def syncNsOf (m : Nat) : Nat :=
  if isFostaic m then symbolsNs m 16 else if m = modeOQPSK then symbolsNs m 2 else 0
def headerNsOf (m : Nat) : Nat :=
  if isFostaic m then symbolsNs m 64 else if m = modeOQPSK then symbolsNs m 2 else 0

/-! Spreading (R183 to R185). -/

/-- One clock of a 6-bit LFSR whose feedback taps are the bits of `taps`. -/
def lfsrClock (taps s : Nat) : Nat := s / 2 + (popCount 6 (s &&& taps) % 2) * 32

/-- LFSR A after `i` clocks, and LFSR B for sequence index `seq` (R183). -/
def lfsrA (i : Nat) : Nat := Nat.repeat (lfsrClock 0b000011) i 1
def lfsrB (seq i : Nat) : Nat := if seq = 63 then 0 else Nat.repeat (lfsrClock 0b100111) i (seq + 1)

/-- Chip `i` of the sequence with index `seq` (R184). -/
def chip (seq i : Nat) : Bool :=
  if i % 64 = 63 then false else (lfsrA (i % 64) + lfsrB seq (i % 64)) % 2 = 1

/-! The PHY header (R189 to R192). -/

/-- One bit into the header CRC register (R190). -/
def crc8Bit (reg : Nat) (b : Bool) : Nat :=
  let fb := (b2n b + reg / 128) % 2
  (reg * 2 % 256) ^^^ (fb * 7)

/-- The CRC-8 register after H[23:0] (R190). -/
def crc8Reg (h : Nat) : Nat := (List.range 24).foldl (fun r k => crc8Bit r (bit h k)) 0xff

/-- An octet with its bits in reverse order. -/
def rev8 (x : Nat) : Nat := (List.range 8).foldl (fun a k => a * 2 + b2n (bit x k)) 0

/-- The CRC8 field of a header word (R190). -/
def headerCrc (h : Nat) : Nat := rev8 (crc8Reg h)

/-- The header word of a frame (R189). -/
def headerWord (seq len zsel cr mode : Nat) : Nat :=
  let h := at' seq 6 18 + at' len 10 8 + at' zsel 2 6 + at' cr 2 4 + at' mode 4 0
  h + headerCrc h * 2 ^ 24

/-- Fields of a header word (R189). -/
def hdrSeq (h : Nat) : Nat := bits h 23 18
def hdrLen (h : Nat) : Nat := bits h 17 8
def hdrZ (h : Nat) : Nat := 8 * 2 ^ bits h 7 6
def hdrCR (h : Nat) : Nat := bits h 5 4
def hdrMode (h : Nat) : Nat := bits h 3 0

/-! Airtime (R197). -/

/-- B_r of R197. -/
def blockCols (cr : Nat) : Nat := if cr = 0 then 16 else if cr = 1 then 12 else 10

/-- The number of codewords (R195). -/
def codewords (len z : Nat) : Nat := ceilDiv len z

/-- N_bits of R197. -/
def payloadBits (len z cr : Nat) : Nat := codewords len z * z * (blockCols cr - 8) + 8 * len

/-- Airtime of a Fostaic frame in 1/256 µs (R197). -/
def airtime256 (mode len z cr : Nat) : Nat :=
  (112 + payloadBits len z cr / 2) * symbolTime256 mode

/-- Airtime of a Fostaic frame in whole µs, rounded up (R197). -/
def airtimeUs (mode len z cr : Nat) : Nat := ceilDiv (airtime256 mode len z cr) 256

/-- The Z the device uses for its own transmissions (R196). -/
def ownZ (len : Nat) : Nat := if len ≤ 8 then 8 else if len ≤ 16 then 16 else if len ≤ 32 then 32 else 64

/-- Airtime of the standard's 250 kb/s frame: 6 octets of synchronisation header and PHR, 32 µs an octet (R210). -/
def oqpskAirtimeUs (len : Nat) : Nat := (6 + len) * 32

/-- Airtime of a frame the device sends, in whole µs (R196, R197, R210). SUN frames last as their standard says. -/
def ownAirtimeUs (mode len cr : Nat) : Nat :=
  if isFostaic mode then airtimeUs mode len (ownZ len) cr
  else if mode = modeOQPSK then oqpskAirtimeUs len
  else Config.sunAirtimeUs Config.sunRate len

/-! Whitening (R194). -/

/-- One clock of the 9-bit whitening LFSR. -/
def whitenClock (w : Nat) : Nat := w / 2 + ((w + w / 32) % 2) * 256

/-- Whiten (or dewhiten) octets from LFSR state `w`, least significant bit first. -/
def whiten : List Byte → Nat → List Byte
  | [], _ => []
  | b :: bs, w =>
    let r := (List.range 8).foldl (fun (a : Nat × Nat) k => (a.1 + (a.2 % 2) * 2 ^ k, whitenClock a.2)) (0, w)
    BitVec.ofNat 8 (b.toNat ^^^ r.1) :: whiten bs r.2

/-- The whitened form of a whole PSDU (R194); applying it again removes it. -/
def whitened (psdu : List Byte) : List Byte := whiten psdu 0x1ff

/-- The FCS of a frame: the CRC-32 of R193, or the CRC-16 of the standard's two-octet FCS (R208). -/
def fcsOctets (two : Bool) (frame : List Byte) : List Byte :=
  if two then leBytes 2 (crc16 frame) else leBytes 4 (crc32 frame)

/-- Does a PSDU of an IEEE 802.15.4 mode end in its FCS (R208, R209)? -/
def fcsOk (two : Bool) (psdu : List Byte) : Bool :=
  let n := if two then 2 else 4
  decide (n ≤ psdu.length) && decide (psdu.drop (psdu.length - n) = fcsOctets two (psdu.take (psdu.length - n)))

/-- Does a PSDU end in the CRC-32 of its other octets (R193)? -/
def psduCrcOk (psdu : List Byte) : Bool :=
  decide (4 ≤ psdu.length) &&
    crc32 (psdu.take (psdu.length - 4)) == leNat (psdu.drop (psdu.length - 4))

/-! The LDPC encoder (R198 to R201). -/

/-- The shift values of the base matrix, information columns; 64 marks an empty block (R198). -/
def baseRow (i : Nat) : List Nat :=
  ([[17, 43, 64, 6, 58, 64, 29, 3], [64, 12, 51, 38, 64, 9, 60, 24], [40, 64, 27, 55, 14, 33, 64, 47],
    [8, 61, 19, 64, 45, 2, 36, 64], [53, 26, 64, 11, 30, 64, 5, 62], [64, 35, 48, 21, 64, 57, 13, 39],
    [31, 64, 4, 50, 22, 16, 64, 10], [25, 7, 59, 64, 37, 44, 18, 64]] : List (List Nat)).getD i []

/-- Bit `r` of column `j`. -/
def colBit (u : List (List Bool)) (j r : Nat) : Bool := (u.getD j []).getD r false

/-- lam[i][r] of R200. -/
def lam (u : List (List Bool)) (z i r : Nat) : Bool :=
  (List.range 8).foldl (fun a j =>
    let s := (baseRow i).getD j 64
    if s = 64 then a else xor a (colBit u j ((r + s % z) % z))) false

/-- p[0] of R200. -/
def parity0 (u : List (List Bool)) (z r : Nat) : Bool :=
  (List.range 8).foldl (fun a i => xor a (lam u z i r)) false

/-- p[k] of R200. -/
def parity (u : List (List Bool)) (z : Nat) : Nat → Nat → Bool
  | 0, r => parity0 u z r
  | 1, r => xor (lam u z 0 r) (parity0 u z ((r + 1) % z))
  | k + 2, r => xor (xor (lam u z (k + 1) r) (parity u z (k + 1) r))
      (if k + 1 = 4 then parity0 u z r else false)

/-- The columns punctured at a code rate (R201). -/
def punctured (cr c : Nat) : Bool :=
  if cr = 1 then [9, 11, 13, 15].contains c
  else if cr = 2 then [9, 10, 11, 13, 14, 15].contains c
  else false

/-- The bits sent for one codeword of `n` octets of whitened PSDU (R195, R197): columns in order, punctured columns
and shortened positions left out. -/
def codewordBits (z cr : Nat) (octets : List Byte) : List Bool :=
  let info := fun t => bit ((octets.getD (t / 8) 0).toNat) (t % 8)
  let u := (List.range 8).map fun j => (List.range z).map fun r =>
    if j * z + r < 8 * octets.length then info (j * z + r) else false
  let sys := (List.range (8 * octets.length)).map info
  let par := ((List.range 8).filter fun k => !punctured cr (8 + k)).flatMap fun k =>
    (List.range z).map fun r => parity u z k r
  sys ++ par

/-- Cut octets into codewords of `z` octets (R195). -/
def codewordsOf (z : Nat) : Nat → List Byte → List (List Byte)
  | 0, _ => []
  | n + 1, bs => bs.take z :: codewordsOf z n (bs.drop z)

/-- The payload bits of a Fostaic frame (R194 to R197). -/
def payloadOf (z cr : Nat) (psdu : List Byte) : List Bool :=
  (codewordsOf z (codewords psdu.length z) (whitened psdu)).flatMap (codewordBits z cr)

/-! A frame on the air (R181, R185, R187, R188, R191, R210). -/

/-- Bits as QPSK symbols (b0, b1), in transmission order. -/
def symbolsOf : List Bool → List (Bool × Bool)
  | a :: b :: l => (a, b) :: symbolsOf l
  | _ => []

/-- A 32-bit word, least significant bit first. -/
def wordBits (w : Nat) : List Bool := (List.range 32).map (bit w)

/-- The symbols of a Fostaic frame: preamble, sync word, the header word four times, payload. -/
def frameSymbols (h : Nat) (payload : List Bool) : List (Bool × Bool) :=
  List.replicate 32 (false, false) ++ symbolsOf (wordBits syncWord ++ (List.replicate 4 (wordBits h)).flatten ++ payload)

/-- Its chips: whether I and Q of each are negative. The payload, from symbol 112 on, takes the header's SEQ. -/
def frameChips (mode h : Nat) (payload : List Bool) : List (Bool × Bool) :=
  let table := fun seq => (List.range 64).map (chip seq)
  let lead := table 63
  let tail := table (hdrSeq h)
  let sf := modeSF mode
  (frameSymbols h payload).zipIdx.flatMap fun x => (List.range sf).map fun i =>
    let c := (if x.2 < 112 then lead else tail).getD ((x.2 * sf + i) % 64) false
    (xor x.1.1 c, xor x.1.2 c)

/-- The header word of a frame that the device sends. -/
def ownHeader (seq len cr mode : Nat) : Nat :=
  headerWord seq len (if len ≤ 8 then 0 else if len ≤ 16 then 1 else if len ≤ 32 then 2 else 3) cr mode

/-- The octets of a frame at 2.4 GHz: preamble, delimiter and PHR in front of the PSDU. -/
def oqpskFrame (psdu : List Byte) : List Byte := [0, 0, 0, 0] ++ leBytes 1 oqpskSfd ++ leBytes 1 psdu.length ++ psdu

/-! Wake-up patterns (R211 to R213). -/

/-- The bits of a wake-up pattern (R211). -/
def wakeBits (addr : Nat) : List Bool :=
  [true, false, true, false, true, false, true, false] ++ (List.range 32).map (bit addr)

/-- Does a group address have from 12 to 20 bits set (R212)? -/
def wakeAddrOk (addr : Nat) : Bool := decide (12 ≤ popCount 32 addr ∧ popCount 32 addr ≤ 20)

/-- Airtime of a wake-up pattern in µs (R213). -/
def wakeAirtimeUs (reps : Nat) : Nat := reps * 5000

end Sys2Proof.Machine
end

