-- ==== Sys2Proof/Machine/Lanes.lean ====
section
/-!
DEFINITION. Bins, detectors, lanes and hearing modes (chapter 4): the operations behind the commands.
-/

namespace Sys2Proof.Machine

/-! Positions (R143). -/

/-- The centre frequency of a bin in kHz (R143). -/
def binKhz (s : State) (fe bin : Nat) : Nat :=
  if fe = 2 then 2405000 + 5000 * bin
  else s.get (Reg.FE_RX_CFG.RX_LO_KHZ fe) + 200 * bin - 20000

/-- The frequency of an emission or detection: an FDW mode sits between two bins (R181). -/
def modeKhz (s : State) (fe bin mode : Nat) : Nat :=
  binKhz s fe bin + (if isFDW mode then 100 else 0)

/-- The sub-band of a front end that holds a bin (R135). -/
def subbandOf (s : State) (fe bin : Nat) : Option SubBand :=
  s.hear.subbands.find? fun b =>
    decide (b.fe = fe ∧ b.lowKhz ≤ binKhz s fe bin ∧ binKhz s fe bin ≤ b.highKhz)

/-- The bins of a front end (R143). -/
def binCount (fe : Nat) : Nat := if fe = 2 then 16 else 200

/-- Is a bin enabled (R146)? -/
def binEnabled (s : State) (fe bin : Nat) : Bool :=
  decide (bin < binCount fe) && bit (s.get (Reg.CHAN_BIN_EN.EN (fe * 4 + bin / 64))) (bin % 64)

/-- DET_SYMS as it acts (R177). -/
def detSyms (s : State) : Nat := min 8 (max 4 (s.get Reg.CHAN_DET_CTRL.DET_SYMS))

/-- T_pipe of R735 in ns. -/
def pipeNs (fe : Nat) : Nat := if fe = 2 then 8000 else 62000

/-- Now on the antenna time scale of a front end (R735). -/
def antennaNs (s : State) (fe : Nat) : Nat := s.time.ns - pipeNs fe

/-- T_fe of R77 in ns: a frame's soft bits reach Ox so long after their chips. -/
def feNs (fe : Nat) : Nat := if fe = 2 then 28000 else 82000

/-- The gain of the front-end module in receive, in 0.25 dB; nothing where it is absent (R130, R131). -/
def rxGain (s : State) (fe : Nat) : Int :=
  if s.flag (Reg.FE_FEM_CTRL.PRESENT fe) then toSigned 8 (s.get (Reg.FE_FEM_CTRL.RX_GAIN_QDB fe)) else 0

/-- A power at the device's pin, referred to the antenna port (R131). -/
def atAntenna (s : State) (fe : Nat) (power : Int) : Int := power - rxGain s fe

/-- Do the detectors of a front end run (R147)? -/
def detectorsRun (s : State) (fe : Nat) : Bool :=
  s.flag (Reg.FE_STATUS.RX_IN_SERVICE fe) && !s.flag (Reg.FE_STATUS.BLANKED fe)

/-- Front end `fe` changes: detectors that run again run from now (R147). -/
def State.resuming (s : State) (fe : Nat) (k : State → State) : State :=
  let t := k s
  if detectorsRun t fe && !detectorsRun s fe then t.setFe fe { t.fe fe with detectNs := t.time.ns } else t

/-! Hearing modes (R167 to R169). -/

def modeWIDE : Nat := 0
def modeDEEP : Nat := 1
def modeSTORM : Nat := 2

/-- Is throttle step `n` in force (R673)? -/
def throttled (s : State) (n : Nat) : Bool := bit (s.get Reg.HEALTH_STATUS.STEPS) (n - 1)

/-- C_mode of R168. -/
def modeLanes (mode : Nat) (wide : Bool) : Nat :=
  if wide then (if mode = modeDEEP then 16 else 32) else (if mode = modeDEEP then 128 else 256)

/-- C_profile of R168 (R670). -/
def profileLanes (profile : Nat) (wide : Bool) : Nat :=
  match profile, wide with
  | 0, false => 256 | 0, true => 32
  | 1, false => 192 | 1, true => 24
  | 2, false => 128 | 2, true => 16
  | _, false => 64  | _, true => 8

/-- The iteration cap of a hearing mode (R167). -/
def modeCap (mode : Nat) : Nat := if mode = modeDEEP then 64 else if mode = modeSTORM then 8 else 16

/-- The iteration cap in force (R169). -/
def iterCap (s : State) : Nat :=
  let c := modeCap (s.get Reg.CHAN_STATUS.MODE)
  if throttled s 2 then min c 8 else c

/-- Collision recovery is on (R169). -/
def recoveryOn (s : State) : Bool :=
  decide (s.get Reg.CHAN_STATUS.MODE = modeDEEP) && !throttled s 1

/-! Lanes (R152, R157, R168). -/

/-- The lane with number `n`. -/
def laneAt (s : State) (n : Nat) : Lane := Cells.get s.hear.lanes n {}

/-- Put a lane. -/
def setLane (s : State) (n : Nat) (l : Lane) : State :=
  { s with hear := { s.hear with lanes := Cells.set s.hear.lanes n l {} } }

/-- The enabled lanes of a pool hold their places while throttle step 3 halves the rest (R168): those that a reservation holds, and
those that a detection claimed through one. R168 names the claims of SAFETY and ALARM traffic; the lane does not know the class of
its frame, so the model keeps every claimed lane. -/
def Lane.kept (l : Lane) : Bool := decide (l.stage = .reserved) || l.reserved

/-- A lane returns to the free pool (R157). -/
def freeLane (s : State) (n : Nat) : State := setLane s n {}

/-- The lane numbers of a pool (R152). -/
def poolLanes (wide : Bool) : List Nat :=
  if wide then (List.range 32).map (· + 256) else List.range 256

/-- Is a lane excluded (R82)? -/
def laneExcluded (s : State) (n : Nat) : Bool :=
  bit (s.get (Reg.CHAN_LANE_EXCL.EXCL (n / 64))) (n % 64)

/-- The lanes of a pool that are not excluded. -/
def usableLanes (s : State) (wide : Bool) : List Nat :=
  (poolLanes wide).filter fun n => !laneExcluded s n

/-- Lanes of a pool that a reservation holds. -/
def reservedLanes (s : State) (wide : Bool) : Nat :=
  (s.hear.lanes.filter fun e => decide (e.2.stage = .reserved) && decide (256 ≤ e.1) == wide).length

/-- The enabled set of a pool under a mode (R152, R168): its lowest lanes that are not excluded, and of the lanes not kept only the
lower half while throttle step 3 applies. -/
def enabledIn (s : State) (mode : Nat) (wide : Bool) : List Nat :=
  let usable := usableLanes s wide
  let c := min (modeLanes mode wide) (profileLanes (s.get Reg.HEALTH_STATUS.PROFILE) wide)
    - ((poolLanes wide).length - usable.length)
  let base := usable.take c
  if throttled s 3 then
    let rest := base.filter fun n => !(laneAt s n).kept
    let half := rest.take (rest.length / 2)
    base.filter fun n => (laneAt s n).kept || half.contains n
  else base

/-- The enabled lane count of a pool under a mode (R168). -/
def enabledCount (s : State) (mode : Nat) (wide : Bool) : Nat := (enabledIn s mode wide).length

/-- The enabled set of a pool (R152). -/
def enabledLanes (s : State) (wide : Bool) : List Nat := enabledIn s (s.get Reg.CHAN_STATUS.MODE) wide

/-- The free enabled lanes of a pool, lowest first. -/
def freeLanes (s : State) (wide : Bool) : List Nat :=
  (enabledLanes s wide).filter fun n => decide (laneAt s n = {})

/-- Is a front end served by the wide pool? -/
def isWide (fe : Nat) : Bool := decide (fe = 2)

/-- Pending reservations of a pool whose windows run, in ascending cell index (R153). -/
def pendingOf (s : State) (wide : Bool) : List PendingRsv :=
  sortBy (fun a b => decide (a.cell ≤ b.cell))
    (s.hear.pendingRsv.filter fun p => isWide p.fe == wide && decide (antennaNs s p.fe < p.windowTo))

/-- The free lanes of a pool that no pending reservation takes first (R153). -/
def openLanes (s : State) (wide : Bool) : List Nat := (freeLanes s wide).drop (pendingOf s wide).length

/-- The lane an unreserved detection takes: the lowest free one, behind every pending reservation (R153, R154). -/
def laneForDetection (s : State) (wide : Bool) : Option Nat := (openLanes s wide).head?

/-- Reserve lane `n` for a pending reservation. -/
def grantReservation (s : State) (n : Nat) (p : PendingRsv) : State :=
  setLane s n { stage := .reserved, fe := p.fe, bin := p.bin, cell := p.cell,
                windowFrom := p.windowFrom, windowTo := p.windowTo }

/-- Reserve a lane for a dedicated receive cell, or leave the reservation pending (R153). -/
def reserveLane (s : State) (p : PendingRsv) : State :=
  match (openLanes s (isWide p.fe)).head? with
  | some n => grantReservation s n p
  | none => { s with hear := { s.hear with pendingRsv := s.hear.pendingRsv ++ [p] } }

/-- The reserved lane whose bin and window match a detection (R153). -/
def matchingReservation (s : State) (fe bin : Nat) : Option Nat :=
  (s.hear.lanes.find? fun e =>
    decide (e.2.stage = .reserved ∧ e.2.fe = fe ∧ e.2.bin = bin ∧
      e.2.windowFrom ≤ antennaNs s fe ∧ antennaNs s fe ≤ e.2.windowTo)).map (·.1)

/-- Is a frame in progress in this lane? -/
def laneHasFrame (l : Lane) : Bool :=
  decide (l.stage = .acquire ∨ l.stage = .syncSearch ∨ l.stage = .header ∨ l.stage = .payload)

/-- Lanes in a state other than FREE and EXCLUDED (R170). -/
def occupiedLanes (s : State) : Nat := s.hear.lanes.length

/-- Enabled lanes of both pools under a mode. -/
def enabledBoth (s : State) (mode : Nat) : Nat := enabledCount s mode false + enabledCount s mode true

/-- Mark the lanes outside the enabled set DRAIN, and the others not (R174). -/
def refreshDrain (s : State) : State :=
  let en := enabledLanes s false ++ enabledLanes s true
  { s with hear := { s.hear with
      lanes := s.hear.lanes.map fun e => (e.1, { e.2 with drain := !en.contains e.1 }) } }

/-- The STATE code of CHAN_LANE_STATE (R177). -/
def laneCode (s : State) (n : Nat) : Nat :=
  let l := laneAt s n
  if laneExcluded s n then 7
  else if l.drain then 8
  else match l.stage with
    | .free => 0 | .reserved => 1 | .acquire => 2 | .syncSearch => 3 | .header => 4 | .payload => 5 | .inject => 6

/-- A calibration that does not converge raises CAL_FAIL (R82, R141). FE 3 is an item of no front end. -/
def calFail (s : State) (fe kind index : Nat) : State :=
  let src := if fe < 3 then Block.FE fe else if kind = 6 then Block.NFC else if kind = 7 then Block.LAMB else Block.CHAN
  s.event Ev.CAL_FAIL src (at' fe 2 46 + at' kind 4 42
    + at' (b2n (decide (s.boot = Boot.CALIBRATE))) 1 41 + at' index 16 0)

/-- Exclude a lane from allocation (R82). -/
def excludeLane (s : State) (n : Nat) : State :=
  (freeLane s n).setBit (Reg.CHAN_LANE_EXCL.EXCL (n / 64)) (n % 64)

end Sys2Proof.Machine
end

