-- ==== Sys2Proof/Machine/Ldpc.lean ====
section
/-!
DEFINITION. The payload decoder of the Ox pool (R203 to R205): layered normalised min-sum over the code of R198 to R201. A column
is a list of Z values, one for each row; a positive value favours 0.
-/

namespace Sys2Proof.Machine

/-- The largest positive internal value (R203): messages are 8-bit numbers (R204). -/
def llrMax : Int := 127

/-- 8-bit saturation (R204). The decoder's values saturate as its messages do: the model's choice. -/
def sat8 (x : Int) : Int := satSigned 8 x

/-- The entries of block row `i`: column and shift modulo Z (R198, R199). Column 8 + k carries parity p[k]. -/
def blockRow (z i : Nat) : List (Nat × Nat) :=
  let info := ((baseRow i).zipIdx.filter fun e => decide (e.1 ≠ 64)).map fun e => (e.2, e.1 % z)
  let p0 := if i = 0 ∨ i = 7 then [(8, 1 % z)] else if i = 4 then [(8, 0)] else []
  info ++ p0 ++ (if i = 0 then [] else [(8 + i, 0)]) ++ (if i = 7 then [] else [(9 + i, 0)])

/-- A column turned so that row r stands in line with check r of its block row (R199), and turned back. -/
def turn (t : Nat) (l : List Int) : List Int := l.drop t ++ l.take t
def turnBack (t : Nat) (l : List Int) : List Int := turn (l.length - t) l

/-- The two smallest magnitudes of some values. -/
def twoLeast : List Int → Nat × Nat
  | [] => (255, 255)
  | x :: xs =>
    let r := twoLeast xs
    let m := x.natAbs
    if m ≤ r.1 then (m, r.1) else if m ≤ r.2 then (r.1, m) else r

/-- ALPHA ÷ 16 of a magnitude (R204); how a fraction is rounded is open. -/
def scaled (alpha m : Nat) : Nat :=
  alpha * m / 16 + (if alpha * m % 16 = 0 then 0 else b2n (Config.scaleRoundsUp (alpha * m)))

/-- The messages of one check to its variables (R204): the sign of the product and the least magnitude of the other values,
scaled. -/
def checkMessages (alpha : Nat) (q : List Int) : List Int :=
  let m := twoLeast q
  let odd := (q.filter fun x => decide (x < 0)).length % 2 = 1
  q.map fun x =>
    let v : Int := scaled alpha (if x.natAbs = m.1 then m.2 else m.1)
    sat8 (if xor (decide odd) (decide (x < 0)) then -v else v)

/-- Lists of equal length, as the list of their heads, of their second elements and so on. -/
def transpose : Nat → List (List Int) → List (List Int)
  | 0, _ => []
  | n + 1, l => l.map (fun c => c.headD 0) :: transpose n (l.map List.tail)

/-- The decoder's state: the value of each column, and the messages of each block row, entry by entry, in the row's line. -/
structure Ldpc where
  cols : List (List Int)
  msgs : List (List (List Int))

/-- Which rows of a column are shortened: information positions past the codeword's octets (R195). -/
def shortened (octets z col r : Nat) : Bool := decide (col < 8 ∧ 8 * octets ≤ col * z + r)

/-- The value of a position after its old message is taken out and the new one put in; a shortened one stays (R203). -/
def renewed (fixed : Bool) (v old new : Int) : Int := if fixed then v else sat8 (sat8 (v - old) + new)

/-- One block row of an iteration (R204). -/
def layer (z octets alpha : Nat) (d : Ldpc) (i : Nat) : Ldpc :=
  let es := blockRow z i
  let old := d.msgs.getD i []
  let v := es.map fun e => turn e.2 (d.cols.getD e.1 [])
  let fixed := es.map fun e => (turn e.2 ((List.range z).map fun r => if shortened octets z e.1 r then 1 else 0))
  let q := (v.zip (old.zip fixed)).map fun c => (c.1.zip (c.2.1.zip c.2.2)).map fun x =>
    if x.2.2 = 1 then x.1 else sat8 (x.1 - x.2.1)
  let new := transpose es.length ((transpose z q).map (checkMessages alpha))
  let v' := (v.zip (old.zip (new.zip fixed))).map fun c => (c.1.zip (c.2.1.zip (c.2.2.1.zip c.2.2.2))).map fun x =>
    renewed (decide (x.2.2.2 = 1)) x.1 x.2.1 x.2.2.1
  let cols := (es.zip v').foldl (fun l e => l.set e.1.1 (turnBack e.1.2 e.2)) d.cols
  { cols := cols, msgs := d.msgs.set i new }

/-- One iteration: block rows 0 to 7 in order (R204). -/
def iterate (z octets alpha : Nat) (d : Ldpc) : Ldpc := (List.range 8).foldl (layer z octets alpha) d

/-- The hard decision of a value; that of zero is open, a bit of `tie`. -/
def hardBit (tie n : Nat) (v : Int) : Bool := decide (v < 0) || (decide (v = 0) && bit tie n)

/-- The hard decisions of all columns. -/
def hardBits (tie z : Nat) (d : Ldpc) : List (List Bool) :=
  d.cols.zipIdx.map fun c => c.1.zipIdx.map fun v => hardBit tie (c.2 * z + v.2) v.1

/-- Is every check of R199 met? -/
def checksMet (z : Nat) (h : List (List Bool)) : Bool :=
  (List.range 8).all fun i => (List.range z).all fun r =>
    !((blockRow z i).foldl (fun a e => xor a ((h.getD e.1 []).getD ((r + e.2) % z) false)) false)

/-- Iterate until every check is met, or to the cap (R205): iterations used, and the hard decisions if the codeword has not
failed (R206). -/
def decodeLoop (z octets alpha tie : Nat) : Nat → Nat → Ldpc → Nat × Option (List (List Bool))
  | 0, used, _ => (used, none)
  | left + 1, used, d =>
    let d := iterate z octets alpha d
    let h := hardBits tie z d
    if checksMet z h then (used + 1, some h) else decodeLoop z octets alpha tie left (used + 1) d

/-- The positions of a codeword that are sent, in order (R197): by column, punctured ones left out, shortened rows left out. -/
def sentRows (z cr octets col : Nat) : List Nat :=
  if punctured cr col then [] else (List.range z).filter fun r => !shortened octets z col r

/-- The columns with the soft values that arrived (R203): 0 where a position is punctured or missing, the largest value where it is
shortened. R165 gives six-bit values that saturate at 31. -/
def softColumns (z cr octets : Nat) : List Nat → List Int → List (List Int)
  | [], _ => []
  | c :: cs, soft =>
    let n := (sentRows z cr octets c).length
    let got := (soft.take n).map (clampInt 31)
    let col := if punctured cr c then List.replicate z 0
      else got ++ List.replicate (n - got.length) 0 ++ List.replicate (z - n) llrMax
    col :: softColumns z cr octets cs (soft.drop n)

/-- The octets of a codeword's information bits (R195). -/
def infoOctets (z octets : Nat) (h : List (List Bool)) : List Byte :=
  (List.range octets).map fun k => BitVec.ofNat 8 <| (List.range 8).foldl (fun a i =>
    let t := 8 * k + i
    a + b2n ((h.getD (t / z) []).getD (t % z) false) * 2 ^ i) 0

/-- Decode one codeword of `octets` octets (R203 to R206): iterations used, and its whitened octets unless it fails. -/
def decodeCodeword (z cr octets cap alpha tie : Nat) (soft : List Int) : Nat × Option (List Byte) :=
  let d : Ldpc := { cols := softColumns z cr octets (List.range 16) soft
                    msgs := (List.range 8).map fun i => (blockRow z i).map fun _ => List.replicate z 0 }
  let r := decodeLoop z octets alpha tie (max 1 cap) 0 d
  (r.1, r.2.map (infoOctets z octets))

/-- ALPHA as it acts (R214). -/
def alphaActs (a : Nat) : Nat := max 8 a

/-- The header word of 128 soft values (R191): the four values of each bit are added; a sum of zero leaves the bit open. -/
def headerOf (tie : Nat) (soft : List Int) : Nat :=
  (List.range 32).foldl (fun a k =>
    let v := soft.getD k 0 + soft.getD (32 + k) 0 + soft.getD (64 + k) 0 + soft.getD (96 + k) 0
    a + b2n (hardBit tie k v) * 2 ^ k) 0

end Sys2Proof.Machine
end

