-- ==== Sys2Proof/Machine/Ox.lean ====
section
/-!
DEFINITION. The Ox pool (chapters 5 and 6): frames at their payload decoders, capture contexts, cancellation and the announcement
tables.
-/

namespace Sys2Proof.Machine

/-- The capture context with number `n`. -/
def ctxAt (s : State) (n : Nat) : Context := Cells.get s.ox.contexts n {}

/-- Put a context. -/
def setCtx (s : State) (n : Nat) (c : Context) : State :=
  { s with ox := { s.ox with contexts := Cells.set s.ox.contexts n c {} } }

/-- The physical address of context `n` in the capture region (R216): its ADDR field holds bits [39:18]. -/
def ctxBase (s : State) (n : Nat) : Nat := (s.get Reg.OX_CAP_BASE.ADDR + n) * 2 ^ 18

/-- The region of a context, whose content is open (R217): while it records, after a canceller has worked on it, and wherever no
rule lays an octet out. -/
def ctxScramble (s : State) (n : Nat) : State := s.drawn.ddrReplace (ctxBase s n) (octetsOf s.free 0x40000)

/-- The samples of a closed context, 16-bit I then 16-bit Q, from offset 0x100 on (R217). -/
def ctxSamples (s : State) (n : Nat) (l : List (BitVec 16 × BitVec 16)) : State :=
  s.ddrReplace (ctxBase s n + 0x100) (l.flatMap fun x => leBytes 2 x.1.toNat ++ leBytes 2 x.2.toNat)

/-- How many samples a context holds that closes now, at 600 kS/s (R217): at most 38,400. -/
def ctxCountNow (s : State) (c : Context) : Nat := min 38400 ((antennaNs s c.fe - c.startNs) * 6 / 10000)

/-- A context returns to FREE. -/
def freeCtx (s : State) (n : Nat) : State := setCtx s n {}

/-- Contexts in a stage. -/
def ctxCount (s : State) (g : CtxStage) : Nat := (s.ox.contexts.filter fun e => decide (e.2.stage = g)).length

/-- The bin's context in ARMED or RECORDING (R220). -/
def binCtx (s : State) (fe bin : Nat) : Option Nat :=
  (s.ox.contexts.find? fun e =>
    decide (e.2.fe = fe ∧ e.2.bin = bin ∧ (e.2.stage = .armed ∨ e.2.stage = .recording))).map (·.1)

/-- The lowest FREE context, if the region is present (R237). -/
def freeCtxNo (s : State) : Option Nat :=
  if s.flag Reg.OX_CAP_BASE.EN then firstBelow 32 fun n => decide ((ctxAt s n).stage = .free) else none

/-- Does a frame lie in a context's samples: on its bin, and between two instants? -/
def Heard.lies (h : Heard) (fe bin start til : Nat) : Bool :=
  decide (h.fe = fe ∧ h.bin = bin ∧ start < h.endNs ∧ h.firstNs < til)

/-- A context as opened now on a bin: its first sample lies 1 ms back (R218). Frames in those samples whose headers lanes have
accepted count for its closing (R223). -/
def newCtx (s : State) (g : CtxStage) (fe bin trigger : Nat) (claims : List Nat) : Context :=
  let start := antennaNs s fe - 1000000
  let inIt := s.ox.heard.filter fun h => h.lies fe bin start (antennaNs s fe)
  { stage := g, fe := fe, bin := bin, trigger := trigger, startNs := start, armed := claims
    lastChipNs := if inIt.isEmpty then none else some ((inIt.map (·.endNs)).foldl max 0)
    closeGap := min 8 (max 1 (s.get Reg.OX_CAP_CTRL.CLOSE_GAP)),
    layerMax := max 1 (s.get Reg.OX_CAP_CTRL.LAYER_MAX) }

/-- Context `n` opens and records (R218). -/
def openCtx (s : State) (n : Nat) (c : Context) : State := ctxScramble (setCtx s n c) n

/-- A capture finds no context (R44, R235): every miss is counted, and the first of a 1 ms window is reported. -/
def captureMiss (s : State) (fe bin cause : Nat) : State :=
  let r := (Cells.get s.ox.missWindow fe {}).add s.msNow
  let s := { s with ox := { s.ox with missWindow := Cells.set s.ox.missWindow fe r.1 {} } }
  if r.2 then s.event Ev.CAPTURE_MISS Block.OX
    (at' fe 2 46 + at' bin 8 38 + at' cause 2 36 + at' (min r.1.previous 65535) 16 16)
  else s.count Ev.CAPTURE_MISS

/-- The noise-floor estimate of a bin, 0.25 dBm at the antenna port (R748): the least of its last 16 windows, 0 dBm before the
first. -/
def noiseFloor (s : State) (fe bin : Nat) : Int :=
  match Cells.get s.hear.floors (256 * fe + bin) [] with
  | [] => 0
  | p :: ps => ps.foldl min p

/-- A 1 ms window of TIME_NS has ended (R748): the mean powers of the sub-GHz bins whose detectors ran all through it enter their
last 16. A bin for which no power is given keeps its windows, the model's choice. -/
def noteFloors (s : State) (powers : List BinPower) : State :=
  let floors := powers.foldl (fun l p =>
    let k := 256 * p.fe.val + p.bin
    if p.fe.val ≠ 2 ∧ binEnabled s p.fe p.bin ∧ detectorsRun s p.fe ∧ (s.fe p.fe).detectNs + 1000000 ≤ s.time.ns then
      Cells.set l k ((atAntenna s p.fe p.power :: Cells.get l k []).take 16) []
    else l) s.hear.floors
  { s with hear := { s.hear with floors := floors } }

/-- Put a lane's armed context into the lane. -/
def armLaneOn (s : State) (lane n : Nat) : State :=
  setLane s lane { laneAt s lane with context := some n }

/-- Arm a lane at its allocation, testing the conditions of R221 in order. While the capture region is absent no context is armed
(R237). -/
def armLane (s : State) (lane : Nat) (d : Detect) : State :=
  let margin : Int := (4 * min 30 (max 3 (s.get Reg.OX_CAP_CTRL.CAP_MARGIN)) : Nat)
  let claim := (laneAt s lane).claim
  if !recoveryOn s || decide (5 < d.mode) || !s.flag Reg.OX_CAP_BASE.EN then s
  else if atAntenna s d.fe d.power - noiseFloor s d.fe d.bin < margin then s
  else match binCtx s d.fe d.bin with
    | some n => armLaneOn (setCtx s n { ctxAt s n with armed := (ctxAt s n).armed ++ [claim] }) lane n
    | none =>
      if min 32 (s.get Reg.OX_CAP_CTRL.ARM_MAX) ≤ ctxCount s .armed then s.count Ctr.ARM_SKIP
      else match freeCtxNo s with
        | some n => armLaneOn (openCtx s n (newCtx s .armed d.fe d.bin 0 [claim])) lane n
        | none => captureMiss s d.fe d.bin 0

/-- Turn a context to RECORDING; its first trigger stands in TRIGGER (R222). -/
def recordCtx (s : State) (n trigger : Nat) : State :=
  let c := ctxAt s n
  if c.stage = .armed then setCtx s n { c with stage := .recording, trigger := trigger } else s

/-- An OVERLAP or LANE_MISS trigger of an FD detection on a sub-GHz bin (R222). -/
def binTrigger (fe bin : Nat) (s : State) (cause : Nat) : State :=
  match binCtx s fe bin with
  | some n => recordCtx s n cause
  | none => match freeCtxNo s with
    | some n => openCtx s n (newCtx s .recording fe bin cause [])
    | none => captureMiss s fe bin cause

/-- The triggers of a detection, in order (R222): one in a mode that is never captured counts once as NOT_CAPTURABLE. -/
def captureDetection (s : State) (d : Detect) (causes : List Nat) : State :=
  if !recoveryOn s || causes.isEmpty then s
  else if !isFD d.mode || decide (d.fe.val = 2) then s.count Ctr.NOT_CAPTURABLE
  else causes.foldl (binTrigger d.fe d.bin) s

/-- Is the frame of an allocation armed on a context (R221, R736)? -/
def armedOn (s : State) (ctx : Option Nat) (claim : Nat) : Option Nat :=
  match ctx with
  | none => none
  | some n => if (ctxAt s n).armed.contains claim then some n else none

/-- An HDR_FAIL or DEC_FAIL trigger of an armed lane (R222). -/
def laneTrigger (s : State) (ctx : Option Nat) (claim cause : Nat) : State :=
  match armedOn s ctx claim with
  | none => s
  | some n => s.onlyIf (recoveryOn s) fun s => recordCtx s n cause

/-- A frame armed on a context has ended (R219, R736): an ARMED context with no frame left returns to FREE. -/
def disarm (s : State) (ctx : Option Nat) (claim : Nat) : State :=
  match armedOn s ctx claim with
  | none => s
  | some n =>
    let c := ctxAt s n
    let left := c.armed.filter (· ≠ claim)
    if c.stage = .armed && left.isEmpty then freeCtx s n else setCtx s n { c with armed := left }

/-- A lane accepts a PHY header (R223): the frame's end counts for CLOSE_GAP. Frames are kept for a second, longer than any context
can need them. -/
def noteHeader (s : State) (h : Heard) : State :=
  let kept := s.ox.heard.filter fun x => decide (antennaNs s x.fe < x.endNs + 1000000000)
  let s := { s with ox := { s.ox with heard := kept ++ [h] } }
  match binCtx s h.fe h.bin with
  | none => s
  | some n =>
    let c := ctxAt s n
    setCtx s n { c with lastChipNs := some (max h.endNs (c.lastChipNs.getD 0)) }

/-- The frame of an allocation has passed step 5 in its lane (R226). -/
def notePassed (s : State) (claim : Nat) : State :=
  { s with ox := { s.ox with heard := s.ox.heard.map fun h => if h.claim = claim then { h with passed := true } else h } }

/-- Close a RECORDING context: it is QUEUED behind those that closed before (R223, R225). -/
def closeCtx (s : State) (n : Nat) : State :=
  let c := ctxAt s n
  if c.stage = .recording then
    let s := setCtx s n { c with stage := .queued, armed := [], endNs := min (antennaNs s c.fe) (c.startNs + 64000000) }
    { s with ox := { s.ox with queue := s.ox.queue ++ [n] } }
  else s

/-- May a RECORDING context close now (R223)? -/
def ctxDue (s : State) (n : Nat) : Bool :=
  let c := ctxAt s n
  let now := antennaNs s c.fe
  decide (c.stage = .recording) && (decide (c.startNs + 64000000 ≤ now) ||
    (match c.lastChipNs with
     | none => false
     | some t => decide (t + c.closeGap * 1000000 ≤ now)))

/-- Blanking of a front end closes its RECORDING contexts and frees its ARMED ones (R224). -/
def blankCtxs (s : State) (fe : Nat) : State :=
  (List.range 32).foldl (fun s n =>
    let c := ctxAt s n
    if c.fe = fe ∧ c.stage = .recording then closeCtx s n
    else if c.fe = fe ∧ c.stage = .armed then freeCtx s n
    else s) s

/-- Collision recovery turns off (R236). -/
def recoveryOff (s : State) : State :=
  (List.range 32).foldl (fun s n =>
    let c := ctxAt s n
    if c.stage = .recording then closeCtx s n
    else if c.stage = .armed then freeCtx s n
    else s) s

/-- The iteration cap and ALPHA change: codewords that have started keep those in force until now (R174, R205, R215). -/
def newSettings (s : State) (k : State → State) : State :=
  let old : DecSetting := { untilNs := s.time.ns, cap := iterCap s, alpha := s.get Reg.OX_DEC_CTRL.ALPHA }
  let t := k s
  if iterCap t = old.cap ∧ t.get Reg.OX_DEC_CTRL.ALPHA = old.alpha then t
  else { t with ox := { t.ox with jobs := t.ox.jobs.map fun e => (e.1, { e.2 with past := e.2.past ++ [old] }) } }

/-- Apply a change that may turn collision recovery off (R174, R236) and changes the enabled set. -/
def rehear (s : State) (k : State → State) : State :=
  let before := recoveryOn s
  let s := refreshDrain (newSettings s k)
  s.onlyIf (before && !recoveryOn s) recoveryOff

/-! The running codeword of a frame (R202 to R206). -/

/-- Octets of the codeword that a job decodes next (R195). -/
def DecodeJob.octetsNow (j : DecodeJob) : Nat := min j.z (j.len - j.done * j.z)

/-- The TIME_NS at which a job's running codeword starts: its last soft bit has reached Ox (R197, R202, R735). -/
def DecodeJob.startNs (j : DecodeJob) : Nat :=
  let bits := (j.done + 1) * j.z * (blockCols j.cr - 8) + 8 * min j.len ((j.done + 1) * j.z)
  j.syncNs - preambleNs j.mode + symbolsNs j.mode (112 + bits / 2) + feNs j.fe

/-- The cap and ALPHA in force at the start of a job's running codeword (R205, R215). -/
def decSetting (s : State) (j : DecodeJob) : Nat × Nat :=
  match j.past.find? fun p => decide (j.startNs ≤ p.untilNs) with
  | some p => (p.cap, p.alpha)
  | none => (iterCap s, s.get Reg.OX_DEC_CTRL.ALPHA)

/-- Has a decoder that started at `start` had time for `n` iterations of 128 DSP_CLK cycles (R204)? -/
def iterated (s : State) (start n : Nat) : Bool := decide (start ≤ s.time.ns ∧ n * 625 ≤ (s.time.ns - start) * 3)

/-- Payload decoders at work (R214): narrow lanes whose running codeword has started. -/
def decodersBusy (s : State) : Nat :=
  (s.ox.jobs.filter fun e => decide (e.1 < 256) && isFostaic e.2.mode && decide (e.2.startNs ≤ s.time.ns)).length

/-- PEAK_ITER follows a codeword's iterations (R214). -/
def peakIter (s : State) (n : Nat) : State :=
  s.set Reg.OX_DEC_STATUS.PEAK_ITER (max n (s.get Reg.OX_DEC_STATUS.PEAK_ITER))

/-! Announcement tables (R231 to R233). -/

/-- The announcement table of a front end. -/
def raTable (s : State) (fe : Nat) : List RaEntry :=
  if fe = 0 then s.ox.ra0 else if fe = 1 then s.ox.ra1 else s.ox.ra2

/-- Put the announcement table of a front end. -/
def setRa (s : State) (fe : Nat) (t : List RaEntry) : State :=
  if fe = 0 then { s with ox := { s.ox with ra0 := t } }
  else if fe = 1 then { s with ox := { s.ox with ra1 := t } }
  else { s with ox := { s.ox with ra2 := t } }

/-- Is an entry live (R233)? -/
def raLive (s : State) (e : RaEntry) : Bool :=
  !s.elapsedMs e.at_ (100 * min 100 (max 1 (s.get Reg.OX_RA_CTRL.RA_LIFE)))

/-- d of R232. -/
def raDist (e : RaEntry) (c : Nat) : Int := diffN 16 c e.fcBase

/-- The live entry of an address that takes counter `c` at the smallest d (R232). -/
def raHome (s : State) (t : List RaEntry) (short c : Nat) : Option RaEntry :=
  (t.filter fun e => raLive s e && decide (e.short = short ∧ 0 ≤ raDist e c ∧ raDist e c ≤ 7)).foldl
    (fun b e => match b with
      | none => some e
      | some o => if raDist e c < raDist o c then some e else some o) none

/-- The entry whose last renewal or addition lies furthest in the past. -/
def raOldest (t : List RaEntry) : Option RaEntry :=
  t.foldl (fun b e => match b with
    | none => some e
    | some o => if e.at_ < o.at_ then some e else some o) none

/-- A frame with short address and counter enters the table of its front end (R232). An entry whose lifetime has passed keeps its
place, since a longer RA_LIFE revives it (R233), until the table has no other place to give; only a live one that is replaced counts
as RA_EVICT, the model's choice. -/
def raAdd (s : State) (fe short c : Nat) : State :=
  let t := raTable s fe
  match raHome s t short c with
  | some h => setRa s fe (t.map fun e => if e = h then
      { e with map := e.map ||| 2 ^ (raDist e c).toNat, at_ := s.tick } else e)
  | none =>
    let fresh : RaEntry := { short := short, fcBase := c % 65536, map := 1, at_ := s.tick }
    if t.length < 1024 then setRa s fe (t ++ [fresh])
    else match raOldest t with
      | none => s
      | some o =>
        let s' := setRa s fe (t.set (t.idxOf o) fresh)
        if raLive s o then (s'.count Ctr.RA_EVICT).bump Reg.OX_RA_STATUS.EVICT else s'

/-- The entries a beacon on a front end carries, at most `room` and 48: live ones in table order from the place after the
last carried, wrapping; and the place to go on from (R233). -/
def raPick (s : State) (fe room : Nat) : List RaEntry × Nat :=
  let t := if s.flag Reg.OX_RA_CTRL.EN then (raTable s fe).zipIdx else []
  let start := Cells.get s.ox.raNext fe 0
  let l := ((t.drop start ++ t.take start).filter fun e => raLive s e.1).take (min room 48)
  (l.map (·.1), match l.getLast? with | some e => e.2 + 1 | none => start)

/-! The commands. -/

/-- CONTEXT_CLOSE (R223): a RECORDING context closes and is queued; `samples` are the complex samples it holds, in time order. -/
def execContextClose (dt : Nat) (ctx : Fin 32) (samples : List (BitVec 16 × BitVec 16)) (s : State) : Result :=
  whenever dt s (fun s => ctxDue s ctx) fun s =>
    closeCtx (ctxSamples s ctx (samples.take (ctxCountNow s (ctxAt s ctx)))) ctx

/-- CANCELLER_TAKE (R225): a free canceller takes the context that closed first. -/
def execCancellerTake (dt : Nat) (s : State) : Result :=
  whenever dt s (fun s => decide (ctxCount s .processing < 8)) fun s =>
    match s.ox.queue with
    | [] => s
    | n :: rest =>
      let s := setCtx s n { ctxAt s n with stage := .processing }
      { s with ox := { s.ox with queue := rest } }

/-! Frames that pass step 5. -/

/-- LQ of R166 from a signal-to-noise ratio in 1/256 dB: 4 × (SNR + 16) rounded to the nearest, between 0 and 255;
halves go up, the model's choice. -/
def lqOf (snr : Int) : Nat := (max 0 (min 255 ((4 * (snr + 4096) + 128) / 256))).toNat

/-- What an accepted header fixes. -/
structure Accepted where
  seq : Nat := 0
  z : Nat
  cr : Nat := 0
  len : Nat
  fcs2 : Bool := false
  /-- The frame's airtime in 1/256 µs. -/
  air256 : Nat
  deriving DecidableEq, Repr

/-- A PHY header as a lane with this mode and MAX_AIRTIME (ms) accepts it, or not (R192, R208, R209). `tie` decides a bit whose soft
values add to zero. -/
def headerAccept (s : State) (fe bin mode maxAir tie : Nat) (h : PhyHeader) : Option Accepted :=
  let modes := ((subbandOf s fe bin).map (·.modes)).getD 0
  let fits := fun t256 => bit modes mode && decide (t256 ≤ maxAir * 1000 * 256)
  match h with
  | .fostaic soft =>
    let h := headerOf tie soft
    let t := airtime256 (hdrMode h) (hdrLen h) (hdrZ h) (hdrCR h)
    if isFostaic mode && decide (bits h 31 24 = headerCrc h ∧ hdrCR h ≠ 3 ∧ 5 ≤ hdrLen h ∧ hdrMode h = mode) && fits t then
      some { seq := hdrSeq h, z := hdrZ h, cr := hdrCR h, len := hdrLen h, air256 := t }
    else none
  | .sun mdsss rate fcs2 len =>
    let t := Config.sunAirtimeUs rate len * 256
    if decide (mode = modeSUN ∧ 5 ≤ len ∧ len ≤ 2047) && !mdsss && fits t then
      some { z := len, len := len, fcs2 := fcs2, air256 := t }
    else none
  | .oqpsk len =>
    let t := oqpskAirtimeUs len * 256
    if decide (mode = modeOQPSK ∧ 5 ≤ len ∧ len ≤ 127) && fits t then
      some { z := len, len := len, fcs2 := true, air256 := t }
    else none

/-- A received PSDU without its FCS enters step 6 of R33 (R207, R229). -/
def enterUp (s : State) (lane : Option Nat) (recovered : Bool) (j : DecodeJob) (psdu : List Byte) : State :=
  let first := j.syncNs - preambleNs j.mode
  let u : UpFrame := { id := s.nextFrame, lane := lane, fe := j.fe, bin := j.bin, mode := j.mode, cr := j.cr, seq := j.seq
                       recovered := recovered, rssi := j.rssi, lq := j.lq, syncNs := j.syncNs, firstNs := first
                       endNs := j.endNs, len := j.len, frame := frameOf (psdu.take (psdu.length - if j.fcs2 then 2 else 4)) }
  let s := s.portRx j.fe j.len (ceilDiv (j.endNs - first) 1000)
  { s with up := s.up ++ [u], nextFrame := s.nextFrame + 1 }

/-! The layers of a canceller (R226 to R229). -/

/-- The reference of layer 1 (R226): of the frames in the context that have passed step 5 in a lane, the one with the highest RSSI,
and among equal RSSI the earliest sync timestamp. -/
def laneReference (s : State) (c : Context) : Option Heard :=
  (s.ox.heard.filter fun h => h.passed && h.lies c.fe c.bin c.startNs c.endNs).foldl (fun b h => match b with
    | none => some h
    | some o => if o.rssi < h.rssi ∨ (o.rssi = h.rssi ∧ h.syncNs < o.syncNs) then some h else some o) none

/-- May a canceller choose this detection (R226): an FD mode of the sub-band's MODES, with 16 symbols of its preamble in the
context? -/
def layerFits (s : State) (c : Context) (f : LayerFrame) (firstNs : Nat) : Bool :=
  let modes := ((subbandOf s c.fe c.bin).map (·.modes)).getD 0
  isFD f.mode && bit modes f.mode &&
    decide (c.startNs + symbolsNs f.mode 16 ≤ firstNs + preambleNs f.mode ∧ firstNs + symbolsNs f.mode 16 ≤ c.endNs)

/-- Decode the codewords of a frame one after another (R203 to R206): the most iterations one used, and the whitened octets unless
one fails. -/
def decodeAll (cap alpha tie : Nat) : Nat → DecodeJob → List (List Int) → Nat × Option (List Byte)
  | 0, j, _ => (0, some j.octets)
  | n + 1, j, soft =>
    let r := decodeCodeword j.z j.cr j.octetsNow cap alpha tie (soft.headD [])
    match r.2 with
    | none => (r.1, none)
    | some o =>
      let t := decodeAll cap alpha tie n { j with octets := j.octets ++ o, done := j.done + 1 } soft.tail
      (max r.1 t.1, t.2)

/-- The job that a detection in a residual amounts to, if its sync word and its header are accepted (R159 to R166, R192). -/
def layerJob (s : State) (c : Context) (f : LayerFrame) : Option DecodeJob :=
  let tol := ((subbandOf s c.fe c.bin).map (·.syncTol)).getD 0
  let maxAir := min 400 (max 10 (s.get Reg.CHAN_LANE_CTRL.MAX_AIRTIME))
  if tol < popCount 32 (f.sync % 2 ^ 32 ^^^ syncWord) then none
  else (headerAccept s c.fe c.bin f.mode maxAir s.free (.fostaic f.header)).map fun h =>
    { claim := 0, fe := c.fe, bin := c.bin, mode := f.mode, seq := h.seq, cr := h.cr, z := h.z, len := h.len, afc := f.m.afc
      rssi := atAntenna s c.fe f.m.power, lq := lqOf f.m.snr, overlap := true, syncNs := f.m.syncAt
      endNs := f.m.syncAt - preambleNs f.mode + h.air256 * 1000 / 256 }

/-- Has this frame passed step 5 in a lane already (R226)? It is the frame of its mode at its timing on the bin. -/
def alreadyPassed (s : State) (j : DecodeJob) : Bool :=
  s.ox.heard.any fun h => h.passed && decide (h.fe = j.fe ∧ h.bin = j.bin ∧ h.mode = j.mode ∧
    h.syncNs ≤ j.syncNs + fourChipsNs j.mode ∧ j.syncNs ≤ h.syncNs + fourChipsNs j.mode)

/-- A layer has run (R226, R227): the reference is regenerated and subtracted from the samples, and the next layer follows unless
LAYER_MAX have run. -/
def layerRan (s : State) (n : Nat) (c : Context) : State :=
  let s := ctxScramble s n
  if c.layer < c.layerMax then setCtx s n c else freeCtx s n

/-- A layer works on the strongest detection of the residual (R226). -/
def layerDecode (s : State) (n : Nat) (c : Context) (f : LayerFrame) : State :=
  match layerJob s c f with
  | none => freeCtx (s.drawn.count Ctr.LAYER_FAIL) n
  | some j =>
    let r := decodeAll (iterCap s) (alphaActs (s.get Reg.OX_DEC_CTRL.ALPHA)) s.free (codewords j.len j.z) j f.soft
    let s := peakIter s.drawn r.1
    match r.2 with
    | none => freeCtx (s.count Ctr.LAYER_FAIL) n
    | some o =>
      if !psduCrcOk (whitened o) then freeCtx (s.count Ctr.LAYER_FAIL) n
      else if alreadyPassed s j then layerRan s n c
      else layerRan (enterUp s none true j (whitened o)) n { c with recovered := c.recovered + 1 }

/-- CANCEL_LAYER_DONE (R226, R227): a layer of a context ends. In layer 1 a frame that a lane has passed is the reference, whatever
the residual shows. -/
def execCancelLayerDone (dt : Nat) (ctx : Fin 32) (e : LayerIn) (s : State) : Result :=
  whenever dt s (fun s => decide ((ctxAt s ctx).stage = .processing)) fun s =>
    let c := { ctxAt s ctx with layer := (ctxAt s ctx).layer + 1 }
    let fromLane := if c.layer = 1 then laneReference s c else none
    match e, fromLane with
    | .uncorrectable, _ => freeCtx ((s.drawn.ddrUncorr s.free).count Ctr.CAP_ABORT) ctx
    | _, some h => if isFD h.mode then layerRan s ctx c else freeCtx s ctx
    | .nothing, none => freeCtx s ctx
    | .found f, none =>
      if layerFits s c f (f.m.syncAt - preambleNs f.mode) then layerDecode s ctx c f else freeCtx s ctx

end Sys2Proof.Machine
end

