-- ==== Sys2Proof/Machine/Queues.lean ====
section
/-!
DEFINITION. Queues, the cell pool, protected FIFOs and core mailboxes (R379 to R403).
-/

namespace Sys2Proof.Machine

/-- Put the QMGR block. -/
def State.setQ (s : State) (q : QueueState) : State := { s with q := q }

/-- The packets of a queue, head first. -/
def queueAt (s : State) (q : Nat) : List Packet := Cells.get s.q.queues q []

/-- Put the packets of a queue. -/
def setQueue (s : State) (q : Nat) (l : List Packet) : State :=
  s.setQ { s.q with queues := Cells.set s.q.queues q l [] }

/-- The cells of a packet (R382). -/
def pktCells (p : Packet) : Nat := ceilDiv p.len 248

/-- The cells of packets, and those on chip. -/
def cellsOf (l : List Packet) : Nat := (l.map pktCells).sum
def onchipOf (l : List Packet) : Nat := cellsOf (l.filter (·.onchip))

/-- Every packet that holds cells: those in queues. A packet that moved into the retry store has left them (R411). -/
def heldPackets (s : State) : List Packet := s.q.queues.flatMap (·.2)

/-- Free LP4X cells, on-chip cells and on-chip descriptors (R380, R381, R403). -/
def poolCells (s : State) : Nat := if s.flag Reg.QMGR_BUF_BASE.EN then (s.get Reg.QMGR_BUF_BASE.SIZE + 1) * 262144 else 0
def freeCells (s : State) : Nat :=
  poolCells s - cellsOf ((heldPackets s).filter fun p => !p.onchip) - s.q.lost.length
def freeOnchip (s : State) : Nat := 7680 - onchipOf (heldPackets s)
def freeDesc (s : State) : Nat := 8192 - ((heldPackets s).filter (·.onchip)).length

/-- Microseconds of TIME_NS in 32 bits (R383). -/
def State.nowUs (s : State) : Nat := s.time.ns / 1000 % 2 ^ 32

/-- Does the packet go on chip (R385)? -/
def goesOnchip (s : State) (q : Nat) (p : Packet) : Bool :=
  decide (onchipOf (queueAt s q) + pktCells p ≤ min 7680 (s.get (Reg.QMGR_Q_CFG.SPILL_THRESH q)) ∧
    1 ≤ freeDesc s ∧ pktCells p ≤ freeOnchip s)

/-- The cause with which an enqueue is refused, if it is (R384). -/
def enqueueCause (s : State) (q : Nat) (p : Packet) : Option Nat :=
  let reserve := if p.cls ≤ 1 then 0 else s.get Reg.QMGR_POOL_CFG.RESERVE
  if !s.flag (Reg.QMGR_Q_CFG.EN q) then some 1
  else if 4096 < p.len then some 2
  else if s.get (Reg.QMGR_Q_CFG.QMAX q) < cellsOf (queueAt s q) + pktCells p then some 3
  else if freeCells s < pktCells p + reserve ∧ !goesOnchip s q p then some 4
  else none

/-- QUEUE_DROP, at most once in each 1 ms window (R402). -/
def queueDrop (s : State) (q cause : Nat) : State :=
  let r := s.q.dropWindow.add s.msNow
  let s := s.setQ { s.q with dropWindow := r.1 }
  let block := if 7 ≤ cause then Block.CRYPTO else Block.QMGR
  if r.2 then s.event Ev.QUEUE_DROP block
    (at' (if 7 ≤ cause then 0 else q) 14 34 + at' cause 4 30 + at' (min r.1.previous 65535) 16 0)
  else s.count Ev.QUEUE_DROP

/-! Packets in LP4X (R380 to R383). No rule says which free cell or descriptor a packet takes. -/

/-- The first of `count` places, from `start` on, that is not in use; the fuel is as many as are in use. -/
def unused (used : List Nat) (count : Nat) : Nat → Nat → Nat
  | 0, start => start % count
  | n + 1, start => if used.contains (start % count) then unused used count n (start + 1) else start % count

/-- Any place that is not in use. -/
def anyUnused (s : State) (used : List Nat) : Nat := unused used (poolCells s) used.length s.free

/-- Cells and descriptors of LP4X in use. -/
def usedCells (s : State) : List Nat := (heldPackets s).flatMap (·.cells) ++ s.q.lost
def usedDescs (s : State) : List Nat := ((heldPackets s).filter fun p => !p.onchip).map (·.desc)

/-- `n` free cells. -/
def takeCells (s : State) : Nat → List Nat → List Nat × State
  | 0, got => (got, s)
  | n + 1, got => takeCells s.drawn n (got ++ [anyUnused s (usedCells s ++ got)])

/-- The addresses of a cell and of a descriptor. -/
def bufBase (s : State) : Nat := s.get Reg.QMGR_BUF_BASE.ADDR * 2 ^ 20
def cellAddr (s : State) (c : Nat) : Nat := bufBase s + 256 * c
def pktDescAddr (s : State) (d : Nat) : Nat := bufBase s + 256 * poolCells s + 16 * d

/-- The octets of a packet as its cells hold them: of a radio packet's MAC header no rule says which. -/
def pktOctets (s : State) (p : Packet) : List Byte := octetsOf s.free (p.len - p.data.length) ++ p.data

/-- Fill cells with a packet's octets; the NEXT of the last one is open (R382). -/
def writeCells (s : State) : List Nat → List Byte → State
  | [], _ => s
  | c :: cs, bs =>
    let s := s.ddrReplace (cellAddr s c) (bs.take 248)
    let s := s.ddrReplace (cellAddr s c + 248) (leBytes 8 (cs.headD (s.free % 2 ^ 22)))
    writeCells s.drawn cs (bs.drop 248)

/-- Write the descriptor of a packet in LP4X (R383): NEXT_ONCHIP and NEXT are those of `next`. -/
def writePktDesc (s : State) (p : Packet) (next : Nat) : State :=
  let w0 := at' (p.cells.headD 0) 22 42 + at' p.len 13 28 + at' p.cls 3 25 + at' p.record 18 7
  s.ddrReplace (pktDescAddr s p.desc) (leBytes 8 w0 ++ leBytes 8 (at' next 23 41 + at' p.enqUs 32 0))

/-- A packet goes to LP4X: it has its cells and its descriptor, whose NEXT is open while it is the last of its queue. -/
def spill (s : State) (p : Packet) : Packet × State :=
  let c := takeCells s (pktCells p) []
  let p := { p with cells := c.1, desc := anyUnused c.2 (usedDescs s) }
  let s := writeCells c.2.drawn.drawn p.cells (pktOctets c.2.drawn p)
  (p, writePktDesc s.drawn p s.free)

/-- The last packet of a queue, if it lies in LP4X, names the one that follows it; of one on chip no rule gives the number. -/
def linkLast (s : State) (q : Nat) (p : Packet) : State :=
  match (queueAt s q).getLast? with
  | none => s
  | some l => s.onlyIf (!l.onchip) fun s =>
      if p.onchip then writePktDesc s.drawn l (2 ^ 22 + s.free % 2 ^ 22) else writePktDesc s l (p.desc % 2 ^ 22)

/-- Offer a packet to a queue (R384, R385); also whether it was enqueued. -/
def enqueue (s : State) (q : Nat) (p : Packet) : State × Bool :=
  match enqueueCause s q p with
  | some c => (queueDrop s q c, false)
  | none =>
    let p := { p with queue := q, enqUs := s.nowUs, onchip := goesOnchip s q p }
    let r := if p.onchip then (p, s) else spill s p
    (setQueue (linkLast r.2 q r.1) q (queueAt s q ++ [r.1]), true)

/-- Is a packet past LIFE_MS (R387)? -/
def stale (s : State) (q : Nat) (p : Packet) : Bool :=
  let life := s.get (Reg.QMGR_Q_CFG.LIFE_MS q)
  decide (life ≠ 0 ∧ ((life * 1000 : Nat) : Int) < diffN 32 s.nowUs p.enqUs)

/-- Drop the stale packets at the head of a queue (R387). -/
def dropStale (s : State) (q : Nat) : State :=
  let l := queueAt s q
  let gone := l.takeWhile (stale s q)
  let s := s.onlyIf (!gone.isEmpty) fun s => setQueue s q (l.drop gone.length)
  gone.foldl (fun s _ => queueDrop s q 5) s

/-- Take the head packet of a queue, which may meet an uncorrectable LP4X word (R388). -/
def dequeue (s : State) (q : Nat) (err : MemErr) : State × Option Packet :=
  match queueAt s q with
  | [] => (s, none)
  | p :: rest =>
    let err := if p.onchip then MemErr.none else err
    let s := s.onlyIf (decide (err = .packet ∨ err = .link)) fun s => s.drawn.ddrUncorr s.free
    match err with
    | .none => (setQueue s q rest, some p)
    | .corrected n => (setQueue (s.ddrCorrected n) q rest, some p)
    | .packet => (queueDrop (setQueue s q rest) q 6, none)
    | .link =>
      let s := rest.foldl (fun s _ => queueDrop s q 6) (queueDrop s q 6)
      let s := setQueue s q []
      (s.setQ { s.q with lost := s.q.lost ++ (p :: rest).flatMap (·.cells) }, none)

/-- CELL_RECLAIM (R388): the pool scan reclaims the cells of a queue emptied by a broken link. -/
def execCellReclaim (dt : Nat) (s : State) : Result := step' dt s fun s => s.setQ { s.q with lost := [] }

/-! Mailboxes (R396 to R401). -/

/-- The core-bound queue of core `k` and class `c` (R379). -/
def coreQueue (k c : Nat) : Nat := 14336 + 8 * k + c

/-- The words of MBOX_RX_n and MBOX_TX_n. -/
def mboxRx (s : State) (n : Nat) : List FifoWord := Cells.get s.q.rx n []
def mboxTx (s : State) (n : Nat) : List FifoWord := Cells.get s.q.tx n []
def setMboxRx (s : State) (n : Nat) (l : List FifoWord) : State := s.setQ { s.q with rx := Cells.set s.q.rx n l [] }
def setMboxTx (s : State) (n : Nat) (l : List FifoWord) : State := s.setQ { s.q with tx := Cells.set s.q.tx n l [] }

/-- Octets as 64-bit words in the octet order of R396. -/
def toWords : Nat → List Byte → List Nat
  | 0, _ => []
  | n + 1, bs => leNat (bs.take 8) :: toWords n (bs.drop 8)

/-- The words of a core-bound packet: header, time and data, the last with EOP (R396). -/
def mboxWords (p : Packet) : List FifoWord :=
  let n := ceilDiv p.len 8
  let data := toWords n p.data
  { data := p.head, sop := true } :: { data := p.time } ::
    (data.zipIdx.map fun d => { data := d.1, eop := decide (d.2 + 1 = n) })

/-- The header word of R396. -/
def mboxHead (kind port cls tenant record : Nat) (unsecured : Bool) (form len : Nat) : Nat :=
  at' kind 4 60 + at' port 4 56 + at' cls 3 53 + at' tenant 8 45 + at' record 18 27 + at' (b2n unsecured) 1 26
    + at' form 2 24 + at' len 13 0

/-- DEFAULT_CORE (R378). -/
def defaultCore (s : State) : Nat := s.get Reg.FWD_PIPE_CTRL.DEFAULT_CORE

/-- Send octets to a core: the packet enters the core-bound queue of its class (R377, R379, R396). -/
def toCore (s : State) (core kind port cls tenant record : Nat) (unsecured : Bool) (form time : Nat)
    (data : List Byte) : State :=
  (enqueue s (coreQueue core cls)
    { cls := cls, tenant := tenant, record := record, len := data.length, data := data, time := time
      head := mboxHead kind port cls tenant record unsecured form data.length }).1

/-- Has MBOX_RX_n room for the whole packet (R397)? -/
def mboxRoom (s : State) (core : Nat) (p : Packet) : Bool := decide ((mboxRx s core).length + (mboxWords p).length ≤ 1024)

/-- Move the first packet of a core's queues of these classes (R397): the stale packets at a queue's head go as it is served
(R387), and a packet that does not fit holds up the classes behind it. -/
def mboxServe (s : State) (core : Nat) (err : MemErr) : List Nat → State
  | [] => s
  | c :: cs =>
    let q := coreQueue core c
    match (queueAt s q).dropWhile (stale s q) with
    | [] => mboxServe (dropStale s q) core err cs
    | p :: _ =>
      if !mboxRoom s core p then s
      else
        let r := dequeue (dropStale s q) q err
        match r.2 with
        | none => r.1
        | some p => setMboxRx (r.1.portTx 7 p.len 0) core (mboxRx r.1 core ++ mboxWords p)

/-- MBOX_RX_MOVE (R397): the head packet of a core's queues moves into its mailbox when the FIFO has room. -/
def execMboxRxMove (dt : Nat) (core : Fin 4) (err : MemErr) (s : State) : Result :=
  step' dt s fun s => mboxServe s core err (List.range 8)

/-- A 64-bit read of a FIFO that firmware drains leaves its reader inside or between packets (R394). -/
def noteRead (s : State) (fifo : Nat) (eop : Bool) : State :=
  s.setQ { s.q with midRead := (s.q.midRead.filter (· ≠ fifo)) ++ (if eop then [] else [fifo]) }

/-- A 64-bit read of QMGR_MBOX_RX_DATA_n (R394, R739). -/
def mboxPop (s : State) (n : Nat) (ecc : Ecc) : State :=
  match mboxRx s n with
  | [] => s.answer 0
  | w :: rest =>
    let s := fifoRead (setMboxRx s n rest) (Fifo.MBOX_RX n) Block.QMGR false false ecc
    let s := noteRead s (Fifo.MBOX_RX n) w.eop
    let s := ((s.setFlag (Reg.QMGR_MBOX_RX_STATUS.SOP n) w.sop).setFlag (Reg.QMGR_MBOX_RX_STATUS.EOP n) w.eop).setFlag
      (Reg.QMGR_MBOX_RX_STATUS.POISON n) (decide (ecc = .uncorrectable))
    s.answer w.data

/-- MBOX_RX_POP (R739, R392): a 64-bit read pops one mailbox word. -/
def execMboxRxPop (dt : Nat) (n : Fin 4) (ecc : Ecc) (s : State) : Result := step' dt s fun s => mboxPop s n ecc

/-- The words after the next EOP. -/
def afterEop (l : List FifoWord) : List FifoWord := (l.dropWhile fun w => !w.eop).drop 1

/-- A write of QMGR_FIFO_DROP (R394). -/
def writeFifoDrop (s : State) (v : Nat) : State :=
  let f := bits v 3 0
  if !bit v 63 || !s.q.midRead.contains f then s
  else if f = Fifo.LEARN then
    let s := noteRead (s.setTables { s.tables with learn := afterEop s.tables.learn }) f true
    ((s.setFlag Reg.FWD_LEARN_STATUS.SOP false).setFlag Reg.FWD_LEARN_STATUS.EOP true).setFlag
      Reg.FWD_LEARN_STATUS.POISON false
  else if 5 ≤ f ∧ f ≤ 8 then
    let n := f - 5
    let s := noteRead (setMboxRx s n (afterEop (mboxRx s n))) f true
    ((s.setFlag (Reg.QMGR_MBOX_RX_STATUS.SOP n) false).setFlag (Reg.QMGR_MBOX_RX_STATUS.EOP n) true).setFlag
      (Reg.QMGR_MBOX_RX_STATUS.POISON n) false
  else s

/-- FIFO_DROP_REST (R394). -/
def execFifoDropRest (dt : Nat) (value : Word) (s : State) : Result :=
  step' dt s fun s => (writeFifoDrop s value.toNat).answer 0

/-- A word is pushed into MBOX_TX_n (R398, R400). -/
def mboxPush (s : State) (n v : Nat) (eop : Bool) : State :=
  let l := mboxTx s n
  if 1024 ≤ l.length then
    (s.setQ { s.q with txBroken := n :: s.q.txBroken }).setFlag (Reg.QMGR_MBOX_TX_STATUS.OVF n) true
  else setMboxTx s n (l ++ [{ data := v, sop := l.isEmpty, eop := eop }])

/-- MBOX_TX_PUSH (R398): a write of QMGR_MBOX_TX_DATA. -/
def execMboxTxPush (dt : Nat) (n : Fin 4) (value : Word) (s : State) : Result :=
  step' dt s fun s => (mboxPush s n value.toNat false).answer 0

/-- The packet that firmware has written into MBOX_TX_n leaves the FIFO; also its words, and whether one was lost. -/
def takeMbox (s : State) (n : Nat) : State × List FifoWord × Bool :=
  let l := mboxTx s n
  let broken := s.q.txBroken.contains n
  let s := setMboxTx s n []
  (s.setQ { s.q with txBroken := s.q.txBroken.filter (· ≠ n) }, l, broken)

/-- Reject a mailbox packet (R399). -/
def mboxReject (s : State) (n cause : Nat) : State :=
  (s.setFlag (Reg.QMGR_MBOX_TX_STATUS.REJECT n) true).set (Reg.QMGR_MBOX_TX_STATUS.CAUSE n) cause

/-- The cause with which a mailbox packet is rejected, if it is (R399). -/
def mboxCause (s : State) (words : List FifoWord) (poison : Bool) : Option Nat :=
  match words with
  | [] => some 2
  | h :: data =>
    let kind := bits h.data 63 60
    let queue := bits h.data 59 46
    let record := bits h.data 45 28
    let len := bits h.data 12 0
    if poison then some 4
    else if kind = 0 ∨ 4 < kind then some 1
    else if len = 0 ∨ 4096 < len ∨ data.length ≠ ceilDiv len 8 then some 2
    else if (kind = 2 ∨ kind = 4) ∧ (if record = 0x3FFFF then 2 < queue / 2048 else queue / 2048 ≠ recHomeFe s record) then
      some 3
    else if kind = 3 ∧ (queue / 2048 < 3 ∨ 6 < queue / 2048) then some 3
    else none

/-- The data octets of a mailbox packet. -/
def mboxData (words : List FifoWord) (len : Nat) : List Byte :=
  ((words.drop 1).flatMap fun w => leBytes 8 w.data).take len

end Sys2Proof.Machine
end

