-- ==== Sys2Proof/Machine/Sched.lean ====
section
/-!
DEFINITION. The scheduler (R404 to R425): costs, buckets and the timing wheel, duty shapers, the choice of a packet for a
cell or a wired port, and policers.
-/

namespace Sys2Proof.Machine

/-- Put the SCHED block. -/
def State.setSched (s : State) (c : SchedState) : State := { s with sched := c }

/-- The broadcast record number (R407). -/
def broadcast : Nat := 0x3FFFF

/-! Cost (R405, R406). -/

/-- The mode, code rate and PSDU octets of a radio packet on a front end (R405). -/
def pktMode (s : State) (fe : Nat) (p : Packet) : Nat :=
  if p.record = broadcast then Config.broadcastMode fe else recMode s p.record
def pktCR (s : State) (fe : Nat) (p : Packet) : Nat :=
  if p.record = broadcast then Config.broadcastCR fe else recCR s p.record
/-- The security level of a packet's frame (R287, R289). -/
def pktLevel (s : State) (fe : Nat) (p : Packet) : Nat :=
  if p.record = broadcast then ([1, 2, 3, 5, 6, 7] : List Nat).getD (Config.broadcastPick fe % 6) 7 else recLevel s p.record
def pktPsdu (s : State) (fe : Nat) (p : Packet) : Nat := p.len + micLen (pktLevel s fe p) + fcsLen fe
def pktAirtime (s : State) (fe : Nat) (p : Packet) : Nat :=
  ownAirtimeUs (pktMode s fe p) (pktPsdu s fe p) (pktCR s fe p)

/-- The bytes of a wired frame on the wire (R406): `len` counts the frame without its FCS. On group 3 a frame carries the PRP
trailer while PRP is on (R474). -/
def wireBytes (s : State) (port len : Nat) : Nat :=
  max 64 ((if port = 3 ∧ s.flag Reg.ETH_PRP_CTRL.PRP_EN then max 54 len + 6 else len) + 4) + 20

/-! Buckets (R413, R414). -/

def bucketCommitted (q : Nat) : Nat := 3 * q
def bucketPeak (q : Nat) : Nat := 3 * q + 1
def bucketTenant (port t : Nat) : Nat := 3 * (256 * port + t) + 2

/-- Rate and depth of a bucket (R413, R416): a write in the same cycle applies after the release. -/
def bucketRate (s : State) (b : Nat) : Nat :=
  let q := b / 3
  if b % 3 = 0 then s.before (Reg.SCHED_Q_RATE.CIR q)
  else if b % 3 = 1 then
    let pir := s.before (Reg.SCHED_Q_RATE.PIR q)
    if pir = 0 then 0 else max pir (s.before (Reg.SCHED_Q_RATE.CIR q))
  else s.before (Reg.SCHED_T_PIR.T_PIR q)
def bucketDepth (s : State) (b : Nat) : Nat :=
  let q := b / 3
  if b % 3 = 0 then s.before (Reg.SCHED_Q_BURST.CBS q)
  else if b % 3 = 1 then s.before (Reg.SCHED_Q_BURST.PBS q)
  else s.before (Reg.SCHED_T_CFG.T_PBS q)

/-- A peak or tenant bucket of rate 0 sets no limit. -/
def unlimited (s : State) (b : Nat) : Bool := decide (b % 3 ≠ 0 ∧ bucketRate s b = 0)

/-- A bucket with the tokens it has gained by now (R414): 16 fractional bits. -/
def bucketNow (s : State) (b : Nat) : Bucket :=
  let k := Cells.get s.sched.buckets b {}
  let gain := bucketRate s b * (s.time.ns - k.atNs) * 65536 / 1000000000
  { tokens := min (k.tokens + gain) ((bucketDepth s b * 65536 : Nat) : Int), atNs := s.time.ns }

/-- Put a bucket. -/
def setBucket (s : State) (b : Nat) (k : Bucket) : State :=
  s.setSched { s.sched with buckets := Cells.set s.sched.buckets b k {} }

/-- Is a bucket on the timing wheel (R415)? -/
def onWheel (s : State) (b : Nat) : Bool := s.sched.wheel.any fun e => decide (e.bucket = b)

/-- Does a bucket allow release (R414, R415)? -/
def allows (s : State) (b : Nat) : Bool :=
  unlimited s b || (!onWheel s b && decide (0 ≤ (bucketNow s b).tokens))

/-- Place a bucket that is due at `due` µs on the wheel (R415). -/
def placeOn (s : State) (b due : Nat) : State :=
  let now := s.nowUs
  let d := diffN 32 due now
  let e : WheelEntry :=
    if d < 4096 then { bucket := b, due := due, slot := due, fine := true }
    else if d < 16777216 then { bucket := b, due := due, slot := due / 4096 * 4096, fine := false }
    else { bucket := b, due := due, slot := (now + 16773120) % 2 ^ 32 / 4096 * 4096, fine := false }
  s.setSched { s.sched with wheel := (s.sched.wheel.filter fun x => decide (x.bucket ≠ b)) ++ [e] }

/-- Subtract a cost from a bucket; left negative, it enters the wheel (R414, R415). -/
def debit (s : State) (b cost : Nat) : State :=
  if unlimited s b then s
  else
    let k := bucketNow s b
    let t := k.tokens - ((cost * 65536 : Nat) : Int)
    let s := setBucket s b { k with tokens := t }
    let r := bucketRate s b
    if t < 0 ∧ r ≠ 0 then
      placeOn s b ((s.nowUs + ceilDiv ((-t).toNat * 1000000) (r * 65536)) % 2 ^ 32)
    else s

/-- Return a cost to a bucket (R410, R412); a bucket that is no longer negative leaves the wheel. -/
def credit (s : State) (b cost : Nat) : State :=
  if unlimited s b then s
  else
    let k := bucketNow s b
    let t := min (k.tokens + ((cost * 65536 : Nat) : Int)) ((bucketDepth s b * 65536 : Nat) : Int)
    let s := setBucket s b { k with tokens := t }
    s.onlyIf (decide (0 ≤ t)) fun s =>
      s.setSched { s.sched with wheel := s.sched.wheel.filter fun x => decide (x.bucket ≠ b) }

/-- WHEEL_DUE (R415): the wheel slot of a bucket comes due. -/
def execWheelDue (dt : Nat) (bucket : Nat) (s : State) : Result :=
  step' dt s fun s =>
    match s.sched.wheel.find? fun e => decide (e.bucket = bucket) with
    | none => s
    | some e =>
      if diffN 32 s.nowUs e.slot < 0 then s
      else if diffN 32 s.nowUs e.due < 0 then placeOn s bucket e.due
      else s.setSched { s.sched with wheel := s.sched.wheel.filter fun x => decide (x.bucket ≠ bucket) }

/-! Duty (R417 to R421). -/

/-- The duty shaper of a sub-band. -/
def dutyAt (s : State) (sb : Nat) : Duty := Cells.get s.sched.duty sb {}

/-- The second whose bucket takes debits now (R417). -/
def dutySecond (s : State) : Nat := s.time.ns / 1000000000 % 3600

/-- USED of a shaper. -/
def dutyUsed (d : Duty) : Nat := (d.seconds.map (·.2)).sum

/-- Put a shaper; USED follows it. -/
def setDuty (s : State) (sb : Nat) (d : Duty) : State :=
  (s.setSched { s.sched with duty := Cells.set s.sched.duty sb d {} }).set (Reg.SCHED_DUTY_STATUS.USED sb) (dutyUsed d)

/-- The limit of R418 in µs: for classes 2 to 7 and wake-up patterns, or for all else. -/
def dutyLimit (s : State) (sb : Nat) (low : Bool) : Nat :=
  (s.get (Reg.SCHED_DUTY_CFG.HOUR_MS sb) - (if low then s.get (Reg.SCHED_DUTY_CFG.RESERVE_MS sb) else 0)) * 1000

/-- A whole second begins (R417, R421): its bucket clears, and HOLD may fall. -/
def dutySecondBegins (s : State) (k : Nat) : State :=
  (List.range 32).foldl (fun s sb =>
    let d := dutyAt s sb
    let d := { d with seconds := Cells.erase d.seconds k }
    let s := setDuty s sb d
    s.onlyIf (decide (s.get (Reg.SCHED_DUTY_STATUS.HOLD sb) ≠ 0 ∧ dutyUsed d + 1000000 ≤ d.limit)) fun s =>
      s.set (Reg.SCHED_DUTY_STATUS.HOLD sb) 0) s

/-- The whole seconds that have begun since the last one that was noticed (R417); after a step backwards, the present one. -/
def dutyTurn (s : State) : State :=
  let now := s.time.ns / 1000000000
  let last := s.sched.dutySec
  if now = last then s
  else
    let n := if now < last then 1 else min 3600 (now - last)
    let s := (List.range n).foldl (fun s i => dutySecondBegins s ((now + 1 - n + i) % 3600)) s
    s.setSched { s.sched with dutySec := now }

/-- Is an emission admitted (R418)? -/
def dutyAdmits (s : State) (sb us : Nat) (low : Bool) : Bool :=
  decide (s.get (Reg.SCHED_DUTY_CFG.HOUR_MS sb) = 3600000) ||
    decide (dutyUsed (dutyAt (dutyTurn s) sb) + us ≤ dutyLimit s sb low)

/-- An emission is not admitted: HOLD rises and DUTY_HOLD is raised, or nothing happens (R421). -/
def dutyHold (s : State) (sb : Nat) (low : Bool) : State :=
  let s := dutyTurn s
  let level := if low then 1 else 2
  if s.get (Reg.SCHED_DUTY_STATUS.HOLD sb) < level then
    let d := dutyAt s sb
    let s := (setDuty s sb { d with limit := dutyLimit s sb low }).set (Reg.SCHED_DUTY_STATUS.HOLD sb) level
    s.event Ev.DUTY_HOLD Block.SCHED (at' sb 5 43 + at' level 2 41 + at' (min (dutyUsed d / 1000) (2 ^ 22 - 1)) 22 0)
  else s

/-- Debit airtime to the present second, whose bucket clears before (R417, R420). -/
def dutyDebit (s : State) (sb us : Nat) : State :=
  let s := dutyTurn s
  let d := dutyAt s sb
  let k := dutySecond s
  setDuty s sb { d with seconds := Cells.set d.seconds k (Cells.get d.seconds k 0 + us) 0 }

/-- Return airtime to the bucket that was debited, unless it has been cleared since (R420). -/
def dutyCredit (s : State) (sb second us : Nat) : State :=
  let d := dutyAt s sb
  setDuty s sb { d with seconds := Cells.set d.seconds second (Cells.get d.seconds second 0 - us) 0 }

/-! Deficits (R409). -/

def roundNo (excess : Bool) : Nat := b2n excess
def tenantKey (port : Nat) (excess : Bool) (t : Nat) : Nat := 512 * port + 256 * roundNo excess + t
def classKey (q : Nat) (excess : Bool) : Nat := 2 * q + roundNo excess

def deficit (s : State) (k : Nat) : Nat := Cells.get s.sched.deficits k 0
def setDeficit (s : State) (k v : Nat) : State :=
  s.setSched { s.sched with deficits := Cells.set s.sched.deficits k v 0 }
def classDeficit (s : State) (k : Nat) : Nat := Cells.get s.sched.classDeficits k 0
def setClassDeficit (s : State) (k v : Nat) : State :=
  s.setSched { s.sched with classDeficits := Cells.set s.sched.classDeficits k v 0 }

/-- What a port can release now: a packet, the queue it stands in, its cost, and whether it is in the retry store. -/
structure Offer where
  queue : Nat
  pkt : Packet
  cost : Nat
  retry : Bool
  deriving DecidableEq, Repr

/-- The tenant and class of an offer. -/
def Offer.tenant (o : Offer) : Nat := o.queue % 2048 / 8
def Offer.cls (o : Offer) : Nat := o.queue % 8

/-- Does a queue compete in a round (R408, R413)? -/
def roundAllows (s : State) (port : Nat) (excess : Bool) (q : Nat) : Bool :=
  allows s (bucketPeak q) &&
    (if excess then allows s (bucketTenant port (q % 2048 / 8)) else allows s (bucketCommitted q))

/-- The queues of a port that hold packets, or have packets in the retry store. -/
def busyQueues (s : State) (port : Nat) : List Nat :=
  let held := (s.q.queues.filter fun e => decide (e.1 / 2048 = port)).map (·.1)
  let retried := (s.sched.retry.filter fun p => decide (p.queue / 2048 = port)).map (·.queue)
  sortBy (fun a b => decide (a ≤ b)) (held ++ retried.filter fun q => !held.contains q)

/-- Is a tenant backlogged in a round (R409)? -/
def backlogged (s : State) (port : Nat) (excess : Bool) (t : Nat) : Bool :=
  (busyQueues s port).any fun q => decide (q % 2048 / 8 = t ∧ 2 ≤ q % 8) && roundAllows s port excess q

/-- The next value after `x` below `n`, wrapping, that satisfies `p`; `x` itself comes last. -/
def nextWrapping (n x : Nat) (p : Nat → Bool) : Nat :=
  (((List.range n).map fun i => (x + 1 + i) % n).find? p).getD x

/-- The class of a tenant that goes next in a round: classes gain their quanta in turn until one can pay, and one that is not
backlogged loses its deficit (R409). -/
def pickClass (offers : List Offer) (port : Nat) (excess : Bool) (t : Nat) : Nat → State → Option Offer × State
  | 0, s => (none, s)
  | n + 1, s =>
    let c := max 2 (Cells.get s.sched.classTurns (tenantKey port excess t) 2)
    match offers.find? fun o => decide (o.cls = c) with
    | some o =>
      let k := classKey o.queue excess
      if o.cost ≤ classDeficit s k then (some o, s)
      else
        let s := setClassDeficit s k (classDeficit s k + max 1 (s.get (Reg.SCHED_Q_DWRR.QUANTUM o.queue)))
        pickClass offers port excess t n (turn s c)
    | none =>
      let q := 2048 * port + 8 * t + c
      let busy := (busyQueues s port).contains q && roundAllows s port excess q
      pickClass offers port excess t n (turn (s.onlyIf (!busy) fun s => setClassDeficit s (classKey q excess) 0) c)
where
  turn (s : State) (c : Nat) : State :=
    let next := nextWrapping 8 c fun i => decide (2 ≤ i) && offers.any fun o => decide (o.cls = i)
    s.setSched { s.sched with classTurns := Cells.set s.sched.classTurns (tenantKey port excess t) next 2 }

/-- The quantum of a tenant on a port (R409). -/
def tenantQuantum (s : State) (port t : Nat) : Nat :=
  max 1 (s.get (Reg.SCHED_T_CFG.WEIGHT t)) * (if port ≤ 2 then 100 else 256)

/-- The loop of R409 on one port and round; the offers are not empty. -/
def weighted (offers : List Offer) (port : Nat) (excess : Bool) : Nat → State → Option Offer × State
  | 0, s => (none, s)
  | n + 1, s =>
    let ck := 2 * port + roundNo excess
    let t := Cells.get s.sched.turns ck 0
    let tk := tenantKey port excess t
    let mine := offers.filter fun o => decide (o.tenant = t)
    let r := if mine.isEmpty then (none, s) else pickClass mine port excess t (2 ^ 28) s
    let s := r.2
    match r.1 with
    | some o =>
      if o.cost ≤ deficit s tk then
        let s := setDeficit s tk (deficit s tk - o.cost)
        let k := classKey o.queue excess
        (some o, setClassDeficit s k (classDeficit s k - o.cost))
      else
        let s := if backlogged s port excess t then setDeficit s tk (deficit s tk + tenantQuantum s port t)
          else setDeficit s tk 0
        weighted offers port excess n (turn s ck t)
    | none =>
      let s := s.onlyIf (!backlogged s port excess t) fun s => setDeficit s tk 0
      weighted offers port excess n (turn s ck t)
where
  turn (s : State) (ck t : Nat) : State :=
    s.setSched { s.sched with turns := Cells.set s.sched.turns ck (nextWrapping 256 t (backlogged s port excess)) 0 }

/-- The class 0 or class 1 offer that goes next: tenants in turn after the one served last (R408). -/
def strict (s : State) (offers : List Offer) (port cls : Nat) : Option Offer :=
  let mine := offers.filter fun o => decide (o.cls = cls) && allows s (bucketPeak o.queue)
  let last := Cells.get s.sched.served (2 * port + cls) 255
  (((List.range 256).map fun i => (last + 1 + i) % 256).findSome? fun t => mine.find? fun o => decide (o.tenant = t))

/-- Debit a release and remember what was debited (R414, R420). -/
def charge (s : State) (port : Nat) (o : Offer) (isWeighted excess : Bool) (sub : Nat) : State × Debit :=
  let com := isWeighted && (!excess || decide (0 ≤ (bucketNow s (bucketCommitted o.queue)).tokens))
  let d : Debit := { port := port, excess := excess, tenant := o.tenant, queue := o.queue, weighted := isWeighted
                     committed := com, peak := true, byTenant := isWeighted, cost := o.cost, sub := sub
                     second := dutySecond s }
  let s := s.onlyIf com fun s => debit s (bucketCommitted o.queue) o.cost
  let s := debit s (bucketPeak o.queue) o.cost
  let s := s.onlyIf isWeighted fun s => debit s (bucketTenant port o.tenant) o.cost
  (s.onlyIf (decide (port ≤ 2)) fun s => dutyDebit s sub o.cost, d)

/-- Return every debit of a release (R410, R412). -/
def refund (s : State) (d : Debit) : State :=
  let s := s.onlyIf d.committed fun s => credit s (bucketCommitted d.queue) d.cost
  let s := s.onlyIf d.peak fun s => credit s (bucketPeak d.queue) d.cost
  let s := s.onlyIf d.byTenant fun s => credit s (bucketTenant d.port d.tenant) d.cost
  let s := s.onlyIf d.weighted fun s =>
    let tk := tenantKey d.port d.excess d.tenant
    let k := classKey d.queue d.excess
    setClassDeficit (setDeficit s tk (deficit s tk + d.cost)) k (classDeficit s k + d.cost)
  s.onlyIf (decide (d.port ≤ 2)) fun s => dutyCredit s d.sub d.second d.cost

/-- The scheduler's choice among the offers for one cell or one wired release (R408), charged. -/
def choose (s : State) (port sub : Nat) (offers : List Offer) : State × Option (Offer × Debit) :=
  let served := fun (s : State) (o : Offer) =>
    s.setSched { s.sched with served := Cells.set s.sched.served (2 * port + o.cls) o.tenant 255 }
  match strict s offers port 0 with
  | some o => let r := charge (served s o) port o false false sub; (r.1, some (o, r.2))
  | none => match strict s offers port 1 with
    | some o => let r := charge (served s o) port o false false sub; (r.1, some (o, r.2))
    | none =>
      let low := fun excess => offers.filter fun o => decide (2 ≤ o.cls) && roundAllows s port excess o.queue
      if !(low false).isEmpty then
        let r := weighted (low false) port false (2 ^ 28) s
        match r.1 with
        | some o => let c := charge r.2 port o true false sub; (c.1, some (o, c.2))
        | none => (r.2, none)
      else if !(low true).isEmpty then
        let r := weighted (low true) port true (2 ^ 28) s
        match r.1 with
        | some o => let c := charge r.2 port o true true sub; (c.1, some (o, c.2))
        | none => (r.2, none)
      else (s, none)

/-! Offers for a radio cell (R407). -/

/-- A cell on offer: front end, sub-band index, sub-band modes, NBR if NBR_EN, SHARED. -/
structure CellSpot where
  fe : Nat
  sub : Nat
  modes : Nat
  nbr : Option Nat
  shared : Bool
  deriving DecidableEq, Repr

/-- What R407 asks of a packet but for backoff, duty and buckets. -/
def fitsCell (s : State) (c : CellSpot) (p : Packet) : Bool :=
  bit c.modes (pktMode s c.fe p) &&
    (match c.nbr with
     | some r => decide (p.record = r)
     | none => c.shared || decide (p.record = broadcast)) &&
    decide (p.freeRun = none) && !(decide (p.cls = 0) && s.safeNow)

/-- Does the duty shaper admit a packet on this cell (R418)? -/
def cellAdmits (s : State) (c : CellSpot) (p : Packet) : Bool :=
  dutyAdmits s c.sub (pktAirtime s c.fe p) (decide (2 ≤ p.cls))

/-- The packets that a queue could offer: those in the retry store, then its head, each with its place (R411). -/
def candidates (s : State) (q : Nat) : List (Packet × Bool) :=
  let retried := (s.sched.retry.filter fun p => decide (p.queue = q)).map fun p => (p, true)
  let head := match queueAt s q with
    | [] => []
    | p :: _ =>
      if p.record = broadcast then [(p, false)]
      else if decide (s.sched.retry.length < 4096) && !(s.sched.retry.any fun r => decide (r.record = p.record)) then
        [(p, false)]
      else []
  retried ++ head

/-- Does a full retry store keep this queue's head from being offered (R411)? -/
def retryFull (s : State) (q : Nat) : Bool :=
  match queueAt s q with
  | [] => false
  | p :: _ => decide (p.record ≠ broadcast ∧ 4096 ≤ s.sched.retry.length)

/-- Are this packet and device free to emit it (R507, R513)? Twin classes go out in both roles, unless SYNCING; others
only from the holder. -/
def roleOffers (s : State) (p : Packet) : Bool :=
  let role := s.get Reg.ETH_PAIR_STATUS.ROLE
  let twin := bit (s.get Reg.ETH_PAIR_CFG.TWIN_CLASSES) p.cls
  if twin ∧ p.flood.isSome then decide (role ≠ 1) || !s.flag Reg.ETH_PAIR_STATUS.SYNCING
  else decide (role ≠ 1)

/-- Release a packet for a radio cell (R407 to R410); `taken` names packets already released in this timeslot. -/
def releaseCell (s : State) (c : CellSpot) (taken : List Packet) : State × Option (Offer × Debit) :=
  let qs := busyQueues s c.fe
  let s := qs.foldl dropStale s
  let full := (qs.filter (retryFull s)).length
  let s := s.onlyIf (decide (full ≠ 0)) fun s => s.count Ctr.RETRY_FULL full
  let able := qs.flatMap fun q => ((candidates s q).filter fun p =>
    fitsCell s c p.1 && roleOffers s p.1 && !taken.contains p.1).map fun p => (q, p)
  -- a shared cell lowers the backoff counts of the packets that could have used it
  let waiting := if c.shared then able.filter fun e => decide (e.2.1.backoff ≠ 0) else []
  let s := s.setSched { s.sched with retry := s.sched.retry.map fun p =>
    if (waiting.any fun e => decide (e.2.1 = p)) then { p with backoff := p.backoff - 1 } else p }
  let ready := able.filter fun e => !c.shared || decide (e.2.1.backoff = 0)
  let refused := ready.filter fun e => !cellAdmits s c e.2.1
  let s := refused.foldl (fun s e => dutyHold s c.sub (decide (2 ≤ e.2.1.cls))) s
  let good := ready.filter fun e => cellAdmits s c e.2.1
  let firstOf := qs.filterMap fun q => (good.find? fun e => decide (e.1 = q)).map fun e =>
    ({ queue := q, pkt := e.2.1, cost := pktAirtime s c.fe e.2.1, retry := e.2.2 } : Offer)
  choose s c.fe c.sub firstOf

/-- Release a frame to a wired port (R404, R406, R408). -/
def releaseWired (s : State) (port : Nat) : State × Option (Offer × Debit) :=
  let qs := busyQueues s port
  let s := qs.foldl dropStale s
  let offers := qs.filterMap fun q => (queueAt s q).head?.map fun p =>
    ({ queue := q, pkt := p, cost := wireBytes s port p.len, retry := false } : Offer)
  choose s port 0 offers

/-! Policing (R422 to R425). -/

/-- The colours of the meters, and of packets on entry. -/
inductive Colour where
  | green
  | yellow
  | red
  deriving DecidableEq, Repr

/-- The entry colour of a DSCP in colour-aware mode (R424). -/
def dscpColour (dscp : Nat) : Colour :=
  if [12, 20, 28, 36].contains dscp then .yellow
  else if [14, 22, 30, 38].contains dscp then .red else .green

/-- The depth of a policer's two buckets, in 1/65,536 octet. -/
def meterFull (s : State) (n : Nat) : Meter :=
  { first := s.get (Reg.SCHED_POL_BURST.CBS n) * 65536, second := s.get (Reg.SCHED_POL_BURST.PBS_EBS n) * 65536
    atNs := s.time.ns }

/-- A policer's buckets refilled to now (R423). The first bucket is Tc; the second is Te or Tp. -/
def meterNow (s : State) (n : Nat) : Meter :=
  let full := meterFull s n
  let m := ((s.sched.meters.find? fun e => decide (e.1 = n)).map (·.2)).getD full
  let gain := fun rate => rate * (s.time.ns - m.atNs) * 65536 / 1000000000
  let g := gain (s.get (Reg.SCHED_POL_RATE.CIR n))
  let first := min full.first (m.first + g)
  let spill := m.first + g - first
  match s.get (Reg.SCHED_POL_CFG.MODE n) with
  | 1 => { first := first, second := min full.second (m.second + spill), atNs := s.time.ns }
  | 2 => { first := first, second := min full.second (m.second + gain (s.get (Reg.SCHED_POL_RATE.PIR_EIR n)))
           atNs := s.time.ns }
  | _ =>
    let e := m.second + gain (s.get (Reg.SCHED_POL_RATE.PIR_EIR n)) +
      (if s.flag (Reg.SCHED_POL_CFG.COUPLED n) then spill else 0)
    { first := first, second := min full.second e, atNs := s.time.ns }

/-- The outcome colour of a packet of `b` (1/65,536 octet) that enters as `c`, and the buckets after it (RFC 2697,
RFC 2698, RFC 4115). -/
def meter (mode : Nat) (m : Meter) (c : Colour) (b : Nat) : Colour × Meter :=
  match mode with
  | 1 =>
    if c = .green ∧ b ≤ m.first then (.green, { m with first := m.first - b })
    else if c ≠ .red ∧ b ≤ m.second then (.yellow, { m with second := m.second - b })
    else (.red, m)
  | 2 =>
    if c = .red ∨ m.second < b then (.red, m)
    else if c = .yellow ∨ m.first < b then (.yellow, { m with second := m.second - b })
    else (.green, { m with first := m.first - b, second := m.second - b })
  | 3 =>
    if c = .green ∧ b ≤ m.first then (.green, { m with first := m.first - b })
    else if c ≠ .red ∧ b ≤ m.second then (.yellow, { m with second := m.second - b })
    else (.red, m)
  | _ => (.green, m)

/-- The DSCP of an IPv6 datagram, and the datagram with another DSCP. -/
def dscpOf (d : List Byte) : Nat := bits (fieldBE d 0 4) 27 22
def setDscp (d : List Byte) (dscp : Nat) : List Byte :=
  let w := fieldBE d 0 4
  beBytes 4 (w - at' (bits w 27 22) 6 22 + at' dscp 6 22) ++ d.drop 4

/-- Police a datagram under a map key (R422, R425): what is left of it, if anything. -/
def police (s : State) (key : Nat) (d : List Byte) : State × Option (List Byte) :=
  if !s.flag (Reg.SCHED_PMAP.EN key) then (s, some d)
  else
    let n := s.get (Reg.SCHED_PMAP.POLICER key)
    let entry := if s.flag (Reg.SCHED_POL_CFG.AWARE n) then dscpColour (dscpOf d) else .green
    let r := meter (s.get (Reg.SCHED_POL_CFG.MODE n)) (meterNow s n) entry (d.length * 65536)
    let s := s.setSched { s.sched with meters := Cells.insert s.sched.meters n r.2 }
    match r.1 with
    | .green => (s.bump (Reg.SCHED_POL_STATUS.GREEN n), some d)
    | .yellow =>
      let s := s.bump (Reg.SCHED_POL_STATUS.YELLOW n)
      match s.get (Reg.SCHED_POL_CFG.YELLOW_ACT n) with
      | 0 => (s, some d)
      | 1 => (s, some (setDscp d (s.get (Reg.SCHED_POL_CFG.YELLOW_DSCP n))))
      | _ => (s.count Ctr.POLICE_DROP, none)
    | .red =>
      let s := s.bump (Reg.SCHED_POL_STATUS.RED n)
      if s.flag (Reg.SCHED_POL_CFG.RED_ACT n) then (s, some (setDscp d (s.get (Reg.SCHED_POL_CFG.RED_DSCP n))))
      else (s.count Ctr.POLICE_DROP, none)

/-- A write of a policer's registers refills its buckets (R423): 0 SCHED_POL_CFG, 1 SCHED_POL_RATE, 2 SCHED_POL_BURST. -/
def refillMeter (s : State) (n : Nat) : State :=
  s.setSched { s.sched with meters := Cells.erase s.sched.meters n }
def writePolicer (s : State) (reg v : Nat) : State :=
  let n := s.get Reg.SCHED_POL_SEL.POLICER
  let s := match reg with
    | 0 => ((((((s.set (Reg.SCHED_POL_CFG.MODE n) (bits v 63 62)).setFlag (Reg.SCHED_POL_CFG.AWARE n) (bit v 61)).setFlag
        (Reg.SCHED_POL_CFG.COUPLED n) (bit v 60)).set (Reg.SCHED_POL_CFG.YELLOW_ACT n) (bits v 59 58)).setFlag
        (Reg.SCHED_POL_CFG.RED_ACT n) (bit v 57)).set (Reg.SCHED_POL_CFG.YELLOW_DSCP n) (bits v 49 44)).set
        (Reg.SCHED_POL_CFG.RED_DSCP n) (bits v 43 38)
    | 1 => (s.set (Reg.SCHED_POL_RATE.CIR n) (bits v 63 32)).set (Reg.SCHED_POL_RATE.PIR_EIR n) (bits v 31 0)
    | _ => (s.set (Reg.SCHED_POL_BURST.CBS n) (bits v 63 40)).set (Reg.SCHED_POL_BURST.PBS_EBS n) (bits v 39 16)
  refillMeter s n

/-- POLICER_CFG_WRITE (R423). -/
def execPolicerCfgWrite (dt : Nat) (reg : Fin 3) (value : Word) (s : State) : Result :=
  step' dt s fun s => (writePolicer s reg value.toNat).answer 0

end Sys2Proof.Machine
end

