-- ==== Sys2Proof/Machine/Emit.lean ====
section
/-!
DEFINITION. Emissions as the MAC and the front ends share them: timing, the synthesiser table, abandonment, failed
attempts, acknowledgement windows and the counters of R638.
-/

namespace Sys2Proof.Machine

/-- Put the MAC block. -/
def State.setMac (s : State) (m : MacState) : State := { s with mac := m }

/-! Counters that persist (R638). -/

namespace NvKind
def FC : Nat := 1
def ATT : Nat := 2
def FSEQ : Nat := 3
end NvKind

/-- The step S of a kind. -/
def nvStep (kind : Nat) : Nat := if kind = 3 then 1024 else 65536

/-- The present value of a counter. -/
def nvValue (s : State) (kind : Nat) : Nat := Cells.get s.nv.value kind 0

/-- May the counter advance now? It does not pass the next multiple of S until its record is programmed. -/
def nvReady (s : State) (kind : Nat) : Bool :=
  (Cells.get s.nv.programming kind 0 = 0) || decide ((nvValue s kind + 1) % nvStep kind ≠ 0)

/-- Use a counter: its value, and the state after it has advanced (R638). A counter that reaches a multiple of S has that
value recorded. -/
def nvTake (s : State) (kind : Nat) : Nat × State :=
  let v := nvValue s kind
  let w := v + 1
  let n := { s.nv with value := Cells.set s.nv.value kind w 0 }
  let n := if w % nvStep kind = 0 then { n with programming := Cells.set n.programming kind w 0 } else n
  (v, { s with nv := n })

/-! The roles of a site pair (R507). -/

/-- Does the device hold the lease? A device with no PAIR section does. ROLE 1 is standby. -/
def holder (s : State) : Bool := decide (s.get Reg.ETH_PAIR_STATUS.ROLE ≠ 1)

/-- Did the device hold the lease for a frame whose first chip falls in timeslot `asn`: one before the ACT_ASN of the last
drill is still the old holder's (R507, R515)? -/
def holderOf (s : State) (asn : Nat) : Bool :=
  match s.lease.switched with
  | none => holder s
  | some (act, held) => if diffN 40 (asn % 2 ^ 40) act < 0 then held else holder s

/-! Timeslots (R238). -/

/-- The length of a timeslot in ns. -/
def slotNs (s : State) : Nat := max 1 (s.get Reg.MAC_SLOT_0.SLOT_LEN) * 10000

/-- The timeslot in which an instant falls, and the start of a timeslot. -/
def asnAt (s : State) (t : Nat) : Nat := (t - s.get Reg.MAC_ASN_EPOCH.EPOCH_NS) / slotNs s
def slotStart (s : State) (asn : Nat) : Nat := s.get Reg.MAC_ASN_EPOCH.EPOCH_NS + asn * slotNs s

/-- Is TSCH on? -/
def tschOn (s : State) : Bool := s.flag Reg.MAC_STATUS.TSCH_ON

/-- The ASN now; zero while TSCH_ON is clear. -/
def asnNow (s : State) : Nat := if tschOn s then asnAt s s.time.ns % 2 ^ 40 else 0

/-- T_det of R244 in ns: DET_SYMS symbol times of the slowest mode of a sub-band. -/
def detNs (s : State) (fe bin : Nat) : Nat :=
  let modes := ((subbandOf s fe bin).map (·.modes)).getD 0
  ((List.range 16).filter fun m => bit modes m && modeValid m).foldl (fun t m => max t (symbolsNs m (detSyms s))) 0

/-! Cells (R245 to R247). -/

/-- The word of cell `i` of the schedule table. -/
def cellWord (s : State) (i : Nat) : Nat := Cells.get s.tables.cells i 0

/-- A cell of the schedule table, as R246 lays it out. -/
structure Cell where
  index : Nat
  sf : Nat
  timeslot : Nat
  chofs : Nat
  tx : Bool
  rx : Bool
  shared : Bool
  adv : Bool
  prio : Bool
  nbr : Option Nat
  deriving DecidableEq, Repr

/-- The fields of a cell word. -/
def cellOf (i w : Nat) : Cell :=
  { index := i, sf := bits w 62 60, timeslot := bits w 59 44, chofs := bits w 43 36, tx := bit w 35, rx := bit w 34
    shared := bit w 33, adv := bit w 31, prio := bit w 30, nbr := if bit w 11 then some (bits w 29 12) else none }

/-- The valid cells of the schedule. -/
def validCells (s : State) : List Cell :=
  (s.tables.cells.filter fun e => bit e.2 63).map fun e => cellOf e.1 e.2

/-- Is a cell active in a timeslot (R245)? -/
def cellActive (s : State) (asn : Nat) (c : Cell) : Bool :=
  s.flag (Reg.MAC_SF.EN c.sf) && decide (asn % max 1 (s.get (Reg.MAC_SF.LENGTH c.sf)) = c.timeslot)

/-- The hopping entry of a cell in a timeslot, and its front end and bin. -/
def cellHop (s : State) (asn : Nat) (c : Cell) : Nat :=
  256 * c.sf + (asn + c.chofs) % max 1 (s.get (Reg.MAC_SF.HOP_LEN c.sf))
def cellFe (s : State) (asn : Nat) (c : Cell) : Nat := s.get (Reg.MAC_HOP.FE (cellHop s asn c))
def cellBin (s : State) (asn : Nat) (c : Cell) : Nat := s.get (Reg.MAC_HOP.BIN (cellHop s asn c))

/-- Do slotframes of a cell emit here (R508)? -/
def cellMine (s : State) (c : Cell) : Bool := bit (s.get Reg.ETH_PAIR_CFG.SF_MASK) c.sf

/-- The cells in which a front end may emit in a timeslot, in the order of R249. -/
def txCells (s : State) (asn fe : Nat) : List Cell :=
  let l := (validCells s).filter fun c => c.tx && cellActive s asn c && cellMine s c && decide (cellFe s asn c = fe)
  sortBy (fun a b => decide (a.sf < b.sf ∨ (a.sf = b.sf ∧ (b2n b.prio < b2n a.prio ∨
    (b2n b.prio = b2n a.prio ∧ a.index ≤ b.index))))) l

/-- The dedicated receive cells of a timeslot (R246). -/
def rxCells (s : State) (asn : Nat) : List Cell :=
  (validCells s).filter fun c => c.rx && !c.shared && c.nbr.isSome && cellActive s asn c

/-! The synthesiser table (R97 to R107). -/

namespace Cal
def INVALID : Nat := 0
def VALID : Nat := 1
def STALE : Nat := 2
def CALIBRATING : Nat := 3
end Cal

/-- The state of a table entry. -/
def calState (s : State) (fe i : Nat) : Nat := s.get (Reg.FE_TXCAL_ENTRY.STATE fe i)

/-- The used entry for a frequency, if the table has one. -/
def entryFor (s : State) (fe khz : Nat) : Option Nat :=
  firstBelow (s.fe fe).used fun i => decide (s.get (Reg.FE_TXCAL_ENTRY.FREQ_KHZ fe i) = khz)

/-- The counts of FEn_CAL_STATUS follow the table. -/
def refreshCal (s : State) (fe : Nat) : State :=
  let n := fun st => ((List.range (s.fe fe).used).filter fun i => decide (calState s fe i = st)).length
  (s.set (Reg.FE_CAL_STATUS.STALE_CNT fe) (n Cal.STALE)).set (Reg.FE_CAL_STATUS.INVALID_CNT fe) (n Cal.INVALID)

/-- An entry becomes VALID at the present die temperature (R100, R101). -/
def calValid (s : State) (fe i : Nat) : State :=
  let s := (s.set (Reg.FE_TXCAL_ENTRY.STATE fe i) Cal.VALID).set (Reg.FE_TXCAL_ENTRY.PRIOR fe i) 0
  refreshCal (s.set (Reg.FE_TXCAL_ENTRY.TCAL fe i) (ofSigned 12 (s.fe fe).die)) fe

/-- The running entry calibration of a chain ends without result: the entry returns to PRIOR (R103, R107). -/
def calAbort (s : State) (fe : Nat) : State :=
  match (s.fe fe).cal with
  | none => s
  | some c =>
    let s := s.set (Reg.FE_TXCAL_ENTRY.STATE fe c.entry) (s.get (Reg.FE_TXCAL_ENTRY.PRIOR fe c.entry))
    let s := s.set (Reg.FE_TXCAL_ENTRY.PRIOR fe c.entry) 0
    refreshCal (s.setFe fe { s.fe fe with cal := none }) fe

/-- A transmit command meets a running calibration (R103, R107): it goes on only if it is of the command's own entry
and PRIOR is INVALID. -/
def calMeets (s : State) (fe : Nat) (e : Emission) : State :=
  match (s.fe fe).cal with
  | none => s
  | some c =>
    if !e.scratch && decide (c.entry = e.entry) && decide (s.get (Reg.FE_TXCAL_ENTRY.PRIOR fe c.entry) = Cal.INVALID)
    then s else calAbort s fe

/-- The settle bound at use in ns (R98); a scratch entry is INVALID. -/
def settleNs (s : State) (fe : Nat) (e : Emission) : Nat :=
  if !e.scratch && decide (calState s fe e.entry = Cal.VALID) then 20000 else 250000

/-- FEM_LEAD and FEM_LAG in ns, and the lead of blanking (R123). -/
def lagNs (s : State) (fe : Nat) : Nat := s.get (Reg.FE_FEM_CTRL.LAG fe) * 1000
def blankLeadNs (s : State) (fe : Nat) : Nat := max 5 (s.get (Reg.FE_FEM_CTRL.LEAD fe)) * 1000

/-- FEM_LEAD in ns (R128). -/
def leadNs (s : State) (fe : Nat) : Nat := s.get (Reg.FE_FEM_CTRL.LEAD fe) * 1000

/-- The airtime of an emission in ns, and its first and last chips as they stand. -/
def Emission.airNs (e : Emission) : Nat := 1000 * e.carriers.foldl (fun t c => max t c.airtimeUs) 0
def Emission.firstNs (e : Emission) : Nat := if e.phase = .emitting then e.startNs else e.nominalNs
def Emission.endNs (e : Emission) : Nat := e.firstNs + e.airNs
def Emission.deadline (e : Emission) : Nat := e.nominalNs + e.deferUs * 1000

/-- Is an emission with its chain (R251)? -/
def Emission.committed (e : Emission) : Bool := decide (e.phase ≠ .planned)

/-- Do two emissions of a chain overlap, with blanking and the FEM lead and lag of either (R251)? -/
def clashes (s : State) (fe : Nat) (a b : Emission) : Bool :=
  let lead := blankLeadNs s fe
  let tail := max 15000 (lagNs s fe)
  decide (a.firstNs < b.endNs + tail + lead ∧ b.firstNs < a.endNs + tail + lead)

/-- Replace an emission of a chain, or take it away. -/
def putEmission (s : State) (fe : Nat) (old new : Emission) : State :=
  s.setFe fe { s.fe fe with emissions := (s.fe fe).emissions.map fun e => if e = old then new else e }
def dropEmission (s : State) (fe : Nat) (old : Emission) : State :=
  s.setFe fe { s.fe fe with emissions := (s.fe fe).emissions.filter fun e => decide (e ≠ old) }

/-- A new emission joins those of its chain, earliest first, under the next number. -/
def addEmission (s : State) (fe : Nat) (e : Emission) : State :=
  let l := sortBy (fun a b => decide (a.nominalNs ≤ b.nominalNs)) ((s.fe fe).emissions ++ [{ e with id := s.nextFrame }])
  { s.setFe fe { s.fe fe with emissions := l } with nextFrame := s.nextFrame + 1 }

/-! Frames that the device sends (R186, R257, R405). -/

/-- The device's extended address (R257). -/
def deviceId (s : State) : Nat := s.get Reg.KEYS_DEVICE_ID.DEVICE_ID

/-- The MAC destination of a node (R369: extended for a source route's first hop). -/
def nodeAddr (s : State) (r : Nat) (routed : Bool) : Addr :=
  if !routed && Config.dataForm.dstShort && decide (recShort s r ≠ 0xFFFE) then .short (recShort s r) else .ext (recEui s r)

/-- A sequence number, where data frames have one: no rule states its value. -/
def drawSeqNo (s : State) : State × Option Nat := if Config.dataForm.seqNo then (s.drawn, some (s.free % 256)) else (s, none)

/-- The frame of a radio packet on a front end: unicast under the node's key and with Ack Request, broadcast under a group key
(R254, R288, R289, R306). -/
def pktFrame (s : State) (fe : Nat) (p : Packet) : TxFrame :=
  let ies := (match p.flood with | some f => floodIe f | none => []) ++
    (if p.ies then termBeforeIes else if p.flood.isSome then termBeforePayload else [])
  { ftype := 1, ackReq := decide (p.record ≠ broadcast), seqNo := p.seqNo, dst := p.dst
    src := if Config.dataForm.srcShort then .short (s.get Reg.MAC_ADDR.SHORT) else .ext (deviceId s)
    comp := Config.dataForm.comp, level := pktLevel s fe p, group := decide (p.record = broadcast), ies := ies, payload := p.data }

/-- A radio packet with its LENGTH: the MAC frame without MIC and FCS (R405). -/
def sized (s : State) (p : Packet) : Packet :=
  { p with len := ((pktFrame s 0 p).header 0 0 (if p.freeRun.isSome then some 0 else none)).length + p.data.length }

/-- SEQ of a packet's PHY header (R186). -/
def pktSeq (s : State) (fe : Nat) (p : Packet) : Nat :=
  if p.record = broadcast then Config.broadcastSeq fe % 64 else Cells.get s.sched.tenantSeq (recTenant s p.record) 0 % 64

/-- The carrier of a packet on a bin. -/
def dataCarrier (s : State) (fe bin : Nat) (p : Packet) (d : Debit) (retry : Bool) : Carrier :=
  { bin := bin, freqKhz := modeKhz s fe bin (pktMode s fe p), mode := pktMode s fe p, cr := pktCR s fe p, len := pktPsdu s fe p
    airtimeUs := pktAirtime s fe p, load := .data p d retry, seq := pktSeq s fe p, frame := some (pktFrame s fe p) }

/-- What a carrier sends (R181, R210, R211). -/
def onAir (c : Carrier) : OnAir :=
  match c.load with
  | .wake addr reps => .keyed (List.replicate reps (wakeBits addr)).flatten
  | _ =>
    if isFostaic c.mode then
      .chips (frameChips c.mode (ownHeader c.seq c.psdu.length c.cr c.mode) (payloadOf (ownZ c.psdu.length) c.cr c.psdu))
    else if c.mode = modeOQPSK then .octets true (oqpskFrame c.psdu)
    else .octets false c.psdu

/-- The code rate of beacons (R268). -/
def beaconCr (s : State) : Nat := if s.get Reg.MAC_EB_CTRL.CR = 3 then 0 else s.get Reg.MAC_EB_CTRL.CR

/-- Are the frames of an emission encrypted (R39, R40)? -/
def Emission.sealed (e : Emission) : Bool := e.carriers.all fun c => c.frame.isNone || !c.psdu.isEmpty

/-! The retry store (R253, R254, R411). -/

/-- Put a packet into the retry store at its first commit, with the settings that apply to it from then on. -/
def retryAdd (s : State) (p : Packet) : State :=
  let p := { p with be := s.get Reg.MAC_CSMA_CTRL.MIN_BE, backoff := 0, tries := 0
                    beMax := min 8 (s.get Reg.MAC_CSMA_CTRL.MAX_BE)
                    retryMax := s.get Reg.MAC_CSMA_CTRL.MAX_RETRIES }
  s.setSched { s.sched with retry := s.sched.retry ++ [p] }

/-- The packet of a link record in the retry store. -/
def retryOf (s : State) (record : Nat) : Option Packet := s.sched.retry.find? fun p => decide (p.record = record)

/-- A packet leaves the retry store. -/
def retryDrop (s : State) (record : Nat) : State :=
  s.setSched { s.sched with retry := s.sched.retry.filter fun p => decide (p.record ≠ record) }

/-- A failed attempt (R253, R254): after the last one the packet is dropped as TX_FAIL; after one in a shared cell the
backoff count is drawn anew. -/
def failAttempt (s : State) (record : Nat) (shared : Bool) : State :=
  match retryOf s record with
  | none => s
  | some p =>
    let p' := { p with tries := p.tries + 1 }
    if p.retryMax < p'.tries then (retryDrop s record).count Ctr.TX_FAIL
    else
      let be := min (p.be + 1) p.beMax
      let p' := if shared then { p' with be := be, backoff := s.free % 2 ^ be } else p'
      let s := s.onlyIf shared State.drawn
      s.setSched { s.sched with retry := s.sched.retry.map fun x => if x.record = record then p' else x }

/-! Free-run channels and wake-up patterns (R255, R283, R284). -/

/-- The run of a free-run channel. -/
def runOf (s : State) (f : Nat) : Option FreeRun := (s.mac.freeRuns.find? fun e => decide (e.1 = f)).map (·.2)
def setRun (s : State) (f : Nat) (r : FreeRun) : State :=
  s.setMac { s.mac with freeRuns := Cells.insert s.mac.freeRuns f r }
def endRun (s : State) (f : Nat) : State := s.setMac { s.mac with freeRuns := Cells.erase s.mac.freeRuns f }

/-- A wake-up request ends, refused with a cause if it is (R283, R284). -/
def wakeEnd (s : State) (cause : Option Nat) : State :=
  let s := s.setMac { s.mac with wake := none }
  let s := (s.setFlag Reg.MAC_WAKE_STATUS.BUSY false).setFlag Reg.MAC_WAKE_STATUS.DONE true
  match cause with
  | none => s
  | some c => (s.setFlag Reg.MAC_WAKE_STATUS.REFUSED true).set Reg.MAC_WAKE_STATUS.CAUSE c

/-! Attempts that are not emitted (R109, R410, R412). -/

/-- A packet goes back to the head of its queue. -/
def requeue (s : State) (p : Packet) : State := setQueue s p.queue (p :: queueAt s p.queue)

/-- The duty that a carrier was charged apart from a release is returned. -/
def dutyBack (s : State) (c : Carrier) : State :=
  match c.duty with
  | none => s
  | some (sub, second) => dutyCredit s sub second c.airtimeUs

/-- The loopback no longer watches an emission (R656). -/
def unwatch (s : State) (fe asn : Nat) : State :=
  { s with safe := { s.safe with loopbacks := s.safe.loopbacks.filter fun l => decide (¬(l.fe = fe ∧ l.asn = asn)) } }

/-- A carrier of a committed emission is not emitted: its debits return, and a data frame counts as not sent (R109,
R412). A broadcast packet returns to its queue's head. -/
def unsend (s : State) (fe : Nat) (e : Emission) (c : Carrier) : State :=
  let s := dutyBack s c
  match c.load with
  | .data p d _ =>
    let s := refund s d
    let s := s.onlyIf (decide (p.cls = 0)) fun s => unwatch s fe e.asn
    if p.record = broadcast ∧ e.committed then requeue s p else s
  | .wake _ _ => wakeEnd s (some 4)
  | _ => s

/-- The free-run channel of an emission is done with it. -/
def freeChannel (s : State) (e : Emission) : State :=
  match e.freeRun with
  | some f => if e.kind = 1 then s else endRun s f
  | none => s

/-! Causes of TX_LATE (R141). -/
namespace Late
def LOCK_TIMEOUT : Nat := 1
def CAL_BUSY : Nat := 2
def LOCK_LOST : Nat := 3
def MASK_STOP : Nat := 4
def FE_OUT : Nat := 5
end Late

/-- The KIND of an emission (R141). One that carries data beside a beacon is data; no rule tells. -/
def kindOf (l : List Carrier) : Nat :=
  if l.any fun c => match c.load with | .ack _ _ => true | _ => false then 1
  else if l.any fun c => match c.load with | .wake _ _ => true | _ => false then 3
  else if l.all fun c => match c.load with | .beacon _ => true | _ => false then 2
  else 0

/-- TX_LATE (R141). -/
def txLate (s : State) (fe : Nat) (e : Emission) (cause : Nat) : State :=
  s.event Ev.TX_LATE (Block.FE fe)
    (at' fe 2 46 + at' e.kind 2 44 + at' cause 4 40 + at' e.entry 9 31 + at' (b2n e.scratch) 1 30 + at' e.asn 30 0)

/-- An emission is abandoned before its first chip (R106 to R110). -/
def abandon (s : State) (fe : Nat) (e : Emission) (cause : Nat) : State :=
  let s := txLate s fe e cause
  let s := dropEmission s fe e
  let s := e.carriers.foldl (fun s c => unsend s fe e c) s
  freeChannel s e

/-! Acknowledgement windows (R267). -/

/-- Open the acknowledgement window of a unicast carrier whose last chip left at `endNs`. -/
def openAck (s : State) (fe : Nat) (e : Emission) (c : Carrier) (endNs : Nat) : State :=
  match c.load with
  | .data p _ _ =>
    if p.record = broadcast then s
    else
      let d := s.get Reg.MAC_SLOT_1.TX_ACK_DELAY * 1000
      let w := s.get Reg.MAC_SLOT_1.ACK_WAIT * 1000 / 2
      s.setMac { s.mac with ackWaits := s.mac.ackWaits ++
        [{ fe := fe, bin := c.bin, record := p.record, fromNs := endNs + d - w, toNs := endNs + d + w + detNs s fe c.bin
           freeRun := e.freeRun, shared := c.shared, seqNo := p.seqNo }] }
  | _ => s

/-- The last chip of an emission has left at `endNs`: windows open, and a wake-up request ends. -/
def finishEmission (s : State) (fe : Nat) (e : Emission) (endNs : Nat) : State :=
  let s := e.carriers.foldl (fun s c => openAck s fe e c endNs) s
  let s := s.onlyIf (e.carriers.any fun c => match c.load with | .wake _ _ => true | _ => false) fun s => wakeEnd s none
  freeChannel s e

/-- Every frame of an emission in progress fails (R108, R121). -/
def loseEmission (s : State) (e : Emission) : State :=
  e.carriers.foldl (fun s c => match c.load with
    | .data p _ _ => failAttempt s p.record c.shared
    | .wake _ _ => wakeEnd s (some 4)
    | _ => s) s

/-! Power (R112 to R117, R671). -/

/-- The transmit cap of the profile in force at the device pin, 0.25 dBm (R670, R671). -/
def profileCap (s : State) (fe : Nat) : Int :=
  let base : Int := match s.get Reg.HEALTH_STATUS.PROFILE with
    | 0 => 80
    | 1 => 68
    | _ => 56
  if fe = 2 then base - 8 else base

/-- 10 log10 N rounded up to 0.25 dB, in 0.25 dB (R117). -/
def shareQdb (n : Nat) : Int := ([0, 0, 13, 20, 25, 28, 32, 34, 37] : List Int).getD n 37

/-- What the front-end module adds to the power at the device's pin; nothing where it is absent (R112, R130). -/
def femGain (s : State) (fe : Nat) : Int :=
  if s.flag (Reg.FE_FEM_CTRL.PRESENT fe) then toSigned 8 (s.get (Reg.FE_FEM_CTRL.TX_GAIN_QDB fe)) else 0

/-- The lowest power at the antenna port: -10 dBm at the device's pin (R114). -/
def powerFloor (s : State) (fe : Nat) : Int := -40 + femGain s fe

/-- A carrier at a power at the antenna port; the device drives the module's gain less at its own pin (R112). -/
def Carrier.atPower (c : Carrier) (s : State) (fe : Nat) (p : Int) : Carrier :=
  { c with powerQdbm := p, pinQdbm := p - femGain s fe }

/-- The power of a carrier at the antenna port, 0.25 dBm, of `n` carriers. -/
def carrierPower (s : State) (fe n : Nat) (c : Carrier) : Int :=
  let gain := femGain s fe
  let chain : Int := (if fe = 2 then 72 else 80) + gain
  let cap := toSigned 16 (s.get (Reg.FE_TX_CTRL.CAP_QDBM fe))
  let sub := ((subbandOf s fe c.bin).map (·.capQdbm)).getD chain
  let clamped := min (min cap sub) chain
  let p := min clamped (profileCap s fe + gain) - shareQdb n
  let exempt := match c.load with
    | .data p _ _ => decide (p.cls ≤ 1)
    | _ => false
  let p := if throttled s 4 && !exempt then p - 12 else p
  let p := if fe = 2 then p else p - (s.get (Reg.FE_MASK_CTRL.BACKOFF_QDB fe) : Int)
  max p (powerFloor s fe)

end Sys2Proof.Machine
end

