-- ==== Sys2Proof/Machine/Image.lean ====
section
/-!
DEFINITION. What every section of a Neles image shares (R67, R74, R76, R731, R746): a refusal, and checks in order.
-/

namespace Sys2Proof.Machine

/-- A refusal: reason code, low 8 bits of the section type, 17-bit item index (R76, R746). -/
structure Breach where
  code : Nat
  sect : Nat
  item : Nat
  deriving DecidableEq, Repr

/-- The first check that fails, as the item it names. -/
def firstFailing (cs : List (Bool × Nat)) : Option Nat := (cs.find? fun c => !c.1).map (·.2)

/-- SECTION_FORMAT (0x0109) at the first failing check of section `t`. -/
def fmt (t : Nat) (cs : List (Bool × Nat)) : Option Breach :=
  (firstFailing cs).map fun i => { code := 0x0109, sect := t, item := i }

/-- Another reason at the first failing check. -/
def refuse (code t : Nat) (cs : List (Bool × Nat)) : Option Breach :=
  (firstFailing cs).map fun i => { code := code, sect := t, item := i }

/-- The failing check of the lowest item, as (code, item); of one item's checks the first in the list (R74). -/
def lowestItem (cs : List (Bool × Nat × Nat)) : Option (Nat × Nat) :=
  cs.foldl (fun best c =>
    if c.1 then best
    else match best with
      | none => some c.2
      | some b => if c.2.2 < b.2 then some c.2 else best) none

/-- The first refusal of several checks made in order. -/
def firstBreach : List (Option Breach) → Option Breach
  | [] => none
  | some b :: _ => some b
  | none :: rest => firstBreach rest

/-- `n` octets from `off` are zero. -/
def zeros (p : List Byte) (off n : Nat) : Bool := decide (field p off n = 0)

/-- A reserved field of `n` octets at `off` is zero; ITEM is the field's byte offset divided by 8. -/
def reserved (p : List Byte) (off n : Nat) : List (Bool × Nat) := [(zeros p off n, off / 8)]

/-- A field's rule, with ITEM the byte offset divided by 8. -/
def rule (off : Nat) (ok : Bool) : Bool × Nat := (ok, off / 8)

/-- A signed field of `n` octets. -/
def sfield (p : List Byte) (off n : Nat) : Int := toSigned (8 * n) (field p off n)

/-- R731: the payload has its fixed part, and the length that its own counts imply. -/
def lengthRule (t fixed implied : Nat) (p : List Byte) : Option Breach :=
  if fixed ≤ p.length ∧ p.length = implied then none else some { code := 0x0109, sect := t, item := 0x1FFFF }

/-- `x` lies between `a` and `b`. -/
def within (x a b : Nat) : Bool := decide (a ≤ x ∧ x ≤ b)

/-- The `i`-th record of `size` octets after a header of `hdr` octets. -/
def recordAt (p : List Byte) (hdr size i : Nat) : List Byte := (p.drop (hdr + size * i)).take size

/-- The first failing check over records 0 to `n - 1`. -/
def overRecords (n : Nat) (check : Nat → Option Breach) : Option Breach :=
  firstBreach ((List.range n).map check)

/-- The payloads of an image by section type; an absent section is `none`. -/
abbrev Sections := List (Nat × List Byte)

/-- The payload of section `t`. -/
def sectionOf (im : Sections) (t : Nat) : Option (List Byte) := (im.find? fun e => e.1 = t).map (·.2)

end Sys2Proof.Machine
end

