-- ==== Sys2Proof/Machine/Checks.lean ====
section
/-!
DEFINITION. The admission checks on a schedule (R76, R77, R426, R427), which ADMIT and the schedule admission unit share.
Each looks at a state that holds the schedule as it would stand.
-/

namespace Sys2Proof.Machine

/-- The enabled slotframes. -/
def slotframes (s : State) : List Nat := (List.range 8).filter fun i => s.flag (Reg.MAC_SF.EN i)

/-- A number of timeslots after which activity and channels repeat (R245). -/
def hyperPeriod (s : State) : Nat :=
  (slotframes s).foldl (fun n i => Nat.lcm (Nat.lcm n (max 1 (s.get (Reg.MAC_SF.LENGTH i))))
    (max 1 (s.get (Reg.MAC_SF.HOP_LEN i)))) 1

/-- The modes that the cells of a front end may use: those of the sub-bands of its hopping entries. -/
def feModes (s : State) (fe : Nat) : Nat :=
  (s.hear.subbands.filter fun b => decide (b.fe = fe)).foldl (fun m b => m ||| b.modes) 0

/-- Front ends that the cells of a slotframe use. -/
def sfFes (s : State) (i : Nat) : List Nat :=
  ([0, 1, 2] : List Nat).filter fun fe => (List.range (s.get (Reg.MAC_SF.HOP_LEN i))).any fun k =>
    decide (s.get (Reg.MAC_HOP.FE (256 * i + k)) = fe) && (validCells s).any fun c => decide (c.sf = i)

/-- SLOT_TURNAROUND (0x0202), in µs. -/
def turnaroundFails (s : State) (fe : Nat) : Bool :=
  decide (s.get Reg.MAC_SLOT_0.SLOT_LEN * 10 < s.get Reg.MAC_SLOT_0.TX_OFFSET + Config.longestFrameUs (feModes s fe)
    + s.get Reg.MAC_SLOT_1.TX_ACK_DELAY + Config.longestAckUs (feModes s fe) + 100)

/-- The highest iteration cap among the permitted hearing modes (R77). -/
def capMax (permit : Nat) : Nat :=
  ((List.range 3).filter (bit permit)).foldl (fun c m => max c (modeCap m)) 0

/-- ACK_DEADLINE (0x0203): TX_ACK_DELAY - 300 µs is less than T_v (R77). In units of 100 ps. -/
def ackDeadlineFails (s : State) (fe : Nat) : Bool :=
  let tv := (if fe = 2 then 280000 else 820000) + capMax (s.get Reg.CHAN_HEAR_CTRL.PERMIT) * 2083 + 20000
  decide (s.get Reg.MAC_SLOT_1.TX_ACK_DELAY * 10000 < tv + 3000000)

/-- TX_RETUNE (0x0204): less than 250 µs between an emission's end and the next timeslot's emission. -/
def retuneFails (s : State) (fe : Nat) : Bool :=
  decide (s.get Reg.MAC_SLOT_0.SLOT_LEN * 10 < Config.longestFrameUs (feModes s fe) + 250)

/-- Distinct channels of the transmit cells of a front end in a timeslot, and their span in kHz. -/
def txChannels (s : State) (asn fe : Nat) : List Nat := ((txCells s asn fe).map (cellBin s asn)).dedup
def spanKhz (s : State) (fe : Nat) (bins : List Nat) : Nat :=
  match bins.map (binKhz s fe) with
  | [] => 0
  | f :: fs => fs.foldl max f - fs.foldl min f

/-- CARRIER_LIMIT (0x0206). -/
def carrierFails (s : State) (asn fe : Nat) : Bool :=
  let l := txChannels s asn fe
  decide (8 < l.length ∨ 4000 < spanKhz s fe l)

/-- LANE_BUDGET (0x0208): the reservations of a timeslot against the smallest permitted hearing mode. -/
def laneBudgetFails (s : State) (asn : Nat) (wide : Bool) : Bool :=
  let need := ((rxCells s asn).filter fun c => isWide (cellFe s asn c) == wide).length
  let permit := s.get Reg.CHAN_HEAR_CTRL.PERMIT
  let profile := s.get Reg.HEALTH_STATUS.PROFILE
  let excluded := (poolLanes wide).length - (usableLanes s wide).length
  ((List.range 3).filter (bit permit)).any fun m => decide (min (modeLanes m wide) (profileLanes profile wide) - excluded < need)

/-- The transmit cells of a front end counted in a timeslot: at most MAX_CARRIERS (R426), none on a front end that a
calibration took out (R82, R83). -/
def countedCells (s : State) (asn fe : Nat) : List Cell :=
  if s.start.feOut.contains fe then [] else (txCells s asn fe).take (s.get (Reg.FE_TX_CTRL.MAX_CARRIERS fe))

/-- Transmit cells of a front end in a hyperperiod, all of them and those whose channel lies in a sub-band. -/
def countTx (s : State) (fe : Nat) (p : Nat → Cell → Bool) : Nat :=
  ((List.range (hyperPeriod s)).map fun a => ((countedCells s a fe).filter (p a)).length).sum

/-- Does a cell's channel lie in the sub-band with this index? -/
def inSub (s : State) (fe sub : Nat) (a : Nat) (c : Cell) : Bool :=
  (subbandOf s fe (cellBin s a c)).any fun b => decide (b.index = sub)

/-- The sum of CIR over the queues of a port: the eight classes of its 256 tenants. -/
def cirSum (s : State) (port : Nat) : Nat :=
  ((List.range 256).map fun t => ((List.range 8).map fun c => s.get (Reg.SCHED_Q_RATE.CIR (2048 * port + 8 * t + c))).sum).sum

/-- Microseconds of a hyperperiod. -/
def hyperUs (s : State) : Nat := hyperPeriod s * s.get Reg.MAC_SLOT_0.SLOT_LEN * 10

/-- A_max of R426 on a front end: the longest airtime that SLOT_TURNAROUND admits, in µs. -/
def aMaxUs (s : State) (fe : Nat) : Nat :=
  s.get Reg.MAC_SLOT_0.SLOT_LEN * 10 - (s.get Reg.MAC_SLOT_0.TX_OFFSET + s.get Reg.MAC_SLOT_1.TX_ACK_DELAY
    + Config.longestAckUs (feModes s fe) + 100)

/-- RATE_COMMIT (0x020A) on a port (R426). -/
def rateFails (s : State) (port : Nat) : Bool :=
  if port ≤ 2 then
    decide (countTx s port (fun _ _ => true) * aMaxUs s port * 1000000 < cirSum s port * hyperUs s)
  else if port ≤ 4 then
    let line := match s.get (Reg.ETH_PORT_CFG.MODE (port - 3)) with
      | 0 => 0
      | 1 => 125000000
      | 2 => 1250000000
      | _ => 3125000000
    decide (line < cirSum s port)
  else decide (6250000000 < cirSum s port)

/-- The airtime of a MAX_LEN beacon (R427). -/
def beaconUs (s : State) : Nat :=
  ownAirtimeUs (s.get Reg.MAC_EB_CTRL.MODE) (s.get Reg.MAC_EB_CTRL.MAX_LEN) (beaconCr s)

/-- DUTY_COMMIT (0x0209) on a sub-band (R427): 3.6 × (D + B) against HOUR_MS - RESERVE_MS, over a common denominator. -/
def dutyFails (s : State) (b : SubBand) : Bool :=
  let all := max 1 (countTx s b.fe fun _ _ => true)
  let mine := countTx s b.fe (inSub s b.fe b.index)
  let adv := countTx s b.fe fun a c => c.adv && c.nbr.isNone && inSub s b.fe b.index a c
  let limit := s.get (Reg.SCHED_DUTY_CFG.HOUR_MS b.index) - s.get (Reg.SCHED_DUTY_CFG.RESERVE_MS b.index)
  decide (limit * 10 * all * hyperUs s <
    36 * (cirSum s b.fe * mine * hyperUs s + beaconUs s * adv * 1000000 * all))

/-- The checks 0x0202 to 0x0208 as (passes, code, ITEM): the item is the slotframe (R77), the front end for CARRIER_LIMIT,
and 0 for LANE_BUDGET (the last two DESIGN CHOICE: log entry 68). -/
def scheduleChecks (s : State) : List (Bool × Nat × Nat) :=
  let sfs := (slotframes s).flatMap fun i => (sfFes s i).map fun fe => (i, fe)
  let slots := List.range (hyperPeriod s)
  sfs.map (fun p => (!turnaroundFails s p.2, 0x0202, p.1)) ++ sfs.map (fun p => (!ackDeadlineFails s p.2, 0x0203, p.1)) ++
    sfs.map (fun p => (!retuneFails s p.2, 0x0204, p.1)) ++
    ([0, 1, 2] : List Nat).map (fun fe => (!slots.any fun a => carrierFails s a fe, 0x0206, fe)) ++
    [(!slots.any fun a => laneBudgetFails s a false || laneBudgetFails s a true, 0x0208, 0)]

/-- The first reason, and its item, for which a schedule is refused, of the checks 0x0202 to 0x020A: those of SCHEDULE by
ascending item, then those of SHAPERS (R74, R76). -/
def scheduleCause (s : State) : Option (Nat × Nat) :=
  match lowestItem (scheduleChecks s) with
  | some c => some c
  | none => match s.hear.subbands.find? fun b => dutyFails s b with
    | some b => some (0x0209, b.index)
    | none => match (List.range 7).find? (rateFails s) with
      | some p => some (0x020A, p)
      | none => none

end Sys2Proof.Machine
end

