-- ==== Sys2Proof/Machine/TimeBase.lean ====
section
/-!
DEFINITION. The TIME block (chapter 13): the single step, slewing, alarms, sources, the servo, holdover, 1PPS, the
timestamp queue and transparent clocking.
-/

namespace Sys2Proof.Machine

/-- The classes of reference, coded as SEL codes them. -/
def clsPTP : Nat := 1
def clsPPS : Nat := 2
def clsEB : Nat := 3

/-- A change of qualification, selection or holdover sets CHG (R469). -/
def timeChanged (s : State) : State := s.setFlag Reg.TIME_STATUS.CHG true

/-- The priority of a class; 0 is disabled (R448). -/
def clsPrio (s : State) (c : Nat) : Nat :=
  if c = clsPTP then s.get Reg.TIME_SRC_CTRL.PRIO_PTP
  else if c = clsPPS then s.get Reg.TIME_SRC_CTRL.PRIO_PPS
  else if c = clsEB then s.get Reg.TIME_SRC_CTRL.PRIO_EB
  else 0

/-- The qualification bit of a class. -/
def clsBit (c : Nat) : Fld :=
  if c = clsPTP then Reg.TIME_STATUS.PTP_Q
  else if c = clsPPS then Reg.TIME_STATUS.PPS_Q
  else Reg.TIME_STATUS.EB_Q

/-- Since when a class is qualified. -/
def clsSince (s : State) (c : Nat) : Option Nat :=
  if c = clsPTP then s.time.ptpSince else if c = clsPPS then s.time.ppsSince else s.time.ebSince

/-- Record since when a class is qualified. -/
def setClsSince (s : State) (c : Nat) (t : Option Nat) : State :=
  if c = clsPTP then { s with time := { s.time with ptpSince := t } }
  else if c = clsPPS then { s with time := { s.time with ppsSince := t } }
  else { s with time := { s.time with ebSince := t } }

/-- Select a class: SEL changes, and FOLLOW stands exactly while EB is selected (R450). -/
def selectClass (s : State) (c : Nat) : State :=
  if s.get Reg.TIME_STATUS.SEL = c then s
  else
    timeChanged (((s.set Reg.TIME_STATUS.SEL c).setFlag Reg.MAC_STATUS.FOLLOW (c = clsEB)))

/-- The highest-priority qualified class, other than none. -/
def bestClass (s : State) : Option Nat :=
  let ok := [clsPTP, clsPPS, clsEB].filter fun c => s.flag (clsBit c) && clsPrio s c ≠ 0
  ok.foldl (fun b c => match b with
    | none => some c
    | some d => if clsPrio s c < clsPrio s d then some c else some d) none

/-- Holdover ends. -/
def endHoldover (s : State) : State :=
  s.onlyIf (s.flag Reg.TIME_STATUS.HOLDOVER) fun s =>
    timeChanged (s.setFlag Reg.TIME_STATUS.HOLDOVER false)

/-- A class qualifies (R449): the first to qualify is selected (R450); the selected one qualifying again within
HOLDOVER_WAIT ends holdover (R451). A disabled class never qualifies. -/
def qualify (s : State) (c : Nat) : State :=
  if clsPrio s c = 0 || s.flag (clsBit c) then s
  else
    let s := timeChanged (setClsSince (s.setFlag (clsBit c) true) c (some s.tick))
    let s := s.onlyIf (s.get Reg.TIME_STATUS.SEL = 0) fun s => selectClass s c
    s.onlyIf (s.get Reg.TIME_STATUS.SEL = c &&
        !s.elapsedSec s.time.holdAt (s.get Reg.TIME_SRC_CTRL.HOLDOVER_WAIT)) endHoldover

/-- A class is disqualified (R449); the selected one starts holdover (R451), which freezes INC and I. -/
def disqualify (s : State) (c : Nat) : State :=
  if !s.flag (clsBit c) then s
  else
    let s := timeChanged (setClsSince (s.setFlag (clsBit c) false) c none)
    s.onlyIf (s.get Reg.TIME_STATUS.SEL = c) fun s =>
      let s := s.setFlag Reg.TIME_STATUS.HOLDOVER true
      { s with time := { s.time with holdAt := s.tick, selectAt := none } }

/-- Write INC, held within ±200 ppm of NOM (R436). -/
def writeInc (s : State) (inc : Int) : State :=
  let d := inc - (incNom : Int)
  let k := clampInt (incLimit : Int) d
  let s := s.set Reg.TIME_INC.INC ((incNom : Int) + k).toNat
  s.onlyIf (k ≠ d) fun s => s.setFlag Reg.TIME_STATUS.CLAMPED true

/-- The largest magnitude of SLEW_REM, in 2^-32 ns (R442). -/
def slewMax : Int := ((2 ^ 47 - 1 : Nat) : Int) * ((2 ^ 32 : Nat) : Int)

/-- STEP_USED is set: PPS qualifies if its last three edges were accepted (R449). -/
def ppsUsable (s : State) : State :=
  s.onlyIf (s.flag Reg.TIME_PPS_CTRL.IN_EN && decide (3 ≤ s.time.ppsRun)) fun s => qualify s clsPPS

/-- A step request (R439 to R444): accepted once and only forwards; later ones are refused and slewed.
`origin` is 0 for firmware and 1 for the servo (R468). -/
def requestStep (s : State) (origin : Nat) (ofs : Int) : State :=
  if s.flag Reg.TIME_STATUS.STEP_USED then
    let s := s.event Ev.STEP_REFUSED Block.TIME (at' origin 2 46 + at' (ofSigned 40 (satSigned 40 ofs)) 40 0)
    { s with time := { s.time with
        slew := clampInt slewMax (s.time.slew + ofs * ((2 ^ 32 : Nat) : Int)) } }
  else if ofs < 0 then s.setFlag Reg.TIME_STATUS.STEP_ERR true
  else
    let s := s.setFlag Reg.TIME_STATUS.STEP_USED true
    let s := { s with time := { s.time with ns := (s.time.ns + ofs.toNat) % 2 ^ 64, stepTick := some s.tick } }
    let s := { s with perf := { s.perf with stepped := s.perf.stepped || s.perf.period.isSome } }
    ppsUsable ((List.range 16).foldl (fun s n => s.setFlag (Reg.TIME_ALARM.ARMED n) false) s)

/-- A WAIVE (R441): ignored once the step is used. -/
def waiveStep (s : State) : State :=
  s.onlyIf (!s.flag Reg.TIME_STATUS.STEP_USED) fun s =>
    ppsUsable ((s.setFlag Reg.TIME_STATUS.STEP_USED true).setFlag Reg.TIME_STATUS.WAIVED true)

/-- A sample from class `c` (R452, R453): only the selected class's samples are recorded and processed. -/
def servoSample (s : State) (c : Nat) (theta : Int) : State :=
  if s.get Reg.TIME_STATUS.SEL ≠ c then s
  else
    let s := endHoldover s
    let s := (s.set Reg.TIME_OFS_LAST.SRC c).set Reg.TIME_OFS_LAST.THETA (ofSigned 48 (satSigned 48 theta))
    if s.time.slew ≠ 0 || !s.flag Reg.TIME_CTRL.SERVO_EN then s
    else if max 100 (s.get Reg.TIME_SERVO.STEP_THRESH) < theta.natAbs then
      -- in the cycle of an accepted step the servo's request is discarded (R444)
      if s.time.stepTick = some s.tick then s else requestStep s 1 (-theta)
    else
      let i := clampInt (incLimit : Int)
        (s.time.integral + ((s.get Reg.TIME_SERVO.I_GAIN : Int) * theta).tdiv 256)
      let s := { s with time := { s.time with integral := i } }
      writeInc s ((incNom : Int) - ((s.get Reg.TIME_SERVO.P_GAIN : Int) * theta).tdiv 256 - i)

/-- A PTP sample (R449, R452): a write of TIME_OFS_IN. -/
def ptpSample (s : State) (theta : Int) : State :=
  let s := { s with time := { s.time with ptpAt := some s.tick } }
  servoSample (qualify s clsPTP) clsPTP theta

/-- A write of TIME_INC: ignored while the servo runs (R453). -/
def writeTimeInc (s : State) (v : Nat) : State :=
  s.onlyIf (!s.flag Reg.TIME_CTRL.SERVO_EN) fun s => writeInc s ((v % 2 ^ 36 : Nat) : Int)

/-- Has alarm `n` reached its target (R445, R446)? -/
def alarmDue (s : State) (n : Nat) : Bool :=
  s.flag (Reg.TIME_ALARM.ARMED n) &&
    decide (0 ≤ diffN 32 s.time.ns (s.get (Reg.TIME_ALARM.TARGET n)))

/-- One nanosecond count per second. -/
def nsPerSec : Nat := 1000000000

/-- The 1PPS phase sample (R456). -/
def ppsTheta (t : Nat) : Int :=
  let m := t % nsPerSec
  if m < 500000000 then (m : Int) else (m : Int) - (nsPerSec : Int)

/-- The edge time after the board delay IN_OFS (R454). -/
def ppsEdgeTime (s : State) : Nat :=
  ((s.time.ns : Int) - toSigned 16 (s.get Reg.TIME_PPS_CTRL.IN_OFS)).toNat % 2 ^ 64

/-- Is an edge at `t` accepted (R455)? The first after enable or a miss is; a later one within ±WIN of the last
accepted edge plus one second. -/
def ppsAccepts (s : State) (t : Nat) : Bool :=
  match s.time.ppsEdge with
  | none => true
  | some e => s.time.ppsRun = 0 || decide
      ((diffN 64 t (e + nsPerSec)).natAbs ≤ s.get Reg.TIME_PPS_CTRL.WIN)

/-- Push an entry into the timestamp queue (R460). -/
def pushStamp (s : State) (e : Stamp) : State :=
  if s.time.stamps.length < 256 then { s with time := { s.time with stamps := s.time.stamps ++ [e] } }
  else (s.setFlag Reg.TIME_TS_STATUS.OVF true).bump Reg.TIME_TS_STATUS.LOST

/-- Word 0 of a timestamp entry (R460). -/
def stampWord0 (tx : Bool) (port msgType seqId frac : Nat) : Nat :=
  at' (b2n tx) 1 63 + at' port 2 61 + at' msgType 4 57 + at' seqId 16 41 + at' frac 16 0

/-- What the next pop of TIME_TS_WORD returns. -/
def stampHead (s : State) : Nat :=
  match s.time.stamps with
  | [] => 0
  | e :: _ => if s.time.word1 then e.ns else e.word0

/-- Pop one word of the timestamp queue, word 0 first (R460, R739). -/
def popStamp (s : State) : State :=
  let s' := s.answer (stampHead s)
  match s.time.stamps with
  | [] => s'
  | _ :: rest =>
    if s.time.word1 then { s' with time := { s'.time with stamps := rest, word1 := false } }
    else { s' with time := { s'.time with word1 := true } }

/-- The corrected correctionField of a forwarded event message (R463): residence in 2^-16 ns, saturating. -/
def correction (c : Int) (ti te : Int) : Int := min (c + (te - ti)) 0x7FFFFFFFFFFFFFFF

/-- One's-complement 16-bit addition. -/
def ocAdd (a b : Nat) : Nat := (a + b) % 65536 + (a + b) / 65536

/-- The one's-complement sum of the four 16-bit words of a correctionField. -/
def ocSum64 (c : Nat) : Nat := ocAdd (ocAdd (bits c 63 48) (bits c 47 32)) (ocAdd (bits c 31 16) (bits c 15 0))

/-- The rewritten trailer of an Annex D message (R464). -/
def trailer (t old new : Nat) : Nat := ocAdd (ocAdd t (ocSum64 old)) (65535 - ocSum64 new)

/-! The commands. -/

/-- ALARM_FIRE (R445): a due alarm clears ARMED and sets FIRED. -/
def execAlarmFire (dt : Nat) (n : Fin 16) (s : State) : Result :=
  whenever dt s (fun s => alarmDue s n) fun s =>
    (s.setFlag (Reg.TIME_ALARM.ARMED n) false).setFlag (Reg.TIME_ALARM.FIRED n) true

/-- TIME_STEP_REQUEST (R439): a write of TIME_STEP. -/
def execTimeStepRequest (dt : Nat) (value : Word) (s : State) : Result :=
  step' dt s fun s => (requestStep s 0 value.toInt).answer 0

/-- TIME_WAIVE (R441): a write of WAIVE in TIME_CTRL. -/
def execTimeWaive (dt : Nat) (s : State) : Result :=
  step' dt s fun s => (waiveStep s).answer 0

/-- SLEW_DONE (R443): the slew has ended at exactly zero, and INC applies again. Time itself moves SLEW_REM; before
it reaches zero the command does nothing more. -/
def execSlewDone (dt : Nat) (s : State) : Result := step' dt s id

/-- A write of TIME_OFS_IN; with HERD_TIME set it is ignored (R491). -/
def writeOfsIn (s : State) (theta : Int) : State :=
  s.onlyIf (!s.flag Reg.HERD_CTRL.HERD_TIME) fun s => ptpSample s theta

/-- PTP_SAMPLE (R453): a write of TIME_OFS_IN. -/
def execPtpSample (dt : Nat) (theta : Word) (s : State) : Result :=
  step' dt s fun s => (writeOfsIn s theta.toInt).answer 0

/-- PTP_TIMEOUT (R449): PTP_TIMEOUT passes without a write, and PTP is disqualified. -/
def execPtpTimeout (dt : Nat) (s : State) : Result :=
  whenever dt s
    (fun s => match s.time.ptpAt with
      | none => false
      | some t => s.elapsedMs t (10 * s.get Reg.TIME_SRC_CTRL.PTP_TIMEOUT))
    fun s => disqualify s clsPTP

/-- SOURCE_REVERT (R450): a class of higher priority, qualified for REVERT_S seconds, replaces the selected one. -/
def execSourceRevert (dt : Nat) (s : State) : Result :=
  step' dt s fun s =>
    let r := s.get Reg.TIME_SRC_CTRL.REVERT_S
    let sel := s.get Reg.TIME_STATUS.SEL
    let cand := [clsPTP, clsPPS, clsEB].filter fun c =>
      s.flag (clsBit c) && clsPrio s c ≠ 0 && decide (clsPrio s c < clsPrio s sel) &&
        (match clsSince s c with | none => false | some t => s.elapsedSec t r)
    let best := cand.foldl (fun b c => match b with
      | none => some c
      | some d => if clsPrio s c < clsPrio s d then some c else some d) none
    match best with
    | none => s
    | some c => s.onlyIf (r ≠ 0 && sel ≠ 0) fun s => selectClass s c

/-- The selection made in holdover (R451): the highest-priority qualified class, if one is. -/
def holdoverSelect (s : State) : State :=
  let s := match bestClass s with
    | none => s
    | some c => selectClass s c
  { s with time := { s.time with selectAt := some (s.time.ns / 1000000000) } }

/-- HOLDOVER_SELECTION_REPEAT (R451): with no class qualified at HOLDOVER_WAIT, the selection is repeated at each
whole second. -/
def execHoldoverSelectionRepeat (dt : Nat) (s : State) : Result :=
  whenever dt s
    (fun s => s.flag Reg.TIME_STATUS.HOLDOVER && !s.flag (clsBit (s.get Reg.TIME_STATUS.SEL)) &&
      (match s.time.selectAt with | none => false | some t => decide (t < s.time.ns / nsPerSec)))
    holdoverSelect

/-- PPS_EDGE (R455, R456): a rising edge on the 1PPS input. -/
def execPpsEdge (dt : Nat) (s : State) : Result :=
  whenever dt s (fun s => s.flag Reg.TIME_PPS_CTRL.IN_EN) fun s =>
    let t := ppsEdgeTime s
    if ppsAccepts s t then
      let s := { s with time := { s.time with
        ppsEdge := some t, ppsRun := s.time.ppsRun + 1, ppsMisses := 0 } }
      if s.flag Reg.TIME_STATUS.STEP_USED then
        let s := s.onlyIf (3 ≤ s.time.ppsRun) fun s => qualify s clsPPS
        servoSample s clsPPS (ppsTheta t)
      else s
    else s.count Ctr.PPS_IGNORED

/-- PPS_MISS (R455, R468): one second and WIN pass without an accepted edge. -/
def execPpsMiss (dt : Nat) (s : State) : Result :=
  whenever dt s
    (fun s => s.flag Reg.TIME_PPS_CTRL.IN_EN && (match s.time.ppsEdge with
      | none => false
      | some e => decide (0 ≤ diffN 64 s.time.ns (e + nsPerSec + s.get Reg.TIME_PPS_CTRL.WIN))))
    fun s =>
      let due := (s.time.ppsEdge.getD 0 + nsPerSec) % 2 ^ 64
      let s := { s with time := { s.time with
        ppsEdge := some due, ppsRun := 0, ppsMisses := s.time.ppsMisses + 1 } }
      let s := s.event Ev.PPS_LOST Block.TIME (at' (min s.time.ppsMisses 255) 8 40 + at' due 32 0)
      disqualify s clsPPS

/-- PPS_OUT_RISE (R457): the output rises within 2 ns of each k × 10^9 + OUT_OFS. -/
def execPpsOutRise (dt : Nat) (s : State) : Result :=
  whenever dt s
    (fun s => s.flag Reg.TIME_PPS_CTRL.OUT_EN && s.flag Reg.TIME_STATUS.STEP_USED &&
      (let p := (((s.time.ns : Int) - toSigned 16 (s.get Reg.TIME_PPS_CTRL.OUT_OFS)) % (nsPerSec : Int)).toNat
       decide (p ≤ 2 ∨ nsPerSec - 2 ≤ p)))
    fun s => ({ s with time := { s.time with ppsOut := true, ppsRose := s.time.ns } }).emit (.pin .ppsOut true)

/-- PPS_OUT_FALL (R457): the output falls OUT_WIDTH milliseconds after it rose. -/
def execPpsOutFall (dt : Nat) (s : State) : Result :=
  whenever dt s
    (fun s => s.time.ppsOut &&
      decide (s.time.ppsRose + max 1 (s.get Reg.TIME_PPS_CTRL.OUT_WIDTH) * 1000000 ≤ s.time.ns))
    fun s => ({ s with time := { s.time with ppsOut := false } }).emit (.pin .ppsOut false)

/-- TIME_TS_WORD_POP (R460, R739): a 64-bit read of TIME_TS_WORD. -/
def execTimeTsWordPop (dt : Nat) (s : State) : Result := step' dt s popStamp

end Sys2Proof.Machine
end

