-- ==== Sys2Proof/Machine/Beacon.lean ====
section
/-!
DEFINITION. The Rooster (R231, R233, R268 to R271, R742): the frame of a beacon.
-/

namespace Sys2Proof.Machine

/-- The frame of a beacon with its payload IEs (R268). -/
def beaconFrame (s : State) (payload : List Byte) : TxFrame :=
  { ftype := 0, dst := .short 0xFFFF, src := .ext (deviceId s), level := 2, group := true
    ies := termBeforeIes, payload := payload }

/-- Order 1, the TSCH Synchronization IE: the ASN and join metric 0. -/
def syncIe (asn : Nat) : List Byte := nestedShort 0x1A (leBytes 5 asn ++ [0])

/-- Order 2, the Prebry time IE (R269): `tai` is the nominal first chip of the beacon's sync word. FOLLOW and the time base each know
a holdover; the bit shows either, the model's choice. -/
def timeIe (s : State) (tai : Nat) : List Byte :=
  let holdover := s.flag Reg.MAC_STATUS.HOLDOVER || s.flag Reg.TIME_STATUS.HOLDOVER
  let sel := s.get Reg.TIME_STATUS.SEL
  payloadIe 2 (prebry 0x02 ++ leBytes 8 tai ++ leBytes 1 (b2n holdover + 2 * b2n (decide (sel = clsPTP ∨ sel = clsPPS))) ++
    leBytes 2 (s.get Reg.TIME_SRC_CTRL.UTC_OFS))

/-- Order 3, the full TSCH Timeslot IE: the fields in the standard's order. -/
def timeslotIe (s : State) : List Byte :=
  let txOfs := s.get Reg.MAC_SLOT_0.TX_OFFSET
  let rxWait := s.get Reg.MAC_SLOT_0.RX_WAIT
  let ackDelay := s.get Reg.MAC_SLOT_1.TX_ACK_DELAY
  let ackWait := s.get Reg.MAC_SLOT_1.ACK_WAIT
  let longest := min 65535 (min 400 (max 10 (s.get Reg.CHAN_LANE_CTRL.MAX_AIRTIME)) * 1000)
  nestedShort 0x1C (leBytes 1 1 ++ ([s.get Reg.MAC_SLOT_1.CCA_OFFSET, s.get Reg.MAC_SLOT_1.CCA_LEN, txOfs, txOfs - rxWait / 2,
    ackDelay - ackWait / 2, ackDelay, rxWait, ackWait, 250, longest, longest, s.get Reg.MAC_SLOT_0.SLOT_LEN * 10] : List Nat).flatMap
      (leBytes 2))

/-- The CHNUM sequence of a slotframe. -/
def chnums (s : State) (sf : Nat) : List Byte :=
  (List.range (s.get (Reg.MAC_SF.HOP_LEN sf))).flatMap fun k => leBytes 2 (s.get (Reg.MAC_HOP.CHNUM (256 * sf + k)))

/-- Order 4, the Channel Hopping IE of a slotframe. `open'` gives the octets of the fields whose values no rule states: sequence ID,
page, number of channels and PHY configuration in front of the sequence, the current hop behind it. -/
def hoppingIe (s : State) (sf open' : Nat) : List Byte :=
  nestedLong 0x09 (leBytes 8 open' ++ leBytes 2 (s.get (Reg.MAC_SF.HOP_LEN sf)) ++ chnums s sf ++ leBytes 2 (open' / 2 ^ 64))

/-- The links that order 5 lists: valid cells with ADV or SHARED set and NBR_EN clear, in enabled slotframes. -/
def beaconLinks (s : State) : List Cell :=
  sortBy (fun a b => decide (a.sf < b.sf ∨ (a.sf = b.sf ∧ a.index ≤ b.index)))
    ((validCells s).filter fun c => (c.adv || c.shared) && c.nbr.isNone && s.flag (Reg.MAC_SF.EN c.sf))

/-- How many links fit: 5 octets each, and 4 for the head of each slotframe. -/
def linksFit : List Cell → Option Nat → Nat → Nat
  | [], _, _ => 0
  | c :: rest, sf, room =>
    let need := 5 + (if sf = some c.sf then 0 else 4)
    if need ≤ room then 1 + linksFit rest (some c.sf) (room - need) else 0

/-- A link: timeslot, channel offset, and the options of the cell word as the standard numbers them. -/
def linkOctets (s : State) (c : Cell) : List Byte :=
  leBytes 2 c.timeslot ++ leBytes 2 c.chofs ++
    leBytes 1 (b2n c.tx + 2 * b2n c.rx + 4 * b2n c.shared + 8 * b2n (bit (cellWord s c.index) 32) + 16 * b2n c.prio)

/-- The links of a slotframe under its head. -/
def sfLinks (s : State) (l : List Cell) (sf : Nat) : List Byte :=
  let mine := l.filter fun c => decide (c.sf = sf)
  if mine.isEmpty then []
  else leBytes 1 (s.get (Reg.MAC_SF.HANDLE sf)) ++ leBytes 2 (s.get (Reg.MAC_SF.LENGTH sf)) ++ leBytes 1 mine.length ++
    mine.flatMap (linkOctets s)

/-- Order 5, the TSCH Slotframe and Link IE, in the room left; a short nested IE holds 255 octets. -/
def linksIe (s : State) (room : Nat) : List Byte :=
  let l := (beaconLinks s).take (linksFit (beaconLinks s) none (min (room - 5) 254))
  if l.isEmpty then []
  else nestedShort 0x1B (leBytes 1 ((List.range 8).filter fun i => l.any fun c => decide (c.sf = i)).length ++
    (List.range 8).flatMap (sfLinks s l))

/-- The slotframes that order 6 takes up, from slotframe `start` on: those enabled other than the beacon's own. -/
def hopList (s : State) (own start : Nat) : List Nat :=
  let l := (slotframes s).filter fun i => decide (i ≠ own)
  (l.filter fun i => decide (start ≤ i)) ++ l.filter fun i => decide (i < start)

/-- The slotframes that fit whole, and the first one left out. -/
def hopsFit (s : State) : List Nat → Nat → List Nat × Option Nat
  | [], _ => ([], none)
  | i :: rest, room =>
    let need := 2 + 2 * s.get (Reg.MAC_SF.HOP_LEN i)
    if need ≤ room then
      let r := hopsFit s rest (room - need)
      (i :: r.1, r.2)
    else ([], some i)

/-- Order 6, the Prebry hopping IE of slotframes (R271). -/
def hopsIe (s : State) (l : List Nat) : List Byte :=
  if l.isEmpty then []
  else payloadIe 2 (prebry 0x03 ++ l.flatMap fun i =>
    leBytes 1 (s.get (Reg.MAC_SF.HANDLE i)) ++ leBytes 1 (s.get (Reg.MAC_SF.HOP_LEN i) - 1) ++ chnums s i)

/-- Order 7, the recovery-acknowledgement bitmap (R231). -/
def raIe (s : State) (l : List RaEntry) : List Byte :=
  if l.isEmpty then []
  else payloadIe 2 (prebry 0x01 ++ leBytes 1 (b2n (decide (s.get Reg.CHAN_STATUS.MODE = modeSTORM))) ++ leBytes 1 l.length ++
    l.flatMap fun e => leBytes 2 e.short ++ leBytes 2 e.fcBase ++ leBytes 1 e.map)

/-- Keep an IE if it fits whole. -/
def whole (room : Nat) (ie : List Byte) : List Byte := if ie.length ≤ room then ie else []

/-- A beacon as it is built at commit (R742): its frame and the state after; `none` where it does not fit MAX_LEN. -/
def buildBeacon (s : State) (fe sf asn tai : Nat) : Option (TxFrame × State) :=
  let maxLen := min 1023 (max 32 (s.get Reg.MAC_EB_CTRL.MAX_LEN))
  let base := syncIe asn ++ timeIe s tai
  let used := (beaconFrame s base).psduLen false (fcsLen fe)
  if maxLen < used then none
  else
    let count := Cells.get s.mac.ebCount fe 0
    let full := decide (count % max 1 (s.get Reg.MAC_EB_CTRL.FULL_EVERY) = 0)
    let room := maxLen - used
    let o3 := if full then whole room (timeslotIe s) else []
    let room := room - o3.length
    let o4 := if full then whole room (hoppingIe s sf s.free) else []
    let s := s.onlyIf full State.drawn
    let room := room - o4.length
    let o5 := if full then linksIe s room else []
    let room := room - o5.length
    let list := hopList s sf s.mac.hopNext
    let hops := if full then hopsFit s list (room - 6) else ([], none)
    let o6 := if room < 6 then [] else hopsIe s hops.1
    -- the next full beacon goes on with the first slotframe left out
    let hopNext := if full then (if room < 6 then list.head? else hops.2).getD 0 else s.mac.hopNext
    let room := room - o6.length
    let ra := raPick s fe ((room - 8) / 5)
    let o7 := raIe s ra.1
    let place := if ra.1.isEmpty then s.ox.raNext else Cells.set s.ox.raNext fe ra.2 0
    let s := { s with ox := { s.ox with raNext := place } }
    let s := s.setMac { s.mac with ebCount := Cells.set s.mac.ebCount fe (count + 1) 0, hopNext := hopNext }
    some (beaconFrame s (base ++ o3 ++ o4 ++ o5 ++ o6 ++ o7), s)

end Sys2Proof.Machine
end

