-- ==== Sys2Proof/Machine/FrontEnd.lean ====
section
/-!
DEFINITION. The commands of the radio front ends (R92 to R142): gain, calibration, transmission, blanking and the mask
monitor.
-/

namespace Sys2Proof.Machine

/-! Gain (R95). -/

/-- AGC_STEP_DOWN (R95): `clipped` samples within 1 µs exceed the threshold; `peak` is the peak in dBFS. -/
def execAgcStepDown (dt : Nat) (fe : Fin 3) (clipped : Nat) (peak : Int) (s : State) : Result :=
  whenever dt s
    (fun s => !s.flag (Reg.FE_AGC_CTRL.FREEZE fe) &&
      decide (8 < clipped ∧ -(s.get (Reg.FE_AGC_CTRL.CLIP_DBFS fe) : Int) < peak ∧
        s.get (Reg.FE_AGC_STATUS.GAIN_STATE fe) < 3))
    fun s => (s.set (Reg.FE_AGC_STATUS.GAIN_STATE fe) (s.get (Reg.FE_AGC_STATUS.GAIN_STATE fe) + 1)).set
      (Reg.FE_AGC_STATUS.PEAK_DBFS fe) (ofSigned 8 peak)

/-- AGC_STEP_UP (R95): every sample has stayed below the threshold for `quietMs`. -/
def execAgcStepUp (dt : Nat) (fe : Fin 3) (quietMs : Nat) (peak : Int) (s : State) : Result :=
  whenever dt s
    (fun s => !s.flag (Reg.FE_AGC_CTRL.FREEZE fe) &&
      decide (10 * max 1 (s.get (Reg.FE_AGC_CTRL.UP_WAIT fe)) ≤ quietMs ∧
        peak < -(2 * s.get (Reg.FE_AGC_CTRL.LOW_DBFS fe) : Int) ∧ 0 < s.get (Reg.FE_AGC_STATUS.GAIN_STATE fe)))
    fun s => (s.set (Reg.FE_AGC_STATUS.GAIN_STATE fe) (s.get (Reg.FE_AGC_STATUS.GAIN_STATE fe) - 1)).set
      (Reg.FE_AGC_STATUS.PEAK_DBFS fe) (ofSigned 8 peak)

/-! The synthesiser table (R97 to R103). -/

/-- Do the temperatures of a front end's entries fall to be compared now (R99): at a multiple of 10 ms of TIME_NS, once? The
clock moves at most 2 ns a tick. -/
def tempDue (s : State) (fe : Nat) : Bool :=
  decide (Boot.CALIBRATE ≤ s.boot ∧ s.boot ≤ Boot.RUN ∧ s.time.ns % 10000000 < 2 ∧
    (s.fe fe).tempAt ≠ some (s.time.ns / 10000000))

/-- TXCAL_TEMP_CHECK (R99): each VALID entry whose TCAL differs from the die temperature by more than 8 °C becomes STALE.
Temperatures are in 0.125 °C. -/
def execTxcalTempCheck (dt : Nat) (fe : Fin 3) (die : Int) (s : State) : Result :=
  whenever dt s (fun s => tempDue s fe) fun s =>
    let s := s.setFe fe { s.fe fe with die := die, tempAt := some (s.time.ns / 10000000) }
    let s := s.set (Reg.FE_STATUS.TEMP fe) (ofSigned 8 (die.tdiv 8))
    let far := fun i => decide (64 < (die - toSigned 12 (s.get (Reg.FE_TXCAL_ENTRY.TCAL fe i))).natAbs)
    let s := (List.range (s.fe fe).used).foldl (fun s i =>
      let s := s.onlyIf (decide (calState s fe i = Cal.VALID) && far i) fun s =>
        s.set (Reg.FE_TXCAL_ENTRY.STATE fe i) Cal.STALE
      s.onlyIf (decide (calState s fe i = Cal.CALIBRATING ∧ s.get (Reg.FE_TXCAL_ENTRY.PRIOR fe i) = Cal.VALID) && far i)
        fun s => s.set (Reg.FE_TXCAL_ENTRY.PRIOR fe i) Cal.STALE) s
    refreshCal s fe

/-- The idle conditions of R102: the chain is not emitting, holds no committed emission, and no schedule cell emits within
1,300 µs. Emissions are built at the timeslot's start, so those of the present timeslot stand with the chain; of the
timeslots that begin within the time, the transmit cells count. A planned acknowledgement or free-run emission is no cell. -/
def idleChain (s : State) (fe : Nat) : Bool :=
  let soon := s.time.ns + 1300000
  let next := asnAt s s.time.ns + 1
  (s.fe fe).emissions.all (fun e => decide (e.phase = .planned) &&
      (decide (e.kind = 1) || e.freeRun.isSome || decide (soon < e.nominalNs))) &&
    (!tschOn s || (List.range (1300000 / slotNs s + 1)).all fun k =>
      decide (soon < slotStart s (next + k) + s.get Reg.MAC_SLOT_0.TX_OFFSET * 1000) || (txCells s (next + k) fe).isEmpty)

/-- Temperature difference of an entry from the die. -/
def calDrift (s : State) (fe i : Nat) : Nat :=
  ((s.fe fe).die - toSigned 12 (s.get (Reg.FE_TXCAL_ENTRY.TCAL fe i))).natAbs

/-- The entry that background calibration takes next (R102). -/
def bgNext (s : State) (fe : Nat) : Option Nat :=
  let used := List.range (s.fe fe).used
  let stale := used.filter fun i => decide (calState s fe i = Cal.STALE)
  let best := stale.foldl (fun b i => match b with
    | none => some i
    | some j => if calDrift s fe j < calDrift s fe i then some i else some j) none
  match best with
  | some i => some i
  | none =>
    let start := match (s.fe fe).lastAttempt with
      | none => 0
      | some i => i + 1
    ((used.drop start) ++ used.take start).find? fun i => decide (calState s fe i = Cal.INVALID)

/-- An entry's calibration starts: its state stands in PRIOR. -/
def calStart (s : State) (fe i : Nat) (requested : Bool) : State :=
  let st := calState s fe i
  let f := s.fe fe
  let s := s.setFe fe { f with cal := some { entry := i, requested := requested }
                               lastAttempt := if st = Cal.INVALID ∧ !requested then some i else f.lastAttempt }
  let s := (s.set (Reg.FE_TXCAL_ENTRY.PRIOR fe i) st).set (Reg.FE_TXCAL_ENTRY.STATE fe i) Cal.CALIBRATING
  refreshCal s fe

/-- The next entry that a request of KIND 4 or 5 has queued. -/
def requestNext (s : State) (fe : Nat) : Option Nat :=
  match (s.fe fe).request with
  | none => none
  | some r => r.entries.head?

/-- BG_CAL_START (R102, R139): on an idle chain the calibration of one entry starts, a requested one first. -/
def execBgCalStart (dt : Nat) (fe : Fin 3) (s : State) : Result :=
  whenever dt s
    (fun s => s.inRun && (s.fe fe).cal.isNone && idleChain s fe)
    fun s => match requestNext s fe with
      | some i => calStart s fe i true
      | none =>
        if s.flag (Reg.FE_TXCAL_CTRL.BG_EN fe) then
          match bgNext s fe with
          | some i => calStart s fe i false
          | none => s
        else s

/-- TX_CAL_DONE (R100, R102): an entry's calibration completes, or fails and leaves the entry INVALID. -/
def execTxCalDone (dt : Nat) (fe : Fin 3) (ok : Bool) (s : State) : Result :=
  step' dt s fun s =>
    match (s.fe fe).cal with
    | none => s
    | some c =>
      let s := s.setFe fe { s.fe fe with cal := none }
      let s := if ok then calValid s fe c.entry
        else refreshCal ((s.set (Reg.FE_TXCAL_ENTRY.STATE fe c.entry) Cal.INVALID).set
          (Reg.FE_TXCAL_ENTRY.PRIOR fe c.entry) 0) fe
      if c.requested then
        let s := s.onlyIf (!ok) fun s => calFail s fe 4 c.entry
        match (s.fe fe).request with
        | none => s
        | some r =>
          let r' := { r with entries := r.entries.drop 1, failed := r.failed || !ok }
          s.setFe fe { s.fe fe with request := some r' }
      else s.onlyIf (!ok) fun s => s.count Ctr.BG_CAL_FAIL

/-! Transmission (R104 to R111). -/

/-- The earliest emission of a chain in a phase. -/
def inPhase (s : State) (fe : Nat) (p : Phase) : Option Emission :=
  (s.fe fe).emissions.find? fun e => decide (e.phase = p)

/-- The earliest committed emission that has not started. -/
def nextCommitted (s : State) (fe : Nat) : Option Emission :=
  (s.fe fe).emissions.find? fun e => e.committed && decide (e.phase ≠ .emitting)

/-- TX_HOP_START (R104, R734): the hop starts no earlier than the settle bound allows, and never while the chain emits or
within FEM_LAG of its last chip. -/
def execTxHopStart (dt : Nat) (fe : Fin 3) (s : State) : Result :=
  step' dt s fun s =>
    match nextCommitted s fe with
    | none => s
    | some e =>
      s.onlyIf (decide (e.phase = .committed) && (emitting s fe).isNone && (s.fe fe).cal.isNone &&
          decide (e.nominalNs ≤ s.time.ns + settleNs s fe e) &&
          (decide ((s.fe fe).lastChipNs = 0) || decide ((s.fe fe).lastChipNs + lagNs s fe ≤ s.time.ns))) fun s =>
        let s := putEmission s fe e { e with phase := .hopping }
        (s.set (Reg.FE_STATUS.TX_ENTRY fe) e.entry).setFlag (Reg.FE_STATUS.TX_LOCK fe) false

/-- TX_LOCK (R101): the synthesiser locks; from STALE or INVALID values, the entry becomes VALID. -/
def execTxLock (dt : Nat) (fe : Fin 3) (s : State) : Result :=
  step' dt s fun s =>
    match inPhase s fe .hopping with
    | none => s
    | some e =>
      let s := putEmission s fe e { e with phase := .locked }
      let s := s.setFlag (Reg.FE_STATUS.TX_LOCK fe) true
      s.onlyIf (!e.scratch && decide (calState s fe e.entry = Cal.INVALID ∨ calState s fe e.entry = Cal.STALE)) fun s =>
        calValid s fe e.entry

/-- Does the listen of a free-run emission still run (R255)? -/
def listening (s : State) (e : Emission) : Bool :=
  match e.freeRun with
  | none => false
  | some f => decide (e.kind ≠ 1) && (match runOf s f with | some r => r.listening | none => false)

/-- The taps of an emission's carriers take effect (R120). -/
def firApply (s : State) (fe n : Nat) : State :=
  if fe = 2 then s
  else
    let live := (List.range (64 * n)).foldl
      (fun l i => Cells.set l i (s.get (Reg.FE_FIR_DATA.COEF fe i)) (firReset (i % 64))) (s.fe fe).firLive
    s.setFe fe { s.fe fe with firLive := live }

/-- The loopback learns when an emission with class 0 carriers began (R654). -/
def watchStart (s : State) (fe : Nat) (e : Emission) (startNs : Nat) : State :=
  let air := 1000 * (e.carriers.filter Carrier.safety).foldl (fun t c => max t c.airtimeUs) 0
  let power := ((e.carriers.find? Carrier.safety).map (·.pinQdbm)).getD 0
  { s with safe := { s.safe with loopbacks := s.safe.loopbacks.map fun l =>
    if l.fe = fe ∧ l.asn = e.asn then { l with stayToNs := startNs + air - 20000, fallByNs := startNs + air + 20000, qdbm := power }
    else l } }

/-- Is an emission ready to leave: its frames are encrypted (R39, R40), and the channels of SHARED cells assessed free (R252)? -/
def Emission.ready (e : Emission) : Bool := e.sealed && e.carriers.all fun c => !c.shared || c.assessed

/-- EMISSION_START (R105): the first chip leaves at the later of the nominal instant and lock. -/
def execEmissionStart (dt : Nat) (fe : Fin 3) (s : State) : Result :=
  step' dt s fun s =>
    match inPhase s fe .locked with
    | none => s
    | some e =>
      s.onlyIf (decide (e.nominalNs ≤ s.time.ns) && e.ready && !listening s e) fun s =>
        let n := e.carriers.length
        let e' := { e with phase := .emitting, startNs := s.time.ns
                           carriers := e.carriers.map fun c => c.atPower s fe (carrierPower s fe n c) }
        let s := putEmission (firApply s fe n) fe e e'
        let s := s.setFe fe { s.fe fe with maskDone := 0 }
        let s := (s.setFlag (Reg.FE_STATUS.TX_ON fe) true).set (Reg.FE_STATUS.CARRIERS fe) n
        let s := watchStart s fe e' s.time.ns
        s.emit (.emission fe e.kind e'.carriers (e'.carriers.map onAir) s.time.ns)

/-- TX_DEADLINE (R106, R107): the deadline passes without lock. -/
def execTxDeadline (dt : Nat) (fe : Fin 3) (s : State) : Result :=
  step' dt s fun s =>
    match nextCommitted s fe with
    | none => s
    | some e =>
      s.onlyIf (decide (e.phase ≠ .locked ∧ e.deadline ≤ s.time.ns)) fun s =>
        let busy := match (s.fe fe).cal with
          | some c => !e.scratch && decide (c.entry = e.entry)
          | none => false
        abandon s fe e (if busy then Late.CAL_BUSY else Late.LOCK_TIMEOUT)

/-- The frames of a committed emission that lost its lock are not sent (R108, R109). -/
def execLockLost (dt : Nat) (fe : Fin 3) (s : State) : Result :=
  step' dt s fun s =>
    match emitting s fe with
    | none => s
    | some e =>
      let s := (txLate s fe e Late.LOCK_LOST).setFlag (Reg.FE_STATUS.TX_LOCK fe) false
      let s := (chainOff s fe).emit (.rampDown fe)
      let s := e.carriers.foldl (fun s c => match c.load with
        | .data _ _ _ => unsend s fe e { c with duty := none }
        | .wake _ _ => wakeEnd s (some 4)
        | _ => s) s
      freeChannel s e

/-- EMISSION_END (R123): the last chip leaves and the chain becomes free after its lag. DPD tracks every emission (R119). -/
def execEmissionEnd (dt : Nat) (fe : Fin 3) (s : State) : Result :=
  step' dt s fun s =>
    match emitting s fe with
    | none => s
    | some e =>
      s.onlyIf (decide (e.startNs + e.airNs ≤ s.time.ns)) fun s =>
        let s := e.carriers.foldl (fun s c => match c.load with
          | .wake _ _ => s
          | _ => s.portTx fe c.len c.airtimeUs) s
        let last := e.startNs + e.airNs
        let s := chainOff s fe
        let s := finishEmission (s.setFe fe { s.fe fe with lastChipNs := last }) fe e last
        s.onlyIf (decide (fe.val ≠ 2)) fun s => s.setFe fe { s.fe fe with dpdUs := (s.fe fe).dpdUs + e.airNs / 1000 }

/-! Blanking (R123 to R125). -/

/-- Does the start of blanking of a front end move a lane (R157)? One with a frame or a reservation there; and one in INJECT of the
pool that serves the front end, as the rule excepts no state but EXCLUDED. -/
def blanksLane (fe : Nat) (e : Nat × Lane) : Bool :=
  if e.2.stage = .inject then decide (256 ≤ e.1) == isWide fe else decide (e.2.fe = fe)

/-- The frames in progress on a front end are abandoned and its lanes return to the free pool (R124, R157); how many frames. -/
def abandonFrames (s : State) (fe : Nat) : State × Nat :=
  let mine := s.hear.lanes.filter (blanksLane fe)
  let frames := (mine.filter fun e => laneHasFrame e.2).length
  let s := mine.foldl (fun s e =>
    let jobs := if e.2.stage = .payload then Cells.erase s.ox.jobs e.1 else s.ox.jobs
    disarm (freeLane { s with ox := { s.ox with jobs := jobs } } e.1) e.2.context e.2.claim) s
  (s, frames)

/-- RX_BLANKED (R141), when a frame was abandoned. DURATION counts whole units of 10 µs: the model's choice. -/
def rxBlanked (s : State) (fe cause frames durNs : Nat) : State :=
  s.onlyIf (decide (frames ≠ 0)) fun s => s.event Ev.RX_BLANKED (Block.FE fe)
    (at' fe 2 46 + at' cause 2 44 + at' (min frames 65535) 16 16 + at' (min (durNs / 10000) 65535) 16 0)

/-- The emission of a chain whose blanking window has begun, if one has. -/
def blankingFor (s : State) (emitter : Nat) : Option Emission :=
  (s.fe emitter).emissions.find? fun e =>
    decide ((e.phase = .hopping ∨ e.phase = .locked ∨ e.phase = .emitting) ∧
      e.firstNs ≤ s.time.ns + blankLeadNs s emitter)

/-- Does an emission of `emitter` blank front end `fe`? -/
def blanks (s : State) (emitter fe : Nat) : Bool :=
  decide (emitter = fe) || bit (s.get (Reg.FE_BLANK_CTRL.PEERS emitter)) fe

/-- BLANKING_START (R123 to R125). -/
def execBlankingStart (dt : Nat) (fe emitter : Fin 3) (s : State) : Result :=
  step' dt s fun s =>
    match blankingFor s emitter with
    | none => s
    | some e =>
      s.onlyIf (blanks s emitter fe && !(s.fe fe).blankedBy.contains emitter.val) fun s =>
        let s := s.setFe fe { s.fe fe with blankedBy := (s.fe fe).blankedBy ++ [emitter.val] }
        let s := s.setFlag (Reg.FE_STATUS.BLANKED fe) true
        let r := abandonFrames (blankCtxs s fe) fe
        rxBlanked r.1 fe (if emitter = fe then 0 else 1) r.2 (blankLeadNs s emitter + e.airNs + 15000)

/-- BLANKING_END (R123): 15 µs after the last chip. -/
def execBlankingEnd (dt : Nat) (fe emitter : Fin 3) (s : State) : Result :=
  whenever dt s
    (fun s => (s.fe fe).blankedBy.contains emitter.val && (emitting s emitter).isNone && (blankingFor s emitter).isNone &&
      decide ((s.fe emitter).lastChipNs + 15000 ≤ s.time.ns))
    fun s =>
      let left := (s.fe fe).blankedBy.filter fun x => decide (x ≠ emitter.val)
      s.resuming fe fun s => (s.setFe fe { s.fe fe with blankedBy := left }).setFlag (Reg.FE_STATUS.BLANKED fe) (!left.isEmpty)

/-! The mask monitor (R121, R122). -/

/-- MASK_ACT as it acts: 3 as STOP, which is the model's choice. -/
def maskActOf (s : State) (fe : Nat) : Nat := min 2 (s.get (Reg.FE_MASK_CTRL.ACT fe))

/-- MASK_VIOLATION for one segment of an emission (R121, R141). -/
def maskEvent (fe : Nat) (e : Emission) (s : State) (v : Nat × Nat) : State :=
  s.event Ev.MASK_VIOLATION (Block.FE fe)
    (at' fe 2 46 + at' v.1 5 41 + at' (maskActOf s fe) 2 39 + at' e.carriers.length 4 35 + at' (min v.2 255) 8 27)

/-- BACKOFF for one segment (R121): 1 dB less, down to at most 6 dB in total, and never below -10 dBm at the pin (R114). -/
def maskBackoff (fe : Nat) (s : State) : State :=
  match emitting s fe with
  | none => s
  | some e =>
    let b := s.get (Reg.FE_MASK_CTRL.BACKOFF_QDB fe)
    let b' := min 24 (b + 4)
    let s := s.set (Reg.FE_MASK_CTRL.BACKOFF_QDB fe) b'
    let less := fun (c : Carrier) => c.atPower s fe (max (powerFloor s fe) (c.powerQdbm - ((b' - b : Nat) : Int)))
    putEmission s fe e { e with carriers := e.carriers.map less }

/-- STOP (R121): the emission in progress ends and the chain stops. -/
def maskStop (fe : Nat) (s : State) : State :=
  match emitting s fe with
  | none => s
  | some e =>
    let s := (chainOff s fe).emit (.rampDown fe)
    freeChannel (loseEmission (s.setFlag (Reg.FE_STATUS.MASK_STOPPED fe) true) e) e

/-- The action of MASK_ACT when `n` segments were found above their limits in one window (R121): BACKOFF acts for each. -/
def maskAct (fe n : Nat) (s : State) : State :=
  if n = 0 then s
  else match maskActOf s fe with
    | 1 => (List.range n).foldl (fun s _ => maskBackoff fe s) s
    | 2 => maskStop fe s
    | _ => s

/-- MASK_WINDOW (R121): a whole 100 µs of the emission has passed that was not evaluated yet; `above` lists the segments found
above their limits with the excess in 0.25 dB. Every one raises its event before the chain acts. -/
def execMaskWindow (dt : Nat) (fe : Fin 3) (above : List (Nat × Nat)) (s : State) : Result :=
  step' dt s fun s =>
    match emitting s fe with
    | none => s
    | some e =>
      let n := (s.fe fe).maskDone + 1
      s.onlyIf (decide (fe.val ≠ 2 ∧ e.startNs + n * 100000 ≤ s.time.ns)) fun s =>
        let s := s.setFe fe { s.fe fe with maskDone := n }
        let hit := above.filter fun v => decide (v.1 < 32) && s.flag (Reg.FE_MASK_SEG.EN fe v.1)
        maskAct fe hit.length (hit.foldl (maskEvent fe e) s)

/-- Clear backoff and STOP (R122). -/
def maskResume (s : State) (fe : Nat) : State :=
  if fe = 2 then s
  else (s.set (Reg.FE_MASK_CTRL.BACKOFF_QDB fe) 0).setFlag (Reg.FE_STATUS.MASK_STOPPED fe) false

/-- MASK_RESUME (R122): a write of RESUME. -/
def execMaskResume (dt : Nat) (fe : Fin 3) (s : State) : Result := step' dt s fun s => (maskResume s fe).answer 0

/-! The front-end module (R128 to R130). -/

/-- Do the lines show the TX pattern in RUN: from FEM_LEAD before the first chip to FEM_LAG after the last one (R128)? Before the
synthesiser locks the first chip is expected at the nominal instant. -/
def femTx (s : State) (fe : Nat) : Bool :=
  let f := s.fe fe
  (f.emissions.any fun e => match e.phase with
    | .emitting => true
    | .hopping | .locked => decide (e.nominalNs ≤ s.time.ns + leadNs s fe)
    | _ => false) ||
    decide (f.lastChipNs ≠ 0 ∧ s.time.ns < f.lastChipNs + lagNs s fe)

/-- Does a synthesiser, ADC, IQ or LO-leakage calibration run (R128)? -/
def femCal (s : State) (fe : Nat) : Bool :=
  let f := s.fe fe
  f.cal.isSome || (match f.request with | some r => decide (r.kind ≤ 3) | none => false)

/-- The pattern on the four lines of a front end (R128 to R130): 0 OFF, 1 RX, 2 TX, 3 CAL. In CALIBRATE: CAL in phases A and B, TX
in the training of phase C, and an open one in phase D and on FE2 in phase C. In RUN a front end out of service shows OFF. -/
def femPattern (s : State) (fe : Nat) : Nat :=
  if !s.flag (Reg.FE_FEM_CTRL.PRESENT fe) then 0
  else if s.boot = Boot.CALIBRATE then
    if s.start.calPhase < 2 then 3 else if s.start.calPhase = 2 ∧ fe ≠ 2 then 2 else (s.fe fe).femOpen
  else if s.boot = Boot.RUN then
    if femTx s fe then 2 else if femCal s fe then 3 else b2n (s.flag (Reg.FE_STATUS.RX_IN_SERVICE fe))
  else 0

/-- The levels of FEMn_CTRL[3:0]. -/
def femLines (s : State) (fe : Nat) : Nat := s.get (Reg.FE_FEM_CTRL.PATTERNS fe) / 16 ^ femPattern s fe % 16

/-! Requested calibrations (R138 to R140, R740). -/

/-- The size of the table of a front end (R97). -/
def tableSize (fe : Nat) : Nat := if fe = 2 then 64 else 512

/-- A request starts or ends: KIND and ENTRY show it. -/
def calNote (s : State) (fe kind entry : Nat) : State :=
  let s := s.set (Reg.FE_CAL_STATUS.KIND fe) kind
  s.onlyIf (decide (kind = 4)) fun s => s.set (Reg.FE_CAL_STATUS.ENTRY fe) entry

/-- A refused request (R740). -/
def calReject (s : State) (fe kind entry : Nat) : State :=
  let s := (s.set (Reg.FE_CAL_STATUS.KIND fe) kind).set (Reg.FE_CAL_STATUS.ENTRY fe) entry
  (s.setFlag (Reg.FE_CAL_STATUS.DONE fe) true).setFlag (Reg.FE_CAL_STATUS.REJECTED fe) true

/-- A request waits or runs. -/
def calBegin (s : State) (fe kind entry : Nat) (entries : List Nat) : State :=
  let s := calNote s fe kind entry
  let s := s.setFlag (Reg.FE_CAL_STATUS.BUSY fe) true
  s.setFe fe { s.fe fe with request := some { kind := kind, entries := entries } }

/-- KIND 1 to 3 (R139): receive goes out of service and the frames in progress are abandoned with cause CAL. The longest
window is 20 ms. -/
def calReceive (s : State) (fe kind : Nat) : State :=
  let s := calBegin s fe kind 0 []
  let s := s.setFlag (Reg.FE_STATUS.RX_IN_SERVICE fe) false
  let r := abandonFrames (blankCtxs s fe) fe
  rxBlanked r.1 fe 2 r.2 20000000

/-- KIND 6 (R139): tracking is reset, to be rebuilt from live emissions. -/
def calDpd (s : State) (fe : Nat) : State :=
  let s := calBegin s fe 6 0 []
  s.setFe fe { s.fe fe with dpdUs := 0 }

/-- A write of FEn_CAL_REQ with GO (R138 to R140, R740). -/
def calRequest (s : State) (fe kind entry : Nat) : State :=
  if s.flag (Reg.FE_CAL_STATUS.BUSY fe) then s
  else match kind with
    | 1 | 2 | 3 => calReceive s fe kind
    | 4 =>
      if tableSize fe ≤ entry ∨ (s.fe fe).used ≤ entry then calReject s fe 4 entry else calBegin s fe 4 entry [entry]
    | 5 =>
      if (s.fe fe).used = 0 then (calNote s fe 5 0).setFlag (Reg.FE_CAL_STATUS.DONE fe) true
      else calBegin s fe 5 0 (List.range (s.fe fe).used)
    | 6 =>
      if fe = 2 then calReject s fe 6 entry else calDpd s fe
    | _ => s

/-- The six kinds of request. -/
def execCalReqAdc (dt : Nat) (fe : Fin 3) (s : State) : Result := step' dt s fun s => (calRequest s fe 1 0).answer 0
def execCalReqIq (dt : Nat) (fe : Fin 3) (s : State) : Result := step' dt s fun s => (calRequest s fe 2 0).answer 0
def execCalReqLoLeakage (dt : Nat) (fe : Fin 3) (s : State) : Result :=
  step' dt s fun s => (calRequest s fe 3 0).answer 0
def execCalReqTxEntry (dt : Nat) (fe : Fin 3) (entry : Nat) (s : State) : Result :=
  step' dt s fun s => (calRequest s fe 4 (entry % 512)).answer 0
def execCalReqTxTable (dt : Nat) (fe : Fin 3) (s : State) : Result := step' dt s fun s => (calRequest s fe 5 0).answer 0
def execCalReqDpd (dt : Nat) (fe : Fin 3) (s : State) : Result := step' dt s fun s => (calRequest s fe 6 0).answer 0

/-- A front end leaves service for receive and transmit (R82). -/
def feOut (s : State) (fe : Nat) : State :=
  (s.setFlag (Reg.FE_STATUS.RX_IN_SERVICE fe) false).setFlag (Reg.FE_STATUS.TX_IN_SERVICE fe) false

/-- DPD training has failed: one carrier at a time (R118). -/
def dpdFail (s : State) (fe : Nat) : State :=
  (s.setFe fe { s.fe fe with dpdFailed := true }).set (Reg.FE_TX_CTRL.MAX_CARRIERS fe) 1

/-- REQ_CAL_DONE (R140): the requested calibration ends. A request of KIND 4 or 5 ends when its entries are done, and one of
KIND 6 succeeds once live emissions have rebuilt the tracking. Two choices of the model, where no rule tells: success of KIND 6
does not lift the one-carrier limit of an earlier DPD failure (R118); and an emission that had committed before a failure took
its front end out of service still hops and leaves. -/
def execReqCalDone (dt : Nat) (fe : Fin 3) (ok : Bool) (s : State) : Result :=
  step' dt s fun s =>
    match (s.fe fe).request with
    | none => s
    | some r =>
      let ends := fun (s : State) (failed : Bool) =>
        let s := s.setFe fe { s.fe fe with request := none }
        let s := (s.setFlag (Reg.FE_CAL_STATUS.BUSY fe) false).setFlag (Reg.FE_CAL_STATUS.DONE fe) true
        s.onlyIf failed fun s => s.setFlag (Reg.FE_CAL_STATUS.FAIL fe) true
      if r.kind = 4 ∨ r.kind = 5 then
        if r.entries.isEmpty then ends s r.failed else s
      else if r.kind = 6 then
        s.onlyIf (!ok || decide (0 < (s.fe fe).dpdUs)) fun s =>
          ends (s.onlyIf (!ok) fun s => dpdFail (calFail s fe 5 0) fe) (!ok)
      else
        let s := if ok then s.resuming fe fun s => s.setFlag (Reg.FE_STATUS.RX_IN_SERVICE fe) true
          else feOut (calFail s fe r.kind 0) fe
        ends s (!ok)

end Sys2Proof.Machine
end

