-- ==== Sys2Proof/Machine/Lease.lean ====
section
/-!
DEFINITION. Site pairs (R500 to R517): lease frames, holding, claiming and drills.
-/

namespace Sys2Proof.Machine

/-- Does the device have a PAIR section? -/
def paired (s : State) : Bool := decide (s.get Reg.ETH_PAIR_STATUS.ROLE ≠ 0)

/-- May the device use its pair key (R534)? -/
def pairKey (s : State) : Bool := slotHas s (s.get Reg.ETH_PAIR_CFG.PAIR_KEY_SLOT) 2

/-- SCHED_HASH (R487). -/
def schedHash (s : State) : Nat :=
  let w1 := s.get Reg.MAC_SLOT_0.SLOT_LEN * 2 ^ 32 + s.get Reg.MAC_SLOT_0.TX_OFFSET * 65536 + s.get Reg.MAC_SLOT_0.RX_WAIT
  let w2 := s.get Reg.MAC_SLOT_1.TX_ACK_DELAY * 2 ^ 48 + s.get Reg.MAC_SLOT_1.ACK_WAIT * 2 ^ 32
    + s.get Reg.MAC_SLOT_1.CCA_OFFSET * 65536 + s.get Reg.MAC_SLOT_1.CCA_LEN
  crc32 (leBytes 8 (s.get Reg.MAC_ASN_EPOCH.EPOCH_NS) ++ leBytes 8 w1 ++ leBytes 8 w2)

/-- The port MAC of port `n`: 0 ETH0, 1 ETH1, 2 MGMT (R472). -/
def portMac (s : State) (n : Nat) : Nat := s.get Reg.ETH_MAC_BASE.BASE_MAC + n

/-- An Ethernet II frame without its FCS. -/
def etherFrame (dst src type : Nat) (payload : List Byte) : List Byte :=
  beBytes 6 dst ++ beBytes 6 src ++ beBytes 2 type ++ payload

/-- Is an ETH port's link up: 0 ETH0, 1 ETH1? -/
def ethUp (s : State) (n : Nat) : Bool :=
  if n = 0 then s.flag Reg.ETH_STATUS.ETH0_UP else s.flag Reg.ETH_STATUS.ETH1_UP

/-- The 40 octets of a lease frame before its TAG (R500). -/
def leaseHead (s : State) (type act : Nat) : List Byte :=
  [0xB7, 0x2A, 0x01] ++ leBytes 1 type ++ leBytes 1 (s.get Reg.ETH_PAIR_STATUS.UNIT) ++
    leBytes 1 (b2n (s.flag Reg.ETH_PAIR_STATUS.SYNCING) + 2 * b2n (decide (s.get Reg.ETH_PAIR_STATUS.ROLE = 2))) ++
    [0, 0] ++ beBytes 4 (s.get Reg.ETH_PAIR_STATUS.EPOCH) ++ beBytes 4 s.lease.seq ++ beBytes 8 s.time.ns ++
    beBytes 5 act ++ leBytes 1 (s.get Reg.ETH_PAIR_CFG.SF_MASK) ++ [0, 0] ++ beBytes 4 (schedHash s) ++
    [0, 0, 0, 0]

/-- Send a frame to the peer on every ETH port whose link is up (R500, R660). -/
def sendEth (s : State) (type : Nat) (payload : List Byte) : State :=
  (List.range 2).foldl (fun s n => s.onlyIf (ethUp s n) fun s =>
    s.emit (.frame (3 + n) (etherFrame (s.get Reg.ETH_PAIR_PEER.PEER_MAC) (portMac s n) type payload))) s

/-- Send a lease frame's octets, through the herd master where BACKHAUL_AT_MASTER is set (R500). -/
def sendPair (s : State) (type : Nat) (payload : List Byte) : State :=
  if s.flag Reg.HERD_CTRL.BACKHAUL_AT_MASTER ∧ !s.isMaster then
    herdSend s { type := 1, dst := 0, src := s.herdId, hops := s.members - 1, flags := 0
                 payload := etherFrame (s.get Reg.ETH_PAIR_PEER.PEER_MAC) (portMac s 0) type payload }
  else sendEth s type payload

/-- Send a lease frame (R500, R534). -/
def sendLease (s : State) (type act : Nat) : State :=
  if !paired s || !pairKey s then s
  else
    let head := leaseHead s type act
    let key := Cells.get s.crypto.slotKeys (s.get Reg.ETH_PAIR_CFG.PAIR_KEY_SLOT) []
    let s := sendPair s 0x88B5 (head ++ (hmac key head).take 16)
    { s with lease := { s.lease with seq := (s.lease.seq + 1) % 2 ^ 32 } }

/-- Send a RENEW; it counts as a renewal when an ETH port it goes out on has link up (R503). -/
def sendRenew (s : State) : State :=
  let up := ethUp s 0 || ethUp s 1
  let s := sendLease s 1 0
  { s with lease := { s.lease with sentNs := s.time.ns, renewNs := if up && pairKey s then s.time.ns else s.lease.renewNs } }

/-- The device stops holding (R504, R517): 0 EXPIRED, 1 HANDOVER, 2 SUPERSEDED. -/
def loseLease (s : State) (cause epoch : Nat) : State :=
  let s := s.set Reg.ETH_PAIR_STATUS.ROLE 1
  let s := { s with lease := { s.lease with stoppedNs := some s.time.ns } }
  s.event Ev.LEASE_LOST Block.ETH (at' epoch 32 16 + at' cause 2 14)

/-- The device becomes holder (R505, R517): 0 TIMEOUT, 1 DRILL. -/
def takeLease (s : State) (cause : Nat) : State :=
  let s := s.set Reg.ETH_PAIR_STATUS.ROLE 2
  let s := s.event Ev.LEASE_TAKEN Block.ETH (at' (s.get Reg.ETH_PAIR_STATUS.EPOCH) 32 16 + at' cause 2 14
    + at' (b2n (s.flag Reg.ETH_PAIR_STATUS.SYNCING)) 1 13)
  sendRenew s

/-- Milliseconds of the pair timing in ns. -/
def pairNs (ms : Nat) : Nat := ms * 1000000
def leaseMs (s : State) : Nat := s.get Reg.ETH_PAIR_TIMING.LEASE_MS
def guardMs (s : State) : Nat := s.get Reg.ETH_PAIR_TIMING.DRIFT_GUARD_MS

/-- Is an instant of TIME_NS at least `ns` ago? -/
def State.agoNs (s : State) (t ns : Nat) : Bool := decide (t + ns ≤ s.time.ns)

/-- LEASE_RENEW_TX (R503): the holder sends a RENEW every RENEW_MS. -/
def execLeaseRenewTx (dt : Nat) (s : State) : Result :=
  whenever dt s
    (fun s => decide (s.get Reg.ETH_PAIR_STATUS.ROLE = 2) &&
      s.agoNs s.lease.sentNs (pairNs (s.get Reg.ETH_PAIR_TIMING.RENEW_MS)))
    sendRenew

/-- LEASE_EXPIRE (R504): LEASE_MS - DRIFT_GUARD_MS since the last renewal. -/
def execLeaseExpire (dt : Nat) (s : State) : Result :=
  whenever dt s
    (fun s => decide (s.get Reg.ETH_PAIR_STATUS.ROLE = 2) && s.agoNs s.lease.renewNs (pairNs (leaseMs s - guardMs s)))
    fun s => loseLease s 0 (s.get Reg.ETH_PAIR_STATUS.EPOCH)

/-- The instant from which LEASE_MS + DRIFT_GUARD_MS runs (R505). -/
def claimBase (s : State) : Nat :=
  max (max (s.lease.heardNs.getD 0) (s.lease.stoppedNs.getD 0))
    (s.lease.runNs + if s.lease.prefer then 0 else pairNs (leaseMs s))

/-- LEASE_CLAIM (R505, R534): a standby claims the lease. -/
def execLeaseClaim (dt : Nat) (s : State) : Result :=
  whenever dt s
    (fun s => decide (s.get Reg.ETH_PAIR_STATUS.ROLE = 1) && s.inRun && pairKey s && (ethUp s 0 || ethUp s 1) &&
      s.flag Reg.TIME_STATUS.STEP_USED && tschOn s && s.agoNs (claimBase s) (pairNs (leaseMs s + guardMs s)))
    fun s =>
      takeLease (s.set Reg.ETH_PAIR_STATUS.EPOCH (s.get Reg.ETH_PAIR_STATUS.EPOCH + 1)) 0

/-! Drills (R514, R515). -/

/-- Put the drill; DRILL_PEND shows it. -/
def setDrill (s : State) (d : Option Drill) : State :=
  { s.setFlag Reg.ETH_PAIR_STATUS.DRILL_PEND d.isSome with lease := { s.lease with drill := d } }

/-- The holder starts a drill (R514 steps 1 and 2). -/
def startDrill (s : State) : State :=
  let fresh := match s.lease.stbyNs with
    | none => false
    | some t => decide (s.time.ns ≤ t + 2 * pairNs (s.get Reg.ETH_PAIR_TIMING.RENEW_MS))
  if fresh && !s.flag Reg.ETH_PAIR_STATUS.MISMATCH then
    let act := (ceilDiv (s.time.ns + 100000000 - s.get Reg.MAC_ASN_EPOCH.EPOCH_NS) (slotNs s)) % 2 ^ 40
    let epoch := (s.get Reg.ETH_PAIR_STATUS.EPOCH + 1) % 2 ^ 32
    let own := s.get Reg.ETH_PAIR_STATUS.EPOCH
    -- the HANDOVER carries EPOCH + 1
    let s := (sendLease (s.set Reg.ETH_PAIR_STATUS.EPOCH epoch) 3 act).set Reg.ETH_PAIR_STATUS.EPOCH own
    setDrill s (some { epoch := epoch, actAsn := act, sent := true, agreed := false, tick := s.tick })
  else s.setFlag Reg.ETH_PAIR_STATUS.DRILL_FAIL true

/-- May a drill start: the device holds and none is pending? -/
def mayDrill (s : State) : Bool :=
  decide (s.get Reg.ETH_PAIR_STATUS.ROLE = 2) && !s.flag Reg.ETH_PAIR_STATUS.DRILL_PEND

/-- A write of ETH_PAIR_CTRL (R513, R514). -/
def writePairCtrl (s : State) (v : Nat) : State :=
  let s := s.onlyIf (bit v 62) fun s => s.setFlag Reg.ETH_PAIR_STATUS.SYNCING false
  s.onlyIf (bit v 63 && mayDrill s) startDrill

/-- DRILL (R514) and SYNC_DONE (R513). -/
def execDrill (dt : Nat) (value : Word) (s : State) : Result :=
  step' dt s fun s => (writePairCtrl s (putBits value.toNat 63 63 1)).answer 0
def execSyncDone (dt : Nat) (value : Word) (s : State) : Result :=
  step' dt s fun s => (writePairCtrl s (putBits value.toNat 62 62 1)).answer 0

/-- The whole hour of TIME_NS (R514). -/
def hourNow (s : State) : Nat := s.time.ns / 3600000000000

/-- DRILL_HOUR (R514): a scheduled drill, once in each hour that DRILL_PERIOD_H names. -/
def execDrillHour (dt : Nat) (s : State) : Result :=
  whenever dt s
    (fun s => mayDrill s && decide (s.get Reg.ETH_PAIR_CFG.DRILL_PERIOD_H ≠ 0 ∧
      hourNow s % s.get Reg.ETH_PAIR_CFG.DRILL_PERIOD_H = s.get Reg.ETH_PAIR_CFG.DRILL_PHASE_H ∧
      s.lease.hour ≠ some (hourNow s) ∧ s.time.ns % 3600000000000 < 2))
    fun s => startDrill { s with lease := { s.lease with hour := some (hourNow s) } }

/-- DRILL_ACCEPT_TIMEOUT (R514 step 4): ACCEPT has not arrived within 50 ms. -/
def execDrillAcceptTimeout (dt : Nat) (s : State) : Result :=
  step' dt s fun s =>
    match s.lease.drill with
    | none => s
    | some d => s.onlyIf (d.sent && !d.agreed && s.elapsedMs d.tick 50) fun s =>
      (setDrill s none).setFlag Reg.ETH_PAIR_STATUS.DRILL_FAIL true

/-- At the start of timeslot ACT_ASN the two devices switch (R514 step 5). -/
def drillSwitch (s : State) (asn : Nat) : State :=
  match s.lease.drill with
  | none => s
  | some d =>
    if !d.agreed || decide (diffN 40 asn d.actAsn < 0) then s
    else
      let s := setDrill s none
      let held := decide (s.get Reg.ETH_PAIR_STATUS.ROLE = 2)
      let s := { s with lease := { s.lease with switched := some (d.actAsn, held) } }
      if d.sent then
        s.onlyIf held fun s => loseLease (s.set Reg.ETH_PAIR_STATUS.EPOCH d.epoch) 1 (d.epoch + 2 ^ 32 - 1)
      else s.onlyIf (!held) fun s => takeLease (s.set Reg.ETH_PAIR_STATUS.EPOCH d.epoch) 1

/-! Receiving lease frames (R501, R502, R504, R508). -/

/-- A lease frame's payload (R500), and whether MAGIC, VER and TAG are as they must be. -/
structure LeaseFrame where
  type : Nat
  unit : Nat
  syncing : Bool
  holder : Bool
  epoch : Nat
  seq : Nat
  time : Nat
  actAsn : Nat
  sfMask : Nat
  schedHash : Nat
  tagOk : Bool
  deriving DecidableEq, Repr

/-- Act on a valid lease frame. -/
def leaseAct (s : State) (f : LeaseFrame) : State :=
  let own := s.get Reg.ETH_PAIR_STATUS.EPOCH
  let d := diffN 32 f.epoch own
  -- what every valid frame shows of the peer (R508, R518)
  let s := { s with lease := { s.lease with peerSeq := some f.seq, peerNs := some s.time.ns } }
  let s := (s.setFlag Reg.ETH_PAIR_STATUS.PEER_SEEN true).setFlag Reg.ETH_PAIR_STATUS.PEER_SYNCING f.syncing
  let s := s.setFlag Reg.ETH_PAIR_STATUS.MISMATCH
    (decide (f.schedHash ≠ schedHash s) || decide (f.sfMask &&& s.get Reg.ETH_PAIR_CFG.SF_MASK ≠ 0))
  if (f.type = 1 ∨ f.type = 3) ∧ d < 0 then
    -- a RENEW of the old epoch shows that the holder did not receive ACCEPT (R514 step 4)
    let s := match s.lease.drill with
      | none => s
      | some dr => s.onlyIf (decide (f.type = 1) && !dr.sent) fun s => setDrill s none
    s.bump Reg.ETH_PAIR_COUNT.STALE_EPOCH
  else
    let held := decide (s.get Reg.ETH_PAIR_STATUS.ROLE = 2)
    let s := s.onlyIf (decide (0 < d)) fun s => s.set Reg.ETH_PAIR_STATUS.EPOCH f.epoch
    match f.type with
    | 1 =>
      let gives := held && (decide (0 < d) || decide (d = 0 ∧ s.get Reg.ETH_PAIR_STATUS.UNIT = 1))
      let s := s.onlyIf gives fun s => loseLease s 2 own
      let s := { s with lease := { s.lease with heardNs := some s.time.ns } }
      s.onlyIf (decide (s.get Reg.ETH_PAIR_STATUS.ROLE = 1)) fun s => sendLease s 2 0
    | 2 =>
      s.onlyIf (!f.syncing) fun s => { s with lease := { s.lease with stbyNs := some s.time.ns } }
    | 3 =>
      s.onlyIf (!held && !s.flag Reg.ETH_PAIR_STATUS.MISMATCH) fun s =>
        let s := setDrill s
          (some { epoch := f.epoch, actAsn := f.actAsn, sent := false, agreed := true, tick := s.tick })
        sendLease s 4 f.actAsn
    | 4 =>
      match s.lease.drill with
      | none => s
      | some dr => s.onlyIf (dr.sent && decide (dr.epoch = f.epoch ∧ dr.actAsn = f.actAsn) && !s.elapsedMs dr.tick 50) fun s =>
        setDrill s (some { dr with agreed := true })
    | _ => s

/-- The fields of a lease frame's payload (R500); it has 56 octets. -/
def leaseFields (s : State) (p : List Byte) : LeaseFrame :=
  let key := Cells.get s.crypto.slotKeys (s.get Reg.ETH_PAIR_CFG.PAIR_KEY_SLOT) []
  { type := field p 3 1, unit := field p 4 1, syncing := bit (field p 5 1) 0, holder := bit (field p 5 1) 1
    epoch := fieldBE p 8 4, seq := fieldBE p 12 4, time := fieldBE p 16 8, actAsn := fieldBE p 24 5, sfMask := field p 29 1
    schedHash := fieldBE p 32 4
    tagOk := decide (56 ≤ p.length ∧ fieldBE p 0 3 = 0xB72A01) &&
      decide ((hmac key (p.take 40)).take 16 = (p.drop 40).take 16) }

/-- A lease frame with this payload arrives (R501, R534). -/
def leaseReceive (s : State) (p : List Byte) : State :=
  let f := leaseFields s p
  let base := paired s && pairKey s && f.tagOk && decide (f.unit ≠ s.get Reg.ETH_PAIR_STATUS.UNIT)
  let seqOk := match s.lease.peerSeq with
    | none => true
    | some q => later 32 f.seq q
  if base && seqOk then leaseAct s f
  else if base && decide (s.lease.peerSeq = some f.seq) then s
  else s.bump Reg.ETH_PAIR_COUNT.LEASE_BAD

/-- LEASE_FRAME_RECEIVE (R501): `payload` is what follows the EtherType. -/
def execLeaseFrameReceive (dt : Nat) (port : Fin 2) (payload : List Byte) (s : State) : Result :=
  whenever dt s (fun s => ethUp s port) fun s => leaseReceive s payload

end Sys2Proof.Machine
end

