-- ==== Sys2Proof/Machine/Sau.lean ====
section
/-!
DEFINITION. The schedule admission unit (R84 to R91).
-/

namespace Sys2Proof.Machine

/-- Put a cell word. -/
def setCellWord (s : State) (i w : Nat) : State :=
  s.setTables { s.tables with cells := Cells.set s.tables.cells i (w % 2 ^ 64) 0 }

/-- The entries of a change list in LP4X (R84): OP, INDEX and VALUE. -/
def sauEntry (s : State) (addr k : Nat) : Nat × Nat × Nat :=
  let w0 := s.ddrLE (addr + 16 * k) 8
  (bits w0 63 56, bits w0 15 0, s.ddrLE (addr + 16 * k + 8) 8)

/-- Apply one entry to the schedule; `none` where it is refused as BAD_OP. An SF_LENGTH of a slotframe above 7, or with a new
length of 0, is refused so too: the rules name no refusal for it (DESIGN CHOICE: log entry 68). -/
def sauApply (s : State) : Nat × Nat × Nat → Option State
  | (op, i, v) =>
    let occupied := bit (cellWord s i) 63
    let good := bit v 63 && decide (v % 2048 = 0)
    if op = 1 then (if !occupied && good then some (setCellWord s i v) else none)
    else if op = 2 then (if occupied then some (setCellWord s i 0) else none)
    else if op = 3 then (if occupied && good then some (setCellWord s i v) else none)
    else if op = 4 ∧ i < 8 ∧ 1 ≤ v % 65536 then some (s.set (Reg.MAC_SF.LENGTH i) (v % 65536))
    else none

/-- Apply a list; on a bad entry, its index. -/
def sauApplyAll : List (Nat × Nat × Nat) → Nat → State → Except Nat State
  | [], _, s => .ok s
  | e :: rest, k, s => match sauApply s e with
    | none => .error k
    | some s' => sauApplyAll rest (k + 1) s'

/-- The unit refuses a list: SCHED_REFUSED, and nothing changes (R86). The refusal ends a check, also when GO was refused with
0x0402: DONE sets and ACCEPTED clears, and the accepted list stays PENDING (DESIGN CHOICE: log entry 68). -/
def sauRefuse (s : State) (reason item : Nat) : State :=
  let s := ((s.setFlag Reg.MAC_SAU_STATUS.BUSY false).setFlag Reg.MAC_SAU_STATUS.DONE true).setFlag
    Reg.MAC_SAU_STATUS.ACCEPTED false
  let s := (s.set Reg.MAC_SAU_STATUS.REASON reason).set Reg.MAC_SAU_STATUS.ITEM item
  s.event Ev.SCHED_REFUSED Block.MAC (at' reason 16 32 + at' item 16 0)

/-- A write of MAC_SAU_CTRL with GO (R86, R87). No entry causes the refusal 0x0402, so that its ITEM is a free value. -/
def sauGo (s : State) : State :=
  if s.flag Reg.MAC_SAU_STATUS.BUSY then s
  else if s.flag Reg.MAC_SAU_STATUS.PENDING then sauRefuse s.drawn 0x0402 (s.free % 65536)
  else s.setFlag Reg.MAC_SAU_STATUS.BUSY true

/-- The slot boundary of an ASN has come. -/
def slotReached (s : State) (act : Nat) : Bool := tschOn s && decide (0 ≤ diffN 40 (asnNow s) act)

/-- A write of CANCEL (R90): at or after the boundary of ACT_ASN it has no effect. -/
def sauCancel (s : State) : State :=
  s.onlyIf (s.flag Reg.MAC_SAU_STATUS.PENDING && !(s.sau.pending.any fun p => slotReached s p.1)) fun s =>
    { s.setFlag Reg.MAC_SAU_STATUS.PENDING false with sau := { pending := none } }

/-- A write of MAC_SAU_CTRL. One with both CANCEL and GO carries out CANCEL first (DESIGN CHOICE: log entry 68). -/
def writeSauCtrl (s : State) (v : Nat) : State :=
  let s := s.set Reg.MAC_SAU_CTRL.COUNT (bits v 12 0)
  let s := s.onlyIf (bit v 62) sauCancel
  s.onlyIf (bit v 63) sauGo

/-- SAU_GO (R86) and SAU_CANCEL (R90). -/
def execSauGo (dt : Nat) (value : Word) (s : State) : Result :=
  step' dt s fun s => (writeSauCtrl s (putBits value.toNat 63 63 1)).answer 0
def execSauCancel (dt : Nat) (value : Word) (s : State) : Result :=
  step' dt s fun s => (writeSauCtrl s (putBits value.toNat 62 62 1)).answer 0

/-- A list is accepted and waits for its timeslot (R86, R89). -/
def sauAccept (s : State) (act : Nat) (l : List (Nat × Nat × Nat)) : State :=
  let s := ((s.setFlag Reg.MAC_SAU_STATUS.BUSY false).setFlag Reg.MAC_SAU_STATUS.DONE true).setFlag
    Reg.MAC_SAU_STATUS.ACCEPTED true
  let s := (s.set Reg.MAC_SAU_STATUS.REASON 0).set Reg.MAC_SAU_STATUS.ITEM 0
  { s.setFlag Reg.MAC_SAU_STATUS.PENDING true with sau := { pending := some (act, l) } }

/-- The check of a list (R76, R84 to R89). COUNT, the list's address and ACT_ASN are those at the end of the check (DESIGN CHOICE:
log entry 68). The item of a refusal that no entry causes is a free value. -/
def sauCheck (s : State) : State :=
  let count := s.get Reg.MAC_SAU_CTRL.COUNT
  let addr := s.get Reg.MAC_SAU_LIST.ADDR * 16
  let act := s.get Reg.MAC_SAU_ACT_ASN.ACT_ASN
  if count = 0 ∨ 4096 < count ∨ !s.inLp4x addr (16 * count) then sauRefuse s.drawn 0x0404 (s.free % 65536)
  else
    let l := (List.range count).map (sauEntry s addr)
    match sauApplyAll l 0 s with
    | .error k => sauRefuse s 0x0403 k
    | .ok after => match scheduleCause after with
      | some (reason, _) => sauRefuse s.drawn reason (s.free % 65536)
      | none => if later 40 act (asnNow s) then sauAccept s act l else sauRefuse s.drawn 0x0401 (s.free % 65536)

/-- SAU_CHECK_DONE (R86). -/
def execSauCheckDone (dt : Nat) (s : State) : Result :=
  whenever dt s (fun s => s.flag Reg.MAC_SAU_STATUS.BUSY) sauCheck

/-- At the start of timeslot ACT_ASN an accepted list takes effect in full (R89). -/
def sauActivate (s : State) (asn : Nat) : State :=
  match s.sau.pending with
  | none => s
  | some (act, l) =>
    if diffN 40 asn act < 0 then s
    else
      let s := match sauApplyAll l 0 s with
        | .ok s' => s'
        | .error _ => s
      let s := (s.setFlag Reg.MAC_SAU_STATUS.PENDING false).setFlag Reg.MAC_SAU_STATUS.APPLIED true
      { s with sau := { pending := none } }

end Sys2Proof.Machine
end

