-- ==== Sys2Proof/Machine/Seen.lean ====
section
/-!
DEFINITION. The seen cache (R276 to R278).
-/

namespace Sys2Proof.Machine

/-- What the check of a flood answers (R277). -/
inductive SeenOutcome where
  | accept
  | duplicate
  | old
  deriving DecidableEq, Repr

/-- The entry of a seed. -/
def seenWord (s : State) (seed : Nat) : Nat := Cells.get s.tables.seen seed 0

/-- Put an entry: VALID with TOP, WIN and LAST (R276). -/
def seenPut (s : State) (seed top win : Nat) : State :=
  let last := s.time.ns / 1000000 % 2 ^ 30
  s.setTables { s.tables with
    seen := Cells.set s.tables.seen seed (2 ^ 63 + at' top 16 46 + at' win 16 30 + last) 0 }

/-- Check a flood against the cache and update it (R277). -/
def seenCheck (s : State) (seed seq : Nat) : SeenOutcome × State :=
  let w := seenWord s seed
  let top := bits w 61 46
  let win := bits w 45 30
  let d := diffN 16 seq top
  if !bit w 63 then (.accept, seenPut s seed seq 0)
  else if 0 < d then
    (.accept, seenPut s seed seq (win * 2 ^ d.toNat + 2 ^ (d.toNat - 1)))
  else if d = 0 then (.duplicate, s)
  else if -16 ≤ d then
    let j := (-d).toNat - 1
    if bit win j then (.duplicate, s) else (.accept, seenPut s seed top (win + 2 ^ j))
  else (.old, s)

/-- LIFE of the cache in ms (R278, R286). -/
def seenLifeMs (s : State) : Nat := min 600 (max 1 (s.get Reg.MAC_FLOOD_CTRL.LIFE)) * 1000

/-- SEEN_CACHE_VISIT (R278): entries whose LIFE has passed lose VALID. -/
def execSeenCacheVisit (dt : Nat) (s : State) : Result :=
  step' dt s fun s =>
    let now := s.time.ns / 1000000 % 2 ^ 30
    let gone := fun w => bit w 63 && decide (((seenLifeMs s : Nat) : Int) ≤ diffN 30 now (w % 2 ^ 30))
    let clear := s.tables.seen.filterMap fun e =>
      let w := if gone e.2 then e.2 - 2 ^ 63 else e.2
      if w = 0 then none else some (e.1, w)
    s.setTables { s.tables with seen := clear }

end Sys2Proof.Machine
end

