-- ==== Sys2Proof/Machine/Mac.lean ====
section
/-!
DEFINITION. Medium access (R238 to R286): timeslots, commits, contention, free-run channels, the time source, floods and
wake-up patterns.
-/

namespace Sys2Proof.Machine

/-! Free-run channels (R255). -/

/-- The front end, bin and sub-band of a free-run channel. -/
def frFe (s : State) (f : Nat) : Nat := s.get (Reg.MAC_FR.FE f)
def frBin (s : State) (f : Nat) : Nat := s.get (Reg.MAC_FR.BIN f)
def frSub (s : State) (f : Nat) : Nat := ((subbandOf s (frFe s f) (frBin s f)).map (·.index)).getD 0

/-- Is a channel the one of a front end and bin? -/
def frOf (s : State) (fe bin : Nat) : Option Nat :=
  firstBelow 4 fun f => s.flag (Reg.MAC_FR.EN f) && decide (frFe s f = fe ∧ frBin s f = bin)

/-- The length of a listen with exponent `be` in ns, drawing its k (R255 steps 2 and 3). -/
def listenNs (s : State) (f be : Nat) : Nat × State :=
  ((s.get (Reg.MAC_FR.LISTEN f) + 320 * (s.free % 2 ^ be)) * 1000, s.drawn)

/-- The carrier of a load on a free-run channel. -/
def frCarrier (s : State) (f : Nat) (l : Load) (duty : Option (Nat × Nat)) : Carrier :=
  let fe := frFe s f
  match l with
  | .data p d retry => dataCarrier s fe (frBin s f) p d retry
  | .wake _ reps =>
    { bin := frBin s f, freqKhz := binKhz s fe (frBin s f), mode := 0, cr := 0, len := 0, airtimeUs := wakeAirtimeUs reps
      load := l, duty := duty }
  | _ => { bin := frBin s f, freqKhz := binKhz s fe (frBin s f), mode := 0, cr := 0, len := 0, airtimeUs := 0, load := l }

/-- The LO frequency of carriers: the midpoint of their span (R116). -/
def spanMid (l : List Carrier) : Nat :=
  match l.map (·.freqKhz) with
  | [] => 0
  | f :: fs => (fs.foldl min f + fs.foldl max f) / 2

/-- An emission with its LO and table entry (R103, R116). -/
def withLo (s : State) (fe : Nat) (e : Emission) : Emission :=
  let lo := spanMid e.carriers
  match entryFor s fe lo with
  | some i => { e with loKhz := lo, entry := i, scratch := false }
  | none => { e with loKhz := lo, entry := 0, scratch := true }

/-- May the LO tune to an emission's midpoint (R116)? On FE2 there is one carrier. -/
def loOk (fe : Nat) (e : Emission) : Bool := decide (fe = 2) || within e.loKhz 779000 960000

/-- TXD_DATA and TXD_ACK in µs (R111). -/
def txdData (s : State) (fe : Nat) : Nat := min 100 (s.get (Reg.FE_TX_CTRL.TXD_DATA fe))
def txdAck (s : State) (fe : Nat) : Nat := min 100 (s.get (Reg.FE_TX_CTRL.TXD_ACK fe))

/-- A run begins its first listen (R255 steps 1 to 3); its emission's nominal instant is the end of the listen. -/
def startRun (s : State) (f : Nat) (l : Load) (duty : Option (Nat × Nat)) : State :=
  let be := s.get (Reg.MAC_FR.MIN_BE f)
  let n := listenNs s f be
  let s := n.2
  let til := s.time.ns + n.1
  let fe := frFe s f
  let kind := match l with
    | .wake _ _ => 3
    | _ => 0
  let e : Emission := { kind := kind, commitNs := 0, nominalNs := til, deferUs := txdData s fe, loKhz := 0
                        asn := asnNow s, freeRun := some f, carriers := [frCarrier s f l duty] }
  addEmission (setRun s f { be := be, untilNs := til, load := l }) fe (withLo s fe e)

/-- The packet that a free-run channel takes next: one in the retry store that waits for no acknowledgement, else a queue
head (R398, R411). -/
def frNext (s : State) (f : Nat) : Option (Packet × Bool) :=
  match s.sched.retry.find? fun p => decide (p.freeRun = some f) &&
      !(s.mac.ackWaits.any fun w => decide (w.record = p.record)) with
  | some p => some (p, true)
  | none => (s.q.queues.findSome? fun e => match e.2 with
    | [] => none
    | p :: _ =>
      if decide (p.freeRun = some f) && (decide (p.record = broadcast) ||
          (decide (s.sched.retry.length < 4096) && (retryOf s p.record).isNone))
      then some p else none).map fun p => (p, false)

/-- The idle free-run channels take up waiting packets, once duty admits them (R255, R418, R507). -/
def startFreeRuns (s : State) : State :=
  (List.range 4).foldl (fun s f =>
    if !s.flag (Reg.MAC_FR.EN f) || !holder s || (runOf s f).isSome then s
    else
      let s := (s.q.queues.map (·.1)).foldl dropStale s
      match frNext s f with
      | none => s
      | some (p, retry) =>
        let air := pktAirtime s (frFe s f) p
        let low := decide (2 ≤ p.cls)
        if dutyAdmits s (frSub s f) air low then
          let d : Debit := { port := frFe s f, excess := false, tenant := p.tenant, queue := p.queue, weighted := false
                             committed := false, peak := false, byTenant := false, cost := air, sub := frSub s f
                             second := dutySecond s }
          startRun (dutyDebit s (frSub s f) air) f (.data p d retry) none
        else dutyHold s (frSub s f) low) s

/-! Building a timeslot (R249, R250). -/

/-- The span that carriers on a front end may have (R116). -/
def spanOk (fe : Nat) (l : List Carrier) : Bool :=
  match l.map (·.freqKhz) with
  | [] => true
  | f :: fs =>
    let lo := fs.foldl min f
    let hi := fs.foldl max f
    decide (fe = 2) || decide (hi - lo ≤ 4000 ∧ 1558000 ≤ lo + hi ∧ lo + hi ≤ 1920000)

/-- Do the carriers placed leave room for another one (R249 step 4)? -/
def carrierFits (s : State) (fe : Nat) (placed : List Carrier) (c : Carrier) : Bool :=
  !(placed.any fun x => decide (x.bin = c.bin)) &&
    decide (placed.length < (if fe = 2 then 1 else s.get (Reg.FE_TX_CTRL.MAX_CARRIERS fe))) && spanOk fe (placed ++ [c])

/-- The environment of a timeslot: LP4X errors by queue, and TX_REQ check bits by cell. -/
structure SlotEnv where
  errs : List (Nat × MemErr)
  txReq : List (Nat × Ecc)

/-- A packet that the scheduler has released for a cell passes LP4X and TX_REQ, or the cell stays empty (R388, R393). -/
def passRelease (s : State) (env : SlotEnv) (c : Cell) (o : Offer) (d : Debit) : State × Bool :=
  let err := ((env.errs.find? fun e => decide (e.1 = o.queue)).map (·.2)).getD .none
  let ecc := ((env.txReq.find? fun e => decide (e.1 = c.index)).map (·.2)).getD .ok
  if err ≠ .none ∧ !o.retry ∧ !o.pkt.onchip then ((dequeue (refund s d) o.queue err).1, false)
  else
    let s := fifoRead s Fifo.TX_REQ Block.MAC true (decide (o.pkt.cls = 0)) ecc
    if ecc = .uncorrectable then (refund s d, false) else (s, true)

/-- Offer one cell (R249 steps 3 and 4). -/
def offerCell (env : SlotEnv) (asn fe : Nat) (acc : State × List Carrier) (c : Cell) : State × List Carrier :=
  let s := acc.1
  let placed := acc.2
  let bin := cellBin s asn c
  match subbandOf s fe bin with
  | none => acc
  | some b =>
    let place := fun (s : State) (x : Carrier) (back : State → State) =>
      if carrierFits s fe placed x then (s, placed ++ [x]) else ((back s).count Ctr.CELL_SKIP, placed)
    if c.adv && c.nbr.isNone then
      if s.flag Reg.MAC_EB_CTRL.EN && holder s then
        let mode := s.get Reg.MAC_EB_CTRL.MODE
        place s { bin := bin, freqKhz := modeKhz s fe bin mode, mode := mode, cr := beaconCr s, len := 0, airtimeUs := 0
                  load := .beacon c.index, seq := Config.broadcastSeq fe % 64, cell := c.index, shared := c.shared } id
      else acc
    else
      let taken := placed.filterMap fun x => match x.load with
        | .data p _ _ => some p
        | _ => none
      let spot : CellSpot := { fe := fe, sub := b.index, modes := b.modes, nbr := c.nbr, shared := c.shared }
      let r := releaseCell s spot taken
      match r.2 with
      | none => (r.1, placed)
      | some (o, d) =>
        let p := passRelease r.1 env c o d
        if p.2 then
          let s := p.1
          place s { dataCarrier s fe bin o.pkt d o.retry with cell := c.index, shared := c.shared } fun s => refund s d
        else (p.1, placed)

/-- Build the emission of a front end in a timeslot (R249). Encryption starts once the timeslot is known (R40). -/
def buildSlot (env : SlotEnv) (asn : Nat) (s : State) (fe : Nat) : State :=
  let r := (txCells s asn fe).foldl (offerCell env asn fe) (s, [])
  let s := r.1
  if r.2.isEmpty then s
  else
    let nominal := slotStart s asn + s.get Reg.MAC_SLOT_0.TX_OFFSET * 1000
    let e : Emission := { kind := kindOf r.2, commitNs := 0, nominalNs := nominal, deferUs := txdData s fe
                          loKhz := 0, asn := asn, carriers := r.2 }
    let id := s.nextFrame
    let s := addEmission s fe (withLo s fe e)
    (r.2.filter (·.frame.isSome)).foldl (fun s c => addJob s (.encrypt fe id c.bin nominal)) s

/-- The reservations of a timeslot (R153, R244, R250). -/
def reserveSlot (s : State) (asn : Nat) : State :=
  (rxCells s asn).foldl (fun s c =>
    let fe := cellFe s asn c
    let bin := cellBin s asn c
    let mid := slotStart s asn + s.get Reg.MAC_SLOT_0.TX_OFFSET * 1000
    let half := s.get Reg.MAC_SLOT_0.RX_WAIT * 1000 / 2
    reserveLane s { cell := c.index, fe := fe, bin := bin, windowFrom := mid - half
                    windowTo := mid + half + detNs s fe bin }) s

/-- Does a timeslot begin now (R238)? The clock moves at most 2 ns a tick. -/
def atBoundary (s : State) : Bool :=
  decide (s.get Reg.MAC_ASN_EPOCH.EPOCH_NS ≤ s.time.ns ∧ (s.time.ns - s.get Reg.MAC_ASN_EPOCH.EPOCH_NS) % slotNs s < 2)

/-- TSCH_START (R239, R240): the first boundary after the first time step is taken or waived. -/
def execTschStart (dt : Nat) (s : State) : Result :=
  whenever dt s
    (fun s => !tschOn s && s.inRun && s.flag Reg.TIME_STATUS.STEP_USED && s.loaded.contains 3 && atBoundary s)
    fun s => s.setFlag Reg.MAC_STATUS.TSCH_ON true

/-- TIMESLOT_BOUNDARY (R249): an accepted change list and an agreed drill take effect; lanes are reserved and the
timeslot's emissions are built. -/
def execTimeslotBoundary (dt : Nat) (errs : List (Nat × MemErr)) (txReq : List (Nat × Ecc)) (s : State) : Result :=
  whenever dt s
    (fun s => tschOn s && s.inRun && atBoundary s && decide (s.mac.lastAsn ≠ some (asnAt s s.time.ns)))
    fun s =>
      let asn := asnNow s
      let s := s.setMac { s.mac with lastAsn := some (asnAt s s.time.ns) }
      let s := drillSwitch (sauActivate s asn) asn
      let s := reserveSlot s asn
      startFreeRuns (([0, 1, 2] : List Nat).foldl (buildSlot { errs := errs, txReq := txReq } asn) s)

/-! Commits (R251). -/

/-- Take a packet from its queue at commit (R411). -/
def unqueue (s : State) (p : Packet) : State := setQueue s p.queue ((queueAt s p.queue).filter fun x => decide (x ≠ p))

/-- Does a packet need a group key, and does a TX_ACTIVE slot exist for it (R306)? -/
def groupKeyOk (s : State) (p : Packet) : Bool :=
  decide (p.record ≠ broadcast) || (gkTx s (if p.service then none else some p.tenant)).isSome

/-- The octets that SAFE compares at commit (R655). -/
def e2ePasses (s : State) (p : Packet) (ok : Bool) : Bool :=
  ok && match p.safety with
    | none => true
    | some (src, seq) => match s.safe.flights.find? fun f => decide (f.source = src ∧ f.seq = seq) with
      | none => true
      | some f => decide (f.octets = p.data.drop (p.data.length - 32) ∧ crc32c (f.octets.take 28) = field f.octets 28 4)

/-- A data carrier commits: `none` in place of the carrier where it does not (R306, R411, R655, R659). -/
def commitData (s : State) (fe : Nat) (e : Emission) (c : Carrier) (p : Packet) (d : Debit) (retry ok : Bool) :
    State × Option Carrier :=
  if decide (p.cls = 0) && s.safeNow then (refund s d, none)
  else if !groupKeyOk s p then (queueDrop (unqueue (refund s d) p) p.queue 8, none)
  else if decide (p.cls = 0) && !e2ePasses s p ok then (enterSafe (refund s d) 0x08 ((p.safety.map Prod.fst).getD 0) ((p.safety.map Prod.snd).getD 0), none)
  else
    let s := if retry then s else unqueue s p
    let s := if p.record = broadcast ∨ retry then s else retryAdd s p
    let s := match p.flood with
      | some f => (seenCheck s f.seed f.seq).2
      | none => s
    let s := s.onlyIf (decide (p.record ≠ broadcast)) fun s =>
      match (openLanes s (isWide fe)).head? with
      | none => s
      | some n =>
        let endNs := e.nominalNs + 1000 * c.airtimeUs
        let del := s.get Reg.MAC_SLOT_1.TX_ACK_DELAY * 1000
        let w := s.get Reg.MAC_SLOT_1.ACK_WAIT * 1000 / 2
        grantReservation s n { cell := 65536 + 256 * fe + c.bin, fe := fe, bin := c.bin, windowFrom := endNs + del - w
                               windowTo := endNs + del + w + detNs s fe c.bin }
    let s := s.onlyIf (decide (p.cls = 0)) fun s => { s with safe := { s.safe with loopbacks := s.safe.loopbacks ++
      [{ fe := fe, asn := e.asn, riseByNs := e.deadline + 20000, stayToNs := 0, fallByNs := 0
         commands := match p.safety with | some x => [x] | none => [] }] } }
    (s, some { c with load := .data p d retry })

/-- A beacon carrier commits (R268, R306, R419, R742): KEY_SLOT holds its key, and a SERVICE slot must be TX_ACTIVE. -/
def commitBeacon (s : State) (fe : Nat) (e : Emission) (c : Carrier) (cell : Nat) : State × Option Carrier :=
  let sub : Option SubBand := subbandOf s fe c.bin
  let keyed := s.flag (Reg.CRYPTO_GK_CFG.VALID (s.get Reg.MAC_EB_CTRL.KEY_SLOT)) && (gkTx s none).isSome
  if !((sub.map fun b => bit b.modes c.mode).getD false) then (s.count Ctr.EB_SKIP, none)
  else if !keyed then (queueDrop s 0 8, none)
  else match buildBeacon s fe ((cellOf cell (cellWord s cell)).sf) e.asn (e.nominalNs + preambleNs c.mode) with
    | none => (s.count Ctr.EB_SKIP, none)
    | some (f, s') =>
      let len := f.psduLen false (fcsLen fe)
      let air := ownAirtimeUs c.mode len c.cr
      let sb := (sub.map SubBand.index).getD 0
      if dutyAdmits s sb air false then
        (dutyDebit s' sb air, some { c with len := len, airtimeUs := air, duty := some (sb, dutySecond s), frame := some f })
      else ((dutyHold s sb false).count Ctr.EB_DUTY, none)

/-- One carrier commits. -/
def commitCarrier (fe : Nat) (e : Emission) (ok : Bool) (acc : State × List Carrier) (c : Carrier) :
    State × List Carrier :=
  let r := match c.load with
    | .data p d retry => commitData acc.1 fe e c p d retry ok
    | .beacon cell => commitBeacon acc.1 fe e c cell
    | .ack _ _ =>
      let sb := ((subbandOf acc.1 fe c.bin).map SubBand.index).getD 0
      if dutyAdmits acc.1 sb c.airtimeUs false then
        (dutyDebit acc.1 sb c.airtimeUs, some { c with duty := some (sb, dutySecond acc.1) })
      else ((dutyHold acc.1 sb false).count Ctr.ACK_DUTY, none)
    | .wake _ _ => (acc.1, some c)
  match r.2 with
  | none => (r.1, acc.2)
  | some c' => (r.1, acc.2 ++ [c'])

/-- An emission is displaced before it commits (R251): data stays where it was; a wake-up pattern listens anew. -/
def displace (s : State) (fe : Nat) (e : Emission) : State :=
  let s := freeChannel (dropEmission s fe e) e
  e.carriers.foldl (fun s c => match c.load with
    | .data _ d _ => (refund s d).count Ctr.TX_DISPLACED
    | .ack _ _ => s.count Ctr.ACK_BUSY
    | .wake a r => match e.freeRun with
      | some f => startRun s f (.wake a r) c.duty
      | none => s
    | .beacon _ => s) s

/-- Own frame counters that an emission on a free-run channel uses: one for each secured frame (R265, R306). -/
def counters (e : Emission) : Nat :=
  if e.freeRun.isNone then 0
  else (e.carriers.filter fun c => match c.load with | .wake _ _ => false | _ => true).length

/-- The frames of an emission that need a counter above 0xFFFF_FFFF are dropped (R638). -/
def exhausted (s : State) (fe : Nat) (e : Emission) : State :=
  let s := freeChannel (dropEmission s fe e) e
  e.carriers.foldl (fun s c =>
    let s := match c.load with
      | .data p d retry => if retry then retryDrop (refund s d) p.record else unqueue (refund s d) p
      | _ => s
    s.count Ctr.FC_EXHAUSTED) s

/-- An emission whose LO cannot tune to its midpoint (R116) is not emitted: its debits return. Beyond the cells, which the
schedule leaves empty (R249), no rule tells what becomes of it; this is the model's choice. -/
def untunable (s : State) (fe : Nat) (e : Emission) : State :=
  freeChannel (e.carriers.foldl (fun s c => unsend s fe e c) (dropEmission s fe e)) e

/-- The CCM* jobs that wait for the commit: those of beacons, which are built then (R742), and those under the device's own counter,
which is taken then (R265). -/
def commitJobs (s : State) (fe : Nat) (e : Emission) : State :=
  e.carriers.foldl (fun s c =>
    let late := match c.load with
      | .beacon _ => true
      | .wake _ _ => false
      | _ => e.freeRun.isSome
    s.onlyIf late fun s => addJob s (if e.kind = 1 then .ack fe e.id c.bin else .encrypt fe e.id c.bin e.nominalNs)) s

/-- Commit an emission (R251). -/
def commit (s : State) (fe : Nat) (e0 : Emission) (ok : Bool) : State :=
  let e := e0
  if (s.fe fe).emissions.any fun x => x.committed && clashes s fe x e then displace s fe e
  else if decide (counters e ≠ 0) && decide (2 ^ 32 ≤ nvValue s NvKind.FC) then exhausted s fe e
  else
    let n := nvTake s NvKind.FC
    let e := { e with counter := if counters e = 0 then 0 else n.1 }
    let s := if counters e = 0 then s else n.2
    let r := e.carriers.foldl (commitCarrier fe e ok) (s, [])
    let s := r.1
    if r.2.isEmpty then freeChannel (dropEmission s fe e0) e
    else
      let e' := withLo s fe { e with kind := kindOf r.2, carriers := r.2, phase := .committed, commitNs := s.time.ns }
      let s := commitJobs (putEmission s fe e0 e') fe e'
      if !loOk fe e' then untunable s fe e'
      else if !s.flag (Reg.FE_STATUS.TX_IN_SERVICE fe) then abandon s fe e' Late.FE_OUT
      else if s.flag (Reg.FE_STATUS.MASK_STOPPED fe) then abandon s fe e' Late.MASK_STOP
      else calMeets s fe e'

/-- Acknowledgements first, then beacons, then data (R251). -/
def commitRank (e : Emission) : Nat := if e.kind = 1 then 0 else if e.kind = 2 then 1 else 2

/-- The planned emission that commits next: its commit point has come, and its counter may be used. -/
def nextPlanned (s : State) (fe : Nat) : Option Emission :=
  let due := (s.fe fe).emissions.filter fun e => !e.committed && decide (e.nominalNs ≤ s.time.ns + 300000) &&
    (decide (counters e = 0) || nvReady s NvKind.FC)
  due.foldl (fun b e => match b with
    | none => some e
    | some o => if commitRank e < commitRank o then some e else some o) none

/-- EMISSION_COMMIT (R251): `e2eOk` says that the octets handed to SAFE are those in the frame (R655). -/
def execEmissionCommit (dt : Nat) (fe : Fin 3) (e2eOk : Bool) (s : State) : Result :=
  step' dt s fun s =>
    match nextPlanned s fe with
    | none => s
    | some e => commit s fe e e2eOk

/-! Contention (R252, R253, R255). -/

/-- A carrier leaves its emission. The LO follows the span that is left (R116) until its hop has begun: the model's choice. -/
def removeCarrier (s : State) (fe : Nat) (e : Emission) (c : Carrier) : State :=
  let left := e.carriers.filter fun x => decide (x ≠ c)
  let e' : Emission := { e with kind := kindOf left, carriers := left }
  let e' := if e.phase = .committed then withLo s fe e' else e'
  if left.isEmpty then dropEmission s fe e
  else
    let s := putEmission s fe e e'
    if loOk fe e' then s else untunable s fe e'

/-- Does a clear-channel assessment overlap blanking of its front end (R252): the front end is blanked, or its reception resumed only
after the assessment had begun? -/
def ccaBlanked (s : State) (fe fromNs : Nat) : Bool :=
  s.flag (Reg.FE_STATUS.BLANKED fe) || decide (fromNs < (s.fe fe).detectNs)

/-- Does the energy of a bin, in 0.25 dBm at the device's pin, exceed a threshold in dBm at the antenna port (R252)? -/
def louder (s : State) (fe : Nat) (peak : Int) (dbm : Nat) : Bool := decide (4 * toSigned 8 dbm < atAntenna s fe peak)

/-- The emission and the carrier of a SHARED cell on a bin, data or beacon, whose channel is still to be assessed. -/
def sharedCarrier (s : State) (fe bin : Nat) : Option (Emission × Carrier) :=
  (s.fe fe).emissions.findSome? fun e =>
    if (e.phase ≠ .emitting) ∧ (e.kind = 0 ∨ e.kind = 2) ∧ e.freeRun = none then
      (e.carriers.find? fun c => c.shared && !c.assessed && decide (c.bin = bin)).map fun c => (e, c)
    else none

/-- CCA_DONE (R252): the assessment of a SHARED cell ends, CCA_OFFSET + CCA_LEN into its timeslot. `peak` is the highest energy of
the bin during it, and `peak2` that of the next bin, which counts for an FDW mode. A busy channel is a failed attempt of a data
frame; a beacon is left out. -/
def execCcaDone (dt : Nat) (fe : Fin 3) (bin : Nat) (peak peak2 : Int) (s : State) : Result :=
  step' dt s fun s =>
    match sharedCarrier s fe bin with
    | none => s
    | some (e, c) =>
      let start := e.nominalNs - s.get Reg.MAC_SLOT_0.TX_OFFSET * 1000 + s.get Reg.MAC_SLOT_1.CCA_OFFSET * 1000
      s.onlyIf (decide (start + s.get Reg.MAC_SLOT_1.CCA_LEN * 1000 ≤ s.time.ns)) fun s =>
      let thresh := s.get Reg.MAC_CSMA_CTRL.CCA_THRESH
      let busy := louder s fe peak thresh || (isFDW c.mode && louder s fe peak2 thresh) || ccaBlanked s fe start
      if !busy then putEmission s fe e { e with carriers := e.carriers.map fun x => if x = c then { c with assessed := true } else x }
      else
        let s := removeCarrier s fe e c
        match c.load with
        | .data p d retry =>
          let s := (refund s d).onlyIf (decide (p.cls = 0) && e.committed) fun s => unwatch s fe e.asn
          let s := s.onlyIf (!e.committed && !retry) fun s =>
            if p.record = broadcast then unqueue s p else retryAdd (unqueue s p) p
          failAttempt s p.record true
        | _ => dutyBack s c

/-- A busy listen: BE rises and the channel listens again, or the emission is dropped (R255 step 5). -/
def busyListen (s : State) (f : Nat) (r : FreeRun) (fe : Nat) (e : Emission) : State :=
  if s.get (Reg.MAC_FR.MAX_TRIES f) ≤ r.busy + 1 then
    let s := (endRun (dropEmission s fe e) f).count Ctr.LBT_FAIL
    e.carriers.foldl (fun s c => match c.load with
      | .data p d _ => unqueue (retryDrop (refund s d) p.record) p
      | .wake _ _ => wakeEnd (dutyBack s c) (some 3)
      | _ => s) s
  else
    let be := min (r.be + 1) (s.get (Reg.MAC_FR.MAX_BE f))
    let n := listenNs s f be
    let s := n.2
    let til := s.time.ns + n.1
    let s := setRun s f { r with be := be, busy := r.busy + 1, untilNs := til }
    putEmission s fe e { e with nominalNs := til, asn := asnNow s
                                phase := if e.committed then .committed else .planned }

/-- LBT_LISTEN_END (R255): the bin energy has reached THRESH, or the listen has ended free. `peak` is the highest energy of the
channel's bin since the listen began, in 0.25 dBm at the device's pin. -/
def execLbtListenEnd (dt : Nat) (fr : Fin 4) (peak : Int) (s : State) : Result :=
  step' dt s fun s =>
    let fe := frFe s fr
    match runOf s fr, (s.fe fe).emissions.find? fun e => decide (e.freeRun = some fr.val ∧ e.kind ≠ 1) with
    | some r, some e =>
      if !r.listening then s
      else if decide (4 * toSigned 8 (s.get (Reg.MAC_FR.THRESH fr)) ≤ atAntenna s fe peak) then startFreeRuns (busyListen s fr r fe e)
      else s.onlyIf (decide (r.untilNs ≤ s.time.ns)) fun s => setRun s fr { r with listening := false }
    | _, _ => startFreeRuns s

/-! Acknowledgement windows (R254, R267). -/

/-- Does a frame that began in the window still stand on its way to a verdict? -/
def ackInFlight (s : State) (w : AckWait) : Bool :=
  let inW := fun t => decide (w.fromNs ≤ t ∧ t ≤ w.toNs)
  (s.hear.lanes.any fun e => laneHasFrame e.2 && decide (e.2.fe = w.fe ∧ e.2.bin = w.bin) && inW e.2.timingNs) ||
    (s.ox.jobs.any fun e => decide (e.2.fe = w.fe ∧ e.2.bin = w.bin) && inW (e.2.syncNs - preambleNs e.2.mode)) ||
    (s.up.any fun u => decide (u.fe = w.fe ∧ u.bin = w.bin) && inW u.firstNs)

/-- ACK_WAIT_END (R254, R267): the window of a unicast emission ends without an acknowledgement. -/
def execAckWaitEnd (dt : Nat) (fe : Fin 3) (record : Nat) (s : State) : Result :=
  step' dt s fun s =>
    match s.mac.ackWaits.find? fun w => decide (w.fe = fe.val ∧ w.record = record) with
    | none => s
    | some w =>
      s.onlyIf (decide (w.toNs ≤ antennaNs s fe) && !ackInFlight s w) fun s =>
        let s := s.setMac { s.mac with ackWaits := s.mac.ackWaits.filter fun x => decide (x ≠ w) }
        startFreeRuns (failAttempt s record w.shared)

/-- DUTY_SECOND (R417, R421): a whole second has begun: its bucket clears, HOLD may fall, and free-run channels look again. -/
def execDutySecond (dt : Nat) (s : State) : Result :=
  whenever dt s (fun s => decide (s.time.ns / 1000000000 ≠ s.sched.dutySec)) fun s => startFreeRuns (dutyTurn s)

/-! The time source (R272 to R274, R449). -/

/-- PERIOD × 1.1 of the source named by SRC, in ns. -/
def tsrcNs (s : State) : Nat := s.get (Reg.MAC_TSRC_CFG.PERIOD (s.get Reg.MAC_STATUS.SRC)) * 1100000

/-- Is the source named by SRC enabled? -/
def tsrcOn (s : State) : Bool := s.flag (Reg.MAC_TSRC_CFG.EN (s.get Reg.MAC_STATUS.SRC))

/-- TSRC_BEACON_MISS (R273, R449): PERIOD × 1.1 passes without an accepted beacon; the third miss disqualifies EB, and
while EB is selected raises TIME_SRC_LOST and sets HOLDOVER. -/
def execTsrcBeaconMiss (dt : Nat) (s : State) : Result :=
  whenever dt s
    (fun s => tschOn s && tsrcOn s && decide (clsPrio s clsEB ≠ 0 ∧ s.mac.tsrcNs + tsrcNs s ≤ s.time.ns))
    fun s =>
      let m := s.get Reg.MAC_STATUS.MISSES
      let s := s.setMac { s.mac with tsrcNs := s.mac.tsrcNs + tsrcNs s }
      let s := s.set Reg.MAC_STATUS.MISSES (min 3 (m + 1))
      s.onlyIf (decide (m = 2)) fun s =>
        let s := s.onlyIf (s.flag Reg.MAC_STATUS.FOLLOW) fun s =>
          (s.event Ev.TIME_SRC_LOST Block.MAC (at' (s.get Reg.MAC_STATUS.SRC) 2 46 + at' (b2n s.mac.tsrcBad) 1 45
            + at' (asnNow s) 40 0)).setFlag Reg.MAC_STATUS.HOLDOVER true
        disqualify (s.setMac { s.mac with tsrcLost := some s.tick }) clsEB

/-- SRC moves to the next enabled entry in ascending order, wrapping (R274). -/
def tsrcNext (s : State) : State :=
  let src := s.get Reg.MAC_STATUS.SRC
  let next := (((List.range 4).map fun i => (src + 1 + i) % 4).find? fun i => s.flag (Reg.MAC_TSRC_CFG.EN i)).getD src
  let s := (s.set Reg.MAC_STATUS.SRC next).set Reg.MAC_STATUS.MISSES 0
  s.setMac { s.mac with tsrcNs := s.time.ns, tsrcBad := false, tsrcLost := some s.tick }

/-- HOLDOVER_WAIT_EXPIRY (R274, R449, R451): HOLDOVER_WAIT passes without the selected class or the beacon source
qualifying. -/
def execHoldoverWaitExpiry (dt : Nat) (s : State) : Result :=
  step' dt s fun s =>
    let wait := s.get Reg.TIME_SRC_CTRL.HOLDOVER_WAIT
    let lost := match s.mac.tsrcLost with
      | none => false
      | some t => s.elapsedSec t wait && !s.flag Reg.TIME_STATUS.EB_Q
    let s := s.onlyIf (s.flag Reg.TIME_STATUS.HOLDOVER && s.time.selectAt.isNone && s.elapsedSec s.time.holdAt wait &&
      !s.flag (clsBit (s.get Reg.TIME_STATUS.SEL))) holdoverSelect
    s.onlyIf lost tsrcNext

/-! Floods (R280, R644). -/

/-- The flood that takes the next window: a Flock fragment only when no other waits (R644). -/
def floodNext (s : State) : Option FloodWait :=
  match s.mac.floods.find? fun w => w.flock.isNone with
  | some w => some w
  | none => s.mac.floods.head?

/-- Enqueue a flood with its header into its queues (R280); whether every queue took it. -/
def floodEnqueue (s : State) (w : FloodWait) (seq : Nat) : State × Bool :=
  let hdr : Flood := { seed := s.get Reg.MAC_FLOOD_CTRL.SEED_ID, seq := seq % 65536
                       hops := max 1 (s.get Reg.MAC_FLOOD_CTRL.HOPS) }
  w.queues.foldl (fun acc q =>
    let n := drawSeqNo acc.1
    let r := enqueue n.1 q (sized n.1 { w.pkt with flood := some hdr, seqNo := n.2 })
    (r.1, acc.2 && r.2)) (s, true)

/-- FLOOD_WINDOW (R280): a 20 ms window opens and one waiting own flood takes the next SEQ. -/
def execFloodWindow (dt : Nat) (s : State) : Result :=
  whenever dt s
    (fun s => decide (s.mac.floodWindow ≠ some (s.time.ns / 20000000)) && nvReady s NvKind.FSEQ)
    fun s =>
      match floodNext s with
      | none => s
      | some w =>
        let s := s.setMac { s.mac with floodWindow := some (s.time.ns / 20000000)
                                       floods := s.mac.floods.takeWhile (· ≠ w) ++
                                         (s.mac.floods.dropWhile (· ≠ w)).drop 1 }
        let n := nvTake s NvKind.FSEQ
        let r := floodEnqueue n.2 w n.1
        match w.flock with
        | none => r.1
        | some k =>
          let s := (r.1.set Reg.MAC_FLOCK_STATUS.SLOT (k / 1024)).set Reg.MAC_FLOCK_STATUS.FRAG (k % 1024)
          if r.2 then s.bump Reg.MAC_FLOCK_STATUS.SENT else s.bump Reg.MAC_FLOCK_STATUS.SKIPPED

/-! Wake-up patterns (R283, R284). -/

/-- A wake request is refused at once. -/
def wakeRefuse (s : State) (cause : Nat) : State :=
  ((s.setFlag Reg.MAC_WAKE_STATUS.DONE true).setFlag Reg.MAC_WAKE_STATUS.REFUSED true).set Reg.MAC_WAKE_STATUS.CAUSE cause

/-- A write of MAC_WAKE_REQ (R283). -/
def writeWakeReq (s : State) (v : Nat) : State :=
  let addr := bits v 31 0
  let f := bits v 41 40
  if !bit v 63 || s.flag Reg.MAC_WAKE_STATUS.BUSY then s
  else if !wakeAddrOk addr then wakeRefuse s 1
  else if !s.flag (Reg.MAC_FR.EN f) || decide (frFe s f = 2) then wakeRefuse s 2
  else
    let s := s.setFlag Reg.MAC_WAKE_STATUS.BUSY true
    s.setMac { s.mac with wake := some { addr := addr, reps := max 1 (bits v 39 32), fr := f } }

/-- WAKE_REQUEST (R283). -/
def execWakeRequest (dt : Nat) (value : Word) (s : State) : Result :=
  step' dt s fun s => (writeWakeReq s value.toNat).answer 0

/-- WAKE_ADMIT (R284): the duty shaper admits the waiting pattern and its listen begins. -/
def execWakeAdmit (dt : Nat) (s : State) : Result :=
  step' dt s fun s =>
    match s.mac.wake with
    | none => s
    | some w =>
      if w.admitted || !holder s || (runOf s w.fr).isSome then s
      else
        let sub := frSub s w.fr
        let air := wakeAirtimeUs w.reps
        if dutyAdmits s sub air true then
          let s := s.setMac { s.mac with wake := some { w with admitted := true } }
          startRun (dutyDebit s sub air) w.fr (.wake w.addr w.reps) (some (sub, dutySecond s))
        else dutyHold s sub true

end Sys2Proof.Machine
end

