-- ==== Sys2Proof/Machine/Sixlo.lean ====
section
/-!
DEFINITION. 6LoWPAN (R367, R369, R370): the compression of step 4 of R39 and the decompression of step 10 of R33, in the forms of
RFC 6282, RFC 8138 and RFC 4944 that R370 names.
-/

namespace Sys2Proof.Machine

/-! Addresses and contexts. -/

/-- The interface identifier of a link-layer address: a short address between 00FF and FE00, or an EUI-64 with bit 57 inverted. -/
def ifaceId : Addr → Nat
  | .absent => 0
  | .short a => 0x000000FFFE000000 + a
  | .ext k => k ^^^ 2 ^ 57

/-- The context that a CID names for a tenant: its prefix and length (R367). -/
def contextFor (s : State) (tenant cid : Nat) : Option (Nat × Nat) :=
  if cid = 0 then (s.tables.tenantPrefix.find? fun e => decide (e.1 = tenant)).map fun e => (e.2, 64)
  else (s.tables.contexts.find? fun e => decide (e.1 = cid)).map (·.2)

/-- Does a context give an address's upper half: the prefix matches, and the bits that it does not cover are zero, as they are
rebuilt? -/
def contextGives (hi : Nat) (c : Nat × Nat) : Bool := decide (hi = c.1 / 2 ^ (64 - c.2) * 2 ^ (64 - c.2))

/-- The lowest CID whose context gives an upper half. -/
def contextOf (s : State) (tenant hi : Nat) : Option Nat :=
  firstBelow 16 fun cid => match contextFor s tenant cid with
    | some c => contextGives hi c
    | none => false

/-- The upper half of a link-local address. -/
def linkLocal : Nat := 0xFE80000000000000

/-! UDP. -/

/-- The sum of 16-bit words, most significant octet first; an odd last octet counts as the upper half of a word. -/
def wordSum : List Byte → Nat
  | [] => 0
  | [a] => 256 * a.toNat
  | a :: b :: l => 256 * a.toNat + b.toNat + wordSum l

/-- The checksum of a UDP packet over its pseudo-header: addresses, length and next header 17. -/
def udpChecksum (src dst udp : List Byte) : Nat :=
  let t := wordSum src + wordSum dst + udp.length + 17 + wordSum udp
  let c := 65535 - (if t = 0 then 0 else (t - 1) % 65535 + 1)
  if c = 0 then 65535 else c

/-! Compression. -/

/-- Ports as the NHC form compresses them: P and the octets inline. -/
def nhcPorts (sp dp : Nat) : Nat × List Byte :=
  if sp / 16 = 0xF0B ∧ dp / 16 = 0xF0B then (3, leBytes 1 (sp % 16 * 16 + dp % 16))
  else if dp / 256 = 0xF0 then (1, beBytes 2 sp ++ leBytes 1 dp)
  else if sp / 256 = 0xF0 then (2, leBytes 1 sp ++ beBytes 2 dp)
  else (0, beBytes 2 sp ++ beBytes 2 dp)

/-- May the UDP header of a datagram be compressed: it is whole, and its length is that of the datagram's rest? -/
def udpFits (d : List Byte) : Bool :=
  decide (field d 6 1 = 17 ∧ 48 ≤ d.length ∧ fieldBE d 44 2 = d.length - 40)

/-- What follows the IPHC header of a datagram: a UDP header by NHC with its checksum inline, or the octets as they are. -/
def compressRest (d : List Byte) : List Byte :=
  if udpFits d then
    let p := nhcPorts (fieldBE d 40 2) (fieldBE d 42 2)
    leBytes 1 (0xF0 + p.1) ++ p.2 ++ (d.drop 46)
  else d.drop 40

/-- The IPHC header of a datagram and what follows it (R370). `mac` is the MAC destination. -/
def iphc (s : State) (tenant : Nat) (mac : Addr) (d : List Byte) : List Byte :=
  let word := fieldBE d 0 4
  let flows := decide (word % 2 ^ 28 ≠ 0)
  -- traffic class with ECN first, then the flow label
  let tf := if flows then leBytes 1 (bits word 21 20 * 64 + bits word 27 22) ++ beBytes 3 (word % 2 ^ 20) else []
  let hop := field d 7 1
  let hlim := if hop = 1 then 1 else if hop = 64 then 2 else if hop = 255 then 3 else 0
  let srcHi := fieldBE d 8 8
  let dstHi := fieldBE d 24 8
  let dstLo := fieldBE d 32 8
  let multicast := decide (dstHi / 2 ^ 56 = 0xFF)
  let sctx := contextOf s tenant srcHi
  let dctx := if multicast then none else contextOf s tenant dstHi
  let meets := decide (mac ≠ .absent ∧ dstLo = ifaceId mac)
  let src := match sctx with
    | some _ => (1, (d.drop 16).take 8)
    | none => (0, (d.drop 8).take 16)
  let dst := match dctx with
    | some _ => if meets then (3, []) else (1, (d.drop 32).take 8)
    | none => if !multicast && decide (dstHi = linkLocal) && meets then (3, []) else (0, (d.drop 24).take 16)
  let cids := decide (sctx.getD 0 ≠ 0 ∨ dctx.getD 0 ≠ 0)
  leBytes 1 (0x60 + (if flows then 0 else 0x18) + (if udpFits d then 4 else 0) + hlim) ++
    leBytes 1 ((if cids then 0x80 else 0) + 64 * b2n sctx.isSome + 16 * src.1 + 8 * b2n multicast + 4 * b2n dctx.isSome + dst.1) ++
    (if cids then leBytes 1 (16 * sctx.getD 0 + dctx.getD 0) else []) ++ tf ++
    (if udpFits d then [] else leBytes 1 (field d 6 1)) ++ (if hlim = 0 then leBytes 1 hop else []) ++ src.2 ++ dst.2 ++
    compressRest d

/-- The SRH-6LoRH of a source route, type 3, behind the dispatch of page 1 (R369): the hops after the first as interface
identifiers, then the destination's. -/
def srh (hops : List Nat) (d : List Byte) : List Byte :=
  if hops.isEmpty then []
  else [0xF1] ++ leBytes 1 (0x80 + (hops.length - 1)) ++ [3] ++
    ((hops.drop 1).flatMap fun h => beBytes 8 (ifaceId (.ext h))) ++ (d.drop 32).take 8

/-- The MAC payload of a downlink datagram (R369, R370). -/
def compress (s : State) (tenant : Nat) (mac : Addr) (hops : List Nat) (d : List Byte) : List Byte :=
  srh hops d ++ iphc s tenant mac d

/-! Decompression. -/

/-- What decompression makes of a MAC payload (R370). -/
inductive Decomp where
  /-- An IPv6 datagram. -/
  | ip (datagram : List Byte)
  /-- FRAG1 or FRAGN. -/
  | frag (frame : List Byte)
  /-- An extension header, an SRH-6LoRH, or another dispatch: the frame as decompression left it. -/
  | other (frame : List Byte)
  /-- A context identifier without a context, or a header that ends early or is reserved. -/
  | fail
  deriving DecidableEq, Repr

/-- Take `n` octets. -/
def takeOctets (n : Nat) (l : List Byte) : Option (List Byte × List Byte) :=
  if n ≤ l.length then some (l.take n, l.drop n) else none

/-- An address rebuilt by SAM or DAM of a unicast form; `upper` is its prefix and length, and `ll` the link-layer address. -/
def takeUnicast (form : Nat) (upper : Nat × Nat) (ll : Addr) (l : List Byte) : Option (List Byte × List Byte) :=
  let hi := beBytes 8 (upper.1 / 2 ^ (64 - upper.2) * 2 ^ (64 - upper.2))
  match form with
  | 1 => (takeOctets 8 l).map fun r => (hi ++ r.1, r.2)
  | 2 => (takeOctets 2 l).map fun r => (hi ++ [0, 0, 0, 0xFF, 0xFE, 0] ++ r.1, r.2)
  | _ => some (hi ++ beBytes 8 (ifaceId ll), l)

/-- A multicast destination rebuilt by DAM without a context. -/
def takeMulticast (form : Nat) (l : List Byte) : Option (List Byte × List Byte) :=
  let z := fun n => List.replicate n (0 : Byte)
  match form with
  | 0 => takeOctets 16 l
  | 1 => (takeOctets 6 l).map fun r => ([0xFF] ++ r.1.take 1 ++ z 9 ++ r.1.drop 1, r.2)
  | 2 => (takeOctets 4 l).map fun r => ([0xFF] ++ r.1.take 1 ++ z 11 ++ r.1.drop 1, r.2)
  | _ => (takeOctets 1 l).map fun r => ([0xFF, 0x02] ++ z 13 ++ r.1, r.2)

/-- A multicast destination that takes its prefix from a context. -/
def takePrefixed (c : Nat × Nat) (l : List Byte) : Option (List Byte × List Byte) :=
  (takeOctets 6 l).map fun r => ([0xFF] ++ r.1.take 2 ++ leBytes 1 c.2 ++ beBytes 8 c.1 ++ r.1.drop 2, r.2)

/-- The source address of an IPHC header. -/
def takeSource (b : Nat) (ctx : Option (Nat × Nat)) (ll : Addr) (l : List Byte) : Option (List Byte × List Byte) :=
  let sam := bits b 5 4
  if bit b 6 then
    if sam = 0 then some (List.replicate 16 0, l) else ctx.bind fun c => takeUnicast sam c ll l
  else if sam = 0 then takeOctets 16 l else takeUnicast sam (linkLocal, 64) ll l

/-- The destination address of an IPHC header. -/
def takeDest (b : Nat) (ctx : Option (Nat × Nat)) (ll : Addr) (l : List Byte) : Option (List Byte × List Byte) :=
  let dam := bits b 1 0
  match bit b 3, bit b 2 with
  | false, false => if dam = 0 then takeOctets 16 l else takeUnicast dam (linkLocal, 64) ll l
  | false, true => if dam = 0 then none else ctx.bind fun c => takeUnicast dam c ll l
  | true, false => takeMulticast dam l
  | true, true => if dam = 0 then ctx.bind fun c => takePrefixed c l else none

/-- Traffic class and flow label by TF, as bits [27:0] of the first word of an IPv6 header. -/
def takeTf (tf : Nat) (l : List Byte) : Option (Nat × List Byte) :=
  let cls := fun x => bits x 5 0 * 2 ^ 22 + bits x 7 6 * 2 ^ 20
  match tf with
  | 0 => (takeOctets 4 l).map fun r => (cls (field r.1 0 1) + fieldBE r.1 1 3 % 2 ^ 20, r.2)
  | 1 => (takeOctets 3 l).map fun r => (bits (field r.1 0 1) 7 6 * 2 ^ 20 + fieldBE r.1 0 3 % 2 ^ 20, r.2)
  | 2 => (takeOctets 1 l).map fun r => (cls (field r.1 0 1), r.2)
  | _ => some (0, l)

/-- The UDP header of an NHC form, of length 8 and the rest; its checksum is recomputed when elided. -/
def takeUdp (src dst : List Byte) (b : Nat) (l : List Byte) : Option (List Byte) :=
  let ports : Option (List Byte × List Byte) := match bits b 1 0 with
    | 0 => takeOctets 4 l
    | 1 => (takeOctets 3 l).map fun r => (r.1.take 2 ++ [0xF0] ++ r.1.drop 2, r.2)
    | 2 => (takeOctets 3 l).map fun r => ([0xF0] ++ r.1, r.2)
    | _ => (takeOctets 1 l).map fun r =>
      (beBytes 2 (0xF0B0 + field r.1 0 1 / 16) ++ beBytes 2 (0xF0B0 + field r.1 0 1 % 16), r.2)
  ports.bind fun p =>
    if bit b 2 then
      let udp := fun c => p.1 ++ beBytes 2 (8 + p.2.length) ++ beBytes 2 c ++ p.2
      some (udp (udpChecksum src dst (udp 0)))
    else (takeOctets 2 p.2).map fun c => p.1 ++ beBytes 2 (8 + c.2.length) ++ c.1 ++ c.2

/-- Rebuild the datagram of an IPHC frame from a sender of a tenant (R370). -/
def decompressIphc (s : State) (tenant : Nat) (src dst : Addr) (frame : List Byte) : Decomp :=
  let a := field frame 0 1
  let b := field frame 1 1
  let built : Option Decomp :=
    (takeOctets 2 frame).bind fun l =>
    (if bit b 7 then takeLE 1 l.2 else some (0, l.2)).bind fun cid =>
    (takeTf (bits a 4 3) cid.2).bind fun tf =>
    (if bit a 2 then some ([], tf.2) else takeOctets 1 tf.2).bind fun nh =>
    (if bits a 1 0 = 0 then takeLE 1 nh.2 else some (([0, 1, 64, 255] : List Nat).getD (bits a 1 0) 0, nh.2)).bind fun hop =>
    (takeSource b (contextFor s tenant (cid.1 / 16)) src hop.2).bind fun sa =>
    (takeDest b (contextFor s tenant (cid.1 % 16)) dst sa.2).bind fun da =>
      let whole := fun (next : List Byte) (body : List Byte) =>
        Decomp.ip (beBytes 4 (6 * 2 ^ 28 + tf.1) ++ beBytes 2 body.length ++ next ++ leBytes 1 hop.1 ++ sa.1 ++ da.1 ++ body)
      if !bit a 2 then some (whole nh.1 da.2)
      else (takeLE 1 da.2).bind fun n =>
        if n.1 / 8 = 0x1E then (takeUdp sa.1 da.1 n.1 n.2).map fun u => whole [17] u
        else some (.other frame)
  built.getD .fail

/-- Consume the 6LoRH headers of page 1: an RPI-6LoRH is dropped; at another one decompression stops (R370). -/
def page1 (s : State) (tenant : Nat) (src dst : Addr) : Nat → List Byte → Decomp
  | 0, l => .other l
  | fuel + 1, l =>
    let a := field l 0 1
    if l.isEmpty then .other l
    else if a / 32 = 4 ∧ field l 1 1 = 5 then
      -- I elides the instance, K shortens the rank
      let n := 2 + (if bit a 1 then 0 else 1) + (if bit a 0 then 1 else 2)
      if l.length < n then .fail else page1 s tenant src dst fuel (l.drop n)
    else if a / 32 = 3 then decompressIphc s tenant src dst l
    else if l.take 1 = [0xF1] then page1 s tenant src dst fuel (l.drop 1)
    else .other l

/-- Decompress the MAC payload of a frame from a sender of a tenant, with the link-layer addresses of the frame (R370). -/
def decompress (s : State) (tenant : Nat) (src dst : Addr) (l : List Byte) : Decomp :=
  let a := field l 0 1
  if l.isEmpty then .other l
  else if a / 32 = 3 then decompressIphc s tenant src dst l
  else if a / 8 = 0x18 ∨ a / 8 = 0x1C then .frag l
  else if a = 0xF1 then page1 s tenant src dst l.length l
  else .other l

end Sys2Proof.Machine
end

