-- ==== Sys2Proof/Machine/Trie.lean ====
section
/-!
DEFINITION. The prefix trie (R352 to R361): its memories, the walk, and the writes the Mule makes.
-/

namespace Sys2Proof.Machine

/-- The first word of stage `k` in the trie memories, and of the result words, in 32-bit words (R352). -/
def stageBase (k : Nat) : Nat :=
  if k = 0 then 0 else if k = 1 then 0x10000 else if k = 2 then 0x20000 else if k = 3 then 0x28000
  else if k = 4 then 0x30000 else if k = 5 then 0x38000 else 0x40000
def resultBase : Nat := 0x50000

/-- The nodes of stages 1 to 6 (R352). -/
def stageNodes (k : Nat) : Nat := if k = 1 ∨ k = 6 then 256 else 128

/-- A word of the trie memories. -/
def trieWord (s : State) (i : Nat) : Nat := Cells.get s.tables.trie i 0

/-- Write a word of the trie memories. -/
def setTrie (s : State) (i v : Nat) : State :=
  s.setTables { s.tables with trie := Cells.set s.tables.trie i (v % 2 ^ 32) 0 }

/-- Write consecutive words. -/
def setTrieWords (s : State) (i : Nat) : List Nat → State
  | [] => s
  | v :: vs => setTrieWords (setTrie s i v) (i + 1) vs

/-- How a walk ends (R354). -/
inductive Walk where
  | leaf (index : Nat)
  | none
  | error
  deriving DecidableEq, Repr

/-- The address bits that select an entry of stage `k` (R352). -/
def stageKey (addrHi k : Nat) : Nat := if k = 0 then bits addrHi 63 48 else bits addrHi (55 - 8 * k) (48 - 8 * k)

/-- The walk from stage `k`, whose node's entries start at word `base`; `n` stages are left (R354). -/
def walkFrom (s : State) (addrHi : Nat) : Nat → Nat → Nat → Walk
  | 0, _, _ => .error
  | n + 1, k, base =>
    let e := trieWord s (base + stageKey addrHi k)
    let kind := bits e 31 30
    let target := bits e 15 0
    if kind = 0 then .none
    else if kind = 1 then .leaf target
    else if kind = 3 then .error
    else if k = 6 ∨ stageNodes (k + 1) ≤ target then .error
    else walkFrom s addrHi n (k + 1) (stageBase (k + 1) + 256 * target)

/-- A trie walk. -/
def walk (s : State) (addrHi : Nat) : Walk := walkFrom s addrHi 7 0 0

/-- The prefix table is a replica that is not complete yet (R490). -/
def replicaMissing (s : State) : Bool :=
  s.flag Reg.HERD_CTRL.PREFIX_FROM_MASTER && !s.flag Reg.HERD_STATUS.REPL_SYNC

/-- A prefix lookup: the result word of its match (R354, R355). -/
def prefixWord (s : State) (addrHi : Nat) : Option Nat :=
  if replicaMissing s then none
  else match walk s addrHi with
    | .leaf i =>
      let w := trieWord s (resultBase + i)
      if 1 ≤ bits w 31 29 ∧ bits w 31 29 ≤ 4 then some w else none
    | _ => none

/-- Does this lookup count TRIE_ERR (R354, R355)? -/
def prefixErr (s : State) (addrHi : Nat) : Bool :=
  match walk s addrHi with
  | .leaf i => let w := trieWord s (resultBase + i); decide (bits w 31 29 = 0 ∨ 4 < bits w 31 29)
  | .none => false
  | .error => true

/-- The state after a prefix lookup. -/
def prefixTouch (s : State) (addrHi : Nat) : State :=
  s.onlyIf (!replicaMissing s && prefixErr s addrHi) fun s => s.bump Reg.FWD_PIPE_STATUS.TRIE_ERR

/-- TRIE_TEST_LOOKUP (R378): a write of FWD_TRIE_TEST_KEY issues one lookup. -/
def writeTestKey (s : State) (key : Nat) : State :=
  let s := (s.set Reg.FWD_TRIE_TEST_KEY.ADDR_HI key).onlyIf (prefixErr s key) fun s =>
    s.bump Reg.FWD_PIPE_STATUS.TRIE_ERR
  match walk s key with
  | .leaf i => ((s.setFlag Reg.FWD_TRIE_TEST_RESULT.MATCH true).set Reg.FWD_TRIE_TEST_RESULT.INDEX i).set
      Reg.FWD_TRIE_TEST_RESULT.WORD (trieWord s (resultBase + i))
  | _ => ((s.setFlag Reg.FWD_TRIE_TEST_RESULT.MATCH false).set Reg.FWD_TRIE_TEST_RESULT.INDEX 0).set
      Reg.FWD_TRIE_TEST_RESULT.WORD 0
def execTrieTestLookup (dt : Nat) (value : Word) (s : State) : Result :=
  step' dt s fun s => (writeTestKey s value.toNat).answer 0

/-! What the trie descriptors write (R360): `w0`, `w1` are the descriptor's first words, `image` the node image. -/

def applyTrieNode (s : State) (w0 : Nat) (image : List Byte) : State :=
  let k := bits w0 50 48
  let n := bits w0 7 0
  if k = 0 ∨ k = 7 ∨ stageNodes k ≤ n then s
  else setTrieWords s (stageBase k + 256 * n) ((List.range 256).map fun i => field image (4 * i) 4)

def applyTrieEntry (s : State) (w0 w1 : Nat) : State :=
  let k := bits w0 50 48
  let n := bits w0 47 40
  if k = 0 then setTrie s (bits w0 15 0) (bits w1 31 0)
  else if k = 7 ∨ stageNodes k ≤ n then s
  else setTrie s (stageBase k + 256 * n + bits w0 7 0) (bits w1 31 0)

def applyTrieFill (s : State) (w0 w1 : Nat) : State :=
  let i := bits w0 15 0
  setTrieWords s i (List.replicate (min (bits w1 48 32) (65536 - i)) (bits w1 31 0))

def applyTrieResult (s : State) (w0 w1 : Nat) : State := setTrie s (resultBase + bits w0 15 0) (bits w1 31 0)

/-- Apply a completed trie descriptor, by its OP (R360, R489). -/
def applyTrie (s : State) (w0 w1 : Nat) (image : List Byte) : State :=
  let op := bits w0 63 56
  if op = 0x10 then applyTrieNode s w0 image
  else if op = 0x11 then applyTrieEntry s w0 w1
  else if op = 0x12 then applyTrieFill s w0 w1
  else if op = 0x13 then applyTrieResult s w0 w1
  else s

/-- The master sends a completed trie descriptor to every member (R489). -/
def replicate' (s : State) (w0 w1 : Nat) (image : List Byte) : State :=
  s.onlyIf (s.isMaster && decide (1 < s.members)) fun s =>
    herdFlood s { type := 3, dst := 0xF, src := s.herdId, hops := 0, flags := 0
                  payload := leBytes 8 w0 ++ leBytes 8 w1 ++ image }

end Sys2Proof.Machine
end

