-- ==== Sys2Proof/Machine/Forward.lean ====
section
/-!
DEFINITION. The merged decision and what follows it (R37, R41, R366 to R377): packets to the mesh, to a herd member, to
the backhaul and to a core; and steps 3 to 5 of the downlink path (R39).
-/

namespace Sys2Proof.Machine

/-! Addresses of an IPv6 datagram. -/

def srcHi (d : List Byte) : Nat := fieldBE d 8 8
def dstHi (d : List Byte) : Nat := fieldBE d 24 8
def dstLo (d : List Byte) : Nat := fieldBE d 32 8
def hopLimit (d : List Byte) : Nat := field d 7 1

/-- The datagram with its hop limit one lower. -/
def decHop (d : List Byte) : List Byte := d.take 7 ++ leBytes 1 (hopLimit d - 1) ++ d.drop 8

/-- The exact key of a downlink packet (R366): a short address, or an EUI-64. -/
def downKey (d : List Byte) : Addr :=
  let iid := dstLo d
  if bits iid 47 16 = 0x00FFFE00 then .short (bits iid 15 0) else .ext (iid ^^^ 2 ^ 57)

/-! Roles (R507, R510). -/

/-- Is a service class a twin class of this device (R510)? -/
def twinClass (s : State) (c : Nat) : Bool := paired s && bit (s.get Reg.ETH_PAIR_CFG.TWIN_CLASSES) c

/-- STANDBY_DROP (R507). -/
def standbyDrop (s : State) : State := s.bump Reg.ETH_PAIR_COUNT.STANDBY_DROP

/-! To a core (R377, R396). -/

/-- A packet goes to a core's mailbox (R377). For a packet that a core wrote, no rule states KIND and PORT. -/
def routedToCore (s : State) (core : Nat) (p : Routed) : State :=
  match p.record with
  | some r => toCore s core 1 p.port p.cls p.tenant r false 0 p.time p.datagram
  | none =>
    if p.core then toCore s.drawn core (s.free % 16) (s.free / 16 % 16) p.cls p.tenant 0 false 0 s.time.ns p.datagram
    else toCore s core 2 p.port p.cls 0 0 false 0 s.time.ns p.datagram

/-! The hop limit (R372). -/

/-- Forward a packet that leaves with its hop limit decremented, or is dropped; a core's packet keeps it. -/
def forwarding (s : State) (p : Routed) (k : State → Routed → State) : State :=
  if p.core then k s p
  else if hopLimit p.datagram ≤ 1 then s.count Ctr.HOP_LIMIT
  else k s { p with datagram := decHop p.datagram }

/-! The Herd link (R379, R484, R486, R493). -/

/-- The queue group that reaches a member: 5 HERD_E, 6 HERD_W (R486); with neither port up, the nearer one's. -/
def ringGroup (s : State) (d : Nat) : Nat :=
  5 + (ringPort s d).getD (if hopsEast s d ≤ s.members / 2 then 0 else 1)

/-- The octets of a herd frame without its CRC (R484). -/
def herdOctets (f : HerdFrame) : List Byte :=
  leBytes 1 f.type ++ leBytes 1 (f.dst * 16 + f.src % 16) ++ leBytes 1 f.hops ++ leBytes 1 f.flags ++ beBytes 2 f.aux ++
    beBytes 2 f.payload.length ++ beBytes 8 f.arg ++ f.payload

/-- A packet leaves as a DATA frame to a member; the master sends none to a member in MISMATCH (R487). No rule states
the sender record of a packet that has none. -/
def sendData (s : State) (m w : Nat) (p : Routed) : State :=
  if s.isMaster && bit (s.get Reg.HERD_STATUS.MISMATCH) m then s
  else
    let rec' := p.record.getD (s.free % 2 ^ 18)
    let s := s.onlyIf p.record.isNone State.drawn
    let f : HerdFrame := { type := 1, dst := m, src := s.herdId, hops := s.members - 1, flags := at' p.cls 3 1
                           aux := p.tenant * 256, arg := w * 2 ^ 32 + rec', payload := p.datagram ++ p.trailer }
    let data := herdOctets f
    let q := 2048 * ringGroup s m + 8 * p.tenant + p.cls
    (enqueue s q { cls := p.cls, tenant := p.tenant, record := rec', len := data.length, data := data
                   ingress := p.ingress }).1

/-- A packet to a herd member (R41, R493). -/
def toMember (s : State) (w : Nat) (p : Routed) : State :=
  let m := bits w 20 18
  if m = s.herdId then routedToCore (s.count Ctr.SELF_ROUTE) (defaultCore s) p
  else forwarding s p fun s p => sendData s m w { p with trailer := [] }

/-! The backhaul (R375, R376). -/

/-- The Ethernet frame of a backhaul packet, without its FCS. -/
def backhaulFrame (s : State) (port nh : Nat) (p : Routed) : List Byte :=
  let tag := if s.flag (Reg.FWD_NH.TAG nh) then
      beBytes 2 0x8100 ++ beBytes 2 (at' (7 - p.cls) 3 13 + s.get (Reg.FWD_NH.VID nh)) else []
  beBytes 6 (s.get (Reg.FWD_NH.DMAC nh)) ++ beBytes 6 (portMac s port) ++ tag ++ beBytes 2 0x86DD ++ p.datagram ++
    p.trailer

/-- A packet to the backhaul: through the master, or out of the port that its result names (R375, R488). -/
def toBackhaul (s : State) (w : Nat) (p : Routed) : State :=
  let nh := bits w 15 12
  let port := bits w 17 16
  if s.flag Reg.HERD_CTRL.BACKHAUL_AT_MASTER && !s.isMaster then forwarding s p fun s p => sendData s 0 w p
  else if !s.flag (Reg.FWD_NH.VALID nh) || decide (port = 3) then s.count Ctr.NO_ROUTE
  else forwarding s p fun s p =>
    let g := if port = 1 then 4 else 3
    let data := backhaulFrame s (g - 3) nh p
    (enqueue s (2048 * g + 8 * p.tenant + p.cls)
      { cls := p.cls, tenant := p.tenant, record := p.record.getD 0, len := data.length, data := data
        ingress := p.ingress }).1

/-! Seeks (R494). -/

/-- Is the ring broken, as the master sees it? -/
def ringBroken (s : State) : Bool := !(ringUp s 0 && ringUp s 1)

/-- SEEK_SEND (R494): the master sends a downlink miss round the ring. -/
def seek (s : State) (key : Addr) (p : Routed) : State :=
  let k := match key with
    | .ext k => k
    | .short a => a
    | .absent => 0
  let short := match key with
    | .short _ => true
    | _ => false
  let b := hash0 s k
  let n := (Cells.get s.wire.seek b s.wire.seekBase + 1) % 65536
  let s := { s with wire := { s.wire with seek := Cells.set s.wire.seek b n s.wire.seekBase } }
  let f : HerdFrame := { type := 2, dst := 0, src := 0, hops := s.members - 1
                         flags := at' p.cls 3 1 + at' (b2n short) 1 4, aux := n, arg := k, payload := p.datagram }
  if ringBroken s then
    (List.range 2).foldl (fun s i => s.onlyIf (ringUp s i) fun s => s.emit (.herd i f)) s
  else s.emit (.herd 0 f)

/-! The mesh: steps 2 and 3 of R39. -/

/-- A packet waits for its record. -/
def addDown (s : State) (d : DownPacket) : State :=
  { s with down := s.down ++ [{ d with id := s.nextFrame }], nextFrame := s.nextFrame + 1 }

/-- The record that an exact lookup of a downlink key returns (R320, R366). -/
def downRecord (s : State) : Addr → Option Nat
  | .absent => none
  | .ext k => lookupRecord s k
  | .short a => shortRecord s a

/-- The state after that lookup: it sets HIT (R317). -/
def downTouch (s : State) : Addr → State
  | .ext k => touch s k
  | _ => s

/-- Does that lookup park (R337)? A short-form one reads no bucket. -/
def downParks (s : State) : Addr → Bool
  | .ext k => lookupParks s k
  | _ => false

/-- Is this key short-form? -/
def addrShort : Addr → Bool
  | .short _ => true
  | _ => false

/-- The lookup of the newest packet parks (R337). -/
def parkLast (s : State) : State := park s (s.nextFrame - 1)

/-- A packet waits for its exact lookup. -/
def waitDown (s : State) (p : Routed) : State := addDown s { id := 0, pkt := p, record := none }

/-- A SEEK waits for its exact lookup. -/
def waitSeek (s : State) (port : Nat) (f : HerdFrame) : State :=
  addDown s { id := 0, pkt := { datagram := f.payload, cls := 0 }, record := none, seek := some (port, f) }

/-- A packet to the mesh of tenant `t` (R41), after its exact lookup. -/
def toMesh (s : State) (t : Nat) (p : Routed) : State :=
  let key := downKey p.datagram
  forwarding s p fun s p =>
    match downRecord s key with
    | none =>
      if s.isMaster && decide (1 < s.members) then seek s key p else s.count Ctr.NODE_MISS
    | some r =>
      if recTenant s r ≠ t then s.count Ctr.TENANT_MISMATCH
      else addDown s { id := 0, pkt := p, record := some r, shortForm := addrShort key }

/-- The exact lookup of a packet's destination, on which it may park (R39, R317, R337). -/
def exactly (s : State) (p : Routed) (k : State → State) : State :=
  let key := downKey p.datagram
  if parkingFull s then waitDown s p
  else if downParks s key then parkLast (waitDown s p)
  else k (downTouch s key)

/-- The decision by the prefix's result word (R37, R41, R374). A packet from the mesh meets the exact lookup only here. -/
def decideRoute (s : State) (p : Routed) : State :=
  let hi := dstHi p.datagram
  let w := prefixWord s hi
  let s := prefixTouch s hi
  match w with
  | none => s.count Ctr.NO_ROUTE
  | some w =>
    match bits w 31 29 with
    | 1 =>
      let t := bits w 28 21
      if p.record.isNone then toMesh s t p
      else if t ≠ p.tenant then s.count Ctr.TENANT_MISMATCH
      else exactly s p fun s => toMesh s t p
    | 2 => toMember s w p
    | 3 => toBackhaul s w p
    | _ => routedToCore s (bits w 11 10) p

/-- The merged decision: a downlink packet's exact lookup runs beside its prefix lookup, whatever class the prefix gives (R39). -/
def route (s : State) (p : Routed) : State :=
  if p.record.isNone then exactly s p fun s => decideRoute s p else decideRoute s p

/-! A SEEK that passes (R485, R494, R495). -/

/-- Forward a frame out of the other port (R485); a SEEK without an onward port ends here (R496). -/
def herdForward (s : State) (port : Nat) (f : HerdFrame) : State :=
  let out := 1 - port
  if f.hops = 0 then s.bump Reg.HERD_COUNT.HOP_DROP
  else if ringUp s out then s.emit (.herd out { f with hops := f.hops - 1 })
  else s.onlyIf (decide (f.type = 2) && !bit f.flags 0) fun s => s.bump Reg.HERD_COUNT.SEEK_END

/-- The key that a SEEK carries. -/
def seekKey (f : HerdFrame) : Addr := if bit f.flags 4 then .short (f.arg % 65536) else .ext f.arg

/-- A SEEK passes a member: a hit takes a copy and sets CONSUMED, and the frame travels on (R494, R495). Its
lookup may park (R337). -/
def seekPass (s : State) (port : Nat) (f : HerdFrame) : State :=
  let key := seekKey f
  if parkingFull s then waitSeek s port f
  else if downParks s key then parkLast (waitSeek s port f)
  else match downRecord s key with
  | none => herdForward s port f
  | some r =>
    let s := downTouch s key
    let flood : Flood := { seed := s.get Reg.HERD_CTRL.HERD_SEED, seq := f.aux, hops := 0 }
    let p : Routed := { datagram := f.payload, cls := bits f.flags 3 1, port := 5 + port, wired := true, flood := some flood }
    herdForward (addDown s { id := 0, pkt := p, record := some r, shortForm := addrShort key }) port
      { f with flags := f.flags ||| 1 }

/-! Steps 4 and 5 of R39. -/

/-- A downlink packet leaves the list of those on their way. -/
def dropDown (s : State) (id : Nat) : State := { s with down := s.down.filter fun d => decide (d.id ≠ id) }

/-- The octets of PSDU that a mode takes (R371). -/
def modeLimit (fe mode : Nat) : Nat := if fe = 2 ∨ mode = modeOQPSK then 127 else if mode = modeSUN then 2047 else 1023

/-- MAX_AIRTIME in µs. -/
def maxAirUs (s : State) : Nat := min 400 (max 10 (s.get Reg.CHAN_LANE_CTRL.MAX_AIRTIME)) * 1000

/-- The flood header that a downlink packet carries (R495, R511). -/
def downFlood (s : State) (p : Routed) : Option Flood :=
  match p.flood, p.prpSeq with
  | some f, _ => some f
  | none, some q => if twinClass s p.cls then some { seed := s.get Reg.MAC_FLOOD_CTRL.TWIN_SEED, seq := q, hops := 0 } else none
  | none, none => none

/-- The MAC payload that step 4 builds (R369, R370): the compressed datagram, or the Payload IE of a protective command (R650). -/
def downPayload (s : State) (p : Routed) (r : Nat) (mac : Addr) (hops : List Nat) : List Byte :=
  if p.safety.isSome then payloadIe 2 (prebry 0x30 ++ p.datagram) else compress s (recTenant s r) mac hops p.datagram

/-- Step 5 (R39, R371, R379, R507, R511): a packet with its link record's key enters that record's queue, under the MAC header that
leads to `mac`. -/
def finishDown (s : State) (p : Routed) (l : Nat) (mac : Addr) (payload wrapped : List Byte) : State :=
  let fe := recHomeFe s l
  let q := drawSeqNo s
  let s := q.1
  let flood := downFlood s p
  let pkt := sized s { cls := p.cls, tenant := recTenant s l, record := l, data := payload, flood := flood, safety := p.safety
                       dst := mac, seqNo := q.2, ies := p.safety.isSome, wrapped := wrapped }
  let psdu := pktPsdu s fe pkt
  if decide (modeLimit fe (recMode s l) < psdu) || decide (maxAirUs s < ownAirtimeUs (recMode s l) psdu (recCR s l)) then
    toCore (s.count Ctr.FRAG_TO_CORE) (defaultCore s) 3 p.port p.cls (recTenant s l) l false 0 s.time.ns p.datagram
  else if p.wired && !holder s && !twinClass s p.cls then standbyDrop s
  else if 2 < fe then queueDrop s 0 1
  else
    let s := s.onlyIf (twinClass s p.cls && flood.isNone) fun s => s.bump Reg.ETH_PAIR_COUNT.TWIN_NO_SEQ
    (enqueue s (2048 * fe + 8 * recTenant s l + p.cls) pkt).1

/-- Steps 3 and 4 (R303, R337, R366, R368): the record has arrived; its lookups may park; its link record's key is cached, or
unwrapped. -/
def fetchDown (s : State) (d : DownPacket) (r : Nat) : State :=
  let hops := recRouteLen s r
  let routed := decide (1 ≤ hops ∧ hops ≤ 8)
  if (d.shortForm && lookupParks s (recEui s r)) || (routed && lookupParks s (recRoute s r 0)) then
    park s d.id
  else
  let s := dropDown s d.id
  let confirmed := !d.shortForm || decide (lookupRecord s (recEui s r) = some r)
  let s := s.onlyIf d.shortForm fun s => touch s (recEui s r)
  if !confirmed then s.count Ctr.NODE_MISS
  else
    match (if routed then lookupRecord s (recRoute s r 0) else some r) with
    | none => s.count Ctr.ROUTE_MISS
    | some l =>
      let s := s.onlyIf routed fun s => touch s (recRoute s r 0)
      if recTenant s l ≠ recTenant s r then s.count Ctr.TENANT_MISMATCH
      else
        let mac := if routed then .ext (recRoute s r 0) else nodeAddr s r false
        let payload := downPayload s d.pkt r mac (if routed then (List.range hops).map (recRoute s r) else [])
        match cachedKey s l with
        | some k => finishDown (useKey s l k) d.pkt l mac payload (recWrapped s l)
        | none =>
          if 512 ≤ keyMissLevel s then queueDrop s 0 7
          else startUnwraps { s with down := s.down ++ [{ d with keyMiss := true, link := l, mac := mac, payload := payload
                                                                 wrapped := recWrapped s l }] }

end Sys2Proof.Machine
end

