-- ==== Sys2Proof/Machine/Uplink.lean ====
section
/-!
DEFINITION. Steps 6 to 12 of the uplink path (R33): the node record, the key, the verdict, the acknowledgement and the
delivery; and what firmware and the scheduler send on (R399, R404).
-/

namespace Sys2Proof.Machine

/-! Frames on the path. -/

/-- A frame leaves the path. -/
def dropUp (s : State) (id : Nat) : State := { s with up := s.up.filter fun u => decide (u.id ≠ id) }

/-- Is a frame addressed to the device itself (R258, R264)? -/
def forDevice (s : State) (f : MacFrame) : Bool :=
  match f.dst with
  | .absent => false
  | .short a => decide (a = s.get Reg.MAC_ADDR.SHORT ∧ a ≠ 0xFFFF)
  | .ext k => decide (k = deviceId s)

/-- Is a frame addressed to broadcast? -/
def forAll (f : MacFrame) : Bool := decide (f.dst = .short 0xFFFF)

/-- Is a frame addressed to another node (R257)? -/
def forOther (s : State) (f : MacFrame) : Bool := decide (f.dst ≠ .absent) && !forDevice s f && !forAll f

/-- The security of a frame: none at level 0 (R287). -/
def secOf (f : MacFrame) : Option AuxSec :=
  match f.sec with
  | some a => if a.level = 0 then none else some a
  | none => none

/-- Does a frame lie outside the limits of R257, R259 and R287? -/
def unsupported (s : State) (f : MacFrame) : Bool :=
  f.bad || decide (f.version ≠ 2 ∨ 2 < f.ftype ∨ f.dst = .absent) ||
    (match secOf f with
     | none => false
     | some a => decide (a.level = 4 ∨ 2 ≤ a.keyMode) || (a.counter.isNone && !tschOn s))

/-- The counter of R259 and whether it is the ASN. -/
def frameCounter (s : State) (u : UpFrame) (a : AuxSec) : Nat × Bool :=
  match a.counter with
  | some c => (c % 2 ^ 32, false)
  | none => (asnAt s u.firstNs % 2 ^ 32, true)

/-- What a learn event shows of the counter (R330). -/
def learnFc (s : State) (u : UpFrame) : LearnFc :=
  match secOf u.frame with
  | none => { fc := 0, isAsn := false, isNone := true }
  | some a =>
    if a.counter.isNone && !tschOn s then { fc := 0, isAsn := false, isNone := true }
    else
      let c := frameCounter s u a
      { fc := c.1, isAsn := c.2, isNone := false }

/-- Does a frame come from the time source named by SRC (R272, R449)? -/
def fromSource (s : State) (f : MacFrame) : Bool :=
  tsrcOn s && decide (f.src = .ext (s.get (Reg.MAC_TSRC_ADDR.TSRC_ADDR (s.get Reg.MAC_STATUS.SRC))))

/-- The acknowledgement window in which a frame began (R267). -/
def ackWindow (s : State) (u : UpFrame) : Option AckWait :=
  s.mac.ackWaits.find? fun w => decide (w.fe = u.fe ∧ w.bin = u.bin ∧ w.fromNs ≤ u.firstNs ∧ u.firstNs ≤ w.toNs)

/-- A frame waits for an engine; `key` is the key that its own unwrap has yielded (R293, R299). -/
def startVerify (s : State) (u : UpFrame) (record : Nat) (key : Option (List Byte)) (counter : Nat × Bool) : State :=
  let u' := { u with record := record, key := key, counter := counter.1, asnCounter := counter.2, stage := .waiting }
  addJob { s with up := s.up.map fun x => if x.id = u.id then u' else x } (.verify u.id)

/-- The group key index of a frame under key identifier mode 1. -/
def groupIndex (a : AuxSec) : Option Nat := if a.keyMode = 1 then some a.keyIndex else none

/-- A frame under a group key (R304, R305): only a flood. -/
def fetchGroup (s : State) (u : UpFrame) (a : AuxSec) (record : Option Nat) : State :=
  if u.frame.flood.isNone || !forAll u.frame || decide (u.frame.ftype ≠ 1) then (dropUp s u.id).count Ctr.GROUP_MISUSE
  else match record with
    | none => (dropUp s u.id).count Ctr.SRC_MISS
    | some r =>
      match gkFor s (recTenant s r) a.keyIndex with
      | some _ => startVerify s u r none (frameCounter s u a)
      | none =>
        let cause := if gkOther s a.keyIndex then 3 else 2
        micFail (dropUp s u.id) (some r) u.fe cause a.level (some a.keyIndex)

/-- A frame under its node's key: the key cache, or the key-miss queue (R298 to R301). -/
def fetchOwn (s : State) (u : UpFrame) (a : AuxSec) (r : Nat) : State :=
  let c := frameCounter s u a
  match cachedKey s r with
  | some k => startVerify (useKey s r k) u r none c
  | none =>
    if 512 ≤ keyMissLevel s then keyMissFull (dropUp s u.id) u.fe
    else
      let u' := { u with record := r, counter := c.1, asnCounter := c.2, stage := .keyMiss, wrapped := recWrapped s r }
      startUnwraps { s with up := s.up.map fun x => if x.id = u.id then u' else x }

/-- A beacon (R272, R305): only the selected source's is verified, under KEY_SLOT. -/
def fetchBeacon (s : State) (u : UpFrame) (a : AuxSec) : State :=
  if !fromSource s u.frame then dropUp s u.id
  else
    let slot := s.get Reg.MAC_EB_CTRL.KEY_SLOT
    if s.flag (Reg.CRYPTO_GK_CFG.VALID slot) then
      startVerify s u broadcast none (frameCounter s u a)
    else micFail (dropUp s u.id) none u.fe 2 a.level (groupIndex a)

/-- An unsecured frame (R258): a data frame to the device goes to a core. No rule states TENANT and RECORD of a sender
that has no record. -/
def fetchUnsecured (s : State) (u : UpFrame) (record : Option Nat) (cls : Nat) : State :=
  let s := dropUp s u.id
  if u.frame.ftype = 1 ∧ forDevice s u.frame then
    match record with
    | some r => toCore s (defaultCore s) 1 u.fe cls (recTenant s r) r true 2 u.syncNs u.frame.raw
    | none => toCore s.drawn (defaultCore s) 1 u.fe cls (s.free % 256) (s.free / 256 % 2 ^ 18) true 2 u.syncNs u.frame.raw
  else s.count Ctr.UNSECURED_DROP

/-- Step 6 for a received frame (R33, R257 to R259, R287 to R290, R305, R327): the learn event, then the frame's fate. -/
def fetchUp (s : State) (u : UpFrame) (cls : Nat) : State :=
  let r := resolve s u.frame.src
  let s := learn r.2 u r.1 (learnFc s u)
  if forOther s u.frame then dropUp s u.id
  else if unsupported s u.frame then (dropUp s u.id).count Ctr.FRAME_UNSUPPORTED
  else match secOf u.frame with
    | none => fetchUnsecured s u r.1 cls
    | some a =>
      if u.frame.ftype = 0 then fetchBeacon s u a
      else if a.keyMode = 1 then fetchGroup s u a r.1
      else
        -- a node acknowledgement without a source belongs to the node that its window names
        let record := if u.frame.ftype = 2 ∧ u.frame.src = .absent then (ackWindow s u).map (·.record) else r.1
        match record with
        | none => (dropUp s u.id).count Ctr.SRC_MISS
        | some n => fetchOwn s u a n

/-- The lookup of a frame at step 6, which may park (R337). -/
def lookUp (s : State) (u : UpFrame) (cls : Nat) : State := if addrParks s u.frame.src then park s u.id else fetchUp s u cls

/-- RECORD_FETCH_DONE (R33, R39): the record of a frame or packet has arrived. `cls` is the service class of an unsecured frame,
`crossing` what the check bits say of the queue that brought a frame from the radio's clock domain. A parked lookup does nothing; one
that resumed runs now (R337). -/
def execRecordFetchDone (dt : Nat) (id : Nat) (cls : Fin 8) (crossing : Ecc) (s : State) : Result :=
  step' dt s fun s =>
    match s.up.find? fun u => decide (u.id = id) with
    | some u =>
      if u.stage ≠ .fetch ∨ !onTurn s id then s
      else if s.tables.resumed.contains id then lookUp (goesOn s id) u cls
      else if crossing = .uncorrectable then crossed (dropUp s id) Block.FWD crossing fun s => s
      else crossed s Block.FWD crossing fun s => lookUp s u cls
    | none => match s.down.find? fun d => decide (d.id = id) with
      | none => s
      | some d =>
        if d.keyMiss || !onTurn s id then s
        else
          let s := goesOn s id
          match d.record, d.seek with
          | none, none => route (dropDown s id) d.pkt
          | none, some (port, f) => seekPass (dropDown s id) port f
          | some r, _ => fetchDown s d r

/-! The unwrap units (R299 to R303). -/

/-- A frame whose counter is earlier than LAST_FC is a REPLAY whatever else fails (R311). -/
def behind (s : State) (u : UpFrame) : Bool := decide (diffN 32 u.counter (recLastFc s u.record) < 0)

/-- REPLAY (R260, R285, R325). -/
def replay (s : State) (u : UpFrame) : State :=
  let by' := (-(diffN 32 u.counter (recLastFc s u.record))).toNat
  let s := bumpRec s u.record 0x8E 2
  s.event Ev.REPLAY Block.FWD (at' u.record 18 30 + at' u.fe 2 28 + at' (min by' 0xFFFFFFF) 28 0)

/-- KEY_UNWRAP_DONE (R299, R300, R303): an unwrap ends; the frames and packets that wait for it go on. -/
def execKeyUnwrapDone (dt : Nat) (record : Nat) (s : State) : Result :=
  step' dt s fun s =>
    match s.crypto.unwraps.find? fun w => decide (w.record = record) with
    | none => s
    | some w =>
      let ups := s.up.filter fun u => decide (u.stage = .keyMiss ∧ u.record = record)
      let downs := s.down.filter fun d => d.keyMiss && decide (d.link = record)
      let wrapped := match ups, downs with
        | u :: _, _ => u.wrapped
        | [], d :: _ => d.wrapped
        | [], [] => []
      let key := kekUnwrap s wrapped
      let s := s.setCrypto { s.crypto with unwraps := s.crypto.unwraps.filter fun x => decide (x ≠ w) }
      let s := match key with
        | some k => s.onlyIf w.keep fun s => cacheKey s record k
        | none => s
      let s := ups.foldl (fun s u =>
        if key.isSome then startVerify s u record key (u.counter, u.asnCounter)
        else
          let s := dropUp s u.id
          if behind s u then replay s u
          else micFail s (some record) u.fe 1 (((secOf u.frame).map (·.level)).getD 0) none) s
      let s := downs.foldl (fun s d =>
        let s := dropDown s d.id
        if key.isSome then finishDown s d.pkt record d.mac d.payload d.wrapped else queueDrop s 0 7) s
      startUnwraps s

/-! Acknowledgements (R264 to R266, R38). -/

/-- The frame's channel is a free-run channel. -/
def onFreeRun (s : State) (u : UpFrame) : Option Nat := frOf s u.fe u.bin

/-- TC of R266 in µs, from the timeslot of the frame's first chip. -/
def timeCorrection (s : State) (u : UpFrame) : Int :=
  let t : Int := ((slotStart s (asnAt s u.firstNs) + s.get Reg.MAC_SLOT_0.TX_OFFSET * 1000 + preambleNs u.mode : Nat) : Int)
    - (u.syncNs : Int)
  let n : Int := ((2 * t.natAbs + 1000) / 2000 : Nat)
  clampInt 2047 (if t < 0 then -n else n)

/-- The enhanced acknowledgement of a frame (R265, R266). -/
def ackFrame (s : State) (u : UpFrame) (a : AuxSec) : TxFrame :=
  { ftype := 2, seqNo := u.frame.seqNo, dst := u.frame.src, level := a.level
    ies := if (onFreeRun s u).isSome then [] else headerIe 0x1E (leBytes 2 (ofSigned 12 (timeCorrection s u))) }

/-- Plan the acknowledgement of a frame (R264). On a free-run channel its counter, and with it its CCM* job, waits for the commit. -/
def planAck (s : State) (u : UpFrame) (a : AuxSec) : State :=
  let f := ackFrame s u a
  let free := (onFreeRun s u).isSome
  let len := f.psduLen free (fcsLen u.fe)
  let c : Carrier := { bin := u.bin, freqKhz := modeKhz s u.fe u.bin u.mode, mode := u.mode, cr := u.cr, len := len
                       airtimeUs := ownAirtimeUs u.mode len u.cr, seq := Cells.get s.sched.tenantSeq (recTenant s u.record) 0 % 64
                       load := .ack u.record (asnAt s u.firstNs), frame := some f }
  let e : Emission := { kind := 1, commitNs := 0, nominalNs := u.endNs + s.get Reg.MAC_SLOT_1.TX_ACK_DELAY * 1000
                        deferUs := txdAck s u.fe, loKhz := 0, asn := asnNow s, freeRun := onFreeRun s u, carriers := [c] }
  let job := JobKind.ack u.fe s.nextFrame u.bin
  (addEmission s u.fe (withLo s u.fe e)).onlyIf (!free) fun s => addJob s job

/-- Does R264 ask for an acknowledgement of a frame that R260 acknowledges? Without a SCHEDULE section there is none (R240), and
while TSCH is off only on a free-run channel (R239). -/
def ackWanted (s : State) (u : UpFrame) : Bool :=
  decide (u.frame.ftype = 1) && forDevice s u.frame && u.frame.ackReq && !u.recovered && s.loaded.contains 3 &&
    (tschOn s || (onFreeRun s u).isSome)

/-- The commit point of the acknowledgement (R38). -/
def ackCommitNs (s : State) (u : UpFrame) : Nat := u.endNs + s.get Reg.MAC_SLOT_1.TX_ACK_DELAY * 1000 - 300000

/-- The device is in STORM. -/
def inStorm (s : State) : Bool := decide (s.get Reg.CHAN_STATUS.MODE = modeSTORM)

/-- Announce a frame (R232): one whose record holds no short address is not. -/
def announce (s : State) (u : UpFrame) : State :=
  if recShort s u.record = 0xFFFE then s else raAdd s u.fe (recShort s u.record) u.counter

/-- Acknowledge a frame, or withhold its acknowledgement (R38, R175, R285, R507); also whether it is called for. -/
def acknowledge (s : State) (u : UpFrame) (a : AuxSec) : State × Bool :=
  if !ackWanted s u then (s, false)
  else if !holderOf s (asnAt s u.firstNs) then (s.count Ctr.ACK_STANDBY, false)
  else if ackCommitNs s u < s.time.ns then
    let late := min ((s.time.ns - ackCommitNs s u) / 1000) 0xFFFFFF
    let s := s.event Ev.ACK_LATE Block.MAC (at' u.record 18 30 + at' u.fe 2 28 + at' u.mode 4 24 + at' late 24 0)
    (s.onlyIf (inStorm s) fun s => announce s u, false)
  else (planAck s u a, true)

/-! Delivery: steps 10 to 12 (R33, R37, R370, R373, R376, R422, R507). -/

/-- The twin trailer of a frame (R376). -/
def twinTrailer (s : State) (u : UpFrame) : List Byte :=
  beBytes 8 (recEui s u.record) ++ beBytes 4 u.counter ++ leBytes 1 (b2n u.asnCounter) ++ [0, 0xB7, 0x1E]

/-- A decompressed datagram goes on to the source check, the policer and the merged decision. -/
def deliverIp (s : State) (u : UpFrame) (cls : Nat) (d : List Byte) : State :=
  let t := recTenant s u.record
  let spoofed := s.flag Reg.FWD_PIPE_CTRL.SRC_CHECK &&
    decide ((s.tables.tenantPrefix.find? fun e => decide (e.1 = t)).map (·.2) ≠ some (srcHi d))
  if spoofed then s.count Ctr.SPOOF
  else
    let r := police s (2048 * u.fe + 8 * t + cls) d
    match r.2 with
    | none => r.1
    | some d => route r.1
      { datagram := d, cls := cls, tenant := t, record := some u.record, port := u.fe, time := u.syncNs
        trailer := if twinClass s cls then twinTrailer s u else [] }

/-- An accepted frame with this plaintext payload is delivered: behind its payload IEs stands a 6LoWPAN frame (R33, R370). -/
def deliver (s : State) (u : UpFrame) (v : Verdict) (payload : List Byte) : State :=
  let cls := v.cls.val
  let core := fun (s : State) (data : List Byte) =>
    toCore s (defaultCore s) 1 u.fe cls (recTenant s u.record) u.record false 1 u.syncNs data
  if !holder s && !twinClass s cls then standbyDrop s
  else
    let s := fifoRead s Fifo.RX_DELIVER Block.FWD true false v.ecc
    if v.ecc = .uncorrectable then s
    else match decompress s (recTenant s u.record) u.frame.src u.frame.dst (splitPayload u.frame payload).2 with
      | .ip d => deliverIp s u cls d
      | .frag data => core (s.count Ctr.FRAG_TO_CORE) data
      | .other data => core (s.count Ctr.DECOMP_TO_CORE) data
      | .fail => s.count Ctr.DECOMP_FAIL

/-! The verdict: step 9 (R260, R261, R277, R279, R325). -/

/-- The fields that an accepted frame writes into its record (R325). -/
def acceptRecord (s : State) (u : UpFrame) : State :=
  let r := u.record
  let s := setRec (setRec s r 0x10 4 u.counter) r 0x30 8 u.syncNs
  let s := setRec (setRec s r 0x38 2 (ofSigned 16 u.rssi)) r 0x3A 1 u.lq
  bumpRec (setRec s r 0x3B 1 u.bin) r 0x88 4

/-- A flood passes the seen cache (R277, R279); whether it is delivered. -/
def floodPasses (s : State) (f : Flood) : State × Bool :=
  let r := seenCheck s f.seed f.seq
  let echo := decide (f.seed = s.get Reg.MAC_FLOOD_CTRL.SEED_ID) ||
    (s.flag Reg.MAC_FLOOD_CTRL.TWIN_EN && decide (f.seed = s.get Reg.MAC_FLOOD_CTRL.TWIN_SEED))
  if echo then (r.2.count Ctr.FLOOD_ECHO, false)
  else match r.1 with
    | .accept => (r.2, true)
    | .duplicate => (r.2.count Ctr.FLOOD_DUP, false)
    | .old => (r.2.count Ctr.FLOOD_OLD, false)

/-- A node acknowledgement ends the attempt whose window it began in (R267). -/
def nodeAck (s : State) (u : UpFrame) : State :=
  match ackWindow s u with
  | none => s
  | some w =>
    if w.record = u.record ∧ forDevice s u.frame ∧ (u.frame.seqNo.isNone ∨ u.frame.seqNo = w.seqNo) then
      let s := s.setMac { s.mac with ackWaits := s.mac.ackWaits.filter fun x => decide (x ≠ w) }
      startFreeRuns (retryDrop s u.record)
    else s

/-- What a verified data frame or acknowledgement leads to (R34, R175, R232, R267, R277). -/
def passUp (s : State) (u : UpFrame) (v : Verdict) (payload : List Byte) : State :=
  let s := s.onlyIf (u.recovered || (inStorm s && (onFreeRun s u).isSome)) fun s => announce s u
  if u.frame.ftype = 2 then nodeAck s u
  else match u.frame.flood with
    | none => deliver s u v payload
    | some f =>
      let r := floodPasses s f
      r.1.onlyIf r.2 fun s => deliver s u v payload

/-- DUP_REACK (R260, R285, R325). -/
def duplicate (s : State) (u : UpFrame) (a : AuxSec) : State :=
  let r := acknowledge (bumpRec s u.record 0x8C 2) u a
  let s := r.1.event Ev.DUP_REACK Block.FWD (at' u.record 18 30 + at' u.fe 2 28 + at' (b2n r.2) 1 27
    + at' (b2n u.asnCounter) 1 26 + at' u.counter 16 0)
  s.onlyIf u.recovered fun s => announce s u

/-- A frame under its node's key reaches step 9. -/
def judgeOwn (s : State) (u : UpFrame) (a : AuxSec) (v : Verdict) (micOk : Bool) (payload : List Byte) : State :=
  if behind s u then replay s u
  else if !micOk then micFail s (some u.record) u.fe 0 a.level none
  else if u.counter = recLastFc s u.record then
    (duplicate s u a).onlyIf (decide (u.frame.ftype = 2)) fun s => nodeAck s u
  else passUp (acknowledge (acceptRecord s u) u a).1 u v payload

/-- An accepted beacon with a Prebry time IE is a time input (R272, R274); one that fails the ASN test is counted. One without a TSCH
Synchronization IE fails it. -/
def timeInput (s : State) (u : UpFrame) (ies : List PayloadIe) : State :=
  match beaconTai ies with
  | none => s
  | some tai =>
    let near := match beaconAsn ies with
      | some asn => decide (-1 ≤ diffN 40 asn (asnAt s u.firstNs) ∧ diffN 40 asn (asnAt s u.firstNs) ≤ 1)
      | none => false
    if tschOn s && near then
      let s := s.setMac { s.mac with tsrcNs := s.time.ns, tsrcBad := false, tsrcLost := none }
      let s := (s.set Reg.MAC_STATUS.MISSES 0).setFlag Reg.MAC_STATUS.HOLDOVER false
      servoSample (qualify s clsEB) clsEB ((u.syncNs : Int) - (tai : Int))
    else (s.setMac { s.mac with tsrcBad := true }).count Ctr.ASN_MISMATCH

/-- The verdict on a frame: whether its MIC is valid, and its plaintext payload. -/
def judge (s : State) (u : UpFrame) (v : Verdict) (micOk : Bool) (payload : List Byte) : State :=
  let s := dropUp s u.id
  match secOf u.frame with
  | none => s
  | some a =>
    if u.frame.ftype = 0 then
      if micOk then timeInput s u (splitPayload u.frame payload).1 else micFail s none u.fe 0 a.level (groupIndex a)
    else if a.keyMode = 1 then
      if micOk then passUp s u v payload else micFail s (some u.record) u.fe 0 a.level (groupIndex a)
    else judgeOwn s u a v micOk payload

/-! CCM* jobs (R291 to R295). -/

/-- The key that verifies a frame as it stands: the key of its unwrap, KEY_SLOT for a beacon, the group-key slot that its Key Index
names, or the key cache (R272, R288, R298, R304). -/
def verifyKey (s : State) (u : UpFrame) (a : AuxSec) : Option (List Byte) :=
  if u.key.isSome then u.key
  else if u.frame.ftype = 0 then
    let slot := s.get Reg.MAC_EB_CTRL.KEY_SLOT
    if s.flag (Reg.CRYPTO_GK_CFG.VALID slot) then some (Cells.get s.crypto.groupKeys slot []) else none
  else if a.keyMode = 1 then (gkFor s (recTenant s u.record) a.keyIndex).map fun i => Cells.get s.crypto.groupKeys i []
  else cachedKey s u.record

/-- Step 7 again, for a frame whose key is gone when its job would start. -/
def refetch (s : State) (u : UpFrame) (a : AuxSec) : State :=
  if u.frame.ftype = 0 then fetchBeacon s u a
  else if a.keyMode = 1 then fetchGroup s u a (some u.record)
  else fetchOwn s u a u.record

/-- What the job of a received frame works on (R291, R292, R294). The sender of a node's frame is the node of its record; a beacon's
is its source address. -/
def verifyParts (s : State) (u : UpFrame) (a : AuxSec) (key : List Byte) (j : CcmJob) : CcmJob :=
  let sender := match u.frame.ftype, u.frame.src with
    | 0, .ext k => k
    | _, _ => recEui s u.record
  let p := ccmParts a.level (u.frame.raw.take u.frame.hdrLen) (framePayload u.frame)
  { j with key := key, nonce := nonceOf sender a.counter a.level (asnAt s u.firstNs), aad := p.1, body := p.2, level := a.level }

/-- The carrier that a job encrypts, and its emission. -/
def jobCarrier (s : State) (fe id bin : Nat) : Option (Emission × Carrier) :=
  ((s.fe fe).emissions.find? fun e => decide (e.id = id)).bind fun e =>
    (e.carriers.find? fun c => decide (c.bin = bin)).map fun c => (e, c)

/-- A node's key for a frame to it (R288, R303): cached, or unwrapped again from the record as step 3 fetched it. -/
def linkKey (s : State) (r : Nat) (wrapped : List Byte) : Option (List Byte) :=
  match cachedKey s r with
  | some k => some k
  | none => kekUnwrap s (if wrapped.isEmpty then recWrapped s r else wrapped)

/-- The key of a carrier's frame, and its Key Index (R268, R288, R306). -/
def carrierKey (s : State) (c : Carrier) : Option (List Byte × Nat) :=
  let slot := fun (i : Nat) => (Cells.get s.crypto.groupKeys i [], s.get (Reg.CRYPTO_GK_CFG.KEY_INDEX i))
  match c.load with
  | .beacon _ =>
    let i := s.get Reg.MAC_EB_CTRL.KEY_SLOT
    if s.flag (Reg.CRYPTO_GK_CFG.VALID i) then some (slot i) else none
  | .data p _ _ =>
    if p.record = broadcast then (gkTx s (if p.service then none else some p.tenant)).map slot
    else (linkKey s p.record p.wrapped).map fun k => (k, 0)
  | .ack r _ => (linkKey s r []).map fun k => (k, 0)
  | .wake _ _ => none

/-- What the job of a carrier works on (R291, R292, R294): the device's own frames carry its device ID. -/
def sealParts (s : State) (e : Emission) (c : Carrier) (f : TxFrame) (k : List Byte × Nat) (j : CcmJob) : CcmJob :=
  let counter := if e.freeRun.isSome then some e.counter else none
  let asn := match c.load with
    | .ack _ asn => asn
    | _ => e.asn
  let p := ccmParts f.level (f.header (s.get Reg.MAC_ADDR.PAN_ID) k.2 counter) f.payload
  { j with key := k.1, nonce := nonceOf (deviceId s) counter f.level asn, aad := p.1, body := p.2, level := f.level }

/-- The frame of a carrier is dropped before it is encrypted: the carrier leaves its emission, and its debits return. -/
def loseFrame (s : State) (fe : Nat) (e : Emission) (c : Carrier) : State :=
  let s := removeCarrier s fe e c
  match c.load with
  | .data p d _ => unqueue (retryDrop (refund s d) p.record) p
  | _ => dutyBack s c

/-- A carrier whose key is gone is not emitted: a packet is dropped as QUEUE_DROP (R303, R306), a beacon or an acknowledgement left
out, the model's choice. -/
def unkeyed (s : State) (fe : Nat) (e : Emission) (c : Carrier) : State :=
  let s := loseFrame s fe e c
  match c.load with
  | .data p _ _ => queueDrop s p.queue (if p.record = broadcast then 8 else 7)
  | _ => s

/-- Put a job in place of itself. -/
def putJob (s : State) (old new : CcmJob) : State :=
  s.setCrypto { s.crypto with jobs := s.crypto.jobs.takeWhile (· ≠ old) ++ [new] ++ (s.crypto.jobs.dropWhile (· ≠ old)).drop 1 }

/-- A job that has nothing to work on leaves. -/
def endCcm (s : State) (j : CcmJob) : State :=
  s.setCrypto { s.crypto with jobs := s.crypto.jobs.takeWhile (· ≠ j) ++ (s.crypto.jobs.dropWhile (· ≠ j)).drop 1 }

/-- An engine starts a job and copies its key (R293). -/
def startJob (s : State) (engine : Nat) (j : CcmJob) : State :=
  let sealIt := fun (fe id bin : Nat) => match jobCarrier s fe id bin with
    | none => endCcm s j
    | some (e, c) => match c.frame with
      | none => endCcm s j
      | some f => match carrierKey s c with
        | none => unkeyed (endCcm s j) fe e c
        | some k => putJob s j { sealParts s e c f k j with engine := some engine }
  match j.kind with
  | .verify id => match s.up.find? fun u => decide (u.id = id) with
    | none => endCcm s j
    | some u => match secOf u.frame with
      | none => endCcm s j
      | some a => match verifyKey s u a with
        | none => refetch (endCcm s j) u a
        | some k =>
          let s := putJob s j { verifyParts s u a k j with engine := some engine }
          { s with up := s.up.map fun x => if x.id = id then { x with stage := .verifying } else x }
  | .ack fe id bin => sealIt fe id bin
  | .encrypt fe id bin _ => sealIt fe id bin

/-- CCM_JOB_START (R293, R295): a free engine starts the highest-priority waiting job. -/
def execCcmJobStart (dt : Nat) (engine : Fin 8) (s : State) : Result :=
  whenever dt s (fun s => decide (engine.val < engines s) && !engineBusy s engine) fun s =>
    match nextJob s engine with
    | none => s
    | some j => startJob s engine j

/-- The octets that an encryption yields: header, payload and MIC (R291). -/
def CcmJob.sealed (j : CcmJob) : List Byte :=
  j.aad ++ ccmCrypt j.key j.nonce j.body ++ ccmTag j.key j.nonce j.aad j.body (micLen j.level)

/-- What a verification yields: the plaintext payload, and whether the MIC is valid. -/
def CcmJob.opened (j : CcmJob) (f : MacFrame) : List Byte × Bool :=
  let plain := ccmCrypt j.key j.nonce j.body
  (if encrypts j.level then plain else framePayload f, decide (ccmTag j.key j.nonce j.aad plain (micLen j.level) = frameMic f))

/-- An encryption ends: its carrier has its PSDU (R193, R208, R209). -/
def sealDone (s : State) (j : CcmJob) (fe id bin : Nat) : State :=
  match jobCarrier s fe id bin with
  | none => s
  | some (e, c) =>
    let psdu := j.sealed ++ fcsOctets (decide (fe = 2)) j.sealed
    putEmission s fe e { e with carriers := e.carriers.map fun x => if x = c then { c with psdu := psdu } else x }

/-- CCM_JOB_DONE (R294): an engine's job ends: a received frame gets its verdict at step 9, or a frame is encrypted. -/
def execCcmJobDone (dt : Nat) (engine : Fin 8) (v : Verdict) (s : State) : Result :=
  step' dt s fun s =>
    match engineJob s engine with
    | none => s
    | some j =>
      let s := endJob s engine
      match j.kind with
      | .verify id => match s.up.find? fun u => decide (u.id = id) with
        | none => s
        | some u =>
          let r := j.opened u.frame
          judge s u v r.2 r.1
      | .ack fe id bin => sealDone s j fe id bin
      | .encrypt fe id bin _ => sealDone s j fe id bin

/-! Mailbox packets (R398 to R400, R422). -/

/-- An accepted mailbox packet enters the path that its KIND names. A MAC payload gets the MAC header in front (R398); it stands
there as it came, so the header announces no payload IEs. -/
def mboxAccept (s : State) (head : Nat) (data : List Byte) : State :=
  let s := s.portRx 7 data.length 0
  let queue := bits head 59 46
  let record := bits head 45 28
  let q := drawSeqNo s
  let pkt := sized q.1 { cls := queue % 8, tenant := queue % 2048 / 8, record := record, data := data, seqNo := q.2
                         dst := if record = broadcast then .short 0xFFFF else nodeAddr s record false
                         freeRun := if bits head 63 60 = 4 then some (bits head 27 26) else none }
  match bits head 63 60 with
  | 1 =>
    let key := bits head 56 46
    let r := police s (2048 * 3 + key) data
    match r.2 with
    | none => r.1
    | some d => route r.1 { datagram := d, cls := key % 8, tenant := key / 8, core := true }
  | 3 => (enqueue s queue { cls := queue % 8, tenant := queue % 2048 / 8, record := record, len := data.length, data := data }).1
  | _ =>
    let s := q.1
    if record = broadcast then s.setMac { s.mac with floods := s.mac.floods ++ [{ queues := [queue], pkt := pkt }] }
    else startFreeRuns (enqueue s queue pkt).1

/-- A write of QMGR_MBOX_TX_LAST_n (R399): the packet in MBOX_TX_n ends. A POISON word is one of the packet on its way
through the FIFO. -/
def mboxLast (s : State) (n v : Nat) (poison : Bool) : State :=
  let t := takeMbox (mboxPush s n v true) n
  let s := t.1.answer 0
  let words := t.2.1
  if t.2.2 then s
  else
    let s := s.onlyIf poison fun s => fifoRead s (Fifo.MBOX_TX n) Block.QMGR true false .uncorrectable
    match mboxCause s words poison with
    | some c => mboxReject s n c
    | none =>
      let head := (words.head?.map (·.data)).getD 0
      mboxAccept s head (mboxData words (bits head 12 0))

/-- MBOX_TX_LAST (R399): the packet in a transmit mailbox ends. -/
def execMboxTxLast (dt : Nat) (n : Fin 4) (value : Word) (poison : Bool) (s : State) : Result :=
  step' dt s fun s => mboxLast s n value.toNat poison

end Sys2Proof.Machine
end

