-- ==== Sys2Proof/WellFormed.lean ====
section
/-!
DEFINITION. Which commands a sender can give: the checks of operands that the types of Syntax.lean leave open. A command
that fails one still has its effect in the machine (an access that errs, a link that does not form).
-/

namespace Sys2Proof

/-- The JTAG message buffer is reached by JTAG alone, a word at a time (R719). -/
def addrOk (init : Init) (addr : BusAddr) (n : Nat) : Bool :=
  match addr with
  | .phys _ => true
  | .jtagBuf _ => decide (init = .jtag ∧ n = 8)

/-- A PCIe request covers at least one octet, and one that is split begins on a 64-bit boundary (R481). -/
def pcieOk (ofs : Nat) : PcieOp → Bool
  | .read _ => true
  | .write _ _ => true
  | .readWords n => decide (0 < n ∧ ofs % 8 = 0)
  | .writeWords l => decide (0 < l.length ∧ ofs % 8 = 0)

/-- A host offers a PCIe link of 1 or 2 lanes, at the speeds that LANES and SPEED of PCIE_STATUS name (R479, R499). -/
def linkOk (lanes speed : Nat) : Bool := decide ((lanes = 1 ∨ lanes = 2) ∧ 1 ≤ speed ∧ speed ≤ 3)

/-- The DSP_CLK ticks of true time since the command before. -/
def Instr.dt : Instr → Nat
  | .registerWrite dt .. | .rcFieldRead dt .. | .blockLock dt .. | .aonShadowSync dt .. | .sysEventHeadPop dt ..
  | .coldPowerOn dt .. | .mainPowerOn dt .. | .brownOut dt .. | .systemReset dt .. | .coreReset dt ..
  | .jtagSystemReset dt .. | .refclkQualified dt .. | .bootRomDone dt .. | .lifeCycleReadDone dt ..
  | .imageVerifyDone dt .. | .swapPhaseDone dt .. | .migrationEcall dt .. | .migrationTimeout dt ..
  | .admitDone dt .. | .calibratePhaseDone dt .. | .sauGo dt .. | .sauCancel dt .. | .sauCheckDone dt ..
  | .agcStepDown dt .. | .agcStepUp dt .. | .txcalTempCheck dt .. | .bgCalStart dt .. | .txCalDone dt ..
  | .emissionCommit dt .. | .txHopStart dt .. | .txLock dt .. | .emissionStart dt .. | .txDeadline dt ..
  | .lockLost dt .. | .emissionEnd dt .. | .blankingStart dt .. | .blankingEnd dt .. | .maskWindow dt ..
  | .maskResume dt .. | .calReqAdc dt .. | .calReqIq dt .. | .calReqLoLeakage dt .. | .calReqTxEntry dt ..
  | .calReqTxTable dt .. | .calReqDpd dt .. | .reqCalDone dt .. | .detection dt .. | .rsvWindowEnd dt ..
  | .pendingReservationServed dt .. | .syncFound dt .. | .acquireEnd dt .. | .syncTimeout dt ..
  | .headerDecoded dt .. | .lanePayloadEnd dt .. | .codewordDecoded dt .. | .laneInjectStart dt ..
  | .laneInjectEnd dt .. | .occSample dt .. | .hearCtrlWrite dt .. | .contextClose dt .. | .cancellerTake dt ..
  | .cancelLayerDone dt .. | .timeslotBoundary dt .. | .tschStart dt .. | .ccaDone dt .. | .lbtListenEnd dt ..
  | .ackWaitEnd dt .. | .tsrcBeaconMiss dt .. | .holdoverWaitExpiry dt .. | .seenCacheVisit dt ..
  | .floodWindow dt .. | .wakeRequest dt .. | .wakeAdmit dt .. | .recordFetchDone dt .. | .keyUnwrapDone dt ..
  | .ccmJobStart dt .. | .ccmJobDone dt .. | .gkLoad dt .. | .gkClear dt .. | .gkSetTx dt .. | .keyCacheFlush dt ..
  | .hashKeyWrite dt .. | .muleGo dt .. | .muleFetchBlock dt .. | .readBucket dt .. | .writeBucket dt ..
  | .lockPair dt .. | .relocate dt .. | .unlock dt .. | .writeShort dt .. | .writeRecord dt .. | .trieNode dt ..
  | .trieEntry dt .. | .trieFill dt .. | .trieResult dt .. | .muleLockMax dt .. | .fwdMuleDonePop dt ..
  | .sweepVisit dt .. | .sweepCtrlWrite dt .. | .fwdLearnWordPop dt .. | .trieTestLookup dt .. | .cellReclaim dt ..
  | .fifoDropRest dt .. | .mboxRxMove dt .. | .mboxRxPop dt .. | .mboxTxPush dt .. | .mboxTxLast dt ..
  | .wiredRelease dt .. | .wheelDue dt .. | .dutySecond dt .. | .policerCfgWrite dt .. | .alarmFire dt ..
  | .timeStepRequest dt .. | .timeWaive dt .. | .slewDone dt .. | .ptpSample dt .. | .ptpTimeout dt ..
  | .sourceRevert dt .. | .ppsEdge dt .. | .ppsMiss dt .. | .ppsOutRise dt .. | .ppsOutFall dt ..
  | .timeTsWordPop dt .. | .ethFrameReceive dt .. | .prpEntryExpire dt .. | .ethLinkChange dt ..
  | .mgmtFrameReceive dt .. | .mgmtTxPush dt .. | .mgmtTxLast dt .. | .mdioGo dt .. | .mdioDone dt ..
  | .pcieLinkTrain dt .. | .pcieRequest dt .. | .msiRequest dt .. | .herdFrameReceive dt .. | .helloTx dt ..
  | .helloTimeout dt .. | .herdPcsLoss dt .. | .herdFullCopy dt .. | .herdCopyDone dt .. | .herdTimeTx dt ..
  | .herdDelayExchange dt .. | .herdTimeDirSwitch dt .. | .leaseFrameReceive dt .. | .leaseRenewTx dt ..
  | .leaseExpire dt .. | .leaseClaim dt .. | .drill dt .. | .drillHour dt .. | .drillAcceptTimeout dt ..
  | .syncDone dt .. | .keyUpdate dt .. | .lcAdvance dt .. | .debugUnlock dt .. | .importKeys dt ..
  | .exportKeys dt .. | .gooseClear dt .. | .updateLock dt .. | .settings dt .. | .attest dt .. | .derive dt ..
  | .clearSlot dt .. | .arbAdvance dt .. | .seal dt .. | .openBlob dt .. | .reladder dt .. | .provision dt ..
  | .ownerInit dt .. | .keysOpDone dt .. | .resultAck dt .. | .gooseLatch dt .. | .fieldOnRequest dt ..
  | .fieldOffRequest dt .. | .transceive dt .. | .transceiveDone dt .. | .anticollision dt ..
  | .anticollisionDone dt .. | .originalityCheck dt .. | .originalityDone dt .. | .presencePing dt ..
  | .emuSessionStart dt .. | .emuSessionEnd dt .. | .emuReqa dt .. | .emuWupa dt .. | .emuAnticollision dt ..
  | .emuSelectTag dt .. | .emuRats dt .. | .emuSelect dt .. | .emuReadBinary dt .. | .emuUpdateBinary dt ..
  | .emuIncrement dt .. | .fwmReadRecord dt .. | .fwmWriteRecord dt .. | .fwmReadCounters dt .. | .fwmIncrement dt ..
  | .fwmReadPage0 dt .. | .fwmProvision dt .. | .fwmOpStart dt .. | .fwmOpDone dt .. | .icuSourceEvent dt ..
  | .pendRead dt .. | .pendWrite dt .. | .holdExpire dt .. | .shCfgWrite dt .. | .ipi dt .. | .coreWfi dt ..
  | .coreWake dt .. | .strandTimeout dt .. | .xspiErase dt .. | .xspiProgram dt .. | .xspiProgDone dt ..
  | .stage dt .. | .commit dt .. | .revert dt .. | .updCmdDone dt .. | .fcHwmProgrammed dt ..
  | .flockRoundStart dt .. | .flockRoundEnd dt .. | .safeCmdPush dt .. | .safeCmdPushLast dt ..
  | .commandDeadline dt .. | .loopbackBound dt .. | .lockstepMismatch dt .. | .tcmScrub dt .. | .cfgScrub dt ..
  | .clockMonitor dt .. | .voltageSample dt .. | .tempSample dt .. | .wdKick dt .. | .wdExpire dt .. | .wdReset dt ..
  | .appWdKick dt .. | .appWdExpire dt .. | .safeForce dt .. | .safeFwDone dt .. | .safeNoticeTx dt ..
  | .throttleBoundary dt .. | .thermalOff dt .. | .ageingEval dt .. | .pgMainsChange dt .. | .outageEnter dt ..
  | .outageExit dt .. | .vbatSample dt .. | .sleepRequest dt .. | .outageWake dt .. | .lambMatch dt ..
  | .rtcWake dt .. | .perfSnapshot dt .. | .uartTxPush dt .. | .uartRxOctet dt .. | .uartRxPop dt .. | .i2cGo dt ..
  | .i2cDone dt .. | .spiGo dt .. | .spiDone dt .. | .alwaysOnSupplyLoss dt .. | .filterOutputFall dt ..
  | .holdoverSelectionRepeat dt .. | .migrationTrap dt .. | .cacheUncorrectableEcc dt ..
  | .tcmUncorrectableRead dt .. | .stagedConfigCopyDone dt .. | .emuInsNotSupported dt .. => dt

/-- The checks of each command. -/
def Instr.wellFormed : Instr → Bool
  | .registerWrite _ init addr bytes _ _ => addrOk init addr (2 ^ bytes.val)
  | .rcFieldRead _ init addr bytes _ => addrOk init addr (2 ^ bytes.val)
  | .pcieRequest _ _ ofs req _ => pcieOk ofs req
  | .pcieLinkTrain _ lanes speed _ => linkOk lanes speed
  | .blockLock .. | .aonShadowSync .. | .sysEventHeadPop .. | .coldPowerOn .. | .mainPowerOn .. | .brownOut ..
  | .systemReset .. | .coreReset .. | .jtagSystemReset .. | .refclkQualified .. | .bootRomDone ..
  | .lifeCycleReadDone .. | .imageVerifyDone .. | .swapPhaseDone .. | .migrationEcall .. | .migrationTimeout ..
  | .admitDone .. | .calibratePhaseDone .. | .sauGo .. | .sauCancel .. | .sauCheckDone .. | .agcStepDown ..
  | .agcStepUp .. | .txcalTempCheck .. | .bgCalStart .. | .txCalDone .. | .emissionCommit .. | .txHopStart ..
  | .txLock .. | .emissionStart .. | .txDeadline .. | .lockLost .. | .emissionEnd .. | .blankingStart ..
  | .blankingEnd .. | .maskWindow .. | .maskResume .. | .calReqAdc .. | .calReqIq .. | .calReqLoLeakage ..
  | .calReqTxEntry .. | .calReqTxTable .. | .calReqDpd .. | .reqCalDone .. | .detection .. | .rsvWindowEnd ..
  | .pendingReservationServed .. | .syncFound .. | .acquireEnd .. | .syncTimeout .. | .headerDecoded ..
  | .lanePayloadEnd .. | .codewordDecoded .. | .laneInjectStart .. | .laneInjectEnd .. | .occSample ..
  | .hearCtrlWrite .. | .contextClose .. | .cancellerTake .. | .cancelLayerDone .. | .timeslotBoundary ..
  | .tschStart .. | .ccaDone .. | .lbtListenEnd .. | .ackWaitEnd .. | .tsrcBeaconMiss .. | .holdoverWaitExpiry ..
  | .seenCacheVisit .. | .floodWindow .. | .wakeRequest .. | .wakeAdmit .. | .recordFetchDone .. | .keyUnwrapDone ..
  | .ccmJobStart .. | .ccmJobDone .. | .gkLoad .. | .gkClear .. | .gkSetTx .. | .keyCacheFlush .. | .hashKeyWrite ..
  | .muleGo .. | .muleFetchBlock .. | .readBucket .. | .writeBucket .. | .lockPair .. | .relocate .. | .unlock ..
  | .writeShort .. | .writeRecord .. | .trieNode .. | .trieEntry .. | .trieFill .. | .trieResult .. | .muleLockMax ..
  | .fwdMuleDonePop .. | .sweepVisit .. | .sweepCtrlWrite .. | .fwdLearnWordPop .. | .trieTestLookup ..
  | .cellReclaim .. | .fifoDropRest .. | .mboxRxMove .. | .mboxRxPop .. | .mboxTxPush .. | .mboxTxLast ..
  | .wiredRelease .. | .wheelDue .. | .dutySecond .. | .policerCfgWrite .. | .alarmFire .. | .timeStepRequest ..
  | .timeWaive .. | .slewDone .. | .ptpSample .. | .ptpTimeout .. | .sourceRevert .. | .ppsEdge .. | .ppsMiss ..
  | .ppsOutRise .. | .ppsOutFall .. | .timeTsWordPop .. | .ethFrameReceive .. | .prpEntryExpire ..
  | .ethLinkChange .. | .mgmtFrameReceive .. | .mgmtTxPush .. | .mgmtTxLast .. | .mdioGo .. | .mdioDone ..
  | .msiRequest .. | .herdFrameReceive .. | .helloTx .. | .helloTimeout .. | .herdPcsLoss ..
  | .herdFullCopy .. | .herdCopyDone .. | .herdTimeTx .. | .herdDelayExchange .. | .herdTimeDirSwitch ..
  | .leaseFrameReceive .. | .leaseRenewTx .. | .leaseExpire .. | .leaseClaim .. | .drill .. | .drillHour ..
  | .drillAcceptTimeout .. | .syncDone .. | .keyUpdate .. | .lcAdvance .. | .debugUnlock .. | .importKeys ..
  | .exportKeys .. | .gooseClear .. | .updateLock .. | .settings .. | .attest .. | .derive .. | .clearSlot ..
  | .arbAdvance .. | .seal .. | .openBlob .. | .reladder .. | .provision .. | .ownerInit .. | .keysOpDone ..
  | .resultAck .. | .gooseLatch .. | .fieldOnRequest .. | .fieldOffRequest .. | .transceive .. | .transceiveDone ..
  | .anticollision .. | .anticollisionDone .. | .originalityCheck .. | .originalityDone .. | .presencePing ..
  | .emuSessionStart .. | .emuSessionEnd .. | .emuReqa .. | .emuWupa .. | .emuAnticollision .. | .emuSelectTag ..
  | .emuRats .. | .emuSelect .. | .emuReadBinary .. | .emuUpdateBinary .. | .emuIncrement .. | .fwmReadRecord ..
  | .fwmWriteRecord .. | .fwmReadCounters .. | .fwmIncrement .. | .fwmReadPage0 .. | .fwmProvision ..
  | .fwmOpStart .. | .fwmOpDone .. | .icuSourceEvent .. | .pendRead .. | .pendWrite .. | .holdExpire ..
  | .shCfgWrite .. | .ipi .. | .coreWfi .. | .coreWake .. | .strandTimeout .. | .xspiErase .. | .xspiProgram ..
  | .xspiProgDone .. | .stage .. | .commit .. | .revert .. | .updCmdDone .. | .fcHwmProgrammed ..
  | .flockRoundStart .. | .flockRoundEnd .. | .safeCmdPush .. | .safeCmdPushLast .. | .commandDeadline ..
  | .loopbackBound .. | .lockstepMismatch .. | .tcmScrub .. | .cfgScrub .. | .clockMonitor .. | .voltageSample ..
  | .tempSample .. | .wdKick .. | .wdExpire .. | .wdReset .. | .appWdKick .. | .appWdExpire .. | .safeForce ..
  | .safeFwDone .. | .safeNoticeTx .. | .throttleBoundary .. | .thermalOff .. | .ageingEval .. | .pgMainsChange ..
  | .outageEnter .. | .outageExit .. | .vbatSample .. | .sleepRequest .. | .outageWake .. | .lambMatch ..
  | .rtcWake .. | .perfSnapshot .. | .uartTxPush .. | .uartRxOctet .. | .uartRxPop .. | .i2cGo .. | .i2cDone ..
  | .spiGo .. | .spiDone .. | .alwaysOnSupplyLoss .. | .filterOutputFall .. | .holdoverSelectionRepeat ..
  | .migrationTrap .. | .cacheUncorrectableEcc .. | .tcmUncorrectableRead .. | .stagedConfigCopyDone ..
  | .emuInsNotSupported .. => true

end Sys2Proof
end

