-- ==== Sys2Proof/Machine/Eth.lean ====
section
/-!
DEFINITION. ETH0, ETH1, MGMT and the PCIe link (R471 to R482, R499), PRP (R474, R475), and the PTP messages that pass
through (R458 to R464).
-/

namespace Sys2Proof.Machine

/-! PTP messages inside frames. -/

/-- A PTP message: where it starts, and the octets of UDP payload that hold it (Annex D). -/
structure PtpMsg where
  off : Nat
  udp : Option Nat
  deriving DecidableEq, Repr

/-- EtherType and start of the payload of an Ethernet frame. -/
def etherType (d : List Byte) : Nat × Nat :=
  if fieldBE d 12 2 = 0x8100 then (fieldBE d 16 2, 18) else (fieldBE d 12 2, 14)

/-- The PTP message of a payload (R458): Annex E, or Annex D on UDP ports 319 and 320. -/
def ptpOf (d : List Byte) (type off : Nat) : Option PtpMsg :=
  if type = 0x88F7 then some { off := off, udp := none }
  else if type = 0x86DD ∧ field d (off + 6) 1 = 17 ∧ (fieldBE d (off + 42) 2 = 319 ∨ fieldBE d (off + 42) 2 = 320) then
    some { off := off + 48, udp := some (fieldBE d (off + 44) 2 - 8) }
  else none

def ptpType (d : List Byte) (m : PtpMsg) : Nat := field d m.off 1 % 16
def ptpDomain (d : List Byte) (m : PtpMsg) : Nat := field d (m.off + 4) 1

/-- Sync or Delay_Req; and the messages of the peer-delay mechanism. -/
def ptpEvent (d : List Byte) (m : PtpMsg) : Bool := decide (ptpType d m ≤ 1)
def ptpPeer (d : List Byte) (m : PtpMsg) : Bool :=
  decide (ptpType d m = 2 ∨ ptpType d m = 3 ∨ ptpType d m = 10)

/-- Replace `n` octets of a frame. -/
def putBE (d : List Byte) (off n v : Nat) : List Byte := d.take off ++ beBytes n v ++ d.drop (off + n)

/-- TIME_NS now with its fraction, in 2^-16 ns. -/
def State.ns16 (s : State) : Nat := s.time.ns * 65536 + s.time.frac / 65536

/-- A latency of TIME_PORT_LAT in 2^-16 ns; `i` is 0 ETH0, 1 ETH1, 2 HERD_E, 3 HERD_W. -/
def lat16 (v : Nat) : Int := (toSigned 32 v * 65536).tdiv 1000
def rxStamp (s : State) (i : Nat) : Nat := ((s.ns16 : Int) - lat16 (s.get (Reg.TIME_PORT_LAT.RX_LAT i))).toNat
def txStamp (s : State) (i : Nat) : Nat := ((s.ns16 : Int) + lat16 (s.get (Reg.TIME_PORT_LAT.TX_LAT i))).toNat

/-- Record the timestamp of a message of PTP_DOMAIN that the device receives or sends itself (R460). -/
def ptpStamp (s : State) (tx : Bool) (i t : Nat) (d : List Byte) (m : PtpMsg) : State :=
  if ptpEvent d m && decide (ptpDomain d m = s.get Reg.TIME_SRC_CTRL.PTP_DOMAIN) then
    pushStamp s { word0 := stampWord0 tx i (ptpType d m) (fieldBE d (m.off + 30) 2) (t % 65536), ns := t / 65536 }
  else s

/-- Correct an event message that passes through (R463, R464). -/
def correctPtp (s : State) (d : List Byte) (m : PtpMsg) (ti te : Nat) : State × List Byte :=
  let old := fieldBE d (m.off + 8) 8
  let new := ofSigned 64 (correction (toSigned 64 old) ti te)
  match m.udp with
  | none => (s, putBE d (m.off + 8) 8 new)
  | some n =>
    let len := fieldBE d (m.off + 2) 2
    if n = len + 2 ∧ len % 2 = 0 then
      let d := putBE d (m.off + 8) 8 new
      (s, putBE d (m.off + len) 2 (trailer (fieldBE d (m.off + len) 2) old new))
    else (s.bump Reg.TIME_TC.NO_TRAILER, d)

/-- Is a passage corrected (R462)? Ports by PORT code: 3 ETH0, 4 ETH1, 5 HERD_E, 6 HERD_W. -/
def passageOn (s : State) (inPort outPort : Nat) : Bool :=
  if 5 ≤ inPort ∨ 5 ≤ outPort then s.flag Reg.TIME_TC.TC_HERD
  else s.flag Reg.TIME_TC.TC_ETH && decide (inPort ≠ outPort)

/-- A frame as it leaves a wired port with PORT code `port` (R460, R463). -/
def leaving (s : State) (port : Nat) (p : Packet) : State × List Byte :=
  let et := if port ≤ 4 then etherType p.data else if field p.data 0 1 = 1 then (0x86DD, 16) else (0, 16)
  match ptpOf p.data et.1 et.2 with
  | none => (s, p.data)
  | some m =>
    let te := txStamp s (port - 3)
    match p.ingress with
    | some (inPort, ti) =>
      if ptpEvent p.data m && passageOn s inPort port then correctPtp s p.data m ti te else (s, p.data)
    | none => (ptpStamp s true (port - 3) te p.data m, p.data)

/-! PRP (R474, R475). -/

/-- PRP is on. -/
def prpOn (s : State) : Bool := s.flag Reg.ETH_PRP_CTRL.PRP_EN

/-- A frame padded to `n` octets. -/
def padTo (n : Nat) (d : List Byte) : List Byte := d ++ List.replicate (n - d.length) 0

/-- A frame with its redundancy control trailer (R474). -/
def withRct (d : List Byte) (seq lan : Nat) : List Byte :=
  let d := padTo 54 d
  d ++ beBytes 2 seq ++ beBytes 2 (at' lan 4 12 + at' (d.length + 6 - (etherType d).2) 12 0) ++ [0x88, 0xFB]

/-- Does a frame carry an RCT? -/
def hasRct (d : List Byte) : Bool :=
  let n := d.length
  decide (20 ≤ n ∧ fieldBE d (n - 2) 2 = 0x88FB ∧ fieldBE d (n - 4) 2 % 4096 = n - (etherType d).2) &&
    decide (fieldBE d (n - 4) 2 / 4096 = 0xA ∨ fieldBE d (n - 4) 2 / 4096 = 0xB)

/-- The discard-table key of a frame: source MAC and sequence number. -/
def prpKey (d : List Byte) : Nat := fieldBE d 6 6 * 65536 + fieldBE d (d.length - 6) 2

/-- PRP_LIFE in ms. -/
def prpLifeMs (s : State) : Nat := min 1000 (max 10 (s.get Reg.ETH_PRP_CTRL.PRP_LIFE))

/-- Is a key in the discard table? -/
def prpSeen (s : State) (key : Nat) : Bool :=
  s.wire.prp.any fun e => decide (e.1 = key) && !s.elapsedMs e.2 (prpLifeMs s)

/-- A key enters the discard table; when it is full, its oldest entry is replaced (R475). -/
def prpEnter (s : State) (key : Nat) : State :=
  let old := s.wire.prp.filter fun e => decide (e.1 ≠ key) && !s.elapsedMs e.2 (prpLifeMs s)
  let full := decide (4096 ≤ old.length)
  let s := s.onlyIf full fun s => s.bump Reg.ETH_PRP_STATUS.EVICT
  { s with wire := { s.wire with prp := (if full then old.drop 1 else old) ++ [(key, s.tick)] } }

/-- PRP_ENTRY_EXPIRE (R475): entries whose PRP_LIFE has passed leave the discard table. -/
def execPrpEntryExpire (dt : Nat) (s : State) : Result :=
  step' dt s fun s =>
    { s with wire := { s.wire with prp := s.wire.prp.filter fun e => !s.elapsedMs e.2 (prpLifeMs s) } }

/-! Sending (R404, R474). -/

/-- Send a frame on ETH port `n` when its link is up. -/
def ethSend (s : State) (n : Nat) (d : List Byte) : State :=
  s.onlyIf (ethUp s n) fun s => s.emit (.frame (3 + n) (padTo 60 d))

/-- A released packet leaves its group (R379, R474): group 3 on both ports under PRP. -/
def wiredSend (s : State) (group : Nat) (p : Packet) : State :=
  if 5 ≤ group then
    let r := leaving s group p
    r.1.emit (.frame group r.2)
  else if group = 3 ∧ prpOn s then
    let seq := s.wire.prpSeq
    let s := { s with wire := { s.wire with prpSeq := (seq + 1) % 65536 } }
    let a := leaving s 3 p
    let s := ethSend a.1 0 (withRct a.2 seq 0xA)
    let b := leaving s 4 p
    ethSend b.1 1 (withRct b.2 seq 0xB)
  else
    let r := leaving s group p
    ethSend r.1 (group - 3) r.2

/-- Can a group send: is the port that it leaves on up? -/
def groupUp (s : State) (group : Nat) : Bool :=
  if 5 ≤ group then ringUp s (group - 5)
  else if group = 3 ∧ prpOn s then ethUp s 0 || ethUp s 1
  else ethUp s (group - 3)

/-- WIRED_RELEASE (R404): a port has room and the scheduler releases a frame to it: 0 ETH0, 1 ETH1, 2 HERD_E, 3 HERD_W. -/
def execWiredRelease (dt : Nat) (port : Fin 4) (err : MemErr) (crossing : Ecc) (s : State) : Result :=
  whenever dt s (fun s => groupUp s (3 + port)) fun s =>
    let r := releaseWired s (3 + port)
    match r.2 with
    | none => r.1
    | some (o, d) =>
      let q := dequeue r.1 o.queue err
      match q.2 with
      | none => refund q.1 d
      | some p => crossed q.1 (if port.val < 2 then Block.ETH else Block.HERD) crossing fun s => wiredSend s (3 + port) p

/-! Receiving on ETH0 and ETH1 (R462, R473, R475). -/

/-- A frame that is not handled further is counted. -/
def ethFilter (s : State) : State := s.count Ctr.ETH_FILTER

/-- A frame goes to DEFAULT_CORE whole (R473). -/
def wiredToCore (s : State) (port cls : Nat) (d : List Byte) : State :=
  toCore s (defaultCore s) 2 port cls 0 0 false 3 s.time.ns d

/-- Does a PTP message that arrives here belong to the device's slave (R458, R462)? -/
def ptpMine (s : State) (port : Nat) (d : List Byte) (m : PtpMsg) : Bool :=
  decide (s.get Reg.TIME_SRC_CTRL.PTP_PORT = port ∧ s.get Reg.TIME_SRC_CTRL.PTP_DOMAIN = ptpDomain d m)

/-- A PTP frame of Annex E arrives on ETH port `n` (R462): one to the multicast address is forwarded to the other port. -/
def ptpFrame (s : State) (n cls : Nat) (d : List Byte) (multicast : Bool) : State :=
  let m : PtpMsg := { off := 14, udp := none }
  if ptpPeer d m then s.bump Reg.TIME_TC.PDELAY_DROP
  else
    let ti := rxStamp s n
    let s := s.onlyIf multicast fun s =>
      (enqueue s (2048 * (4 - n) + cls) { cls := cls, len := d.length, data := d, ingress := some (3 + n, ti) }).1
    s.onlyIf (ptpMine s n d m) fun s => wiredToCore (ptpStamp s false n ti d m) (3 + n) cls d

/-- The IPv6 datagram of a frame, without padding. -/
def datagramOf (d : List Byte) (off : Nat) : List Byte := (d.drop off).take (40 + fieldBE d (off + 4) 2)

/-- An IPv6 frame enters the pipeline (R473); peer-delay messages are dropped (R458). -/
def ipFrame (s : State) (n cls : Nat) (d : List Byte) (seq : Option Nat) : State :=
  let p : Routed := { datagram := datagramOf d 14, cls := cls, port := 3 + n, wired := true, prpSeq := seq }
  match ptpOf d 0x86DD 14 with
  | none => route s p
  | some m =>
    if ptpPeer d m then s.bump Reg.TIME_TC.PDELAY_DROP
    else
      let ti := rxStamp s n
      let core := (prefixWord s (dstHi p.datagram)).any fun w => decide (bits w 31 29 = 4)
      route (s.onlyIf (core && ptpMine s n d m) fun s => ptpStamp s false n ti d m) { p with ingress := some (3 + n, ti) }

/-- A safe notice from the peer (R660). -/
def safeNotice (s : State) (p : List Byte) : State :=
  let key := Cells.get s.crypto.slotKeys (s.get Reg.ETH_PAIR_CFG.PAIR_KEY_SLOT) []
  let ok := paired s && pairKey s && decide (fieldBE p 0 3 = 0xB72C01 ∧ field p 3 1 ≠ s.get Reg.ETH_PAIR_STATUS.UNIT) &&
    decide ((hmac key (p.take 24)).take 16 = (p.drop 24).take 16)
  s.onlyIf ok fun s => s.setFlag Reg.SAFE_STATUS.PEER_SAFE true

/-- Handle an accepted, untagged frame by destination and EtherType (R473, R500, R660). -/
def ethHandle (s : State) (n cls : Nat) (d : List Byte) (seq : Option Nat) : State :=
  let dst := fieldBE d 0 6
  let type := fieldBE d 12 2
  let own := decide (dst = portMac s n)
  let s := s.portRx (3 + n) (wireOctets d.length) 0
  if type = 0x86DD ∧ own then ipFrame s n cls d seq
  else if type = 0x86DD ∧ (dst / 2 ^ 32 = 0x3333 ∨ dst = 0xFFFFFFFFFFFF) then wiredToCore s (3 + n) cls d
  else if type = 0x88F7 ∧ (dst = 0x011B19000000 ∨ own) then ptpFrame s n cls d (dst = 0x011B19000000)
  else if type = 0x88FB ∧ dst = 0x01154E000100 then wiredToCore s (3 + n) cls d
  else if type = 0x88B5 ∧ own ∧ paired s then leaseReceive s (d.drop 14)
  else if type = 0x88B6 ∧ own ∧ paired s then safeNotice s (d.drop 14)
  else ethFilter s

/-- A frame arrives on ETH port `n`: length, FCS and tag (R473), then PRP (R475). -/
def ethReceive (s : State) (n cls : Nat) (d : List Byte) (fcsOk : Bool) : State :=
  let tagged := decide (fieldBE d 12 2 = 0x8100)
  let vid := s.get (Reg.ETH_PORT_CFG.VID n)
  let long := decide (4122 < d.length + 4 + (if tagged then 0 else 4))
  if !fcsOk || long || (tagged && decide (vid = 0 ∨ fieldBE d 14 2 % 4096 ≠ vid)) then s.count Ctr.ETH_DROP
  else
    let d := if tagged then d.take 12 ++ d.drop 16 else d
    if prpOn s && hasRct d then
      let key := prpKey d
      if prpSeen s key then s.bump Reg.ETH_PRP_STATUS.DISCARDED
      else ethHandle (prpEnter s key) n cls (d.take (d.length - 6)) (some (fieldBE d (d.length - 6) 2))
    else ethHandle s n cls d none

/-- ETH_FRAME_RECEIVE (R473): `octets` without the FCS; `cls` is the service class that the packet carries. -/
def execEthFrameReceive (dt : Nat) (port : Fin 2) (octets : List Byte) (fcsOk : Bool) (cls : Fin 8) (crossing : Ecc) (s : State) :
    Result :=
  whenever dt s (fun s => ethUp s port && s.inRun) fun s =>
    crossed s Block.FWD crossing fun s => ethReceive s port cls octets fcsOk

/-- ETH_LINK_CHANGE (R471, R499): the link of ETH0, ETH1 or MGMT comes up or goes down; a port in MODE 0 has none, nor has
one before ADMIT completes (R58) or in THERMAL_OFF (R676). -/
def execEthLinkChange (dt : Nat) (port : Fin 3) (up : Bool) (s : State) : Result :=
  step' dt s fun s =>
    let up := up && !s.flag Reg.HEALTH_STATUS.THERMAL_OFF && (decide (port.val = 2) || s.admitted)
    if port.val = 2 then s.setFlag Reg.ETH_STATUS.MGMT_UP (up && s.flag Reg.ETH_STATUS.MGMT_ON)
    else
      let on := up && decide (s.get (Reg.ETH_PORT_CFG.MODE port) ≠ 0)
      if port.val = 0 then s.setFlag Reg.ETH_STATUS.ETH0_UP on else s.setFlag Reg.ETH_STATUS.ETH1_UP on

/-! MGMT (R476 to R478). -/

/-- MGMT_FRAME_RECEIVE (R476): a frame to the port's MAC, or to a group address, goes to DEFAULT_CORE. -/
def execMgmtFrameReceive (dt : Nat) (octets : List Byte) (cls : Fin 8) (crossing : Ecc) (s : State) : Result :=
  whenever dt s (fun s => s.flag Reg.ETH_STATUS.MGMT_ON && s.flag Reg.ETH_STATUS.MGMT_UP) fun s =>
    crossed s Block.QMGR crossing fun s =>
    let dst := fieldBE octets 0 6
    s.onlyIf (decide (dst = portMac s 2) || bit (field octets 0 1) 0) fun s => wiredToCore s 7 cls octets

/-- A word is pushed for MGMT (R477, R478). -/
def mgmtPush (s : State) (v : Nat) : State :=
  if !s.flag Reg.ETH_STATUS.MGMT_ON then s.setFlag Reg.ETH_MGMT_TX_STATUS.OVF true
  else if 512 ≤ s.wire.mgmt.length then
    ({ s with wire := { s.wire with mgmtLost := true } }).setFlag Reg.ETH_MGMT_TX_STATUS.OVF true
  else { s with wire := { s.wire with mgmt := s.wire.mgmt ++ [v] } }

/-- The last word: the frame leaves, or is discarded (R478). -/
def mgmtLast (s : State) (v : Nat) : State :=
  let s := mgmtPush s v
  let words := s.wire.mgmt
  let lost := s.wire.mgmtLost
  let s := { s with wire := { s.wire with mgmt := [], mgmtLost := false } }
  match words with
  | [] => s
  | h :: data =>
    let len := bits h 12 0
    if lost || decide (len < 14 ∨ 1514 < len ∨ data.length ≠ ceilDiv len 8) then s
    else s.emit (.frame 8 (padTo 60 ((data.flatMap fun w => leBytes 8 w).take len)))

/-- MGMT_TX_PUSH and MGMT_TX_LAST (R478). -/
def execMgmtTxPush (dt : Nat) (value : Word) (s : State) : Result :=
  step' dt s fun s => (mgmtPush s value.toNat).answer 0
def execMgmtTxLast (dt : Nat) (value : Word) (s : State) : Result :=
  step' dt s fun s => (mgmtLast s value.toNat).answer 0

/-- A write of ETH_MDIO (R478, R499). -/
def writeMdio (s : State) (v : Nat) : State :=
  let s := ((s.setFlag Reg.ETH_MDIO.RD (bit v 61)).set Reg.ETH_MDIO.PHY (bits v 57 53)).set Reg.ETH_MDIO.REG (bits v 52 48)
  let s := s.set Reg.ETH_MDIO.DATA (bits v 15 0)
  s.onlyIf (bit v 63 && !s.flag Reg.ETH_MDIO.BUSY && s.flag Reg.ETH_STATUS.MGMT_ON) fun s =>
    (s.setFlag Reg.ETH_MDIO.BUSY true).emit (.mdio (bit v 61) (bits v 57 53) (bits v 52 48) (bits v 15 0))

/-- MDIO_GO and MDIO_DONE (R478): a read leaves its result in DATA. -/
def execMdioGo (dt : Nat) (value : Word) (s : State) : Result :=
  step' dt s fun s => (writeMdio s value.toNat).answer 0
def execMdioDone (dt : Nat) (data : BitVec 16) (s : State) : Result :=
  whenever dt s (fun s => s.flag Reg.ETH_MDIO.BUSY) fun s =>
    (s.onlyIf (s.flag Reg.ETH_MDIO.RD) fun s => s.set Reg.ETH_MDIO.DATA data.toNat).setFlag Reg.ETH_MDIO.BUSY false

/-! PCIe (R479, R482). -/

/-- PCIE_LINK_TRAIN (R479): the link trains once LIFE_CYCLE_READ has decoded a state from TEST to RETURN, at the most lanes and
the highest speed that the host (`lanes`, `speed`) and the endpoint both have; `msi` is what the host enables. A host with no
lane or no speed forms no link. -/
def execPcieLinkTrain (dt : Nat) (lanes speed : Nat) (msi : Bool) (s : State) : Result :=
  whenever dt s (fun s => decide (Boot.IMAGE_VERIFY ≤ s.boot ∧ 0 < lanes ∧ 0 < speed)) fun s =>
    (((s.setFlag Reg.PCIE_STATUS.LINK_UP true).set Reg.PCIE_STATUS.LANES (min 2 lanes)).set Reg.PCIE_STATUS.SPEED
      (min 3 speed)).setFlag Reg.PCIE_STATUS.MSI_EN msi

/-- MSI_REQUEST (R482). -/
def writeMsiReq (s : State) (v : Nat) : State := s.onlyIf (bit v 63 && s.flag Reg.PCIE_STATUS.MSI_EN) fun s => s.emit .msi
def execMsiRequest (dt : Nat) (value : Word) (s : State) : Result :=
  step' dt s fun s => (writeMsiReq s value.toNat).answer 0

end Sys2Proof.Machine
end

