-- ==== Sys2Proof/Machine/Mule.lean ====
section
/-!
DEFINITION. The Mule: descriptor lists, lock groups and their descriptors (R334 to R343, R360 to R363).
-/

namespace Sys2Proof.Machine

/-- Put the Mule. -/
def setMule (s : State) (m : MuleState) : State := s.setTables { s.tables with mule := m }

/-! Fields of a descriptor (R335). -/

def descWord (d : MuleDesc) (i : Nat) : Nat :=
  match d with
  | .words w => w.getD i 0
  | .bad _ => 0
def descOp (d : MuleDesc) : Nat := bits (descWord d 0) 63 56
def descLast (d : MuleDesc) : Bool := bit (descWord d 0) 55

/-- The bucket that word `i` names, with its way in bit 16. -/
def descBucket (d : MuleDesc) (i : Nat) : Nat := bits (descWord d i) 16 0

/-- The address that word 1 names. -/
def descAddr (d : MuleDesc) : Nat := bits (descWord d 1) 39 6 * 64

/-- A list ends (R342): any lock is released as by UNLOCK (R338). -/
def muleEnd (s : State) (cause desc : Nat) : State :=
  let word := at' cause 8 56 + at' desc 16 40 + at' (s.tables.mule.list / 64) 34 6 + 1
  let s := resumeParked s
  let old := s.tables.muleDone
  let kept := if old.length < 64 then old else old.drop 1
  let s := s.setTables { s.tables with mule := {}, muleDone := kept ++ [word] }
  let s := (s.setFlag Reg.FWD_MULE_STATUS.BUSY false).setFlag Reg.FWD_MULE_STATUS.DONE true
  let s := s.onlyIf (decide (cause ≠ 0)) fun s => s.setFlag Reg.FWD_MULE_STATUS.FAIL true
  (s.set Reg.FWD_MULE_STATUS.CAUSE cause).set Reg.FWD_MULE_STATUS.DESC desc

/-- Is this a known OP (R334, R360)? -/
def knownOp (op : Nat) : Bool := decide ((1 ≤ op ∧ op ≤ 7) ∨ (0x10 ≤ op ∧ op ≤ 0x13))

/-- The next descriptor fails at once when it could not be fetched or its OP is unknown. -/
def muleSettle (s : State) : State :=
  match s.tables.mule.buffer with
  | [] => s
  | .bad c :: _ => muleEnd s c s.tables.mule.pos
  | d :: _ => if knownOp (descOp d) then s else muleEnd s 0x01 s.tables.mule.pos

/-- The descriptor in progress completes: the list ends with it, or goes on. -/
def muleNext (s : State) (d : MuleDesc) : State :=
  let m := s.tables.mule
  if descLast d then muleEnd s 0 m.pos
  else muleSettle (setMule s { m with buffer := m.buffer.drop 1, pos := m.pos + 1 })

/-- The next descriptor, if the Mule runs and it has this OP. -/
def muleHead (s : State) (op : Nat) : Option MuleDesc :=
  if s.flag Reg.FWD_MULE_STATUS.BUSY then
    match s.tables.mule.buffer with
    | d :: _ => if descOp d = op then some d else none
    | [] => none
  else none

/-- The next descriptor fails. -/
def muleFail (s : State) (cause : Nat) : State := muleEnd s cause s.tables.mule.pos

/-! The locks break (R340, R341). -/

/-- Clear a slot that re-validation rejects, and count it (R341). -/
def fixSlot (r : State × Nat) (b i : Nat) : State × Nat :=
  (setSlot (dropKey r.1 (slotAt r.1 b i).record) b i {}, r.2 + 1)

/-- Re-validate one slot of bucket `b` (R341). -/
def revalidateSlot (r : State × Nat) (b i : Nat) : State × Nat :=
  let v := slotAt r.1 b i
  if !v.valid then r
  else if ownBucket r.1 (b / 65536) v.eui ≠ b then fixSlot r b i
  else
    let other := ownBucket r.1 (1 - b / 65536) v.eui
    match (List.range 4).find? fun j => (slotAt r.1 other j).valid && decide ((slotAt r.1 other j).eui = v.eui) with
    | none => r
    | some j => if b / 65536 = 1 then fixSlot r b i else fixSlot r other j

/-- Re-validate a bucket. -/
def revalidate (r : State × Nat) (b : Nat) : State × Nat := (List.range 4).foldl (fun r i => revalidateSlot r b i) r

/-- LOCK_MAX is 2 µs: once it has passed, the locks break and the list is abandoned (R340). -/
def lockExpire (s : State) : State :=
  let m := s.tables.mule
  match m.locks with
  | none => s
  | some (x, y) => s.onlyIf (s.elapsedNs m.lockTick 2000) fun s =>
      let r := revalidate (setMule s { m with locks := none }, 0) x
      let r := if x = y then r else revalidate r y
      let s := r.1.event Ev.MULE_LOCK_BROKEN Block.FWD
        (at' x 17 31 + at' y 17 14 + at' (m.pos - m.groupAt) 5 9 + at' r.2 4 5)
      muleEnd s 0x06 m.pos

/-- Run the next descriptor when it has this OP; nothing runs after LOCK_MAX (R340). -/
def muleRun (dt : Nat) (op : Nat) (s : State) (k : State → MuleDesc → State) : Result :=
  step' dt s fun s =>
    let s := lockExpire s
    match muleHead s op with
    | none => s
    | some d => k s d

/-! The commands. -/

/-- MULE_GO (R334): a write of FWD_MULE_CTRL. -/
def writeMuleCtrl (s : State) (v : Nat) : State :=
  if bit v 63 && !s.flag Reg.FWD_MULE_STATUS.BUSY then
    setMule (s.setFlag Reg.FWD_MULE_STATUS.BUSY true) { list := s.get Reg.FWD_MULE_LIST.ADDR * 64 }
  else s
def execMuleGo (dt : Nat) (value : Word) (s : State) : Result :=
  step' dt s fun s => (writeMuleCtrl s value.toNat).answer 0

/-- Fetch up to `n` descriptors: the list stops at its LAST descriptor, at the end of the usable window (BAD_ADDR) or at
an uncorrectable word (MEM_ERR); `bad` gives the positions in the block that hold such a word. -/
def fetchDescs (s : State) (addr : Nat) (bad : List Nat) : Nat → Nat → List MuleDesc
  | 0, _ => []
  | n + 1, i =>
    if !s.inLp4x addr 64 then [.bad 0x09]
    else if bad.contains i then [.bad 0x07]
    else
      let d := MuleDesc.words ((List.range 8).map fun k => s.ddrLE (addr + 8 * k) 8)
      if descLast d then [d] else d :: fetchDescs s (addr + 64) bad n (i + 1)

/-- Has the list's last descriptor been fetched? -/
def listFetched (m : MuleState) : Bool :=
  match m.buffer.getLast? with
  | some (.bad _) => true
  | some d => descLast d
  | none => false

/-- MULE_FETCH_BLOCK (R334): a block of eight descriptors, or as many as have room, arrives in the buffer of 32. -/
def execMuleFetchBlock (dt : Nat) (bad : List Nat) (s : State) : Result :=
  whenever dt s
    (fun s => s.flag Reg.FWD_MULE_STATUS.BUSY && decide (s.tables.mule.buffer.length < 32) && !listFetched s.tables.mule)
    fun s =>
      let m := s.tables.mule
      let ds := fetchDescs s (m.list + 64 * m.fetched) bad (min 8 (32 - m.buffer.length)) 0
      let s := s.onlyIf (decide (ds.getLast? = some (.bad 0x07))) fun s => s.ddrUncorr (m.list + 64 * (m.fetched + ds.length - 1))
      muleSettle (setMule s { m with fetched := m.fetched + ds.length, buffer := m.buffer ++ ds })

/-- READ_BUCKET (R334): one bucket is copied to LP4X. -/
def execReadBucket (dt : Nat) (s : State) : Result :=
  muleRun dt 0x01 s fun s d =>
    if !s.inLp4x (descAddr d) 64 then muleFail s 0x09
    else
      let b := descBucket d 0
      let octets := (List.range 4).flatMap fun i =>
        let v := slotAt s b i
        leBytes 8 v.eui ++ leBytes 4 (at' v.record 18 14 + at' (b2n v.valid) 1 13 + at' (b2n v.hit) 1 12
          + at' (b2n v.aged) 1 11)
      muleNext (s.ddrWrite (descAddr d) (octets ++ List.replicate 16 0)) d

/-- Slot `i` of a bucket image in words 2 to 7 (R315, R335). -/
def imageSlot (d : MuleDesc) (i : Nat) : Slot :=
  let octets := (List.range 6).flatMap fun k => leBytes 8 (descWord d (2 + k))
  let c := field octets (12 * i + 8) 4
  { eui := field octets (12 * i) 8, record := bits c 31 14, valid := bit c 13, hit := bit c 12, aged := bit c 11 }

/-- Write one slot under R339, keeping HIT and AGED of an unchanged entry. -/
def writeSlot (s : State) (b i : Nat) (new : Slot) : State :=
  let old := slotAt s b i
  let new := if old.eui = new.eui ∧ old.valid = new.valid then { new with hit := old.hit, aged := old.aged } else new
  let s := s.onlyIf (old.valid && (!new.valid || decide (new.record ≠ old.record))) fun s => dropKey s old.record
  setSlot s b i new

/-- Is a bucket locked by the group in force (R336)? -/
def groupHolds (s : State) (b : Nat) : Bool := bucketLocked s b

/-- WRITE_BUCKET (R339): the selected slots of a locked bucket are written. -/
def execWriteBucket (dt : Nat) (s : State) : Result :=
  muleRun dt 0x02 s fun s d =>
    let b := descBucket d 0
    let chosen := (List.range 4).filter fun i => bit (descWord d 0) (20 + i)
    if !groupHolds s b then muleFail s 0x03
    else if bit (descWord d 0) 24 && chosen.any fun i => (slotAt s b i).valid then muleFail s 0x04
    else muleNext (chosen.foldl (fun s i => writeSlot s b i (imageSlot d i)) s) d

/-- How the check of a lock group ends (R336): more descriptors are needed, a breach by cause and position, or good. -/
inductive GroupCheck where
  | more
  | breach (cause at_ : Nat)
  | good
  deriving DecidableEq, Repr

/-- Check the descriptors of a group after its LOCK_PAIR on `x` and `y`; `i` is the position of the next one. -/
def checkGroup (x y : Nat) : Nat → List MuleDesc → GroupCheck
  | i, [] => if 30 ≤ i then .breach 0x02 0 else .more
  | i, .bad c :: _ => if 30 ≤ i then .breach 0x02 0 else .breach c i
  | i, d :: rest =>
    let op := descOp d
    let own := fun b => decide (b = x ∨ b = y)
    if 30 ≤ i then .breach 0x02 0
    else if op = 0x05 then
      let a := descBucket d 0
      let b := descBucket d 1
      if (a = x ∧ b = y) ∨ (a = y ∧ b = x) then .good else .breach 0x02 i
    else if op = 0x02 then (if own (descBucket d 0) then go d (checkGroup x y (i + 1) rest) else .breach 0x03 i)
    else if op = 0x04 then
      (if own (descBucket d 0) && own (descBucket d 1) then go d (checkGroup x y (i + 1) rest) else .breach 0x03 i)
    else if op = 0x01 ∨ op = 0x07 then go d (checkGroup x y (i + 1) rest)
    else .breach 0x02 i
where
  go (d : MuleDesc) (r : GroupCheck) : GroupCheck := if descLast d then .breach 0x02 0 else r

/-- LOCK_PAIR (R336): the whole group is checked before its two buckets are locked. -/
def execLockPair (dt : Nat) (s : State) : Result :=
  muleRun dt 0x03 s fun s d =>
    let m := s.tables.mule
    let x := descBucket d 0
    let y := descBucket d 1
    if descLast d then muleFail s 0x02
    else match checkGroup x y 1 (m.buffer.drop 1) with
      | .more => s
      | .breach c i => muleEnd s c (m.pos + i)
      | .good => muleNext (setMule s { m with locks := some (x, y), groupAt := m.pos, lockTick := s.tick }) d

/-- RELOCATE (R339): a slot moves to its key's bucket in the other way. -/
def execRelocate (dt : Nat) (s : State) : Result :=
  muleRun dt 0x04 s fun s d =>
    let a := descBucket d 0
    let b := descBucket d 1
    let i := bits (descWord d 0) 19 18
    let j := bits (descWord d 1) 19 18
    let v := slotAt s a i
    if !(groupHolds s a && groupHolds s b) then muleFail s 0x03
    else if v.valid && !(slotAt s b j).valid && decide (a / 65536 ≠ b / 65536 ∧ ownBucket s (b / 65536) v.eui = b) then
      muleNext (setSlot (setSlot s b j v) a i {}) d
    else muleFail s 0x05

/-- UNLOCK (R336): the group's buckets unlock and parked lookups resume. -/
def execUnlock (dt : Nat) (s : State) : Result :=
  muleRun dt 0x05 s fun s d =>
    match s.tables.mule.locks with
    | none => muleFail s 0x02
    | some _ => resumeParked (muleNext (setMule s { s.tables.mule with locks := none }) d)

/-- WRITE_SHORT (R320): a short-address entry is written. -/
def execWriteShort (dt : Nat) (s : State) : Result :=
  muleRun dt 0x06 s fun s d =>
    let a := bits (descWord d 0) 15 0
    let e := descWord d 1
    if 0xFFFE ≤ a then muleFail s 0x08
    else muleNext (s.setTables { s.tables with
      shorts := Cells.set s.tables.shorts a (at' (b2n (bit e 31)) 1 31 + bits e 17 0) 0 }) d

/-- Copy the aligned words of a mask from a block to a quarter of a record. -/
def copyWords (s : State) (src dst mask : Nat) : State :=
  (List.range 8).foldl (fun s i => s.onlyIf (bit mask i) fun s => s.ddrWrite (dst + 8 * i) (s.ddr (src + 8 * i) 8)) s

/-- WRITE_RECORD (R325): a quarter of a node record is written; a changed WRAPPED_KEY leaves the key cache (R299). -/
def execWriteRecord (dt : Nat) (memErr : Bool) (s : State) : Result :=
  muleRun dt 0x07 s fun s d =>
    let r := bits (descWord d 0) 17 0
    if !recordsOn s || !s.inLp4x (descAddr d) 64 then muleFail s 0x09
    else if memErr then muleFail (s.ddrUncorr (descAddr d)) 0x07
    else
      let before := recWrapped s r
      let s := copyWords s (descAddr d) (recordBase s r + 64 * bits (descWord d 0) 21 20) (bits (descWord d 0) 31 24)
      muleNext (s.onlyIf (decide (recWrapped s r ≠ before)) fun s => dropKey s r) d

/-- Run a trie descriptor: a member whose prefix table is the master's fails it with BAD_OP (R489); a completed one is
replicated. -/
def runTrie (s : State) (d : MuleDesc) (image : List Byte) : State :=
  if s.flag Reg.HERD_CTRL.PREFIX_FROM_MASTER && !s.isMaster then muleFail s 0x01
  else muleNext (replicate' (applyTrie s (descWord d 0) (descWord d 1) image) (descWord d 0) (descWord d 1) image) d

/-- TRIE_NODE (R360): a node image is copied into a trie stage. -/
def execTrieNode (dt : Nat) (memErr : Bool) (s : State) : Result :=
  muleRun dt 0x10 s fun s d =>
    if !s.inLp4x (descAddr d) 1024 then muleFail s 0x09
    else if memErr then muleFail (s.ddrUncorr (descAddr d)) 0x07
    else runTrie s d (s.ddr (descAddr d) 1024)

/-- TRIE_ENTRY (R361): one trie entry is written. -/
def execTrieEntry (dt : Nat) (s : State) : Result := muleRun dt 0x11 s fun s d => runTrie s d []

/-- TRIE_FILL (R360): a range of stage-0 entries is filled. -/
def execTrieFill (dt : Nat) (s : State) : Result := muleRun dt 0x12 s fun s d => runTrie s d []

/-- TRIE_RESULT (R361): one result word is written. -/
def execTrieResult (dt : Nat) (s : State) : Result := muleRun dt 0x13 s fun s d => runTrie s d []

/-- MULE_LOCK_MAX (R340): LOCK_MAX expires. -/
def execMuleLockMax (dt : Nat) (s : State) : Result := step' dt s lockExpire

end Sys2Proof.Machine
end

