-- ==== Sys2Proof/Machine/Herd.lean ====
section
/-!
DEFINITION. The Herd link (R483 to R497): ports, frames, seeks, replication and herd time.
-/

namespace Sys2Proof.Machine

/-! Ports (R483, R487). -/

def ringPortOf (s : State) (port : Nat) : RingPort := if port = 0 then s.wire.east else s.wire.west
def setRingPort (s : State) (port : Nat) (r : RingPort) : State :=
  if port = 0 then { s with wire := { s.wire with east := r } } else { s with wire := { s.wire with west := r } }

/-- E_UP or W_UP. -/
def ringFlag (port : Nat) : Fld := if port = 0 then Reg.HERD_STATUS.E_UP else Reg.HERD_STATUS.W_UP

/-- The HERD_ID that the partner on a port must have (R483). -/
def ringPartner (s : State) (port : Nat) : Nat :=
  if port = 0 then (s.herdId + 1) % max 1 s.members else (s.herdId + s.members - 1) % max 1 s.members

/-- The other members that the master can reach (R490). -/
def inReach (s : State) : List Nat := (List.range s.members).filter fun m => decide (m ≠ s.herdId) && (ringPort s m).isSome

/-- After a change of E_UP or W_UP, the members that come into the master's reach await a full copy, and those out of reach
await none (R490). -/
def reachChanged (s t : State) : State :=
  if t.isMaster then
    let new := (inReach t).filter fun m => !(inReach s).contains m || s.wire.copies.contains m
    { t with wire := { t.wire with copies := new } }
  else t

/-- A port goes down (R487, R497): 1 PCS_LOSS, 2 HELLO_TIMEOUT, 3 MISWIRE. -/
def ringDown (s : State) (port cause : Nat) : State :=
  let r := ringPortOf s port
  let was := ringUp s port
  let s := setRingPort s port { r with good := 0 }
  let s := reachChanged s (s.setFlag (ringFlag port) false)
  s.onlyIf was fun s => s.event Ev.HERD_RING_BREAK Block.HERD (at' port 1 47 + at' cause 2 45 + at' r.seen 4 41)

/-- A port comes up; a replica that was out of reach is no longer complete (R490). -/
def ringRise (s : State) (port : Nat) : State :=
  let alone := !(ringUp s 0 || ringUp s 1)
  let s := reachChanged s (s.setFlag (ringFlag port) true)
  s.onlyIf (alone && !s.isMaster) fun s => s.setFlag Reg.HERD_STATUS.REPL_SYNC false

/-- A HELLO: SRC and HOPS give HERD_ID and MEMBERS - 1, the payload SCHED_HASH. -/
def helloFrame (s : State) : HerdFrame :=
  { type := 7, dst := 0xF, src := s.herdId, hops := s.members - 1, flags := 0, payload := beBytes 4 (schedHash s) }

/-- Mark a member in MISMATCH, or not (R487). -/
def markMismatch (s : State) (m : Nat) (bad : Bool) : State :=
  if bad then s.setBit Reg.HERD_STATUS.MISMATCH m else s.clearBit Reg.HERD_STATUS.MISMATCH m

/-- A HELLO arrives: the third consecutive good one brings the port up (R487). -/
def hello (s : State) (port : Nat) (f : HerdFrame) : State :=
  let r := ringPortOf s port
  let good := decide (f.src = ringPartner s port ∧ f.hops + 1 = s.members)
  let s := setRingPort s port { r with heard := s.tick, seen := f.src % 16, good := if good then min 3 (r.good + 1) else 0 }
  if !good then ringDown s port 3
  else
    let s := markMismatch s f.src (decide (f.payload ≠ beBytes 4 (schedHash s)))
    s.onlyIf (decide (2 ≤ r.good) && !ringUp s port) fun s => ringRise s port

/-- Is the link in use at all (R483)? Its ports stay down before ADMIT completes and in the exit states (R58, R79), and in
THERMAL_OFF its SerDes is down (R676). -/
def inHerd (s : State) : Bool := decide (1 < s.members) && s.admitted && !s.flag Reg.HEALTH_STATUS.THERMAL_OFF

/-- HELLO_TX (R487): each port sends a HELLO every 1 ms. -/
def execHelloTx (dt : Nat) (port : Fin 2) (s : State) : Result :=
  whenever dt s (fun s => inHerd s && s.elapsedMs (ringPortOf s port).sent 1) fun s =>
    (setRingPort s port { ringPortOf s port with sent := s.tick }).emit (.herd port (helloFrame s))

/-- HELLO_TIMEOUT (R487): three HELLOs are missed. -/
def execHelloTimeout (dt : Nat) (port : Fin 2) (s : State) : Result :=
  whenever dt s (fun s => ringUp s port && s.elapsedMs (ringPortOf s port).heard 3) fun s => ringDown s port 2

/-- HERD_PCS_LOSS (R487): the PCS has lost block lock or alignment for 10 µs. -/
def execHerdPcsLoss (dt : Nat) (port : Fin 2) (s : State) : Result :=
  whenever dt s (fun s => ringUp s port) fun s => ringDown s port 1

/-! Forwarding (R485). -/

/-- Does forwarding go on to the member that the frame came from? -/
def backAtSource (s : State) (out : Nat) (f : HerdFrame) : Bool := decide (ringPartner s out = f.src)

/-! Seeks (R494 to R497). -/

/-- A SEEK is back at the master (R496, R497). -/
def seekHome (s : State) (f : HerdFrame) : State :=
  if bit f.flags 0 then s
  else
    let w := s.wire.seekWindow.add s.msNow
    let s := { s with wire := { s.wire with seekWindow := w.1 } }
    let s := s.bump Reg.HERD_COUNT.SEEK_DROP
    if w.2 then s.event Ev.SEEK_DROP Block.HERD (at' (min w.1.previous 65535) 16 32 + at' f.arg 32 0)
    else s.count Ev.SEEK_DROP

/-! Consuming (R485, R489 to R492). -/

/-- A DATA frame reaches its member: a BACKHAUL result goes out of the master's ports, a pair frame without a result word
goes out of its ETH ports, and any other packet enters step 2 of R39. -/
def takeData (s : State) (port : Nat) (f : HerdFrame) : State :=
  let w := f.arg / 2 ^ 32
  if w = 0 then (List.range 2).foldl (fun s n => ethSend s n f.payload) s
  else
    let d := f.payload.take (40 + fieldBE f.payload 4 2)
    let p : Routed := { datagram := d, cls := bits f.flags 3 1, tenant := f.aux / 256, port := 5 + port, wired := true
                        trailer := f.payload.drop d.length }
    let p := match ptpOf d 0x86DD 0 with
      | some _ => { p with ingress := some (5 + port, rxStamp s (2 + port)) }
      | none => p
    if bits w 31 29 = 3 then toBackhaul s w p else route s { p with trailer := [] }

/-- A replicated change reaches a replica (R489): a trie descriptor, or a next-hop entry. -/
def takeRepl (s : State) (f : HerdFrame) : State :=
  let w0 := field f.payload 0 8
  let w1 := field f.payload 8 8
  if !s.flag Reg.HERD_CTRL.PREFIX_FROM_MASTER then s
  else if bits w0 63 56 = 0x20 then
    let i := bits w0 3 0
    (((s.setFlag (Reg.FWD_NH.VALID i) (bit w1 63)).setFlag (Reg.FWD_NH.TAG i) (bit w1 62)).set
      (Reg.FWD_NH.VID i) (bits w1 59 48)).set (Reg.FWD_NH.DMAC i) (bits w1 47 0)
  else applyTrie s w0 w1 (f.payload.drop 16)

/-- A forwarded learn event reaches the master (R492). -/
def takeLearn (s : State) (f : HerdFrame) : State :=
  let w := fun i => field f.payload (8 * i) 8
  if learnRoom s then learnPush s (w 0) (w 1) (w 2) (w 3) else learnLost s (bits (w 0) 63 60)

/-- The measured link delay of a port in 2^-16 ns. -/
def linkDelay16 (s : State) (port : Nat) : Nat :=
  (if port = 0 then s.get Reg.HERD_LINK_DELAY.DELAY_E else s.get Reg.HERD_LINK_DELAY.DELAY_W) * 65536 / 1000

/-- The port that TIME_DIR names. -/
def timePort (s : State) : Nat := if s.flag Reg.HERD_STATUS.TIME_DIR then 0 else 1

/-- A TIME frame reaches a member that follows the master (R491 steps 4 and 5). -/
def takeTime (s : State) (port : Nat) (f : HerdFrame) : State :=
  if !s.flag Reg.HERD_CTRL.HERD_TIME || decide (timePort s ≠ port) then s
  else
    let s := { s with wire := { s.wire with timeHeard := s.tick } }
    let sent : Nat := f.arg * 65536 + fieldBE f.payload 0 8 + linkDelay16 s port
    ptpSample s (((rxStamp s (2 + port) : Int) - (sent : Int)) / 65536)

/-- A member consumes a frame (R484, R485). -/
def consume (s : State) (port : Nat) (f : HerdFrame) : State :=
  match f.type with
  | 1 => takeData s port f
  | 2 => seekHome s f
  | 3 => takeRepl s f
  | 4 => s.onlyIf s.isMaster fun s => takeLearn s f
  | 5 => wiredToCore s (5 + port) (bits f.flags 3 1) (herdOctets f)
  | 6 => takeTime s port f
  | _ => s

/-- A TIME frame as it is forwarded (R491 step 2). -/
def timeOnward (s : State) (port : Nat) (f : HerdFrame) (residence : Nat) : HerdFrame :=
  if f.type = 6 then
    { f with payload := beBytes 8 (fieldBE f.payload 0 8 + residence + linkDelay16 s port) ++ f.payload.drop 8 }
  else f

/-- HERD_FRAME_RECEIVE (R485): `residence` is a TIME frame's stay in this member, in 2^-16 ns, between the timestamps of
R459. -/
def execHerdFrameReceive (dt : Nat) (port : Fin 2) (f : HerdFrame) (crcOk : Bool) (residence : Nat) (crossing : Ecc) (s : State) :
    Result :=
  whenever dt s inHerd fun s =>
    let s := s.onlyIf crcOk fun s => s.portRx (5 + port) (herdOctetsOf f) 0
    if !crcOk then s.bump Reg.HERD_COUNT.CRC_ERR
    else crossed s Block.FWD crossing fun s =>
    if f.type = 7 then hello s port f
    else if !ringUp s port then s
    else if f.dst = s.herdId then consume s port f
    else if f.dst = 0xF then
      let s := consume s port f
      if backAtSource s (1 - port) f || decide (f.hops = 0) then s
      else herdForward s port (timeOnward s port f residence)
    else if f.type = 2 then seekPass s port f
    else herdForward s port (timeOnward s port f residence)

/-! Replication and copies (R490). -/

/-- FWD_NH entry `i` as a word. -/
def nhWord (s : State) (i : Nat) : Nat :=
  at' (s.get (Reg.FWD_NH.VALID i)) 1 63 + at' (s.get (Reg.FWD_NH.TAG i)) 1 62 + at' (s.get (Reg.FWD_NH.VID i)) 12 48
    + s.get (Reg.FWD_NH.DMAC i)
def setNh (s : State) (i v : Nat) : State :=
  (((s.setFlag (Reg.FWD_NH.VALID i) (bit v 63)).setFlag (Reg.FWD_NH.TAG i) (bit v 62)).set
    (Reg.FWD_NH.VID i) (bits v 59 48)).set (Reg.FWD_NH.DMAC i) (bits v 47 0)

/-- HERD_FULL_COPY (R490): the master sends a member that has come into its reach the whole trie and every FWD_NH entry. -/
def execHerdFullCopy (dt : Nat) (member : Fin 8) (s : State) : Result :=
  whenever dt s (fun s => s.isMaster && s.wire.copies.contains member.val)
    fun s =>
      ({ s with wire := { s.wire with copies := s.wire.copies.filter fun m => decide (m ≠ member.val) } }).emit
        (.trieCopy member s.tables.trie ((List.range 16).map (nhWord s)))

/-- HERD_COPY_DONE (R490): the copy is complete on the member, and its replica serves lookups. -/
def execHerdCopyDone (dt : Nat) (words : List (Nat × Nat)) (hops : List Word) (s : State) : Result :=
  whenever dt s (fun s => s.flag Reg.HERD_CTRL.PREFIX_FROM_MASTER && !s.isMaster && !s.flag Reg.HERD_STATUS.REPL_SYNC) fun s =>
    let s := s.setTables { s.tables with trie := [] }
    let s := words.foldl (fun s e => setTrie s e.1 e.2) s
    let s := (hops.take 16).zipIdx.foldl (fun s e => setNh s e.2 e.1.toNat) s
    s.setFlag Reg.HERD_STATUS.REPL_SYNC true

/-! Herd time (R491). -/

/-- HERD_TIME_TX (R491 step 1): the master sends a TIME frame to every member every 10 ms. -/
def execHerdTimeTx (dt : Nat) (s : State) : Result :=
  whenever dt s (fun s => inHerd s && s.isMaster && s.elapsedMs s.wire.timeSent 10) fun s =>
    let s := { s with wire := { s.wire with timeSent := s.tick } }
    let east := ceilDiv (s.members - 1) 2
    let send := fun (s : State) (port hops : Nat) => s.onlyIf (ringUp s port && decide (0 < hops)) fun s =>
      s.emit (.herd port { type := 6, dst := 0xF, src := 0, hops := hops - 1, flags := 0, arg := txStamp s (2 + port) / 65536
                           payload := beBytes 8 0 })
    send (send s 0 east) 1 (s.members - 1 - east)

/-- HERD_DELAY_EXCHANGE (R491 step 3): a port measures its link delay once a second; the instants are in ps, corrected by
TIME_PORT_LAT. -/
def execHerdDelayExchange (dt : Nat) (port : Fin 2) (t1 t2 t3 t4 : Int) (s : State) : Result :=
  whenever dt s (fun s => ringUp s port && s.elapsedSec (ringPortOf s port).delayAt 1) fun s =>
    let d := (min (((t4 - t1) - (t3 - t2)) / 2) 0xFFFFFFFF).toNat
    let s := setRingPort s port { ringPortOf s port with delayAt := s.tick }
    s.set (if port.val = 0 then Reg.HERD_LINK_DELAY.DELAY_E else Reg.HERD_LINK_DELAY.DELAY_W) d

/-- HERD_TIME_DIR_SWITCH (R491 step 4): after 30 ms without a TIME frame the member turns to the other direction. -/
def execHerdTimeDirSwitch (dt : Nat) (s : State) : Result :=
  whenever dt s (fun s => s.flag Reg.HERD_CTRL.HERD_TIME && s.elapsedMs s.wire.timeHeard 30) fun s =>
    ({ s with wire := { s.wire with timeHeard := s.tick } }).setFlag Reg.HERD_STATUS.TIME_DIR
      (!s.flag Reg.HERD_STATUS.TIME_DIR)

end Sys2Proof.Machine
end

