-- ==== Sys2Proof/Machine/Fwm.lean ====
section
/-!
DEFINITION. The field-writable memory (R581 to R589): pages, records, counters, page 0, and its operations in order.
-/

namespace Sys2Proof.Machine

/-! Primitive operations (R581). -/

/-- Erase a page. -/
def pageErase (s : State) (p : Nat) : State :=
  { s with mem := { s.mem with fwm := s.mem.fwm.filter fun c => decide (c.1 / 256 ≠ p) } }

/-- Program octets: bits only go from 1 to 0. -/
def fwmProgram (s : State) (a : Nat) (bs : List Byte) : State :=
  s.fwmWrite a (bs.zipWith (fun b old => b &&& old) (s.fwmRead a bs.length))

/-- A number of the FWM, little-endian. -/
def fwmNat (s : State) (a n : Nat) : Nat := leNat (s.fwmRead a n)

/-- A torn word: more bits set than intended (R583). -/
def tornWord (s : State) (v : Nat) : Nat := (v ||| s.free) % 2 ^ 32

/-! Records (R583, R584). -/

/-- Page of copy A (0) or B (1) of a record. -/
def copyPage (r c : Nat) : Nat := 4 + 2 * r + c

/-- Data and VERSION of a copy, and whether it is valid. -/
def copyData (s : State) (r c : Nat) : List Byte := s.fwmRead (256 * copyPage r c) 240
def copyVersion (s : State) (r c : Nat) : Nat := fwmNat s (256 * copyPage r c + 0xF4) 2
def copyValid (s : State) (r c : Nat) : Bool :=
  let a := 256 * copyPage r c
  decide (fwmNat s (a + 0xF6) 2 = 65535 - copyVersion s r c) &&
    decide (fwmNat s (a + 0xF0) 4 = crc32 (copyData s r c ++ leBytes 2 (copyVersion s r c)))

/-- The current copy of a record; `none` when the record is empty. -/
def currentCopy (s : State) (r : Nat) : Option Nat :=
  match copyValid s r 0, copyValid s r 1 with
  | true, true => if 0 ≤ diffN 16 (copyVersion s r 0) (copyVersion s r 1) then some 0 else some 1
  | true, false => some 0
  | false, true => some 1
  | false, false => none

/-- Data and version of a record: zeros and 0 when it is empty. -/
def recordData (s : State) (r : Nat) : List Byte :=
  match currentCopy s r with
  | none => List.replicate 240 0
  | some c => copyData s r c
def recordVersion (s : State) (r : Nat) : Nat :=
  match currentCopy s r with
  | none => 0
  | some c => copyVersion s r c

/-- A record write through its shadow (R584): the first `steps` of its four steps, and the next one torn when `torn` is set. -/
def recordWrite (s : State) (r : Nat) (data : List Byte) (steps : Nat) (torn : Bool) : State :=
  let shadow := if currentCopy s r = some 0 then 1 else 0
  let v := (recordVersion s r + 1) % 65536
  let a := 256 * copyPage r shadow
  let word := v + 65536 * (65535 - v)
  let s := s.onlyIf (decide (1 ≤ steps)) fun s => pageErase s (copyPage r shadow)
  let s := s.onlyIf (decide (2 ≤ steps)) fun s => fwmProgram s a data
  let s := s.onlyIf (decide (3 ≤ steps)) fun s => fwmProgram s (a + 0xF0) (leBytes 4 (crc32 (data ++ leBytes 2 v)))
  if 4 ≤ steps then fwmProgram s (a + 0xF4) (leBytes 4 word)
  else if !torn then s
  else match steps with
    | 1 => (fwmProgram s a (data.take (4 * (s.free % 60)))).drawn
    | 2 => (fwmProgram s (a + 0xF0) (leBytes 4 (tornWord s (crc32 (data ++ leBytes 2 v))))).drawn
    | 3 => (fwmProgram s (a + 0xF4) (leBytes 4 (tornWord s word))).drawn
    | _ => s

/-! Counters (R585, R586). -/

/-- Address of a copy of a counter: primary 0, backup 1. -/
def ctrAddr (c i : Nat) : Nat := 256 + 16 * c + 8 * i

/-- The value of a valid copy. -/
def ctrCopy (s : State) (c i : Nat) : Option Nat :=
  let w := fwmNat s (ctrAddr c i) 4
  if fwmNat s (ctrAddr c i + 4) 4 = 2 ^ 32 - 1 - w ∧ w < 2 ^ 24 then some w else none

/-- The counter reads as the higher valid value; `none` with no valid copy. -/
def ctrRead (s : State) (c : Nat) : Option Nat :=
  match ctrCopy s c 0, ctrCopy s c 1 with
  | some x, some y => some (max x y)
  | some x, none => some x
  | none, y => y

/-- Rewrite a word: erase and program. -/
def rewriteWord (s : State) (a v : Nat) : State := s.fwmWrite a (leBytes 4 v)

/-- An increment (R586): the first `steps` of its four word rewrites, and the next one torn when `torn` is set. -/
def ctrIncrement (s : State) (c : Nat) (steps : Nat) (torn : Bool) : State :=
  let v := (ctrRead s c).getD 0
  let first := if ctrCopy s c 0 = some v then 1 else 0
  let w := v + 1
  let plan : List (Nat × Nat) :=
    [(ctrAddr c first, w), (ctrAddr c first + 4, 2 ^ 32 - 1 - w), (ctrAddr c (1 - first), w), (ctrAddr c (1 - first) + 4, 2 ^ 32 - 1 - w)]
  let s := (plan.take steps).foldl (fun s p => rewriteWord s p.1 p.2) s
  match (if torn then plan[steps]? else none) with
  | none => s
  | some p => (rewriteWord s p.1 (tornWord s p.2)).drawn

/-! Page 0 (R582). -/

/-- Is page 0 locked? -/
def pageLocked (s : State) : Bool := decide (fwmNat s 0xF8 4 ≠ 2 ^ 32 - 1)

/-- PROVISION: the first `steps` of its four steps, the next one torn when `torn` is set. -/
def provisionPage (s : State) (image : List Byte) (steps : Nat) (torn : Bool) : State :=
  let body := image.take 0xF8 ++ [0xFF, 0xFF, 0xFF, 0xFF] ++ (image.drop 0xFC).take 4
  let s := s.onlyIf (decide (1 ≤ steps)) fun s => pageErase (pageErase s 0) 1
  let s := s.onlyIf (decide (2 ≤ steps)) fun s => fwmProgram s 0 body
  let s := s.onlyIf (decide (3 ≤ steps)) fun s => (List.range 32).foldl (fun s i =>
    fwmProgram s (256 + 8 * i) (leBytes 4 0 ++ leBytes 4 (2 ^ 32 - 1))) s
  if 4 ≤ steps then fwmProgram s 0xF8 (leBytes 4 0)
  else if !torn then s
  else match steps with
    | 1 => (fwmProgram s 0 (body.take (4 * (s.free % 64)))).drawn
    | 3 => (fwmProgram s 0xF8 (leBytes 4 (tornWord s 0))).drawn
    | _ => s

/-! The access record (R589). -/

def writeMask (s : State) : Nat := field (recordData s 29) 0 4
def incMask (s : State) : Nat := field (recordData s 29) 4 2

/-! Operations (R587, R592). -/

namespace FwmCode
def READ_RECORD : Nat := 1
def WRITE_RECORD : Nat := 2
def READ_COUNTERS : Nat := 3
def INCREMENT : Nat := 4
def READ_PAGE0 : Nat := 5
def PROVISION : Nat := 6
/-- READ BINARY of the emulated tag. -/
def READ_FILE : Nat := 7
end FwmCode

/-- The cause with which an operation of firmware fails before it runs (R592). -/
def fwmCause (s : State) (op index : Nat) : Nat :=
  if op = 0 ∨ 6 < op then 6
  else if (op = 1 ∨ op = 2) ∧ 29 < index ∨ op = 4 ∧ 15 < index then 1
  else if (op = 2 ∨ op = 4 ∨ op = 6) ∧ !s.inRun then 3
  else if op = 6 ∧ !decide (s.keys.lc = 1 ∨ s.keys.lc = 2) then 3
  else 0

/-- A write of NFC_FWM_CMD: without GO, while BUSY, or before BOOT_ROM, it is ignored. -/
def writeFwmCmd (s : State) (v : Nat) : State :=
  if !bit v 63 || s.flag Reg.NFC_FWM_STATUS.BUSY || decide (s.boot < Boot.BOOT_ROM) then s
  else
    let op := bits v 62 59
    let index := bits v 44 40
    let o : FwmOp := { op := op, index := index, addr := bits v 39 8 * 256, cause := fwmCause s op index }
    { s.setFlag Reg.NFC_FWM_STATUS.BUSY true with fwm := s.fwm ++ [o] }

/-- The data of a record write: firmware's 240 octets, or the contactless update of the current copy (R577). -/
def writeData (s : State) (o : FwmOp) : List Byte :=
  if o.emu then
    let old := recordData s o.index
    old.take o.ofs ++ o.data ++ old.drop (o.ofs + o.data.length)
  else s.ddr o.addr 240

/-- Run the effect of an operation; `steps` of its steps, the next one torn when `torn` is set. -/
def fwmRun (s : State) (o : FwmOp) (steps : Nat) (torn : Bool) : State :=
  match o.op with
  | 2 => recordWrite s o.index (writeData s o) steps torn
  | 4 => ctrIncrement s o.index steps torn
  | 6 => provisionPage s (s.ddr o.addr 256) steps torn
  | _ => s

/-- The operation under way is cut by a loss of power (R584, R586, R588): after which step is open. -/
def fwmTear (s : State) (o : FwmOp) : State :=
  if o.started ∧ o.cause = 0 then fwmRun s.drawn o (s.free % 5) true else s

/-- A restart abandons firmware's operations and those of an ACTIVE session; the harvest domain keeps the others. -/
def fwmRestart (s : State) : State :=
  let mine := s.fwm.filter fun o => !o.emu || o.active
  let s := mine.foldl fwmTear s
  { s with fwm := s.fwm.filter fun o => o.emu && !o.active }

/-- Write octets to LP4X for firmware, where they fit. -/
def dmaWrite (s : State) (a : Nat) (bs : List Byte) : State := s.onlyIf (s.inLp4x a bs.length) fun s => s.ddrWrite a bs

/-- What a read delivers to firmware. -/
def fwmDeliver (s : State) (o : FwmOp) : State :=
  match o.op with
  | 1 => dmaWrite s o.addr (recordData s o.index)
  | 3 => dmaWrite s o.addr ((List.range 16).flatMap fun c =>
      leBytes 8 ((ctrRead s c).getD 0 + at' (b2n (ctrRead s c).isSome) 1 63))
  | 5 => dmaWrite s o.addr (s.fwmRead 0 256)
  | _ => s

/-- An operation of firmware ends. `failed` names the step at which a margin read failed. -/
def fwmEnd (s : State) (o : FwmOp) (failed : Option Nat) : State :=
  let writes := decide (o.op = 2 ∨ o.op = 4 ∨ o.op = 6)
  let cause :=
    if o.cause ≠ 0 then o.cause
    else if o.op = 6 && pageLocked s then 2
    else if o.op = 4 && decide ((ctrRead s o.index).getD 0 = 2 ^ 24 - 1) then 4
    else if writes && failed.isSome then 5 else 0
  let s := if cause = 0 then fwmDeliver (fwmRun s o 4 false) o
    else if cause = 5 then fwmRun s o (failed.getD 0) true else s
  let s := s.onlyIf (decide (o.op = 1 ∨ o.op = 2) && decide (o.cause = 0)) fun s =>
    s.set Reg.NFC_FWM_STATUS.VERSION (recordVersion s o.index)
  let s := (s.setFlag Reg.NFC_FWM_STATUS.BUSY false).setFlag Reg.NFC_FWM_STATUS.DONE true
  let s := s.set Reg.NFC_FWM_STATUS.CAUSE cause
  s.onlyIf (decide (cause ≠ 0)) fun s => s.setFlag Reg.NFC_FWM_STATUS.FAIL true

/-! Replies of the emulated tag (R576, R578). -/

/-- The carrier count at which a reply starts: `n` of at least 9 such that the reply is ready. -/
def frameDelay (lastBit : Bool) (ready : Nat) : Nat :=
  let base := if lastBit then 84 else 20
  max 9 (ceilDiv (ready - base) 128) * 128 + base

/-- A reply of whole octets. -/
def tagReply (s : State) (lastBit : Bool) (ready : Nat) (octets : List Byte) : State :=
  s.emit (.tagReply (frameDelay lastBit ready) (8 * octets.length) octets)

/-- A status word, after the data of the reply. -/
def swReply (s : State) (lastBit : Bool) (ready : Nat) (data : List Byte) (sw : Nat) : State :=
  tagReply s lastBit ready (data ++ beBytes 2 sw)

/-- The files of R577: the record that a file holds. -/
def fileRecord (f : Nat) : Option Nat :=
  if f = 0xE104 then some 0 else if 0xE111 ≤ f ∧ f ≤ 0xE12D then some (f - 0xE110) else none

/-- The contents of a file (R577). -/
def fileBytes (s : State) (f : Nat) : Option (List Byte) :=
  if f = 0xE103 then
    some [0x00, 0x0F, 0x20, 0x00, 0xF0, 0x00, 0xF0, 0x04, 0x06, 0xE1, 0x04, 0x00, 0xF0, 0x00, if bit (writeMask s) 0 then 0x00 else 0xFF]
  else if f = 0xE1F0 then some (s.fwmRead 0 81)
  else if f = 0xE1F1 then some ((List.range 16).flatMap fun c => beBytes 3 ((ctrRead s c).getD 0))
  else (fileRecord f).map (recordData s)

/-- An operation of the emulated tag ends, with its reply. -/
def emuEnd (s : State) (o : FwmOp) (failed : Option Nat) : State :=
  let wrote (s : State) : State := (s.setFlag Reg.NFC_FWM_STATUS.EMU_WRITE true).bump Reg.NFC_EMU_CTRL.WRITES
  let replied (s : State) (data : List Byte) (sw : Nat) : State :=
    s.onlyIf s.nfc.emu.isSome fun s => swReply s o.last o.ready data sw
  match o.op with
  | 7 => replied s ((((fileBytes s o.index).getD []).drop o.ofs).take o.len) 0x9000
  | 4 =>
    if (ctrRead s o.index).getD 0 = 2 ^ 24 - 1 then replied s [] 0x6A84
    else match failed with
      | some k => replied (fwmRun s o k true) [] 0x6581
      | none =>
        let s := wrote (fwmRun s o 4 false)
        replied s (beBytes 3 ((ctrRead s o.index).getD 0)) 0x9000
  | _ => match failed with
    | some k => replied (fwmRun s o k true) [] 0x6581
    | none => replied (wrote (fwmRun s o 4 false)) [] 0x9000

/-- The commands of NFC_FWM_CMD (R583 to R586, R582): the OP written is the row's. -/
def fwmStart (op dt : Nat) (value : Word) (s : State) : Result :=
  step' dt s fun s => (writeFwmCmd s (putBits (putBits value.toNat 63 63 1) 62 59 op)).answer 0
def execFwmReadRecord (dt : Nat) (value : Word) (s : State) : Result := fwmStart 1 dt value s
def execFwmWriteRecord (dt : Nat) (value : Word) (s : State) : Result := fwmStart 2 dt value s
def execFwmReadCounters (dt : Nat) (value : Word) (s : State) : Result := fwmStart 3 dt value s
def execFwmIncrement (dt : Nat) (value : Word) (s : State) : Result := fwmStart 4 dt value s
def execFwmReadPage0 (dt : Nat) (value : Word) (s : State) : Result := fwmStart 5 dt value s
def execFwmProvision (dt : Nat) (value : Word) (s : State) : Result := fwmStart 6 dt value s

/-- FWM_OP_START (R587): the operation at the head starts once the one before it has ended. -/
def execFwmOpStart (dt : Nat) (s : State) : Result :=
  step' dt s fun s => match s.fwm with
    | [] => s
    | o :: rest => { s with fwm := { o with started := true } :: rest }

/-- FWM_OP_DONE (R587). -/
def execFwmOpDone (dt : Nat) (failed : Option Nat) (s : State) : Result :=
  step' dt s fun s => match s.fwm with
    | [] => s
    | o :: rest =>
      s.onlyIf o.started fun s =>
        let s := { s with fwm := rest }
        let failed := failed.map fun k => k % 4
        if o.emu then emuEnd s o failed else fwmEnd s o failed

end Sys2Proof.Machine
end

