-- ==== Sys2Proof/Machine/Otp.lean ====
section
/-!
DEFINITION. The OTP (R519 to R524): generations, thermometers, what is sensed of them, and burning.
-/

namespace Sys2Proof.Machine

/-! Generations (R521, R522). -/

/-- A kind of generation: its first word, the words of one, and how many there are. -/
structure GenKind where
  base : Nat
  words : Nat
  count : Nat

def ownerGens : GenKind := { base := 32, words := 16, count := 8 }
def settingsGens : GenKind := { base := 512, words := 128, count := 4 }

/-- First word of a generation. -/
def GenKind.at' (k : GenKind) (g : Nat) : Nat := k.base + k.words * g

/-- Octets of `n` OTP words from word `w`. -/
def otpBytes (s : State) (w n : Nat) : List Byte := (List.range n).flatMap fun i => leBytes 8 (s.otp (w + i))

/-- The COMMIT word of content (R522). -/
def commitOf (content : List Byte) : Nat := leNat ((sha256 content).take 8)

/-- Every word of a generation reads zero. -/
def genEmpty (s : State) (k : GenKind) (g : Nat) : Bool := (List.range k.words).all fun i => decide (s.otp (k.at' g + i) = 0)

/-- COMMIT matches the other octets. -/
def genCommitted (s : State) (k : GenKind) (g : Nat) : Bool :=
  !genEmpty s k g && decide (s.otp (k.at' g + k.words - 1) = commitOf (otpBytes s (k.at' g) (k.words - 1)))

/-- The current generation: the highest COMMITTED one. -/
def currentGen (s : State) (k : GenKind) : Option Nat := ((List.range k.count).filter (genCommitted s k)).getLast?

/-- The next free generation: the lowest EMPTY one above every other; `count` when the kind is frozen. -/
def nextGen (s : State) (k : GenKind) : Nat :=
  match ((List.range k.count).filter fun g => !genEmpty s k g).getLast? with
  | none => 0
  | some g => g + 1

/-- How many generations are still EMPTY above the last one used (R75). -/
def gensLeft (s : State) (k : GenKind) : Nat := k.count - nextGen s k

/-! Thermometers (R523, R524). -/

/-- The life-cycle state code: one more than the highest set bit of the LC thermometer. -/
def otpLc (s : State) : Nat :=
  match ((List.range 5).filter fun n => bit (s.otp 0) n).getLast? with
  | none => 0
  | some n => n + 1

/-- Bit `n` of the anti-rollback thermometer. -/
def arbBit (s : State) (n : Nat) : Bool := bit (s.otp (8 + n / 64)) (n % 64)

/-- The anti-rollback level: set bits from bit 0 up to the first clear one. -/
def arbLevel (s : State) : Nat := ((List.range 128).takeWhile (arbBit s)).length

/-- The sensed fields take their values (R555). -/
def senseOtp (s : State) : State :=
  let cur := currentGen s ownerGens
  let set := currentGen s settingsGens
  let s := (s.set Reg.KEYS_STATUS.LC (otpLc s)).setFlag Reg.KEYS_STATUS.UPDATE_LOCK (bit (s.otp 7) 0)
  let s := (s.setFlag Reg.KEYS_STATUS.CUR_VALID cur.isSome).set Reg.KEYS_STATUS.CUR_GEN (cur.getD 0)
  let s := (s.set Reg.KEYS_STATUS.NEXT_GEN (nextGen s ownerGens)).set Reg.KEYS_STATUS.ARB_LEVEL (arbLevel s)
  let s := (s.setFlag Reg.KEYS_STATUS.SET_VALID set.isSome).set Reg.KEYS_STATUS.SET_GEN (set.getD 0)
  (s.set Reg.KEYS_DEVICE_ID.DEVICE_ID (s.otp 1)).set Reg.KEYS_OTP_DATA.DATA 0

/-- The word that KEYS_OTP_DATA shows (R519, R555). -/
def otpShown (s : State) (w : Nat) : Nat :=
  if !s.keys.sensed || decide (2 ≤ w ∧ w ≤ 6) || decide (160 ≤ w ∧ w ≤ 511) then 0 else s.otp w

/-! Burning (R520, R522, R523, R526). -/

/-- Burn words in order. -/
def burnWords (s : State) (plan : List (Nat × Nat)) : State := plan.foldl (fun s p => s.otpBurn p.1 p.2) s

/-- The words of a generation's burn: its content without zero words in ascending order, then COMMIT. -/
def genPlan (k : GenKind) (g : Nat) (content : List Byte) : List (Nat × Nat) :=
  (((List.range (k.words - 1)).map fun i => (k.at' g + i, field content (8 * i) 8)).filter fun p => decide (p.2 ≠ 0)) ++
    [(k.at' g + k.words - 1, commitOf (content ++ List.replicate (8 * (k.words - 1) - content.length) 0))]

/-- The burns of an LC_ADVANCE to a state (R526): the target's bit, then every lower clear bit in descending order. -/
def lcPlan (s : State) (target : Nat) : List (Nat × Nat) :=
  (0, 2 ^ (target - 1)) :: (((List.range (target - 1)).reverse.filter fun n => !bit (s.otp 0) n).map fun n => (0, 2 ^ n))

/-- The burns that raise the anti-rollback level (R523). -/
def arbPlan (s : State) (level : Nat) : List (Nat × Nat) :=
  ((List.range (min level 128)).filter fun n => !arbBit s n).map fun n => (8 + n / 64, 2 ^ (n % 64))

/-- An interrupted burn: how many words, and how much of the last one, are burned is open (R522, R523, R526). `whole` says
that the last word may be burned too. -/
def tearBurn (s : State) (plan : List (Nat × Nat)) (whole : Bool) : State :=
  let n := if whole then plan.length + 1 else plan.length
  let k := s.free % max 1 n
  let s := burnWords s.drawn (plan.take k)
  if !whole then s
  else match plan[k]? with
    | none => s
    | some p => s.drawn.otpBurn p.1 (p.2 &&& s.free)

/-! Settings (R553, R637). -/

/-- An octet of the current settings generation. -/
def settingByte (s : State) (off n : Nat) : Nat :=
  match currentGen s settingsGens with
  | none => 0
  | some g => field (otpBytes s (settingsGens.at' g) 127) off n

def updBattMin (s : State) : Nat := let v := settingByte s 0x40 2; if v = 0 then 3400 else v
def trialStarts (s : State) : Nat := let v := settingByte s 0x42 1; if v = 0 then 3 else v

/-- The Goose takes its settings (R553). -/
def gooseSettings (s : State) : State :=
  (List.range 9).foldl (fun s n =>
    match currentGen s settingsGens with
    | none =>
      let s := (s.setFlag (Reg.GOOSE_SRC.EN n) (decide (6 ≤ n))).setFlag (Reg.GOOSE_SRC.POL n) false
      (s.set (Reg.GOOSE_SRC.RESPONSE n) (if 6 ≤ n then 1 else 0)).set (Reg.GOOSE_SRC.DEB n) 0
    | some _ =>
      let b := settingByte s (4 * n)
      let s := (s.setFlag (Reg.GOOSE_SRC.EN n) (bit (b 1) 0)).setFlag (Reg.GOOSE_SRC.POL n) (bit (b 1) 1 && decide (n < 4))
      (s.set (Reg.GOOSE_SRC.RESPONSE n) (min 7 (settingByte s (4 * n + 1) 1))).set (Reg.GOOSE_SRC.DEB n)
        (if n < 6 then settingByte s (4 * n + 2) 1 else 0)) s

end Sys2Proof.Machine
end

