-- ==== Sys2Proof/Machine/P256.lean ====
section
/-!
DEFINITION. The curve P-256 of FIPS 186 and SP 800-186, and what the chapters do on it: ECDSA verification (R68, R535, R573), the
public key of a scalar and the shared secret of two keys (R531, R537). Points are in Jacobian coordinates.
-/

namespace Sys2Proof.Machine

/-- The field, the order, the coefficient b and the base point. -/
def pField : Nat := 0xffffffff00000001000000000000000000000000ffffffffffffffffffffffff
def pOrder : Nat := 0xffffffff00000000ffffffffffffffffbce6faada7179e84f3b9cac2fc632551
def pB : Nat := 0x5ac635d8aa3a93e7b3ebbd55769886bc651d06b0cc53b0f63bce3c3e27d2604b
def pGx : Nat := 0x6b17d1f2e12c4247f8bce6e563a440f277037d812deb33a0f4a13945d898c296
def pGy : Nat := 0x4fe342e2fe1a7f9b8ee7eb4a7c0f9e162bce33576b315ececbb6406837bf51f5

/-- A difference in the field. -/
def subP (a b : Nat) : Nat := (a + pField - b % pField) % pField

/-- `a` to the power `e`, of at most 256 bits, modulo `m`. -/
def powMod (m a e : Nat) : Nat :=
  (List.range 256).foldl (fun r i =>
    let r := r * r % m
    if bit e (255 - i) then r * a % m else r) 1

/-- A point: X and Y of (X/Z², Y/Z³); Z = 0 is the point at infinity. -/
structure CurvePoint where
  x : Nat
  y : Nat
  z : Nat

/-- The point at infinity. -/
def pInfinity : CurvePoint := { x := 1, y := 1, z := 0 }

/-- Twice a point. -/
def pDouble (p : CurvePoint) : CurvePoint :=
  let yy := p.y * p.y % pField
  let s := 4 * p.x * yy % pField
  let zz := p.z * p.z % pField
  let m := 3 * subP p.x zz * (p.x + zz) % pField
  let x := subP (m * m % pField) (2 * s)
  { x := x, y := subP (m * subP s x % pField) (8 * yy * yy), z := 2 * p.y * p.z % pField }

/-- The sum of two points. -/
def pAdd (p q : CurvePoint) : CurvePoint :=
  if p.z = 0 then q
  else if q.z = 0 then p
  else
    let z1 := p.z * p.z % pField
    let z2 := q.z * q.z % pField
    let u1 := p.x * z2 % pField
    let u2 := q.x * z1 % pField
    let s1 := p.y * q.z * z2 % pField
    let s2 := q.y * p.z * z1 % pField
    let h := subP u2 u1
    let r := subP s2 s1
    if h = 0 then (if r = 0 then pDouble p else pInfinity)
    else
      let hh := h * h % pField
      let hhh := h * hh % pField
      let v := u1 * hh % pField
      let x := subP (subP (r * r % pField) hhh) (2 * v)
      { x := x, y := subP (r * subP v x % pField) (s1 * hhh), z := h * p.z * q.z % pField }

/-- A multiple of a point by a number of at most 256 bits. -/
def pMul (k : Nat) (p : CurvePoint) : CurvePoint :=
  (List.range 256).foldl (fun r i =>
    let r := pDouble r
    if bit k (255 - i) then pAdd r p else r) pInfinity

/-- The affine coordinates of a point; `none` at infinity. -/
def pAffine (p : CurvePoint) : Option (Nat × Nat) :=
  if p.z = 0 then none
  else
    let i := powMod pField p.z (pField - 2)
    some (p.x * i * i % pField, p.y * i * i * i % pField)

/-- Is (X, Y), big-endian, a point of the curve? -/
def onP256 (x y : List Byte) : Bool :=
  let a := beNat x
  let b := beNat y
  decide (a < pField ∧ b < pField ∧ b * b % pField = (a * a * a + pField * 3 - 3 * a + pB) % pField)

/-- The point with these affine coordinates. -/
def pointOf (x y : List Byte) : CurvePoint := { x := beNat x, y := beNat y, z := 1 }

/-- ECDSA: does (r, s) sign the 32-octet digest under the public key (X, Y)? -/
def ecdsaOk (x y digest r s : List Byte) : Bool :=
  let rn := beNat r
  let sn := beNat s
  let w := powMod pOrder sn (pOrder - 2)
  let sum := pAdd (pMul (beNat digest * w % pOrder) { x := pGx, y := pGy, z := 1 }) (pMul (rn * w % pOrder) (pointOf x y))
  onP256 x y && decide (1 ≤ rn ∧ rn < pOrder ∧ 1 ≤ sn ∧ sn < pOrder) &&
    (match pAffine sum with
     | none => false
     | some a => decide (a.1 % pOrder = rn))

/-- The public key of a scalar, X then Y, 32 octets each, big-endian. -/
def publicKey (d : List Byte) : List Byte :=
  match pAffine (pMul (beNat d) { x := pGx, y := pGy, z := 1 }) with
  | none => List.replicate 64 0
  | some a => beBytes 32 a.1 ++ beBytes 32 a.2

/-- The x-coordinate of d times the point (X, Y), big-endian. -/
def sharedX (d x y : List Byte) : List Byte :=
  match pAffine (pMul (beNat d) (pointOf x y)) with
  | none => List.replicate 32 0
  | some a => beBytes 32 a.1

end Sys2Proof.Machine
end

