-- ==== Sys2Proof/Machine/Keys.lean ====
section
/-!
DEFINITION. The KEYS block (R527 to R545): the key ladder, owner messages, attestation and the commands of KEYS_CMD.
-/

namespace Sys2Proof.Machine

/-- Put the KEYS block. -/
def State.setKeys (s : State) (k : KeysState) : State := { s with keys := k }

/-! The key ladder (R529 to R531). -/

/-- The octets of an ASCII text. -/
def ascii (t : String) : List Byte := t.toList.map fun c => BitVec.ofNat 8 c.toNat

/-- The KDF of R529: the first `l` bits. -/
def kdf (ki label context : List Byte) (l : Nat) : List Byte :=
  ((List.range (ceilDiv l 256)).flatMap fun i =>
    hmac ki (beBytes 4 (i + 1) ++ label ++ [0] ++ context ++ beBytes 4 l)).take (l / 8)

/-- DEVICE_ID as a big-endian integer. -/
def idOctets (s : State) : List Byte := beBytes 8 (s.get Reg.KEYS_DEVICE_ID.DEVICE_ID)

/-- The UDS and the TEST root (R519, R524). -/
def uds (s : State) : List Byte := otpBytes s 2 4
def testRoot : List Byte := (List.range 32).map (BitVec.ofNat 8)

/-- The root of R524 and R527. -/
def ladderRoot (s : State) : List Byte :=
  if s.flag Reg.KEYS_STATUS.DEBUG then testRoot
  else match s.keys.lc with
    | 2 => kdf (uds s) (ascii "PBE960 DEV") (idOctets s) 256
    | 3 => kdf (uds s) (ascii "PBE960 FIELD") (idOctets s) 256
    | 4 => kdf (uds s) (ascii "PBE960 RETURN") (idOctets s) 256
    | _ => testRoot

/-- The order of P-256. -/
def p256Order : Nat := 0xFFFFFFFF00000000FFFFFFFFFFFFFFFFBCE6FAADA7179E84F3B9CAC2FC632551

/-- Fill a slot: its attributes and its key. -/
def slotPut (s : State) (n origin size : Nat) (exportable : Bool) (usage : Nat) (key : List Byte) : State :=
  let s := (s.setFlag (Reg.KEYS_SLOT.VALID n) true).set (Reg.KEYS_SLOT.ORIGIN n) origin
  let s := (s.set (Reg.KEYS_SLOT.SIZE n) size).setFlag (Reg.KEYS_SLOT.EXPORT n) exportable
  let s := s.set (Reg.KEYS_SLOT.USAGE n) usage
  s.setCrypto { s.crypto with slotKeys := Cells.set s.crypto.slotKeys n key [] }

/-- Empty a slot. -/
def slotClear (s : State) (n : Nat) : State :=
  let s := (s.setFlag (Reg.KEYS_SLOT.VALID n) false).set (Reg.KEYS_SLOT.ORIGIN n) 0
  let s := (s.set (Reg.KEYS_SLOT.SIZE n) 0).setFlag (Reg.KEYS_SLOT.EXPORT n) false
  let s := s.set (Reg.KEYS_SLOT.USAGE n) 0
  s.setCrypto { s.crypto with slotKeys := Cells.erase s.crypto.slotKeys n }

/-- The ladder runs (R531). -/
def runLadder (s : State) : State :=
  let root := ladderRoot s
  let gen := s.get Reg.KEYS_STATUS.CUR_GEN
  let d := beBytes 32 (beNat (kdf root (ascii "PBE960 IDENT") (idOctets s) 384) % (p256Order - 1) + 1)
  let s := slotPut s 0 1 1 false 0x10 d
  let s := slotPut s 1 1 1 true 0x20 (kdf root (ascii "PBE960 ATTEST") (idOctets s ++ beBytes 4 gen) 256)
  let s := slotPut s 2 1 1 true 0x08 (kdf root (ascii "PBE960 KEK") (idOctets s) 256)
  let s := (List.range 29).foldl (fun s n => slotClear s (n + 3)) s
  let s := (List.range 8).foldl (fun s k => s.set (Reg.KEYS_IDENT_PUB.PUB k) (fieldBE (publicKey d) (8 * k) 8)) s
  let s := s.setKeys { s.keys with attGen := gen, laddered := true }
  (s.setFlag Reg.KEYS_STATUS.LADDER true).setFlag Reg.KEYS_STATUS.ZEROIZED false

/-! Zeroisation and results (R528, R545, R547). -/

/-- Every result register becomes zero. -/
def clearResults (s : State) : State :=
  (List.range 16).foldl (fun s k => (s.setFlag (Reg.KEYS_RESULT.VALID k) false).set (Reg.KEYS_RESULT.DATA k) 0) s

/-- Zeroise the slots, the key cache, the group-key slots and the result registers. -/
def zeroise (s : State) : State :=
  let s := (List.range 32).foldl slotClear s
  let s := (List.range 64).foldl gkEmpty (flushKeys s)
  let s := (List.range 8).foldl (fun s k => s.set (Reg.KEYS_IDENT_PUB.PUB k) 0) s
  ((clearResults s).setFlag Reg.KEYS_STATUS.LADDER false).setFlag Reg.KEYS_STATUS.ZEROIZED true

/-- A fresh NONCE (R536). -/
def drawNonce (s : State) : State :=
  let s := (s.set (Reg.KEYS_NONCE.NONCE 0) s.free).drawn
  (s.set (Reg.KEYS_NONCE.NONCE 1) s.free).drawn

/-- NONCE as octets. -/
def nonceOctets (s : State) : List Byte := leBytes 8 (s.get (Reg.KEYS_NONCE.NONCE 0)) ++ leBytes 8 (s.get (Reg.KEYS_NONCE.NONCE 1))

/-! Causes (R544). -/

namespace KeysCause
def OK : Nat := 0x00
def FORMAT : Nat := 0x01
def DEVICE : Nat := 0x02
def GEN : Nat := 0x03
def STATE : Nat := 0x04
def SIGNATURE : Nat := 0x05
def NONCE : Nat := 0x06
def FROZEN : Nat := 0x07
def USAGE : Nat := 0x08
def SLOT : Nat := 0x09
def UNWRAP : Nat := 0x0A
def TAG : Nat := 0x0B
def OTP : Nat := 0x0C
def LOCKED : Nat := 0x0D
def TAMPER : Nat := 0x0E
def ACTIVE : Nat := 0x0F
end KeysCause

/-- The first failing check, as its cause. -/
def firstCause (cs : List (Bool × Nat)) : Nat := ((cs.find? fun c => !c.1).map Prod.snd).getD 0

/-! Input (R542, R719). -/

/-- `n` octets of an operation's message or block. -/
def keysInput (s : State) (o : KeysOp) (n : Nat) : List Byte :=
  let a := s.get Reg.KEYS_MSG_ADDR.ADDR * 8
  if o.jtag then ((List.range (ceilDiv n 8)).flatMap fun i => leBytes 8 (Cells.get s.keys.jtagBuf i 0).toNat).take n
  else if s.inLp4x a n then s.ddr a n else []

/-- Write octets back into a block. -/
def keysOutput (s : State) (o : KeysOp) (off : Nat) (bs : List Byte) : State :=
  if o.jtag then s.setKeys { s.keys with
    jtagBuf := (List.range 256).foldl (fun m i =>
      let old := leBytes 8 (Cells.get m i 0).toNat
      let new := old.mapIdx fun j b => if off ≤ 8 * i + j then (bs[8 * i + j - off]?).getD b else b
      Cells.set m i (BitVec.ofNat 64 (leNat new)) 0) s.keys.jtagBuf }
  else s.ddrWrite (s.get Reg.KEYS_MSG_ADDR.ADDR * 8 + off) bs

/-! Owner messages (R535 to R539). -/

/-- LENGTH of a TYPE (R536, R637); 0 for an unknown one. -/
def msgLength : Nat → Nat
  | 1 => 168 | 2 => 104 | 3 => 112 | 4 => 208 | 5 => 168 | 6 => 120 | 7 => 104 | 8 => 1120
  | _ => 0

/-- The current owner generation and its public key. -/
def ownerGen (s : State) : Nat := s.get Reg.KEYS_STATUS.CUR_GEN
def ownerX (s : State) : List Byte := otpBytes s (ownerGens.at' (ownerGen s)) 4
def ownerY (s : State) : List Byte := otpBytes s (ownerGens.at' (ownerGen s) + 4) 4

/-- Is a message permitted in the present state (R525, R542)? -/
def msgPermitted (s : State) (type : Nat) (body : List Byte) : Bool :=
  let lc := s.keys.lc
  let valid := s.flag Reg.KEYS_STATUS.CUR_VALID
  let burns := decide (lc = 1) && valid || decide (lc = 2 ∨ lc = 3)
  match type with
  | 1 => burns
  | 2 =>
    let t := field body 0 1
    decide (t < 2 ∨ 5 < t) || decide (t = 5 ∧ 1 ≤ lc ∧ lc ≤ 4) || (decide (lc = 1 ∧ (t = 2 ∨ t = 3)) && valid) ||
      decide (lc = 2 ∧ t = 3) || decide (lc = 3 ∧ t = 4)
  | 3 => decide (2 ≤ lc ∧ lc ≤ 4) && !s.flag Reg.KEYS_STATUS.DEBUG
  | 4 => s.flag Reg.KEYS_STATUS.LADDER
  | 5 => s.flag Reg.KEYS_STATUS.LADDER
  | 6 => true
  | 7 => decide (lc = 2 ∨ lc = 3)
  | _ => burns

/-- Is the signature waived (R525, R527, R550)? -/
def sigWaived (s : State) (type : Nat) (body : List Byte) : Bool :=
  let lc := s.keys.lc
  (decide (type = 2 ∧ lc = 1 ∧ field body 0 1 = 5) && !s.flag Reg.KEYS_STATUS.CUR_VALID) ||
    decide (type = 3 ∧ (lc = 2 ∨ lc = 4)) || decide (type = 6 ∧ lc = 1)

/-- Z of R537. -/
def sharedZ (s : State) (qx qy : List Byte) : List Byte := sharedX (Cells.get s.crypto.slotKeys 0 []) qx qy

/-- A wrapping key of R530. -/
def wrapKey (s : State) (label : String) (slot : Nat) (qx qy : List Byte) : List Byte :=
  kdf (sharedZ s qx qy) (ascii label) (idOctets s ++ beBytes 4 (ownerGen s) ++ [BitVec.ofNat 8 slot]) 256

/-- GEN and FROZEN of a new generation (R538, R637). -/
def genCause (s : State) (k : GenKind) (g : Nat) : Nat :=
  if nextGen s k = k.count then KeysCause.FROZEN else if g ≠ nextGen s k then KeysCause.GEN else 0

/-- The body rules (R537 step 7). -/
def bodyCause (s : State) (type : Nat) (b : List Byte) : Nat :=
  match type with
  | 1 => genCause s ownerGens (field b 0 4)
  | 2 => if field b 0 1 < 2 ∨ 5 < field b 0 1 then KeysCause.FORMAT else 0
  | 4 =>
    let qx := (b.drop 8).take 32
    let qy := (b.drop 40).take 32
    let slot := field b 0 1
    let n := if field b 2 1 = 0 then 24 else 40
    firstCause [(decide (3 ≤ slot ∧ slot ≤ 31), KeysCause.SLOT), (!bit (field b 1 1) 5, KeysCause.FORMAT),
      (decide (field b 2 1 ≤ 1), KeysCause.FORMAT), (onP256 qx qy, KeysCause.FORMAT),
      ((keyUnwrap (wrapKey s "PBE960 IMPORT" slot qx qy) ((b.drop 72).take n)).isSome, KeysCause.UNWRAP)]
  | 5 =>
    let slot := field b 0 1
    firstCause [(decide (slot = 1 ∨ slot = 2) && s.flag (Reg.KEYS_SLOT.EXPORT slot), KeysCause.SLOT),
      (onP256 ((b.drop 8).take 32) ((b.drop 40).take 32), KeysCause.FORMAT)]
  | 8 => if field b 4 4 ≠ 0 then KeysCause.FORMAT else genCause s settingsGens (field b 0 4)
  | _ => 0

/-- The checks of R537 on a message. -/
def msgCause (s : State) (o : KeysOp) (type : Nat) : Nat :=
  let len := msgLength type
  let m := keysInput s o len
  let body := (m.drop 0x20).take (len - 96)
  let sig := (m.drop (len - 64)).take 64
  let head := firstCause [
    (decide (field m 0 4 = 0x4B45594D ∧ field m 4 2 = type ∧ field m 6 2 = len), KeysCause.FORMAT),
    (decide (field m 8 8 ≠ 0 ∧ field m 8 8 = s.get Reg.KEYS_DEVICE_ID.DEVICE_ID), KeysCause.DEVICE),
    (decide (field m 0x10 4 = ownerGen s), KeysCause.GEN),
    (msgPermitted s type body, KeysCause.STATE),
    (sigWaived s type body || (s.flag Reg.KEYS_STATUS.CUR_VALID &&
      ecdsaOk (ownerX s) (ownerY s) (sha256 (m.take (len - 64))) (sig.take 32) (sig.drop 32)), KeysCause.SIGNATURE),
    (decide ((type ≠ 3 ∧ type ≠ 6) ∨ body.take 16 = nonceOctets s), KeysCause.NONCE)]
  if head ≠ 0 then head else bodyCause s type body

/-- The body of a message. -/
def msgBody (s : State) (o : KeysOp) (type : Nat) : List Byte := ((keysInput s o (msgLength type)).drop 0x20).take (msgLength type - 96)

/-! Blocks (R543). -/

/-- The checks of a DERIVE block. -/
def deriveCause (s : State) (b : List Byte) : Nat :=
  let u := field b
  let label := (b.drop 8).take (u 4 1)
  firstCause [(!bit (u 2 1) 5, KeysCause.FORMAT), (decide (u 3 1 ≤ 1), KeysCause.FORMAT),
    (decide (1 ≤ u 4 1 ∧ u 4 1 ≤ 32 ∧ u 5 1 ≤ 64 ∧ u 6 2 = 0), KeysCause.FORMAT),
    (decide (label.take 6 ≠ ascii "PBE960"), KeysCause.FORMAT),
    (decide (u 0 1 ≤ 31 ∧ 3 ≤ u 1 1 ∧ u 1 1 ≤ 31), KeysCause.SLOT), (slotHas s (u 0 1) 4, KeysCause.USAGE)]

/-- A DERIVE block takes effect. -/
def deriveKey (s : State) (b : List Byte) : State :=
  let u := field b
  let key := kdf (Cells.get s.crypto.slotKeys (u 0 1) []) ((b.drop 8).take (u 4 1)) ((b.drop (8 + u 4 1)).take (u 5 1))
    (if u 3 1 = 1 then 256 else 128)
  slotPut s (u 1 1) 3 (u 3 1) false (u 2 1 % 64) key

/-- The checks of a SEAL (usage 0) or OPEN (usage 1) block. -/
def sealCause (s : State) (b : List Byte) (usage : Nat) : Nat :=
  let u := field b
  firstCause [(decide (1 ≤ u 4 2 ∧ u 4 2 ≤ 4096 ∧ u 1 3 = 0 ∧ u 6 2 = 0 ∧ u 21 3 = 0), KeysCause.FORMAT),
    (decide (u 0 1 ≤ 31), KeysCause.SLOT), (slotHas s (u 0 1) usage, KeysCause.USAGE)]

/-- Key, nonce and data of a block. -/
def sealKey (s : State) (b : List Byte) : List Byte := Cells.get s.crypto.slotKeys (field b 0 1) []
def sealNonce (b : List Byte) : List Byte := (b.drop 8).take 13
def sealData (b : List Byte) : List Byte := (b.drop 24).take (field b 4 2)

/-- The tag that an OPEN block must carry. -/
def openTagOk (s : State) (b : List Byte) : Bool :=
  let plain := ccmCrypt (sealKey s b) (sealNonce b) (sealData b)
  decide ((b.drop (24 + field b 4 2)).take 16 = ccmTag (sealKey s b) (sealNonce b) [] plain 16)

/-! Results (R540, R545). -/

/-- Put octets into the result registers from register `k`, four to each. -/
def putResults (s : State) (k : Nat) (bs : List Byte) : State :=
  (List.range (ceilDiv bs.length 4)).foldl (fun s i =>
    (s.set (Reg.KEYS_RESULT.DATA (k + i)) (field bs (4 * i) 4)).setFlag (Reg.KEYS_RESULT.VALID (k + i)) true) s

/-- Octet 40 of the attested message. -/
def attState (s : State) : Nat := s.keys.lc + 128 * b2n (s.flag Reg.KEYS_STATUS.DEBUG)

/-- ATTEST (R540, R541). -/
def attestNow (s : State) : State :=
  let ctr := nvValue s NvKind.ATT + 1
  let s := (nvTake s NvKind.ATT).2
  let chal := (List.range 4).flatMap fun k => leBytes 8 (s.get (Reg.KEYS_CHAL.CHAL k))
  let msg := chal ++ idOctets s ++ [BitVec.ofNat 8 (attState s)] ++ s.keys.meas ++ beBytes 4 s.keys.attGen ++ beBytes 8 ctr
  let s := putResults s 0 ((hmac (Cells.get s.crypto.slotKeys 1 []) msg).take 32)
  let s := putResults s 8 (leBytes 8 ctr ++ leBytes 1 (attState s) ++ leBytes 1 s.keys.attGen ++ [0, 0])
  s.set Reg.KEYS_ATT_CTR.ATT_CTR ctr

/-! The operations (R542). -/

/-- Every owner generation is EMPTY. -/
def noOwner (s : State) : Bool := decide (nextGen s ownerGens = 0)

/-- The cause with which an operation ends, before any burn. -/
def keysCause (s : State) (o : KeysOp) : Nat :=
  let run (c : Nat) : Nat := if s.inRun then c else KeysCause.STATE
  let lc := s.keys.lc
  let halted := decide (s.boot = Boot.TAMPER_HOLD) || !s.keys.sensed || decide (lc = 0 ∨ lc = 5)
  if o.op ≠ 6 ∧ s.flag Reg.KEYS_STATUS.LOCKED then KeysCause.LOCKED
  else if o.op ≠ 6 ∧ o.op ≠ 0x20 ∧ halted then KeysCause.STATE
  else match o.op with
    | 9 => if slotHas s 1 5 then 0 else KeysCause.USAGE
    | 0x0A => run (deriveCause s (keysInput s o 104))
    | 0x0B => run (if 3 ≤ o.slot then 0 else KeysCause.SLOT)
    | 0x0C => run (if o.level ≤ s.start.secVer then 0 else KeysCause.STATE)
    | 0x0D => run (sealCause s (keysInput s o 4136) 0)
    | 0x0E =>
      let b := keysInput s o 4136
      let c := sealCause s b 1
      run (if c ≠ 0 then c else if openTagOk s b then 0 else KeysCause.TAG)
    | 0x0F => run (if s.flag Reg.KEYS_STATUS.ZEROIZED then 0 else KeysCause.STATE)
    | 0x20 => if s.keys.sensed ∧ lc = 0 ∧ o.jtag then 0 else KeysCause.STATE
    | 0x21 => if lc = 1 ∧ noOwner s then 0 else KeysCause.STATE
    | _ => if msgLength o.op = 0 then KeysCause.FORMAT else msgCause s o o.op

/-- The words that an operation burns, in order; none for an operation that burns nothing. PROVISION draws UDS and seeds from
the random source. -/
def keysPlan (s : State) (o : KeysOp) : List (Nat × Nat) :=
  let b := msgBody s o o.op
  match o.op with
  | 1 => genPlan ownerGens (field b 0 4) ((b.drop 8).take 64)
  | 2 => lcPlan s (field b 0 1)
  | 7 => [(7, 1)]
  | 8 => genPlan settingsGens (field b 0 4) ((b.drop 8).take 1016)
  | 0x0C => arbPlan s o.level
  | 0x20 =>
    ((List.range 5).map fun i => (2 + i, Config.freeValue (s.freeCtr + i) % 2 ^ 64)) ++ [(1, field (keysInput s o 8) 0 8), (0, 1)]
  | 0x21 => genPlan ownerGens 0 (keysInput s o 64)
  | _ => []

/-- The sources that a GOOSE_CLEAR names, and those of them that are latched while their condition still holds. -/
def clearNamed (s : State) (o : KeysOp) : Nat := field (msgBody s o 6) 16 2 % 512

/-- Hand a write over to the always-on domain (R31). -/
def aonPush (s : State) (w : AonWrite) : State :=
  { s with aon := { s.aon with writes := s.aon.writes ++ [w], writeTick := if s.aon.writes.isEmpty then s.tick else s.aon.writeTick } }

/-- What an operation that burns nothing does. `holds` has a bit for each Goose source whose condition holds. -/
def keysEffect (s : State) (o : KeysOp) (holds : Nat) : State :=
  let b := msgBody s o o.op
  match o.op with
  | 3 => runLadder ((drawNonce (zeroise s)).setFlag Reg.KEYS_STATUS.DEBUG true)
  | 4 =>
    let slot := field b 0 1
    let n := if field b 2 1 = 0 then 24 else 40
    let key := (keyUnwrap (wrapKey s "PBE960 IMPORT" slot ((b.drop 8).take 32) ((b.drop 40).take 32)) ((b.drop 72).take n)).getD []
    slotPut s slot 2 (field b 2 1) false (field b 1 1 % 64) key
  | 5 =>
    let slot := field b 0 1
    let k := wrapKey s "PBE960 EXPORT" slot ((b.drop 8).take 32) ((b.drop 40).take 32)
    putResults s 0 ((keyWrap k (Cells.get s.crypto.slotKeys slot [])).take 40)
  | 6 => drawNonce (aonPush s (.clear (clearNamed s o &&& (511 - holds % 512))))
  | 9 => attestNow s
  | 0x0A => deriveKey s (keysInput s o 104)
  | 0x0B => slotClear s o.slot
  | 0x0D =>
    let b := keysInput s o 4136
    keysOutput s o 24 (ccmCrypt (sealKey s b) (sealNonce b) (sealData b) ++ ccmTag (sealKey s b) (sealNonce b) [] (sealData b) 16)
  | 0x0E =>
    let b := keysInput s o 4136
    keysOutput s o 24 (ccmCrypt (sealKey s b) (sealNonce b) (sealData b))
  | 0x0F => runLadder s
  | _ => s

/-- An operation ends (R544, R545). -/
def keysEnd (s : State) (cause : Nat) : State :=
  let s := s.setKeys { s.keys with op := none }
  let s := (s.setFlag Reg.KEYS_CMD_STATUS.BUSY false).setFlag Reg.KEYS_CMD_STATUS.DONE true
  let s := s.set Reg.KEYS_CMD_STATUS.CAUSE cause
  s.onlyIf (decide (cause ≠ 0)) fun s => (clearResults s).setFlag Reg.KEYS_CMD_STATUS.FAIL true

/-- A generation is burned, whether or not it ends COMMITTED: MON 15 counts the owner's, MON 16 those of the settings (R678). -/
def noteBurn (s : State) (o : KeysOp) : State :=
  let mon := if o.op = 1 ∨ o.op = 0x21 then 15 else 16
  s.onlyIf (decide (o.op = 1 ∨ o.op = 0x21 ∨ o.op = 8)) fun s =>
    { s with health := { s.health with burns := s.health.burns ++ [(mon, runTime s)] } }

/-- The running operation completes: `marginOk` is the margin read of a burn (R522, R538). -/
def keysComplete (s : State) (o : KeysOp) (marginOk : Bool) (holds : Nat) : State :=
  let cause := keysCause s o
  let plan := keysPlan s o
  if cause ≠ 0 then keysEnd s cause
  else if plan.isEmpty then
    let active := decide (o.op = 6 ∧ clearNamed s o &&& holds &&& s.get Reg.GOOSE_STATUS.LATCH ≠ 0)
    keysEnd (keysEffect s o holds) (if active then KeysCause.ACTIVE else 0)
  else
    let s := if o.op = 0x20 then { s with freeCtr := s.freeCtr + 5 } else noteBurn s o
    if marginOk then keysEnd (senseOtp (burnWords s plan)) 0
    else keysEnd (senseOtp (burnWords s (plan.take (plan.length - 1)))) KeysCause.OTP

/-- A KEYS operation is cut short (R522, R523, R526, R548): by a latch, with cause TAMPER, or by a restart. -/
def keysTear (s : State) (restart : Bool) : State :=
  match s.keys.op with
  | none => s
  | some o =>
    let thermometer := decide (o.op = 2 ∨ o.op = 0x0C)
    let s := if keysCause s o = 0 then tearBurn (noteBurn s o) (keysPlan s o) (restart || thermometer) else s
    if restart then s else keysEnd (clearResults (senseOtp s)) KeysCause.TAMPER

/-- A write of KEYS_CMD (R542): without GO, or while BUSY, it is ignored. -/
def writeKeysCmd (s : State) (init : Init) (v : Nat) : State :=
  if !bit v 63 || s.flag Reg.KEYS_CMD_STATUS.BUSY then s
  else
    let s := (clearResults s).setFlag Reg.KEYS_CMD_STATUS.BUSY true
    let s := s.set Reg.KEYS_CMD_STATUS.OP (bits v 55 48)
    s.setKeys { s.keys with op := some { op := bits v 55 48, level := bits v 15 8, slot := bits v 4 0, jtag := decide (init = .jtag), tick := s.tick } }

/-- A write of KEYS_CMD that asks for an operation. -/
def keysStart (dt : Nat) (init : Init) (op level slot : Nat) (s : State) : Result :=
  step' dt s fun s => (writeKeysCmd s init (2 ^ 63 + at' op 8 48 + at' level 8 8 + at' slot 5 0)).answer 0

/-- The commands of KEYS_CMD (R542). -/
def execKeyUpdate (dt : Nat) (init : Init) (s : State) : Result := keysStart dt init 0x01 0 0 s
def execLcAdvance (dt : Nat) (init : Init) (s : State) : Result := keysStart dt init 0x02 0 0 s
def execDebugUnlock (dt : Nat) (init : Init) (s : State) : Result := keysStart dt init 0x03 0 0 s
def execImportKeys (dt : Nat) (init : Init) (s : State) : Result := keysStart dt init 0x04 0 0 s
def execExportKeys (dt : Nat) (init : Init) (s : State) : Result := keysStart dt init 0x05 0 0 s
def execGooseClear (dt : Nat) (init : Init) (s : State) : Result := keysStart dt init 0x06 0 0 s
def execUpdateLock (dt : Nat) (init : Init) (s : State) : Result := keysStart dt init 0x07 0 0 s
def execSettings (dt : Nat) (init : Init) (s : State) : Result := keysStart dt init 0x08 0 0 s
def execAttest (dt : Nat) (init : Init) (s : State) : Result := keysStart dt init 0x09 0 0 s
def execDerive (dt : Nat) (init : Init) (s : State) : Result := keysStart dt init 0x0A 0 0 s
def execClearSlot (dt : Nat) (init : Init) (slot : Fin 32) (s : State) : Result := keysStart dt init 0x0B 0 slot s
def execArbAdvance (dt : Nat) (init : Init) (level : Byte) (s : State) : Result := keysStart dt init 0x0C level.toNat 0 s
def execSeal (dt : Nat) (init : Init) (s : State) : Result := keysStart dt init 0x0D 0 0 s
def execOpenBlob (dt : Nat) (init : Init) (s : State) : Result := keysStart dt init 0x0E 0 0 s
def execReladder (dt : Nat) (init : Init) (s : State) : Result := keysStart dt init 0x0F 0 0 s
def execProvision (dt : Nat) (init : Init) (s : State) : Result := keysStart dt init 0x20 0 0 s
def execOwnerInit (dt : Nat) (init : Init) (s : State) : Result := keysStart dt init 0x21 0 0 s

/-- KEYS_OP_DONE (R545): the running operation ends. An ATTEST waits for its counter (R638). -/
def execKeysOpDone (dt : Nat) (marginOk : Bool) (holds : BitVec 9) (s : State) : Result :=
  step' dt s fun s =>
    match s.keys.op with
    | none => s
    | some o => if o.op = 9 ∧ !nvReady s NvKind.ATT then s else keysComplete s o marginOk holds.toNat

/-- Did results become VALID in this cycle? -/
def resultsNew (s : State) : Bool :=
  (List.range 16).any fun k => s.flag (Reg.KEYS_RESULT.VALID k) && decide (s.before (Reg.KEYS_RESULT.VALID k) = 0)

/-- A write of KEYS_RESULT_ACK (R545): the results of an operation that completes in the same cycle stay. -/
def writeResultAck (s : State) (v : Nat) : State := s.onlyIf (bit v 63 && !resultsNew s) clearResults

/-- RESULT_ACK (R545). -/
def execResultAck (dt : Nat) (value : Word) (s : State) : Result := step' dt s fun s => (writeResultAck s value.toNat).answer 0

end Sys2Proof.Machine
end

