-- ==== Sys2Proof/Machine/Nfc.lean ====
section
/-!
DEFINITION. The contactless interface (R557 to R580, R592): field, transceive, anticollision, originality, card presence
and the emulated tag.
-/

namespace Sys2Proof.Machine

/-- Put the NFC block. -/
def State.setNfc (s : State) (n : NfcState) : State := { s with nfc := n }

/-- Ticks of so many microseconds, rounded up. -/
def ticksOfUs (us : Nat) : Nat := ceilDiv (us * 3072) 5

/-- Is the own field on? -/
def fieldOn (s : State) : Bool := s.flag Reg.NFC_STATUS.FIELD_ON

/-! The field (R559 to R561). -/

/-- The reader cap of the profile in force, mW (R670). -/
def readerCap (s : State) : Nat :=
  match s.get Reg.HEALTH_STATUS.PROFILE with
  | 0 => 1000 | 1 => 500 | 2 => 250 | _ => 100

/-- An operation of the reader, or a field request, ends (R559, R563). -/
def rdrEnd (s : State) (cause : Nat) : State :=
  (s.setFlag Reg.NFC_RDR_RESULT.DONE true).set Reg.NFC_RDR_RESULT.CAUSE cause

/-- End the running operation because the field is off (R560); an originality check needs no field. -/
def rdrFieldLost (s : State) : State :=
  match s.nfc.op with
  | some (.transceive ..) => rdrEnd ((s.setFlag Reg.NFC_RDR_RESULT.BUSY false).setNfc { s.nfc with op := none }) 10
  | some (.anticollision _) =>
    let s := (s.setFlag Reg.NFC_AC_STATUS.BUSY false).setNfc { s.nfc with op := none }
    (s.setFlag Reg.NFC_AC_STATUS.DONE true).set Reg.NFC_AC_STATUS.CAUSE 2
  | _ => s

/-- The field stops (R560). -/
def fieldOff (s : State) : State :=
  s.onlyIf (fieldOn s) fun s =>
    let s := rdrFieldLost ((s.setFlag Reg.NFC_STATUS.FIELD_ON false).setFlag Reg.NFC_RDR_CTRL.FIELD false)
    (s.setNfc { s.nfc with offTick := some s.tick }).emit (.field 0)

/-- A value held in a range. -/
def hold (lo hi x : Nat) : Nat := max lo (min hi x)

/-- A request for the field (R559): `ext` is what the antenna senses. -/
def fieldOnRequest (s : State) (ext : Bool) : State :=
  if s.nfc.emu.isSome then rdrEnd s 8
  else if !s.flag Reg.NFC_STATUS.READY then rdrEnd s 9
  else if ext || s.flag Reg.NFC_STATUS.EXT_FIELD then rdrEnd s 7
  else
    let resetT := 10 * hold 100 2000 (s.get Reg.NFC_RDR_TIMING.RESET_T)
    let guard := 10 * hold 50 2000 (s.get Reg.NFC_RDR_TIMING.GUARD)
    let from' := match s.nfc.offTick with
      | none => s.tick
      | some t => max s.tick (t + ticksOfUs resetT)
    let s := (s.setFlag Reg.NFC_STATUS.FIELD_ON true).setFlag Reg.NFC_RDR_CTRL.FIELD true
    let s := s.setNfc { s.nfc with beginTick := from' + ticksOfUs (150 + guard) }
    (rdrEnd s 0).emit (.field (min (min 1000 (s.get Reg.NFC_RDR_CTRL.DRIVE_MW)) (readerCap s)))

/-- A write of NFC_RDR_CTRL (R559, R560, R592). -/
def writeRdrCtrl (s : State) (v : Nat) (ext : Bool) : State :=
  let s := (s.set Reg.NFC_RDR_CTRL.PROTO (bits v 62 61)).set Reg.NFC_RDR_CTRL.RATE (bits v 60 59)
  let s := (s.setFlag Reg.NFC_RDR_CTRL.ASK100 (bit v 58)).set Reg.NFC_RDR_CTRL.DRIVE_MW (bits v 41 32)
  if !bit v 63 then fieldOff s else s.onlyIf (!fieldOn s) fun s => fieldOnRequest s ext

/-- FIELD_ON_REQUEST (R559). -/
def execFieldOnRequest (dt : Nat) (value : Word) (extField : Bool) (s : State) : Result :=
  step' dt s fun s => (writeRdrCtrl s (putBits value.toNat 63 63 1) extField).answer 0

/-- FIELD_OFF_REQUEST (R560). -/
def execFieldOffRequest (dt : Nat) (value : Word) (s : State) : Result :=
  step' dt s fun s => (writeRdrCtrl s (putBits value.toNat 63 63 0) false).answer 0

/-! Transceive (R563, R564). -/

/-- The buffer of NFC_RDR_BUF. -/
def rdrBuf (s : State) : Nat := s.get Reg.NFC_RDR_BUF.ADDR * 1024

/-- The bits of octets, least significant first, and back. -/
def octetBits (l : List Byte) : List Bool := l.flatMap fun b => (List.range 8).map fun i => bit b.toNat i
def packBits : Nat → List Bool → List Byte
  | 0, _ => []
  | _, [] => []
  | n + 1, l => BitVec.ofNat 8 ((l.take 8).mapIdx fun i b => b2n b * 2 ^ i).sum :: packBits n (l.drop 8)

/-- The odd parity bit of an octet. -/
def oddParity (o : List Bool) : Bool := (o.filter id).length % 2 = 0

/-- Bits with the odd parity bit of each whole octet behind it. -/
def withParity : Nat → List Bool → List Bool
  | 0, l => l
  | n + 1, l => if l.length < 8 then l else l.take 8 ++ [oddParity (l.take 8)] ++ withParity n (l.drop 8)

/-- Bits without the parity bits, and whether each of these was right. -/
def withoutParity : Nat → List Bool → List Bool × Bool
  | 0, l => (l, true)
  | n + 1, l =>
    if l.length < 9 then (l, true)
    else
      let r := withoutParity n (l.drop 9)
      (l.take 8 ++ r.1, r.2 && decide (l[8]? = some (oddParity (l.take 8))))

/-- The bits of a frame on air (R563): the CRC of its whole octets, then parity for Type A. -/
def nfcFrame (proto : Nat) (crc parity : Bool) (data : List Bool) : List Bool :=
  let all := if crc then data ++ octetBits (leBytes 2 (crcNfc proto (packBits 512 (data.take (data.length / 8 * 8))))) else data
  if parity && proto = 0 then withParity 514 all else all

/-- PROTO of NFC_RDR_CTRL; 3 acts as 0. -/
def rdrProto (s : State) : Nat := let p := s.get Reg.NFC_RDR_CTRL.PROTO; if p = 3 then 0 else p

/-- A write of NFC_RDR_CMD: without GO, or while an operation runs, it is ignored. The operation keeps the buffer, the protocol
and the TIMEOUT of its start (R592). -/
def writeRdrCmd (s : State) (w : Word) : State :=
  let v := w.toNat
  if !bit v 63 || s.nfc.op.isSome then s
  else if !fieldOn s then rdrEnd s 10
  else
    let n := min 4096 (bits v 12 0)
    let buf := rdrBuf s
    let wait := hold 100 1000000 (s.get Reg.NFC_RDR_TIMING.TIMEOUT)
    let till := max s.tick s.nfc.beginTick + ticksOfUs wait
    let s := (s.setFlag Reg.NFC_RDR_RESULT.BUSY true).setNfc { s.nfc with op := some (.transceive w buf (rdrProto s) till) }
    let data := (octetBits (if s.inLp4x buf 512 then s.ddr buf (ceilDiv n 8) else [])).take n
    s.emit (.nfcSend (rdrProto s) (s.get Reg.NFC_RDR_CTRL.RATE) (s.flag Reg.NFC_RDR_CTRL.ASK100)
      (nfcFrame (rdrProto s) (bit v 62) (bit v 60) data))

/-- TRANSCEIVE (R563). -/
def execTransceive (dt : Nat) (value : Word) (s : State) : Result := step' dt s fun s => (writeRdrCmd s value).answer 0

/-- What a response stores and its cause (R563): a frame out of form, more bits than the buffer holds, a collision, a wrong
parity bit, a wrong CRC. -/
def nfcStored (cmd : Nat) (proto : Nat) (a : NfcAnswer) : List Bool × Nat :=
  let p := if bit cmd 60 && proto = 0 then withoutParity 1024 a.bits else (a.bits, true)
  let n := p.1.length - 16
  let crcOk := decide (16 ≤ p.1.length) &&
    decide (packBits 2 (p.1.drop n) = leBytes 2 (crcNfc proto (packBits 1024 (p.1.take n))))
  let stored := if bit cmd 61 && crcOk then p.1.take n else p.1
  let cause := if a.framing then 5 else if 4096 < stored.length then 6 else if a.collision.isSome then 4
    else if !p.2 then 3 else if bit cmd 61 && !crcOk then 2 else 0
  (stored.take 4096, cause)

/-- COLL_POS: where a collided bit stands among the stored bits. -/
def collPos (cmd : Nat) (proto : Nat) (i : Nat) : Nat := if bit cmd 60 && proto = 0 then i - i / 9 else i

/-- TRANSCEIVE_DONE (R563): the response as it comes from the air, with its parity bits and CRC; `none` when none has begun
within TIMEOUT. -/
def execTransceiveDone (dt : Nat) (answer : Option NfcAnswer) (s : State) : Result :=
  whenever dt s (fun s => decide (s.nfc.beginTick ≤ s.tick)) fun s =>
    match s.nfc.op with
    | some (.transceive w buf proto till) =>
      let ended := (s.setFlag Reg.NFC_RDR_RESULT.BUSY false).setNfc { s.nfc with op := none }
      match answer with
      | none =>
        s.onlyIf (decide (till ≤ s.tick)) fun _ =>
          rdrEnd ((ended.set Reg.NFC_RDR_RESULT.RX_BITS 0).set Reg.NFC_RDR_RESULT.COLL_POS 0) 1
      | some a =>
        let r := nfcStored w.toNat proto a
        let s := (dmaWrite ended (buf + 0x200) (packBits 512 r.1)).set Reg.NFC_RDR_RESULT.RX_BITS r.1.length
        let at' := if r.2 = 4 then collPos w.toNat proto (a.collision.getD 0) else 0
        rdrEnd (s.set Reg.NFC_RDR_RESULT.COLL_POS at') r.2
    | _ => s

/-! Anticollision, Type A (R565, R566). -/

/-- What an anticollision has found so far. -/
structure Found where
  entries : List (List Byte) := []
  unresolved : Nat := 0
  rounds : Nat := 0

/-- The four octets of each cascade level of a UID; 0x88 stands for the tag that continues. -/
def uidLevels (uid : List Byte) : List (List Byte) :=
  if uid.length ≤ 4 then [uid]
  else if uid.length ≤ 7 then [0x88 :: uid.take 3, uid.drop 3]
  else [0x88 :: uid.take 3, 0x88 :: (uid.drop 3).take 3, uid.drop 6]

/-- The entry of a Type A tag (R568). -/
def entryA (t : TagA) : List Byte :=
  ([1, BitVec.ofNat 8 t.uid.length] ++ leBytes 2 t.atqa ++ leBytes 1 t.sak ++ [0] ++ t.uid ++ List.replicate 16 0).take 16

/-- The tags that answer at a level: their lower levels are selected and their bits begin with the known ones. -/
def answering (tags : List TagA) (done : List (List Byte)) (known : List Bool) : List TagA :=
  tags.filter fun t =>
    let ls := uidLevels t.uid
    decide (ls.take done.length = done) && known.isPrefixOf (octetBits ((ls[done.length]?).getD []))

/-- The first bit at or after `known` at which the answers differ. -/
def collision (ls : List (List Bool)) (known : Nat) : Option Nat :=
  (List.range 32).find? fun i => decide (known ≤ i) && (ls.any fun l => l[i]? = some true) && ls.any fun l => l[i]? = some false

/-- A branch: the levels selected below it and the known bits of its own. -/
abbrev Branch := List (List Byte) × List Bool

/-- What one round yields: the tags that it halts, those that it completes, whether it counts one UNRESOLVED, and the
branches that it pushes, latest first. -/
structure Round where
  halts : List TagA := []
  done : Option TagA := none
  unresolved : Bool := false
  pushed : List Branch := []

/-- One round, cascade level by cascade level. -/
def roundA (tags : List TagA) : Nat → List (List Byte) → List Bool → List Branch → Round
  | 0, _, _, pushed => { pushed := pushed }
  | fuel + 1, done, known, pushed =>
    let mine := answering tags done known
    let level := fun t : TagA => ((uidLevels t.uid)[done.length]?).getD []
    match mine with
    | [] => { pushed := pushed }
    | t :: _ =>
      match collision (mine.map fun t => octetBits (level t)) known.length with
      | some k =>
        let head := (octetBits (level t)).take k
        roundA tags fuel done (head ++ [true]) ((done, head ++ [false]) :: pushed)
      | none =>
        let more := fun t : TagA => decide (done.length + 1 < (uidLevels t.uid).length)
        if mine.any fun u => more u != more t || (!more t && decide (u.sak ≠ t.sak)) then
          { halts := mine, unresolved := true, pushed := pushed }
        else if more t then roundA tags fuel (done ++ [level t]) [] pushed
        else { halts := mine, done := some t, pushed := pushed }

/-- The rounds of a Type A anticollision, up to `max` entries: what is found, and whether it ended FULL. -/
def roundsA (cap : Nat) : Nat → Bool → List TagA → List Branch → Found → Found × Bool
  | 0, _, _, _, f => (f, false)
  | fuel + 1, all, tags, stack, f =>
    let awake := if all then tags else tags.filter fun t => !t.halted
    let f := { f with rounds := f.rounds + 1 }
    let start : Branch := (stack.head?).getD ([], [])
    if awake.isEmpty ∧ stack.isEmpty then (f, false)
    else
      let r := roundA awake 128 start.1 start.2 stack.tail
      let f := { f with entries := f.entries ++ (r.done.map entryA).toList, unresolved := f.unresolved + b2n r.unresolved }
      let left := tags.filter fun t => !r.halts.contains t
      if r.done.isSome ∧ cap ≤ f.entries.length then (f, true)
      else roundsA cap fuel false left r.pushed f

/-! Anticollision, ISO/IEC 15693 (R567). -/

/-- The entry of an ISO/IEC 15693 tag (R568). -/
def entryV (t : TagV) : List Byte :=
  ([2, 8] ++ leBytes 1 t.dsfid ++ [0, 0, 0] ++ leBytes 8 t.uid ++ [0, 0]).take 16

/-- A mask: its length, and its bits as a number. -/
abbrev Mask := Nat × Nat

/-- One slot of an inventory: the tag it finds, the mask it queues, or one UNRESOLVED. -/
def slotV (tags : List TagV) (m : Mask) (slot : Nat) : Option TagV × Option Mask × Bool :=
  let low := m.2 + slot * 2 ^ m.1
  match tags.filter fun t => decide (t.uid % 2 ^ (m.1 + 4) = low) with
  | [] => (none, none, false)
  | t :: rest =>
    if rest.all fun u => decide (u.uid = t.uid ∧ u.dsfid = t.dsfid) then (some t, none, false)
    else if rest.any fun u => decide (u.dsfid ≠ t.dsfid) then
      if m.1 = 60 then (none, none, true) else (none, some (m.1 + 4, low), false)
    else
      let p := ((List.range 64).find? fun i => rest.any fun u => bit u.uid i != bit t.uid i).getD 60
      let l := min (p / 4 * 4) 60
      (none, some (l, t.uid % 2 ^ l), false)

/-- The queued masks in order: what is found, and whether it ended FULL. -/
def inventory (cap : Nat) : Nat → List TagV → List Mask → Found → Found × Bool
  | 0, _, _, f => (f, false)
  | _, _, [], f => (f, false)
  | fuel + 1, tags, m :: queue, f =>
    let rs := (List.range 16).map (slotV tags m)
    let got := rs.filterMap fun r => r.1
    let entries := f.entries ++ got.map entryV
    let f := { entries := entries.take cap, rounds := f.rounds + 1
               unresolved := f.unresolved + (rs.filter fun r => r.2.2).length }
    if cap ≤ entries.length then (f, true)
    else inventory cap fuel (tags.filter fun t => !got.any fun g => decide (g.uid = t.uid)) (queue ++ rs.filterMap fun r => r.2.1) f

/-- A write of NFC_AC_CTRL. -/
def writeAcCtrl (s : State) (v : Nat) : State :=
  let s := (s.setFlag Reg.NFC_AC_CTRL.PROTO (bit v 62)).setFlag Reg.NFC_AC_CTRL.ALL (bit v 61)
  let s := (s.setFlag Reg.NFC_AC_CTRL.AFI_EN (bit v 60)).set Reg.NFC_AC_CTRL.AFI (bits v 59 52)
  let s := (s.set Reg.NFC_AC_CTRL.MAX (bits v 51 43)).set Reg.NFC_AC_CTRL.ADDR (bits v 39 4)
  if !bit v 63 || s.nfc.op.isSome then s
  else
    let s := (s.set Reg.NFC_AC_STATUS.COUNT 0).set Reg.NFC_AC_STATUS.UNRESOLVED 0 |>.set Reg.NFC_AC_STATUS.ROUNDS 0
    if !fieldOn s then (s.setFlag Reg.NFC_AC_STATUS.DONE true).set Reg.NFC_AC_STATUS.CAUSE 3
    else (s.setFlag Reg.NFC_AC_STATUS.BUSY true).setNfc { s.nfc with op := some (.anticollision (BitVec.ofNat 64 v)) }

/-- ANTICOLLISION (R565). -/
def execAnticollision (dt : Nat) (value : Word) (s : State) : Result :=
  step' dt s fun s => (writeAcCtrl s value.toNat).answer 0

/-- The running anticollision ends (R565 to R568): `v` is the word of its GO. -/
def anticollided (s : State) (v : Nat) (typeA : List TagA) (typeV : List TagV) : State :=
  let n := bits v 51 43
  let cap := if n = 0 ∨ 256 < n then 256 else n
  let tags := typeV.filter fun t => !bit v 60 || decide (t.afi = bits v 59 52)
  let r := if bit v 62 then inventory cap (17 * (tags.length + 1)) tags [(0, 0)] {}
    else roundsA cap (130 * (typeA.length + 1)) (bit v 61) typeA [] {}
  let s := (s.setFlag Reg.NFC_AC_STATUS.BUSY false).setNfc { s.nfc with op := none }
  let s := dmaWrite s (bits v 39 4 * 16) (r.1.entries.flatMap id)
  let s := (s.set Reg.NFC_AC_STATUS.COUNT r.1.entries.length).set Reg.NFC_AC_STATUS.UNRESOLVED (min 255 r.1.unresolved)
  let s := (s.set Reg.NFC_AC_STATUS.ROUNDS (min 1023 r.1.rounds)).set Reg.NFC_AC_STATUS.CAUSE (b2n r.2)
  s.setFlag Reg.NFC_AC_STATUS.DONE true

/-- ANTICOLLISION_DONE (R565 to R568): the tags in the field decide what the engine finds. -/
def execAnticollisionDone (dt : Nat) (typeA : List TagA) (typeV : List TagV) (s : State) : Result :=
  whenever dt s (fun s => decide (s.nfc.beginTick ≤ s.tick)) fun s =>
    match s.nfc.op with
    | some (.anticollision w) => anticollided s w.toNat typeA typeV
    | _ => s

/-! Originality (R572, R573). -/

/-- A write of NFC_ORIG_CTRL. -/
def writeOrigCtrl (s : State) (v : Nat) : State :=
  let s := (s.setFlag Reg.NFC_ORIG_CTRL.HASH (bit v 62)).set Reg.NFC_ORIG_CTRL.ADDR (bits v 39 6)
  if !bit v 63 || s.nfc.op.isSome then s
  else (s.setFlag Reg.NFC_ORIG_STATUS.BUSY true).setNfc { s.nfc with op := some (.originality (BitVec.ofNat 64 v)) }

/-- ORIGINALITY_CHECK (R572). -/
def execOriginalityCheck (dt : Nat) (value : Word) (s : State) : Result :=
  step' dt s fun s => (writeOrigCtrl s value.toNat).answer 0

/-- Is a signature component in range (R573)? -/
def scalarOk (b : List Byte) : Bool := decide (beNat b ≠ 0 ∧ beNat b < p256Order)

/-- The check of a block: the first key under which the signature verifies, and BAD_INPUT. -/
def originality (b : List Byte) (hash : Bool) : Option Nat × Bool :=
  let len := field b 0 1
  let uid := (b.drop 1).take len
  let msg := if hash then sha256 uid else uid ++ List.replicate (32 - len) 0
  let r := (b.drop 16).take 32
  let sg := (b.drop 48).take 32
  let x := fun k => (b.drop (80 + 64 * k)).take 32
  let y := fun k => (b.drop (112 + 64 * k)).take 32
  let keys := (List.range 8).filter fun k => bit (field b 11 1) k
  if !(within' len 4 10) || !scalarOk r || !scalarOk sg then (none, true)
  else
    let hit := keys.find? fun k => onP256 (x k) (y k) && ecdsaOk (x k) (y k) msg r sg
    let tried := match hit with
      | none => keys
      | some h => keys.filter fun k => decide (k ≤ h)
    (hit, tried.any fun k => !onP256 (x k) (y k))
where
  within' (x lo hi : Nat) : Bool := decide (lo ≤ x ∧ x ≤ hi)

/-- The running originality check ends: `v` is the word of its GO. -/
def originalityEnd (s : State) (v : Nat) : State :=
  let a := bits v 39 6 * 64
  let r := originality (if s.inLp4x a 592 then s.ddr a 592 else []) (bit v 62)
  let s := (s.setFlag Reg.NFC_ORIG_STATUS.BUSY false).setNfc { s.nfc with op := none }
  let s := (s.setFlag Reg.NFC_ORIG_STATUS.MATCH r.1.isSome).set Reg.NFC_ORIG_STATUS.KEY (r.1.getD 0)
  (s.setFlag Reg.NFC_ORIG_STATUS.BAD_INPUT r.2).setFlag Reg.NFC_ORIG_STATUS.DONE true

/-- ORIGINALITY_DONE (R573). -/
def execOriginalityDone (dt : Nat) (s : State) : Result :=
  step' dt s fun s =>
    match s.nfc.op with
    | some (.originality w) => originalityEnd s w.toNat
    | _ => s

/-! Card presence (R569 to R571). -/

/-- Settings of the pings: in OUTAGE sleep, the copy in the always-on domain (R686). -/
def presEn (s : State) : Bool := if s.health.sleep then bit s.health.presence 63 else s.flag Reg.NFC_PRES_CTRL.EN
def presMs (s : State) : Nat := hold 50 1000 (if s.health.sleep then bits s.health.presence 41 32 else s.get Reg.NFC_PRES_CTRL.PING_MS)
def presAmp (s : State) : Nat := if s.health.sleep then bits s.health.presence 15 8 else s.get Reg.NFC_PRES_CTRL.AMP_THR
def presPhase (s : State) : Nat := if s.health.sleep then bits s.health.presence 7 0 else s.get Reg.NFC_PRES_CTRL.PHASE_THR

/-- Is a ping due, and is it skipped (R569)? -/
def pingDue (s : State) : Bool := presEn s && (s.health.sleep || s.inRun) && s.elapsedMs s.nfc.pingTick (presMs s)
def pingSkipped (s : State) (ext : Bool) : Bool :=
  fieldOn s || s.nfc.emu.isSome || ext || s.flag Reg.NFC_STATUS.EXT_FIELD || s.flag Reg.NFC_PRES_STATUS.PRESENT ||
    s.aon.card.isSome

/-- A ping measures an amplitude and a phase (R570, R571). A detection in OUTAGE sleep is kept in the always-on domain. -/
def ping (s : State) (amp phase : Int) : State :=
  let ampDev := if s.nfc.baseAmp = 0 then 0 else (1000 * (amp * 65536 - s.nfc.baseAmp)).tdiv s.nfc.baseAmp
  let phaseDev := (phase * 65536 - s.nfc.basePhase).tdiv 65536
  let hit := decide (presAmp s < ampDev.natAbs ∨ presPhase s < phaseDev.natAbs)
  let s := s.bump Reg.NFC_PRES_STATUS.PINGS
  let a := ofSigned 16 (satSigned 16 ampDev)
  let p := ofSigned 16 (satSigned 16 phaseDev)
  let s := (s.set Reg.NFC_PRES_STATUS.AMP_DEV a).set Reg.NFC_PRES_STATUS.PHASE_DEV p
  if !hit then s.setNfc { s.nfc with baseAmp := s.nfc.baseAmp + (amp * 65536 - s.nfc.baseAmp).tdiv 16
                                     basePhase := s.nfc.basePhase + (phase * 65536 - s.nfc.basePhase).tdiv 16 }
  else if s.health.sleep then { s with aon := { s.aon with card := some (a, p) } }
  else (s.setFlag Reg.NFC_PRES_STATUS.PRESENT true).event Ev.CARD_PRESENT Block.NFC (at' a 16 32 + at' p 16 16)

/-- PRESENCE_PING (R569): a ping is due; whether an external field is present. A skipped ping measures nothing. -/
def execPresencePing (dt : Nat) (amp phase : Int) (extField : Bool) (s : State) : Result :=
  whenever dt s pingDue fun s =>
    let s := s.setNfc { s.nfc with pingTick := s.tick }
    if pingSkipped s extField then s else ping s amp phase

/-! The emulated tag (R574 to R580). -/

/-- EMU_SESSION_START (R574, R579): in RUN with EN clear, sessions are not answered. -/
def execEmuSessionStart (dt : Nat) (vddNfc : Bool) (s : State) : Result :=
  whenever dt s (fun s => !fieldOn s && s.nfc.emu.isNone) fun s =>
    let s := s.setFlag Reg.NFC_STATUS.EXT_FIELD true
    if s.inRun && !s.flag Reg.NFC_EMU_CTRL.EN then s
    else
      let active := s.inRun && s.flag Reg.NFC_EMU_CTRL.ACTIVE_EN && vddNfc && !s.health.sleep
      let r := s.free
      let prov := pageLocked s
      let s := s.onlyIf (!prov) State.drawn
      let uid := if prov then s.fwmRead 0x08 7 else 0x08 :: leBytes 3 r
      let s := (s.setFlag Reg.NFC_STATUS.EMU_SESSION true).setFlag Reg.NFC_STATUS.EMU_ACTIVE active
      let s := s.bump Reg.NFC_EMU_CTRL.SESSIONS
      s.setNfc { s.nfc with emu := some { active := active, uid := uid, atqa := if prov then 0x0044 else 0x0004 } }

/-- EMU_SESSION_END (R574): an operation in PASSIVE mode loses its supply (R580). -/
def execEmuSessionEnd (dt : Nat) (s : State) : Result :=
  step' dt s fun s =>
    let s := s.setFlag Reg.NFC_STATUS.EXT_FIELD false
    match s.nfc.emu with
    | none => s
    | some e =>
      let s := s.onlyIf (!e.active) fun s =>
        let s := (s.fwm.filter fun o => o.emu).foldl fwmTear s
        { s with fwm := s.fwm.filter fun o => !o.emu }
      let s := (s.setFlag Reg.NFC_STATUS.EMU_SESSION false).setFlag Reg.NFC_STATUS.EMU_ACTIVE false
      s.setNfc { s.nfc with emu := none }

/-- Answer within a session. -/
def inSession (s : State) (k : EmuSession → State) : State :=
  match s.nfc.emu with
  | none => s
  | some e => k e

/-- Change the session. -/
def setEmu (s : State) (e : EmuSession) : State := s.setNfc { s.nfc with emu := some e }

/-- ATQA (R576, R579): the selection starts afresh. -/
def atqaReply (s : State) (lastBit : Bool) : State :=
  inSession s fun e => tagReply (setEmu s { e with levels := 0, rats := false, file := none }) lastBit 0 (leBytes 2 e.atqa)

/-- EMU_REQA and EMU_WUPA (R576): the last bit of REQA, 0x26 in 7 bits, is 0, and that of WUPA, 0x52, is 1. -/
def execEmuReqa (dt : Nat) (s : State) : Result := step' dt s fun s => atqaReply s false
def execEmuWupa (dt : Nat) (s : State) : Result := step' dt s fun s => atqaReply s true

/-- The four UID octets of a level and their BCC. -/
def levelOctets (uid : List Byte) (level : Nat) : List Byte :=
  let l := ((uidLevels uid)[level]?).getD []
  l ++ [l.foldl (fun a b => a ^^^ b) 0]

/-- The last bit of an ANTICOLLISION frame, parity included: the NVB octet of `n` known bits, or the last known octet or bit. -/
def anticollisionLast (known : List Bool) : Bool :=
  let n := known.length
  if n % 8 ≠ 0 then known.getLast?.getD false
  else oddParity (if n = 0 then octetBits [0x20] else known.drop (n - 8))

/-- The last bit of a Type A frame of whole octets with its CRC_A. -/
def frameLast (octets : List Byte) : Bool := oddParity (octetBits [BitVec.ofNat 8 (crcA octets / 256)])

/-- EMU_ANTICOLLISION (R577): the rest of the level's bits, when the known ones match. -/
def execEmuAnticollision (dt : Nat) (level : Fin 3) (known : List Bool) (s : State) : Result :=
  step' dt s fun s => inSession s fun e =>
    let all := octetBits (levelOctets e.uid level)
    s.onlyIf (decide (e.levels = level.val ∧ level.val < (uidLevels e.uid).length) && known.isPrefixOf all) fun s =>
      let rest := all.drop known.length
      s.emit (.tagReply (frameDelay (anticollisionLast known) 0) rest.length (packBits 5 rest))

/-- EMU_SELECT_TAG (R577): SAK 0x20; the cascade bit alone while levels remain. -/
def execEmuSelectTag (dt : Nat) (level : Fin 3) (octets : List Byte) (s : State) : Result :=
  step' dt s fun s => inSession s fun e =>
    let n := (uidLevels e.uid).length
    s.onlyIf (decide (e.levels = level.val ∧ level.val < n ∧ octets = levelOctets e.uid level)) fun s =>
      let last := frameLast (BitVec.ofNat 8 (0x93 + 2 * level.val) :: 0x70 :: octets)
      tagReply (setEmu s { e with levels := level.val + 1 }) last 0 [if level.val + 1 = n then 0x20 else 0x04]

/-- EMU_RATS (R577): the ATS; `param` is the second octet of RATS. -/
def execEmuRats (dt : Nat) (param : Byte) (ready : Nat) (s : State) : Result :=
  step' dt s fun s => inSession s fun e =>
    s.onlyIf (decide (e.levels = (uidLevels e.uid).length)) fun s =>
      tagReply (setEmu s { e with rats := true }) (frameLast [0xE0, param]) ready [0x05, 0x78, 0x00, 0x70, 0x00]

/-- An APDU is answered once the ATS has been sent. -/
def apdu (s : State) (k : EmuSession → State) : State := inSession s fun e => if e.rats then k e else s

/-- EMU_SELECT (R577): the NDEF application by name, or a file by identifier. -/
def execEmuSelect (dt : Nat) (byName : Bool) (data : List Byte) (lastBit : Bool) (ready : Nat) (s : State) : Result :=
  step' dt s fun s => apdu s fun e =>
    let sw := fun (x : State) (c : Nat) => swReply x lastBit ready [] c
    if byName then
      if data = [0xD2, 0x76, 0x00, 0x00, 0x85, 0x01, 0x01] then sw (setEmu s { e with app := true, file := none }) 0x9000
      else sw s 0x6A82
    else if (fileBytes s (beNat data)).isSome ∧ data.length = 2 then sw (setEmu s { e with file := some (beNat data) }) 0x9000
    else sw s 0x6A82

/-- An operation of the emulated tag waits for the FWM (R587). -/
def emuPush (s : State) (e : EmuSession) (o : FwmOp) : State := { s with fwm := s.fwm ++ [{ o with emu := true, active := e.active }] }

/-- EMU_READ_BINARY (R577, R578). -/
def execEmuReadBinary (dt : Nat) (ofs le : Nat) (lastBit : Bool) (ready : Nat) (s : State) : Result :=
  step' dt s fun s => apdu s fun e =>
    match e.file with
    | none => swReply s lastBit ready [] 0x6986
    | some f =>
      if le = 0 ∨ 240 < le then swReply s lastBit ready [] 0x6700
      else if ((fileBytes s f).getD []).length < ofs + le then swReply s lastBit ready [] 0x6B00
      else emuPush s e { op := FwmCode.READ_FILE, index := f, ofs := ofs, len := le, last := lastBit, ready := ready }

/-- EMU_UPDATE_BINARY (R577, R578, R580). -/
def execEmuUpdateBinary (dt : Nat) (ofs : Nat) (data : List Byte) (energy lastBit : Bool) (ready : Nat) (s : State) : Result :=
  step' dt s fun s => apdu s fun e =>
    match e.file with
    | none => swReply s lastBit ready [] 0x6986
    | some f =>
      if data.isEmpty ∨ 240 < data.length then swReply s lastBit ready [] 0x6700
      else match (fileRecord f).filter fun r => decide (r ≤ 28) && bit (writeMask s) r with
        | none => swReply s lastBit ready [] 0x6982
        | some r =>
          if 240 < ofs + data.length then swReply s lastBit ready [] 0x6B00
          else if !e.active && !energy then swReply s lastBit ready [] 0x6581
          else emuPush s e { op := FwmCode.WRITE_RECORD, index := r, ofs := ofs, data := data, last := lastBit, ready := ready }

/-- EMU_INCREMENT (R577, R578, R580). -/
def execEmuIncrement (dt : Nat) (counter : Nat) (energy lastBit : Bool) (ready : Nat) (s : State) : Result :=
  step' dt s fun s => apdu s fun e =>
    if 15 < counter || !bit (incMask s) counter then swReply s lastBit ready [] 0x6982
    else if (ctrRead s counter).getD 0 = 2 ^ 24 - 1 then swReply s lastBit ready [] 0x6A84
    else if !e.active && !energy then swReply s lastBit ready [] 0x6581
    else emuPush s e { op := FwmCode.INCREMENT, index := counter, last := lastBit, ready := ready }

/-- EMU_INS_NOT_SUPPORTED (R578). -/
def execEmuInsNotSupported (dt : Nat) (claOk lastBit : Bool) (ready : Nat) (s : State) : Result :=
  step' dt s fun s => apdu s fun _ => swReply s lastBit ready [] (if claOk then 0x6D00 else 0x6E00)

end Sys2Proof.Machine
end

