-- ==== Sys2Proof/Machine/Flags.lean ====
section
/-!
DEFINITION. What a write and a read leave in a register field, by its access code (R13 to R16, R738).
-/

namespace Sys2Proof.Machine

/-- Does a write reach a field of this access code? RO, WO, RC and OTP fields take none; an RWL field none while the
block's LOCK is set (R13, R15). -/
def takesWrite (acc : Acc) (locked : Bool) : Bool :=
  match acc with
  | .rw | .w1c | .lock => true
  | .rwl => !locked
  | .ro | .wo | .rc | .otp => false

/-- What a write of `new` leaves in a field that holds `old` and held `before` when the cycle began: a W1C bit written 1
clears unless the hardware has set it in this very cycle, and a LOCK bit never does (R13, R14, R16). -/
def afterWrite (acc : Acc) (before old new : Nat) : Nat :=
  match acc with
  | .rw | .rwl => new
  | .w1c => old - (old &&& new &&& before)
  | .lock => if new % 2 = 1 then 1 else old
  | .ro | .wo | .rc | .otp => old

/-- What a read leaves in a field that holds `old` and held `before` when the cycle began: an RC field that is returned
whole clears, but for what the hardware has added in this very cycle (R16, R738). -/
def afterRead (acc : Acc) (whole : Bool) (before old : Nat) : Nat :=
  match acc with
  | .rc => if whole then old - before else old
  | .rw | .ro | .wo | .w1c | .rwl | .otp | .lock => old

end Sys2Proof.Machine
end

