-- ==== Sys2Proof/Machine/Safe.lean ====
section
/-!
DEFINITION. The SAFE block (chapter 20): protective commands, the mechanisms of R653, the watchdogs and the safe notice.
-/

namespace Sys2Proof.Machine

/-- Put the SAFE block. -/
def State.setSafe (s : State) (x : SafeState) : State := { s with safe := x }

/-- The mechanisms run from entry to ADMIT on (R59, R661). -/
def monitored (s : State) : Bool := decide (s.boot = Boot.ADMIT ∨ s.boot = Boot.CALIBRATE ∨ s.boot = Boot.RUN)

/-! Protective commands (R648 to R651). -/

/-- Free words of the command FIFO of 64 commands (R649): an accepted command keeps its four words while it is in flight. -/
def safeSpace (s : State) : Nat := 256 - (s.safe.words.length + 4 * s.safe.flights.length)

/-- A word is pushed (R649): a full FIFO discards it and sets OVF. -/
def safePush (s : State) (w : Nat) : State :=
  if safeSpace s = 0 then s.setFlag Reg.SAFE_CMD_STATUS.OVF true
  else s.setSafe { s.safe with words := s.safe.words ++ [w] }

/-- The last accepted SEQ of a source. -/
def lastSeq (s : State) (src : Nat) : Option Nat := (s.safe.lastSeq.find? fun e => decide (e.1 = src)).map Prod.snd

/-- The record that a protective command's TARGET selects. -/
def safeTarget (s : State) (c : List Byte) : Option Nat := lookupRecord s (fieldBE c 8 8)

/-- The first check of R649 that a command fails. -/
def safeCause (s : State) (words : List Nat) (poison : Bool) : Option Nat :=
  let c := words.flatMap (leBytes 8)
  let src := field c 2 1
  let seqOk := match lastSeq s src with
    | none => true
    | some q => later 32 (field c 4 4) q
  let targetOk := match safeTarget s c with
    | none => false
    | some r => recSafety s r
  if decide (words.length ≠ 4 ∨ fieldBE c 0 2 ≠ 0x5043 ∨ field c 3 1 = 0) then some 1
  else if poison then some 2
  else if crc32c (c.take 28) ≠ field c 28 4 then some 3
  else if decide (16 ≤ src) || decide (s.get (Reg.SAFE_SRC.KIND src) = 0) then some 4
  else if !seqOk then some 5
  else if !targetOk then some 6
  else if s.safeNow then some 7
  else none

/-- A command is accepted (R649 to R651): it is in flight and enters step 3 of R39 as a class 0 packet. -/
def safeAccept (s : State) (c : List Byte) (r : Nat) : State :=
  let src := field c 2 1
  let seq := field c 4 4
  let s := s.setSafe { s.safe with lastSeq := Cells.insert s.safe.lastSeq src seq, inputs := s.safe.inputs.erase src
                                   flights := s.safe.flights ++ [{ source := src, seq := seq, octets := c, tick := s.tick }] }
  let s := s.onlyIf (decide (s.get (Reg.SAFE_SRC.KIND src) = 2)) fun s => s.raise (112 + src)
  addDown s { id := 0, pkt := { datagram := c, cls := 0, core := true, safety := some (src, seq) }, record := some r }

/-- The EOP word of a command (R649). -/
def safePushLast (s : State) (w : Nat) (poison : Bool) : State :=
  if safeSpace s = 0 then s.setFlag Reg.SAFE_CMD_STATUS.OVF true
  else
    let words := s.safe.words ++ [w]
    let c := words.flatMap (leBytes 8)
    let s := s.setSafe { s.safe with words := [] }
    let s' := s.onlyIf (decide (words.length = 4)) fun s => touch s (fieldBE c 8 8)
    match safeCause s words poison, safeTarget s c with
    | none, some r => safeAccept s' c r
    | some k, _ => ((if 6 ≤ k then s' else s).setFlag Reg.SAFE_CMD_STATUS.REJECT true).set Reg.SAFE_CMD_STATUS.CAUSE k
    | none, none => s

/-- SAFE_CMD_PUSH (R649). -/
def execSafeCmdPush (dt : Nat) (value : Word) (s : State) : Result := step' dt s fun s => (safePush s value.toNat).answer 0

/-- SAFE_CMD_PUSH_LAST (R649): `poison` says that one of the words is uncorrectable. -/
def execSafeCmdPushLast (dt : Nat) (value : Word) (poison : Bool) (s : State) : Result :=
  step' dt s fun s => (safePushLast s value.toNat poison).answer 0

/-- COMMAND_DEADLINE (R651): a command is still in flight DEADLINE_MS after acceptance. -/
def execCommandDeadline (dt : Nat) (source : Fin 16) (seq : Nat) (s : State) : Result :=
  step' dt s fun s =>
    match s.safe.flights.find? fun f => decide (f.source = source.val ∧ f.seq = seq) with
    | none => s
    | some f => s.onlyIf (s.elapsedMs f.tick (s.get (Reg.SAFE_SRC.DEADLINE_MS source))) fun s => enterSafe s 0x0A source seq

/-! The loopback (R654, R656). -/

/-- Replace or remove a watched emission. -/
def setLoopback (s : State) (l : Loopback) (l' : Option Loopback) : State :=
  s.setSafe { s.safe with loopbacks := s.safe.loopbacks.flatMap fun x => if x = l then l'.toList else [x] }

/-- The loopback confirms an emission: its commands leave flight (R651). -/
def confirmed (s : State) (l : Loopback) : State :=
  let s := setLoopback s l none
  s.setSafe { s.safe with flights := s.safe.flights.filter fun f => !l.commands.contains (f.source, f.seq) }

/-- A rule of R654 fails: the emission is ramped down if it still runs, and LOOPBACK detects. -/
def loopbackFails (s : State) (l : Loopback) : State :=
  let s := rampSafety (setLoopback s l none) l.fe
  enterSafe s 0x09 ((l.commands.head?.map Prod.fst).getD 0) (l.fe * 2 ^ 30 + l.asn % 2 ^ 30)

/-- The instant at which a rule of R654 is judged: 0 rise, 1 stay, 2 fall. -/
def Loopback.bound (l : Loopback) (rule : Nat) : Nat :=
  if rule = 0 then l.riseByNs else if rule = 1 then l.stayToNs else l.fallByNs

/-- Is a measured power no more than 10 dB below the commanded power of the SAFETY carrier, as it stands now? -/
def loopbackHigh (s : State) (l : Loopback) (power : Int) : Bool :=
  let c := (emitting s l.fe).bind fun e => e.carriers.find? Carrier.safety
  decide ((c.map (·.pinQdbm)).getD l.qdbm - 40 ≤ power)

/-- The first rule: the power rises no later than its bound. -/
def loopbackRise (s : State) (l : Loopback) (high : Bool) : State :=
  let now := s.time.ns
  if high ∧ now ≤ l.bound 0 then setLoopback s l (some { l with passed := 1 })
  else s.onlyIf (decide (l.bound 0 ≤ now)) fun s => loopbackFails s l

/-- The second rule: it stays high up to its bound. A fall before that which lasts 20 µs fails. -/
def loopbackStay (s : State) (l : Loopback) (high : Bool) : State :=
  let now := s.time.ns
  if high then setLoopback s l (some { l with passed := if l.bound 1 ≤ now then 2 else 1, fellNs := none })
  else match l.fellNs with
    | some t => s.onlyIf (decide (t + 20000 ≤ now)) fun s => loopbackFails s l
    | none =>
      if now < l.bound 1 then setLoopback s l (some { l with fellNs := some now })
      else if now ≤ l.bound 2 then confirmed s l
      else loopbackFails s l

/-- The third rule: it falls no later than its bound. -/
def loopbackFall (s : State) (l : Loopback) (high : Bool) : State :=
  let now := s.time.ns
  if !high ∧ now ≤ l.bound 2 then confirmed s l
  else s.onlyIf (decide (l.bound 2 ≤ now)) fun s => loopbackFails s l

/-- LOOPBACK_BOUND (R654): the power that the envelope detector of a front end measures for the SAFETY carrier, at the pin in
0.25 dBm, held against the rule that is being judged. -/
def execLoopbackBound (dt : Nat) (fe : Fin 3) (power : Int) (s : State) : Result :=
  step' dt s fun s =>
    match s.safe.loopbacks.find? fun l => decide (l.fe = fe.val) with
    | none => s
    | some l =>
      let high := loopbackHigh s l power
      if l.passed = 0 then loopbackRise s l high else if l.passed = 1 then loopbackStay s l high else loopbackFall s l high

/-! Mechanisms (R653, R657). -/

/-- LOCKSTEP_MISMATCH (R653). -/
def execLockstepMismatch (dt : Nat) (s : State) : Result := whenever dt s monitored fun s => enterSafe s 0x01 0 0

/-- TCM_SCRUB (R653): a single-bit error is corrected and written back. -/
def execTcmScrub (dt : Nat) (ecc : Ecc) (s : State) : Result :=
  whenever dt s monitored fun s => s.onlyIf (decide (ecc = .uncorrectable)) fun s => enterSafe s 0x02 0 0

/-- TCM_UNCORRECTABLE_READ (R653). -/
def execTcmUncorrectableRead (dt : Nat) (s : State) : Result := whenever dt s monitored fun s => enterSafe s 0x02 0 0

/-- The fields that CFG_SCRUB protects (R653), as words. -/
def protectedWords (s : State) : List Nat :=
  let src := (List.range 16).flatMap fun n =>
    [s.get (Reg.SAFE_SRC.KIND n), s.get (Reg.SAFE_SRC.GPIO n), s.get (Reg.SAFE_SRC.DEADLINE_MS n), s.get (Reg.SAFE_SRC.BUDGET_NS n)]
  let icu := ((List.range 16).filter fun n => s.flag (Reg.ICU_SH_CFG.LOCKED (112 + n))).flatMap fun n =>
    [s.get (Reg.ICU_SH_CFG.EDGE (112 + n)), s.get (Reg.ICU_SH_CFG.TGT (112 + n)), s.get (Reg.ICU_SH_CFG.FILT_CNT (112 + n)),
     b2n (bit (s.get (Reg.ICU_SH_EN.EN 1)) (48 + n))]
  let fe := (List.range 3).flatMap fun n =>
    [s.get (Reg.FE_TX_CTRL.TXD_DATA n), s.get (Reg.FE_TX_CTRL.TXD_ACK n), s.get (Reg.FE_TX_CTRL.CAP_QDBM n)]
  [s.get Reg.SAFE_WD_CFG.WD_MIN_US, s.get Reg.SAFE_WD_CFG.WD_MAX_US, s.get Reg.SAFE_WD_CFG.FW_REACT_US,
   s.get Reg.SAFE_WD_CFG.APP_WD_MS] ++ src ++ icu ++ fe

/-- Their CRC-32 (R653). -/
def scrubCrc (s : State) : Nat := crc32 ((protectedWords s).flatMap (leBytes 8))

/-- CFG_SCRUB (R653): `upset` says that a bit has flipped in the fields' storage. -/
def execCfgScrub (dt : Nat) (upset : Bool) (s : State) : Result :=
  whenever dt s (fun s => decide (s.boot = Boot.CALIBRATE) || s.inRun) fun s =>
    s.onlyIf (upset || decide (scrubCrc s ≠ s.safe.scrubCrc)) fun s => enterSafe s 0x03 0 0

/-- Clock domains whose failure enters the safe state (R653, R662). -/
def safeDomains : List Nat := [0, 2, 3, 4, 5, 6, 7, 8, 14]

/-- CLOCK_MONITOR (R653): the domain that the 10 µs window found out of range, if one was. -/
def execClockMonitor (dt : Nat) (bad : Option Nat) (s : State) : Result :=
  whenever dt s monitored fun s =>
    match bad with
    | none => s
    | some d => if safeDomains.contains d then enterSafe s 0x04 0 d else s.setFlag Reg.SAFE_MON_STATUS.CLK_REPORT true

/-- Is a sample that is taken every 100 µs due? -/
def sampleTurn (s : State) (last : Option Nat) : Bool :=
  match last with
  | none => true
  | some t => s.elapsedUs t 100

/-- VOLTAGE_SAMPLE (R653): the main rails are sampled every 100 µs; two consecutive samples out of range detect. -/
def execVoltageSample (dt : Nat) (ok : Bool) (s : State) : Result :=
  whenever dt s (fun s => monitored s && sampleTurn s s.safe.voltTick) fun s =>
    let s := s.setSafe { s.safe with voltTick := some s.tick }
    if ok then s.setSafe { s.safe with volts := 0 }
    else
      let s' := s.setSafe { s.safe with volts := s.safe.volts + 1 }
      s'.onlyIf (decide (s.safe.volts = 1)) fun s => enterSafe s 0x05 0 0

/-- CACHE_UNCORRECTABLE_ECC (R657). -/
def execCacheUncorrectableEcc (dt : Nat) (core : Fin 4) (s : State) : Result :=
  step' dt s fun s => (s.setFlag Reg.SAFE_MON_STATUS.ECC_REPORT true).emit (.coreFault core)

/-! Watchdogs (R658). -/

/-- A watchdog detection: the safe state, and a system reset 1 ms later. -/
def wdDetect (s : State) : State :=
  let s := enterSafe s 0x07 0 0
  s.onlyIf s.safe.wdReset.isNone fun s => s.setSafe { s.safe with wdReset := some s.tick }

/-- A write of SAFE_WD_KICK (R658, R666). -/
def writeWdKick (s : State) (init : Init) (v : Nat) : State :=
  if init ≠ .sheepdog ∨ !s.inRun then s
  else
    let early := decide (v % 256 ≠ 0x5A) ||
      (s.safe.wdKicked && !s.elapsedUs s.safe.wdTick (s.get Reg.SAFE_WD_CFG.WD_MIN_US))
    let s := s.onlyIf early wdDetect
    s.onlyIf (decide (v % 256 = 0x5A)) fun s => s.setSafe { s.safe with wdTick := s.tick, wdKicked := true }

/-- WD_KICK (R658). -/
def execWdKick (dt : Nat) (init : Init) (value : Word) (s : State) : Result :=
  step' dt s fun s => (writeWdKick s init value.toNat).answer 0

/-- WD_EXPIRE (R658): WD_MAX_US passes without a kick. -/
def execWdExpire (dt : Nat) (s : State) : Result :=
  whenever dt s (fun s => s.inRun && s.elapsedUs s.safe.wdTick (s.get Reg.SAFE_WD_CFG.WD_MAX_US)) wdDetect

/-- A write of SAFE_APP_KICK (R658). -/
def writeAppKick (s : State) (v : Nat) : State :=
  s.onlyIf (decide (v % 256 = 0xA5)) fun s => s.setSafe { s.safe with appTick := s.tick }

/-- APP_WD_KICK (R658). -/
def execAppWdKick (dt : Nat) (value : Word) (s : State) : Result := step' dt s fun s => (writeAppKick s value.toNat).answer 0

/-- APP_WD_EXPIRE (R658): APP_WD_MS passes without a kick; 0 disables. -/
def execAppWdExpire (dt : Nat) (s : State) : Result :=
  whenever dt s (fun s => s.inRun && decide (s.get Reg.SAFE_WD_CFG.APP_WD_MS ≠ 0) &&
      s.elapsedMs s.safe.appTick (s.get Reg.SAFE_WD_CFG.APP_WD_MS)) fun s =>
    (s.setFlag Reg.SAFE_MON_STATUS.APP_WD true).setSafe { s.safe with appTick := s.tick }

/-! SAFE_CTRL and the safe notice (R659, R660, R666). -/

/-- A write of SAFE_CTRL: only the Sheepdog's has an effect. -/
def writeSafeCtrl (s : State) (init : Init) (v : Nat) : State :=
  if init ≠ .sheepdog then s
  else
    let s := s.onlyIf (bit v 63) fun s => enterSafe s 0x0F 0 0
    s.onlyIf (bit v 62 && s.safeNow) fun s => s.setFlag Reg.SAFE_STATUS.FW_DONE true

/-- SAFE_FORCE (R666). -/
def execSafeForce (dt : Nat) (init : Init) (value : Word) (s : State) : Result :=
  step' dt s fun s => (writeSafeCtrl s init value.toNat).answer 0

/-- SAFE_FW_DONE (R666). -/
def execSafeFwDone (dt : Nat) (init : Init) (value : Word) (s : State) : Result :=
  step' dt s fun s => (writeSafeCtrl s init value.toNat).answer 0

/-- The first 24 octets of a safe notice (R660). -/
def noticeHead (s : State) : List Byte :=
  [0xB7, 0x2C, 0x01] ++ leBytes 1 (s.get Reg.ETH_PAIR_STATUS.UNIT) ++ leBytes 1 (s.get Reg.SAFE_STATUS.MECH) ++ [0, 0, 0] ++
    beBytes 4 (s.get Reg.ETH_PAIR_STATUS.EPOCH) ++ beBytes 8 s.safe.safeNs ++ [0, 0, 0, 0]

/-- SAFE_NOTICE_TX (R660): three times, 1 ms apart. -/
def execSafeNoticeTx (dt : Nat) (s : State) : Result :=
  whenever dt s (fun s => s.safeNow && s.inRun && paired s && pairKey s && decide (s.safe.notices < 3) &&
      (decide (s.safe.notices = 0) || s.elapsedMs s.safe.noticeTick 1)) fun s =>
    let key := Cells.get s.crypto.slotKeys (s.get Reg.ETH_PAIR_CFG.PAIR_KEY_SLOT) []
    let s := sendEth s 0x88B6 (noticeHead s ++ (hmac key (noticeHead s)).take 16)
    s.setSafe { s.safe with notices := s.safe.notices + 1, noticeTick := s.tick }

end Sys2Proof.Machine
end

