-- ==== Sys2Proof/Machine/Flash.lean ====
section
/-!
DEFINITION. The flash (R621 to R623, R634, R638): its regions, the journal, settings records, the counters' high-water marks,
and what an operation that is cut short leaves.
-/

namespace Sys2Proof.Machine

/-! Regions (R621). -/

namespace Region
def JOURNAL : Nat := 0x10000
def SCRATCH : Nat := 0x40000
def FC_HWM : Nat := 0x50000
def SETTINGS (slot : Nat) : Nat := 0x70000 + 0x80000 * slot
def CONFIG : Nat := 0x1000000
def CONFIG_STAGED : Nat := 0x1400000
def ACTIVE : Nat := 0x1800000
def STAGING : Nat := 0x5800000
def FW_DATA : Nat := 0x9800000
end Region

/-- A number of the flash, little-endian. -/
def flashNat (s : State) (a n : Nat) : Nat := leNat (s.flash a n)

/-- Octets that nothing fixes: one free value spelt out. -/
def freeOctets (s : State) (n : Nat) : List Byte := leBytes n s.free

/-- A range of the flash whose programming was cut short: its octets are open. -/
def flashTorn (s : State) (a n : Nat) : State := s.drawn.flashWrite a (freeOctets s n)

/-- Copy `n` octets within the flash, after erasing the target. -/
def flashCopy (s : State) (src dst n : Nat) : State := (s.flashErase dst n).flashWrite dst (s.flash src n)

/-! The journal (R623). -/

/-- A journal record. -/
structure JRec where
  type : Nat
  phase : Nat := 0
  block : Nat := 0
  arg : Nat := 0

/-- The octets of slot `i` of the journal, and how many slots it has. -/
def jSlots : Nat := 12288
def jOctets (s : State) (i : Nat) : List Byte := s.flash (Region.JOURNAL + 16 * i) 16

/-- Is a record slot of 16 octets erased? -/
def erased (b : List Byte) : Bool := b.all fun x => decide (x = 0xff)

/-- The CRC of a record of 16 octets matches (R623, R638). -/
def recOk (b : List Byte) : Bool := decide (field b 12 4 = crc32 (b.take 12))

/-- How many slots the scan passes before an erased one. -/
def jUsed (s : State) : Nat := ((List.range jSlots).takeWhile fun i => !erased (jOctets s i)).length

/-- The valid records, oldest first. -/
def jRecords (s : State) : List JRec :=
  (((List.range (jUsed s)).map (jOctets s)).filter recOk).map fun b =>
    { type := field b 0 1, phase := field b 1 1, block := field b 2 2, arg := field b 4 8 }

/-- Append a record; a journal without an erased slot takes none. -/
def jAppend (s : State) (r : JRec) : State :=
  let b := leBytes 1 r.type ++ leBytes 1 r.phase ++ leBytes 2 r.block ++ leBytes 8 r.arg
  let i := jUsed s
  s.onlyIf (decide (i < jSlots)) fun s => s.flashWrite (Region.JOURNAL + 16 * i) (b ++ leBytes 4 (crc32 b))

namespace JType
def STAGED : Nat := 1
def SWAP : Nat := 2
def SWAPPED : Nat := 3
def START : Nat := 4
def MIGRATED : Nat := 5
def CFG_COPY : Nat := 6
def MIGRATE_COMMIT : Nat := 7
def CFG_REJECT : Nat := 8
def COMMITTED : Nat := 9
end JType

/-- What the journal says (R623 to R632): the STAGED record, PENDING, TRIAL, the last START number, the last SWAP record of an
unfinished exchange, the slot of a MIGRATED record and whether it is released, the last CFG_COPY record after which no
MIGRATE_COMMIT stands, whether a COMMIT is unfinished, and the rejected IMAGE_SEQs. -/
structure JView where
  staged : Option JRec := none
  pending : Bool := false
  trial : Bool := false
  trialN : Nat := 0
  swap : Option JRec := none
  migrated : Option Nat := none
  released : Bool := false
  copy : Option JRec := none
  commit : Bool := false
  rejected : List Nat := []

/-- One more record. -/
def JView.add (v : JView) (r : JRec) : JView :=
  if r.type = JType.STAGED then { v with staged := some r, pending := true }
  else if r.type = JType.SWAP then { v with swap := some r }
  else if r.type = JType.SWAPPED then { v with swap := none, pending := false, trial := !bit r.arg 0 }
  else if r.type = JType.START then { v with trialN := r.arg }
  else if r.type = JType.MIGRATED then { v with migrated := some (r.arg % 2), released := false }
  else if r.type = JType.CFG_COPY then { v with copy := some r, commit := v.trial }
  else if r.type = JType.MIGRATE_COMMIT then { v with released := true }
  else if r.type = JType.CFG_REJECT then
    { v with rejected := v.rejected ++ [r.arg % 2 ^ 32]
             pending := v.pending && (v.swap.isSome || decide ((v.staged.map (·.arg)) ≠ some r.arg)) }
  else if r.type = JType.COMMITTED then { v with trial := false, commit := false }
  else v

/-- The journal read from its start. -/
def jView (s : State) : JView := (jRecords s).foldl JView.add {}

/-- Blocks to exchange. -/
def JView.blocks (v : JView) : Nat := (v.staged.map (·.block)).getD 0

/-! Settings records (R634). -/

/-- Is the settings record of a slot valid? -/
def settingsValid (s : State) (slot : Nat) : Bool :=
  let a := Region.SETTINGS slot
  let len := flashNat s (a + 12) 4
  decide (flashNat s a 4 = 0x53544753 ∧ flashNat s (a + 6) 2 = 0 ∧ len ≤ 524268) &&
    decide (flashNat s (a + 16 + len) 4 = crc32 (s.flash a (16 + len)))

/-- The slot of the current record: the valid one, or the one whose SEQ is later. -/
def currentSettings (s : State) : Option Nat :=
  match settingsValid s 0, settingsValid s 1 with
  | true, true => if later 32 (flashNat s (Region.SETTINGS 1 + 8) 4) (flashNat s (Region.SETTINGS 0 + 8) 4) then some 1 else some 0
  | true, false => some 0
  | false, true => some 1
  | false, false => none

/-- FORMAT of a slot's record. -/
def settingsFormat (s : State) (slot : Nat) : Nat := flashNat s (Region.SETTINGS slot + 4) 2

/-! Protection (R621, R636). -/

/-- The slot protected from MIGRATED until MIGRATE_COMMIT: the one that held the record before the migration. -/
def protectedSlot (s : State) : Option Nat :=
  let v := jView s
  match v.migrated with
  | none => none
  | some w => if v.released then none else some (1 - w)

/-- May XSPI_PROG touch the octet at this offset? -/
def progAllowed (s : State) (a : Nat) : Bool :=
  let idle := !s.flag Reg.XSPI_UPD_STATUS.PENDING && !s.flag Reg.XSPI_UPD_STATUS.TRIAL
  let free := fun (slot : Nat) => decide (protectedSlot s ≠ some slot)
  (decide (0x70000 ≤ a ∧ a < 0xF0000) && free 0) || (decide (0xF0000 ≤ a ∧ a < 0x170000) && free 1) ||
    (decide (0x1400000 ≤ a ∧ a < 0x1800000) && idle) || (decide (0x5800000 ≤ a ∧ a < 0x9800000) && idle) ||
    decide (0x9800000 ≤ a ∧ a < 0x10000000)

/-- May XSPI_PROG touch `n` octets from `a`? Every boundary of R621 is a multiple of 64 KiB. -/
def rangeAllowed (s : State) (a n : Nat) : Bool :=
  (List.range (ceilDiv (a % 65536 + n) 65536)).all fun i => progAllowed s ((a / 65536 + i) * 65536)

/-! Counter high-water marks (R638). -/

/-- Slot `i` of block `b` of FC_HWM. -/
def hwmOctets (s : State) (b i : Nat) : List Byte := s.flash (Region.FC_HWM + 65536 * b + 16 * i) 16

/-- Slots of a block in use before the first erased one. -/
def hwmUsed (s : State) (b : Nat) : Nat := ((List.range 4096).takeWhile fun i => !erased (hwmOctets s b i)).length

/-- The highest valid VALUE of a kind; 0 if there is none. -/
def hwmHighest (s : State) (kind : Nat) : Nat :=
  (((([0, 1] : List Nat).flatMap fun b => (List.range (hwmUsed s b)).map (hwmOctets s b)).filter fun o =>
    recOk o && decide (field o 0 1 = kind ∧ field o 1 3 = 0)).map fun o => field o 4 8).foldl max 0

/-- The octets of a record. -/
def hwmRecord (kind value : Nat) : List Byte :=
  let b := leBytes 4 kind ++ leBytes 8 value
  b ++ leBytes 4 (crc32 b)

/-- The active block: the one being filled. -/
def hwmActive (s : State) : Nat := if 0 < hwmUsed s 1 ∧ hwmUsed s 1 < 4096 then 1 else if hwmUsed s 0 < 4096 then 0 else 1

/-- Record a value: a full active block gives way to the other one, which is erased and takes the present value of each kind
first. -/
def hwmAppend (s : State) (kind value : Nat) : State :=
  let b := hwmActive s
  let put := fun (s : State) (b k v : Nat) => s.flashWrite (Region.FC_HWM + 65536 * b + 16 * hwmUsed s b) (hwmRecord k v)
  if hwmUsed s b < 4096 then put s b kind value
  else
    let o := 1 - b
    let s := s.flashErase (Region.FC_HWM + 65536 * o) 65536
    let s := ([1, 2, 3] : List Nat).foldl (fun s k => put s o k (nvValue s k)) s
    put s o kind value

/-- BOOT_ROM takes the counters from their records (R638): H + S, recorded before the first use. -/
def hwmRestore (s : State) : State :=
  let s := { s with nv := {} }
  ([1, 2, 3] : List Nat).foldl (fun s k =>
    let v := hwmHighest s k + nvStep k
    let s := hwmAppend s k v
    { s with nv := { s.nv with value := Cells.set s.nv.value k v 0 } }) s

/-- FC_HWM_PROGRAMMED (R638): the record of a counter is programmed, and its users go on. -/
def execFcHwmProgrammed (dt : Nat) (kind : Fin 3) (s : State) : Result :=
  let k := kind.val + 1
  whenever dt s (fun s => decide (Cells.get s.nv.programming k 0 ≠ 0)) fun s =>
    let s := hwmAppend s k (Cells.get s.nv.programming k 0)
    { s with nv := { s.nv with programming := Cells.erase s.nv.programming k } }

/-! XSPI_PROG (R646). -/

namespace ProgCause
def PROTECTED : Nat := 1
def ALIGN : Nat := 2
def VERIFY : Nat := 3
end ProgCause

/-- The cause with which an operation ends before it changes anything. -/
def progCause (s : State) (o : ProgOp) : Nat :=
  let a := if o.erase then o.ofs / 65536 * 65536 else o.ofs
  let n := if o.erase then 65536 else o.len
  if !rangeAllowed s a n then ProgCause.PROTECTED
  else if o.erase then (if o.ofs % 65536 = 0 then 0 else ProgCause.ALIGN)
  else if 1 ≤ o.len ∧ o.len ≤ 65536 ∧ o.ofs % 256 = 0 then 0
  else ProgCause.ALIGN

/-- The octets that a PROGRAM takes from LP4X. -/
def progData (s : State) (o : ProgOp) : List Byte := if s.inLp4x o.src o.len then s.ddr o.src o.len else freeOctets s o.len

/-- A write of XSPI_PROG_CMD (R646). -/
def writeProgCmd (s : State) (v : Nat) : State :=
  let op := bits v 62 60
  if !bit v 63 || s.flag Reg.XSPI_PROG_STATUS.BUSY || !(op == 1 || op == 2) then s
  else
    let o : ProgOp := { erase := decide (op = 1), src := s.get Reg.XSPI_PROG_ADDR.SRC * 256
                        ofs := s.get Reg.XSPI_PROG_ADDR.OFS, len := bits v 16 0 }
    { s.setFlag Reg.XSPI_PROG_STATUS.BUSY true with upd := { s.upd with prog := some o } }

/-- XSPI_ERASE and XSPI_PROGRAM (R646). -/
def execXspiErase (dt : Nat) (value : Word) (s : State) : Result :=
  step' dt s fun s => (writeProgCmd s (2 ^ 63 + 2 ^ 60 + bits value.toNat 16 0)).answer 0
def execXspiProgram (dt : Nat) (value : Word) (s : State) : Result :=
  step' dt s fun s => (writeProgCmd s (2 ^ 63 + 2 ^ 61 + bits value.toNat 16 0)).answer 0

/-- XSPI_PROG_DONE (R646): `verifyOk` says whether what was programmed reads back. Programming clears bits and sets none. -/
def execXspiProgDone (dt : Nat) (verifyOk : Bool) (s : State) : Result :=
  step' dt s fun s =>
    match s.upd.prog with
    | none => s
    | some o =>
      let c := progCause s o
      let data := progData s o
      let draws := decide (c = 0) && !o.erase && !s.inLp4x o.src o.len
      let result := data.zipWith (fun b old => b &&& old) (s.flash o.ofs o.len)
      let cause := if c ≠ 0 then c
        else if o.erase then (if verifyOk then 0 else ProgCause.VERIFY)
        else if verifyOk ∧ result = data then 0 else ProgCause.VERIFY
      let s := s.onlyIf draws State.drawn
      let s := s.onlyIf (decide (c = 0)) fun s =>
        if !verifyOk then flashTorn s o.ofs (if o.erase then 65536 else o.len)
        else if o.erase then s.flashErase o.ofs 65536
        else s.flashWrite o.ofs result
      let s := (s.setFlag Reg.XSPI_PROG_STATUS.BUSY false).setFlag Reg.XSPI_PROG_STATUS.DONE true
      let s := s.set Reg.XSPI_PROG_STATUS.CAUSE cause
      let s := s.onlyIf (decide (cause ≠ 0)) fun s => s.setFlag Reg.XSPI_PROG_STATUS.FAIL true
      { s with upd := { s.upd with prog := none } }

/-- A restart cuts a flash operation short. -/
def progTear (s : State) : State :=
  match s.upd.prog with
  | none => s
  | some o => s.onlyIf (decide (progCause s o = 0)) fun s => flashTorn s o.ofs (if o.erase then 65536 else o.len)

end Sys2Proof.Machine
end

