-- ==== Sys2Proof/Machine/RadioSection.lean ====
section
/-!
DEFINITION. The PROFILE and RADIO_PLAN sections (R132 to R137, R146, R179, R682, R683): length, format, admission and loading.
-/

namespace Sys2Proof.Machine

/-! PROFILE (0x0001). -/

/-- The modes that a profile permits (R670). -/
def profilePermits (profile : Nat) : Nat := if profile = 2 then 5 else if profile = 3 then 1 else 7

/-- The format rules of R682 and R670. -/
def profileFormat (p : List Byte) : Option Breach :=
  let u := field p
  fmt 0x01 ([
    rule 0 (decide (u 0 1 ≤ 2)),
    rule 1 (decide (u 1 1 ≠ 0 ∧ u 1 1 < 8 ∧ u 1 1 &&& profilePermits (u 0 1) = u 1 1)),
    rule 2 (decide (u 2 1 ≤ 1) && bit (u 1 1) (u 2 1)),
    rule 3 (decide (u 3 1 < 4)),
    rule 4 (decide (-40 ≤ sfield p 4 1 ∧ sfield p 4 1 ≤ 105)),
    rule 5 (within (u 5 1) 1 60),
    rule 6 (within (u 6 2) 1 65534),
    rule 8 (within (u 8 4) 1 86400),
    rule 0xC (within (u 0xC 2) 10 5000),
    rule 0xE (within (u 0xE 2) 2900 4200),
    rule 0x10 (decide (u 0x10 4 % 65536 = 0 ∧ 0x9800000 ≤ u 0x10 4 ∧ u 0x10 4 + 0x20000 ≤ 0x10000000))] ++
    reserved p 0x14 12)

/-- The refusals of R677. -/
def profileAdmit (gradeXC : Bool) (p : List Byte) : Option Breach :=
  let hot := decide (85 < sfield p 4 1)
  fmt 0x01 [rule 0 (!gradeXC || !hot || decide (field p 0 1 ≠ 0)), rule 4 (gradeXC || !hot)]

/-- ADMIT loads the PROFILE section (R682); a start made on backup runs in OUTAGE from entry to RUN (R685). -/
def profileLoad (p : List Byte) (s : State) : State :=
  let u := field p
  let s := (s.set Reg.CHAN_HEAR_CTRL.PERMIT (u 1 1)).set Reg.CHAN_HEAR_CTRL.BASE (u 2 1)
  let s := s.setFlag Reg.CHAN_HEAR_CTRL.AUTO_STORM (bit (u 3 1) 0)
  let s := (s.set Reg.FWD_IDX_CTRL.JOIN_HOLD (u 5 1)).set Reg.FWD_IDX_CTRL.SWEEP_PERIOD (u 8 4)
  let s := (s.setFlag Reg.HEALTH_CFG.OUTAGE_EN (bit (u 3 1) 1)).set Reg.HEALTH_CFG.AMB_MAX (u 4 1)
  let s := (s.set Reg.HEALTH_CFG.WARN_DAYS (u 6 2)).set Reg.HEALTH_CFG.OUT_DEBOUNCE_MS (u 0xC 2)
  let s := (s.set Reg.HEALTH_CFG.VBAT_WAKE_MIN (u 0xE 2)).set Reg.HEALTH_STATUS.PROFILE (u 0 1)
  let s := { s with health := { s.health with profile := u 0 1, logOfs := u 0x10 4 } }
  s.setFlag (Reg.LOCK Block.HEALTH) true

/-! RADIO_PLAN (0x0002). -/

/-- Where the transmit-LO records and the mask segments begin. -/
def txloAt (p : List Byte) : Nat := 0x68 + 16 * field p 0x60 2
def maskAt (p : List Byte) : Nat := txloAt p + 8 * field p 0x62 2

/-- The length the counts imply. -/
def radioLen (p : List Byte) : Nat := maskAt p + 8 * field p 0x64 2

/-- How many of `n` records of `size` octets from `base` have FE (at offset `off`) equal to `fe`. -/
def feCount (p : List Byte) (base size off n fe : Nat) : Nat :=
  ((List.range n).filter fun i => decide (field p (base + size * i + off) 1 = fe)).length

/-- A receivable centre of a front end (R93, R94). -/
def receivable (p : List Byte) (fe khz : Nat) : Bool :=
  if fe = 2 then decide (2405000 ≤ khz ∧ khz ≤ 2480000 ∧ khz % 5000 = 0)
  else
    let lo := field p (32 * fe + 4) 4
    decide (lo ≤ khz + 20000 ∧ khz ≤ lo + 19800 ∧ (khz + 20000 - lo) % 200 = 0)

/-- The rules of a front-end record (R133). -/
def feRules (p : List Byte) (i : Nat) : List (Bool × Nat) :=
  let o := 32 * i
  let u := fun k n => field p (o + k) n
  [rule o (decide (u 0 1 ≤ 2)), rule (o + 1) (decide (u 1 1 ≤ 1)),
   rule (o + 2) (if i = 2 then decide (u 2 1 = 1) else within (u 2 1) 1 8),
   rule (o + 3) (if i = 2 then decide (u 3 1 = 0) else decide (u 3 1 ≤ 2)),
   rule (o + 4) (if i = 2 then decide (u 4 4 = 2442500) else within (u 4 4) 779000 960000),
   rule (o + 0xE) (decide (u 0xE 1 ≤ 10)), rule (o + 0xF) (decide (u 0xF 1 ≤ 10)),
   rule (o + 0x10) (decide (u 0x10 1 ≤ 100)), rule (o + 0x11) (decide (u 0x11 1 ≤ 100)),
   rule (o + 0x12) (!bit (u 0x12 1) i)] ++ reserved p (o + 0x13) 13

/-- The rules of a sub-band record (R134, R135); R179 is left to ADMIT. Where LOW_KHZ exceeds HIGH_KHZ the model names LOW_KHZ, a
choice: the rule does not tell which of the two offends. -/
def subbandRules (p : List Byte) (i : Nat) : List (Bool × Nat) :=
  let o := 0x68 + 16 * i
  let u := fun k n => field p (o + k) n
  [rule o (decide (u 0 1 ≤ 2)),
   rule (o + 1) (decide (u 1 1 ≤ 31) && (List.range i).all fun j => decide (field p (0x68 + 16 * j + 1) 1 ≠ u 1 1)),
   rule (o + 4) (receivable p (u 0 1) (u 4 4) && decide (u 4 4 ≤ u 8 4)), rule (o + 8) (receivable p (u 0 1) (u 8 4)),
   rule (o + 0xE) (decide (u 0xE 1 ≤ 6))] ++ reserved p (o + 0xF) 1

/-- The format rules of R132 to R137. -/
def radioFormat (p : List Byte) : Option Breach :=
  let u := field p
  let nt := u 0x62 2
  let nm := u 0x64 2
  let cnt := fun fe => feCount p (txloAt p) 8 4 nt fe
  let seg := fun fe => feCount p (maskAt p) 8 0 nm fe
  fmt 0x02 (
    (List.range 3).flatMap (feRules p) ++
    [rule 0x60 (within (u 0x60 2) 1 32), rule 0x62 (decide (cnt 0 ≤ 512 ∧ cnt 1 ≤ 512 ∧ cnt 2 ≤ 64)),
     rule 0x64 (decide (seg 0 ≤ 32 ∧ seg 1 ≤ 32)), rule 0x66 (zeros p 0x66 2)] ++
    (List.range (u 0x60 2)).flatMap (subbandRules p) ++
    ((List.range nt).flatMap fun i =>
      rule (txloAt p + 8 * i + 4) (decide (u (txloAt p + 8 * i + 4) 1 ≤ 2)) :: reserved p (txloAt p + 8 * i + 5) 3) ++
    ((List.range nm).flatMap fun i =>
      [rule (maskAt p + 8 * i) (decide (u (maskAt p + 8 * i) 1 ≤ 1)), rule (maskAt p + 8 * i + 1) (decide (u (maskAt p + 8 * i + 1) 1 ≤ 31))]))

/-- The highest cap of a front end (R76, TX_POWER). -/
def capLimit (p : List Byte) (fe : Nat) : Int :=
  if field p (32 * fe + 1) 1 = 1 then 120 else if fe = 2 then 72 else 80

/-- A sub-band record as the receivers use it. -/
def subbandAt (p : List Byte) (i : Nat) : SubBand :=
  let o := 0x68 + 16 * i
  { fe := field p o 1, index := field p (o + 1) 1, modes := field p (o + 2) 2, lowKhz := field p (o + 4) 4
    highKhz := field p (o + 8) 4, capQdbm := sfield p (o + 12) 2, syncTol := field p (o + 14) 1 }

/-- Two sub-bands share a bin of a front end (R146). -/
def bandsOverlap (a b : SubBand) : Bool := decide (a.fe = b.fe ∧ a.lowKhz ≤ b.highKhz ∧ b.lowKhz ≤ a.highKhz)

/-- A frequency in a front end's transmit tuning range (R93, R94). -/
def tunable (fe khz : Nat) : Bool :=
  if fe = 2 then decide (2405000 ≤ khz ∧ khz ≤ 2480000 ∧ khz % 5000 = 0) else within khz 779000 960000

/-- ADMIT on RADIO_PLAN (R76, R93, R146, R179), by ascending offset. -/
def radioAdmit (p : List Byte) : Option Breach :=
  let n := field p 0x60 2
  firstBreach (
    ((List.range 3).map fun i => refuse 0x0207 0x02 [rule (32 * i + 8) (decide (sfield p (32 * i + 8) 2 ≤ capLimit p i))]) ++
    ((List.range n).map fun i =>
      let o := 0x68 + 16 * i
      let b := subbandAt p i
      let modesOk := if b.fe = 2 then decide (b.modes = 0x8000) else decide (b.modes % 4096 ≠ 0 ∧ b.modes < 4096)
      firstBreach [
        fmt 0x02 [rule (o + 2) modesOk, rule (o + 4) ((List.range i).all fun j => !bandsOverlap (subbandAt p j) b)],
        refuse 0x0207 0x02 [rule (o + 0xC) (decide (b.capQdbm ≤ capLimit p b.fe))]]) ++
    ((List.range (field p 0x62 2)).map fun i =>
      refuse 0x0205 0x02 [(tunable (field p (txloAt p + 8 * i + 4) 1) (field p (txloAt p + 8 * i) 4), i)]))

/-- A front-end record is loaded (R92, R142). -/
def feLoad (p : List Byte) (s : State) (i : Nat) : State :=
  let u := fun k n => field p (32 * i + k) n
  let s := (s.set (Reg.FE_RX_CFG.RX_LO_KHZ i) (u 4 4)).set (Reg.FE_TX_CTRL.CAP_QDBM i) (u 8 2)
  let s := (s.set (Reg.FE_TX_CTRL.MAX_CARRIERS i) (u 2 1)).set (Reg.FE_TX_CTRL.TXD_DATA i) (u 0x10 1)
  let s := (s.set (Reg.FE_TX_CTRL.TXD_ACK i) (u 0x11 1)).setFlag (Reg.FE_FEM_CTRL.PRESENT i) (bit (u 1 1) 0)
  let s := (s.set (Reg.FE_FEM_CTRL.TX_GAIN_QDB i) (u 0xA 1)).set (Reg.FE_FEM_CTRL.RX_GAIN_QDB i) (u 0xB 1)
  let s := (s.set (Reg.FE_FEM_CTRL.PATTERNS i) (u 0xC 2)).set (Reg.FE_FEM_CTRL.LEAD i) (u 0xE 1)
  let s := (s.set (Reg.FE_FEM_CTRL.LAG i) (u 0xF 1)).set (Reg.FE_BLANK_CTRL.PEERS i) (u 0x12 1)
  let s := s.onlyIf (decide (i < 2)) fun s => s.set (Reg.FE_MASK_CTRL.ACT i) (u 3 1)
  let s := { s with start := { s.start with enable := s.start.enable + u 0 1 * 4 ^ i } }
  s.setFlag (Reg.LOCK (Block.FE i)) true

/-- The transmit-LO records of a front end fill its table (R97). -/
def txloLoad (p : List Byte) (s : State) (fe : Nat) : State :=
  let recs := ((List.range (field p 0x62 2)).map fun i => txloAt p + 8 * i).filter fun o => decide (field p (o + 4) 1 = fe)
  let s := s.setFe fe { s.fe fe with used := recs.length }
  recs.zipIdx.foldl (fun s r =>
    (s.set (Reg.FE_TXCAL_ENTRY.FREQ_KHZ fe r.2) (field p r.1 4)).set (Reg.FE_TXCAL_ENTRY.STATE fe r.2) 0) s

/-- The enabled bins of a front end (R146). -/
def binsLoad (s : State) (fe : Nat) : State :=
  (List.range (if fe = 2 then 16 else 200)).foldl (fun s b =>
    s.onlyIf (decide (s.start.enable / 4 ^ fe % 4 ≠ 0) && (subbandOf s fe b).isSome) fun s =>
      s.setBit (Reg.CHAN_BIN_EN.EN (fe * 4 + b / 64)) (b % 64)) s

/-- ADMIT loads RADIO_PLAN. Of two mask-segment records with one FE and INDEX the later stands: the model's choice (R136). -/
def radioLoad (p : List Byte) (s : State) : State :=
  let s := { s with start := { s.start with enable := 0 } }
  let s := (List.range 3).foldl (feLoad p) s
  let s := { s with hear := { s.hear with subbands := (List.range (field p 0x60 2)).map (subbandAt p) } }
  let s := (List.range 3).foldl (txloLoad p) s
  let s := (List.range (field p 0x64 2)).foldl (fun s i =>
    let o := maskAt p + 8 * i
    let fe := field p o 1
    let k := field p (o + 1) 1
    let s := (s.setFlag (Reg.FE_MASK_SEG.EN fe k) true).set (Reg.FE_MASK_SEG.LOW_OFS fe k) (field p (o + 2) 2)
    (s.set (Reg.FE_MASK_SEG.HIGH_OFS fe k) (field p (o + 4) 2)).set (Reg.FE_MASK_SEG.LIMIT_QDBM fe k) (field p (o + 6) 2)) s
  let s := (List.range 3).foldl binsLoad s
  s.setFlag (Reg.LOCK Block.CHAN) true

end Sys2Proof.Machine
end

