-- ==== Sys2Proof/Machine/ScheduleSection.lean ====
section
/-!
DEFINITION. The SCHEDULE section (R730, R743 to R745, R242, R247): length, format, admission and loading.
-/

namespace Sys2Proof.Machine

/-! Layout (R730). -/

/-- Octet offset of slotframe record `i` and of free-run record `f`. -/
def sfAt (i : Nat) : Nat := 0x40 + 8 * i
def frAt (f : Nat) : Nat := 0x80 + 16 * f

/-- Is a slotframe or a free-run channel of the payload enabled? -/
def sfOn (p : List Byte) (i : Nat) : Bool := bit (field p (sfAt i) 1) 0
def frOn (p : List Byte) (f : Nat) : Bool := bit (field p (frAt f) 1) 0

/-- HOP_LEN of an enabled slotframe; a disabled one has no hopping entries. -/
def hopLen (p : List Byte) (i : Nat) : Nat := if sfOn p i then field p (sfAt i + 2) 2 else 0

/-- Hopping entries before slotframe `i`'s, and in all. -/
def hopsBefore (p : List Byte) (i : Nat) : Nat := ((List.range i).map (hopLen p)).sum
def hopsAll (p : List Byte) : Nat := hopsBefore p 8

/-- Octet offset of hopping entry `k` of slotframe `i`, and of cell word `c`. -/
def hopAt (p : List Byte) (i k : Nat) : Nat := 0xC0 + 8 * (hopsBefore p i + k)
def cellAt (p : List Byte) (c : Nat) : Nat := 0xC0 + 8 * (hopsAll p + c)

/-- The length the counts imply (R744). -/
def scheduleLen (p : List Byte) : Nat := 0xC0 + 8 * (hopsAll p + field p 0x2C 4)

/-- A BIN of a front end (R143). -/
def binOk (fe bin : Nat) : Bool := decide (bin ≤ if fe = 2 then 15 else 199)

/-- The rules of a slotframe record, a free-run record, a hopping entry and a cell word (R743). -/
def sfRules (p : List Byte) (i : Nat) : List (Bool × Nat) :=
  let o := sfAt i
  let u := fun k n => field p (o + k) n
  if sfOn p i then
    [rule o (decide (u 0 1 = 1)), rule (o + 2) (within (u 2 2) 1 256), rule (o + 4) (decide (1 ≤ u 4 2))] ++ reserved p (o + 6) 2
  else reserved p o 8
def frRules (p : List Byte) (f : Nat) : List (Bool × Nat) :=
  let o := frAt f
  let u := fun k n => field p (o + k) n
  if frOn p f then
    [rule o (decide (u 0 1 = 1)),
     rule (o + 1) (decide (u 1 1 ≤ 2) && (List.range f).all fun j =>
       !(frOn p j && decide (field p (frAt j + 1) 1 = u 1 1 ∧ field p (frAt j + 2) 1 = u 2 1))),
     rule (o + 2) (binOk (u 1 1) (u 2 1)),
     rule (o + 3) (decide (3 ≤ u 3 1 % 16 ∧ u 3 1 % 16 ≤ u 3 1 / 16 ∧ u 3 1 / 16 ≤ 8)),
     rule (o + 4) (within (u 4 1) 1 15), rule (o + 6) (within (u 6 2) 160 5000)] ++ reserved p (o + 0xA) 6
  else reserved p o 16
def hopRules (p : List Byte) (o : Nat) : List (Bool × Nat) :=
  [rule o (decide (field p o 1 ≤ 2)), rule (o + 1) (binOk (field p o 1) (field p (o + 1) 1))] ++ reserved p (o + 4) 4
def cellRules (p : List Byte) (o : Nat) : List (Bool × Nat) :=
  let w := field p o 8
  [rule o (if bit w 63 then decide (w % 2048 = 0) else decide (w = 0))]

/-- Offsets of the hopping entries, in order. -/
def hopOffsets (p : List Byte) : List (Nat × Nat × Nat) :=
  (List.range 8).flatMap fun i => (List.range (hopLen p i)).map fun k => (i, k, hopAt p i k)

/-- The format rules that R744 leaves to IMAGE_VERIFY. -/
def scheduleFormat (p : List Byte) : Option Breach :=
  let u := field p
  fmt 0x03 (
    reserved p 0x0E 2 ++
    [rule 0x1A (decide (u 0x1A 2 ≠ 0xFFFF)), rule 0x1E (within (u 0x1E 1) 1 15), rule 0x1F (decide (u 0x1F 1 < 2)),
     rule 0x20 (within (u 0x20 2) 1 600),
     rule 0x23 (decide (u 0x23 1 % 16 ≤ u 0x23 1 / 16 ∧ u 0x23 1 / 16 ≤ 8)), rule 0x24 (decide (u 0x24 1 ≤ 15)),
     rule 0x25 (decide (u 0x25 1 ≤ 11 ∨ u 0x25 1 = 15)), rule 0x26 (decide (1 ≤ u 0x26 1)), rule 0x27 (decide (u 0x27 1 ≤ 63)),
     rule 0x28 (within (u 0x28 2) 32 1023), rule 0x2A (decide (u 0x2A 1 ≤ 2))] ++
    reserved p 0x2B 1 ++ [rule 0x2C (decide (u 0x2C 4 ≤ 65536))] ++ reserved p 0x30 16 ++
    (List.range 8).flatMap (sfRules p) ++ (List.range 4).flatMap (frRules p) ++
    (hopOffsets p).flatMap (fun h => hopRules p h.2.2) ++
    (List.range (u 0x2C 4)).flatMap (fun c => cellRules p (cellAt p c)))

/-- The template's ranges and relations (R241, R242). -/
def templateRules (p : List Byte) : List (Bool × Nat) :=
  let u := field p
  [rule 0 (within (u 0 2) 400 4000), rule 2 (within (u 2 2) 100 20000), rule 4 (within (u 4 2) 100 10000),
   rule 6 (decide (u 6 2 ≤ 20000)), rule 8 (within (u 8 2) 128 1000), rule 0xA (within (u 0xA 2) 350 10000),
   rule 0xC (within (u 0xC 2) 100 2000), (decide (u 6 2 + u 8 2 ≤ u 2 2), 0), (decide (u 4 2 ≤ 2 * u 2 2), 0)]

/-- ADMIT loads the SCHEDULE section (R745). -/
def scheduleLoad (p : List Byte) (s : State) : State :=
  let u := field p
  let s := (s.set Reg.MAC_SLOT_0.SLOT_LEN (u 0 2)).set Reg.MAC_SLOT_0.TX_OFFSET (u 2 2)
  let s := (s.set Reg.MAC_SLOT_0.RX_WAIT (u 4 2)).set Reg.MAC_SLOT_1.CCA_OFFSET (u 6 2)
  let s := (s.set Reg.MAC_SLOT_1.CCA_LEN (u 8 2)).set Reg.MAC_SLOT_1.TX_ACK_DELAY (u 0xA 2)
  let s := (s.set Reg.MAC_SLOT_1.ACK_WAIT (u 0xC 2)).set Reg.MAC_ASN_EPOCH.EPOCH_NS (u 0x10 8)
  let s := (s.set Reg.MAC_ADDR.PAN_ID (u 0x18 2)).set Reg.MAC_ADDR.SHORT (u 0x1A 2)
  let s := (s.set Reg.MAC_FLOOD_CTRL.SEED_ID (u 0x1C 2)).set Reg.MAC_FLOOD_CTRL.HOPS (u 0x1E 1)
  let s := (s.set Reg.MAC_FLOOD_CTRL.LIFE (u 0x20 2)).set Reg.MAC_CSMA_CTRL.CCA_THRESH (u 0x22 1)
  let s := (s.set Reg.MAC_CSMA_CTRL.MIN_BE (u 0x23 1)).set Reg.MAC_CSMA_CTRL.MAX_BE (u 0x23 1 / 16)
  let s := (s.set Reg.MAC_CSMA_CTRL.MAX_RETRIES (u 0x24 1)).setFlag Reg.MAC_EB_CTRL.EN (bit (u 0x1F 1) 0)
  let s := (s.set Reg.MAC_EB_CTRL.MODE (u 0x25 1)).set Reg.MAC_EB_CTRL.FULL_EVERY (u 0x26 1)
  let s := (s.set Reg.MAC_EB_CTRL.KEY_SLOT (u 0x27 1)).set Reg.MAC_EB_CTRL.MAX_LEN (u 0x28 2)
  let s := s.set Reg.MAC_EB_CTRL.CR (u 0x2A 1)
  let s := (List.range 8).foldl (fun s i =>
    let r := fun k n => field p (sfAt i + k) n
    let s := (s.setFlag (Reg.MAC_SF.EN i) (sfOn p i)).set (Reg.MAC_SF.HANDLE i) (r 1 1)
    (s.set (Reg.MAC_SF.HOP_LEN i) (r 2 2)).set (Reg.MAC_SF.LENGTH i) (r 4 2)) s
  let s := (List.range 4).foldl (fun s f =>
    let r := fun k n => field p (frAt f + k) n
    let s := (s.setFlag (Reg.MAC_FR.EN f) (frOn p f)).set (Reg.MAC_FR.FE f) (r 1 1)
    let s := (s.set (Reg.MAC_FR.BIN f) (r 2 1)).set (Reg.MAC_FR.MIN_BE f) (r 3 1)
    let s := (s.set (Reg.MAC_FR.MAX_BE f) (r 3 1 / 16)).set (Reg.MAC_FR.MAX_TRIES f) (r 4 1)
    let s := (s.set (Reg.MAC_FR.THRESH f) (r 5 1)).set (Reg.MAC_FR.LISTEN f) (r 6 2)
    s.set (Reg.MAC_FR.CHNUM f) (r 8 2)) s
  let s := (hopOffsets p).foldl (fun s h =>
    let n := 256 * h.1 + h.2.1
    let s := (s.set (Reg.MAC_HOP.FE n) (field p h.2.2 1)).set (Reg.MAC_HOP.BIN n) (field p (h.2.2 + 1) 1)
    s.set (Reg.MAC_HOP.CHNUM n) (field p (h.2.2 + 2) 2)) s
  let cells := ((List.range (u 0x2C 4)).map fun c => (c, field p (cellAt p c) 8)).filter fun e => decide (e.2 ≠ 0)
  s.setTables { s.tables with cells := cells }

/-- ADMIT on the SCHEDULE section, with the image loaded tentatively into `t` (R242, R247, R744, R76, R683): the template first,
then item by item in ascending ITEM (R74). -/
def scheduleAdmit (t : State) (p : List Byte) : Option Breach :=
  let enabled := fun (o : Nat) => binEnabled t (field p o 1) (field p (o + 1) 1)
  let outage := t.set Reg.HEALTH_STATUS.PROFILE 3
  let format := fun (o : Nat) (ok : Bool) => (ok, 0x0109, o / 8)
  let slots := List.range (hyperPeriod t)
  let outageLanes := !(t.flag Reg.HEALTH_CFG.OUTAGE_EN && slots.any fun a =>
    laneBudgetFails outage a false || laneBudgetFails outage a true)
  match firstFailing (templateRules p) with
  | some i => some { code := 0x0109, sect := 0x03, item := i }
  | none =>
    (lowestItem (scheduleChecks t ++ [(outageLanes, 0x0208, 0)] ++
      (List.range 4).map (fun f => format (frAt f + 2) (!frOn p f || enabled (frAt f + 1))) ++
      (hopOffsets p).map (fun h => format h.2.2 (enabled h.2.2 && (List.range 4).all fun f =>
        !(frOn p f && decide (field p (frAt f + 1) 2 = field p h.2.2 2)))))).map fun c =>
      { code := c.1, sect := 0x03, item := c.2 }

end Sys2Proof.Machine
end

