-- ==== Sys2Proof/Machine/TrafficSections.lean ====
section
/-!
DEFINITION. The TENANTS, SHAPERS, POLICERS, PREFIXES and KEYS_WRAPPED sections (R309, R310, R364 to R367, R426 to R432, R533).
-/

namespace Sys2Proof.Machine

/-- The first failing check over items: each item has its checks. -/
def items (n : Nat) (check : Nat → Bool) (base : Nat := 0) : List (Bool × Nat) := (List.range n).map fun i => (check i, base + i)

/-! TENANTS (0x0004, R430). -/

def tenantsLen (p : List Byte) : Nat := 8 + 8 * field p 0 2
def tenantsFormat (p : List Byte) : Option Breach :=
  let u := fun i k n => field p (8 + 8 * i + k) n
  fmt 0x04 ((within (field p 0 2) 1 256 && zeros p 2 6, 0xFFFF) ::
    items (field p 0 2) fun i => decide (u i 0 1 ≤ 63 ∧ u i 1 1 = 0 ∧ 1 ≤ u i 2 2 ∧ u i 4 4 = 0))
def tenantsLoad (p : List Byte) (s : State) : State :=
  let n := field p 0 2
  let s := { s with sched := { s.sched with
    tenants := n
    tenantSeq := (List.range n).foldl (fun m i => Cells.set m i (field p (8 + 8 * i) 1) 0) [] } }
  (List.range n).foldl (fun s i => s.set (Reg.SCHED_T_CFG.WEIGHT i) (field p (8 + 8 * i + 2) 2)) s

/-! SHAPERS (0x0005, R431). -/

/-- Where the tenant-shaper and the queue records begin. -/
def tshAt (p : List Byte) : Nat := 16 + 8 * field p 4 2
def qrecAt (p : List Byte) : Nat := tshAt p + 16 * field p 6 2
def shapersLen (p : List Byte) : Nat := qrecAt p + 32 * field p 8 2

/-- A duty record: HOUR_MS, RESERVE_MS and PRESET_MS. -/
def dutyRec (p : List Byte) (i : Nat) : Nat × Nat × Nat × Nat :=
  (field p (16 + 8 * i) 1, field p (17 + 8 * i) 3, field p (20 + 8 * i) 2, field p (22 + 8 * i) 2)

/-- The format rules of R431; TENANT and SUBBAND are judged against TENANTS and RADIO_PLAN. -/
def shapersFormat (im : Sections) (p : List Byte) : Option Breach :=
  let nd := field p 4 2
  let nt := field p 6 2
  let tenants := field ((sectionOf im 4).getD []) 0 2
  let plan := (sectionOf im 2).getD []
  let subOk := fun x => (List.range (field plan 0x60 2)).any fun i => decide (field plan (0x69 + 16 * i) 1 = x)
  let t := fun i k n => field p (tshAt p + 16 * i + k) n
  let q := fun i k n => field p (qrecAt p + 32 * i + k) n
  fmt 0x05 ((decide (nd ≤ 32 ∧ nt ≤ 1792 ∧ field p 8 2 ≤ 14336 ∧ field p 0 4 < 2 ^ 22) && zeros p 0xA 6, 0xFFFF) ::
    items nd (fun i =>
      let r := dutyRec p i
      subOk r.1 && within r.2.1 1 3600000 && decide (2 * r.2.2.1 < r.2.1 ∧ r.2.2.2 ≤ r.2.1 - r.2.2.1)) ++
    items nt (fun i => decide (t i 0 1 ≤ 6 ∧ t i 1 1 < tenants ∧ t i 2 2 = 0 ∧ t i 8 4 < 2 ^ 24 ∧ t i 12 4 = 0)) nd ++
    items (field p 8 2) (fun i => decide (q i 0 2 < 14336 ∧ q i 2 2 < 2 ∧ q i 4 4 < 2 ^ 23 ∧ q i 8 2 ≤ 7680 ∧
      1 ≤ q i 0xC 4 ∧ q i 0xC 4 < 2 ^ 24 ∧ q i 0x14 4 < 2 ^ 24 ∧ (q i 0x18 4 = 0 ∨ q i 0x10 4 ≤ q i 0x18 4) ∧
      q i 0x1C 4 < 2 ^ 24)) (nd + nt))

/-- ADMIT loads the SHAPERS section. -/
def shapersLoad (p : List Byte) (s : State) : State :=
  let s := s.set Reg.QMGR_POOL_CFG.RESERVE (field p 0 4)
  let s := (List.range (field p 4 2)).foldl (fun s i =>
    let r := dutyRec p i
    ((s.set (Reg.SCHED_DUTY_CFG.HOUR_MS r.1) r.2.1).set (Reg.SCHED_DUTY_CFG.RESERVE_MS r.1) r.2.2.1).set
      (Reg.SCHED_DUTY_CFG.PRESET_MS r.1) r.2.2.2) s
  let s := (List.range (field p 6 2)).foldl (fun s i =>
    let t := fun k n => field p (tshAt p + 16 * i + k) n
    let k := 256 * t 0 1 + t 1 1
    (s.set (Reg.SCHED_T_PIR.T_PIR k) (t 4 4)).set (Reg.SCHED_T_CFG.T_PBS k) (t 8 4)) s
  (List.range (field p 8 2)).foldl (fun s i =>
    let r := fun k n => field p (qrecAt p + 32 * i + k) n
    let q := r 0 2
    let s := (s.setFlag (Reg.QMGR_Q_CFG.EN q) (bit (r 2 2) 0)).set (Reg.QMGR_Q_CFG.QMAX q) (r 4 4)
    let s := (s.set (Reg.QMGR_Q_CFG.SPILL_THRESH q) (r 8 2)).set (Reg.QMGR_Q_CFG.LIFE_MS q) (r 0xA 2)
    let s := (s.set (Reg.SCHED_Q_DWRR.QUANTUM q) (r 0xC 4)).set (Reg.SCHED_Q_RATE.CIR q) (r 0x10 4)
    let s := (s.set (Reg.SCHED_Q_BURST.CBS q) (r 0x14 4)).set (Reg.SCHED_Q_RATE.PIR q) (r 0x18 4)
    s.set (Reg.SCHED_Q_BURST.PBS q) (r 0x1C 4)) s

/-- DUTY_COMMIT and RATE_COMMIT (R426, R427), on the image loaded tentatively into `t`. -/
def shapersAdmit (t : State) : Option Breach :=
  match scheduleCause t with
  | some (c, i) => if 0x0209 ≤ c then some { code := c, sect := 0x05, item := i } else none
  | none => none

/-! POLICERS (0x0006, R432, R428). -/

def mapAt (p : List Byte) : Nat := 8 + 24 * field p 0 4
def policersLen (p : List Byte) : Nat := mapAt p + 4 * field p 4 4
def policersFormat (p : List Byte) : Option Breach :=
  let np := field p 0 4
  let u := fun i k n => field p (8 + 24 * i + k) n
  let key := fun i => field p (mapAt p + 4 * i) 2
  fmt 0x06 ((decide (np ≤ 16384 ∧ field p 4 4 ≤ 8192), 0xFFFF) ::
    items np (fun i => decide (u i 0 1 ≤ 3 ∧ u i 1 1 < 4 ∧ u i 2 1 ≤ 3 ∧ u i 3 1 ≤ 1 ∧ u i 20 1 ≤ 63 ∧ u i 21 1 ≤ 63 ∧ u i 22 2 = 0)) ++
    items (field p 4 4) (fun i => decide (key i < 8192 ∧ field p (mapAt p + 4 * i + 2) 2 < np) &&
      (List.range i).all fun j => decide (key j ≠ key i)) np)

/-- POLICER_RANGE (0x020B). -/
def policersAdmit (p : List Byte) : Option Breach :=
  refuse 0x020B 0x06 (items (field p 0 4) fun i =>
    let u := fun k n => field p (8 + 24 * i + k) n
    let mode := u 0 1
    let rate := fun lo x => within x lo 3125000000
    let depth := fun x => within x 4096 16777215
    rate 1000 (u 4 4) && depth (u 8 4) && (decide (mode ≠ 2) || (rate (u 4 4) (u 12 4) && depth (u 16 4))) &&
      (decide (mode ≠ 3 ∨ u 12 4 = 0) || rate 1000 (u 12 4)) &&
      (decide ((mode ≠ 1 ∧ mode ≠ 3) ∨ u 16 4 = 0) || depth (u 16 4)))

def policersLoad (p : List Byte) (s : State) : State :=
  let s := (List.range (field p 0 4)).foldl (fun s i =>
    let u := fun k n => field p (8 + 24 * i + k) n
    let s := (s.set (Reg.SCHED_POL_CFG.MODE i) (u 0 1)).setFlag (Reg.SCHED_POL_CFG.AWARE i) (bit (u 1 1) 0)
    let s := (s.setFlag (Reg.SCHED_POL_CFG.COUPLED i) (bit (u 1 1) 1)).set (Reg.SCHED_POL_CFG.YELLOW_ACT i) (u 2 1)
    let s := (s.set (Reg.SCHED_POL_CFG.RED_ACT i) (u 3 1)).set (Reg.SCHED_POL_CFG.YELLOW_DSCP i) (u 20 1)
    let s := (s.set (Reg.SCHED_POL_CFG.RED_DSCP i) (u 21 1)).set (Reg.SCHED_POL_RATE.CIR i) (u 4 4)
    let s := (s.set (Reg.SCHED_POL_RATE.PIR_EIR i) (u 12 4)).set (Reg.SCHED_POL_BURST.CBS i) (u 8 4)
    s.set (Reg.SCHED_POL_BURST.PBS_EBS i) (u 16 4)) s
  (List.range (field p 4 4)).foldl (fun s i =>
    let k := field p (mapAt p + 4 * i) 2
    (s.setFlag (Reg.SCHED_PMAP.EN k) true).set (Reg.SCHED_PMAP.POLICER k) (field p (mapAt p + 4 * i + 2) 2)) s

/-! PREFIXES (0x0007, R364 to R367). -/

/-- A prefix record. -/
structure PrefixRec where
  addr : Nat
  len : Nat
  cls : Nat
  tenant : Nat
  member : Nat
  port : Nat
  nh : Nat
  core : Nat
  ctx : Nat

def prefixAt (p : List Byte) : Nat := 8 + 8 * field p 4 1
def prefixesLen (p : List Byte) : Nat := prefixAt p + 16 * field p 0 4
def prefixRec (p : List Byte) (i : Nat) : PrefixRec :=
  let u := fun k n => field p (prefixAt p + 16 * i + k) n
  { addr := u 0 8, len := u 8 1, cls := u 9 1, tenant := u 0xA 1, member := u 0xB 1, port := u 0xC 1, nh := u 0xD 1
    core := u 0xE 1, ctx := u 0xF 1 }
def prefixRecs (p : List Byte) : List PrefixRec := (List.range (field p 0 4)).map (prefixRec p)

/-- The result word of a record (R355): fields that its class does not use are zero. -/
def PrefixRec.word (r : PrefixRec) : Nat :=
  at' r.cls 3 29 + (if r.cls = 1 then at' r.tenant 8 21 else if r.cls = 2 then at' r.member 3 18
    else if r.cls = 3 then at' r.port 2 16 + at' r.nh 4 12 else at' r.core 2 10)

/-- A record against R364 and R365, with the records before it. -/
def prefixOk (im : Sections) (herdId : Nat) (p : List Byte) (before : List PrefixRec) (r : PrefixRec) : Bool :=
  let tenants := field ((sectionOf im 4).getD []) 0 2
  let herd := (sectionOf im 9).getD []
  let members := if herd.isEmpty then 1 else field herd 0 1
  decide (r.len ≤ 64 ∧ r.addr % 2 ^ (64 - r.len) = 0 ∧ 1 ≤ r.cls ∧ r.cls ≤ 4) &&
  (decide (r.cls ≠ 1) || decide (r.tenant < tenants)) &&
  (decide (r.cls ≠ 2) || decide (r.member < members ∧ r.member ≠ herdId)) &&
  (decide (r.cls ≠ 3) || (decide (r.port ≤ 1 ∨ (r.port = 2 ∧ bit (field herd 1 1) 4)) && decide (r.nh < field p 4 1))) &&
  (decide (r.cls ≠ 4) || decide (r.core ≤ 3)) &&
  (decide (r.ctx = 0) || within r.ctx 0x80 0x8F) &&
  before.all fun b => decide (b.addr ≠ r.addr ∨ b.len ≠ r.len)

/-- R367 on a record, with the records before it. -/
def contextOk (before : List PrefixRec) (r : PrefixRec) : Bool :=
  (decide (r.ctx ≠ 0x80) || decide (r.cls = 1 ∧ r.len = 64)) &&
  before.all fun b => decide (r.ctx = 0 ∨ b.ctx ≠ r.ctx ∨ (r.ctx = 0x80 ∧ b.tenant ≠ r.tenant))

/-- The rules of R364 and R365, which no rule leaves to ADMIT. The header and the next hops come first; no rule gives their
ITEM. -/
def prefixesFormat (im : Sections) (herdId : Nat) (p : List Byte) : Option Breach :=
  let u := field p
  let rs := prefixRecs p
  fmt 0x07 ((within (u 0 4) 1 65536 && decide (u 4 1 ≤ 16) && zeros p 5 3, 0xFFFF) ::
    items (u 4 1) (fun i => decide (u (8 + 8 * i + 6) 2 / 4096 % 8 = 0)) ++
    rs.zipIdx.map fun r => (prefixOk im herdId p (rs.take r.2) r.1, r.2))

/-- Address bits above stage `k`, which name a node of that stage. -/
def nodePath (addr k : Nat) : Nat := addr / 2 ^ (56 - 8 * k)

/-- The nodes that the trie needs in stage `k`, by their paths, in the order of the records (R352, R365). -/
def trieNodes (rs : List PrefixRec) (k : Nat) : List Nat :=
  ((rs.filter fun r => decide (8 + 8 * k < r.len)).map fun r => nodePath r.addr k).dedup

/-- The longest of the prefixes of at most `len` bits that cover the path of `len` bits, by its index. -/
def covering (rs : List PrefixRec) (path len : Nat) : Option Nat :=
  (rs.zipIdx.foldl (fun (best : Option (Nat × Nat)) r =>
    let longer := match best with
      | none => true
      | some b => decide (b.1 < r.1.len)
    if decide (r.1.len ≤ len ∧ r.1.addr / 2 ^ (64 - r.1.len) = path / 2 ^ (len - r.1.len)) && longer then some (r.1.len, r.2)
    else best) none).map (·.2)

/-- The entry of stage `k` (of 0 to 6) whose path is `path` (R353): a NODE, a LEAF or NONE. -/
def trieEntryAt (rs : List PrefixRec) (k path : Nat) : Nat :=
  match (if k = 6 then none else (trieNodes rs (k + 1)).findIdx? fun q => decide (q = path)) with
  | some n => 2 * 2 ^ 30 + n
  | none => match covering rs path (16 + 8 * k) with
    | some i => 2 ^ 30 + i
    | none => 0

/-- ADMIT on the PREFIXES section (R365, R367). -/
def prefixesAdmit (p : List Byte) : Option Breach :=
  let rs := prefixRecs p
  firstBreach [
    fmt 0x07 (rs.zipIdx.map fun r => (contextOk (rs.take r.2) r.1, r.2)),
    refuse 0x0201 0x07 ((List.range 6).map fun k => (decide ((trieNodes rs (k + 1)).length ≤ stageNodes (k + 1)), k + 1))]

/-- ADMIT loads the PREFIXES section: result words, the leaf-pushed trie, next hops and contexts. -/
def prefixesLoad (p : List Byte) (s : State) : State :=
  let rs := prefixRecs p
  let s := rs.zipIdx.foldl (fun s r => setTrie s (resultBase + r.2) r.1.word) s
  let s := (List.range 65536).foldl (fun s i => setTrie s (stageBase 0 + i) (trieEntryAt rs 0 i)) s
  let s := (List.range 6).foldl (fun s j =>
    (trieNodes rs (j + 1)).zipIdx.foldl (fun s n =>
      (List.range 256).foldl (fun s i =>
        setTrie s (stageBase (j + 1) + 256 * n.2 + i) (trieEntryAt rs (j + 1) (256 * n.1 + i))) s) s) s
  let s := (List.range (field p 4 1)).foldl (fun s n =>
    let v := field p (8 + 8 * n + 6) 2
    let s := (s.setFlag (Reg.FWD_NH.VALID n) true).setFlag (Reg.FWD_NH.TAG n) (bit v 15)
    (s.set (Reg.FWD_NH.VID n) v).set (Reg.FWD_NH.DMAC n) (fieldBE p (8 + 8 * n) 6)) s
  let ctx0 := rs.filter fun r => decide (r.ctx = 0x80)
  let ctxs := rs.filter fun r => decide (0x80 < r.ctx)
  s.setTables { s.tables with
    tenantPrefix := ctx0.foldl (fun m r => Cells.insert m r.tenant r.addr) []
    contexts := ctxs.map fun r => (r.ctx - 0x80, r.addr, r.len) }

/-! KEYS_WRAPPED (0x0008, R309, R310, R533). -/

def keysLen (p : List Byte) : Nat := 8 + 32 * field p 0 2

/-- An entry's command word for a LOAD (R313), and its wrapped key. -/
def keyEntry (p : List Byte) (i k n : Nat) : Nat := field p (8 + 32 * i + k) n
def keyService (p : List Byte) (i : Nat) : Bool := bit (keyEntry p i 3 1) 1
def keyTx (p : List Byte) (i : Nat) : Bool := bit (keyEntry p i 3 1) 0
def keyWrapped (p : List Byte) (i : Nat) : List Byte := (p.drop (8 + 32 * i + 8)).take 24

/-- Two entries are for the same tenant, or both for SERVICE. -/
def keySame (p : List Byte) (i j : Nat) : Bool :=
  (keyService p i && keyService p j) || (!keyService p i && !keyService p j && decide (keyEntry p i 1 1 = keyEntry p j 1 1))

/-- ADMIT on KEYS_WRAPPED, with the image loaded tentatively into `t` but for this section. -/
def keysAdmit (t : State) (p : List Byte) : Option Breach :=
  let n := field p 0 2
  let kek := field p 2 1
  let key := Cells.get t.crypto.slotKeys kek []
  let entryOk := fun i =>
    decide (keyEntry p i 0 1 ≤ 63 ∧ 1 ≤ keyEntry p i 2 1 ∧ keyEntry p i 3 1 < 4 ∧ keyEntry p i 4 4 = 0) &&
    (keyService p i || decide (keyEntry p i 1 1 < t.sched.tenants)) && (keyUnwrap key (keyWrapped p i)).isSome &&
    (List.range i).all fun j => decide (keyEntry p j 0 1 ≠ keyEntry p i 0 1) &&
      !(keySame p i j && (decide (keyEntry p j 2 1 = keyEntry p i 2 1) || (keyTx p i && keyTx p j)))
  let eb := t.get Reg.MAC_EB_CTRL.KEY_SLOT
  fmt 0x08 (items n entryOk ++ [
    (decide (n ≤ 64) && zeros p 3 5, 0xFFFD),
    (decide (kek ≤ 31) && slotHas t kek 3, 0xFFFE),
    ((List.range n).any (fun i => decide (keyEntry p i 0 1 = eb) && keyService p i), 0xFFFF)])

/-- Without the section KEK_SLOT is 2, which must carry WRAP usage (R533). -/
def kekAdmit (t : State) : Option Breach := fmt 0x08 [(slotHas t 2 3, 0xFFFE)]

/-- ADMIT loads KEYS_WRAPPED. -/
def keysLoad (p : List Byte) (s : State) : State :=
  let s := s.set Reg.CRYPTO_CTRL.KEK_SLOT (field p 2 1)
  (List.range (field p 0 2)).foldl (fun s i =>
    let slot := keyEntry p i 0 1
    let s := gkPut s slot (keyEntry p i 1 1) (keyEntry p i 2 1) (keyService p i) ((keyUnwrap (kekOf s) (keyWrapped p i)).getD [])
    s.onlyIf (keyTx p i) fun s => gkActivate s slot) s

end Sys2Proof.Machine
end

