-- ==== Sys2Proof/Machine/SystemSections.lean ====
section
/-!
DEFINITION. The HERD, PAIR, SAFETY, ICU_ROUTING and CORE_IMAGES sections (R488, R495, R498, R516, R618, R619, R639, R640, R663,
R664): length, format, admission and loading.
-/

namespace Sys2Proof.Machine

/-! HERD (0x0009). -/

def herdFlag (p : List Byte) (n : Nat) : Bool := bit (field p 1 1) n
def herdFormat (p : List Byte) : Option Breach :=
  let u := field p
  fmt 0x09 ([rule 0 (within (u 0 1) 1 8), rule 1 (decide (u 1 1 < 64)), rule 2 (decide (u 2 1 ≤ 3)), rule 3 (decide (u 3 1 ≤ 3)),
    rule 6 (within (u 6 2) 10 1000), rule 0xD (decide (u 0xD 1 % 4 = 0)), rule 0xE (decide (u 0xE 2 ≤ 4094)),
    rule 0x10 (decide (u 0x10 2 ≤ 4094))] ++ reserved p 0x12 6)

/-- ADMIT on the HERD section (R76, R474, R488, R495); `p` is empty when the section is absent. -/
def herdAdmit (im : Sections) (t : State) (p : List Byte) : Option Breach :=
  let id := t.start.herdId
  let members := field p 0 1
  let prefixes := (sectionOf im 7).isSome
  let u := field p
  if p.isEmpty then refuse 0x020E 0x09 [(decide (id = 0), 0)]
  else firstBreach [
    refuse 0x020E 0x09 [
      (decide (id < members), 0),
      (decide (id ≠ 0 ∨ u 1 1 % 16 = 0), 0),
      (decide (id ≠ 0 ∨ members = 1) || prefixes, 0),
      (decide (id = 0) || !herdFlag p 0 || !prefixes, 0)],
    fmt 0x09 [rule 4 (decide (u 4 2 ≠ t.get Reg.MAC_FLOOD_CTRL.SEED_ID) &&
      (match sectionOf im 0x0A with
       | none => true
       | some q => decide (u 4 2 ≠ field q 0xA 2)))],
    refuse 0x020E 0x09 [(!herdFlag p 4 || decide (u 2 1 = u 3 1), 0xFFFF)]]

/-- BASE_MAC without a HERD section (R472). -/
def defaultMac (s : State) : Nat := 2 * 2 ^ 40 + s.get Reg.KEYS_DEVICE_ID.DEVICE_ID % 2 ^ 40 / 4 * 4

/-- ADMIT loads the HERD section, or its defaults (R477, R498, R499). -/
def herdLoad (p : List Byte) (s : State) : State :=
  let u := field p
  let s := s.set Reg.HERD_STATUS.HERD_ID s.start.herdId
  let s := if p.isEmpty then (s.setFlag Reg.ETH_STATUS.MGMT_ON true).set Reg.ETH_MAC_BASE.BASE_MAC (defaultMac s)
    else
      let s := (s.set Reg.HERD_STATUS.MEMBERS (u 0 1)).setFlag Reg.HERD_CTRL.PREFIX_FROM_MASTER (herdFlag p 0)
      let s := (s.setFlag Reg.HERD_CTRL.HERD_TIME (herdFlag p 1)).setFlag Reg.HERD_CTRL.LEARN_FWD (herdFlag p 2)
      let s := (s.setFlag Reg.HERD_CTRL.BACKHAUL_AT_MASTER (herdFlag p 3)).setFlag Reg.ETH_PRP_CTRL.PRP_EN (herdFlag p 4)
      let s := (s.setFlag Reg.ETH_STATUS.MGMT_ON (herdFlag p 5)).setFlag Reg.ETH_STATUS.PRP_ON (herdFlag p 4)
      let s := (s.set (Reg.ETH_PORT_CFG.MODE 0) (u 2 1)).set (Reg.ETH_PORT_CFG.MODE 1) (u 3 1)
      let s := (s.set (Reg.ETH_PORT_CFG.VID 0) (u 0xE 2)).set (Reg.ETH_PORT_CFG.VID 1) (u 0x10 2)
      let s := (s.set Reg.HERD_CTRL.HERD_SEED (u 4 2)).set Reg.ETH_PRP_CTRL.PRP_LIFE (u 6 2)
      s.set Reg.ETH_MAC_BASE.BASE_MAC (fieldBE p 8 6)
  (s.setFlag (Reg.LOCK Block.ETH) true).setFlag (Reg.LOCK Block.HERD) true

/-! PAIR (0x000A). -/

def pairFormat (im : Sections) (p : List Byte) : Option Breach :=
  let u := field p
  let sched := (sectionOf im 3).getD []
  let herd := sectionOf im 9
  let enabled := (List.range 8).all fun i => !bit (u 3 1) i || (!sched.isEmpty && sfOn sched i)
  let seedOk := decide (u 0xA 2 ≠ field sched 0x1C 2) && (match herd with
    | none => true
    | some h => decide (u 0xA 2 ≠ field h 4 2))
  fmt 0x0A ([rule 0 (decide (u 0 1 ≤ 1)), rule 1 (decide (u 1 1 < 4)), rule 3 (decide (u 3 1 ≠ 0) && enabled),
    rule 4 (within (u 4 2) 10 1000), rule 6 (within (u 6 2) 40 10000), rule 8 (within (u 8 2) 1 1000), rule 0xA seedOk,
    rule 0xC (decide (u 0xC 1 ≤ 31))] ++ reserved p 0xD 1 ++ [rule 0xE (decide (u 0xE 2 ≤ 8760)),
    rule 0x10 (decide (u 0x10 2 = 0 ∨ u 0x10 2 < u 0xE 2))])

/-- PAIR_TIMING (0x020F): RENEW_MS is not below LEASE_MS - 2 × DRIFT_GUARD_MS. -/
def pairAdmit (p : List Byte) : Option Breach :=
  refuse 0x020F 0x0A [rule 4 (decide (field p 4 2 + 2 * field p 8 2 < field p 6 2))]

/-- ADMIT loads the PAIR section (R513, R516, R518): the device starts as standby (R505). -/
def pairLoad (p : List Byte) (s : State) : State :=
  let u := field p
  let s := (s.set Reg.ETH_PAIR_STATUS.ROLE 1).set Reg.ETH_PAIR_STATUS.UNIT (u 0 1)
  let s := (s.setFlag Reg.ETH_PAIR_STATUS.SYNCING (bit (u 1 1) 1)).set Reg.ETH_PAIR_CFG.TWIN_CLASSES (u 2 1)
  let s := (s.set Reg.ETH_PAIR_CFG.SF_MASK (u 3 1)).set Reg.ETH_PAIR_TIMING.RENEW_MS (u 4 2)
  let s := (s.set Reg.ETH_PAIR_TIMING.LEASE_MS (u 6 2)).set Reg.ETH_PAIR_TIMING.DRIFT_GUARD_MS (u 8 2)
  let s := (s.set Reg.MAC_FLOOD_CTRL.TWIN_SEED (u 0xA 2)).setFlag Reg.MAC_FLOOD_CTRL.TWIN_EN true
  let s := (s.set Reg.ETH_PAIR_CFG.PAIR_KEY_SLOT (u 0xC 1)).set Reg.ETH_PAIR_CFG.DRILL_PERIOD_H (u 0xE 2)
  let s := (s.set Reg.ETH_PAIR_CFG.DRILL_PHASE_H (u 0x10 2)).set Reg.ETH_PAIR_PEER.PEER_MAC (fieldBE p 0x12 6)
  { s with lease := { s.lease with prefer := bit (u 1 1) 0 } }

/-! ICU_ROUTING (0x000C). -/

/-- The shared sources of R599. -/
def srcListed (n : Nat) : Bool :=
  decide (n ≤ 5) || within n 16 32 || within n 40 42 || within n 64 93 || within n 96 127

def icuLen (p : List Byte) : Nat := 8 + 4 * field p 0 2
def icuRec (p : List Byte) (i k n : Nat) : Nat := field p (8 + 4 * i + k) n
def icuFormat (p : List Byte) : Option Breach :=
  fmt 0x0C ((decide (field p 0 2 ≤ 512 ∧ 1 ≤ field p 2 2) && zeros p 4 4, 0xFFFF) ::
    items (field p 0 2) fun i =>
      let cfg := icuRec p i 2 1
      srcListed (icuRec p i 0 2) && decide (i = 0 ∨ icuRec p (i - 1) 0 2 < icuRec p i 0 2) &&
        decide ((cfg % 8 ≤ 4 ∨ cfg % 8 = 7) ∧ cfg < 32))

/-- The record of a source. -/
def icuFind (p : List Byte) (src : Nat) : Option Nat := (List.range (field p 0 2)).find? fun i => decide (icuRec p i 0 2 = src)

/-- ADMIT loads the ICU_ROUTING section (R618). -/
def icuLoad (p : List Byte) (s : State) : State :=
  let s := s.set Reg.ICU_CTRL.STRAND_US (field p 2 2)
  let s := (List.range (field p 0 2)).foldl (fun s i =>
    let n := icuRec p i 0 2
    let cfg := icuRec p i 2 1
    let s := (s.set (Reg.ICU_SH_CFG.TGT n) cfg).setFlag (Reg.ICU_SH_CFG.EDGE n) (bit cfg 3)
    let s := s.set (Reg.ICU_SH_CFG.FILT_CNT n) (icuRec p i 3 1)
    s.onlyIf (bit cfg 4) fun s => s.setBit (Reg.ICU_SH_EN.EN (n / 64)) (n % 64)) s
  s.setFlag (Reg.LOCK Block.ICU) true

/-! SAFETY (0x000B). -/

def safetyLen (p : List Byte) : Nat := 16 + 16 * field p 0 1
def srcRec (p : List Byte) (k o n : Nat) : Nat := field p (16 + 16 * k + o) n

/-- The rules of a source record (R663). -/
def srcOk (p : List Byte) (k : Nat) : Bool :=
  let u := srcRec p k
  within (u 4 2) 1 60000 && decide (u 7 1 = 0) &&
    (decide (u 0 1 = 1 ∧ u 1 1 ≤ 23) || decide (u 0 1 = 2 ∧ u 1 1 = 0 ∧ u 6 1 = 0 ∧ u 8 8 = 0))

/-- SAFETY_LATENCY on source `k` (R604). -/
def latencyOk (icu p : List Byte) (k : Nat) : Bool :=
  match icuFind icu (112 + k) with
  | none => false
  | some i => decide (icuRec icu i 2 1 % 8 = 4 ∧ icuRec icu i 3 1 * 5 + 40 ≤ srcRec p k 2 2 * 2)

/-- ADMIT on the SAFETY section (R664). -/
def safetyAdmit (im : Sections) (p : List Byte) : Option Breach :=
  let icu := (sectionOf im 0x0C).getD []
  let u := field p
  firstBreach (
    ((List.range (u 0 1)).map fun k => firstBreach [fmt 0x0B [(srcOk p k, k)], refuse 0x020C 0x0B [(latencyOk icu p k, k)]]) ++
    [fmt 0x0B [(within (u 0 1) 1 16 && zeros p 1 1 && within (u 4 2) 200 65535 && decide (100 ≤ u 2 2 ∧ u 2 2 + 100 ≤ u 4 2) &&
       zeros p 0xA 6, 0xFFFD)],
     refuse 0x020D 0x0B [(decide (1000 + u 6 2 ≤ 12000), 0xFFFE), (decide (u 4 2 ≤ 8000), 0xFFFF)]])

/-- ADMIT loads the SAFETY section and locks the protective-command sources (R605, R666). -/
def safetyLoad (p : List Byte) (s : State) : State :=
  let u := field p
  let s := (s.set Reg.SAFE_WD_CFG.WD_MIN_US (u 2 2)).set Reg.SAFE_WD_CFG.WD_MAX_US (u 4 2)
  let s := (s.set Reg.SAFE_WD_CFG.FW_REACT_US (u 6 2)).set Reg.SAFE_WD_CFG.APP_WD_MS (u 8 2)
  let s := (List.range (u 0 1)).foldl (fun s k =>
    let r := srcRec p k
    let s := (s.set (Reg.SAFE_SRC.KIND k) (r 0 1)).set (Reg.SAFE_SRC.GPIO k) (r 1 1)
    let s := (s.set (Reg.SAFE_SRC.DEADLINE_MS k) (r 4 2)).set (Reg.SAFE_SRC.BUDGET_NS k) (r 2 2)
    (s.setFlag (Reg.ICU_SH_CFG.LOCKED (112 + k)) true).setBit (Reg.ICU_SH_EN.EN 1) (48 + k)) s
  s.setFlag (Reg.LOCK Block.SAFE) true

/-! CORE_IMAGES (0x000D). -/

def imgAt (i : Nat) : Nat := 24 + 64 * i
def regAt (p : List Byte) (j : Nat) : Nat := 24 + 64 * field p 0 1 + 24 * j
def coresLen (p : List Byte) : Nat := regAt p (field p 1 1)

/-- An image record, and a region record as (KIND, BASE, SIZE). -/
def imgRec (p : List Byte) (i k n : Nat) : Nat := field p (imgAt i + k) n
def regRec (p : List Byte) (j : Nat) : Nat × Nat × Nat := (field p (regAt p j) 1, field p (regAt p j + 8) 8, field p (regAt p j + 16) 8)
def regions (p : List Byte) : List (Nat × Nat × Nat) := (List.range (field p 1 1)).map (regRec p)

/-- The rules of an image record (R639). -/
def imgRules (p : List Byte) (i : Nat) : List (Bool × Nat) :=
  let o := imgAt i
  let u := imgRec p i
  let len := u 8 4
  let load := u 0x10 8
  let place := if u 0 1 = 4 then decide (load = 0x10000000)
    else (regions p).any fun r => decide (r.1 = 1 ∧ r.2.1 ≤ load ∧ load + len ≤ r.2.1 + r.2.2)
  [rule o (decide (u 0 1 ≤ 4) && (List.range i).all fun j => decide (imgRec p j 0 1 ≠ u 0 1))] ++ reserved p (o + 1) 3 ++
  [rule (o + 4) (decide (u 4 4 % 8 = 0)),
   rule (o + 8) (decide (u 4 4 + len ≤ 0x4000000 ∧ (u 0 1 ≠ 4 ∨ len ≤ 0x40000)))] ++ reserved p (o + 0xC) 4 ++
  [rule (o + 0x10) place, rule (o + 0x18) (decide (load ≤ u 0x18 8 ∧ u 0x18 8 < load + len))]

/-- The rules of R639; those of R640 are ADMIT's. -/
def coresFormat (p : List Byte) : Option Breach :=
  let u := field p
  let has := fun c => (List.range (u 0 1)).any fun i => decide (imgRec p i 0 1 = c)
  fmt 0x0D ([rule 0 (within (u 0 1) 2 5 && has 0 && has 4), rule 1 (within (u 1 1) 3 7), rule 4 (within (u 4 2) 1 600)] ++
    reserved p 6 2 ++ (List.range (u 0 1)).flatMap (imgRules p) ++
    (List.range (u 1 1)).flatMap fun j => reserved p (regAt p j + 1) 7)

/-- The octets that a region occupies: the packet buffer is followed by its descriptors (R380). -/
def regionSpan (r : Nat × Nat × Nat) : Nat := if r.1 = 3 then r.2.2 + r.2.2 / 16 else r.2.2

/-- Size and alignment of a region (R640). -/
def regionOk (r : Nat × Nat × Nat) : Bool :=
  let mib := 2 ^ 20
  match r.1 with
  | 1 => decide (r.2.1 % 65536 = 0 ∧ r.2.2 % 65536 = 0 ∧ r.2.2 ≠ 0)
  | 2 => decide (r.2.1 % mib = 0 ∧ r.2.2 = 64 * mib)
  | 3 => decide (r.2.1 % mib = 0 ∧ r.2.2 % (64 * mib) = 0 ∧ 64 * mib ≤ r.2.2 ∧ r.2.2 ≤ 1024 * mib)
  | 4 => decide (r.2.1 % 2 ^ 18 = 0 ∧ r.2.2 = 8 * mib)
  | 5 => decide (r.2.1 % 2 ^ 18 = 0 ∧ r.2.2 = 4 * mib)
  | 6 => decide (r.2.1 % mib = 0 ∧ r.2.2 = 32 * mib)
  | 7 => decide (r.2.1 % 65536 = 0 ∧ r.2.2 % 8768 = 0 ∧ 4 * 8768 ≤ r.2.2 ∧ r.2.2 ≤ 65535 * 8768)
  | _ => false

/-- MEMORY_PLAN (0x0210, R640). -/
def coresAdmit (t : State) (p : List Byte) : Option Breach :=
  let rs := regions p
  let has := fun k => rs.any fun r => decide (r.1 = k)
  let deep := bit (t.get Reg.CHAN_HEAR_CTRL.PERMIT) 1
  let ok := fun (e : (Nat × Nat × Nat) × Nat) =>
    let r := e.1
    regionOk r && t.inLp4x r.2.1 (regionSpan r) && (decide (r.1 ≠ 5) || has 6) && (decide (r.1 ≠ 6) || has 5) &&
      (rs.take e.2).all fun b => decide (b.1 ≠ r.1 ∧ (b.2.1 + regionSpan b ≤ r.2.1 ∨ r.2.1 + regionSpan r ≤ b.2.1))
  refuse 0x0210 0x0D ((rs.zipIdx.map fun e => (ok e, e.2)) ++ [(has 1 && has 2 && has 3 && (!deep || has 4), 0xFFFF)])

/-- ADMIT loads the memory plan into the blocks that use it. -/
def coresLoad (p : List Byte) (s : State) : State :=
  (regions p).foldl (fun s r =>
    let a := r.2.1
    match r.1 with
    | 2 => (s.set Reg.FWD_REC_BASE.ADDR (a / 2 ^ 20)).setFlag Reg.FWD_REC_BASE.EN true
    | 3 => ((s.set Reg.QMGR_BUF_BASE.ADDR (a / 2 ^ 20)).set Reg.QMGR_BUF_BASE.SIZE (r.2.2 / 2 ^ 26 - 1)).setFlag Reg.QMGR_BUF_BASE.EN true
    | 4 => (s.set Reg.OX_CAP_BASE.ADDR (a / 2 ^ 18)).setFlag Reg.OX_CAP_BASE.EN true
    | 5 => (s.set Reg.MAC_FLOCK_BASE.IMG (a / 2 ^ 18)).setFlag Reg.MAC_FLOCK_BASE.PRESENT true
    | 6 => s.set Reg.MAC_FLOCK_BASE.MAP (a / 2 ^ 20)
    | 7 => (s.set Reg.PERF_RING_BASE.ADDR (a / 2 ^ 16)).set Reg.PERF_RING_BASE.COUNT (r.2.2 / 8768)
    | _ => s) s

end Sys2Proof.Machine
end

