-- ==== Sys2Proof/Machine/TimeSection.lean ====
section
/-!
DEFINITION. The TIME section (R466, R467): its length, its format, its admission and its loading.
-/

namespace Sys2Proof.Machine

/-- The length the payload implies (R731). -/
def timeLen (p : List Byte) : Nat := 0x40 + 16 * field p 7 1

/-- The format rules of R466, by ascending offset. -/
def timeFormat (p : List Byte) : Option Breach :=
  let u := field p
  let pr := u 1 1
  let p1 := pr % 4
  let p2 := pr / 4 % 4
  let p3 := pr / 16 % 4
  fmt 0x0E ([
    (decide (u 0 1 < 128), 0),
    (decide (pr < 64) && (p1 = 0 || (p1 ≠ p2 && p1 ≠ p3)) && (p2 = 0 || p2 ≠ p3), 0),
    (decide (u 2 1 ≤ 3), 0),
    (decide (u 3 1 ≤ 127), 0),
    (decide (u 7 1 ≤ 4) && (p3 = 0 || 1 ≤ u 7 1), 0),
    (within (u 8 2) 1 4095, 1),
    (decide (100 ≤ u 0xC 4), 1),
    (within (u 0x14 4) 100 1000000, 2),
    (decide (1 ≤ u 0x1C 1), 3),
    (zeros p 0x1D 3, 3)] ++
    ((List.range (u 7 1)).flatMap fun k => [
      (within (u (0x40 + 16 * k + 8) 2) 10 60000, (0x40 + 16 * k + 8) / 8),
      (zeros p (0x40 + 16 * k + 10) 6, (0x40 + 16 * k + 8) / 8)]))

/-- TIME_SOURCE (0x0211): no source and no grandmaster, or HOLDOVER_WAIT out of range (R467). -/
def timeAdmit (p : List Byte) : Option Breach :=
  refuse 0x0211 0x0E [
    (decide (field p 1 1 % 64 ≠ 0) || bit (field p 0 1) 0, 0),
    (within (field p 4 2) 1 3600, 0)]

/-- ADMIT loads the TIME block and the EB sources (R466, R470). -/
def timeLoad (p : List Byte) (s : State) : State :=
  let u := field p
  let fl := bit (u 0 1)
  let s := s.set Reg.TIME_SRC_CTRL.PRIO_PTP (u 1 1) |>.set Reg.TIME_SRC_CTRL.PRIO_PPS (u 1 1 / 4)
    |>.set Reg.TIME_SRC_CTRL.PRIO_EB (u 1 1 / 16) |>.set Reg.TIME_SRC_CTRL.PTP_PORT (u 2 1)
    |>.set Reg.TIME_SRC_CTRL.PTP_DOMAIN (u 3 1) |>.set Reg.TIME_SRC_CTRL.HOLDOVER_WAIT (u 4 2)
    |>.set Reg.TIME_SRC_CTRL.REVERT_S (u 6 1) |>.set Reg.TIME_SRC_CTRL.PTP_TIMEOUT (u 8 2)
    |>.set Reg.TIME_SRC_CTRL.UTC_OFS (u 0xA 2) |>.set Reg.TIME_SERVO.STEP_THRESH (u 0xC 4)
    |>.set Reg.TIME_SERVO.P_GAIN (u 0x10 2) |>.set Reg.TIME_SERVO.I_GAIN (u 0x12 2)
    |>.set Reg.TIME_PPS_CTRL.WIN (u 0x14 4) |>.set Reg.TIME_PPS_CTRL.IN_OFS (u 0x18 2)
    |>.set Reg.TIME_PPS_CTRL.OUT_OFS (u 0x1A 2) |>.set Reg.TIME_PPS_CTRL.OUT_WIDTH (u 0x1C 1)
    |>.setFlag Reg.TIME_PPS_CTRL.IN_EN (fl 2) |>.setFlag Reg.TIME_PPS_CTRL.OUT_EN (fl 3)
    |>.setFlag Reg.TIME_TC.TC_ETH (fl 4) |>.setFlag Reg.TIME_TC.TC_HERD (fl 5)
    |>.setFlag Reg.TIME_CTRL.SERVO_EN (fl 6)
  let s := (List.range 4).foldl (fun s k =>
    (s.set (Reg.TIME_PORT_LAT.RX_LAT k) (u (0x20 + 8 * k) 4)).set (Reg.TIME_PORT_LAT.TX_LAT k) (u (0x24 + 8 * k) 4)) s
  let s := (List.range (u 7 1)).foldl (fun s k =>
    ((s.set (Reg.MAC_TSRC_ADDR.TSRC_ADDR k) (u (0x40 + 16 * k) 8)).set
      (Reg.MAC_TSRC_CFG.PERIOD k) (u (0x48 + 16 * k) 2)).setFlag (Reg.MAC_TSRC_CFG.EN k) true) s
  s.setFlag (Reg.LOCK Block.TIME) true

end Sys2Proof.Machine
end

