-- ==== Sys2Proof/Machine/Verify.lean ====
section
/-!
DEFINITION. IMAGE_VERIFY on one Neles image (R65 to R71, R76, R731, R732, R746): the header, the walk, the signature, the
sections and the core-image digests.
-/

namespace Sys2Proof.Machine

/-! The header (R66). -/

/-- A field of the header of the image at flash offset `base`. -/
def hdrField (s : State) (base off n : Nat) : Nat := flashNat s (base + off) n

def imgMagicOk (s : State) (base : Nat) : Bool := decide (hdrField s base 0 4 = 0x4E454C53)
def imgVersion (s : State) (base : Nat) : Nat := hdrField s base 4 2
def imgLength (s : State) (base : Nat) : Nat := hdrField s base 8 4
def imgCount (s : State) (base : Nat) : Nat := hdrField s base 0xC 4
def imgGen (s : State) (base : Nat) : Nat := hdrField s base 0x18 4
def imgSeq (s : State) (base : Nat) : Nat := hdrField s base 0x1C 4

/-- The fields whose breach is BAD_FORMAT, by ascending offset. -/
def hdrRules (s : State) (base : Nat) : List (Bool × Nat) :=
  let u := hdrField s base
  [rule 4 (within (u 4 2) 1 2), rule 6 (decide (u 6 2 = 64)),
   rule 0xC (within (u 0xC 4) 7 (if u 4 2 = 1 then 14 else 64)),
   rule 0x20 (decide (u 0x20 1 % 2 = 0 ∧ u 0x20 1 < 32)), rule 0x21 (decide (u 0x21 1 ≤ 128))] ++
    (List.range 30).map fun i => rule (0x22 + i) (decide (u (0x22 + i) 1 = 0))

/-- LENGTH lies in its range. -/
def lengthOk (s : State) (base : Nat) : Bool := decide (imgLength s base % 8 = 0 ∧ imgLength s base ≤ 2 ^ 22)

/-- The header passes R66. -/
def headerOk (s : State) (base : Nat) : Bool :=
  imgMagicOk s base && (hdrRules s base).all Prod.fst && lengthOk s base

/-! The walk (R67, R732 step 3). -/

/-- A section as the walk finds it. -/
structure SectHdr where
  type : Nat
  flags : Nat
  payload : List Byte
  padding : List Byte

/-- Octets up to the next multiple of 8. -/
def pad8 (n : Nat) : Nat := (8 - n % 8) % 8

/-- Walk `n` sections from `pos`; they must end exactly at `stop`. -/
def walkSections (s : State) (base stop : Nat) : Nat → Nat → Option (List SectHdr)
  | 0, pos => if pos = stop then some [] else none
  | n + 1, pos =>
    let plen := hdrField s base (pos + 4) 4
    let next := pos + 8 + plen + pad8 plen
    if stop < next then none
    else
      let h := { type := hdrField s base pos 2, flags := hdrField s base (pos + 2) 2
                 payload := s.flash (base + pos + 8) plen, padding := s.flash (base + pos + 8 + plen) (pad8 plen) }
      (walkSections s base stop n next).map fun rest => h :: rest

/-- The sections of the image at `base`; `none` when the walk fails. -/
def imageSections (s : State) (base : Nat) : Option (List SectHdr) :=
  if imgLength s base < 128 then none
  else walkSections s base (imgLength s base - 64) (imgCount s base) 64

/-- The recognised sections of an image, by type. -/
def payloads (hs : List SectHdr) : Sections := (hs.filter fun h => within h.type 1 14).map fun h => (h.type, h.payload)

/-- The sections of the image at `base`, for ADMIT. -/
def imagePayloads (s : State) (base : Nat) : Sections := ((imageSections s base).map payloads).getD []

/-! The signature (R68). -/

/-- The signature of the image, r and s. -/
def imgSignature (s : State) (base : Nat) : List Byte := s.flash (base + imgLength s base - 64) 64

/-- The signature verifies under owner generation OWNER_GEN. -/
def signatureOk (s : State) (base : Nat) : Bool :=
  let w := ownerGens.at' (imgGen s base)
  let sig := imgSignature s base
  decide (imgGen s base < 8) && genCommitted s ownerGens (imgGen s base) && decide (128 ≤ imgLength s base) &&
    ecdsaOk (otpBytes s w 4) (otpBytes s (w + 4) 4) (sha256 (s.flash base (imgLength s base - 64)))
      (sig.take 32) (sig.drop 32)

/-! Section framing (R67, R69, R70, R732 steps 7 and 8). -/

/-- The low 8 bits of a type. -/
def sectLow (t : Nat) : Nat := t % 256

/-- Each section header in image order: FLAGS, order, R70. -/
def framing (version : Nat) : List SectHdr → Nat → Nat → Option Breach
  | [], _, _ => none
  | h :: rest, before, pos =>
    let t := sectLow h.type
    if !decide (h.flags < (if version = 1 then 1 else 2)) then some { code := 0x0102, sect := t, item := 0x8000 + pos }
    else if h.type ≤ before ∧ pos ≠ 0 then some { code := 0x010C, sect := t, item := pos }
    else if !within h.type 1 14 && !(version == 2 && bit h.flags 0) then some { code := 0x010B, sect := t, item := pos }
    else framing version rest h.type (pos + 1)

/-- The lowest required type that is absent. -/
def missing (im : Sections) : Option Breach :=
  ((([1, 2, 4, 0xB, 0xC, 0xD, 0xE] : List Nat).find? fun t => (sectionOf im t).isNone)).map fun t =>
    { code := 0x010A, sect := t, item := 0 }

/-! Payloads (R731, R732 step 9). -/

/-- The fixed part of a section's payload, and the length that its own counts imply. -/
def sectLengths (t : Nat) (p : List Byte) : Nat × Nat :=
  match t with
  | 1 => (0x20, 0x20)
  | 2 => (0x68, radioLen p)
  | 3 => (0xC0, scheduleLen p)
  | 4 => (8, tenantsLen p)
  | 5 => (16, shapersLen p)
  | 6 => (8, policersLen p)
  | 7 => (8, prefixesLen p)
  | 8 => (8, keysLen p)
  | 9 => (0x18, 0x18)
  | 0xA => (0x18, 0x18)
  | 0xB => (16, safetyLen p)
  | 0xC => (8, icuLen p)
  | 0xD => (24, coresLen p)
  | _ => (0x40, timeLen p)

/-- The rules of a section that IMAGE_VERIFY checks. -/
def sectFormat (im : Sections) (herdId t : Nat) (p : List Byte) : Option Breach :=
  match t with
  | 1 => profileFormat p
  | 2 => radioFormat p
  | 3 => scheduleFormat p
  | 4 => tenantsFormat p
  | 5 => shapersFormat im p
  | 6 => policersFormat p
  | 7 => prefixesFormat im herdId p
  | 9 => herdFormat p
  | 0xA => pairFormat im p
  | 0xC => icuFormat p
  | 0xD => coresFormat p
  | 0xE => timeFormat p
  | _ => none

/-- One recognised section: its length, its rules, its padding. -/
def sectBreach (im : Sections) (herdId : Nat) (h : SectHdr) : Option Breach :=
  let n := sectLengths h.type h.payload
  firstBreach [
    lengthRule h.type n.1 n.2 h.payload,
    sectFormat im herdId h.type h.payload,
    fmt h.type [(h.padding.all fun b => decide (b = 0), h.payload.length / 8)]]

/-! Core-image digests (R69, R639). -/

/-- The digests of the image records match the images at flash offset `region`. -/
def digestBreach (s : State) (region : Nat) (p : List Byte) : Option Breach :=
  refuse 0x010D 0x0D ((List.range (field p 0 1)).map fun i =>
    (decide (sha256 (s.flash (region + imgRec p i 4 4) (imgRec p i 8 4)) = (p.drop (imgAt i + 0x20)).take 32), i))

/-- The CORE_IMAGES payload of the image at `base`. -/
def coresOf (s : State) (base : Nat) : List Byte := (sectionOf (imagePayloads s base) 0xD).getD []

/-- ACTIVE_OFS + LEN at most, over the image records. -/
def coresEnd (p : List Byte) : Nat := ((List.range (field p 0 1)).map fun i => imgRec p i 4 4 + imgRec p i 8 4).foldl max 0

/-! The whole check. -/

/-- Steps 4 to 6 of R732. -/
def boundBreach (s : State) (base : Nat) : Option Breach :=
  let id := hdrField s base 0x10 8
  firstBreach [
    refuse 0x0105 0 [(s.flag Reg.KEYS_STATUS.CUR_VALID && decide (imgGen s base = s.get Reg.KEYS_STATUS.CUR_GEN), 3)],
    refuse 0x0104 0 [(signatureOk s base, 0xFFFF)],
    refuse 0x0106 0 [(decide (id = 0 ∨ id = s.get Reg.KEYS_DEVICE_ID.DEVICE_ID), 2)],
    refuse 0x0107 0 [(bit (hdrField s base 0x20 1) s.keys.lc, 4)],
    refuse 0x0108 0 [(decide (s.get Reg.KEYS_STATUS.ARB_LEVEL ≤ hdrField s base 0x21 1), 4)]]

/-- IMAGE_VERIFY on the image at `base`, its core images at `region` (R732). -/
def verifyImage (s : State) (base region : Nat) : Option Breach :=
  let hs := if lengthOk s base then imageSections s base else none
  let sections := hs.getD []
  let im := payloads sections
  firstBreach [
    refuse 0x0101 0 [(imgMagicOk s base, 0)],
    refuse 0x0102 0 (hdrRules s base),
    refuse 0x0103 0 [(hs.isSome, 1)],
    boundBreach s base,
    framing (imgVersion s base) sections 0 0,
    missing im,
    firstBreach ((sections.filter fun h => within h.type 1 14).map (sectBreach im s.start.herdId)),
    digestBreach s region (coresOf s base)]

/-- MEAS (R540): SHA-256 over the signature and the CORE_IMAGES digests in section order. -/
def measOf (s : State) (base : Nat) : List Byte :=
  let p := coresOf s base
  sha256 (imgSignature s base ++ (List.range (field p 0 1)).flatMap fun i => (p.drop (imgAt i + 0x20)).take 32)

/-- The Sheepdog's image is loaded into its TCM (R596). -/
def loadTcm (s : State) (base : Nat) : State :=
  let p := coresOf s base
  match (List.range (field p 0 1)).find? fun i => decide (imgRec p i 0 1 = 4) with
  | none => s
  | some i =>
    let octets := s.flash (Region.ACTIVE + imgRec p i 4 4) (imgRec p i 8 4)
    s.tcmWrite (imgRec p i 0x10 8) octets

/-- The entry point of a core in the image in force. -/
def coreEntry (s : State) (core : Nat) : Option Nat :=
  let p := s.start.cores
  ((List.range (field p 0 1)).find? fun i => decide (imgRec p i 0 1 = core)).map fun i => imgRec p i 0x18 8

/-- The images of the application cores are loaded from ACTIVE at their LOAD addresses. -/
def loadCores (s : State) (base : Nat) : State :=
  let p := coresOf s base
  (List.range (field p 0 1)).foldl (fun s i =>
    s.onlyIf (decide (imgRec p i 0 1 ≠ 4)) fun s =>
      s.ddrWrite (imgRec p i 0x10 8) (s.flash (Region.ACTIVE + imgRec p i 4 4) (imgRec p i 8 4))) s

end Sys2Proof.Machine
end

