-- ==== Sys2Proof/Machine/Update.lean ====
section
/-!
DEFINITION. Firmware update (R624 to R637, R645): the commands of XSPI_UPD_CTRL, the exchange of ACTIVE and STAGING, reverts,
commits, and what a restart in the middle leaves.
-/

namespace Sys2Proof.Machine

namespace UpdCause
def MIGRATE_FAIL : Nat := 5
def TRIAL_EXPIRED : Nat := 6
def ADMIT_FAIL : Nat := 7
def BY_FIRMWARE : Nat := 8
def BAD_IMAGE : Nat := 9
def STATE : Nat := 10
end UpdCause

/-- UPDATE_REFUSED (R645). -/
def updateRefused (s : State) (cause : Nat) (atStart reverted : Bool) : State :=
  s.event Ev.UPDATE_REFUSED Block.XSPI
    (at' cause 4 44 + at' (b2n atStart) 1 43 + at' (b2n reverted) 1 42 + at' (s.get Reg.HEALTH_STATUS.VBAT) 16 16)

/-! Refusal conditions (R625). -/

/-- The device runs on backup with VBAT below UPD_BATT_MIN. -/
def battLow (s : State) : Bool :=
  s.flag Reg.HEALTH_STATUS.ON_BACKUP && decide (s.get Reg.HEALTH_STATUS.VBAT < updBattMin s)

/-- UPDATE_LOCK is burned, or LOCK_UNTIL of the admitted image has not passed. -/
def ownerLock (s : State) : Bool :=
  let until_ := field s.start.cores 8 8
  s.flag Reg.KEYS_STATUS.UPDATE_LOCK ||
    (decide (until_ ≠ 0) && (!s.flag Reg.TIME_STATUS.STEP_USED || decide (s.time.ns / 1000000000 < until_)))

/-- The first refusal condition that holds at STAGE, by its CAUSE; 0 for none. -/
def stageRefusal (s : State) : Nat :=
  if s.upd.motionIn || s.flag Reg.XSPI_UPD_CTRL.MOTION_SW then 1
  else if battLow s then 2
  else if ownerLock s then 3
  else if inFlight s = 0 then 0 else 4

/-- The same for the conditions tested at a start. -/
def startRefusal (s : State) : Nat := if s.upd.motionIn then 1 else if battLow s then 2 else 0

/-! Commands of XSPI_UPD_CTRL (R646). -/

/-- A command ends with this CAUSE. -/
def updEnd (s : State) (cause : Nat) : State :=
  let s := (s.setFlag Reg.XSPI_UPD_STATUS.BUSY false).setFlag Reg.XSPI_UPD_STATUS.DONE true
  let s := (s.set Reg.XSPI_UPD_STATUS.CAUSE cause).onlyIf (decide (cause ≠ 0)) fun s => s.setFlag Reg.XSPI_UPD_STATUS.FAIL true
  { s with upd := { s.upd with cmd := none } }

/-- A command starts. -/
def updStart (s : State) (op : Nat) : State :=
  { s.setFlag Reg.XSPI_UPD_STATUS.BUSY true with upd := { s.upd with cmd := some op } }

/-- Blocks of a copy of CONFIG_STAGED into CONFIG. -/
def cfgBlocks : Nat := 64

/-- Journal a block of the copy. -/
def cfgCopyRec (s : State) (b : Nat) : State :=
  jAppend s { type := JType.CFG_COPY, block := b, arg := imgSeq s Region.CONFIG_STAGED }

/-- Copy the blocks from `b`, each after its record; the record of the first stands already. -/
def cfgCopy (s : State) (b n : Nat) : State :=
  (List.range n).foldl (fun s i =>
    let k := b + i
    let s := s.onlyIf (decide (i ≠ 0)) fun s => cfgCopyRec s k
    flashCopy s (Region.CONFIG_STAGED + 65536 * k) (Region.CONFIG + 65536 * k) 65536) s

/-- Revert begins: the first SWAP record of the way back, with the cause to report. -/
def revertRecord (s : State) (cause : Nat) : State := jAppend s { type := JType.SWAP, phase := 0x80, arg := cause }

/-- A write of XSPI_UPD_CTRL. -/
def writeUpdCtrl (s : State) (v : Nat) : State :=
  let s := s.setFlag Reg.XSPI_UPD_CTRL.MOTION_SW (bit v 0)
  let pending := s.flag Reg.XSPI_UPD_STATUS.PENDING
  let trial := s.flag Reg.XSPI_UPD_STATUS.TRIAL
  let back := (jView s).swap.isSome
  let op := bits v 57 56
  if !bit v 63 || s.flag Reg.XSPI_UPD_STATUS.BUSY || decide (op = 0) then s
  else if op = 1 then
    if !s.inRun || pending || trial then updEnd s UpdCause.STATE
    else
      let c := stageRefusal s
      if c ≠ 0 then updateRefused (updEnd s c) c false false else updStart s 1
  else if !s.inRun || !trial || back then updEnd s UpdCause.STATE
  else if op = 2 then updStart (cfgCopyRec s 0) 2
  else updStart (revertRecord s UpdCause.BY_FIRMWARE) 3

/-- STAGE, COMMIT and REVERT; `value` gives MOTION_SW. -/
def updWrite (dt op : Nat) (value : Word) (s : State) : Result :=
  step' dt s fun s => (writeUpdCtrl s (2 ^ 63 + op * 2 ^ 56 + value.toNat % 2)).answer 0
def execStage (dt : Nat) (value : Word) (s : State) : Result := updWrite dt 1 value s
def execCommit (dt : Nat) (value : Word) (s : State) : Result := updWrite dt 2 value s
def execRevert (dt : Nat) (value : Word) (s : State) : Result := updWrite dt 3 value s

/-- Steps 2 and 3 of STAGE. -/
def stagedImageOk (s : State) : Bool :=
  let p := coresOf s Region.CONFIG_STAGED
  headerOk s Region.CONFIG_STAGED && signatureOk s Region.CONFIG_STAGED &&
    later 32 (imgSeq s Region.CONFIG_STAGED) (imgSeq s Region.CONFIG) &&
    !p.isEmpty && (digestBreach s Region.STAGING p).isNone

/-- STAGE succeeds (R624). -/
def stageCommit (s : State) : State :=
  let e := max (coresEnd (coresOf s Region.CONFIG)) (coresEnd (coresOf s Region.CONFIG_STAGED))
  let s := s.flashErase Region.JOURNAL 0x30000
  let s := jAppend s { type := JType.STAGED, block := ceilDiv e 65536, arg := imgSeq s Region.CONFIG_STAGED }
  s.setFlag Reg.XSPI_UPD_STATUS.PENDING true

/-- The anti-rollback level that COMMIT reaches (R632 step 3). -/
def commitLevel (s : State) : Nat := hdrField s Region.CONFIG_STAGED 0x21 1

/-- Steps 2 to 4 of COMMIT (R632); a margin read that fails leaves the trial standing. -/
def commitTail (s : State) (marginOk : Bool) : State :=
  let released := ((jView s).migrated.map fun w => 1 - w).getD 0
  let s := s.onlyIf (!(jView s).released) fun s => jAppend s { type := JType.MIGRATE_COMMIT, arg := released }
  let s := senseOtp (burnWords s (arbPlan s (commitLevel s)))
  s.onlyIf marginOk fun s =>
    (jAppend s { type := JType.COMMITTED, arg := imgSeq s Region.CONFIG_STAGED }).setFlag Reg.XSPI_UPD_STATUS.TRIAL false

/-- UPD_CMD_DONE (R624, R631, R632): the running command ends. -/
def execUpdCmdDone (dt : Nat) (marginOk : Bool) (s : State) : Result :=
  step' dt s fun s =>
    match s.upd.cmd with
    | none => s
    | some 1 => if stagedImageOk s then updEnd (stageCommit s) 0 else updEnd s UpdCause.BAD_IMAGE
    | some 2 =>
      let s := commitTail (cfgCopy s 0 cfgBlocks) marginOk
      if marginOk then updEnd s 0
      else
        let c := s.free
        (updEnd s.drawn c).setFlag Reg.XSPI_UPD_STATUS.FAIL true
    | some _ => updEnd s 0

/-! The exchange (R627 to R629). -/

/-- Source and target of a phase on block `b`. -/
def swapRanges (b phase : Nat) : Nat × Nat :=
  let active := Region.ACTIVE + 65536 * b
  let staging := Region.STAGING + 65536 * b
  if phase = 0 then (active, Region.SCRATCH) else if phase = 1 then (staging, active) else (Region.SCRATCH, staging)

/-- A phase begins, after its record. -/
def swapBegin (s : State) (w : Swap) : State :=
  let s := jAppend s { type := JType.SWAP, phase := w.phase + 0x80 * b2n w.back, block := w.block
                       arg := if w.back then s.upd.revertCause else 0 }
  { s with upd := { s.upd with swap := some w } }

/-- The phase that follows; `none` after the last block. -/
def swapNext (s : State) (w : Swap) : Option Swap :=
  if w.phase < 2 then some { w with phase := w.phase + 1, again := false }
  else if w.block + 1 < (jView s).blocks then some { w with block := w.block + 1, phase := 0, again := false }
  else none

/-- A revert begins in this start (R631). -/
def startRevert (s : State) (cause : Nat) : State :=
  let s := { s with upd := { s.upd with revertCause := cause } }
  (swapBegin s { block := 0, phase := 0, back := true }).set Reg.SYS_BOOT_STATUS.STATE Boot.UPDATE_COPY

/-- An exchange found unfinished resumes at the phase of its last record (R629). -/
def resumeSwap (s : State) (r : JRec) : State :=
  let back := bit r.phase 7
  let w : Swap := { block := r.block, phase := r.phase % 4, back := back }
  let s := { s with upd := { s.upd with swap := some w, revertCause := if back then r.arg else 0 } }
  s.set Reg.SYS_BOOT_STATUS.STATE Boot.UPDATE_COPY

/-- The last block of a forward exchange is done (R627). -/
def swapForwardEnd (s : State) : State :=
  let s := jAppend s { type := JType.SWAPPED }
  let s := (s.setFlag Reg.XSPI_UPD_STATUS.PENDING false).setFlag Reg.XSPI_UPD_STATUS.TRIAL true
  { s with upd := { s.upd with swap := none } }

/-- A revert is complete (R631): CONFIG_STAGED is rejected, a migrated slot loses its first block, and TRIAL clears. -/
def swapBackEnd (s : State) : State :=
  let v := jView s
  let s := jAppend s { type := JType.CFG_REJECT, arg := imgSeq s Region.CONFIG_STAGED }
  let s := match v.migrated with
    | none => s
    | some w => s.flashErase (Region.SETTINGS w) 65536
  let s := jAppend s { type := JType.SWAPPED, arg := 1 }
  let s := (s.setFlag Reg.XSPI_UPD_STATUS.PENDING false).setFlag Reg.XSPI_UPD_STATUS.TRIAL false
  let s := { s with upd := { s.upd with swap := none } }
  updateRefused s s.upd.revertCause true true

/-! Restarts in the middle. -/

/-- What a COMMIT that is cut short has done: how far it came is open. -/
def commitTear (s : State) : State :=
  let k := s.free % (cfgBlocks + 2)
  let s := s.drawn
  let done := cfgCopy s 0 (min k cfgBlocks)
  if k < cfgBlocks then
    let t := done.onlyIf (decide (k ≠ 0)) fun t => cfgCopyRec t k
    flashTorn t (Region.CONFIG + 65536 * k) 65536
  else if k = cfgBlocks then done
  else tearBurn (jAppend done { type := JType.MIGRATE_COMMIT, arg := ((jView s).migrated.map fun w => 1 - w).getD 0 })
    (arbPlan s (commitLevel s)) true

/-- What the copy of R72 has done when it is cut short. -/
def copyTear (s : State) : State :=
  let k := s.free % cfgBlocks
  let done := cfgCopy s.drawn 0 k
  flashTorn (done.onlyIf (decide (k ≠ 0)) fun t => cfgCopyRec t k) (Region.CONFIG + 65536 * k) 65536

/-- What a STAGE that is cut short has done: nothing, an erased JOURNAL, or everything. -/
def stageTear (s : State) : State :=
  let k := s.free % 3
  let s := s.drawn
  if k = 0 || !stagedImageOk s then s
  else if k = 1 then s.flashErase Region.JOURNAL 0x30000 else stageCommit s

/-- A restart cuts the update machinery short. -/
def updTear (s : State) : State :=
  match s.upd.swap, s.upd.copying, s.upd.cmd with
  | some w, _, _ => flashTorn s (swapRanges w.block w.phase).2 65536
  | none, true, _ => if s.upd.commit then commitTear s else copyTear s
  | none, false, some 1 => stageTear s
  | none, false, some 2 => commitTear s
  | none, false, _ => s

end Sys2Proof.Machine
end

