-- ==== Sys2Proof/Machine/Reset.lean ====
section
/-!
DEFINITION. Resets (R49 to R53, R401, R658, R707): what each leaves, and what an operation in progress leaves behind.
-/

namespace Sys2Proof.Machine

/-! What survives a full restart. -/

/-- Fields of the always-on domain and of SYS_RESET_CAUSE: GOOSE is block 4, LAMB is block 0x12. -/
def alwaysOn (key : Nat) : Bool :=
  let off := key / 64
  decide (off / 0x10000 = 4 ∨ off / 0x10000 = 0x12 ∨ off = 0x48)

/-- A counter whose record is being programmed: whether it was is open. -/
def hwmTear (s : State) : State :=
  s.nv.programming.foldl (fun s e => (s.onlyIf (s.free % 2 = 1) fun s => hwmAppend s e.1 e.2).drawn) s

/-- Every operation on storage that a restart cuts short. -/
def tearAll (s : State) : State := hwmTear (updTear (progTear (fwmRestart (keysTear s true))))

/-- The emulated tag's session, which the harvest domain carries on passively (R575). -/
def keptSession (s : State) : Option EmuSession :=
  s.nfc.emu.map fun e => { e with active := false }

/-- The machine with every volatile domain but the always-on one at its reset state. `power`: the main rails were off. -/
def mainReset (s : State) (power : Bool) : State :=
  let ext := s.flag Reg.NFC_STATUS.EXT_FIELD
  let t : State := {
    tick := s.tick, freeCtr := s.freeCtr, outs := s.outs, pending := s.pending, bus := s.bus
    fields := s.fields.filter fun e => alwaysOn e.1
    mem := if power then { s.mem with lp4x := [], tcm := [] } else s.mem
    aon := s.aon, fwm := s.fwm, nfc := { emu := keptSession s }
    health := { mains := s.health.mains, mainsTick := s.health.mainsTick, log := s.health.log, logSecond := s.health.logSecond,
                burns := s.health.burns, corrected := s.health.corrected }
    upd := { motionIn := s.upd.motionIn }, io := { balls := s.io.balls }, start := { herdId := s.start.herdId } }
  let t := (t.setFlag Reg.NFC_STATUS.EXT_FIELD ext).setFlag Reg.NFC_STATUS.EMU_SESSION t.nfc.emu.isSome
  t.setFlag Reg.HEALTH_STATUS.ON_BACKUP (!s.health.mains)

/-! Pins (R56, R57, R706). -/

/-- AVS_VID goes to a code in steps of one (R706). -/
def avsTo (s : State) (code : Nat) : State :=
  let c := s.aon.avs
  let steps := if c ≤ code then (List.range (code - c)).map fun i => c + 1 + i else (List.range (c - code)).map fun i => c - 1 - i
  let s := steps.foldl (fun s v => s.emit (.avs v)) s
  { s with aon := { s.aon with avs := code } }

/-- What the device drives in AON_ONLY (R56). -/
def aonPins (s : State) : State := avsTo ((s.emit (.pin .safeN false)).emit (.pin .mainPwrEn true)) 8

/-! The reset kinds (R49, R52). -/

/-- A full restart that sets one bit of SYS_RESET_CAUSE. -/
def fullRestart (s : State) (cause : Fld) (power : Bool) : State := aonPins ((mainReset (tearAll s) power).setFlag cause true)

/-- A cold power-on: every domain resets. -/
def coldRestart (s : State) : State :=
  let s := mainReset (tearAll s) true
  let s := { s with fields := s.fields.filter fun e => !alwaysOn e.1, aon := { rtcTick := s.tick } }
  aonPins (s.emit (.avs 8))

/-- A core reset (R51, R401): the application cores and L2 alone. -/
def coreReset (s : State) : State :=
  let s := s.setFlag Reg.SYS_RESET_CAUSE.CORE true
  let s := { s with q := { s.q with rx := [], tx := [], midRead := s.q.midRead.filter fun f => decide (f < 5), txBroken := [] } }
  s.onlyIf s.inRun fun s =>
    (List.range 4).foldl (fun s c =>
      match coreEntry s c with
      | none => s
      | some e => ((s.set (Reg.ICU_CORE_PWR.STATE c) 0).setFlag (Reg.ICU_CORE_PWR.RESUMED c) false).emit (.coreStart c e)) s

/-- Is the main domain powered? -/
def powered (s : State) : Bool := !s.start.off && !s.health.sleep

/-- A write of SYS_RESET_CTRL (R51, R53). -/
def writeResetCtrl (s : State) (v : Nat) : State :=
  if bits v 63 32 ≠ 0xA5C30F96 then s
  else if v % 4 = 1 then fullRestart s Reg.SYS_RESET_CAUSE.SOFT false
  else if v % 4 = 2 then coreReset s
  else s

/-- COLD_POWER_ON, MAIN_POWER_ON and BROWN_OUT. -/
def execColdPowerOn (dt : Nat) (s : State) : Result := whenever dt s (fun s => s.start.off) coldRestart
def execMainPowerOn (dt : Nat) (s : State) : Result :=
  whenever dt s (fun s => !s.start.off) fun s => fullRestart s Reg.SYS_RESET_CAUSE.MAIN_POR true
def execBrownOut (dt : Nat) (s : State) : Result :=
  whenever dt s powered fun s => fullRestart s Reg.SYS_RESET_CAUSE.BROWNOUT true

/-- SYSTEM_RESET and CORE_RESET: keyed writes of SYS_RESET_CTRL; the command fixes TYPE. -/
def execSystemReset (dt : Nat) (value : Word) (s : State) : Result :=
  whenever dt s powered fun s => (writeResetCtrl s (value.toNat / 4 * 4 + 1)).answer 0
def execCoreReset (dt : Nat) (value : Word) (s : State) : Result :=
  whenever dt s powered fun s => (writeResetCtrl s (value.toNat / 4 * 4 + 2)).answer 0

/-- JTAG_SYSTEM_RESET: it needs an open debug port (R527, R718). -/
def execJtagSystemReset (dt : Nat) (s : State) : Result :=
  whenever dt s (fun s => powered s && s.flag Reg.KEYS_STATUS.DEBUG) fun s => fullRestart s Reg.SYS_RESET_CAUSE.JTAG false

/-- WD_RESET (R658): 1 ms after the watchdog's detection. -/
def execWdReset (dt : Nat) (s : State) : Result :=
  whenever dt s (fun s => (s.safe.wdReset.map fun t => s.elapsedMs t 1).getD false) fun s =>
    fullRestart s Reg.SYS_RESET_CAUSE.WDOG false

/-- ALWAYS_ON_SUPPLY_LOSS (R552): VBAT and the main supplies are both absent. -/
def execAlwaysOnSupplyLoss (dt : Nat) (s : State) : Result :=
  whenever dt s (fun s => !s.start.off) fun s =>
    let s := mainReset (tearAll s) true
    { s with fields := s.fields.filter fun e => !alwaysOn e.1, aon := {}, start := { s.start with off := true } }

end Sys2Proof.Machine
end

