-- ==== Sys2Proof/Machine/Goose.lean ====
section
/-!
DEFINITION. The Goose (R546 to R554): latching, its responses, and TAMPER_HOLD.
-/

namespace Sys2Proof.Machine

/-- GOOSE_RTC: AON_CLK cycles at 32.768 kHz since it was zero (R27, R556). -/
def rtcNow (s : State) : Nat := (s.tick - s.aon.rtcTick) * 32768 / ticksPerSecond % 2 ^ 48

/-- The response of a source; 5 to 7 act as 4 (R547). -/
def gooseResponse (s : State) (src : Nat) : Nat := min 4 (s.get (Reg.GOOSE_SRC.RESPONSE src))

/-- Is a source latched? -/
def gooseLatched (s : State) (src : Nat) : Bool := bit (s.get Reg.GOOSE_STATUS.LATCH) src

/-- Does the latch hold a source whose response is other than LOG (R61)? -/
def gooseHolds (s : State) : Bool := (List.range 9).any fun n => gooseLatched s n && decide (gooseResponse s n ≠ 0)

/-- TAMPER (R554). -/
def tamperEvent (s : State) (l : GooseLatch) : State :=
  s.event Ev.TAMPER Block.GOOSE
    (at' l.src 4 44 + at' (s.get (Reg.GOOSE_SRC.RESPONSE l.src)) 3 41 + at' l.phase 4 37 + at' (b2n l.abort) 1 36)

/-- TAMPER for the latched sources with a property, in the order in which they latched. -/
def tamperEvents (s : State) (p : GooseLatch → Bool) : State :=
  (s.aon.latches.filter fun l => gooseLatched s l.src && p l).foldl tamperEvent s

/-- Entry to TAMPER_HOLD (R61, R554). -/
def tamperHold (s : State) : State :=
  (tamperEvents s fun _ => true).set Reg.SYS_BOOT_STATUS.STATE Boot.TAMPER_HOLD

/-- A transition of the start up to and including entry to ADMIT: the latch is checked first (R61). -/
def transition (s : State) (next : State → State) : State := if gooseHolds s then tamperHold s else next s

/-- The latch bit and what is noted of the first latch (R546, R556). -/
def latchBits (s : State) (src : Nat) : State :=
  let s := if s.flag Reg.GOOSE_STATUS.ANY then s
    else
      let s := (s.setFlag Reg.GOOSE_STATUS.ANY true).set Reg.GOOSE_STATUS.FIRST src
      let s := s.set Reg.GOOSE_STATUS.FIRST_RESP (s.get (Reg.GOOSE_SRC.RESPONSE src))
      s.set Reg.GOOSE_LATCH_TIME.TICK (rtcNow s)
  s.setBit Reg.GOOSE_STATUS.LATCH src

/-- Latch bits reach their clearing (R550): with none left, nothing is noted any more. -/
def latchClear (s : State) (sources : Nat) : State :=
  let left := (List.range 9).foldl (fun a n => a + b2n (gooseLatched s n && !bit sources n) * 2 ^ n) 0
  let s := s.set Reg.GOOSE_STATUS.LATCH left
  let s := { s with aon := { s.aon with latches := s.aon.latches.filter fun l => bit left l.src } }
  if left ≠ 0 then s
  else
    let s := (s.setFlag Reg.GOOSE_STATUS.ANY false).set Reg.GOOSE_STATUS.FIRST 0
    (s.set Reg.GOOSE_STATUS.FIRST_RESP 0).set Reg.GOOSE_LATCH_TIME.TICK 0

/-- A record number as a failure names it: none for broadcast and beacons. -/
def failRecord (r : Nat) : Option Nat := if r = broadcast then none else some r

/-- The frame of a carrier that was being encrypted is dropped. -/
def dropSeal (s : State) (j : CcmJob) (fe id bin : Nat) : State :=
  match jobCarrier s fe id bin with
  | none => s
  | some (e, c) =>
    let record := match c.load with
      | .data p _ _ => failRecord p.record
      | .ack r _ => some r
      | _ => none
    micFail (loseFrame s fe e c) record fe 2 j.level none

/-- The CRYPTO jobs that engines run end without a result, and their frames are dropped as MIC_FAIL with cause NO_KEY (R547). -/
def dropJobs (s : State) : State :=
  let running := s.crypto.jobs.filter (·.engine.isSome)
  let s := { s with crypto := { s.crypto with jobs := s.crypto.jobs.filter (·.engine.isNone) } }
  running.foldl (fun s j =>
    match j.kind with
    | .verify id =>
      match s.up.find? fun u => decide (u.id = id) with
      | none => s
      | some u => micFail (dropUp s id) (failRecord u.record) u.fe 2 ((secOf u.frame).map (·.level) |>.getD 0) none
    | .ack fe id bin => dropSeal s j fe id bin
    | .encrypt fe id bin _ => dropSeal s j fe id bin) s

/-- ZEROIZE_VOLATILE (R547). -/
def zeroiseVolatile (s : State) : State :=
  let s := dropJobs (zeroise s)
  (List.range 4).foldl (fun s k => s.set (Reg.KEYS_CHAL.CHAL k) 0) s

/-- The responses of R547, each with all those before it. -/
def gooseRespond (s : State) (r : Nat) : State :=
  let s := s.onlyIf (decide (1 ≤ r)) zeroiseVolatile
  let s := s.onlyIf (decide (2 ≤ r)) fun s => s.setFlag Reg.KEYS_STATUS.LOCKED true
  let s := s.onlyIf (decide (4 ≤ r)) fun s => enterSafe s 0x0D 0 0
  s.onlyIf (decide (3 ≤ r)) fun s => fullRestart s Reg.SYS_RESET_CAUSE.TAMPER false

/-- A source latches (R546, R548). Before the ladder has run, the next transition of the start looks at the latch (R61); from
then on and before RUN, also in the IMAGE_VERIFY that follows a staged refusal, the keys are zeroised at once (R62). -/
def gooseLatch (s : State) (src : Nat) : State :=
  let r := gooseResponse s src
  let asleep := s.health.sleep
  let held := decide (s.boot = Boot.TAMPER_HOLD)
  let abort := s.keys.op.isSome && decide (1 ≤ r) && !asleep && !held
  let l : GooseLatch := { src := src, phase := if asleep then 0xE else s.boot, abort := abort }
  let s := latchBits s src
  let s := { s with aon := { s.aon with latches := s.aon.latches ++ [l] } }
  let s := s.onlyIf abort fun s => keysTear s false
  let early := decide (s.boot ≤ Boot.CALIBRATE)
  if asleep || held || (early && (!s.keys.laddered || decide (r = 0))) then s
  else if early then tamperHold (zeroiseVolatile s)
  else gooseRespond (s.onlyIf s.inRun fun s => tamperEvent s l) r

/-- GOOSE_LATCH (R546): an enabled source's condition completes. -/
def execGooseLatch (dt : Nat) (src : Fin 9) (s : State) : Result :=
  whenever dt s (fun s => !s.start.off && s.flag (Reg.GOOSE_SRC.EN src) && !gooseLatched s src) fun s => gooseLatch s src

end Sys2Proof.Machine
end

