-- ==== Sys2Proof/Machine/Detect.lean ====
section
/-!
DEFINITION. The commands of detectors, lanes and hearing modes (R150 to R176), and of the payload decoders (R205 to
R207).
-/

namespace Sys2Proof.Machine

/-- Does the detector of a bin test this mode now (R146 to R149)? -/
def detectorTests (s : State) (d : Detect) : Bool :=
  detectorsRun s d.fe && binEnabled s d.fe d.bin &&
    (match subbandOf s d.fe d.bin with
     | none => false
     | some b => bit b.modes d.mode && modeValid d.mode &&
        (!isFDW d.mode || decide ((subbandOf s d.fe (d.bin + 1)).map (·.index) = some b.index)))

/-- The acquisition range in Hz (R159). -/
def acquireHz (fe : Nat) : Nat := if fe = 2 then 100000 else 38400

/-- Have DET_SYMS consecutive symbols of this preamble ended by now, none of them before the detectors resumed (R147, R150, R735)?
The last of them is the one that ended last. -/
def symbolsHeard (s : State) (d : Detect) : Bool :=
  let k := (antennaNs s d.fe - d.timing) * 256 / (symbolTime256 d.mode * 1000)
  decide (d.timing ≤ antennaNs s d.fe ∧ detSyms s ≤ k ∧ k ≤ preambleSyms d.mode ∧
    (s.fe d.fe).detectNs < d.timing + symbolsNs d.mode (k + 1 - detSyms s))

/-- Is `t` within ±4 chips of `u` (R151, R155)? -/
def within4 (mode t u : Nat) : Bool := decide (t ≤ u + fourChipsNs mode ∧ u ≤ t + fourChipsNs mode)

/-- Does an earlier detection of this detector suppress this one (R151)? -/
def suppressed (s : State) (d : Detect) : Bool :=
  (s.hear.lanes.any fun e => laneHasFrame e.2 && decide (e.2.fe = d.fe ∧ e.2.bin = d.bin ∧ e.2.mode = d.mode) &&
    within4 d.mode d.timing e.2.timingNs) ||
  (s.hear.missed.any fun m => decide (m.fe = d.fe ∧ m.bin = d.bin ∧ m.mode = d.mode ∧ antennaNs s d.fe < m.untilNs)
    && within4 d.mode d.timing m.timingNs)

/-- Does a detector declare this detection now (R150)? -/
def declares (s : State) (d : Detect) : Bool :=
  detectorTests s d && decide (s.get Reg.CHAN_DET_CTRL.DET_THRESH < d.corr ∧ d.freqOfs.natAbs ≤ acquireHz d.fe) &&
    symbolsHeard s d && !suppressed s d

/-- Does this detection carry OVERLAP: another frame stands at this detector (R151)? -/
def overlaps (s : State) (d : Detect) : Bool :=
  (s.hear.lanes.any fun e => laneHasFrame e.2 && decide (e.2.fe = d.fe ∧ e.2.bin = d.bin)) ||
  (s.hear.missed.any fun m => decide (m.fe = d.fe ∧ m.bin = d.bin ∧ antennaNs s d.fe < m.untilNs))

/-- OVERLAP goes to the Ox pool with the frames that stand at a detector too (R151). -/
def markOverlap (s : State) (fe bin : Nat) : State :=
  let lanes := s.hear.lanes.map fun e =>
    (e.1, if laneHasFrame e.2 ∧ e.2.fe = fe ∧ e.2.bin = bin then { e.2 with overlap := true } else e.2)
  let jobs := s.ox.jobs.map fun e => (e.1, if e.2.fe = fe ∧ e.2.bin = bin then { e.2 with overlap := true } else e.2)
  { s with hear := { s.hear with lanes := lanes }, ox := { s.ox with jobs := jobs } }

/-- Is this a copy of a frame in a lane on the other sub-GHz front end (R155)? -/
def divSuppressed (s : State) (d : Detect) : Bool :=
  decide (d.fe ≠ 2) && s.hear.lanes.any fun e => laneHasFrame e.2 &&
    decide (e.2.fe ≠ 2 ∧ e.2.fe ≠ d.fe ∧ e.2.mode = d.mode ∧
      modeKhz s e.2.fe e.2.bin e.2.mode = modeKhz s d.fe d.bin d.mode) &&
    within4 d.mode d.timing e.2.timingNs

/-- The equaliser of a lane at its allocation (R161, R162): feed-forward tap 3 is one, all others zero. Step exponents act between
2 and 12. -/
def freshEq (s : State) : Equaliser :=
  let zero : Cplx := { re := 0, im := 0 }
  let exponent := fun (x : Nat) => min 12 (max 2 x)
  { ff := List.replicate 3 zero ++ [{ re := 1, im := 0 }] ++ List.replicate 4 zero, fb := List.replicate 4 zero
    muTrain := exponent (s.get Reg.CHAN_DFE_CTRL.MU_TRAIN_SHIFT), muTrack := exponent (s.get Reg.CHAN_DFE_CTRL.MU_TRACK_SHIFT)
    fbOn := s.flag Reg.CHAN_DFE_CTRL.DFE_FB_EN, trBw := s.get Reg.CHAN_DFE_CTRL.TR_BW }

/-- A tap after one update with step exponent `mu` (R162): w + 2^(-mu) · e · x*. -/
def tapStep (mu : Nat) (e w x : Cplx) : Cplx :=
  { re := w.re + (e.re * x.re + e.im * x.im) / (2 ^ mu : Nat), im := w.im + (e.im * x.re - e.re * x.im) / (2 ^ mu : Nat) }

/-- One update of an equaliser (R162): an input that is not given counts as zero; feedback taps that are not enabled stay at zero. -/
def eqStep (q : Equaliser) (p : EqStep) : Equaliser :=
  let mu := if q.tracking then q.muTrack else q.muTrain
  let upd := fun (ws xs : List Cplx) => ws.zipIdx.map fun w => tapStep mu p.e w.1 (xs.getD w.2 { re := 0, im := 0 })
  { q with ff := upd q.ff p.ff, fb := if q.fbOn then upd q.fb p.fb else q.fb }

/-- Give a lane to a detection (R154, R157); `reserved` when it claims the reservation that holds the lane. A lane outside the
enabled set stays in DRAIN. -/
def allocate (s : State) (n : Nat) (d : Detect) (overlap reserved : Bool) : State :=
  let s := { s with hear := { s.hear with claims := s.hear.claims + 1 } }
  setLane s n { stage := .acquire, claim := s.hear.claims, reserved := reserved, drain := (laneAt s n).drain, eq := freshEq s
                fe := d.fe, bin := d.bin, mode := d.mode, overlap := overlap,
                timingNs := d.timing, allocNs := antennaNs s d.fe,
                syncWait := max 48 (s.get Reg.CHAN_LANE_CTRL.SYNC_WAIT),
                maxAirtime := min 400 (max 10 (s.get Reg.CHAN_LANE_CTRL.MAX_AIRTIME)) }

/-- A detection receives no lane: it still suppresses its detector for the frame's preamble (R151). -/
def noLane (s : State) (d : Detect) : State :=
  let gone : Missed := { fe := d.fe, bin := d.bin, mode := d.mode, timingNs := d.timing
                         untilNs := d.timing + preambleNs d.mode }
  { s with hear := { s.hear with missed := (s.hear.missed.filter fun m => decide (antennaNs s m.fe < m.untilNs)) ++ [gone] } }

/-- The triggers that a detection with OVERLAP brings (R222). -/
def overlapCause (overlap : Bool) : List Nat := if overlap then [1] else []

/-- A detection finds no lane (R156, R176). -/
def laneMiss (s : State) (d : Detect) (overlap : Bool) : State :=
  let r := (Cells.get s.hear.missWindow d.fe {}).add s.msNow
  let s := noLane { s with hear := { s.hear with missWindow := Cells.set s.hear.missWindow d.fe r.1 {} } } d
  let s := if r.2 then s.event Ev.LANE_MISS Block.CHAN
      (at' d.fe 2 46 + at' d.bin 8 38 + at' (b2n (recoveryOn s)) 1 37 + at' (min r.1.previous 65535) 16 16)
    else s.count Ev.LANE_MISS
  captureDetection s d (overlapCause overlap ++ [2])

/-- A detection that takes lane `n`: a narrow lane may be armed, and OVERLAP is a trigger. -/
def takeLane (s : State) (n : Nat) (d : Detect) (overlap reserved : Bool) : State :=
  let s := allocate s n d overlap reserved
  let s := s.onlyIf (decide (n < 256)) fun s => armLane s n d
  captureDetection s d (overlapCause overlap)

/-- Serve a declared detection (R151 to R156). -/
def serveDetection (s : State) (d : Detect) : State :=
  let ov := overlaps s d
  let s := s.onlyIf ov fun s => markOverlap s d.fe d.bin
  if divSuppressed s d then captureDetection (noLane (s.count Ctr.DIV_SUPPRESS) d) d (overlapCause ov)
  else match matchingReservation s d.fe d.bin with
    | some n => takeLane s n d ov true
    | none => match laneForDetection s (isWide d.fe) with
      | some n => takeLane s n d ov false
      | none => laneMiss s d ov

/-- The order in which detections of one DSP_CLK cycle are served (R154): higher raw correlation, then lower front end, then lower
BIN. -/
def sooner (a b : Detect) : Bool :=
  decide (b.raw < a.raw ∨ (a.raw = b.raw ∧ (a.fe.val < b.fe.val ∨ (a.fe = b.fe ∧ a.bin ≤ b.bin))))

/-- DETECTION (R150): preamble detectors declare the detections of one cycle, and each is served a lane or missed. -/
def execDetection (dt : Nat) (ds : List Detect) (s : State) : Result :=
  step' dt s fun s => (sortBy sooner ds).foldl (fun s d => s.onlyIf (declares s d) fun s => serveDetection s d) s

/-- RSV_WINDOW_END (R153): an unclaimed reservation is released; one still pending is dropped as RSV_MISS. -/
def execRsvWindowEnd (dt : Nat) (cell : Nat) (s : State) : Result :=
  step' dt s fun s =>
    let ended := fun (fe til : Nat) => decide (til ≤ antennaNs s fe)
    let missed := (s.hear.pendingRsv.filter fun p => decide (p.cell = cell) && ended p.fe p.windowTo).length
    let s := { s with hear := { s.hear with
      lanes := s.hear.lanes.filter fun e =>
        !(decide (e.2.stage = LaneStage.reserved ∧ e.2.cell = cell) && ended e.2.fe e.2.windowTo),
      pendingRsv := s.hear.pendingRsv.filter fun p => !(decide (p.cell = cell) && ended p.fe p.windowTo) } }
    s.onlyIf (missed ≠ 0) fun s => s.count Ctr.RSV_MISS missed

/-- PENDING_RESERVATION_SERVED (R153): the pending reservation of lowest cell index whose window runs and whose pool has a free
enabled lane takes it. -/
def execPendingReservationServed (dt : Nat) (s : State) : Result :=
  step' dt s fun s =>
    match (pendingOf s false ++ pendingOf s true).find? fun p => !(freeLanes s (isWide p.fe)).isEmpty with
    | none => s
    | some p => match (freeLanes s (isWide p.fe)).head? with
      | none => s
      | some n => grantReservation
          { s with hear := { s.hear with pendingRsv := s.hear.pendingRsv.filter (· ≠ p) } } n p

/-- Is this sync word accepted in a lane (R163)? A Fostaic one within SYNC_TOL wrong bits; a start-of-frame delimiter only as the
standard has it. -/
def syncAccepted (s : State) (l : Lane) (sync : Nat) : Bool :=
  if isFostaic l.mode then
    decide (popCount 32 (sync % 2 ^ 32 ^^^ syncWord) ≤ ((subbandOf s l.fe l.bin).map (·.syncTol)).getD 0)
  else decide (sync = if l.mode = modeOQPSK then oqpskSfd else Config.sunSfd)

/-- A frequency estimate in 50 Hz, within the acquisition range (R159). -/
def afcOf (fe : Nat) (afc : Int) : Int := clampInt (acquireHz fe / 50) afc

/-- May the sync word that began at `sync` on the antenna scale be found now in a lane: it has ended, and within SYNC_WAIT symbols of
allocation (R157, R735)? -/
def syncTimely (s : State) (l : Lane) (sync : Nat) : Bool :=
  let til := sync + syncNsOf l.mode
  decide (til ≤ antennaNs s l.fe ∧ til ≤ l.allocNs + symbolsNs l.mode l.syncWait)

/-- SYNC_FOUND (R163): the sync word is accepted and the lane moves to HEADER, with its measurements (R166). The frequency estimate
and the RSSI are those of the first 16 symbols, or of those so far (R159). `steps` are the training updates of the equaliser since
the lane's last command; training is over (R162). -/
def execSyncFound (dt : Nat) (lane sync : Nat) (m : LaneMeasure) (steps : List EqStep) (s : State) : Result :=
  whenever dt s
    (fun s => let l := laneAt s lane
      decide (l.stage = .acquire ∨ l.stage = .syncSearch) && syncAccepted s l sync && decide (pipeNs l.fe ≤ m.syncAt) &&
        syncTimely s l (m.syncAt - pipeNs l.fe))
    fun s =>
      let l := laneAt s lane
      let early := decide (l.stage = .acquire)
      setLane s lane { l with
        stage := .header, afc := if early then afcOf l.fe m.afc else l.afc
        rssi := if early then atAntenna s l.fe m.power else l.rssi
        lq := lqOf m.snr, syncNs := m.syncAt - pipeNs l.fe, eq := { steps.foldl eqStep l.eq with tracking := true } }

/-- ACQUIRE_END (R157, R159): sixteen preamble symbols are done without a sync word; the frequency estimate is held. -/
def execAcquireEnd (dt : Nat) (lane : Nat) (afc power : Int) (steps : List EqStep) (s : State) : Result :=
  whenever dt s
    (fun s => let l := laneAt s lane
      decide (l.stage = .acquire ∧ l.allocNs + symbolsNs l.mode 16 ≤ antennaNs s l.fe))
    fun s =>
      let l := laneAt s lane
      setLane s lane { l with stage := .syncSearch, afc := afcOf l.fe afc, rssi := atAntenna s l.fe power
                              eq := steps.foldl eqStep l.eq }

/-- SYNC_TIMEOUT (R157): SYNC_WAIT symbols since allocation pass without sync. -/
def execSyncTimeout (dt : Nat) (lane : Nat) (s : State) : Result :=
  whenever dt s
    (fun s => let l := laneAt s lane
      decide ((l.stage = .acquire ∨ l.stage = .syncSearch) ∧
        l.allocNs + symbolsNs l.mode l.syncWait ≤ antennaNs s l.fe))
    fun s =>
      let l := laneAt s lane
      (disarm (freeLane s lane) l.context l.claim).count Ctr.SYNC_MISS

/-- A lane's header is refused (R157, R164): HDR_FAIL. -/
def headerFail (s : State) (lane : Nat) (l : Lane) : State :=
  (disarm (laneTrigger (freeLane s lane) l.context l.claim 3) l.context l.claim).count Ctr.HDR_FAIL

/-- A lane accepts its header (R164, R165): PAYLOAD, with the frame and its descriptor at the lane's decoder. -/
def headerPass (s : State) (lane : Nat) (l : Lane) (h : Accepted) (steps : List EqStep) : State :=
  let first := l.syncNs - preambleNs l.mode
  let endNs := first + h.air256 * 1000 / 256
  let job : DecodeJob := { claim := l.claim, fe := l.fe, bin := l.bin, mode := l.mode, seq := h.seq, cr := h.cr, z := h.z, len := h.len
                           fcs2 := h.fcs2, afc := l.afc, rssi := l.rssi, lq := l.lq, overlap := l.overlap
                           syncNs := l.syncNs, endNs := endNs, context := l.context }
  let s := setLane s lane { l with stage := .payload, endNs := endNs, eq := steps.foldl eqStep l.eq }
  let s := { s with ox := { s.ox with jobs := Cells.insert s.ox.jobs lane job } }
  s.onlyIf (decide (l.fe ≠ 2)) fun s => noteHeader s
    { claim := l.claim, fe := l.fe, bin := l.bin, mode := l.mode, firstNs := first, endNs := endNs, syncNs := l.syncNs, rssi := l.rssi }

/-- HEADER_DECODED (R164, R191, R192): the lane accepts the PHY header, or ends in HDR_FAIL. The header has ended at the antenna, and
the frame before it on this lane is out of its decoder (R202). -/
def execHeaderDecoded (dt : Nat) (lane : Nat) (h : PhyHeader) (steps : List EqStep) (s : State) : Result :=
  whenever dt s
    (fun s => let l := laneAt s lane
      decide (l.stage = .header ∧ l.syncNs + syncNsOf l.mode + headerNsOf l.mode ≤ antennaNs s l.fe) &&
        (s.ox.jobs.all fun e => decide (e.1 ≠ lane)))
    fun s =>
      let l := laneAt s lane
      match headerAccept s l.fe l.bin l.mode l.maxAirtime s.free h with
      | none => headerFail s.drawn lane l
      | some a => headerPass s.drawn lane l a steps

/-- LANE_PAYLOAD_END (R157, R735): the last soft bit reaches Ox and the lane returns to FREE. -/
def execLanePayloadEnd (dt : Nat) (lane : Nat) (s : State) : Result :=
  whenever dt s
    (fun s => let l := laneAt s lane
      decide (l.stage = .payload ∧ l.endNs + feNs l.fe ≤ s.time.ns)) fun s => freeLane s lane

/-- A frame leaves its decoder. -/
def dropJob (s : State) (lane : Nat) : State := { s with ox := { s.ox with jobs := Cells.erase s.ox.jobs lane } }

/-- A frame has failed at Ox: its lane leaves PAYLOAD at once (R206), and a Fostaic failure is a trigger (R208, R222). -/
def failFrame (s : State) (lane : Nat) (j : DecodeJob) : State :=
  let s := dropJob s lane
  let s := s.onlyIf (decide ((laneAt s lane).stage = .payload ∧ (laneAt s lane).claim = j.claim)) fun s => freeLane s lane
  if isFostaic j.mode then disarm ((laneTrigger s j.context j.claim 4).count Ctr.DEC_FAIL) j.context j.claim
  else s.count Ctr.FCS_FAIL

/-- A frame passes step 5 of R33 with its PSDU and enters step 6 (R207). -/
def passFrame (s : State) (lane : Nat) (j : DecodeJob) (psdu : List Byte) : State :=
  disarm (enterUp (notePassed (dropJob s lane) j.claim) (some lane) false j psdu) j.context j.claim

/-- The running codeword of a Fostaic frame stops (R203 to R207). -/
def codewordStop (s : State) (lane : Nat) (j : DecodeJob) (soft : List Int) : State :=
  let set := decSetting s j
  let r := decodeCodeword j.z j.cr j.octetsNow set.1 (alphaActs set.2) s.free soft
  if !iterated s j.startNs r.1 then s
  else
    let s := peakIter s.drawn r.1
    match r.2 with
    | none => failFrame s lane j
    | some o =>
      let j' := { j with octets := j.octets ++ o, done := j.done + 1 }
      if j'.done < codewords j.len j.z then { s with ox := { s.ox with jobs := Cells.insert s.ox.jobs lane j' } }
      else if psduCrcOk (whitened j'.octets) then passFrame s lane j' (whitened j'.octets)
      else failFrame s lane j'

/-- CODEWORD_DECODED (R205 to R208): the decoder of a lane stops on the codeword whose soft values it was given; or the last octet of
a frame in an IEEE 802.15.4 mode has come, and its FCS decides. -/
def execCodewordDecoded (dt : Nat) (lane : Nat) (cw : CodewordIn) (s : State) : Result :=
  step' dt s fun s =>
    match (s.ox.jobs.find? fun e => e.1 = lane).map (·.2), cw with
    | some j, .soft l => s.onlyIf (isFostaic j.mode) fun s => codewordStop s lane j l
    | some j, .octets o => s.onlyIf (!isFostaic j.mode && decide (j.endNs + feNs j.fe ≤ s.time.ns)) fun s =>
        if o.length = j.len ∧ fcsOk j.fcs2 o then passFrame s lane j o else failFrame s lane j
    | none, _ => s

/-- LANE_INJECT_START (R158): the Sheepdog's known-frame injection takes the lowest FREE enabled lane, behind every pending
reservation (R153). -/
def execLaneInjectStart (dt : Nat) (s : State) : Result :=
  step' dt s fun s =>
    match (openLanes s false ++ openLanes s true).head? with
    | none => s
    | some n => setLane s n { stage := .inject }

/-- LANE_INJECT_END (R157): the lane returns to FREE, or is EXCLUDED with CAL_FAIL KIND 8. -/
def execLaneInjectEnd (dt : Nat) (lane : Nat) (ok : Bool) (s : State) : Result :=
  whenever dt s (fun s => decide ((laneAt s lane).stage = .inject)) fun s =>
    if ok then freeLane s lane else calFail (excludeLane s lane) 3 8 lane

/-- The base mode in force at a sample: BASE, or WIDE while the profile in force is OUTAGE (R685). -/
def baseMode (s : State) : Nat :=
  if s.get Reg.HEALTH_STATUS.PROFILE = 3 then modeWIDE else s.get Reg.CHAN_HEAR_CTRL.BASE

/-- Leave STORM for a mode (R172, R176). -/
def leaveStorm (s : State) (mode : Nat) : State :=
  let s := s.event Ev.STORM_EXIT Block.CHAN
    (at' mode 2 46 + at' (min ((s.time.ns - s.hear.stormNs) / 1000000) (2 ^ 32 - 1)) 32 0)
  let s := ((s.setFlag Reg.CHAN_STATUS.STORM_AUTO false).set Reg.CHAN_OCC_STATUS.BELOW_MS 0).set
    Reg.CHAN_OCC_STATUS.ABOVE_MS 0
  rehear s fun s => s.set Reg.CHAN_STATUS.MODE mode

/-- Enter STORM (R171, R173, R176). -/
def enterStorm (s : State) (forced : Bool) (pct : Nat) : State :=
  let s := s.event Ev.STORM_ENTER Block.CHAN
    (at' (s.get Reg.CHAN_HEAR_CTRL.BASE) 2 46 + at' (b2n forced) 1 45 + at' (min pct 255) 8 24)
  let s := ((s.setFlag Reg.CHAN_STATUS.STORM_AUTO (!forced)).set Reg.CHAN_OCC_STATUS.BELOW_MS 0).set
    Reg.CHAN_OCC_STATUS.ABOVE_MS 0
  let s := { s with hear := { s.hear with stormNs := s.time.ns } }
  rehear s fun s => s.set Reg.CHAN_STATUS.MODE modeSTORM

/-- Does a 1 ms boundary of TIME_NS fall now that has not been sampled (R170)? The clock moves at most 2 ns a tick. -/
def sampleDue (s : State) : Bool :=
  msBoundary s && decide (s.hear.sampledMs ≠ some s.msNow)

/-- OCC_SAMPLE (R170 to R173, R748): occupancy at a 1 ms boundary decides the mode in force; `powers` are the mean bin powers of the
window that ends. A percentage above 255 shows as 255, the model's choice. -/
def execOccSample (dt : Nat) (powers : List BinPower) (s : State) : Result :=
  whenever dt s (fun s => s.inRun && sampleDue s) fun s =>
    let s := noteFloors { s with hear := { s.hear with sampledMs := some s.msNow } } powers
    let mode := s.get Reg.CHAN_STATUS.MODE
    let occ := occupiedLanes s
    let en := enabledBoth s mode
    let pct := if en = 0 then 0 else 100 * occ / en
    let s := s.set Reg.CHAN_OCC_STATUS.OCC_PCT (min pct 255)
    let s := s.set Reg.CHAN_OCC_STATUS.PEAK_PCT (max (min pct 255) (s.get Reg.CHAN_OCC_STATUS.PEAK_PCT))
    let storm := bit (s.get Reg.CHAN_HEAR_CTRL.PERMIT) 2 && decide (s.get Reg.HEALTH_STATUS.PROFILE ≠ 3)
    let force := storm && s.flag Reg.CHAN_HEAR_CTRL.FORCE_STORM
    if mode = modeSTORM then
      if occ * 2 < enabledBoth s (baseMode s) then
        let s := s.bump Reg.CHAN_OCC_STATUS.BELOW_MS
        s.onlyIf (!force && (decide (2000 ≤ s.get Reg.CHAN_OCC_STATUS.BELOW_MS) || !storm)) fun s =>
          leaveStorm s (baseMode s)
      else
        let s := s.set Reg.CHAN_OCC_STATUS.BELOW_MS 0
        s.onlyIf (!storm) fun s => leaveStorm s (baseMode s)
    else
      let s := if en * 9 < occ * 10 then s.bump Reg.CHAN_OCC_STATUS.ABOVE_MS
        else s.set Reg.CHAN_OCC_STATUS.ABOVE_MS 0
      if force then enterStorm s true pct
      else if storm && s.flag Reg.CHAN_HEAR_CTRL.AUTO_STORM
          && decide (200 ≤ s.get Reg.CHAN_OCC_STATUS.ABOVE_MS) then enterStorm s false pct
      else s.onlyIf (mode ≠ baseMode s) fun s => rehear s fun s => s.set Reg.CHAN_STATUS.MODE (baseMode s)

/-- Write CHAN_HEAR_CTRL (R172, R173): a BASE that is not WIDE or DEEP, or not permitted, is ignored; clearing
FORCE_STORM starts the exit count afresh. -/
def writeHearCtrl (s : State) (v : Nat) : State :=
  let b := bits v 63 62
  let s := s.onlyIf (!s.flag (Reg.LOCK Block.CHAN)) fun s => s.set Reg.CHAN_HEAR_CTRL.PERMIT (bits v 55 53)
  let s := s.onlyIf (decide (b ≤ 1) && bit (s.get Reg.CHAN_HEAR_CTRL.PERMIT) b) fun s =>
    s.set Reg.CHAN_HEAR_CTRL.BASE b
  let s := s.onlyIf (s.flag Reg.CHAN_HEAR_CTRL.FORCE_STORM && !bit v 60) fun s =>
    s.set Reg.CHAN_OCC_STATUS.BELOW_MS 0
  (s.setFlag Reg.CHAN_HEAR_CTRL.AUTO_STORM (bit v 61)).setFlag Reg.CHAN_HEAR_CTRL.FORCE_STORM (bit v 60)

/-- HEAR_CTRL_WRITE (R173): a write of CHAN_HEAR_CTRL. -/
def execHearCtrlWrite (dt : Nat) (value : Word) (s : State) : Result :=
  step' dt s fun s => (writeHearCtrl s value.toNat).answer 0

end Sys2Proof.Machine
end

