-- ==== Sys2Proof/Machine/Icu.lean ====
section
/-!
DEFINITION. The interrupt controller and the application cores' power (R597 to R617, R665, R728).
-/

namespace Sys2Proof.Machine

/-- Initiator numbers (R607). -/
def initNo : Init → Nat
  | .core n => n
  | .sheepdog => 4
  | .pcie => 5
  | .jtag => 6

/-- Put the ICU. -/
def State.setIcu (s : State) (i : IcuState) : State := { s with icu := i }

/-! Signals of the shared sources (R599). -/

/-- Is a GPIO an input (R728)? -/
def gpioIsInput (s : State) (n : Nat) : Bool :=
  !bit (s.get Reg.IO_GPIO_DIR.PIN) n ||
    (List.range 16).any fun k => decide (s.get (Reg.SAFE_SRC.KIND k) = 1 ∧ s.get (Reg.SAFE_SRC.GPIO k) = n)

/-- The ball level of GPIO_n: what the device drives, or what the board does. -/
def gpioLevel (s : State) (n : Nat) : Bool :=
  if gpioIsInput s n then bit s.io.balls n else bit (s.get Reg.IO_GPIO_OUT.PIN) n

/-- The ball that a source follows: a GPIO, or the GPIO of a protective-command source of KIND INPUT (R650, R728). -/
def srcBall (s : State) (n : Nat) : Option Nat :=
  if 64 ≤ n ∧ n ≤ 87 then some (n - 64)
  else if 112 ≤ n ∧ n ≤ 127 ∧ s.get (Reg.SAFE_SRC.KIND (n - 112)) = 1 then some (s.get (Reg.SAFE_SRC.GPIO (n - 112)))
  else none

/-- The signal of a source inside the device (R45, R331, R445, R469, R591, R665, R729). -/
def srcLevel (s : State) (n : Nat) : Bool :=
  if n = 0 then !s.events.isEmpty
  else if n = 1 then !s.tables.learn.isEmpty
  else if n ≤ 5 then !(Cells.get s.q.rx (n - 2) []).isEmpty
  else if 16 ≤ n ∧ n ≤ 31 then s.flag (Reg.TIME_ALARM.FIRED (n - 16))
  else if n = 32 then s.flag Reg.TIME_STATUS.CHG
  else if n = 40 then
    s.flag Reg.NFC_RDR_RESULT.DONE || s.flag Reg.NFC_AC_STATUS.DONE || s.flag Reg.NFC_ORIG_STATUS.DONE || s.flag Reg.NFC_FWM_STATUS.DONE
  else if n = 41 then s.flag Reg.NFC_PRES_STATUS.PRESENT
  else if n = 42 then s.flag Reg.NFC_FWM_STATUS.EMU_WRITE
  else if n = 88 ∨ n = 89 then s.flag (Reg.IO_I2C_STATUS.DONE (n - 88))
  else if n = 90 ∨ n = 91 then s.flag (Reg.IO_SPI_STATUS.DONE (n - 90))
  else if n = 92 then !s.io.uartRx0.isEmpty
  else if n = 93 then !s.io.uartRx1.isEmpty
  else if n = 96 then s.safeNow
  else if n = 97 then s.flag Reg.SAFE_STATUS.PEER_SAFE
  else if n = 98 then
    s.flag Reg.SAFE_MON_STATUS.ECC_REPORT || s.flag Reg.SAFE_MON_STATUS.FIFO_REPORT || s.flag Reg.SAFE_MON_STATUS.CLK_REPORT ||
      s.flag Reg.SAFE_MON_STATUS.APP_WD
  else if n = 99 then s.flag Reg.SAFE_CMD_STATUS.REJECT
  else false

/-! PENDING and CNT (R602). Words 0 to 7 are shared, 8 to 12 private. -/

/-- The pending word, and the count register that holds bit `b` of it. -/
def pendFld (w : Nat) : Fld := if w < 8 then Reg.ICU_SH_PEND.PEND w else Reg.ICU_PV_PEND.PEND (w - 8)
def cntFld (w b : Nat) : Fld := if w < 8 then Reg.ICU_SH_CNT.CNT (4 * w + b / 16) else Reg.ICU_PV_CNT.CNT (4 * (w - 8) + b / 16)

/-- CNT of bit `b` in a count register's word. -/
def cntOf (v b : Nat) : Nat := bits v (4 * (b % 16) + 3) (4 * (b % 16))

/-- CNT of bit `b` counts one event, saturating at 15. -/
def cntUp (s : State) (w b : Nat) : State :=
  let f := cntFld w b
  s.set f (s.get f + (if cntOf (s.get f) b < 15 then 2 ^ (4 * (b % 16)) else 0))

/-- One more event of bit `b`: it sets PENDING, or counts. -/
def pendEvent (s : State) (w b : Nat) : State :=
  if bit (s.get (pendFld w)) b then cntUp s w b else s.setBit (pendFld w) b

/-- Has an event of bit `b` reached its word in this cycle (R610)? -/
def pendNow (s : State) (w b : Nat) : Bool :=
  let f := cntFld w b
  (bit (s.get (pendFld w)) b && !bit (s.before (pendFld w)) b) || decide (cntOf (s.before f) b < cntOf (s.get f) b)

/-- The filter output of a shared source. -/
def srcHigh (s : State) (n : Nat) : Bool := Cells.get s.icu.high n false

/-- Level-mode sources of a word whose filter output is 1 set PENDING. -/
def relevel (s : State) (w : Nat) : State :=
  s.icu.high.foldl (fun s e =>
    s.onlyIf (decide (e.1 / 64 = w) && !s.flag (Reg.ICU_SH_CFG.EDGE e.1)) fun s => s.setBit (pendFld w) (e.1 % 64)) s

/-! Holds (R607, R608). -/

/-- The hold on a word. -/
def holdOn (s : State) (w : Nat) : Option Hold := (s.icu.holds.find? fun e => decide (e.1 = w)).map (·.2)

/-- A hold ends: its deferred events are applied in order. -/
def endHold (s : State) (w : Nat) : State :=
  match holdOn s w with
  | none => s
  | some h =>
    let s := s.setIcu { s.icu with holds := s.icu.holds.filter fun e => decide (e.1 ≠ w) }
    relevel (h.deferred.foldl (fun s b => pendEvent s w b) s) w

/-- A hold whose 640 ns have passed ends. -/
def expireHold (s : State) (w : Nat) : State :=
  match holdOn s w with
  | none => s
  | some h => s.onlyIf (s.elapsedNs h.tick 640) fun s => endHold s w

/-- Put the hold on a word. -/
def putHold (s : State) (w : Nat) (h : Hold) : State :=
  s.setIcu { s.icu with holds := (w, h) :: s.icu.holds.filter fun e => decide (e.1 ≠ w) }

/-- A hardware event of bit `b` (R608, R610): deferred while the word is held. -/
def hwEvent (s : State) (w b : Nat) : State :=
  let s := expireHold s w
  match holdOn s w with
  | none =>
    -- a bit that a write has cleared in this very cycle: the event sets it again and counts (R610)
    let cleared := bit (s.before (pendFld w)) b && !bit (s.get (pendFld w)) b
    pendEvent (s.onlyIf cleared fun s => s.setBit (pendFld w) b) w b
  | some h => putHold s w { h with deferred := h.deferred ++ [b] }

/-! Lines, wake requests and stranding (R603, R615). -/

/-- TGT as routed: 5 and 6 act as 7 (R620). -/
def srcTarget (s : State) (n : Nat) : Nat := s.get (Reg.ICU_SH_CFG.TGT n)

/-- Does a shared source hold the line of a target? -/
def holdsLine (s : State) (t n : Nat) : Bool :=
  bit (s.get (Reg.ICU_SH_PEND.PEND (n / 64))) (n % 64) && bit (s.get (Reg.ICU_SH_EN.EN (n / 64))) (n % 64) && decide (srcTarget s n = t)

/-- The line of a target. -/
def lineOf (s : State) (t : Nat) : Bool :=
  ((List.range 512).any fun n => holdsLine s t n) ||
    decide (s.get (Reg.ICU_PV_PEND.PEND t) &&& s.get (Reg.ICU_PV_EN.EN t) ≠ 0)

/-- The wake request of a core: its line, or an inter-processor interrupt, while it is GATED. -/
def wakeReq (s : State) (c : Nat) : Bool :=
  decide (s.get (Reg.ICU_CORE_PWR.STATE c) = 2) && (lineOf s c || decide (s.get (Reg.ICU_PV_PEND.PEND c) % 128 ≠ 0))

/-- Does a target's line stand high while its core is GATED or RESET? -/
def strands (s : State) (t : Nat) : Bool := lineOf s t && decide (2 ≤ s.get (Reg.ICU_CORE_PWR.STATE t))

/-- Note since when the lines of gated cores have been high. -/
def strandWatch (s : State) : State :=
  let since := fun t => ((s.icu.stranded.find? fun e => decide (e.1 = t)).map (·.2)).getD s.tick
  let l := ((List.range 4).filter (strands s)).map fun t => (t, since t)
  s.setIcu { s.icu with stranded := l }

/-- STRAND_TIMEOUT (R615, R616). -/
def execStrandTimeout (dt : Nat) (target : Fin 4) (s : State) : Result :=
  let t := target.val
  whenever dt s (fun s => strands s t && ((s.icu.stranded.find? fun e => decide (e.1 = t)).map fun e =>
      s.elapsedUs e.2 (max 1 (s.get Reg.ICU_CTRL.STRAND_US))).getD false) fun s =>
    let s := hwEvent s 12 9
    let s := match (List.range 512).find? fun n => holdsLine s t n with
      | none => s
      | some n => s.event Ev.STRANDED Block.ICU
          (at' n 9 39 + at' t 3 36 + at' (b2n (decide (s.get (Reg.ICU_CORE_PWR.STATE t) = 3))) 1 35)
    s.setIcu { s.icu with stranded := s.icu.stranded.map fun e => if e.1 = t then (t, s.tick) else e }

/-! Source events. -/

/-- Put a ball level that the board drives. -/
def setBall (s : State) (n : Nat) (level : Bool) : State :=
  let b := s.io.balls
  { s with io := { s.io with balls := b - b2n (bit b n) * 2 ^ n + b2n level * 2 ^ n } }

/-- Can the filter output of a source rise now? A ball rises when the board drives it. -/
def canRise (s : State) (n : Nat) : Bool :=
  match srcBall s n with
  | some b => gpioIsInput s b || bit (s.get Reg.IO_GPIO_OUT.PIN) b
  | none => srcLevel s n || s.icu.raised.contains n

/-- ICU_SOURCE_EVENT (R601, R602): the filter output of a listed source rises. With an event of an INPUT source a protective
command is in flight (R651). -/
def execIcuSourceEvent (dt : Nat) (n : Fin 512) (s : State) : Result :=
  let n := n.val
  whenever dt s (fun s => powered s && srcListed n && !srcHigh s n && canRise s n) fun s =>
    let pulse := s.icu.raised.contains n && (srcBall s n).isNone
    let s := match srcBall s n with
      | some b => if gpioIsInput s b then setBall s b true else s
      | none => s
    let s := if pulse then s.setIcu { s.icu with raised := s.icu.raised.erase n }
      else s.setIcu { s.icu with high := Cells.set s.icu.high n true false }
    let k := n - 112
    let input := decide (112 ≤ n) && decide (s.get (Reg.SAFE_SRC.KIND k) = 1) && s.inRun && !s.safeNow && !s.safe.inputs.contains k
    let s := s.onlyIf input fun s => { s with safe := { s.safe with inputs := s.safe.inputs ++ [k] } }
    strandWatch (hwEvent s (n / 64) (n % 64))

/-- FILTER_OUTPUT_FALL (R601, R602): a level source no longer sets PENDING. -/
def execFilterOutputFall (dt : Nat) (n : Fin 512) (s : State) : Result :=
  let n := n.val
  whenever dt s (fun s => srcHigh s n && (match srcBall s n with
      | some b => gpioIsInput s b || !bit (s.get Reg.IO_GPIO_OUT.PIN) b
      | none => !srcLevel s n)) fun s =>
    let s := match srcBall s n with
      | some b => if gpioIsInput s b then setBall s b false else s
      | none => s
    s.setIcu { s.icu with high := Cells.set s.icu.high n false false }

/-! Reads and writes of pending words (R606 to R610). -/

/-- The key of an initiator's mark on a word. -/
def markKey (w : Nat) (init : Init) : Nat := 8 * w + (initNo init)

/-- A read of a pending word: its value, and the hold it opens or restarts. -/
def pendRead (s : State) (init : Init) (w : Nat) : State :=
  let s := expireHold s w
  let s := match holdOn s w with
    | none =>
      let s := s.setIcu { s.icu with opened := s.icu.opened + 1 }
      putHold s w { number := s.icu.opened, holder := (initNo init), tick := s.tick }
    | some h => if h.holder = (initNo init) then putHold s w { h with tick := s.tick } else s
  let mark := ((holdOn s w).map (·.number)).getD 0
  let s := s.setIcu { s.icu with marks := Cells.set s.icu.marks (markKey w init) mark 0 }
  s.answer (s.get (pendFld w))

/-- May an initiator write registers of T4's private bank (R606)? -/
def t4Writable (s : State) (init : Init) : Bool :=
  decide (init = .sheepdog) || (decide (init = .jtag) && s.flag Reg.KEYS_STATUS.DEBUG)

/-- Bits of a shared word whose source is LOCKED (R605). -/
def lockedBits (s : State) (w : Nat) : Nat :=
  (List.range 64).foldl (fun a b => a + b2n (s.flag (Reg.ICU_SH_CFG.LOCKED (64 * w + b))) * 2 ^ b) 0

/-- The bits of a word that is not held which an event has reached in this cycle: they stay set (R610). -/
def pendKept (s : State) (w : Nat) : Nat :=
  if (holdOn s w).isSome then 0 else (List.range 64).foldl (fun a b => a + b2n (pendNow s w b) * 2 ^ b) 0

/-- The value that a write leaves in a pending word: PENDING of locked sources is the Sheepdog's. -/
def pendValue (s : State) (init : Init) (w v : Nat) : Nat :=
  if 8 ≤ w ∨ init = .sheepdog then v
  else
    let m := lockedBits s w
    (v &&& (2 ^ 64 - 1 - m)) ||| (s.get (pendFld w) &&& m)

/-- A LATE write (R609). -/
def lateWrite (s : State) (init : Init) (w : Nat) : State :=
  let s := ((s.setFlag Reg.ICU_STATUS.LATE true).set Reg.ICU_STATUS.LATE_WORD w).set Reg.ICU_STATUS.LATE_INIT (initNo init)
  s.onlyIf (decide ((initNo init) ≤ 4)) fun s => hwEvent s (8 + (initNo init)) 8

/-- A write of a pending word. -/
def pendWrite (s : State) (init : Init) (w v : Nat) : State :=
  if w = 12 && !t4Writable s init then s
  else
    let s := expireHold s w
    let mark := Cells.get s.icu.marks (markKey w init) 0
    let late := decide (mark = 0) || decide ((holdOn s w).map (·.number) ≠ some mark)
    let mine := ((holdOn s w).map fun h => decide (h.holder = (initNo init))).getD false
    let s := s.set (pendFld w) (pendValue s init w v ||| pendKept s w)
    let s := s.setIcu { s.icu with marks := Cells.set s.icu.marks (markKey w init) 0 0 }
    let s := if mine then endHold s w else s.onlyIf (holdOn s w).isNone fun s => relevel s w
    strandWatch (s.onlyIf late fun s => lateWrite s init w)

/-- PEND_READ and PEND_WRITE. -/
def execPendRead (dt : Nat) (init : Init) (word : Fin 13) (s : State) : Result := step' dt s fun s => pendRead s init word
def execPendWrite (dt : Nat) (init : Init) (word : Fin 13) (value : Word) (s : State) : Result :=
  step' dt s fun s => (pendWrite s init word value.toNat).answer 0

/-- HOLD_EXPIRE (R608). -/
def execHoldExpire (dt : Nat) (word : Fin 13) (s : State) : Result :=
  step' dt s fun s => strandWatch (expireHold s word)

/-! Configuration writes (R605, R606, R614, R617). -/

/-- A write of ICU_SH_CFG_n. -/
def writeShCfg (s : State) (n v : Nat) : State :=
  if !srcListed n || s.flag (Reg.ICU_SH_CFG.LOCKED n) then s
  else
    let s := (s.setFlag (Reg.ICU_SH_CFG.EDGE n) (bit v 11)).set (Reg.ICU_SH_CFG.TGT n) (bits v 10 8)
    let s := s.set (Reg.ICU_SH_CFG.FILT_CNT n) (bits v 7 0)
    strandWatch (s.onlyIf (holdOn s (n / 64)).isNone fun s => relevel s (n / 64))

/-- SH_CFG_WRITE. -/
def execShCfgWrite (dt : Nat) (n : Fin 512) (value : Word) (s : State) : Result :=
  step' dt s fun s => (writeShCfg s n value.toNat).answer 0

/-- A write of ICU_SH_EN_k: locked bits stay. -/
def writeShEn (s : State) (k v : Nat) : State := strandWatch (s.set (Reg.ICU_SH_EN.EN k) (v ||| lockedBits s k))

/-- A write of ICU_PV_EN_t. -/
def writePvEn (s : State) (init : Init) (t v : Nat) : State :=
  if t = 4 && !t4Writable s init then s else strandWatch (s.set (Reg.ICU_PV_EN.EN t) v)

/-- A write of ICU_IPI (R617). -/
def writeIpi (s : State) (init : Init) (v : Nat) : State :=
  strandWatch ((List.range 5).foldl (fun s t => s.onlyIf (bit v t) fun s => hwEvent s (8 + t) (initNo init)) s)

/-- IPI. -/
def execIpi (dt : Nat) (init : Init) (value : Word) (s : State) : Result :=
  step' dt s fun s => (writeIpi s init value.toNat).answer 0

/-! Core power (R597). -/

/-- CORE_WFI: the core stops its clock, or gates with GATE_EN set. -/
def execCoreWfi (dt : Nat) (core : Fin 4) (s : State) : Result :=
  let c := core.val
  whenever dt s (fun s => powered s && decide (s.get (Reg.ICU_CORE_PWR.STATE c) = 0)) fun s =>
    let gate := decide (c ≠ 0) && s.flag (Reg.ICU_CORE_PWR.GATE_EN c)
    strandWatch (s.set (Reg.ICU_CORE_PWR.STATE c) (if gate then 2 else 1))

/-- CORE_WAKE: a core in WFI goes on, and a gated one restarts at its entry point. -/
def execCoreWake (dt : Nat) (core : Fin 4) (s : State) : Result :=
  let c := core.val
  whenever dt s (fun s => wakeReq s c || (decide (s.get (Reg.ICU_CORE_PWR.STATE c) = 1) && lineOf s c)) fun s =>
    let gated := decide (s.get (Reg.ICU_CORE_PWR.STATE c) = 2)
    let s := s.set (Reg.ICU_CORE_PWR.STATE c) 0
    let s := s.onlyIf gated fun s =>
      let s := s.setFlag (Reg.ICU_CORE_PWR.RESUMED c) true
      match coreEntry s c with
      | none => s
      | some e => s.emit (.coreStart c e)
    strandWatch s

/-- ICU_STATUS as read (R620). -/
def icuStatus (s : State) : Nat :=
  let each := fun (n : Nat) (p : Nat → Bool) => (List.range n).foldl (fun a i => a + b2n (p i) * 2 ^ i) 0
  at' (s.get Reg.ICU_STATUS.LATE) 1 63 + at' (s.get Reg.ICU_STATUS.LATE_WORD) 4 59 + at' (s.get Reg.ICU_STATUS.LATE_INIT) 3 56 +
    at' (each 5 (lineOf s)) 5 51 + at' (each 4 (wakeReq s)) 4 47 +
    at' (each 8 fun k => (holdOn s k).isSome) 8 39 + at' (each 5 fun t => (holdOn s (8 + t)).isSome) 5 34

end Sys2Proof.Machine
end

