-- ==== Sys2Proof/Machine/Health.lean ====
section
/-!
DEFINITION. Profiles, thermal limits, ageing, outage operation and the Lamb (R670 to R691).
-/

namespace Sys2Proof.Machine

/-- Put the HEALTH block. -/
def State.setHealth (s : State) (h : HealthState) : State := { s with health := h }

/-! Temperature (R673 to R676). -/

/-- A threshold in 0.125 °C: T1, T2 or T3. -/
def thermalT (n : Nat) : Int := if n = 1 then 800 else if n = 2 then 840 else 864

/-- One more sample of a run at or above a threshold. -/
def hotRun (tj : Int) (n count : Nat) : Nat := if thermalT n ≤ tj then min 10 (count + 1) else 0

/-- Since when T_j has stood below a threshold less 5 °C. -/
def coolRun (s : State) (tj : Int) (n : Nat) (since : Option Nat) : Option Nat :=
  if tj < thermalT n - 40 then some (since.getD s.tick) else none

/-- TEMP_SAMPLE (R653, R673): T_j in 0.125 °C. -/
def execTempSample (dt : Nat) (tj : Int) (s : State) : Result :=
  whenever dt s (fun s => powered s && sampleTurn s s.safe.tempTick) fun s =>
    let t := satSigned 12 tj
    let s := s.set Reg.HEALTH_STATUS.TEMP (ofSigned 12 t)
    let peak := toSigned 12 (s.get Reg.HEALTH_STATUS.PEAK_TEMP)
    let s := s.set Reg.HEALTH_STATUS.PEAK_TEMP (ofSigned 12 (max t peak))
    let h := s.health
    let hot1 := hotRun tj 1 h.hot1
    let hot2 := hotRun tj 2 h.hot2
    let hot3 := hotRun tj 3 h.hot3
    let cool1 := coolRun s tj 1 h.cool1
    let cool2 := coolRun s tj 2 h.cool2
    let cool3 := coolRun s tj 3 h.cool3
    let s := s.setHealth { h with hot1 := hot1, hot2 := hot2, hot3 := hot3, cool1 := cool1, cool2 := cool2, cool3 := cool3 }
    let high := decide (920 ≤ tj)
    let run := s.safe.hots
    let s := { s with safe := { s.safe with hots := if high then run + 1 else 0, tempTick := some s.tick } }
    s.onlyIf (high && decide (run = 1) && monitored s) fun s => enterSafe s 0x06 0 0

/-- Which threshold a step follows. -/
def stepThreshold (n : Nat) : Nat := if n ≤ 2 then 1 else if n ≤ 4 then 2 else 3

/-- How many steps are in force: they apply in ascending order. -/
def stepsOn (s : State) : Nat := popCount 5 (s.get Reg.HEALTH_STATUS.STEPS)

/-- T_j has stood at or above a step's threshold on 10 consecutive samples. -/
def stepHot (s : State) (n : Nat) : Bool :=
  let k := stepThreshold n
  decide (10 ≤ if k = 1 then s.health.hot1 else if k = 2 then s.health.hot2 else s.health.hot3)

/-- T_j has stood below a step's threshold less 5 °C for 10 s, and no release took place in them. -/
def stepCool (s : State) (n : Nat) : Bool :=
  let k := stepThreshold n
  let since := if k = 1 then s.health.cool1 else if k = 2 then s.health.cool2 else s.health.cool3
  ((since.map fun t => s.elapsedSec t 10).getD false) && ((s.health.released.map fun t => s.elapsedSec t 10).getD true)

/-- STEPS changes, and THROTTLE is raised (R675, R689). -/
def throttle (s : State) (n steps : Nat) (applied : Bool) : State :=
  let s := rehear s fun s => s.set Reg.HEALTH_STATUS.STEPS (2 ^ steps - 1)
  s.event Ev.THROTTLE Block.HEALTH
    (at' n 3 45 + at' (b2n applied) 1 44 + at' (2 ^ steps - 1) 5 39 + at' (s.get Reg.HEALTH_STATUS.TEMP) 12 27)

/-- THROTTLE_BOUNDARY (R674): at most one step at each 1 ms boundary of TIME_NS; an application goes before a release. -/
def execThrottleBoundary (dt : Nat) (s : State) : Result :=
  whenever dt s (fun s => powered s && s.time.running && msBoundary s &&
      decide (s.health.boundary ≠ some s.msNow)) fun s =>
    let k := stepsOn s
    let s := s.setHealth { s.health with boundary := some s.msNow }
    if k < 5 ∧ stepHot s (k + 1) then throttle s (k + 1) (k + 1) true
    else if 0 < k ∧ stepCool s k then
      throttle (s.setHealth { s.health with released := some s.tick }) k (k - 1) false
    else s

/-- A front end stops: what it emits is ramped down, nothing more leaves it, and the frames it receives are abandoned. -/
def stopFe (s : State) (fe : Nat) : State :=
  let s := s.onlyIf (emitting s fe).isSome fun s => (chainOff s fe).emit (.rampDown fe)
  let s := (abandonFrames (blankCtxs s fe) fe).1
  feOut (s.setFe fe { s.fe fe with emissions := [] }) fe

/-- Every front end and the reader field stop. -/
def radiosOff (s : State) : State := fieldOff (stopFe (stopFe (stopFe s 0) 1) 2)

/-- THERMAL_OFF (R659, R676): the reaction window of a thermal safe state has ended. -/
def execThermalOff (dt : Nat) (s : State) : Result :=
  whenever dt s (fun s => s.inRun && s.safeNow && decide (s.get Reg.SAFE_STATUS.MECH = 0x06) &&
      !s.flag Reg.HEALTH_STATUS.THERMAL_OFF &&
      s.elapsedUs s.safe.safeTick (1000 + s.get Reg.SAFE_WD_CFG.FW_REACT_US)) fun s =>
    let s := radiosOff (s.setFlag Reg.HEALTH_STATUS.THERMAL_OFF true)
    let s := (s.setFlag Reg.ETH_STATUS.ETH0_UP false).setFlag Reg.ETH_STATUS.ETH1_UP false
    let s := ringDown (ringDown (s.setFlag Reg.ETH_STATUS.MGMT_UP false) 0 1) 1 1
    strandWatch ((List.range 4).foldl (fun s c => s.set (Reg.ICU_CORE_PWR.STATE c) 3) s)

/-! Ageing (R678 to R681). -/

/-- A day of run time. -/
def dayTicks : Nat := 86400 * ticksPerSecond

/-- The end-of-life limit of MON 12 to 18, in the unit of its value. -/
def eolLimit (mon : Nat) : Int :=
  if mon < 12 then 8000 else if mon < 15 then 300 else if mon < 17 then 0 else if mon = 17 then 100000 else 1000000

/-- A sum over samples. -/
def sumOf {α : Type} (l : List α) (f : α → Rat) : Rat := (l.map f).foldl (· + ·) 0

/-- A fit of R678 at run time `now`: the days until the limit, none with no approach to it, and the coefficient of determination. -/
structure Fit where
  days : Option Rat
  r2 : Rat

/-- Least squares through the samples of run time and value, taken to the limit (R678). -/
def linearFit (l : List (Nat × Int)) (limit : Int) (now : Nat) : Fit :=
  let n : Rat := l.length
  let sx := sumOf l fun p => p.1
  let sy := sumOf l fun p => p.2
  let cov := n * sumOf l (fun p => p.1 * p.2) - sx * sy
  let varX := n * sumOf l (fun p => p.1 * p.1) - sx * sx
  let varY := n * sumOf l (fun p => p.2 * p.2) - sy * sy
  if varX ≤ 0 then { days := none, r2 := 0 }
  else
    let slope := cov / varX
    let ends := ((limit : Rat) - (sy - slope * sx) / n) / slope
    { days := if slope ≤ 0 then none else some ((ends - now) / dayTicks), r2 := if varY ≤ 0 then Config.flatR2 l else cov * cov / (varX * varY) }

/-- The generations left last as many mean intervals of the burns, from the last burn on (R678). -/
def burnFit (l : List Nat) (left now : Nat) : Fit :=
  let days := match l.head?, l.getLast? with
    | some a, some b =>
      if l.length < 2 then none else some (((b : Rat) + left * (((b : Rat) - a) / (l.length - 1 : Nat)) - now) / dayTicks)
    | _, _ => none
  { days := days, r2 := Config.burnR2 l }

/-- The last `k` of a list. -/
def lastOf {α : Type} (k : Nat) (l : List α) : List α := l.drop (l.length - k)

/-- The burns of MON 15 or 16. -/
def burnsOf (s : State) (mon : Nat) : List Nat := (s.health.burns.filter fun b => decide (b.1 = mon)).map (·.2)

/-- The fit of a monitor over its samples `l`, the newest of which is of now. -/
def fitOf (s : State) (mon : Nat) (l : List (Nat × Int)) : Fit :=
  let now := runTime s
  if mon < 12 then let f := Config.logFit mon l now; { days := f.1, r2 := f.2 }
  else if mon < 15 then linearFit (lastOf 90 l) (eolLimit mon) now
  else if mon < 17 then burnFit (burnsOf s mon) ((l.getLast?.map fun p => p.2.toNat).getD 0) now
  else if mon = 17 then linearFit (lastOf 30 l) (eolLimit mon) now
  else let f := Config.logFit mon (lastOf 30 l) now; { days := f.1, r2 := f.2 }

/-- EOL_DAYS of R679. -/
def eolDays (f : Fit) : Nat :=
  match f.days with
  | none => 65535
  | some d => if d ≤ 0 then 0 else min 65534 ((if Config.eolRoundsUp d then d.ceil else d.floor).toNat)

/-- CONF of R679, from N and the fit. -/
def ageConf (mon n : Nat) (r2 : Rat) : Nat :=
  let burns := decide (mon = 15 ∨ mon = 16)
  if n < 2 then 0
  else if (if burns then 5 else 180) ≤ n ∧ 9 / 10 ≤ r2 then 3
  else if (if burns then 3 else 30) ≤ n ∧ 1 / 2 ≤ r2 then 2
  else 1

/-- The value of a monitor (R678): MON 0 to 14 are measured, the others stand in the OTP, the flash and LP4X. -/
def monValue (s : State) (measured : List Int) (mon : Nat) : Int :=
  if mon < 15 then measured.getD mon 0
  else if mon = 15 then gensLeft s ownerGens
  else if mon = 16 then gensLeft s settingsGens
  else if mon = 17 then (s.mem.erases.map (·.2)).foldl max 0
  else s.health.corrected

/-- EOL_WARN (R681), once at each fall below WARN_DAYS. -/
def eolWarn (s : State) (mon conf days : Nat) : State :=
  let warnAt := s.get Reg.HEALTH_CFG.WARN_DAYS
  let was := bit s.health.warned mon
  if days < warnAt ∧ 2 ≤ conf ∧ !was then
    let s := s.setHealth { s.health with warned := s.health.warned + 2 ^ mon }
    s.event Ev.EOL_WARN Block.HEALTH (at' mon 5 43 + at' conf 2 41 + at' days 16 25)
  else s.onlyIf (was && decide (warnAt + 30 < days)) fun s => s.setHealth { s.health with warned := s.health.warned - 2 ^ mon }

/-- One monitor's evaluation: its sample, its fit, HEALTH_MON and EOL_WARN. -/
def ageMonitor (measured : List Int) (s : State) (mon : Nat) : State :=
  let v := monValue s measured mon
  let l := Cells.get s.health.samples mon [] ++ [(runTime s, v)]
  let s := s.setHealth { s.health with samples := Cells.set s.health.samples mon l [] }
  let n := if mon = 15 ∨ mon = 16 then (burnsOf s mon).length else l.length
  let f := fitOf s mon l
  let days := eolDays f
  let conf := ageConf mon n f.r2
  let s := (s.set (Reg.HEALTH_MON.SAMPLES mon) (min n 16383)).set (Reg.HEALTH_MON.EOL_DAYS mon) days
  let s := (s.set (Reg.HEALTH_MON.CONF mon) conf).set (Reg.HEALTH_MON.VALUE mon) (ofSigned 32 (satSigned 32 v))
  eolWarn s mon conf days

/-- The HEALTH_MON word of a monitor. -/
def monWord (s : State) (m : Nat) : Nat :=
  at' (s.get (Reg.HEALTH_MON.EOL_DAYS m)) 16 48 + at' (s.get (Reg.HEALTH_MON.CONF m)) 2 46 +
    at' (s.get (Reg.HEALTH_MON.SAMPLES m)) 14 32 + at' (s.get (Reg.HEALTH_MON.VALUE m)) 32 0

/-- The log is written (R680), in one block and the other in turn; no rule fixes its octets. -/
def writeLog (s : State) : State :=
  let l := (List.range 19).map fun m => (m, monWord s m)
  let second := !s.health.logSecond
  let block := s.health.logOfs + if second then 65536 else 0
  let s := flashTorn (s.flashErase block 65536) block 65536
  let h := s.health
  let r : HealthLog := { ofs := h.logOfs, run := runTime s, words := l, samples := h.samples, burns := h.burns }
  s.setHealth { h with log := some r, logSecond := second }

/-- AGEING_EVAL (R678): each day of run time in RUN; the measured values of MON 0 to 14. -/
def execAgeingEval (dt : Nat) (measured : List Int) (s : State) : Result :=
  whenever dt s (fun s => s.inRun && decide (s.health.evalAt + dayTicks ≤ runTime s)) fun s =>
    let s := (List.range 19).foldl (ageMonitor measured) s
    writeLog (s.setHealth { s.health with evalAt := runTime s, corrected := 0 })

/-- Entry to RUN restores the newest valid record of the two blocks (R680). -/
def restoreLog (s : State) : State :=
  match s.health.log.filter fun r => decide (r.ofs = s.health.logOfs) with
  | none => s.setHealth { s.health with runBase := 0, runTick := s.tick, evalAt := 0 }
  | some r =>
    let s := r.words.foldl (fun s e =>
      let s := (s.set (Reg.HEALTH_MON.EOL_DAYS e.1) (bits e.2 63 48)).set (Reg.HEALTH_MON.CONF e.1) (bits e.2 47 46)
      (s.set (Reg.HEALTH_MON.SAMPLES e.1) (bits e.2 45 32)).set (Reg.HEALTH_MON.VALUE e.1) (bits e.2 31 0)) s
    s.setHealth { s.health with runBase := r.run, runTick := s.tick, evalAt := r.run, samples := r.samples }

/-! Backup and OUTAGE (R684, R685). -/

/-- PG_MAINS_CHANGE (R684): the device is on backup while PG_MAINS is low. -/
def execPgMainsChange (dt : Nat) (level : Bool) (s : State) : Result :=
  whenever dt s (fun s => decide (s.health.mains ≠ level)) fun s =>
    let s := s.setHealth { s.health with mains := level, mainsTick := s.tick }
    s.onlyIf (powered s) fun s => s.setFlag Reg.HEALTH_STATUS.ON_BACKUP (!level)

/-- The profile in force becomes OUTAGE, and the mode WIDE. -/
def enterOutage (s : State) : State :=
  if s.get Reg.CHAN_STATUS.MODE = modeSTORM then leaveStorm (s.set Reg.HEALTH_STATUS.PROFILE 3) modeWIDE
  else rehear s fun s => (s.set Reg.HEALTH_STATUS.PROFILE 3).set Reg.CHAN_STATUS.MODE modeWIDE

/-- OUTAGE_ENTER and OUTAGE_EXIT (R685), at a 1 ms boundary. -/
def execOutageEnter (dt : Nat) (s : State) : Result :=
  whenever dt s (fun s => s.inRun && s.flag Reg.HEALTH_CFG.OUTAGE_EN && !s.health.mains &&
      decide (s.get Reg.HEALTH_STATUS.PROFILE ≠ 3) && s.elapsedMs s.health.mainsTick (s.get Reg.HEALTH_CFG.OUT_DEBOUNCE_MS) && msBoundary s) enterOutage
def execOutageExit (dt : Nat) (s : State) : Result :=
  whenever dt s (fun s => s.inRun && s.health.mains && decide (s.get Reg.HEALTH_STATUS.PROFILE = 3) &&
      s.elapsedSec s.health.mainsTick 1 && msBoundary s) fun s =>
    rehear s fun s => (s.set Reg.HEALTH_STATUS.PROFILE s.health.profile).set Reg.CHAN_STATUS.MODE (s.get Reg.CHAN_HEAR_CTRL.BASE)

/-- VBAT_SAMPLE (R684), every 100 ms. -/
def execVbatSample (dt mv : Nat) (s : State) : Result :=
  whenever dt s (fun s => !s.start.off && ((s.health.vbatTick.map fun t => s.elapsedMs t 100).getD true)) fun s =>
    (s.set Reg.HEALTH_STATUS.VBAT (min mv 8191)).setHealth { s.health with vbatTick := some s.tick }

/-! OUTAGE sleep (R686, R687). -/

/-- Why a sleep request is refused; 0 when it is not. -/
def sleepRefusal (s : State) : Nat :=
  let busy := s.keys.op.isSome || !s.fwm.isEmpty || s.upd.prog.isSome || s.upd.cmd.isSome
  if !s.flag Reg.HEALTH_STATUS.ON_BACKUP then 1
  else if busy then 2
  else if inFlight s ≠ 0 then 3
  else if s.flag Reg.LAMB_CTRL.EN && !s.flag Reg.LAMB_CTRL.CAL_OK then 4
  else 0

/-- NFC_PRES_CTRL as copied to the always-on domain. -/
def presWord (s : State) : Nat :=
  at' (s.get Reg.NFC_PRES_CTRL.EN) 1 63 + at' (s.get Reg.NFC_PRES_CTRL.PING_MS) 10 32 + at' (s.get Reg.NFC_PRES_CTRL.AMP_THR) 8 8 +
    at' (s.get Reg.NFC_PRES_CTRL.PHASE_THR) 8 0

/-- Sleep begins: what is recorded, what stops, and what the always-on domain keeps. -/
def enterSleep (s : State) : State :=
  let s := ([1, 2, 3] : List Nat).foldl (fun s k => hwmAppend s k (nvValue s k)) s
  let s := radiosOff (writeLog s)
  let vbat := s.get Reg.HEALTH_STATUS.VBAT
  let wakeMin := s.get Reg.HEALTH_CFG.VBAT_WAKE_MIN
  let word := presWord s
  let nfc := s.nfc
  let s := mainReset (s.emit (.pin .mainPwrEn false)) true
  let s := (s.set Reg.HEALTH_STATUS.VBAT vbat).set Reg.HEALTH_CFG.VBAT_WAKE_MIN wakeMin
  let s := s.setNfc { s.nfc with baseAmp := nfc.baseAmp, basePhase := nfc.basePhase, pingTick := nfc.pingTick }
  s.setHealth { s.health with sleep := true, presence := word }

/-- A write of HEALTH_SLEEP (R686). -/
def writeSleep (s : State) (v : Nat) : State :=
  let s := s.onlyIf (bit v 62) fun s => s.setFlag Reg.HEALTH_SLEEP.REFUSED false
  if !bit v 63 then s
  else
    let c := sleepRefusal s
    if c ≠ 0 then (s.setFlag Reg.HEALTH_SLEEP.REFUSED true).set Reg.HEALTH_SLEEP.CAUSE c else enterSleep s

/-- SLEEP_REQUEST. -/
def execSleepRequest (dt : Nat) (value : Word) (s : State) : Result :=
  whenever dt s powered fun s => (writeSleep s (value.toNat ||| 2 ^ 63)).answer 0

/-- May a cause wake the device: 0 LAMB, 1 RTC, 2 CARD, 3 MAINS, 4 TAMPER? While VBAT is low the first three are ignored. -/
def wake (s : State) (cause pat : Nat) : State :=
  if cause ≤ 2 ∧ s.get Reg.HEALTH_STATUS.VBAT < s.get Reg.HEALTH_CFG.VBAT_WAKE_MIN then
    let s := s.bump Reg.LAMB_WAKE.IGNORED
    if cause = 2 then { s with aon := { s.aon with card := none } } else s
  else
    let s := (s.set Reg.LAMB_WAKE.CAUSE (2 ^ cause)).set Reg.LAMB_WAKE.PAT pat
    let s := (s.bump Reg.LAMB_WAKE.WAKES).emit (.pin .mainPwrEn true)
    s.setHealth { s.health with waking := true }

/-- Is the device in OUTAGE sleep with no wake on its way? -/
def asleep (s : State) : Bool := s.health.sleep && !s.health.waking

/-- Does a pattern match within ERR_TOL (R688)? -/
def lambHit (s : State) (rx : List Bool) (n : Nat) : Bool :=
  let addr := s.get (Reg.LAMB_PAT.ADDR n)
  let differ := ((wakeBits addr).zip rx).filter fun p => p.1 != p.2
  s.flag (Reg.LAMB_PAT.EN n) && wakeAddrOk addr && decide (rx.length = 40 ∧ differ.length ≤ min 4 (s.get Reg.LAMB_CTRL.ERR_TOL))

/-- LAMB_MATCH (R688): the last 40 bits received. -/
def execLambMatch (dt : Nat) (rx : List Bool) (s : State) : Result :=
  whenever dt s (fun s => asleep s && s.flag Reg.LAMB_CTRL.EN) fun s =>
    match firstBelow 4 (lambHit s rx) with
    | none => s
    | some n => wake s 0 n

/-- GOOSE_RTC has reached GOOSE_WAKE_AT. -/
def rtcDue (s : State) : Bool := s.flag Reg.GOOSE_WAKE_AT.EN && decide (s.get Reg.GOOSE_WAKE_AT.TICK ≤ rtcNow s)

/-- RTC_WAKE (R687). -/
def execRtcWake (dt : Nat) (s : State) : Result := whenever dt s (fun s => asleep s && rtcDue s) fun s => wake s 1 0

/-- A source with a response other than LOG latched in OUTAGE sleep (R548). -/
def sleepTamper (s : State) : Bool :=
  s.aon.latches.any fun l => decide (l.phase = 0xE) && decide (gooseResponse s l.src ≠ 0)

/-- OUTAGE_WAKE (R687): a wake cause drives MAIN_PWR_EN high. -/
def execOutageWake (dt : Nat) (cause : WakeCause) (s : State) : Result :=
  whenever dt s asleep fun s =>
    match cause with
    | .lamb pat => s.onlyIf (s.flag Reg.LAMB_CTRL.EN && s.flag (Reg.LAMB_PAT.EN pat)) fun s => wake s 0 pat
    | .rtc => s.onlyIf (rtcDue s) fun s => wake s 1 0
    | .card => s.onlyIf s.aon.card.isSome fun s => wake s 2 0
    | .mains => s.onlyIf s.health.mains fun s => wake s 3 0
    | .tamper => s.onlyIf (sleepTamper s) fun s => wake s 4 0

end Sys2Proof.Machine
end

