-- ==== Sys2Proof/Machine/Io.lean ====
section
/-!
DEFINITION. The serial controllers (R727, R729).
-/

namespace Sys2Proof.Machine

/-- Put the IO block. -/
def State.setIo (s : State) (i : IoState) : State := { s with io := i }

/-! UARTs. -/

/-- Transmit and receive FIFOs, and the tick at which the octet being sent began. -/
def uartTx (s : State) (n : Nat) : List Byte := if n = 0 then s.io.uartTx0 else s.io.uartTx1
def uartRx (s : State) (n : Nat) : List Nat := if n = 0 then s.io.uartRx0 else s.io.uartRx1
def uartAt (s : State) (n : Nat) : Nat := if n = 0 then s.io.uartAt0 else s.io.uartAt1
def setUartTx (s : State) (n : Nat) (l : List Byte) (t : Nat) : State :=
  if n = 0 then s.setIo { s.io with uartTx0 := l, uartAt0 := t } else s.setIo { s.io with uartTx1 := l, uartAt1 := t }
def setUartRx (s : State) (n : Nat) (l : List Nat) : State :=
  if n = 0 then s.setIo { s.io with uartRx0 := l } else s.setIo { s.io with uartRx1 := l }

/-- Ticks of one octet on the line: start, data, parity and stop bits at 1,000 MHz ÷ DIV. -/
def octetTicks (s : State) (n : Nat) : Nat :=
  let parity := s.get (Reg.IO_UART_CFG.PARITY n)
  let len := 10 + b2n (s.flag (Reg.IO_UART_CFG.STOP2 n)) + b2n (decide (parity = 1 ∨ parity = 2))
  ceilDiv (len * max 334 (s.get (Reg.IO_UART_CFG.DIV n)) * 384) 625

/-- Octets whose time on the line has passed have left the FIFO. -/
def uartDrain (s : State) (n : Nat) : State :=
  if !s.flag (Reg.IO_UART_CFG.EN n) then s
  else
    let l := uartTx s n
    let k := min l.length ((s.tick - uartAt s n) / octetTicks s n)
    let s := (l.take k).foldl (fun s b => s.emit (.uart n b)) s
    setUartTx s n (l.drop k) (uartAt s n + k * octetTicks s n)

/-- A push of IO_UART_TX: a full FIFO discards the octet. -/
def uartPush (s : State) (n v : Nat) : State :=
  let s := uartDrain s n
  let l := uartTx s n
  if 64 ≤ l.length then s.setFlag (Reg.IO_UART_CFG.TX_OVF n) true
  else setUartTx s n (l ++ [BitVec.ofNat 8 v]) (if l.isEmpty then s.tick else uartAt s n)

/-- A write of IO_UART_CFG. -/
def writeUartCfg (s : State) (n v : Nat) : State :=
  let s := uartDrain s n
  let rise := bit v 63 && !s.flag (Reg.IO_UART_CFG.EN n)
  let s := s.onlyIf rise fun s => setUartTx s n (uartTx s n) s.tick
  let s := (s.setFlag (Reg.IO_UART_CFG.EN n) (bit v 63)).setFlag (Reg.IO_UART_CFG.STOP2 n) (bit v 62)
  let s := (s.set (Reg.IO_UART_CFG.PARITY n) (bits v 61 60)).set (Reg.IO_UART_CFG.DIV n) (bits v 15 0)
  let s := s.onlyIf (bit v 59) fun s => s.setFlag (Reg.IO_UART_CFG.TX_OVF n) false
  s.onlyIf (bit v 58) fun s => s.setFlag (Reg.IO_UART_CFG.RX_OVF n) false

/-- UART_TX_PUSH. -/
def execUartTxPush (dt : Nat) (n : Fin 2) (value : Word) (s : State) : Result :=
  step' dt s fun s => (uartPush s n value.toNat).answer 0

/-- UART_RX_OCTET: a full FIFO discards the octet. -/
def execUartRxOctet (dt : Nat) (n : Fin 2) (octet : Byte) (frameErr parErr : Bool) (s : State) : Result :=
  whenever dt s (fun s => s.flag (Reg.IO_UART_CFG.EN n)) fun s =>
    let l := uartRx s n
    if 64 ≤ l.length then s.setFlag (Reg.IO_UART_CFG.RX_OVF n) true
    else setUartRx s n (l ++ [octet.toNat + 256 * b2n parErr + 512 * b2n frameErr])

/-- IO_UART_RX as read: the octet at the head. -/
def uartHead (s : State) (n : Nat) : Nat :=
  match uartRx s n with
  | [] => 0
  | v :: _ => 2 ^ 63 + at' (v / 512) 1 62 + at' (v / 256) 1 61 + v % 256

/-- UART_RX_POP (R739). -/
def uartPop (s : State) (n : Nat) : State := (setUartRx s n (uartRx s n).tail).answer (uartHead s n)
def execUartRxPop (dt : Nat) (n : Fin 2) (s : State) : Result := step' dt s fun s => uartPop s n

/-! I2C and SPI. -/

/-- NBYTES as it acts. -/
def nBytes (v : Nat) : Nat := max 1 (min 4 (bits v 42 40))

/-- A write of IO_I2C_CMD. -/
def writeI2cCmd (s : State) (n v : Nat) : State :=
  s.onlyIf (bit v 63 && !s.flag (Reg.IO_I2C_STATUS.BUSY n)) fun s =>
    let r := bit v 62
    let s := s.setFlag (Reg.IO_I2C_STATUS.BUSY n) true
    let s := if n = 0 then s.setIo { s.io with i2c0 := some (r, nBytes v) } else s.setIo { s.io with i2c1 := some (r, nBytes v) }
    s.emit (.i2c n (bits v 54 48) r (bit v 61) (if r then [] else leBytes (nBytes v) v))

/-- I2C_GO and I2C_DONE: `nack` when the target did not acknowledge; `data` is what a read brings. -/
def execI2cGo (dt : Nat) (n : Fin 2) (value : Word) (s : State) : Result :=
  step' dt s fun s => (writeI2cCmd s n value.toNat).answer 0
def execI2cDone (dt : Nat) (n : Fin 2) (nack : Bool) (data : BitVec 32) (s : State) : Result :=
  whenever dt s (fun s => s.flag (Reg.IO_I2C_STATUS.BUSY n)) fun s =>
    let t := if n.val = 0 then s.io.i2c0 else s.io.i2c1
    let s := (s.setFlag (Reg.IO_I2C_STATUS.BUSY n) false).setFlag (Reg.IO_I2C_STATUS.DONE n) true
    let s := s.setFlag (Reg.IO_I2C_STATUS.NACK n) nack
    let s := if n.val = 0 then s.setIo { s.io with i2c0 := none } else s.setIo { s.io with i2c1 := none }
    match t with
    | some (true, k) => s.onlyIf (!nack) fun s => s.set (Reg.IO_I2C_STATUS.DATA n) (data.toNat % 256 ^ k)
    | _ => s

/-- A write of IO_SPI_CMD. -/
def writeSpiCmd (s : State) (n v : Nat) : State :=
  s.onlyIf (bit v 63 && !s.flag (Reg.IO_SPI_STATUS.BUSY n)) fun s =>
    let s := s.setFlag (Reg.IO_SPI_STATUS.BUSY n) true
    let s := if n = 0 then s.setIo { s.io with spi0 := some (nBytes v) } else s.setIo { s.io with spi1 := some (nBytes v) }
    s.emit (.spi n (bits v 62 61) (bits v 55 48) (leBytes (nBytes v) v))

/-- SPI_GO and SPI_DONE. -/
def execSpiGo (dt : Nat) (n : Fin 2) (value : Word) (s : State) : Result :=
  step' dt s fun s => (writeSpiCmd s n value.toNat).answer 0
def execSpiDone (dt : Nat) (n : Fin 2) (data : BitVec 32) (s : State) : Result :=
  whenever dt s (fun s => s.flag (Reg.IO_SPI_STATUS.BUSY n)) fun s =>
    let k := ((if n.val = 0 then s.io.spi0 else s.io.spi1).getD 4)
    let s := (s.setFlag (Reg.IO_SPI_STATUS.BUSY n) false).setFlag (Reg.IO_SPI_STATUS.DONE n) true
    let s := if n.val = 0 then s.setIo { s.io with spi0 := none } else s.setIo { s.io with spi1 := none }
    s.set (Reg.IO_SPI_STATUS.DATA n) (data.toNat % 256 ^ k)

end Sys2Proof.Machine
end

