-- ==== Sys2Proof/Machine/Perf.lean ====
section
/-!
DEFINITION. The PERF collector (R694 to R703).
-/

namespace Sys2Proof.Machine

/-- Put the PERF block. -/
def State.setPerf (s : State) (p : PerfState) : State := { s with perf := p }

/-- Counter number `n` in the format of PERF_CTR: OVF in bit 63, the value in bits 47 to 0; an unused position reads zero (R693). A
read shows the counters as they stood when its cycle began (R696). -/
def perfCtr (counters : List (Nat × Nat)) (n : Nat) : Nat :=
  match Config.counterName n with
  | none => 0
  | some c =>
    let v := Cells.get counters c 0
    v % 2 ^ 48 + b2n (decide (2 ^ 48 ≤ v)) * 2 ^ 63

/-- A W1C of OVF: a wrap in the same cycle leaves it set (R696). -/
def clearOvf (s : State) (n : Nat) : State :=
  match Config.counterName n with
  | none => s
  | some c =>
    let v := Cells.get s.counters c 0 % 2 ^ 48
    let wrapped := decide (v < Cells.get s.cycleCounters c 0 % 2 ^ 48)
    { s with counters := Cells.set s.counters c (v + b2n wrapped * 2 ^ 48) 0 }

/-- PERIOD_US as it acts. -/
def perfPeriod (s : State) : Nat := max 100 (min 60000000 (s.get Reg.PERF_CTRL.PERIOD_US))

/-- A write of PERF_CTRL (R698, R703): EN is ignored while COUNT is 0 (the bit reads as written: the model's choice), and a new
period waits for the next snapshot. -/
def writePerfCtrl (s : State) (v : Nat) : State :=
  let s := s.set Reg.PERF_CTRL.PERIOD_US (bits v 25 0)
  let en := bit v 63 && decide (s.get Reg.PERF_RING_BASE.COUNT ≠ 0)
  let s := s.setFlag Reg.PERF_CTRL.EN (bit v 63)
  if !en then s.setPerf { s.perf with period := none }
  else if s.perf.period.isSome then s
  else s.setPerf { s.perf with period := some (perfPeriod s), fromNs := s.time.ns, windowNs := s.time.ns, stepped := false
                               base := s.perf.totals, first := true, missed := 0 }

/-- T_s: the multiple of the period that TIME_NS has just reached. -/
def snapshotAt (s : State) (period : Nat) : Nat := s.time.ns / (period * 1000) * (period * 1000)

/-- Is a snapshot due (R697)? The latches of the blocks lie within 64 ns of T_s. A step of TIME_NS skips the multiples it passes
(R698), and no multiple is taken twice. -/
def snapshotDue (s : State) (period : Nat) : Bool :=
  decide (s.time.ns < snapshotAt s period + 64 ∧ snapshotAt s period ≠ s.perf.fromNs)

/-- Records held, and whether the ring is full (R700). -/
def ringHeld (s : State) : Nat :=
  let n := max 1 (s.get Reg.PERF_RING_BASE.COUNT)
  (s.get Reg.PERF_RING_WR.WR + n - s.get Reg.PERF_RING_RD.RD) % n
def ringFull (s : State) : Bool := decide (s.get Reg.PERF_RING_BASE.COUNT ≤ ringHeld s + 1)

/-- A port entry (R702): what the window added. -/
def portEntry (s : State) (p : Nat) : List Byte :=
  let a := Cells.get s.perf.totals p {}
  let b := Cells.get s.perf.base p {}
  let d := fun (x y : Nat) => (x + 2 ^ 48 - y % 2 ^ 48) % 2 ^ 48
  let sat := fun (x : Nat) => min x (2 ^ 32 - 1)
  leBytes 8 (d a.txBytes b.txBytes) ++ leBytes 8 (d a.rxBytes b.rxBytes) ++ leBytes 4 (d a.txAir b.txAir) ++
    leBytes 4 (d a.rxAir b.rxAir) ++ leBytes 4 (sat (d a.txPkts b.txPkts)) ++ leBytes 4 (sat (d a.rxPkts b.rxPkts))

/-- A record (R701). -/
def perfRecord (s : State) (at_ : Nat) : List Byte :=
  let p := s.perf
  let flags := b2n p.first + 2 * b2n (decide (p.missed ≠ 0)) + 4 * b2n p.stepped
  leBytes 4 0x46524550 ++ leBytes 2 1 ++ leBytes 2 8768 ++ leBytes 8 p.seq ++ leBytes 8 at_ ++ leBytes 8 (ofSigned 64 (at_ - p.windowNs : Int)) ++
    leBytes 4 flags ++ leBytes 4 p.missed ++ List.replicate 24 0 ++ (List.range 1024).flatMap (fun n => leBytes 8 (perfCtr s.counters n)) ++
    (List.range 16).flatMap fun k => if k < 8 then portEntry s k else List.replicate 32 0

/-- Where record `i` lies. -/
def recordAddr (s : State) (i : Nat) : Nat := s.get Reg.PERF_RING_BASE.ADDR * 65536 + 8768 * i

/-- A record is written, and a new window begins. -/
def writeRecord (s : State) (at_ : Nat) : State :=
  let n := max 1 (s.get Reg.PERF_RING_BASE.COUNT)
  let s := s.ddrWrite (recordAddr s (s.get Reg.PERF_RING_WR.WR)) (perfRecord s at_)
  let s := (s.set Reg.PERF_RING_WR.WR ((s.get Reg.PERF_RING_WR.WR + 1) % n)).set Reg.PERF_STATUS.LAST_SEQ s.perf.seq
  s.setPerf { s.perf with base := s.perf.totals, windowNs := at_, seq := s.perf.seq + 1, first := false, stepped := false, missed := 0 }

/-- PERF_SNAPSHOT (R697, R699), at T_s: a full ring takes no record, and the base of the window stays. -/
def execPerfSnapshot (dt : Nat) (s : State) : Result :=
  step' dt s fun s =>
    match s.perf.period with
    | none => s
    | some period =>
      let at_ := snapshotAt s period
      s.onlyIf (snapshotDue s period) fun s =>
        let s := if ringFull s then
            (s.bump Reg.PERF_STATUS.MISSED).setPerf { s.perf with missed := s.perf.missed + 1 }
          else writeRecord s at_
        s.setPerf { s.perf with fromNs := at_, period := some (perfPeriod s) }

end Sys2Proof.Machine
end

