-- ==== Sys2Proof/Machine/RegView.lean ====
section
/-!
DEFINITION. What a read of a control register shows: where the field store holds a register that an index register
selects, the fields that the device computes from the state behind them, and the word of R5.
Block and offset numbers are those of the register tables.
-/

namespace Sys2Proof.Machine

/-- Where the field store holds the fields of the register at offset `o` of block `b`: registers behind an index register
have one place per index (R142, R313, R403, R433, R690). T_PBS is held per port and tenant, WEIGHT per tenant;
a selection beyond the last queue or port acts as the last (R433). -/
def storeOff (s : State) (b o lo : Nat) : Nat :=
  let tenant := s.get Reg.SCHED_T_SEL.TENANT
  let portTenant := 256 * min 6 (s.get Reg.SCHED_T_SEL.PORT) + tenant
  let queue := min 14335 (s.get Reg.SCHED_Q_SEL.QUEUE)
  let fe := b - 5
  if 5 ≤ b ∧ b ≤ 7 ∧ o = 0x40 then
    windowOff 0 (fe * 0x8000 + s.get (Reg.FE_TXCAL_CTRL.SEL fe) % (if b = 7 then 64 else 512))
  else if 5 ≤ b ∧ b ≤ 7 ∧ o = 0x68 then
    windowOff 1 (fe * 0x8000 + 64 * s.get (Reg.FE_FIR_SEL.CARRIER fe) + s.get (Reg.FE_FIR_SEL.TAP fe))
  else if b = 3 ∧ o = 0x18 then windowOff 2 (s.get Reg.CRYPTO_GK_SEL.SLOT)
  else if b = 13 ∧ o = 0x20 then windowOff 3 (s.get Reg.QMGR_Q_SEL.QUEUE)
  else if b = 20 ∧ o = 0x20 then windowOff 16 (s.get Reg.HEALTH_MON_SEL.MON)
  else if b = 12 then
    match o with
    | 0x10 => windowOff 4 queue
    | 0x18 => windowOff 5 queue
    | 0x20 => windowOff 6 queue
    | 0x30 => windowOff 7 (if lo = 24 then portTenant else tenant)
    | 0x88 => windowOff 8 portTenant
    | 0x40 => windowOff 9 (s.get Reg.SCHED_DUTY_SEL.SUBBAND)
    | 0x48 => windowOff 10 (s.get Reg.SCHED_DUTY_SEL.SUBBAND)
    | 0x58 => windowOff 11 (s.get Reg.SCHED_POL_SEL.POLICER)
    | 0x60 => windowOff 12 (s.get Reg.SCHED_POL_SEL.POLICER)
    | 0x68 => windowOff 13 (s.get Reg.SCHED_POL_SEL.POLICER)
    | 0x70 => windowOff 14 (s.get Reg.SCHED_POL_SEL.POLICER)
    | 0x80 => windowOff 15 (s.get Reg.SCHED_PMAP_SEL.KEY)
    | _ => b * 0x10000 + o
  else b * 0x10000 + o

/-- The reset value of a field whose tables give one per instance (R142, R620, R741). -/
def resetAt (s : State) (b o : Nat) (f : FieldRow) : Nat :=
  if b = 7 ∧ o = 0x20 ∧ f.lo = 16 then 0x48
  else if b = 7 ∧ o = 0x20 ∧ f.lo = 0 then 1
  else if b = 1 ∧ 0x20 ≤ o ∧ o < 0x40 ∧ f.lo = 56 then (if o = 0x20 then 0 else 3)
  else if 5 ≤ b ∧ b ≤ 7 ∧ o = 0x68 then firReset (s.get (Reg.FE_FIR_SEL.TAP (b - 5)))
  else f.rst

/-- The field of a register row, as the field store holds it. -/
def fldAt (s : State) (b o : Nat) (f : FieldRow) : Fld := ⟨storeOff s b o f.lo, f.hi, f.lo, resetAt s b o f⟩

/-- The head word of the EVENT FIFO (R46). -/
def eventWord (s : State) : Nat :=
  match s.events with
  | [] => 0
  | r :: _ => at' r.code 8 56 + at' r.source 8 48 + r.arg % 2 ^ 48

/-- Lanes of a pool that are neither FREE nor EXCLUDED (R177). -/
def busyLanes (s : State) (wide : Bool) : Nat :=
  ((poolLanes wide).filter fun n => laneCode s n != 0 && laneCode s n != 7).length

/-- CHAN_LANE_STATE of the selected lane (R177). -/
def laneWord (s : State) : Nat :=
  let n := s.get Reg.CHAN_LANE_SEL.LANE
  let l := laneAt s n
  if 287 < n then 0
  else if l.stage = .free ∨ l.stage = .reserved ∨ laneExcluded s n then at' (laneCode s n) 4 60
  else at' (laneCode s n) 4 60 + at' l.fe 2 58 + at' l.bin 8 50 + at' (b2n (isFDW l.mode)) 1 49 + at' l.mode 4 45 +
    at' (ofSigned 12 l.afc) 12 33 + at' (ofSigned 12 l.rssi) 12 21 + at' l.lq 8 13

/-- OX_CTX_STATE of the selected context (R237): fields other than STATE read zero in FREE. -/
def ctxWord (s : State) : Nat :=
  let c := ctxAt s (s.get Reg.OX_CTX_SEL.CTX)
  let stage := match c.stage with
    | .free => 0 | .armed => 1 | .recording => 2 | .queued => 3 | .processing => 4
  if stage = 0 then 0
  else at' stage 3 61 + at' c.fe 2 59 + at' c.bin 8 51 + at' c.trigger 3 48 + at' c.layer 2 46 + at' c.recovered 2 44 +
    at' c.startNs 32 0

/-- OX_CAP_STATUS (R237): while EN is clear no context is armed or opened, and FREE reads its reset value. -/
def capWord (s : State) : Nat :=
  at' (if s.flag Reg.OX_CAP_BASE.EN then 32 - s.ox.contexts.length else 0) 6 58 + at' (ctxCount s .armed) 6 52 + at' (ctxCount s .recording) 6 46 +
    at' (ctxCount s .queued) 6 40 + at' (ctxCount s .processing) 6 34 + at' (ctxCount s .processing) 4 30

/-- Live entries of a front end's announcement table (R233). -/
def raCount (s : State) (fe : Nat) : Nat := ((raTable s fe).filter (raLive s)).length

/-- Lookups parked (R337). -/
def parkedLookups (s : State) : Nat :=
  s.tables.parking.length

/-- The computed bits of SCHED_Q_DWRR (R433): the EXCESS class deficit, saturating, and what the buckets allow. -/
def dwrrWord (s : State) : Nat :=
  let q := min 14335 (s.get Reg.SCHED_Q_SEL.QUEUE)
  at' (min (classDeficit s (classKey q true)) (2 ^ 24 - 1)) 24 16 +
    at' (b2n (onWheel s (bucketCommitted q) || onWheel s (bucketPeak q))) 1 2 +
    at' (b2n (allows s (bucketCommitted q))) 1 1 + at' (b2n (allows s (bucketPeak q))) 1 0

/-- Members that can be reached, one bit each (R486). -/
def reachable (s : State) : Nat :=
  (List.range s.members).foldl (fun a m => a + b2n (m = s.herdId || (ringPort s m).isSome) * 2 ^ m) 0

/-- A valid frame of the peer came within LEASE_MS (R518). -/
def peerSeen (s : State) : Bool :=
  match s.lease.peerNs with
  | none => false
  | some t => !s.agoNs t (pairNs (leaseMs s))

/-- IO_GPIO_DIR as it reads (R728), and the levels of the balls. -/
def gpioDir (s : State) : Nat := (List.range 24).foldl (fun a n => a + b2n (!gpioIsInput s n) * 2 ^ n) 0
def gpioIn (s : State) : Nat := (List.range 24).foldl (fun a n => a + b2n (gpioLevel s n) * 2 ^ n) 0

/-- A computed field reads its reset value of zero until ADMIT has loaded the sections. -/
def fromAdmit (s : State) (v : Nat) : Nat := if s.loaded.isEmpty then 0 else v

/-- The word, or the part of it from bit `lo` on, that the device computes for the field at bit `lo` of a register;
`none` for a field that the field store holds. -/
def computed (s : State) (b o lo : Nat) : Option Nat :=
  let part := fun (w : Nat) => some (w / 2 ^ lo)
  match b, o with
  | 0, 0x0 => if lo = 16 then some (if Config.gradeXC then 2 else 1) else none
  | 0, 0x100 => part (eventWord s)
  | 0, 0x110 => if lo = 0 then some s.events.length else none
  | 1, 0x0 => part (icuStatus s)
  | 1, 0x20 => if lo = 63 then some 0 else none
  | 2, 0x308 => some (otpShown s (s.get Reg.KEYS_OTP_SEL.WORD))
  | 3, 0x0 => match lo with
    | 60 => some (fromAdmit s (engines s))
    | 56 => some (s.crypto.jobs.filter (·.engine.isSome)).length
    | 32 => some (keyMissLevel s)
    | _ => some ((s.crypto.cache.map fun e => e.2.length).sum)
  | 4, 0x60 => some (rtcNow s)
  | 8, 0x0 => if s.loaded.isEmpty then some 0 else match lo with
    | 60 => some (b2n (recoveryOn s))
    | 52 => some (iterCap s)
    | 32 => some (enabledCount s (s.get Reg.CHAN_STATUS.MODE) false)
    | 26 => some (enabledCount s (s.get Reg.CHAN_STATUS.MODE) true)
    | 17 => some (busyLanes s false)
    | 11 => some (busyLanes s true)
    | _ => none
  | 8, 0x28 => if lo = 0 then some (reservedLanes s false + reservedLanes s true) else none
  | 8, 0x38 => part (laneWord s)
  | 9, 0x8 => if lo = 55 then some (decodersBusy s) else none
  | 9, 0x110 => part (capWord s)
  | 9, 0x120 => part (ctxWord s)
  | 9, 0x130 => match lo with
    | 53 => some (raCount s 0)
    | 42 => some (raCount s 1)
    | 31 => some (raCount s 2)
    | _ => none
  | 10, 0x8 => some (asnNow s)
  | 11, 0x0 => match lo with
    | 44 => some (s.tables.index.filter fun e => e.2.valid).length
    | 35 => some (parkedLookups s)
    | _ => none
  | 11, 0x40 => part (s.tables.muleDone.head?.getD 0)
  | 11, 0x48 => some ((s.tables.learn.head?.map (·.data)).getD 0)
  | 11, 0x50 => if lo = 0 then some s.tables.learn.length else none
  | 12, 0x0 => if lo = 51 then some s.sched.retry.length else some s.sched.wheel.length
  | 12, 0x20 => if lo = 40 then none else part (fromAdmit s (dwrrWord s))
  | 13, 0x0 => match lo with
    | 41 => some (freeCells s)
    | 28 => some (fromAdmit s (freeOnchip s))
    | _ => some (fromAdmit s (freeDesc s))
  | 13, 0x28 =>
    let l := queueAt s (s.get Reg.QMGR_Q_SEL.QUEUE)
    match lo with
    | 41 => some l.length
    | 18 => some (cellsOf l)
    | _ => some (onchipOf l)
  | 14, 0x0 => if lo = 59 then some (b2n (s.time.slew ≠ 0)) else none
  | 14, 0x8 => some s.time.ns
  | 14, 0x28 => some (ofSigned 48 (s.time.slew.tdiv ((2 ^ 32 : Nat) : Int)))
  | 14, 0x60 => some (stampHead s)
  | 14, 0x68 => match lo with
    | 62 => some (b2n s.time.word1)
    | 0 => some s.time.stamps.length
    | _ => none
  | 15, 0x28 => if lo = 51 then some (s.wire.prp.filter fun e => !s.elapsedMs e.2 (prpLifeMs s)).length else none
  | 15, 0x48 => if lo = 0 then some (512 - s.wire.mgmt.length) else none
  | 15, 0x100 => if lo = 60 then some (b2n (peerSeen s)) else none
  | 16, 0x0 => if lo = 46 then some (fromAdmit s (reachable s)) else none
  | 17, 0x0 => if lo = 58 then some (b2n (pageLocked s)) else none
  | 19, 0x30 => part (perfCtr s.cycleCounters (s.get Reg.PERF_CTR_SEL.CTR))
  | 20, 0x20 => if 18 < s.get Reg.HEALTH_MON_SEL.MON then some 0 else none
  | 21, 0x0 => if lo = 40 then some (inFlight s) else none
  | 21, 0x40 => if lo = 49 then some (safeSpace s) else none
  | 25, 0x0 => some (gpioDir s)
  | 25, 0x10 => some (gpioIn s)
  | _, _ =>
    let n := o % 0x20 / 8
    if b = 13 ∧ 0x200 ≤ o ∧ o < 0x220 then some (((mboxRx s n).head?.map (·.data)).getD 0)
    else if b = 13 ∧ 0x220 ≤ o ∧ o < 0x240 ∧ lo = 0 then some (mboxRx s n).length
    else if b = 13 ∧ 0x280 ≤ o ∧ o < 0x2A0 ∧ lo = 0 then some (1024 - (mboxTx s n).length)
    else if b = 25 ∧ (o = 0x100 ∨ o = 0x108) ∧ lo = 40 then some (uartRx s n).length
    else if b = 25 ∧ (o = 0x100 ∨ o = 0x108) ∧ lo = 32 then some (64 - (uartTx (uartDrain s n) n).length)
    else if b = 25 ∧ (o = 0x120 ∨ o = 0x128) then part (uartHead s n)
    else none

/-- How many low bits of a register can read other than zero: CHAN_BIN_EN_3, 7 and 8 end at the last bin (R177). -/
def shownBits (b o : Nat) : Nat :=
  if b = 8 ∧ (o = 0x118 ∨ o = 0x138) then 8 else if b = 8 ∧ o = 0x140 then 16 else 64

/-- What a field reads as (R11, R13): WO fields read zero. -/
def shown (s : State) (b o : Nat) (f : FieldRow) : Nat :=
  match f.acc, computed s b o f.lo with
  | .wo, _ => 0
  | _, some v => v % 2 ^ (f.hi - f.lo + 1)
  | _, none => s.get (fldAt s b o f) % 2 ^ min (f.hi - f.lo + 1) (shownBits b o)

/-- Registers that FE2 does not have (R142): they read zero and ignore writes. -/
def fe2Absent (o : Nat) : Bool := decide (o = 0x58 ∨ o = 0x60 ∨ o = 0x68 ∨ 0x100 ≤ o ∧ o < 0x200)

/-- The fields of the register at offset `o` of block `b`; none where no register lies (R12). MAX_CARRIERS of FE2 is not written
(R142). -/
def regFields (b o : Nat) : List FieldRow :=
  if b = 7 ∧ fe2Absent o then []
  else
    let fs := ((Reg.rowAt (b * 0x10000 + o)).map (·.fields)).getD []
    if b = 7 ∧ o = 0x20 then fs.map fun f => if f.lo = 0 then { f with acc := .ro } else f else fs

/-- The 64-bit word that a read of a register shows. -/
def regWord (s : State) (b o : Nat) : Nat := ((regFields b o).map fun f => shown s b o f * 2 ^ f.lo).sum

/-- RC fields that hold a peak or a code in place of a count or flags: a value set in the cycle of the read stays whole. -/
def peak (b o : Nat) : Bool :=
  decide (b = 8 ∧ o = 0x28 ∨ b = 9 ∧ o = 0x8 ∨ b = 20 ∧ o = 0x0)

/-- The RC fields that lie wholly within bits `hi` down to `lo` of the register clear (R738). -/
def clearRc (s : State) (b o hi lo : Nat) : State :=
  (regFields b o).foldl (fun s f =>
    s.onlyIf (decide (f.acc = .rc)) fun s =>
      let x := fldAt s b o f
      s.set x (afterRead f.acc (decide (lo ≤ f.lo ∧ f.hi ≤ hi)) (if peak b o && s.get x ≠ s.before x then 0 else s.before x)
        (s.get x))) s

end Sys2Proof.Machine
end

