-- ==== Sys2Proof/Machine/Bus.lean ====
section
/-!
DEFINITION. The register bus and the address map: what a read and a write of any physical address do under the width,
access, lock and boot-state rules (R5 to R15, R22 to R25, R30, R31, R395, R479 to R481, R719, R738, R739).
-/

namespace Sys2Proof.Machine

/-! Reads of registers. -/

/-- A 64-bit read of SYS_EVENT_HEAD (R46, R739). -/
def eventPop (s : State) (ecc : Ecc) : State :=
  match s.events with
  | [] => s.answer 0
  | r :: rest =>
    let word := eventWord s
    let s := ({ s with events := rest }).set Reg.SYS_EVENT_TIME.TIME r.time
    let s := fifoRead (s.setFlag Reg.SYS_EVENT_STATUS.POISON (decide (ecc = .uncorrectable))) Fifo.EVENT Block.SYS false false ecc
    s.answer word

/-- The pending word at an offset of the ICU: 0 to 7 shared, 8 to 12 private (R620). -/
def pendWord (b o : Nat) : Option Nat :=
  if b = 1 ∧ 0x100 ≤ o ∧ o < 0x140 then some ((o - 0x100) / 8)
  else if b = 1 ∧ 0x300 ≤ o ∧ o < 0x328 then some (8 + (o - 0x300) / 8)
  else none

/-- A 64-bit read of the register at offset `o` of block `b`. -/
def readWhole (s : State) (init : Init) (b o : Nat) : State :=
  match pendWord b o with
  | some w => pendRead s init w
  | none =>
    match b, o with
    | 0, 0x100 => eventPop s .ok
    | 11, 0x40 => muleDonePop s .ok
    | 11, 0x48 => learnPop s .ok
    | 14, 0x60 => popStamp s
    | _, _ =>
      if b = 13 ∧ 0x200 ≤ o ∧ o < 0x220 then mboxPop s ((o - 0x200) / 8) .ok
      else if b = 25 ∧ (o = 0x120 ∨ o = 0x128) then uartPop s ((o - 0x120) / 8)
      else
        let v := regWord s b o
        (clearRc s b o 63 0).answer v

/-- A 32-bit read of a half of a register (R8, R738, R739): no FIFO loses an entry. -/
def readHalf (s : State) (b o : Nat) (high : Bool) : State :=
  let v := regWord s b o
  let s := if high then clearRc s b o 63 32 else clearRc s b o 31 0
  s.answer (if high then v / 2 ^ 32 else v % 2 ^ 32)

/-! Writes of registers. -/

/-- A plain write of one field of a register (R13, R14, R15). -/
def writeField (b o v : Nat) (s : State) (f : FieldRow) : State :=
  let x := fldAt s b o f
  s.onlyIf (takesWrite f.acc (s.flag (Reg.LOCK b))) fun s => s.set x (afterWrite f.acc (s.before x) (s.get x) (bits v f.hi f.lo))

/-- A plain write of the register at offset `o` of block `b`. -/
def writePlain (s : State) (b o v : Nat) : State := (regFields b o).foldl (writeField b o v) s

/-- CRYPTO_GK_WRAP_0 to 2, which hold what is written and read as zero (R313). -/
def wrapWord (b o : Nat) : Bool := decide (b = 3 ∧ 0x20 ≤ o ∧ o < 0x38)

/-- The word that a 32-bit write amounts to (R8): the other half keeps its writable fields and commands nothing. -/
def halfWord (s : State) (b o v : Nat) (high : Bool) : Nat :=
  let cur := ((regFields b o).map fun f =>
    if f.acc = .rw ∨ f.acc = .rwl ∨ wrapWord b o then s.get (fldAt s b o f) * 2 ^ f.lo else 0).sum
  if high then v % 2 ^ 32 * 2 ^ 32 + cur % 2 ^ 32 else cur / 2 ^ 32 * 2 ^ 32 + v % 2 ^ 32

/-- GPIO balls that the device drives, with their levels (R727, R728). -/
def drives (s : State) (n : Nat) : Option Bool := if gpioIsInput s n then none else some (gpioLevel s n)

/-- A write of IO_GPIO_DIR or IO_GPIO_OUT: balls whose drive changes take their new level. -/
def writeGpio (s : State) (o v : Nat) : State :=
  let t := writePlain s 25 o v
  (List.range 24).foldl (fun t n =>
    match drives t n with
    | some level => t.onlyIf (decide (drives s n ≠ some level)) fun t => t.emit (.pin (.gpio n) level)
    | none => t) t

/-- A write of FWD_NH_i (R378): it follows FWD_LOCK, and the master replicates it to the members (R489, R490). -/
def writeNh (s : State) (i v : Nat) : State :=
  if s.flag (Reg.LOCK 11) then s
  else replicate' (setNh s i v) (at' 0x20 8 56 + i) (nhWord (setNh s i v) i) []

/-- A write of the register at offset `o` of block `b`; `high` is the half written, `none` for a 64-bit write. -/
def writeReg (s : State) (init : Init) (b o v : Nat) (half : Option Bool) : State :=
  let plain := writePlain s b o v
  match pendWord b o with
  | some w => pendWrite s init w v
  | none =>
    match b, o with
    | 0, 0x50 => writeResetCtrl s v
    | 1, 0x10 => writeIpi s init v
    | 1, 0x20 => writePlain s b o (v % 2 ^ 63)
    | 2, 0x8 => writeKeysCmd s init v
    | 2, 0x20 => writeResultAck s v
    | 3, 0x8 => writeCryptoCtrl s v
    | 3, 0x38 => writeGkCmd s v
    | 4, 0x68 => aonPush s (.reg (b * 0x10000 + o) (BitVec.ofNat 64 v) half)
    | 8, 0x8 => writeHearCtrl s v
    | 9, 0x0 => newSettings s fun s => writePlain s b o v
    | 10, 0x48 => writeWakeReq s v
    | 10, 0xE010 => writeSauCtrl s v
    | 11, 0x8 => if half = some true then writeIdxCtrlHigh s v else writeIdxCtrl s v
    | 11, 0x18 => writeHashKey s v
    | 11, 0x30 => writeMuleCtrl s v
    | 11, 0x110 => writeTestKey s v
    | 12, 0x58 => writePolicer s 0 v
    | 12, 0x60 => writePolicer s 1 v
    | 12, 0x68 => writePolicer s 2 v
    | 13, 0x30 => writeFifoDrop s v
    | 14, 0x10 => writeTimeInc s v
    | 14, 0x18 => requestStep s 0 (toSigned 64 v)
    | 14, 0x20 => if bit v 63 then waiveStep plain else plain
    | 14, 0x38 => writeOfsIn s (toSigned 64 v)
    | 15, 0x30 => writeMdio s v
    | 15, 0x38 => mgmtPush s v
    | 15, 0x40 => mgmtLast s v
    | 15, 0x108 => writePairCtrl s v
    | 17, 0x8 => writeRdrCtrl s v (s.flag Reg.NFC_STATUS.EXT_FIELD)
    | 17, 0x20 => writeRdrCmd s (BitVec.ofNat 64 v)
    | 17, 0x30 => writeAcCtrl s v
    | 17, 0x40 => writeOrigCtrl s v
    | 17, 0x60 => writeFwmCmd s v
    | 19, 0x0 => writePerfCtrl s v
    | 19, 0x18 => if s.get Reg.PERF_RING_BASE.COUNT ≤ bits v 15 0 then s else plain
    | 19, 0x30 => if bit v 63 then clearOvf s (s.get Reg.PERF_CTR_SEL.CTR) else s
    | 20, 0x10 => writeSleep s v
    | 21, 0x8 => if init = .sheepdog then plain else s
    | 21, 0x10 => writeSafeCtrl s init v
    | 21, 0x18 => writeWdKick s init v
    | 21, 0x20 => writeAppKick s v
    | 21, 0x30 => safePush s v
    | 21, 0x38 => safePushLast s v false
    | 22, 0x8 => writeProgCmd s v
    | 22, 0x18 => writeUpdCtrl s v
    | 24, 0x8 => writeMsiReq s v
    | 25, 0x0 => writeGpio s o v
    | 25, 0x8 => writeGpio s o v
    | _, _ =>
      if wrapWord b o then s.set (Reg.CRYPTO_GK_WRAP.WRAP ((o - 0x20) / 8)) v
      else if b = 1 ∧ 0x140 ≤ o ∧ o < 0x180 then writeShEn s ((o - 0x140) / 8) v
      else if b = 1 ∧ 0x340 ≤ o ∧ o < 0x368 then writePvEn s init ((o - 0x340) / 8) v
      else if b = 1 ∧ 0x1000 ≤ o ∧ o < 0x2000 then writeShCfg s ((o - 0x1000) / 8) v
      else if 5 ≤ b ∧ b ≤ 7 ∧ o = 0x28 then
        s.onlyIf (bit v 63) fun s => calRequest s (b - 5) (bits v 19 16) (bits v 8 0)
      else if 5 ≤ b ∧ b ≤ 7 ∧ o = 0x58 then plain.onlyIf (bit v 63) fun s => maskResume s (b - 5)
      else if b = 11 ∧ 0x200 ≤ o ∧ o < 0x280 then writeNh s ((o - 0x200) / 8) v
      else if b = 13 ∧ 0x240 ≤ o ∧ o < 0x260 then mboxPush s ((o - 0x240) / 8) v false
      else if b = 13 ∧ 0x260 ≤ o ∧ o < 0x280 then mboxLast s ((o - 0x260) / 8) v false
      else if b = 18 ∧ o ≠ 0xFFF8 ∧ Reg.rowAt (b * 0x10000 + o) ≠ none then
        aonPush s (.reg (b * 0x10000 + o) (BitVec.ofNat 64 v) half)
      else if b = 25 ∧ (o = 0x100 ∨ o = 0x108) then writeUartCfg s ((o - 0x100) / 8) v
      else if b = 25 ∧ (o = 0x110 ∨ o = 0x118) then uartPush s ((o - 0x110) / 8) v
      else if b = 25 ∧ (o = 0x200 ∨ o = 0x208) then writeI2cCmd s ((o - 0x200) / 8) v
      else if b = 25 ∧ (o = 0x300 ∨ o = 0x308) then writeSpiCmd s ((o - 0x300) / 8) v
      else plain

/-! The address map (R22 to R24). -/

/-- The base of the control blocks, and their span. -/
def ctrlBase : Nat := 0x2_0000_0000
def ctrlSpan : Nat := 0x1A_0000

/-- Octet `o` of the on-chip SRAM windows (R24); `none` between windows. -/
def sramByte (s : State) (o : Nat) : Option Byte :=
  let byteOf := fun (w i : Nat) => some (BitVec.ofNat 8 (w / 2 ^ (8 * i)))
  if o < 0x60_0000 then
    let v := Cells.get s.tables.index (o / 12) {}
    byteOf (v.eui % 2 ^ 64 + (at' v.record 18 14 + at' (b2n v.valid) 1 13 + at' (b2n v.hit) 1 12 + at' (b2n v.aged) 1 11) * 2 ^ 64)
      (o % 12)
  else if 0x80_0000 ≤ o ∧ o < 0x98_0000 then byteOf (trieWord s ((o - 0x80_0000) / 4)) (o % 4)
  else if 0xA0_0000 ≤ o ∧ o < 0xA8_0000 then byteOf (cellWord s ((o - 0xA0_0000) / 8)) (o % 8)
  else if 0xB0_0000 ≤ o ∧ o < 0xB4_0000 then byteOf (Cells.get s.tables.shorts ((o - 0xB0_0000) / 4) 0) (o % 4)
  else if 0xC0_0000 ≤ o ∧ o < 0xC8_0000 then byteOf (Cells.get s.tables.seen ((o - 0xC0_0000) / 8) 0) (o % 8)
  else none

/-- What an initiator reads at physical address `a` outside the control blocks; `none` ends in a bus error. -/
def memByte (s : State) (init : Init) (a : Nat) : Option Byte :=
  if a < 0x2_0000 then some (Config.bootRomByte a)
  else if 0x1000_0000 ≤ a ∧ a < 0x1004_0000 then
    if init = .pcie then none else some (Cells.get s.mem.tcm (a - 0x1000_0000) 0)
  else if 0x1_0000_0000 ≤ a ∧ a < 0x1_0100_0000 then sramByte s (a - 0x1_0000_0000)
  else if 0x8_0000_0000 ≤ a ∧ a < 0x8_1000_0000 then some (Cells.get s.mem.flash (a - 0x8_0000_0000) 0xff)
  else if s.inLp4x a 1 then some (Cells.get s.mem.lp4x a 0)
  else none

/-- `n` octets read outside the control blocks. -/
def memRead (s : State) (init : Init) (a n : Nat) : Option (List Byte) := (List.range n).mapM fun i => memByte s init (a + i)

/-- Does the address lie in the control blocks? -/
def inCtrl (a : Nat) : Bool := decide (ctrlBase ≤ a ∧ a < ctrlBase + ctrlSpan)

/-- Is an access to the control blocks of a permitted width (R6, R7, R9)? -/
def widthOk (a n : Nat) : Bool :=
  let b := (a - ctrlBase) / 0x10000
  decide (a % n = 0) && (decide (n = 8) || (decide (n = 4) && decide (b ≠ 1 ∧ b ≠ 2 ∧ b ≠ 14)))

/-- A read of `n` octets at physical address `a`. -/
def busRead (s : State) (init : Init) (a n : Nat) : State :=
  let b := (a - ctrlBase) / 0x10000
  let o := (a - ctrlBase) % 0x10000
  if !powered s then s.busError
  else if inCtrl a then
    if !widthOk a n then s.busError
    else if n = 8 then readWhole s init b o
    else readHalf s b (o / 8 * 8) (decide (o % 8 = 4))
  else match memRead s init a n with
    | some l => s.answer (leNat l)
    | none => s.busError

/-- A write of `n` octets at physical address `a`: only the control blocks, LP4X and, for the Sheepdog, its TCM take one. -/
def busWrite (s : State) (init : Init) (a n v : Nat) : State :=
  let b := (a - ctrlBase) / 0x10000
  let o := (a - ctrlBase) % 0x10000
  if !powered s then s.busError
  else if inCtrl a then
    if !widthOk a n then s.busError
    else if n = 8 then (writeReg s init b o v none).answer 0
    else
      let high := decide (o % 8 = 4)
      (writeReg s init b (o / 8 * 8) (halfWord s b (o / 8 * 8) v high) (some high)).answer 0
  else if 0x1000_0000 ≤ a ∧ a + n ≤ 0x1004_0000 ∧ init = .sheepdog then
    (s.tcmWrite (a - 0x1000_0000) (leBytes n v)).answer 0
  else if s.inLp4x a n then (s.ddrWrite a (leBytes n v)).answer 0
  else s.busError

/-! JTAG (R527, R718, R719). -/

/-- May KEYS_ACCESS be used, in this life-cycle state? Every state but END. -/
def keysAccess (s : State) : Bool := decide (s.keys.lc ≠ 5)

/-- Does JTAG reach an address? A KEYS register through KEYS_ACCESS, and the rest through an open debug port. -/
def jtagReaches (s : State) (a n : Nat) : Bool :=
  (keysAccess s && s.flag Reg.KEYS_STATUS.DEBUG) ||
    (keysAccess s && decide (n = 8 ∧ ctrlBase + 0x2_0000 ≤ a ∧ a < ctrlBase + 0x2_0800))

/-- May this initiator make the access at all? An instruction that the TAP does not offer acts as BYPASS. -/
def reaches (s : State) (init : Init) (a n : Nat) : Bool := init != .jtag || jtagReaches s a n

/-- The access passes the register bridge of block `b` (R30, R395): an uncorrectable word makes it a bus error, reported with
that block's number (R733). -/
def bridged (s : State) (b : Nat) (ecc : Ecc) (k : State → State) : State :=
  let s := fifoRead s Fifo.XING b false false ecc
  if ecc = .uncorrectable then s.busError else k s

/-- An access to a physical address, over the bridge of its block where it lies in the control blocks. -/
def onBus (s : State) (a : Nat) (ecc : Ecc) (k : State → State) : State :=
  if inCtrl a then bridged s ((a - ctrlBase) / 0x10000) ecc k else k s

/-- JTAG alone reaches its message buffer, a word at a time (R719); anything else finds nothing there (R9, R22). -/
def bufferAccess (init : Init) (n : Nat) : Bool := decide (init = .jtag ∧ n = 8)

/-- A read through the bus or the JTAG message buffer. -/
def readAt (s : State) (init : Init) (addr : BusAddr) (n : Nat) (ecc : Ecc) : State :=
  match addr with
  | .phys a => s.onlyIf (reaches s init a.toNat n) fun s => onBus s a.toNat ecc fun s => busRead s init a.toNat n
  | .jtagBuf w =>
    if !bufferAccess init n then s.busError
    else s.onlyIf (keysAccess s) fun s => s.answer (Cells.get s.keys.jtagBuf w.val 0).toNat

/-- A write through the bus or the JTAG message buffer. -/
def writeAt (s : State) (init : Init) (addr : BusAddr) (n : Nat) (value : Word) (ecc : Ecc) : State :=
  match addr with
  | .phys a => s.onlyIf (reaches s init a.toNat n) fun s =>
      onBus s a.toNat ecc fun s => busWrite s init a.toNat n value.toNat
  | .jtagBuf w =>
    if !bufferAccess init n then s.busError
    else s.onlyIf (keysAccess s) fun s =>
      (s.setKeys { s.keys with jtagBuf := Cells.set s.keys.jtagBuf w.val value 0 }).answer 0

/-! The commands. -/

/-- REGISTER_WRITE (R8): a write under the access, lock and width rules. -/
def execRegisterWrite (dt : Nat) (init : Init) (addr : BusAddr) (bytes : Fin 4) (value : Word) (bridge : Ecc) (s : State) :
    Result :=
  step' dt s fun s => writeAt s init addr (2 ^ bytes.val) value bridge

/-- RC_FIELD_READ (R738): a read returns a register and clears the RC fields that it returns whole. -/
def execRcFieldRead (dt : Nat) (init : Init) (addr : BusAddr) (bytes : Fin 4) (bridge : Ecc) (s : State) : Result :=
  step' dt s fun s => readAt s init addr (2 ^ bytes.val) bridge

/-- BLOCK_LOCK (R14): a 64-bit write of a block's LOCK register. -/
def execBlockLock (dt : Nat) (init : Init) (block : Fin 26) (value : Word) (s : State) : Result :=
  step' dt s fun s => writeAt s init (.phys (BitVec.ofNat 40 (ctrlBase + block.val * 0x10000 + 0xFFF8))) 8 value .ok

/-- One write arrives in the always-on domain (R31, R550): a 32-bit one leaves the other half as it stands there (R8). -/
def aonApply (s : State) : AonWrite → State
  | .reg off v none => writePlain s (off / 0x10000) (off % 0x10000) v.toNat
  | .reg off v (some high) =>
    let w := halfWord s (off / 0x10000) (off % 0x10000) (if high then v.toNat / 2 ^ 32 else v.toNat) high
    writePlain s (off / 0x10000) (off % 0x10000) w
  | .clear m => latchClear s m

/-- AON_SHADOW_SYNC (R31): the writes on their way take effect in the always-on domain. -/
def execAonShadowSync (dt : Nat) (s : State) : Result :=
  whenever dt s (fun s => !s.start.off) fun s =>
    let writes := s.aon.writes
    writes.foldl aonApply { s with aon := { s.aon with writes := [] } }

/-- SYS_EVENT_HEAD_POP (R46): a 64-bit read pops the oldest record. -/
def execSysEventHeadPop (dt : Nat) (ecc : Ecc) (s : State) : Result :=
  step' dt s fun s => if powered s then eventPop s ecc else s.busError

/-! PCIe (R479 to R481). -/

/-- The blocks that BAR0 reaches in the present boot state (R480). -/
def bar0Blocks (s : State) : List Nat :=
  if s.boot = Boot.RUN then List.range 26
  else if s.boot = Boot.TAMPER_HOLD then [0, 2, 4]
  else if s.boot = Boot.SAFE then [0]
  else if s.boot = Boot.CONFIG_REFUSED ∨ (Boot.IMAGE_VERIFY ≤ s.boot ∧ s.boot ≤ Boot.CALIBRATE) then [0, 22]
  else []

/-- Does BAR2 reach LP4X (R480)? -/
def bar2Open (s : State) : Bool := decide (s.boot = Boot.RUN ∨ s.boot = Boot.CONFIG_REFUSED ∨ s.boot = Boot.TAMPER_HOLD)

/-- Is a request of `n` octets at an offset of a BAR admitted (R479, R480)? -/
def barReaches (s : State) (bar : PcieBar) (ofs n : Nat) : Bool :=
  match bar with
  | .bar0 => decide (ofs + n ≤ ctrlSpan) && (bar0Blocks s).contains (ofs / 0x10000) && (bar0Blocks s).contains ((ofs + n - 1) / 0x10000)
  | .bar2 => bar2Open s && s.inLp4x (lp4xBase + ofs) n

/-- The physical address behind a BAR. -/
def barAddr (bar : PcieBar) (ofs : Nat) : Nat :=
  match bar with
  | .bar0 => ctrlBase + ofs
  | .bar2 => lp4xBase + ofs

/-- Aligned 64-bit reads in ascending order: one that ends in a bus error makes the completion Completer Abort (R481). -/
def pcieReads (s : State) (a : Nat) : Nat → State
  | 0 => s.answer 0
  | n + 1 =>
    let s := busRead s .pcie a 8
    let first := s.bus
    let s := pcieReads s (a + 8) n
    if first.err || s.bus.err then s.busError else s.answer (first.data + 2 ^ 64 * s.bus.data)

/-- A posted write that ended in a bus error is dropped and counted in PCIE_STATUS (R481). -/
def posted (s : State) : State := s.onlyIf s.bus.err fun s => s.bump Reg.PCIE_STATUS.WR_ERR

/-- Aligned 64-bit writes in ascending order; the check bits are those of the first word. -/
def pcieWrites (s : State) (a : Nat) (bridge : Ecc) : List Word → State
  | [] => s
  | w :: ws => pcieWrites (posted (onBus s a bridge fun s => busWrite s .pcie a 8 w.toNat)) (a + 8) .ok ws

/-- How many octets a request covers. -/
def pcieOctets : PcieOp → Nat
  | .read b => 2 ^ b.val
  | .write b _ => 2 ^ b.val
  | .readWords n => 8 * n
  | .writeWords l => 8 * l.length

/-- PCIE_REQUEST (R481): a request is split into 64-bit accesses, or answered with Unsupported Request (R22, R480);
`bridge` is what the check bits of its first word on the register bridge say (R395). -/
def execPcieRequest (dt : Nat) (bar : PcieBar) (ofs : Nat) (req : PcieOp) (bridge : Ecc) (s : State) : Result :=
  step' dt s fun s =>
    let a := barAddr bar ofs
    if !s.flag Reg.PCIE_STATUS.LINK_UP then s
    else if !barReaches s bar ofs (pcieOctets req) then { s with bus := { unsupported := true } }
    else match req with
      | .read b => onBus s a bridge fun s => busRead s .pcie a (2 ^ b.val)
      | .write b v => posted (onBus s a bridge fun s => busWrite s .pcie a (2 ^ b.val) v.toNat)
      | .readWords n => onBus s a bridge fun s => pcieReads s a n
      | .writeWords l => pcieWrites s a bridge l

end Sys2Proof.Machine
end

