-- ==== Sys2Proof/Machine/Start.lean ====
section
/-!
DEFINITION. A start up to the end of ADMIT (R54 to R79, R626 to R636): what ends each state, image selection, migration,
admission and refusal.
-/

namespace Sys2Proof.Machine

/-- Put the boot state. -/
def State.setBoot (s : State) (b : Nat) : State := s.set Reg.SYS_BOOT_STATUS.STATE b

/-- Put the start in progress. -/
def State.setStart (s : State) (b : BootState) : State := { s with start := b }

/-- The image in force is CONFIG_STAGED. -/
def stagedImage (s : State) : Bool := decide (s.start.image = Region.CONFIG_STAGED)

/-! AON_ONLY, BOOT_ROM and LIFE_CYCLE_READ. -/

/-- REFCLK_QUALIFIED (R54, R56, R437): AON_ONLY ends, and TIME_NS counts from zero. -/
def execRefclkQualified (dt : Nat) (s : State) : Result :=
  whenever dt s (fun s => powered s && decide (s.boot = Boot.AON_ONLY)) fun s =>
    ({ s with time := { s.time with running := true } }).setBoot Boot.BOOT_ROM

/-- BOOT_HDR stands in the flash (R622). -/
def bootHdrOk (s : State) : Bool :=
  let h := s.flash 0 16
  let u := field h
  decide (u 0 4 = 0x48445242 ∧ 256 ≤ u 4 2 ∧ u 7 1 = 0) && within (u 6 1) 4 30 && decide (u 12 4 = crc32 (h.take 12))

/-- The journal's view at a start: PENDING, TRIAL, and the START record of a trial (R630). -/
def journalStart (s : State) : State :=
  let v := jView s
  let s := (s.setFlag Reg.XSPI_UPD_STATUS.PENDING v.pending).setFlag Reg.XSPI_UPD_STATUS.TRIAL v.trial
  let s := s.set Reg.XSPI_UPD_STATUS.TRIAL_N v.trialN
  s.onlyIf v.trial fun s =>
    (jAppend s { type := JType.START, arg := v.trialN + 1 }).set Reg.XSPI_UPD_STATUS.TRIAL_N (v.trialN + 1)

/-- BOOT_ROM_DONE (R54, R59, R622, R630, R638, R706): the self-test that failed, LP4X training, the capacity in GiB less one, and
the straps. -/
def execBootRomDone (dt : Nat) (selfTest : Option (Fin 3)) (trained : Bool) (gib : Fin 4) (herdId : Fin 8) (s : State) :
    Result :=
  whenever dt s (fun s => powered s && decide (s.boot = Boot.BOOT_ROM)) fun s =>
    match selfTest with
    | some k => enterSafe s 0x0C 0 (k.val + 1)
    | none =>
      if !trained then s.setBoot Boot.SAFE
      else if !bootHdrOk s then enterSafe s 0x0E 0 1
      else
        let s := (s.setFlag Reg.DDRC_STATUS.TRAINED true).set Reg.DDRC_STATUS.SIZE_GIB (gib.val + 1)
        let s := s.setStart { s.start with herdId := herdId.val }
        let s := avsTo (hwmRestore (journalStart s)) (Config.avsCode % 16)
        s.setBoot Boot.LIFE_CYCLE_READ

/-- The start goes on to IMAGE_VERIFY. -/
def toVerify (s : State) : State := transition s fun s => s.setBoot Boot.IMAGE_VERIFY

/-- What a start takes up from the journal before any other check (R629, R630, R632). -/
def resumeUpdate (s : State) : State :=
  let v := jView s
  match v.swap with
  | some r => resumeSwap s r
  | none =>
    if v.trial ∧ trialStarts s < v.trialN then startRevert s UpdCause.TRIAL_EXPIRED
    else if v.commit then
      { s.setBoot Boot.UPDATE_COPY with upd := { s.upd with copying := true, commit := true } }
    else s.setBoot Boot.IMAGE_VERIFY

/-- LIFE_CYCLE_READ_DONE (R54, R60, R61, R524, R553, R555): the OTP is sensed; BLANK and END halt here. -/
def execLifeCycleReadDone (dt : Nat) (s : State) : Result :=
  whenever dt s (fun s => powered s && decide (s.boot = Boot.LIFE_CYCLE_READ) && !s.keys.sensed) fun s =>
    let s := senseOtp s
    let lc := otpLc s
    let s := s.setKeys { s.keys with sensed := true, lc := lc }
    let s := gooseSettings (drawNonce (s.setFlag Reg.KEYS_STATUS.DEBUG (decide (lc ≤ 1))))
    if lc = 0 ∨ lc = 5 then s else transition s resumeUpdate

/-! Refusals (R48, R71, R78). -/

/-- CONFIG_REFUSED is written, and SYS_BOOT_STATUS tells the same (R76, R78, R746). -/
def reportBreach (s : State) (b : Breach) (staged : Bool) : State :=
  let s := (s.set Reg.SYS_BOOT_STATUS.REASON b.code).set Reg.SYS_BOOT_STATUS.SECTION b.sect
  let s := (s.set Reg.SYS_BOOT_STATUS.ITEM b.item).setFlag Reg.SYS_BOOT_STATUS.ITEM_HI (bit b.item 16)
  s.event Ev.CONFIG_REFUSED Block.SYS
    (at' b.code 16 32 + at' b.sect 8 24 + at' (b2n staged) 1 23 + at' (b2n (bit b.item 16)) 1 16 + at' b.item 16 0)

/-- CONFIG fails: the start ends. -/
def refuseConfig (s : State) (b : Breach) : State := (reportBreach s b false).setBoot Boot.CONFIG_REFUSED

/-- CONFIG_STAGED fails: it is rejected for good (R71 step 2, R626), and a trial is reverted (R631). `next` verifies CONFIG. -/
def rejectStaged (s : State) (b : Breach) (next : State → State) : State :=
  let s := (reportBreach s b true).setFlag Reg.SYS_BOOT_STATUS.STAGED_REJ true
  let s := jAppend s { type := JType.CFG_REJECT, arg := imgSeq s Region.CONFIG_STAGED }
  let s := s.setFlag Reg.XSPI_UPD_STATUS.PENDING false
  let s := s.setStart { s.start with image := Region.CONFIG }
  if s.flag Reg.XSPI_UPD_STATUS.TRIAL then startRevert s UpdCause.ADMIT_FAIL else next s

/-! MIGRATE (R635). -/

/-- A field of the CORE_IMAGES header of the image in force. -/
def coresField (s : State) (off n : Nat) : Nat := field s.start.cores off n

/-- Entry to ADMIT: the key ladder runs and the Sheepdog starts (R61, R531, R596). -/
def enterAdmit (s : State) : State :=
  transition s fun s =>
    let s := (runLadder s).setBoot Boot.ADMIT
    match coreEntry s 4 with
    | none => s
    | some e => s.emit (.coreStart 4 e)

/-- The slot of the settings record that a migration starts from, if one is needed. -/
def migrateFrom (s : State) : Option Nat :=
  if stagedImage s ∧ s.flag Reg.XSPI_UPD_STATUS.TRIAL ∧ (jView s).migrated = none then
    match currentSettings s with
    | none => none
    | some k => if settingsFormat s k = coresField s 2 2 then none else some k
  else none

/-- What follows a verified image and an exchange, if one was needed. -/
def afterCopy (s : State) : State :=
  let s := s.setKeys { s.keys with meas := measOf s s.start.image }
  let s := s.setStart { s.start with cores := coresOf s s.start.image, secVer := leNat (s.flash (s.start.image + 0x21) 1) }
  let s := loadTcm s s.start.image
  match migrateFrom s with
  | none => enterAdmit s
  | some k =>
    let entry := coresField s 0x10 8
    if entry = 0 then startRevert s UpdCause.MIGRATE_FAIL
    else
      transition s fun s =>
        let s := (loadCores s s.start.image).setBoot Boot.MIGRATE
        let s := { s with upd := { s.upd with migTick := s.tick, migSlot := 1 - k } }
        s.emit (.migrate entry (0x800000000 + Region.SETTINGS k) (1 - k) (coresField s 2 2))

/-- MIGRATION_ECALL (R635): step 3, or a revert. -/
def execMigrationEcall (dt : Nat) (a0 : Word) (s : State) : Result :=
  whenever dt s (fun s => decide (s.boot = Boot.MIGRATE)) fun s =>
    let k := s.upd.migSlot
    if a0.toNat = 0 ∧ currentSettings s = some k ∧ settingsFormat s k = coresField s 2 2 then
      enterAdmit (jAppend s { type := JType.MIGRATED, arg := k })
    else startRevert s UpdCause.MIGRATE_FAIL

/-- MIGRATION_TIMEOUT and MIGRATION_TRAP (R635). -/
def execMigrationTimeout (dt : Nat) (s : State) : Result :=
  whenever dt s (fun s => decide (s.boot = Boot.MIGRATE) && s.elapsedSec s.upd.migTick (coresField s 4 2)) fun s =>
    startRevert s UpdCause.MIGRATE_FAIL
def execMigrationTrap (dt : Nat) (s : State) : Result :=
  whenever dt s (fun s => decide (s.boot = Boot.MIGRATE)) fun s => startRevert s UpdCause.MIGRATE_FAIL

/-! IMAGE_VERIFY (R71, R626). -/

/-- PENDING at a start: a foreign CONFIG_STAGED ends it, a refusal condition passes CONFIG_STAGED over. -/
def pendingChecks (s : State) : State :=
  if !s.flag Reg.XSPI_UPD_STATUS.PENDING then s
  else if (jView s).staged.map (·.arg) ≠ some (imgSeq s Region.CONFIG_STAGED) then
    s.setFlag Reg.XSPI_UPD_STATUS.PENDING false
  else
    let c := startRefusal s
    if c = 0 then s
    else { updateRefused s c true false with upd := { s.upd with passStaged := true } }

/-- The copy of CONFIG_STAGED into CONFIG was cut short (R72): its last CFG_COPY record is not that of the last block, or that
block was not finished, so that CONFIG holds no signed image. -/
def copyUnfinished (s : State) : Bool :=
  match (jView s).copy with
  | none => false
  | some r => decide (r.arg = imgSeq s Region.CONFIG_STAGED) &&
      (decide (r.block + 1 < cfgBlocks) || !(headerOk s Region.CONFIG && signatureOk s Region.CONFIG))

/-- R71 step 1, with R72: before the copy commits every start runs from CONFIG_STAGED, though CONFIG may show its IMAGE_SEQ
already. -/
def stagedCandidate (s : State) : Bool :=
  let q := imgSeq s Region.CONFIG_STAGED
  !s.upd.passStaged && headerOk s Region.CONFIG_STAGED &&
    (later 32 q (imgSeq s Region.CONFIG) || copyUnfinished s) && !(jView s).rejected.contains q

/-- CONFIG is verified. -/
def verifyConfig (s : State) : State :=
  let s := s.setStart { s.start with image := Region.CONFIG }
  match verifyImage s Region.CONFIG Region.ACTIVE with
  | some b => refuseConfig s b
  | none => afterCopy s

/-- IMAGE_VERIFY_DONE (R54, R71, R626): the image is chosen, and its start goes on in UPDATE_COPY, MIGRATE or ADMIT. -/
def execImageVerifyDone (dt : Nat) (s : State) : Result :=
  whenever dt s (fun s => decide (s.boot = Boot.IMAGE_VERIFY)) fun s =>
    let s := pendingChecks s
    if !stagedCandidate s then verifyConfig s
    else
      let pending := s.flag Reg.XSPI_UPD_STATUS.PENDING
      match verifyImage s Region.CONFIG_STAGED (if pending then Region.STAGING else Region.ACTIVE) with
      | some b => rejectStaged s b verifyConfig
      | none =>
        let s := s.setStart { s.start with image := Region.CONFIG_STAGED }
        if pending then
          transition s fun s => (swapBegin s { block := 0, phase := 0, back := false }).setBoot Boot.UPDATE_COPY
        else afterCopy s

/-! UPDATE_COPY (R627 to R632). -/

/-- The exchange goes on, or has ended. -/
def swapOn (s : State) (w : Swap) : State :=
  match swapNext s w with
  | some n => swapBegin s n
  | none =>
    if w.back then toVerify ((swapBackEnd s).setStart { s.start with image := Region.CONFIG })
    else
      let s := swapForwardEnd s
      if !stagedImage s then toVerify s
      else match digestBreach s Region.ACTIVE (coresOf s s.start.image) with
        | some b => rejectStaged s b toVerify
        | none => afterCopy s

/-- SWAP_PHASE_DONE (R628, R629): `verifyOk` is the margin read. A second mismatch ends the start in SAFE. -/
def execSwapPhaseDone (dt : Nat) (verifyOk : Bool) (s : State) : Result :=
  whenever dt s (fun s => decide (s.boot = Boot.UPDATE_COPY)) fun s =>
    match s.upd.swap with
    | none => s
    | some w =>
      let r := swapRanges w.block w.phase
      if verifyOk then swapOn (flashCopy s r.1 r.2 65536) w
      else
        let s := flashTorn s r.2 65536
        if w.again then enterSafe s 0x0E 0 2 else { s with upd := { s.upd with swap := some { w with again := true } } }

/-- STAGED_CONFIG_COPY_DONE (R72, R632): a COMMIT found unfinished is completed in UPDATE_COPY, or the copy of R72 ends in
RUN. -/
def execStagedConfigCopyDone (dt : Nat) (s : State) : Result :=
  whenever dt s (fun s => s.upd.copying) fun s =>
    let commit := s.upd.commit
    let v := jView s
    let first := ((v.copy.map (·.block)).getD 0)
    let s := { s with upd := { s.upd with copying := false, commit := false } }
    if commit then
      let s := if v.released then s else cfgCopy s first (cfgBlocks - first)
      toVerify (commitTail s true)
    else cfgCopy s 0 cfgBlocks

/-! ADMIT (R73 to R77). -/

/-- The payload of a section, empty when it is absent. -/
def sectOr (im : Sections) (t : Nat) : List Byte := (sectionOf im t).getD []

/-- Load an optional section. -/
def loadOpt (im : Sections) (t : Nat) (load : List Byte → State → State) (s : State) : State :=
  match sectionOf im t with
  | none => s
  | some p => load p s

/-- Sections 0x01 to 0x07. -/
def loadTraffic (im : Sections) (s : State) : State :=
  let s := radioLoad (sectOr im 2) (profileLoad (sectOr im 1) s)
  let s := tenantsLoad (sectOr im 4) (loadOpt im 3 scheduleLoad s)
  loadOpt im 7 prefixesLoad (loadOpt im 6 policersLoad (loadOpt im 5 shapersLoad s))

/-- Every section but KEYS_WRAPPED. -/
def loadTables (im : Sections) (s : State) : State :=
  let s := loadOpt im 0xA pairLoad (herdLoad (sectOr im 9) (loadTraffic im s))
  let s := icuLoad (sectOr im 0xC) (safetyLoad (sectOr im 0xB) s)
  timeLoad (sectOr im 0xE) (coresLoad (sectOr im 0xD) s)

/-- OTP_EXHAUSTED (R75, R76): the configuration requires more owner or settings generations than are left EMPTY. Which
configurations require one, and the SECTION and ITEM, no rule says: they are free. -/
def otpAdmit (s : State) (im : Sections) : Option Breach :=
  let need := Config.requiredGens im
  if gensLeft s ownerGens < need.owner ∨ gensLeft s settingsGens < need.settings then
    some { code := 0x0212, sect := need.sect % 256, item := need.item % 2 ^ 17 }
  else none

/-- The checks of ADMIT, section by section (R74), with the image loaded tentatively into `t`. -/
def admitBreach (im : Sections) (t : State) : Option Breach :=
  let opt := fun n (check : List Byte → Option Breach) => (sectionOf im n).bind check
  firstBreach [
    profileAdmit Config.gradeXC (sectOr im 1),
    radioAdmit (sectOr im 2),
    opt 3 (scheduleAdmit t),
    opt 5 fun _ => shapersAdmit t,
    opt 6 policersAdmit,
    opt 7 prefixesAdmit,
    match sectionOf im 8 with
    | some p => keysAdmit t p
    | none => kekAdmit t,
    herdAdmit im t (sectOr im 9),
    opt 0xA pairAdmit,
    safetyAdmit im (sectOr im 0xB),
    coresAdmit t (sectOr im 0xD),
    timeAdmit (sectOr im 0xE),
    otpAdmit t im]

/-- The blocks that ADMIT locks and that no single section owns (R177, R216, R237, R286, R313, R351, R369, R403, R433, R703). -/
def lockBlocks (s : State) : State :=
  ([Block.CRYPTO, Block.OX, Block.MAC, Block.FWD, Block.SCHED, Block.QMGR, Block.PERF] : List Nat).foldl
    (fun s b => s.setFlag (Reg.LOCK b) true) s

/-- ADMIT passes: the tables are loaded and locked, and CALIBRATE begins (R73, R653). -/
def admitPass (im : Sections) (t : State) : State :=
  let s := lockBlocks (loadOpt im 8 keysLoad t)
  let s := { s with loaded := im.map Prod.fst }
  let s := s.setStart { s.start with waiveFirst := bit (field (sectOr im 0xE) 0 1) 1, calPhase := 0 }
  let s := s.setFlag Reg.SYS_BOOT_STATUS.CFG_SRC (stagedImage s)
  let s := s.onlyIf s.isMaster fun s => s.setFlag Reg.HERD_STATUS.REPL_SYNC true
  let s := { s with safe := { s.safe with scrubCrc := scrubCrc s } }
  s.setBoot Boot.CALIBRATE

/-- ADMIT_DONE (R73, R74, R71): nothing is loaded until every check has passed. -/
def execAdmitDone (dt : Nat) (s : State) : Result :=
  whenever dt s (fun s => decide (s.boot = Boot.ADMIT)) fun s =>
    let im := imagePayloads s s.start.image
    let t := loadTables im s
    match admitBreach im t with
    | none => admitPass im t
    | some b => if stagedImage s then rejectStaged s b (fun s => s.setBoot Boot.IMAGE_VERIFY) else refuseConfig s b

end Sys2Proof.Machine
end

