-- ==== Sys2Proof/Machine/Calibrate.lean ====
section
/-!
DEFINITION. CALIBRATE and entry to RUN (R57, R72, R80 to R83, and what other rules say of that moment).
-/

namespace Sys2Proof.Machine

/-- ENABLE of a front end in the admitted image (R133): 0 off, 1 receive, 2 receive and transmit. -/
def feEnable (s : State) (fe : Nat) : Nat := s.start.enable / 4 ^ fe % 4

/-! Losses (R82, R83). -/

/-- Something that the admitted configuration uses is lost; the lowest front end concerned is kept. -/
def lose (s : State) (fe : Nat) : State :=
  s.setStart { s.start with lost := some (min fe (s.start.lost.getD fe)) }

/-- Phase A: every failed calibration is reported, and its front end leaves service once. -/
def phaseA (s : State) (failed : List (Nat × Nat)) : State :=
  let bad := failed.filter fun f => decide (f.1 < 3 ∧ 1 ≤ f.2 ∧ f.2 ≤ 3)
  let s := bad.foldl (fun s f => calFail s f.1 f.2 0) s
  ([0, 1, 2] : List Nat).foldl (fun s fe =>
    if bad.any fun f => decide (f.1 = fe) then
      let s := (feOut s fe).setStart { s.start with feOut := s.start.feOut ++ [fe] }
      s.onlyIf (decide (feEnable s fe ≠ 0)) fun s => lose s fe
    else s) s

/-- Phase B: the transmit tables, the reader's tuning and the Lamb's threshold. -/
def phaseB (s : State) (failed : List (Nat × Nat)) (tune : Option Nat) (amp phase : Int) (lamb : Option Nat) : State :=
  let s := ([0, 1, 2] : List Nat).foldl (fun s fe =>
    (List.range (s.fe fe).used).foldl (fun s i =>
      if failed.contains (fe, i) then refreshCal (calFail s fe 4 i) fe else calValid s fe i) s) s
  let s := match tune with
    | none => calFail s 3 6 0
    | some code =>
      let s := (s.setFlag Reg.NFC_STATUS.READY true).set Reg.NFC_STATUS.TUNE code
      s.setNfc { s.nfc with baseAmp := amp * 65536, basePhase := phase * 65536 }
  match lamb with
  | none => (calFail s 3 7 0).setFlag Reg.LAMB_CTRL.CAL_OK false
  | some t => (s.setFlag Reg.LAMB_CTRL.CAL_OK true).set Reg.LAMB_CTRL.THRESH t

/-- Phase C: a chain whose DPD training fails keeps one carrier. -/
def phaseC (s : State) (failed : List Nat) : State :=
  ([0, 1] : List Nat).foldl (fun s fe =>
    if failed.contains fe then
      let used := decide (feEnable s fe = 2 ∧ 1 < s.get (Reg.FE_TX_CTRL.MAX_CARRIERS fe))
      (dpdFail (calFail s fe 5 0) fe).onlyIf used fun s => lose s fe
    else s) s

/-- Does a lane serve an enabled front end? -/
def laneUsed (s : State) (n : Nat) : Bool :=
  if n < 256 then decide (feEnable s 0 ≠ 0 ∨ feEnable s 1 ≠ 0) else decide (feEnable s 2 ≠ 0)

/-- Phase D: a lane whose injection fails is excluded. -/
def phaseD (s : State) (failed : List Nat) : State :=
  (failed.filter fun n => decide (n < 288)).foldl (fun s n =>
    let s := calFail (excludeLane s n) 3 8 n
    s.onlyIf (laneUsed s n) fun s => lose s (if n < 256 then 0 else 2)) s

/-! Undoing an admission (R71 step 2, R73). -/

/-- Blocks that ADMIT leaves alone: SYS, KEYS, GOOSE, NFC, LAMB, HEALTH, XSPI, DDRC, PCIE and IO. -/
def keptBlock (key : Nat) : Bool :=
  ([0, 2, 4, 0x11, 0x12, 0x14, 0x16, 0x17, 0x18, 0x19] : List Nat).contains (key / 64 / 0x10000)

/-- Nothing that was admitted remains in effect. -/
def unload (s : State) : State :=
  let mon := s.get Reg.SAFE_MON_STATUS.MON
  let own := ([Reg.HEALTH_CFG.WARN_DAYS, Reg.HEALTH_CFG.VBAT_WAKE_MIN, Reg.HEALTH_CFG.OUT_DEBOUNCE_MS, Reg.HEALTH_CFG.OUTAGE_EN,
    Reg.HEALTH_CFG.AMB_MAX, Reg.HEALTH_STATUS.PROFILE, Reg.LOCK Block.HEALTH] : List Fld).map Fld.key
  let fields := s.fields.filter fun e => keptBlock e.1 && !own.contains e.1
  let s := { s with
    fields := fields, fe0 := { die := s.fe0.die }, fe1 := { die := s.fe1.die }, fe2 := { die := s.fe2.die }
    hear := {}, ox := {}, up := [], tables := {}, crypto := { slotKeys := s.crypto.slotKeys }, down := [], q := {}, sched := {}
    mac := {}, lease := {}, sau := {}, loaded := [], wire := {}, perf := {}, icu := {}, safe := {} }
  let s := s.setStart { s.start with enable := 0, feOut := [], lost := none, calPhase := 0, waiveFirst := false }
  (s.set Reg.SAFE_MON_STATUS.MON mon).setFlag Reg.SYS_BOOT_STATUS.CFG_SRC false

/-- Re-admission fails (R83). -/
def calLoss (s : State) (fe : Nat) : State :=
  let b : Breach := { code := 0x0301, sect := 0x02, item := fe }
  if stagedImage s then unload (rejectStaged s b fun s => s.setBoot Boot.IMAGE_VERIFY) else refuseConfig (unload s) b

/-! Entry to RUN. -/

/-- Service and receive synthesisers (R82). -/
def runFe (s : State) (fe : Nat) : State :=
  let out := s.start.feOut.contains fe
  let rx := decide (feEnable s fe ≠ 0) && !out
  let tx := decide (feEnable s fe = 2) && !out
  let s := s.resuming fe fun s => s.setFlag (Reg.FE_STATUS.RX_IN_SERVICE fe) rx
  let s := s.setFlag (Reg.FE_STATUS.TX_IN_SERVICE fe) tx
  s.setFlag (Reg.FE_STATUS.RX_LOCK fe) rx

/-- PRESET_MS and the airtime of DPD training (R81, R420), which no rule fixes but for its longest time (R80). -/
def runDuty (s : State) : State :=
  s.hear.subbands.foldl (fun s b =>
    let s := dutyDebit s b.index (s.get (Reg.SCHED_DUTY_CFG.PRESET_MS b.index) * 1000)
    if b.fe ≤ 1 ∧ feEnable s b.fe = 2 then
      let a := s.free % 480001
      dutyDebit s.drawn b.index a
    else s) s

/-- A detection made in OUTAGE sleep is reported (R571). -/
def runCard (s : State) : State :=
  match s.aon.card with
  | none => s
  | some c =>
    let s := { s with aon := { s.aon with card := none } }
    let s := (s.setFlag Reg.NFC_PRES_STATUS.SLEEP_WAKE true).set Reg.NFC_PRES_STATUS.AMP_DEV c.1
    (s.set Reg.NFC_PRES_STATUS.PHASE_DEV c.2).event Ev.CARD_PRESENT Block.NFC (at' c.1 16 32 + at' c.2 16 16 + at' 1 1 15)

/-- The application cores start at their entry points (R596, R597). -/
def runCores (s : State) : State :=
  (List.range 4).foldl (fun s c =>
    match coreEntry s c with
    | none => s
    | some e => (s.set (Reg.ICU_CORE_PWR.STATE c) 0).emit (.coreStart c e)) (loadCores s s.start.image)

/-- The time base and the beacon source (R441, R449). -/
def runSources (s : State) : State :=
  let s := s.onlyIf s.start.waiveFirst waiveStep
  let s := s.setMac { s.mac with tsrcNs := s.time.ns }
  s.onlyIf (tsrcOn s) fun s => qualify s clsEB

/-- The Herd, the pair, the sweeper and the watchdogs take their starting points (R491, R494, R505, R658, R737). -/
def runClocks (s : State) : State :=
  let far := decide (s.members - s.herdId < s.herdId)
  let s := s.setFlag Reg.HERD_STATUS.TIME_DIR far
  let s := { s with wire := { s.wire with seekBase := nvValue s NvKind.FSEQ % 65536, seek := [], timeHeard := s.tick } }
  let s := { s with lease := { s.lease with runNs := s.time.ns } }
  let s := { s with safe := { s.safe with wdTick := s.tick, wdKicked := false, appTick := s.tick } }
  restartSweep s

/-- The profile and the hearing mode in force (R168, R672, R685). -/
def runHear (s : State) : State :=
  if s.flag Reg.HEALTH_CFG.OUTAGE_EN ∧ !s.health.mains then
    rehear s fun s => (s.set Reg.HEALTH_STATUS.PROFILE 3).set Reg.CHAN_STATUS.MODE modeWIDE
  else rehear s fun s => s.set Reg.CHAN_STATUS.MODE (s.get Reg.CHAN_HEAR_CTRL.BASE)

/-- The copy of R72 begins. -/
def runCopy (s : State) : State :=
  let busy := s.flag Reg.XSPI_UPD_STATUS.TRIAL || s.flag Reg.XSPI_UPD_STATUS.PENDING
  s.onlyIf (stagedImage s && !busy) fun s =>
    { cfgCopyRec s 0 with upd := { s.upd with copying := true, commit := false } }

/-- ENTER_RUN (R57). -/
def enterRun (s : State) : State :=
  let s := (s.setBoot Boot.RUN).emit (.pin .safeN true)
  let s := runFe (runFe (runFe s 0) 1) 2
  let s := runDuty (runClocks (runSources (runHear s)))
  let s := restoreLog (tamperEvents (runCard s) fun _ => true)
  runCopy (runCores s)

/-! CALIBRATE_PHASE_DONE (R80). -/

/-- The phases have ended: re-admission, if something in use is lost (R83). -/
def calibrated (s : State) : State :=
  match s.start.lost with
  | none => enterRun s
  | some fe =>
    match admitBreach (imagePayloads s s.start.image) s with
    | none => enterRun (s.setFlag Reg.SYS_BOOT_STATUS.CAL_REDUCED true)
    | some _ => calLoss s fe

/-- The patterns of a phase for which no rule names one (R128): any of the four. -/
def phaseFem (s : State) (phase : Nat) : State :=
  s.onlyIf (decide (2 ≤ phase)) fun s => ([0, 1, 2] : List Nat).foldl (fun s fe =>
    (s.setFe fe { s.fe fe with femOpen := s.free % 4 }).drawn) s

/-- DPD training emits on each chain that it trains (R81). -/
def phaseEmit (s : State) (phase : Nat) : State :=
  s.onlyIf (decide (phase = 2)) fun s => ([0, 1] : List Nat).foldl (fun s fe =>
    s.onlyIf (decide (feEnable s fe = 2) && !s.start.feOut.contains fe) fun s => s.emit (.training fe)) s

/-- A phase has ended. -/
def phaseEnd (s : State) (n : Nat) : State :=
  if n < 3 then phaseEmit (phaseFem (s.setStart { s.start with calPhase := n + 1 }) (n + 1)) (n + 1) else calibrated s

/-- CALIBRATE_PHASE_DONE (R80 to R83): the phases end in their order. -/
def execCalibratePhaseDone (dt : Nat) (r : CalResult) (s : State) : Result :=
  whenever dt s (fun s => decide (s.boot = Boot.CALIBRATE)) fun s =>
    match r, s.start.calPhase with
    | .phaseA l, 0 => phaseEnd (phaseA s l) 0
    | .phaseB l t a p k, 1 => phaseEnd (phaseB s l t a p k) 1
    | .phaseC l, 2 => phaseEnd (phaseC s l) 2
    | .phaseD l, 3 => phaseEnd (phaseD s l) 3
    | _, _ => s

end Sys2Proof.Machine
end

