-- ==== Sys2Proof/Machine/Flock.lean ====
section
/-!
DEFINITION. The Flock (R641 to R644): rounds of the node-firmware carousel.
-/

namespace Sys2Proof.Machine

/-- Bases of FLOCK_IMG and FLOCK_MAP (R647). -/
def flockImg (s : State) : Nat := s.get Reg.MAC_FLOCK_BASE.IMG * 2 ^ 18
def flockMap (s : State) : Nat := s.get Reg.MAC_FLOCK_BASE.MAP * 2 ^ 20

/-- LEN of a slot as it acts: 0 while EN is clear. -/
def flockLen (s : State) (slot : Nat) : Nat :=
  if s.flag (Reg.MAC_FLOCK_IMG.EN slot) then min 184320 (s.get (Reg.MAC_FLOCK_IMG.LEN slot)) else 0

/-- Fragments of a slot (R641). -/
def flockCount (s : State) (slot : Nat) : Nat := ceilDiv (flockLen s slot) 192

/-- An octet of the map entry of record `r` (R642). -/
def mapOctet (s : State) (r k : Nat) : Nat := s.ddrLE (flockMap s + 128 * r + k) 1

/-- Records whose entry names a slot. -/
def campaign (s : State) (slot : Nat) : List Nat := (List.range 262144).filter fun r => decide (mapOctet s r 0 = slot + 1)

/-- Is a fragment needed (R643)? -/
def fragNeeded (s : State) (nodes : List Nat) (f : Nat) : Bool := nodes.any fun r => !bit (mapOctet s r (8 + f / 8)) (f % 8)

/-- The Payload IE of a fragment (R644): its header gives a vendor-specific IE and the octets of its content. -/
def fragIe (s : State) (slot f : Nat) : List Byte :=
  let data := s.ddr (flockImg s + 2 ^ 18 * slot + 192 * f) (min 192 (flockLen s slot - 192 * f))
  payloadIe 2 (prebry 0x20 ++ leBytes 4 (s.get (Reg.MAC_FLOCK_IMG.IMAGE_ID slot)) ++ leBytes 4 (flockLen s slot) ++ leBytes 2 f ++
    leBytes 2 (flockCount s slot) ++ data)

/-- A fragment as a flood that waits. -/
def fragFlood (s : State) (slot f : Nat) : FloodWait :=
  let t := s.get (Reg.MAC_FLOCK_IMG.TENANT slot)
  let fes := ([0, 1, 2] : List Nat).filter fun fe => bit (s.get (Reg.MAC_FLOCK_IMG.FE_MASK slot)) fe
  let ie := fragIe s slot f
  { queues := fes.map fun fe => 2048 * fe + 8 * t + 7, flock := some (1024 * slot + f)
    pkt := { cls := 7, tenant := t, data := ie, dst := .short 0xFFFF, ies := true } }

/-- The fragments of a round, in their order. -/
def flockRound (s : State) : List FloodWait :=
  (List.range 16).flatMap fun slot =>
    let nodes := campaign s slot
    ((List.range (flockCount s slot)).filter (fragNeeded s nodes)).map (fragFlood s slot)

/-- ROUND_GAP_S has passed since the last round. -/
def gapOver (s : State) : Bool :=
  match s.flock.endTick with
  | none => true
  | some t => s.elapsedSec t (max 1 (s.get Reg.MAC_FLOCK_CTRL.ROUND_GAP_S))

/-- FLOCK_ROUND_START (R643): the map is read, and the needed fragments wait for their windows. -/
def execFlockRoundStart (dt : Nat) (s : State) : Result :=
  whenever dt s (fun s => s.inRun && s.flag Reg.MAC_FLOCK_CTRL.EN && s.flag Reg.MAC_FLOCK_BASE.PRESENT &&
      !s.flag Reg.MAC_FLOCK_STATUS.ROUND_BUSY && gapOver s) fun s =>
    let l := flockRound s
    let s := s.setMac { s.mac with floods := s.mac.floods ++ l }
    s.setFlag Reg.MAC_FLOCK_STATUS.ROUND_BUSY true

/-- FLOCK_ROUND_END (R643): no fragment of the round waits any more. -/
def execFlockRoundEnd (dt : Nat) (s : State) : Result :=
  whenever dt s (fun s => s.flag Reg.MAC_FLOCK_STATUS.ROUND_BUSY && s.mac.floods.all fun w => w.flock.isNone) fun s =>
    let s := (s.setFlag Reg.MAC_FLOCK_STATUS.ROUND_BUSY false).bump Reg.MAC_FLOCK_STATUS.ROUNDS
    { s with flock := { s.flock with endTick := some s.tick } }

end Sys2Proof.Machine
end

