-- ==== Sys2Proof/Machine/Dispatch.lean ====
section
/-!
DEFINITION. Which meaning each command has.
-/

namespace Sys2Proof.Machine

def exec (i : Instr) (s : State) : Host.Outcome State Fault Refusal :=
  match i with
  | .registerWrite dt init addr bytes value bridge => Sys2Proof.Machine.execRegisterWrite dt init addr bytes value bridge s
  | .rcFieldRead dt init addr bytes bridge => Sys2Proof.Machine.execRcFieldRead dt init addr bytes bridge s
  | .blockLock dt init block value => Sys2Proof.Machine.execBlockLock dt init block value s
  | .aonShadowSync dt => Sys2Proof.Machine.execAonShadowSync dt s
  | .sysEventHeadPop dt ecc => Sys2Proof.Machine.execSysEventHeadPop dt ecc s
  | .coldPowerOn dt => Sys2Proof.Machine.execColdPowerOn dt s
  | .mainPowerOn dt => Sys2Proof.Machine.execMainPowerOn dt s
  | .brownOut dt => Sys2Proof.Machine.execBrownOut dt s
  | .systemReset dt value => Sys2Proof.Machine.execSystemReset dt value s
  | .coreReset dt value => Sys2Proof.Machine.execCoreReset dt value s
  | .jtagSystemReset dt => Sys2Proof.Machine.execJtagSystemReset dt s
  | .refclkQualified dt => Sys2Proof.Machine.execRefclkQualified dt s
  | .bootRomDone dt selfTest trained gib herdId => Sys2Proof.Machine.execBootRomDone dt selfTest trained gib herdId s
  | .lifeCycleReadDone dt => Sys2Proof.Machine.execLifeCycleReadDone dt s
  | .imageVerifyDone dt => Sys2Proof.Machine.execImageVerifyDone dt s
  | .swapPhaseDone dt verifyOk => Sys2Proof.Machine.execSwapPhaseDone dt verifyOk s
  | .migrationEcall dt a0 => Sys2Proof.Machine.execMigrationEcall dt a0 s
  | .migrationTimeout dt => Sys2Proof.Machine.execMigrationTimeout dt s
  | .admitDone dt => Sys2Proof.Machine.execAdmitDone dt s
  | .calibratePhaseDone dt r => Sys2Proof.Machine.execCalibratePhaseDone dt r s
  | .sauGo dt value => Sys2Proof.Machine.execSauGo dt value s
  | .sauCancel dt value => Sys2Proof.Machine.execSauCancel dt value s
  | .sauCheckDone dt => Sys2Proof.Machine.execSauCheckDone dt s
  | .agcStepDown dt fe clipped peak => Sys2Proof.Machine.execAgcStepDown dt fe clipped peak s
  | .agcStepUp dt fe quietMs peak => Sys2Proof.Machine.execAgcStepUp dt fe quietMs peak s
  | .txcalTempCheck dt fe die => Sys2Proof.Machine.execTxcalTempCheck dt fe die s
  | .bgCalStart dt fe => Sys2Proof.Machine.execBgCalStart dt fe s
  | .txCalDone dt fe ok => Sys2Proof.Machine.execTxCalDone dt fe ok s
  | .emissionCommit dt fe e2eOk => Sys2Proof.Machine.execEmissionCommit dt fe e2eOk s
  | .txHopStart dt fe => Sys2Proof.Machine.execTxHopStart dt fe s
  | .txLock dt fe => Sys2Proof.Machine.execTxLock dt fe s
  | .emissionStart dt fe => Sys2Proof.Machine.execEmissionStart dt fe s
  | .txDeadline dt fe => Sys2Proof.Machine.execTxDeadline dt fe s
  | .lockLost dt fe => Sys2Proof.Machine.execLockLost dt fe s
  | .emissionEnd dt fe => Sys2Proof.Machine.execEmissionEnd dt fe s
  | .blankingStart dt fe emitter => Sys2Proof.Machine.execBlankingStart dt fe emitter s
  | .blankingEnd dt fe emitter => Sys2Proof.Machine.execBlankingEnd dt fe emitter s
  | .maskWindow dt fe above => Sys2Proof.Machine.execMaskWindow dt fe above s
  | .maskResume dt fe => Sys2Proof.Machine.execMaskResume dt fe s
  | .calReqAdc dt fe => Sys2Proof.Machine.execCalReqAdc dt fe s
  | .calReqIq dt fe => Sys2Proof.Machine.execCalReqIq dt fe s
  | .calReqLoLeakage dt fe => Sys2Proof.Machine.execCalReqLoLeakage dt fe s
  | .calReqTxEntry dt fe entry => Sys2Proof.Machine.execCalReqTxEntry dt fe entry s
  | .calReqTxTable dt fe => Sys2Proof.Machine.execCalReqTxTable dt fe s
  | .calReqDpd dt fe => Sys2Proof.Machine.execCalReqDpd dt fe s
  | .reqCalDone dt fe ok => Sys2Proof.Machine.execReqCalDone dt fe ok s
  | .detection dt ds => Sys2Proof.Machine.execDetection dt ds s
  | .rsvWindowEnd dt cell => Sys2Proof.Machine.execRsvWindowEnd dt cell s
  | .pendingReservationServed dt => Sys2Proof.Machine.execPendingReservationServed dt s
  | .syncFound dt lane sync m steps => Sys2Proof.Machine.execSyncFound dt lane sync m steps s
  | .acquireEnd dt lane afc power steps => Sys2Proof.Machine.execAcquireEnd dt lane afc power steps s
  | .syncTimeout dt lane => Sys2Proof.Machine.execSyncTimeout dt lane s
  | .headerDecoded dt lane h steps => Sys2Proof.Machine.execHeaderDecoded dt lane h steps s
  | .lanePayloadEnd dt lane => Sys2Proof.Machine.execLanePayloadEnd dt lane s
  | .codewordDecoded dt lane cw => Sys2Proof.Machine.execCodewordDecoded dt lane cw s
  | .laneInjectStart dt => Sys2Proof.Machine.execLaneInjectStart dt s
  | .laneInjectEnd dt lane ok => Sys2Proof.Machine.execLaneInjectEnd dt lane ok s
  | .occSample dt powers => Sys2Proof.Machine.execOccSample dt powers s
  | .hearCtrlWrite dt value => Sys2Proof.Machine.execHearCtrlWrite dt value s
  | .contextClose dt ctx samples => Sys2Proof.Machine.execContextClose dt ctx samples s
  | .cancellerTake dt => Sys2Proof.Machine.execCancellerTake dt s
  | .cancelLayerDone dt ctx e => Sys2Proof.Machine.execCancelLayerDone dt ctx e s
  | .timeslotBoundary dt errs txReq => Sys2Proof.Machine.execTimeslotBoundary dt errs txReq s
  | .tschStart dt => Sys2Proof.Machine.execTschStart dt s
  | .ccaDone dt fe bin peak peak2 => Sys2Proof.Machine.execCcaDone dt fe bin peak peak2 s
  | .lbtListenEnd dt fr peak => Sys2Proof.Machine.execLbtListenEnd dt fr peak s
  | .ackWaitEnd dt fe record => Sys2Proof.Machine.execAckWaitEnd dt fe record s
  | .tsrcBeaconMiss dt => Sys2Proof.Machine.execTsrcBeaconMiss dt s
  | .holdoverWaitExpiry dt => Sys2Proof.Machine.execHoldoverWaitExpiry dt s
  | .seenCacheVisit dt => Sys2Proof.Machine.execSeenCacheVisit dt s
  | .floodWindow dt => Sys2Proof.Machine.execFloodWindow dt s
  | .wakeRequest dt value => Sys2Proof.Machine.execWakeRequest dt value s
  | .wakeAdmit dt => Sys2Proof.Machine.execWakeAdmit dt s
  | .recordFetchDone dt id cls crossing => Sys2Proof.Machine.execRecordFetchDone dt id cls crossing s
  | .keyUnwrapDone dt record => Sys2Proof.Machine.execKeyUnwrapDone dt record s
  | .ccmJobStart dt engine => Sys2Proof.Machine.execCcmJobStart dt engine s
  | .ccmJobDone dt engine v => Sys2Proof.Machine.execCcmJobDone dt engine v s
  | .gkLoad dt value => Sys2Proof.Machine.execGkLoad dt value s
  | .gkClear dt value => Sys2Proof.Machine.execGkClear dt value s
  | .gkSetTx dt value => Sys2Proof.Machine.execGkSetTx dt value s
  | .keyCacheFlush dt value => Sys2Proof.Machine.execKeyCacheFlush dt value s
  | .hashKeyWrite dt value => Sys2Proof.Machine.execHashKeyWrite dt value s
  | .muleGo dt value => Sys2Proof.Machine.execMuleGo dt value s
  | .muleFetchBlock dt bad => Sys2Proof.Machine.execMuleFetchBlock dt bad s
  | .readBucket dt => Sys2Proof.Machine.execReadBucket dt s
  | .writeBucket dt => Sys2Proof.Machine.execWriteBucket dt s
  | .lockPair dt => Sys2Proof.Machine.execLockPair dt s
  | .relocate dt => Sys2Proof.Machine.execRelocate dt s
  | .unlock dt => Sys2Proof.Machine.execUnlock dt s
  | .writeShort dt => Sys2Proof.Machine.execWriteShort dt s
  | .writeRecord dt memErr => Sys2Proof.Machine.execWriteRecord dt memErr s
  | .trieNode dt memErr => Sys2Proof.Machine.execTrieNode dt memErr s
  | .trieEntry dt => Sys2Proof.Machine.execTrieEntry dt s
  | .trieFill dt => Sys2Proof.Machine.execTrieFill dt s
  | .trieResult dt => Sys2Proof.Machine.execTrieResult dt s
  | .muleLockMax dt => Sys2Proof.Machine.execMuleLockMax dt s
  | .fwdMuleDonePop dt ecc => Sys2Proof.Machine.execFwdMuleDonePop dt ecc s
  | .sweepVisit dt => Sys2Proof.Machine.execSweepVisit dt s
  | .sweepCtrlWrite dt value => Sys2Proof.Machine.execSweepCtrlWrite dt value s
  | .fwdLearnWordPop dt ecc => Sys2Proof.Machine.execFwdLearnWordPop dt ecc s
  | .trieTestLookup dt value => Sys2Proof.Machine.execTrieTestLookup dt value s
  | .cellReclaim dt => Sys2Proof.Machine.execCellReclaim dt s
  | .fifoDropRest dt value => Sys2Proof.Machine.execFifoDropRest dt value s
  | .mboxRxMove dt core err => Sys2Proof.Machine.execMboxRxMove dt core err s
  | .mboxRxPop dt n ecc => Sys2Proof.Machine.execMboxRxPop dt n ecc s
  | .mboxTxPush dt n value => Sys2Proof.Machine.execMboxTxPush dt n value s
  | .mboxTxLast dt n value poison => Sys2Proof.Machine.execMboxTxLast dt n value poison s
  | .wiredRelease dt port err crossing => Sys2Proof.Machine.execWiredRelease dt port err crossing s
  | .wheelDue dt bucket => Sys2Proof.Machine.execWheelDue dt bucket s
  | .dutySecond dt => Sys2Proof.Machine.execDutySecond dt s
  | .policerCfgWrite dt reg value => Sys2Proof.Machine.execPolicerCfgWrite dt reg value s
  | .alarmFire dt n => Sys2Proof.Machine.execAlarmFire dt n s
  | .timeStepRequest dt value => Sys2Proof.Machine.execTimeStepRequest dt value s
  | .timeWaive dt => Sys2Proof.Machine.execTimeWaive dt s
  | .slewDone dt => Sys2Proof.Machine.execSlewDone dt s
  | .ptpSample dt theta => Sys2Proof.Machine.execPtpSample dt theta s
  | .ptpTimeout dt => Sys2Proof.Machine.execPtpTimeout dt s
  | .sourceRevert dt => Sys2Proof.Machine.execSourceRevert dt s
  | .ppsEdge dt => Sys2Proof.Machine.execPpsEdge dt s
  | .ppsMiss dt => Sys2Proof.Machine.execPpsMiss dt s
  | .ppsOutRise dt => Sys2Proof.Machine.execPpsOutRise dt s
  | .ppsOutFall dt => Sys2Proof.Machine.execPpsOutFall dt s
  | .timeTsWordPop dt => Sys2Proof.Machine.execTimeTsWordPop dt s
  | .ethFrameReceive dt port octets fcsOk cls crossing => Sys2Proof.Machine.execEthFrameReceive dt port octets fcsOk cls crossing s
  | .prpEntryExpire dt => Sys2Proof.Machine.execPrpEntryExpire dt s
  | .ethLinkChange dt port up => Sys2Proof.Machine.execEthLinkChange dt port up s
  | .mgmtFrameReceive dt octets cls crossing => Sys2Proof.Machine.execMgmtFrameReceive dt octets cls crossing s
  | .mgmtTxPush dt value => Sys2Proof.Machine.execMgmtTxPush dt value s
  | .mgmtTxLast dt value => Sys2Proof.Machine.execMgmtTxLast dt value s
  | .mdioGo dt value => Sys2Proof.Machine.execMdioGo dt value s
  | .mdioDone dt data => Sys2Proof.Machine.execMdioDone dt data s
  | .pcieLinkTrain dt lanes speed msi => Sys2Proof.Machine.execPcieLinkTrain dt lanes speed msi s
  | .pcieRequest dt bar ofs req bridge => Sys2Proof.Machine.execPcieRequest dt bar ofs req bridge s
  | .msiRequest dt value => Sys2Proof.Machine.execMsiRequest dt value s
  | .herdFrameReceive dt port f crcOk residence crossing => Sys2Proof.Machine.execHerdFrameReceive dt port f crcOk residence crossing s
  | .helloTx dt port => Sys2Proof.Machine.execHelloTx dt port s
  | .helloTimeout dt port => Sys2Proof.Machine.execHelloTimeout dt port s
  | .herdPcsLoss dt port => Sys2Proof.Machine.execHerdPcsLoss dt port s
  | .herdFullCopy dt member => Sys2Proof.Machine.execHerdFullCopy dt member s
  | .herdCopyDone dt words hops => Sys2Proof.Machine.execHerdCopyDone dt words hops s
  | .herdTimeTx dt => Sys2Proof.Machine.execHerdTimeTx dt s
  | .herdDelayExchange dt port t1 t2 t3 t4 => Sys2Proof.Machine.execHerdDelayExchange dt port t1 t2 t3 t4 s
  | .herdTimeDirSwitch dt => Sys2Proof.Machine.execHerdTimeDirSwitch dt s
  | .leaseFrameReceive dt port payload => Sys2Proof.Machine.execLeaseFrameReceive dt port payload s
  | .leaseRenewTx dt => Sys2Proof.Machine.execLeaseRenewTx dt s
  | .leaseExpire dt => Sys2Proof.Machine.execLeaseExpire dt s
  | .leaseClaim dt => Sys2Proof.Machine.execLeaseClaim dt s
  | .drill dt value => Sys2Proof.Machine.execDrill dt value s
  | .drillHour dt => Sys2Proof.Machine.execDrillHour dt s
  | .drillAcceptTimeout dt => Sys2Proof.Machine.execDrillAcceptTimeout dt s
  | .syncDone dt value => Sys2Proof.Machine.execSyncDone dt value s
  | .keyUpdate dt init => Sys2Proof.Machine.execKeyUpdate dt init s
  | .lcAdvance dt init => Sys2Proof.Machine.execLcAdvance dt init s
  | .debugUnlock dt init => Sys2Proof.Machine.execDebugUnlock dt init s
  | .importKeys dt init => Sys2Proof.Machine.execImportKeys dt init s
  | .exportKeys dt init => Sys2Proof.Machine.execExportKeys dt init s
  | .gooseClear dt init => Sys2Proof.Machine.execGooseClear dt init s
  | .updateLock dt init => Sys2Proof.Machine.execUpdateLock dt init s
  | .settings dt init => Sys2Proof.Machine.execSettings dt init s
  | .attest dt init => Sys2Proof.Machine.execAttest dt init s
  | .derive dt init => Sys2Proof.Machine.execDerive dt init s
  | .clearSlot dt init slot => Sys2Proof.Machine.execClearSlot dt init slot s
  | .arbAdvance dt init level => Sys2Proof.Machine.execArbAdvance dt init level s
  | .seal dt init => Sys2Proof.Machine.execSeal dt init s
  | .openBlob dt init => Sys2Proof.Machine.execOpenBlob dt init s
  | .reladder dt init => Sys2Proof.Machine.execReladder dt init s
  | .provision dt init => Sys2Proof.Machine.execProvision dt init s
  | .ownerInit dt init => Sys2Proof.Machine.execOwnerInit dt init s
  | .keysOpDone dt marginOk holds => Sys2Proof.Machine.execKeysOpDone dt marginOk holds s
  | .resultAck dt value => Sys2Proof.Machine.execResultAck dt value s
  | .gooseLatch dt src => Sys2Proof.Machine.execGooseLatch dt src s
  | .fieldOnRequest dt value extField => Sys2Proof.Machine.execFieldOnRequest dt value extField s
  | .fieldOffRequest dt value => Sys2Proof.Machine.execFieldOffRequest dt value s
  | .transceive dt value => Sys2Proof.Machine.execTransceive dt value s
  | .transceiveDone dt answer => Sys2Proof.Machine.execTransceiveDone dt answer s
  | .anticollision dt value => Sys2Proof.Machine.execAnticollision dt value s
  | .anticollisionDone dt typeA typeV => Sys2Proof.Machine.execAnticollisionDone dt typeA typeV s
  | .originalityCheck dt value => Sys2Proof.Machine.execOriginalityCheck dt value s
  | .originalityDone dt => Sys2Proof.Machine.execOriginalityDone dt s
  | .presencePing dt amp phase extField => Sys2Proof.Machine.execPresencePing dt amp phase extField s
  | .emuSessionStart dt vddNfc => Sys2Proof.Machine.execEmuSessionStart dt vddNfc s
  | .emuSessionEnd dt => Sys2Proof.Machine.execEmuSessionEnd dt s
  | .emuReqa dt => Sys2Proof.Machine.execEmuReqa dt s
  | .emuWupa dt => Sys2Proof.Machine.execEmuWupa dt s
  | .emuAnticollision dt level known => Sys2Proof.Machine.execEmuAnticollision dt level known s
  | .emuSelectTag dt level octets => Sys2Proof.Machine.execEmuSelectTag dt level octets s
  | .emuRats dt param ready => Sys2Proof.Machine.execEmuRats dt param ready s
  | .emuSelect dt byName data lastBit ready => Sys2Proof.Machine.execEmuSelect dt byName data lastBit ready s
  | .emuReadBinary dt ofs le lastBit ready => Sys2Proof.Machine.execEmuReadBinary dt ofs le lastBit ready s
  | .emuUpdateBinary dt ofs data energy lastBit ready => Sys2Proof.Machine.execEmuUpdateBinary dt ofs data energy lastBit ready s
  | .emuIncrement dt counter energy lastBit ready => Sys2Proof.Machine.execEmuIncrement dt counter energy lastBit ready s
  | .fwmReadRecord dt value => Sys2Proof.Machine.execFwmReadRecord dt value s
  | .fwmWriteRecord dt value => Sys2Proof.Machine.execFwmWriteRecord dt value s
  | .fwmReadCounters dt value => Sys2Proof.Machine.execFwmReadCounters dt value s
  | .fwmIncrement dt value => Sys2Proof.Machine.execFwmIncrement dt value s
  | .fwmReadPage0 dt value => Sys2Proof.Machine.execFwmReadPage0 dt value s
  | .fwmProvision dt value => Sys2Proof.Machine.execFwmProvision dt value s
  | .fwmOpStart dt => Sys2Proof.Machine.execFwmOpStart dt s
  | .fwmOpDone dt failed => Sys2Proof.Machine.execFwmOpDone dt failed s
  | .icuSourceEvent dt n => Sys2Proof.Machine.execIcuSourceEvent dt n s
  | .pendRead dt init word => Sys2Proof.Machine.execPendRead dt init word s
  | .pendWrite dt init word value => Sys2Proof.Machine.execPendWrite dt init word value s
  | .holdExpire dt word => Sys2Proof.Machine.execHoldExpire dt word s
  | .shCfgWrite dt n value => Sys2Proof.Machine.execShCfgWrite dt n value s
  | .ipi dt init value => Sys2Proof.Machine.execIpi dt init value s
  | .coreWfi dt core => Sys2Proof.Machine.execCoreWfi dt core s
  | .coreWake dt core => Sys2Proof.Machine.execCoreWake dt core s
  | .strandTimeout dt target => Sys2Proof.Machine.execStrandTimeout dt target s
  | .xspiErase dt value => Sys2Proof.Machine.execXspiErase dt value s
  | .xspiProgram dt value => Sys2Proof.Machine.execXspiProgram dt value s
  | .xspiProgDone dt verifyOk => Sys2Proof.Machine.execXspiProgDone dt verifyOk s
  | .stage dt value => Sys2Proof.Machine.execStage dt value s
  | .commit dt value => Sys2Proof.Machine.execCommit dt value s
  | .revert dt value => Sys2Proof.Machine.execRevert dt value s
  | .updCmdDone dt marginOk => Sys2Proof.Machine.execUpdCmdDone dt marginOk s
  | .fcHwmProgrammed dt kind => Sys2Proof.Machine.execFcHwmProgrammed dt kind s
  | .flockRoundStart dt => Sys2Proof.Machine.execFlockRoundStart dt s
  | .flockRoundEnd dt => Sys2Proof.Machine.execFlockRoundEnd dt s
  | .safeCmdPush dt value => Sys2Proof.Machine.execSafeCmdPush dt value s
  | .safeCmdPushLast dt value poison => Sys2Proof.Machine.execSafeCmdPushLast dt value poison s
  | .commandDeadline dt source seq => Sys2Proof.Machine.execCommandDeadline dt source seq s
  | .loopbackBound dt fe power => Sys2Proof.Machine.execLoopbackBound dt fe power s
  | .lockstepMismatch dt => Sys2Proof.Machine.execLockstepMismatch dt s
  | .tcmScrub dt ecc => Sys2Proof.Machine.execTcmScrub dt ecc s
  | .cfgScrub dt upset => Sys2Proof.Machine.execCfgScrub dt upset s
  | .clockMonitor dt bad => Sys2Proof.Machine.execClockMonitor dt bad s
  | .voltageSample dt ok => Sys2Proof.Machine.execVoltageSample dt ok s
  | .tempSample dt tj => Sys2Proof.Machine.execTempSample dt tj s
  | .wdKick dt init value => Sys2Proof.Machine.execWdKick dt init value s
  | .wdExpire dt => Sys2Proof.Machine.execWdExpire dt s
  | .wdReset dt => Sys2Proof.Machine.execWdReset dt s
  | .appWdKick dt value => Sys2Proof.Machine.execAppWdKick dt value s
  | .appWdExpire dt => Sys2Proof.Machine.execAppWdExpire dt s
  | .safeForce dt init value => Sys2Proof.Machine.execSafeForce dt init value s
  | .safeFwDone dt init value => Sys2Proof.Machine.execSafeFwDone dt init value s
  | .safeNoticeTx dt => Sys2Proof.Machine.execSafeNoticeTx dt s
  | .throttleBoundary dt => Sys2Proof.Machine.execThrottleBoundary dt s
  | .thermalOff dt => Sys2Proof.Machine.execThermalOff dt s
  | .ageingEval dt measured => Sys2Proof.Machine.execAgeingEval dt measured s
  | .pgMainsChange dt level => Sys2Proof.Machine.execPgMainsChange dt level s
  | .outageEnter dt => Sys2Proof.Machine.execOutageEnter dt s
  | .outageExit dt => Sys2Proof.Machine.execOutageExit dt s
  | .vbatSample dt mv => Sys2Proof.Machine.execVbatSample dt mv s
  | .sleepRequest dt value => Sys2Proof.Machine.execSleepRequest dt value s
  | .outageWake dt cause => Sys2Proof.Machine.execOutageWake dt cause s
  | .lambMatch dt rx => Sys2Proof.Machine.execLambMatch dt rx s
  | .rtcWake dt => Sys2Proof.Machine.execRtcWake dt s
  | .perfSnapshot dt => Sys2Proof.Machine.execPerfSnapshot dt s
  | .uartTxPush dt n value => Sys2Proof.Machine.execUartTxPush dt n value s
  | .uartRxOctet dt n octet frameErr parErr => Sys2Proof.Machine.execUartRxOctet dt n octet frameErr parErr s
  | .uartRxPop dt n => Sys2Proof.Machine.execUartRxPop dt n s
  | .i2cGo dt n value => Sys2Proof.Machine.execI2cGo dt n value s
  | .i2cDone dt n nack data => Sys2Proof.Machine.execI2cDone dt n nack data s
  | .spiGo dt n value => Sys2Proof.Machine.execSpiGo dt n value s
  | .spiDone dt n data => Sys2Proof.Machine.execSpiDone dt n data s
  | .alwaysOnSupplyLoss dt => Sys2Proof.Machine.execAlwaysOnSupplyLoss dt s
  | .filterOutputFall dt n => Sys2Proof.Machine.execFilterOutputFall dt n s
  | .holdoverSelectionRepeat dt => Sys2Proof.Machine.execHoldoverSelectionRepeat dt s
  | .migrationTrap dt => Sys2Proof.Machine.execMigrationTrap dt s
  | .cacheUncorrectableEcc dt core => Sys2Proof.Machine.execCacheUncorrectableEcc dt core s
  | .tcmUncorrectableRead dt => Sys2Proof.Machine.execTcmUncorrectableRead dt s
  | .stagedConfigCopyDone dt => Sys2Proof.Machine.execStagedConfigCopyDone dt s
  | .emuInsNotSupported dt claOk lastBit ready => Sys2Proof.Machine.execEmuInsNotSupported dt claOk lastBit ready s

end Sys2Proof.Machine
end

