-- ==== Sys2Proof/Safety.lean ====
section
/-!
DEFINITION. The terms that claims about a run use: a command that completes, what a command leaves as it was, and what
a safe machine keeps.
-/

namespace Sys2Proof.Machine

/-- The command answers a next state, of which `post` holds. -/
def completes (i : Instr) (s : State) (post : State → Prop) : Prop := ∃ t, exec i s = .next t ∧ post t

/-- `t` is `a` but for the register fields named. -/
def onlyRegs (a t : State) (fs : List Fld) : Prop :=
  { t with fields := a.fields } = a ∧ ∀ g : Fld, (∀ f ∈ fs, g.key ≠ f.key) → t.get g = a.get g

/-- `t` is `a` but for the register fields named, and an access was answered without a bus error. -/
def onlyRegsAnswered (a t : State) (fs : List Fld) : Prop :=
  t.bus.err = false ∧ onlyRegs a { t with bus := a.bus } fs

/-- `t` is `a` but for the answer to an access, which is a bus error with no data. -/
def onlyBusError (a t : State) : Prop := t.bus = { data := 0, err := true } ∧ { t with bus := a.bus } = a

/-- Every OTP bit that is set in `s` is set in `t` (R519). -/
def otpKept (s t : State) : Prop := ∀ w, s.otp w ||| t.otp w = t.otp w

/-- The register at offset `o` of block `b`, as the bus addresses it (R26). -/
def busReg (b o : Nat) : BusAddr := .phys (BitVec.ofNat 40 (ctrlBase + b * 0x10000 + o))

/-- The initiator reaches that offset with an access of `2 ^ n` octets: any but JTAG does, and JTAG does in the life-cycle states
that open the debug port or KEYS_ACCESS to it (R527, R718, R719). -/
def reachesReg (s : State) (init : Init) (b o : Nat) (n : Nat) : Bool := reaches s init (ctrlBase + b * 0x10000 + o) (2 ^ n)

/-- The register bridge of block `b` has been read, with these check bits (R30, R395). -/
def bridgeRead (a : State) (b : Nat) (ecc : Ecc) : State := fifoRead a Fifo.XING b false false ecc

/-- A machine keeps its memories in canonical form. -/
def State.inv (s : State) : Prop := Memory.wf s.mem = true

/-- `t` is `a` but for one front end's own state and the register fields named. -/
def onlyFe (a t : State) (fe : Nat) (fs : List Fld) : Prop := onlyRegs a (t.setFe fe (a.fe fe)) fs

/-- `t` is `a` but for one lane, which is `l`. -/
def onlyLane (a t : State) (n : Nat) (l : Lane) : Prop :=
  laneAt t n = l ∧ (∀ m, m ≠ n → laneAt t m = laneAt a m) ∧ { t with hear := { t.hear with lanes := a.hear.lanes } } = a

/-- A counter has counted once more. -/
def countedOnce (a t : State) (c : Nat) : Prop :=
  Cells.get t.counters c 0 = Cells.get (a.count c).counters c 0

/-- An event occurred: it is counted, and, where its code is enabled and the EVENT FIFO has room, a record whose argument has
the property stands in the FIFO (R44). -/
def reports (a t : State) (code : Nat) (p : Nat → Prop) : Prop :=
  countedOnce a t code ∧
    (a.events.length < 4096 → a.eventEnabled code = true → ∃ r ∈ t.events, r.code = code ∧ r.time = a.time.ns ∧ p r.arg)

/-- In RUN a mechanism has entered the safe state (R659, R662): SAFE_N is low, SAFE_STATUS and MON show the mechanism, every
in-flight command and every SAFETY-class emission in progress has ended, and SAFE_ENTERED is reported. -/
def enteredSafe (a t : State) (mech source detail : Nat) : Prop :=
  t.safeNow = true ∧ t.get Reg.SAFE_STATUS.MECH = mech ∧ t.get Reg.SAFE_STATUS.DETAIL = detail ∧
    bit (t.get Reg.SAFE_MON_STATUS.MON) (mech - 1) = true ∧ .pin .safeN false ∈ t.outs ∧ t.safe.flights = [] ∧ t.safe.inputs = [] ∧
    (∀ fe : Fin 3, ∀ e, emitting t fe = some e → e.carriers.any Carrier.safety = false) ∧
    reports a t Ev.SAFE_ENTERED fun arg =>
      bits arg 47 40 = mech ∧ bits arg 39 36 = a.boot % 16 ∧ bits arg 35 32 = source ∧ bits arg 31 0 = detail

/-- No operation on the OTP, the flash or the FWM is in progress that a restart would cut short. -/
def State.settled (s : State) : Prop :=
  s.keys.op = none ∧ s.upd.prog = none ∧ s.upd.swap = none ∧ s.upd.copying = false ∧ s.upd.cmd = none ∧ s.fwm = [] ∧
    s.nv.programming = []

/-- Every volatile domain but the always-on one stands at its reset state; the always-on registers, the flash, the OTP and the
FWM are those of `a` (R49, R52). Three fields show pins and the harvest domain. -/
def restarted (a t : State) : Prop :=
  (∀ g : Fld, alwaysOn g.key = false → g.key ≠ Reg.NFC_STATUS.EXT_FIELD.key → g.key ≠ Reg.NFC_STATUS.EMU_SESSION.key →
    g.key ≠ Reg.HEALTH_STATUS.ON_BACKUP.key → t.get g = g.rst % 2 ^ g.width) ∧
  t.counters = [] ∧ t.events = [] ∧ t.time = {} ∧ t.keys = {} ∧ t.crypto = {} ∧ t.tables = {} ∧ t.q = {} ∧ t.mac = {} ∧
  t.mem.flash = a.mem.flash ∧ t.mem.otp = a.mem.otp ∧ t.mem.fwm = a.mem.fwm ∧ { t.aon with avs := a.aon.avs } = a.aon

/-- The always-on registers are those of `a` but for one bit of SYS_RESET_CAUSE, which is set. -/
def causeAdded (a t : State) (cause : Fld) : Prop :=
  t.get cause = 1 ∧ ∀ g : Fld, alwaysOn g.key = true → g.key ≠ cause.key → t.get g = a.get g

/-- No packet lies in LP4X, and none goes there. -/
def onChipOnly (s : State) : Prop := s.q.queues = [] ∧ s.flag Reg.QMGR_BUF_BASE.EN = false

/-- The Mule holds no locks that LOCK_MAX has broken `dt` ticks from now (R340). -/
def lockHolds (s : State) (dt : Nat) : Prop :=
  s.tables.mule.locks = none ∨ (s.advance dt).elapsedNs s.tables.mule.lockTick 2000 = false

/-- The state with a command at the front of its queue. -/
def asks (c : Instr) (s : State) : State := { s with pending := c :: s.pending }

end Sys2Proof.Machine
end

