-- ==== Sys2Proof/Certificates/Slice0/Obligations.lean ====
section
/-!
DEFINITION. The statements for the provers. Each names the rules of the manual that it states; a statement about a model's
own choice says so. `completes i s post` says that `exec i s` answers a next state of which `post` holds.
-/

open Sys2Proof Sys2Proof.Machine

/-! The machine as a whole. -/

/-- With a command at the front of the queue, a step runs it on the state with the queue's rest. -/
def Obligations.StepRunsFrontCommand : Prop :=
  ∀ (c : Instr) (s : State) (rest : List Instr), s.pending = c :: rest → step s = exec c { s with pending := rest }

/-- A command leaves the queue as it was, and true time advances by the command's `dt` (the model's own clock: log entry 2). -/
def Obligations.CommandsKeepQueueAndClock : Prop :=
  ∀ (i : Instr) (s t : State), exec i s = .next t → t.pending = s.pending ∧ t.tick = s.tick + i.dt

/-- Every command completes in every state, whatever its operands: nothing faults, and nothing is refused. -/
def Obligations.EveryCommandCompletes : Prop :=
  ∀ (i : Instr) (s : State), ∃ t, exec i s = .next t

/-- Every step keeps the canonical form of LP4X, the Sheepdog's TCM, the flash, the OTP and the FWM. -/
def Obligations.StepKeepsMemoriesCanonical : Prop :=
  ∀ s t : State, s.inv → step s = .next t → t.inv

/-- The memories are in canonical form at reset. -/
def Obligations.ResetMemoriesCanonical : Prop :=
 State.reset.inv

/-- R519: no step clears an OTP bit. -/
def Obligations.StepNeverClearsOtpBits : Prop :=
  ∀ s t : State, step s = .next t → otpKept s t

/-- R51, R52, R54: at a cold power-on SYS_RESET_CAUSE shows COLD_POR alone, the boot state is AON_ONLY without a refusal,
every event code is enabled, and the EVENT FIFO is empty. -/
def Obligations.ResetRegisters : Prop :=
  regWord State.reset 0 0x48 = 0x1 ∧ regWord State.reset 0 0x40 = 0x1 ∧ regWord State.reset 0 0x110 = 0x0 ∧
    regWord State.reset 0 0x100 = 0x0 ∧ ∀ k : Fin 4, regWord State.reset 0 (0x120 + 8 * k.val) = 0xFFFF_FFFF_FFFF_FFFF

/-! The register bus. -/

/-- R7: in ICU, KEYS and TIME, a 32-bit access ends in a bus error, has no effect, and returns zero if it is a read. R9: so
does, in every block, an access of 8 or 16 bits, and one that is not aligned to its own size. -/
def Obligations.AccessesThatEndInBusErrors : Prop :=
  ∀ (s : State) (dt : Nat) (init : Init) (b o : Nat) (n : Fin 4) (v : Word) (ecc : Ecc), b < 26 → o < 0x10000 →
    reachesReg s init b o n = true → (n.val = 2 ∧ o % 4 = 0 ∧ (b = 1 ∨ b = 2 ∨ b = 14)) ∨ n.val ≤ 1 ∨ o % 2 ^ n.val ≠ 0 →
      completes (.registerWrite dt init (busReg b o) n v ecc) s (onlyBusError (bridgeRead (s.advance dt) b ecc)) ∧
      completes (.rcFieldRead dt init (busReg b o) n ecc) s (onlyBusError (bridgeRead (s.advance dt) b ecc))

/-- R12: an offset that holds no register reads zero and ignores writes, without a bus error, whatever initiator reaches it.
R395: with an uncorrectable word on the register bridge the access ends in a bus error instead. -/
def Obligations.OffsetsWithoutRegister : Prop :=
  ∀ (s a : State) (dt : Nat) (init : Init) (b o : Nat) (n : Fin 4) (v : Word) (ecc : Ecc), a = bridgeRead (s.advance dt) b ecc →
    powered s = true → b < 26 → o < 0x10000 → reachesReg s init b o n = true →
    n.val = 3 ∨ n.val = 2 ∧ b ≠ 1 ∧ b ≠ 2 ∧ b ≠ 14 → o % 2 ^ n.val = 0 → Reg.rowAt (b * 0x10000 + o / 8 * 8) = none →
      (ecc ≠ .uncorrectable →
        completes (.registerWrite dt init (busReg b o) n v ecc) s (fun t => onlyRegsAnswered a t []) ∧
        completes (.rcFieldRead dt init (busReg b o) n ecc) s (fun t => t.bus.data = 0 ∧ onlyRegsAnswered a t [])) ∧
      (ecc = .uncorrectable →
        completes (.registerWrite dt init (busReg b o) n v ecc) s (onlyBusError a) ∧
        completes (.rcFieldRead dt init (busReg b o) n ecc) s (onlyBusError a))

/-- R13, R14, R15: a LOCK bit is set by writing 1 and ignores a written 0, whatever it held. A 64-bit write of MAC_ADDR, whose
fields are RWL, takes while MAC_LOCK is clear, and is ignored without a bus error while it is set; a 32-bit write of either
half of FE0_TXCAL_CTRL leaves the other half (R8). A W1C field of SYS_RESET_CAUSE clears where 1 is written, but for a bit
that the hardware set in the very cycle (R16). Each holds for every initiator that reaches the register, and R395: an
uncorrectable word on the register bridge makes the write a bus error. -/
def Obligations.AccessCodesOfWrites : Prop :=
  ∀ (s a : State) (dt k : Nat) (init : Init) (b : Fin 26) (v : Word) (ecc : Ecc), powered s = true → a = bridgeRead (s.advance dt) k ecc →
    (reachesReg s init b 0xFFF8 3 = true → completes (.blockLock dt init b v) s fun t =>
      t.flag (Reg.LOCK b.val) = (v.getLsbD 0 || s.flag (Reg.LOCK b.val)) ∧
        onlyRegsAnswered (s.advance dt) t [Reg.LOCK b.val]) ∧
    (k = 10 → reachesReg s init 10 0x30 3 = true →
      (ecc ≠ .uncorrectable → completes (.registerWrite dt init (busReg 10 0x30) 3 v ecc) s fun t =>
        (s.flag (Reg.LOCK 10) = false → t.get Reg.MAC_ADDR.PAN_ID = bits v.toNat 31 16 ∧
          t.get Reg.MAC_ADDR.SHORT = bits v.toNat 15 0) ∧
        (s.flag (Reg.LOCK 10) = true → onlyRegsAnswered a t []) ∧
        onlyRegsAnswered a t [Reg.MAC_ADDR.PAN_ID, Reg.MAC_ADDR.SHORT]) ∧
      (ecc = .uncorrectable → completes (.registerWrite dt init (busReg 10 0x30) 3 v ecc) s (onlyBusError a))) ∧
    (k = 5 → ecc ≠ .uncorrectable →
      (reachesReg s init 5 0x38 2 = true → completes (.registerWrite dt init (busReg 5 0x38) 2 v ecc) s fun t =>
        t.get (Reg.FE_TXCAL_CTRL.SEL 0) = v.toNat % 512 ∧ onlyRegsAnswered a t [Reg.FE_TXCAL_CTRL.SEL 0]) ∧
      (reachesReg s init 5 0x3C 2 = true → completes (.registerWrite dt init (busReg 5 0x3C) 2 v ecc) s fun t =>
        t.flag (Reg.FE_TXCAL_CTRL.BG_EN 0) = v.getLsbD 31 ∧ onlyRegsAnswered a t [Reg.FE_TXCAL_CTRL.BG_EN 0])) ∧
    (k = 0 → reachesReg s init 0 0x48 3 = true → ecc ≠ .uncorrectable →
      completes (.registerWrite dt init (busReg 0 0x48) 3 v ecc) s fun t =>
        t.flag Reg.SYS_RESET_CAUSE.COLD_POR =
          (s.flag Reg.SYS_RESET_CAUSE.COLD_POR && !(v.getLsbD 0 && bit (a.before Reg.SYS_RESET_CAUSE.COLD_POR) 0)) ∧
        t.flag Reg.SYS_RESET_CAUSE.CORE =
          (s.flag Reg.SYS_RESET_CAUSE.CORE && !(v.getLsbD 7 && bit (a.before Reg.SYS_RESET_CAUSE.CORE) 0)))

/-- R738: a read clears only the RC fields that it returns whole, but for what the hardware added in the very cycle (R16). A
64-bit read of SYS_EVENT_LOST returns and clears LOST, and a 32-bit read of its upper half returns zero and clears nothing; a
64-bit read of HEALTH_STATUS clears PEAK_TEMP, which spans both halves, and a 32-bit read of either half clears none of it.
R395: an uncorrectable word on the register bridge makes the read a bus error that clears nothing. R46, R739: a pop of
SYS_EVENT_HEAD answers the oldest record's head word, removes the record and latches its time, with POISON when a word of the
FIFO was uncorrectable; a 32-bit read of a half answers that half and removes nothing; an empty FIFO reads zero and leaves
SYS_EVENT_TIME. Out of power the access is a bus error. -/
def Obligations.ReadsThatClearAndPop : Prop :=
  (∀ (s a : State) (dt k : Nat) (init : Init) (ecc : Ecc), powered s = true → a = bridgeRead (s.advance dt) k ecc →
    (ecc = .uncorrectable → k < 26 → reachesReg s init k 0 3 = true →
      completes (.rcFieldRead dt init (busReg k 0) 3 ecc) s (onlyBusError a)) ∧
    (ecc ≠ .uncorrectable → k = 0 → reachesReg s init 0 0x118 3 = true →
      completes (.rcFieldRead dt init (busReg 0 0x118) 3 ecc) s fun t =>
        t.bus.data = s.get Reg.SYS_EVENT_LOST.LOST ∧ (dt ≠ 0 → t.get Reg.SYS_EVENT_LOST.LOST = 0) ∧
          t.get Reg.SYS_EVENT_LOST.LOST = s.get Reg.SYS_EVENT_LOST.LOST - a.before Reg.SYS_EVENT_LOST.LOST ∧
          onlyRegsAnswered a t [Reg.SYS_EVENT_LOST.LOST]) ∧
    (ecc ≠ .uncorrectable → k = 0 → reachesReg s init 0 0x11C 2 = true →
      completes (.rcFieldRead dt init (busReg 0 0x11C) 2 ecc) s fun t => t.bus.data = 0 ∧ onlyRegsAnswered a t []) ∧
    (ecc ≠ .uncorrectable → k = 20 → dt ≠ 0 → reachesReg s init 20 0x0 3 = true →
      completes (.rcFieldRead dt init (busReg 20 0x0) 3 ecc) s fun t =>
        t.bus.data = regWord a 20 0 ∧ t.get Reg.HEALTH_STATUS.PEAK_TEMP = 0 ∧
          onlyRegsAnswered a t [Reg.HEALTH_STATUS.PEAK_TEMP]) ∧
    (ecc ≠ .uncorrectable → k = 20 → reachesReg s init 20 0x0 2 = true →
      completes (.rcFieldRead dt init (busReg 20 0x0) 2 ecc) s fun t =>
        t.bus.data = regWord a 20 0 % 2 ^ 32 ∧ onlyRegsAnswered a t []) ∧
    (ecc ≠ .uncorrectable → k = 20 → reachesReg s init 20 0x4 2 = true →
      completes (.rcFieldRead dt init (busReg 20 0x4) 2 ecc) s fun t =>
        t.bus.data = regWord a 20 0 / 2 ^ 32 ∧ onlyRegsAnswered a t [])) ∧
  (∀ (s a : State) (dt : Nat) (init : Init) (ecc : Ecc) (r : EventRec) (rest : List EventRec),
    a = fifoRead { s.advance dt with events := rest } Fifo.EVENT Block.SYS false false ecc →
    (powered s = true → s.events = r :: rest →
      completes (.sysEventHeadPop dt ecc) s (fun t =>
        t.events = a.events ∧ t.bus.data = at' r.code 8 56 + at' r.source 8 48 + r.arg % 2 ^ 48 ∧
          t.get Reg.SYS_EVENT_TIME.TIME = r.time % 2 ^ 64 ∧
          t.flag Reg.SYS_EVENT_STATUS.POISON = decide (ecc = .uncorrectable) ∧
          onlyRegsAnswered a t [Reg.SYS_EVENT_TIME.TIME, Reg.SYS_EVENT_STATUS.POISON]) ∧
      (reachesReg s init 0 0x104 2 = true → completes (.rcFieldRead dt init (busReg 0 0x104) 2 .ok) s fun t =>
        t.events = r :: rest ∧
          t.bus.data = (at' r.code 8 56 + at' r.source 8 48 + r.arg % 2 ^ 48) / 2 ^ 32)) ∧
    (powered s = true → s.events = [] →
      completes (.sysEventHeadPop dt ecc) s (fun t => t.bus.data = 0 ∧ onlyRegsAnswered (s.advance dt) t [])) ∧
    (powered s = false → completes (.sysEventHeadPop dt ecc) s (onlyBusError (s.advance dt))))

/-- R22, R5: over the bus LP4X stores the octets of a write of any width, lowest first, at the address and nowhere else, and a
read answers them; so does the Sheepdog's TCM for the Sheepdog. R719: JTAG's message buffer takes and answers 64-bit words in
every life-cycle state but END. -/
def Obligations.MemoriesOverTheBus : Prop :=
  ∀ (s a : State) (dt x : Nat) (init : Init) (p : BitVec 40) (n : Fin 4) (v : Word) (ecc : Ecc) (w : Fin 256), a = s.advance dt →
    powered s = true → (init = .jtag → jtagReaches s p.toNat (2 ^ n.val) = true) →
    (s.inLp4x p.toNat (2 ^ n.val) = true →
      completes (.registerWrite dt init (.phys p) n v ecc) s (fun t =>
        t.ddr p.toNat (2 ^ n.val) = leBytes (2 ^ n.val) v.toNat ∧
          (x < p.toNat ∨ p.toNat + 2 ^ n.val ≤ x → t.ddr x 1 = s.ddr x 1) ∧
          onlyRegsAnswered a { t with mem := { t.mem with lp4x := s.mem.lp4x } } []) ∧
      completes (.rcFieldRead dt init (.phys p) n ecc) s fun t =>
        t.bus.data = leNat (s.ddr p.toNat (2 ^ n.val)) ∧ onlyRegsAnswered a t []) ∧
    (init = .sheepdog → 0x1000_0000 ≤ p.toNat → p.toNat + 2 ^ n.val ≤ 0x1004_0000 →
      completes (.registerWrite dt init (.phys p) n v ecc) s (fun t =>
        readBytes t.mem.tcm 0 (p.toNat - 0x1000_0000) (2 ^ n.val) = leBytes (2 ^ n.val) v.toNat ∧
          onlyRegsAnswered a { t with mem := { t.mem with tcm := s.mem.tcm } } [])) ∧
    (init = .jtag → n.val = 3 → keysAccess s = true →
      completes (.registerWrite dt init (.jtagBuf w) n v ecc) s (fun t =>
        Cells.get t.keys.jtagBuf w.val 0 = v ∧
          (∀ m : Nat, m ≠ w.val → Cells.get t.keys.jtagBuf m 0 = Cells.get s.keys.jtagBuf m 0) ∧
          onlyRegsAnswered a { t with keys := { t.keys with jtagBuf := s.keys.jtagBuf } } []) ∧
      completes (.rcFieldRead dt init (.jtagBuf w) n ecc) s fun t =>
        t.bus.data = (Cells.get s.keys.jtagBuf w.val 0).toNat ∧ onlyRegsAnswered a t [])

/-- R31: a write of GOOSE_WAKE_AT leaves the always-on register as it was, and takes effect there with AON_SHADOW_SYNC; R8: a
32-bit one leaves the other half as it stands there. R479: the link trains from IMAGE_VERIFY on, at the most lanes and the
highest speed that host and endpoint both have, and shows its width, its speed and what the host enables. R482: GO sends the
MSI while MSI_EN is set. R480, R481: over a link that is up, a request that the boot state does not admit is answered with
Unsupported Request and has no effect; in SAFE as a boot state BAR0 admits the SYS block alone, whose registers a read
answers. -/
def Obligations.ShadowsAndPcie : Prop :=
  (∀ (s a : State) (dt : Nat) (init : Init) (v : Word), a = s.advance dt →
    (powered s = true → reachesReg s init 4 0x68 3 = true →
      completes (.registerWrite dt init (busReg 4 0x68) 3 v .ok) s fun t =>
        t.aon.writes = s.aon.writes ++ [.reg 0x40068 v none] ∧ onlyRegsAnswered a { t with aon := s.aon } []) ∧
    (s.start.off = false → s.aon.writes = [.reg 0x40068 v none] →
      completes (.aonShadowSync dt) s fun t =>
        t.get Reg.GOOSE_WAKE_AT.TICK = v.toNat % 2 ^ 48 ∧ t.flag Reg.GOOSE_WAKE_AT.EN = v.getLsbD 63 ∧
          t.aon = { s.aon with writes := [] } ∧
          onlyRegs a { t with aon := s.aon } [Reg.GOOSE_WAKE_AT.TICK, Reg.GOOSE_WAKE_AT.EN]) ∧
    (s.start.off = false → s.aon.writes = [.reg 0x40068 v (some false)] →
      completes (.aonShadowSync dt) s fun t =>
        t.get Reg.GOOSE_WAKE_AT.TICK = s.get Reg.GOOSE_WAKE_AT.TICK / 2 ^ 32 * 2 ^ 32 + v.toNat % 2 ^ 32 ∧
          t.flag Reg.GOOSE_WAKE_AT.EN = s.flag Reg.GOOSE_WAKE_AT.EN ∧ onlyRegs a { t with aon := s.aon } [Reg.GOOSE_WAKE_AT.TICK]) ∧
    (s.start.off = true → completes (.aonShadowSync dt) s fun t => t = a)) ∧
  (∀ (s a b : State) (dt : Nat) (bar : PcieBar) (ofs lanes speed : Nat) (msi : Bool) (v : Word) (req : PcieOp) (ecc : Ecc), a = s.advance dt →
    b = bridgeRead a 0 ecc →
    (0 < lanes → 0 < speed → Boot.IMAGE_VERIFY ≤ s.boot → completes (.pcieLinkTrain dt lanes speed msi) s fun t =>
      t.flag Reg.PCIE_STATUS.LINK_UP = true ∧ t.get Reg.PCIE_STATUS.LANES = min 2 lanes ∧
        t.get Reg.PCIE_STATUS.SPEED = min 3 speed ∧ t.flag Reg.PCIE_STATUS.MSI_EN = msi ∧ onlyRegs a t [Reg.PCIE_STATUS.LINK_UP,
          Reg.PCIE_STATUS.LANES, Reg.PCIE_STATUS.SPEED, Reg.PCIE_STATUS.MSI_EN]) ∧
    (lanes = 0 ∨ speed = 0 ∨ s.boot < Boot.IMAGE_VERIFY → completes (.pcieLinkTrain dt lanes speed msi) s fun t => t = a) ∧
    completes (.msiRequest dt v) s (fun t => onlyRegsAnswered a { t with outs := s.outs } [] ∧
      t.outs = if v.getLsbD 63 = true ∧ s.flag Reg.PCIE_STATUS.MSI_EN = true then s.outs ++ [.msi] else s.outs) ∧
    (s.flag Reg.PCIE_STATUS.LINK_UP = false → completes (.pcieRequest dt bar ofs req ecc) s fun t => t = a) ∧
    (s.flag Reg.PCIE_STATUS.LINK_UP = true → s.boot = Boot.SAFE → powered s = true →
      (0x10000 ≤ ofs ∨ bar = .bar2 → completes (.pcieRequest dt bar ofs req ecc) s fun t =>
        t.bus = { data := 0, err := false, unsupported := true } ∧ { t with bus := s.bus } = a) ∧
      (ecc ≠ .uncorrectable → completes (.pcieRequest dt .bar0 0x40 (.read 3) ecc) s fun t =>
        t.bus.data = regWord a 0 0x40 ∧ onlyRegsAnswered b t []) ∧
      (ecc = .uncorrectable → completes (.pcieRequest dt .bar0 0x40 (.read 3) ecc) s (onlyBusError b))))

/-! Resets and the start. -/

/-- R49, R52: MAIN_POWER_ON and BROWN_OUT reset every domain but the always-on one, whose registers gain one bit of
SYS_RESET_CAUSE; LP4X and the TCM lose their contents, and SAFE_N is low. A cold power-on resets the always-on domain too.
R552: without VBAT and the main supplies the always-on domain loses its latch. (That LP4X reads zero afterwards is the model's
choice: log entry 4.) -/
def Obligations.PowerResets : Prop :=
  ∀ (s : State) (dt : Nat), s.settled →
    (s.start.off = false → completes (.mainPowerOn dt) s fun t =>
      restarted s t ∧ causeAdded s t Reg.SYS_RESET_CAUSE.MAIN_POR ∧ t.mem.lp4x = [] ∧ t.mem.tcm = [] ∧
        ∃ l, t.outs = s.outs ++ .pin .safeN false :: l) ∧
    (powered s = true → completes (.brownOut dt) s fun t =>
      restarted s t ∧ causeAdded s t Reg.SYS_RESET_CAUSE.BROWNOUT ∧ t.mem.lp4x = [] ∧ t.mem.tcm = []) ∧
    (s.start.off = true → completes (.coldPowerOn dt) s fun t =>
      restarted { s with aon := { rtcTick := t.tick } } t ∧ (∀ g : Fld, alwaysOn g.key = true → t.get g = g.rst % 2 ^ g.width) ∧
        t.start.off = false) ∧
    (s.start.off = false → completes (.alwaysOnSupplyLoss dt) s fun t =>
      t.start.off = true ∧ t.aon.latches = [] ∧ (∀ g : Fld, alwaysOn g.key = true → t.get g = g.rst % 2 ^ g.width) ∧
        { t.mem with lp4x := s.mem.lp4x, tcm := s.mem.tcm } = s.mem)

/-- R51, R52, R53: a write of SYS_RESET_CTRL takes only with the key in its upper half. A system reset, a JTAG reset through
an open debug port and, 1 ms after its detection, a watchdog reset restart the device with their bits of SYS_RESET_CAUSE, and
keep what LP4X holds. A core reset sets CORE, empties the mailboxes (R401) and leaves all else as it was. -/
def Obligations.Restarts : Prop :=
  ∀ (s : State) (dt : Nat) (v : Word), powered s = true →
    (s.settled → bits v.toNat 63 32 = 0xA5C30F96 → completes (.systemReset dt v) s fun t =>
      restarted s t ∧ causeAdded s t Reg.SYS_RESET_CAUSE.SOFT ∧ t.mem = s.mem ∧ t.bus = { data := 0, err := false }) ∧
    (s.settled → s.flag Reg.KEYS_STATUS.DEBUG = true → completes (.jtagSystemReset dt) s fun t =>
      restarted s t ∧ causeAdded s t Reg.SYS_RESET_CAUSE.JTAG ∧ t.mem = s.mem) ∧
    (∀ at_, s.settled → s.safe.wdReset = some at_ → (s.advance dt).elapsedMs at_ 1 = true →
      completes (.wdReset dt) s fun t =>
        restarted s t ∧ causeAdded s t Reg.SYS_RESET_CAUSE.WDOG ∧ t.mem = s.mem) ∧
    (bits v.toNat 63 32 = 0xA5C30F96 → completes (.coreReset dt v) s fun t =>
      t.flag Reg.SYS_RESET_CAUSE.CORE = true ∧ t.q.rx = [] ∧ t.q.tx = [] ∧ t.q.queues = s.q.queues ∧
        onlyRegsAnswered (s.advance dt) { t with outs := s.outs, q := s.q } (Reg.SYS_RESET_CAUSE.CORE ::
          ((List.range 4).flatMap fun c => [Reg.ICU_CORE_PWR.STATE c, Reg.ICU_CORE_PWR.RESUMED c]))) ∧
    (bits v.toNat 63 32 ≠ 0xA5C30F96 →
      completes (.coreReset dt v) s (fun t => onlyRegsAnswered (s.advance dt) t []) ∧
      completes (.systemReset dt v) s (fun t => onlyRegsAnswered (s.advance dt) t []))

/-- R54, R56, R59, R437: REFCLK qualification ends AON_ONLY and starts TIME_NS. A failed self-test ends BOOT_ROM in SAFE, and
so does LP4X that fails to train; otherwise BOOT_ROM reports the capacity and goes on. R60, R524: LIFE_CYCLE_READ takes the
life-cycle state from the OTP and halts in BLANK and END. -/
def Obligations.StartStates : Prop :=
  ∀ (s : State) (dt : Nat) (gib : Fin 4) (herdId : Fin 8) (k : Fin 3) (trained : Bool), powered s = true →
    (s.boot = Boot.AON_ONLY → completes (.refclkQualified dt) s fun t =>
      t.boot = Boot.BOOT_ROM ∧ t.time.running = true ∧
        onlyRegs (s.advance dt) { t with time := (s.advance dt).time } [Reg.SYS_BOOT_STATUS.STATE]) ∧
    (s.boot = Boot.BOOT_ROM → s.flag Reg.SAFE_STATUS.SAFE = false →
      completes (.bootRomDone dt (some k) trained gib herdId) s fun t =>
        t.boot = Boot.SAFE ∧ t.get Reg.SAFE_STATUS.MECH = 0x0C ∧ t.flag Reg.SAFE_STATUS.SAFE = true ∧ t.mem = s.mem) ∧
    (s.boot = Boot.BOOT_ROM → completes (.bootRomDone dt none false gib herdId) s fun t =>
      t.boot = Boot.SAFE ∧ onlyRegs (s.advance dt) t [Reg.SYS_BOOT_STATUS.STATE]) ∧
    (s.boot = Boot.BOOT_ROM → bootHdrOk s = true → completes (.bootRomDone dt none true gib herdId) s fun t =>
      t.boot = Boot.LIFE_CYCLE_READ ∧ t.flag Reg.DDRC_STATUS.TRAINED = true ∧
        t.get Reg.DDRC_STATUS.SIZE_GIB = gib.val + 1 ∧ t.start = { s.start with herdId := herdId.val } ∧
        { t.mem with flash := s.mem.flash, erases := s.mem.erases } = s.mem) ∧
    (s.boot = Boot.LIFE_CYCLE_READ → s.keys.sensed = false → completes (.lifeCycleReadDone dt) s fun t =>
      t.keys.sensed = true ∧ t.keys.lc = otpLc s ∧ t.get Reg.KEYS_STATUS.LC = otpLc s ∧
        t.flag Reg.KEYS_STATUS.DEBUG = decide (otpLc s ≤ 1) ∧ t.mem.otp = s.mem.otp ∧
        (otpLc s = 0 ∨ otpLc s = 5 → t.boot = Boot.LIFE_CYCLE_READ ∧ t.mem = s.mem) ∧
        (otpLc s ≠ 0 → otpLc s ≠ 5 → s.get Reg.GOOSE_STATUS.LATCH = 0 → (jView s).swap.isNone = true →
          (jView s).trial = false → (jView s).commit = false → t.boot = Boot.IMAGE_VERIFY))

/-- R71, R78: when CONFIG_STAGED is no candidate, CONFIG is verified; a breach ends the start in CONFIG_REFUSED and is
reported, and an image that passes goes on to ADMIT, or to TAMPER_HOLD where a latch holds it (R61). R73: ADMIT loads nothing
until every check has passed, and then locks the blocks and begins CALIBRATE. -/
def Obligations.VerifyAndAdmit : Prop :=
  ∀ (s : State) (dt : Nat),
    (∀ a, a = (s.advance dt).setStart { s.start with image := Region.CONFIG } → s.boot = Boot.IMAGE_VERIFY →
      s.flag Reg.XSPI_UPD_STATUS.PENDING = false → stagedCandidate (s.advance dt) = false →
        completes (.imageVerifyDone dt) s fun t => match verifyImage a Region.CONFIG Region.ACTIVE with
          | some b => t.boot = Boot.CONFIG_REFUSED ∧ t.get Reg.SYS_BOOT_STATUS.REASON = b.code % 2 ^ 16 ∧
            t.get Reg.SYS_BOOT_STATUS.SECTION = b.sect % 2 ^ 8 ∧ t.get Reg.SYS_BOOT_STATUS.ITEM = b.item % 2 ^ 16 ∧
            { t with fields := a.fields, counters := a.counters, events := a.events, bus := a.bus } = a
          | none => t.boot = (if gooseHolds s then Boot.TAMPER_HOLD else Boot.ADMIT) ∧ t.start.image = Region.CONFIG ∧
            t.mem.flash = s.mem.flash) ∧
    (∀ im, im = imagePayloads (s.advance dt) s.start.image → s.boot = Boot.ADMIT →
      completes (.admitDone dt) s fun t => match admitBreach im (loadTables im (s.advance dt)) with
        | none => t.boot = Boot.CALIBRATE ∧ t.loaded = im.map Prod.fst ∧ t.start.calPhase = 0 ∧
          t.flag Reg.SYS_BOOT_STATUS.CFG_SRC = stagedImage s ∧
          ∀ b ∈ ([Block.CRYPTO, Block.OX, Block.MAC, Block.FWD, Block.SCHED, Block.QMGR, Block.PERF] : List Nat),
            t.flag (Reg.LOCK b) = true
        | some _ => stagedImage s = false → t.boot = Boot.CONFIG_REFUSED ∧
          { t with fields := s.fields, counters := s.counters, events := s.events } = s.advance dt)

/-- R80, R82: the phases of CALIBRATE end in their order; a front end whose phase A fails leaves service, and the end of phase
D with nothing lost is entry to RUN, where SAFE_N rises (R57) and the front ends that are enabled come into service. -/
def Obligations.CalibratePhases : Prop :=
  ∀ (s : State) (dt : Nat) (fe : Fin 3) (k : Nat), s.boot = Boot.CALIBRATE →
    (s.start.calPhase = 0 → completes (.calibratePhaseDone dt (.phaseA [])) s fun t =>
      t.start = { s.start with calPhase := 1 } ∧ onlyRegs (s.advance dt) { t with start := s.start } []) ∧
    (s.start.calPhase = 0 → 1 ≤ k → k ≤ 3 → completes (.calibratePhaseDone dt (.phaseA [(fe.val, k)])) s fun t =>
      t.start.calPhase = 1 ∧ t.start.feOut = s.start.feOut ++ [fe.val] ∧
        (feEnable s fe ≠ 0 → t.start.lost.isSome = true)) ∧
    (s.start.calPhase = 2 → completes (.calibratePhaseDone dt (.phaseC [])) s fun t =>
      t.start = { s.start with calPhase := 3 } ∧ t.boot = Boot.CALIBRATE ∧ t.mem = s.mem) ∧
    (s.start.calPhase = 3 → s.start.lost = none → completes (.calibratePhaseDone dt (.phaseD [])) s fun t =>
      t.boot = Boot.RUN ∧ .pin .safeN true ∈ t.outs ∧
        t.flag (Reg.FE_STATUS.RX_IN_SERVICE fe) = (decide (feEnable s fe ≠ 0) && !s.start.feOut.contains fe.val) ∧
        t.flag (Reg.FE_STATUS.TX_IN_SERVICE fe) = (decide (feEnable s fe = 2) && !s.start.feOut.contains fe.val)) ∧
    (s.start.calPhase ≠ 3 → completes (.calibratePhaseDone dt (.phaseD [])) s fun t => t = s.advance dt)

/-- R628, R629: a phase of the exchange copies its range and records the next phase; a first mismatch repeats the phase and a
second one ends the start in SAFE. R635: an ecall whose slot is current and in the image's format goes on to ADMIT, and any
other ecall, the timeout and a trap revert. R72: the copy of CONFIG_STAGED fills CONFIG. -/
def Obligations.UpdateCopyAndMigration : Prop :=
  ∀ (s : State) (dt : Nat) (w : Swap) (a0 : Word),
    (s.boot = Boot.UPDATE_COPY → s.upd.swap = some w → w.phase < 2 → completes (.swapPhaseDone dt true) s fun t =>
      t.upd.swap = some { w with phase := w.phase + 1, again := false } ∧
        t.flash (swapRanges w.block w.phase).2 65536 = s.flash (swapRanges w.block w.phase).1 65536 ∧
        { t with mem := s.mem, upd := s.upd } = s.advance dt ∧ { t.mem with flash := s.mem.flash, erases := s.mem.erases } = s.mem) ∧
    (s.boot = Boot.UPDATE_COPY → s.upd.swap = some w → w.again = false → completes (.swapPhaseDone dt false) s fun t =>
      t.upd.swap = some { w with again := true } ∧ t.boot = Boot.UPDATE_COPY) ∧
    (s.boot = Boot.UPDATE_COPY → s.upd.swap = some w → w.again = true → s.flag Reg.SAFE_STATUS.SAFE = false →
      completes (.swapPhaseDone dt false) s fun t => t.boot = Boot.SAFE ∧ t.get Reg.SAFE_STATUS.MECH = 0x0E) ∧
    (s.boot = Boot.MIGRATE →
      completes (.migrationEcall dt a0) s (fun t =>
        if a0 = 0 ∧ currentSettings s = some s.upd.migSlot ∧ settingsFormat s s.upd.migSlot = coresField s 2 2 then
          t.boot = (if gooseHolds s then Boot.TAMPER_HOLD else Boot.ADMIT)
        else t.boot = Boot.UPDATE_COPY ∧ t.upd.swap = some { block := 0, phase := 0, back := true } ∧
          t.upd.revertCause = UpdCause.MIGRATE_FAIL) ∧
      completes (.migrationTrap dt) s (fun t => t.boot = Boot.UPDATE_COPY ∧
        t.upd.swap = some { block := 0, phase := 0, back := true } ∧ t.upd.revertCause = UpdCause.MIGRATE_FAIL) ∧
      ((s.advance dt).elapsedSec s.upd.migTick (coresField s 4 2) = true →
        completes (.migrationTimeout dt) s fun t => t.boot = Boot.UPDATE_COPY ∧
          t.upd.swap = some { block := 0, phase := 0, back := true } ∧ t.upd.revertCause = UpdCause.MIGRATE_FAIL)) ∧
    (s.upd.copying = true → s.upd.commit = false → completes (.stagedConfigCopyDone dt) s fun t =>
      t.flash Region.CONFIG 0x400000 = s.flash Region.CONFIG_STAGED 0x400000 ∧ t.upd.copying = false ∧
        { t with mem := s.mem, upd := s.upd } = s.advance dt)

/-- R646: an erase or program is BUSY until it is done. It then leaves the range erased, or ANDed with the LP4X octets; a
protected range changes nothing. R638: the record of a counter is programmed, and its users go on. -/
def Obligations.FlashOperations : Prop :=
  ∀ (s : State) (dt : Nat) (v : Word) (o : ProgOp) (kind : Fin 3),
    (s.flag Reg.XSPI_PROG_STATUS.BUSY = false →
      completes (.xspiErase dt v) s (fun t => t.flag Reg.XSPI_PROG_STATUS.BUSY = true ∧
        t.upd.prog.map (fun p => (p.erase, p.ofs)) = some (true, s.get Reg.XSPI_PROG_ADDR.OFS) ∧
          onlyRegsAnswered (s.advance dt) { t with upd := s.upd } [Reg.XSPI_PROG_STATUS.BUSY]) ∧
      completes (.xspiProgram dt v) s (fun t => t.flag Reg.XSPI_PROG_STATUS.BUSY = true ∧
        t.upd.prog = some { erase := false, src := s.get Reg.XSPI_PROG_ADDR.SRC * 256
                            ofs := s.get Reg.XSPI_PROG_ADDR.OFS, len := bits v.toNat 16 0 } ∧
          onlyRegsAnswered (s.advance dt) { t with upd := s.upd } [Reg.XSPI_PROG_STATUS.BUSY])) ∧
    (s.upd.prog = some o → progCause s o = 0 → completes (.xspiProgDone dt true) s fun t =>
      t.flag Reg.XSPI_PROG_STATUS.BUSY = false ∧ t.flag Reg.XSPI_PROG_STATUS.DONE = true ∧ t.upd.prog = none ∧
        (o.erase = true → t.get Reg.XSPI_PROG_STATUS.CAUSE = 0 ∧
          ∀ x, Cells.get t.mem.flash x 0xff =
            if o.ofs ≤ x ∧ x < o.ofs + 65536 then 0xff else Cells.get s.mem.flash x 0xff) ∧
        (o.erase = false → s.inLp4x o.src o.len = true →
          (∀ x, x < o.ofs ∨ o.ofs + o.len ≤ x → Cells.get t.mem.flash x 0xff = Cells.get s.mem.flash x 0xff) ∧
          ∀ i, i < o.len → Cells.get t.mem.flash (o.ofs + i) 0xff =
            Cells.get s.mem.lp4x (o.src + i) 0 &&& Cells.get s.mem.flash (o.ofs + i) 0xff)) ∧
    (s.upd.prog = some o → rangeAllowed s (if o.erase then o.ofs / 65536 * 65536 else o.ofs)
        (if o.erase then 65536 else o.len) = false →
      completes (.xspiProgDone dt true) s fun t => t.mem = s.mem ∧ t.get Reg.XSPI_PROG_STATUS.CAUSE = ProgCause.PROTECTED ∧
        t.flag Reg.XSPI_PROG_STATUS.FAIL = true ∧ t.upd.prog = none) ∧
    (Cells.get s.nv.programming (kind.val + 1) 0 ≠ 0 → hwmUsed s (hwmActive s) < 4096 →
      completes (.fcHwmProgrammed dt kind) s fun t => Cells.get t.nv.programming (kind.val + 1) 0 = 0 ∧
        t.flash (Region.FC_HWM + 65536 * hwmActive s + 16 * hwmUsed s (hwmActive s)) 16 =
          hwmRecord (kind.val + 1) (Cells.get s.nv.programming (kind.val + 1) 0))

/-- R624, R625, R631, R632, R645: STAGE, COMMIT and REVERT start in the state that each needs, and end with cause 10 in any
other. A refusal condition of R625 ends STAGE with its cause and an event. A STAGE that is done over a good image leaves the
journal PENDING. R643: a Flock round starts no sooner than ROUND_GAP_S after the last one, with the fragments that some node
still needs; it ends when none of them waits any more. -/
def Obligations.UpdateAndFlock : Prop :=
  (∀ (s : State) (dt : Nat) (v : Word), s.flag Reg.XSPI_UPD_STATUS.BUSY = false →
    (s.inRun = true → s.flag Reg.XSPI_UPD_STATUS.PENDING = false → s.flag Reg.XSPI_UPD_STATUS.TRIAL = false →
      completes (.stage dt v) s (fun t =>
        (stageRefusal ((s.advance dt).setFlag Reg.XSPI_UPD_CTRL.MOTION_SW (v.getLsbD 0)) = 0 →
          t.flag Reg.XSPI_UPD_STATUS.BUSY = true ∧ t.upd.cmd = some 1 ∧
          onlyRegsAnswered (s.advance dt) { t with upd := s.upd }
            [Reg.XSPI_UPD_STATUS.BUSY, Reg.XSPI_UPD_CTRL.MOTION_SW]) ∧
        (v.getLsbD 0 = true → t.get Reg.XSPI_UPD_STATUS.CAUSE = 1 ∧ t.flag Reg.XSPI_UPD_STATUS.FAIL = true ∧
          Cells.get t.counters Ev.UPDATE_REFUSED 0 ≠ Cells.get s.counters Ev.UPDATE_REFUSED 0)) ∧
      completes (.commit dt v) s (fun t => t.get Reg.XSPI_UPD_STATUS.CAUSE = 10 ∧ t.mem = s.mem ∧ t.upd.cmd = none) ∧
      completes (.revert dt v) s (fun t => t.get Reg.XSPI_UPD_STATUS.CAUSE = 10 ∧ t.mem = s.mem ∧ t.upd.cmd = none)) ∧
    (s.inRun = true → s.flag Reg.XSPI_UPD_STATUS.TRIAL = true → (jView s).swap.isNone = true →
      completes (.stage dt v) s (fun t => t.get Reg.XSPI_UPD_STATUS.CAUSE = 10 ∧ t.mem = s.mem ∧ t.upd.cmd = none) ∧
      completes (.commit dt v) s (fun t => t.flag Reg.XSPI_UPD_STATUS.BUSY = true ∧ t.upd.cmd = some 2 ∧
        t.mem = (cfgCopyRec s 0).mem ∧
        onlyRegsAnswered (s.advance dt) { t with upd := s.upd, mem := s.mem }
          [Reg.XSPI_UPD_STATUS.BUSY, Reg.XSPI_UPD_CTRL.MOTION_SW]) ∧
      completes (.revert dt v) s (fun t => t.flag Reg.XSPI_UPD_STATUS.BUSY = true ∧ t.upd.cmd = some 3 ∧
        t.mem = (revertRecord s UpdCause.BY_FIRMWARE).mem ∧
        onlyRegsAnswered (s.advance dt) { t with upd := s.upd, mem := s.mem }
          [Reg.XSPI_UPD_STATUS.BUSY, Reg.XSPI_UPD_CTRL.MOTION_SW])) ∧
    (s.upd.cmd = some 1 → completes (.updCmdDone dt true) s fun t => t.upd.cmd = none ∧
      t.flag Reg.XSPI_UPD_STATUS.DONE = true ∧ t.mem.otp = s.mem.otp ∧
      (stagedImageOk (s.advance dt) = true → t.flag Reg.XSPI_UPD_STATUS.PENDING = true ∧ t.get Reg.XSPI_UPD_STATUS.CAUSE = 0) ∧
      (stagedImageOk (s.advance dt) = false → t.mem = s.mem ∧ t.get Reg.XSPI_UPD_STATUS.CAUSE = UpdCause.BAD_IMAGE))) ∧
  (∀ (s : State) (dt : Nat),
    (s.inRun = true → s.flag Reg.MAC_FLOCK_CTRL.EN = true → s.flag Reg.MAC_FLOCK_BASE.PRESENT = true →
      s.flag Reg.MAC_FLOCK_STATUS.ROUND_BUSY = false →
      completes (.flockRoundStart dt) s fun t =>
        (gapOver (s.advance dt) = true → t.flag Reg.MAC_FLOCK_STATUS.ROUND_BUSY = true ∧
          t.mac = { s.mac with floods := s.mac.floods ++ flockRound s } ∧
          onlyRegs (s.advance dt) { t with mac := s.mac } [Reg.MAC_FLOCK_STATUS.ROUND_BUSY]) ∧
        (gapOver (s.advance dt) = false → t = s.advance dt)) ∧
    (s.flag Reg.MAC_FLOCK_STATUS.ROUND_BUSY = true → (∀ w ∈ s.mac.floods, w.flock = none) →
      completes (.flockRoundEnd dt) s fun t => t.flag Reg.MAC_FLOCK_STATUS.ROUND_BUSY = false ∧
        t.flock.endTick = some t.tick ∧ onlyRegs (s.advance dt) { t with flock := s.flock }
          [Reg.MAC_FLOCK_STATUS.ROUND_BUSY, Reg.MAC_FLOCK_STATUS.ROUNDS]))

/-- R86, R87: GO starts the unit's check, and is ignored while one runs; while an accepted list waits it is refused with
0x0402. R90: CANCEL drops a list that waits, and has no effect from the boundary of ACT_ASN on; in a write of both it goes
first (the model's choice: log entry 68). R89: a list whose entries apply, whose schedule passes and whose ACT_ASN lies ahead
is accepted and waits. -/
def Obligations.ScheduleAdmission : Prop :=
  ∀ (s a : State) (dt : Nat) (v : Word) (reached : Bool), a = s.advance dt →
    reached = s.sau.pending.any (fun p => slotReached a p.1) →
    (s.flag Reg.MAC_SAU_STATUS.BUSY = false → s.flag Reg.MAC_SAU_STATUS.PENDING = false ∨ v.getLsbD 62 = true ∧ reached = false →
      completes (.sauGo dt v) s fun t => t.flag Reg.MAC_SAU_STATUS.BUSY = true ∧ t.flag Reg.MAC_SAU_STATUS.PENDING = false ∧
        t.get Reg.MAC_SAU_CTRL.COUNT = bits v.toNat 12 0 ∧ onlyRegsAnswered a { t with sau := s.sau }
          [Reg.MAC_SAU_CTRL.COUNT, Reg.MAC_SAU_STATUS.BUSY, Reg.MAC_SAU_STATUS.PENDING]) ∧
    (s.flag Reg.MAC_SAU_STATUS.BUSY = false → s.flag Reg.MAC_SAU_STATUS.PENDING = true → v.getLsbD 62 = false ∨ reached = true →
      completes (.sauGo dt v) s fun t => t.get Reg.MAC_SAU_STATUS.REASON = 0x0402 ∧ t.sau = s.sau ∧
        t.flag Reg.MAC_SAU_STATUS.PENDING = true ∧ t.flag Reg.MAC_SAU_STATUS.ACCEPTED = false ∧ t.tables = s.tables) ∧
    (s.flag Reg.MAC_SAU_STATUS.BUSY = true → v.getLsbD 62 = false → completes (.sauGo dt v) s fun t =>
      onlyRegsAnswered a t [Reg.MAC_SAU_CTRL.COUNT]) ∧
    (s.flag Reg.MAC_SAU_STATUS.PENDING = true → v.getLsbD 63 = false → reached = false →
      completes (.sauCancel dt v) s fun t => t.flag Reg.MAC_SAU_STATUS.PENDING = false ∧ t.sau.pending = none ∧
        onlyRegsAnswered a { t with sau := s.sau } [Reg.MAC_SAU_CTRL.COUNT, Reg.MAC_SAU_STATUS.PENDING]) ∧
    (v.getLsbD 63 = false → reached = true → completes (.sauCancel dt v) s fun t => onlyRegsAnswered a t [Reg.MAC_SAU_CTRL.COUNT]) ∧
    (∀ (n addr : Nat) (after : State), s.flag Reg.MAC_SAU_STATUS.BUSY = true → n = s.get Reg.MAC_SAU_CTRL.COUNT →
      addr = s.get Reg.MAC_SAU_LIST.ADDR * 16 → 1 ≤ n → n ≤ 4096 → s.inLp4x addr (16 * n) = true →
      sauApplyAll ((List.range n).map (sauEntry s addr)) 0 (s.advance dt) = .ok after → scheduleCause after = none →
      later 40 (s.get Reg.MAC_SAU_ACT_ASN.ACT_ASN) (asnNow (s.advance dt)) = true →
      completes (.sauCheckDone dt) s fun t => t.flag Reg.MAC_SAU_STATUS.BUSY = false ∧
        t.flag Reg.MAC_SAU_STATUS.ACCEPTED = true ∧ t.flag Reg.MAC_SAU_STATUS.PENDING = true ∧
        t.sau.pending = some (s.get Reg.MAC_SAU_ACT_ASN.ACT_ASN, (List.range n).map (sauEntry s addr)) ∧
        onlyRegs (s.advance dt) { t with sau := s.sau } [Reg.MAC_SAU_STATUS.BUSY, Reg.MAC_SAU_STATUS.DONE,
          Reg.MAC_SAU_STATUS.ACCEPTED, Reg.MAC_SAU_STATUS.REASON, Reg.MAC_SAU_STATUS.ITEM, Reg.MAC_SAU_STATUS.PENDING]) ∧
    (s.flag Reg.MAC_SAU_STATUS.BUSY = true → s.get Reg.MAC_SAU_CTRL.COUNT = 0 → completes (.sauCheckDone dt) s fun t =>
      t.get Reg.MAC_SAU_STATUS.REASON = 0x0404 ∧ t.flag Reg.MAC_SAU_STATUS.ACCEPTED = false ∧ t.tables = s.tables)

/-! The radio front ends. -/

/-- R95: gain steps down 12 dB at more than 8 clipped samples above the threshold, up 12 dB after a quiet wait, and holds
while FREEZE is set. R99: the comparison makes a VALID entry STALE when its TCAL differs by more than 8 °C, and leaves a
nearer one VALID. R100, R102: on an idle chain with BG_EN the next entry is calibrated, with its state in PRIOR; it ends VALID
with TCAL at the die temperature, or INVALID and counted as BG_CAL_FAIL. The comparison takes place at a multiple of 10 ms,
and nothing happens between. -/
def Obligations.GainAndEntryCalibration : Prop :=
  (∀ (s : State) (dt : Nat) (fe : Fin 3) (n : Nat) (peak : Int),
    (s.flag (Reg.FE_AGC_CTRL.FREEZE fe) = false → 8 < n → -(s.get (Reg.FE_AGC_CTRL.CLIP_DBFS fe) : Int) < peak →
      s.get (Reg.FE_AGC_STATUS.GAIN_STATE fe) < 3 → completes (.agcStepDown dt fe n peak) s fun t =>
        t.get (Reg.FE_AGC_STATUS.GAIN_STATE fe) = s.get (Reg.FE_AGC_STATUS.GAIN_STATE fe) + 1 ∧
          onlyRegs (s.advance dt) t [Reg.FE_AGC_STATUS.GAIN_STATE fe, Reg.FE_AGC_STATUS.PEAK_DBFS fe]) ∧
    (s.flag (Reg.FE_AGC_CTRL.FREEZE fe) = false → 10 * max 1 (s.get (Reg.FE_AGC_CTRL.UP_WAIT fe)) ≤ n →
      peak < -(2 * s.get (Reg.FE_AGC_CTRL.LOW_DBFS fe) : Int) → 0 < s.get (Reg.FE_AGC_STATUS.GAIN_STATE fe) →
      s.get (Reg.FE_AGC_STATUS.GAIN_STATE fe) ≤ 3 → completes (.agcStepUp dt fe n peak) s fun t =>
        t.get (Reg.FE_AGC_STATUS.GAIN_STATE fe) = s.get (Reg.FE_AGC_STATUS.GAIN_STATE fe) - 1 ∧
          onlyRegs (s.advance dt) t [Reg.FE_AGC_STATUS.GAIN_STATE fe, Reg.FE_AGC_STATUS.PEAK_DBFS fe]) ∧
    (s.flag (Reg.FE_AGC_CTRL.FREEZE fe) = true →
      completes (.agcStepDown dt fe n peak) s (fun t => t = s.advance dt) ∧
      completes (.agcStepUp dt fe n peak) s (fun t => t = s.advance dt))) ∧
  (∀ (s : State) (dt : Nat) (fe : Fin 3) (die : Int) (i : Nat), (s.fe fe).used ≤ 512 → i < (s.fe fe).used →
    (tempDue (s.advance dt) fe = false → completes (.txcalTempCheck dt fe die) s fun t => t = s.advance dt) ∧
    (tempDue (s.advance dt) fe = true → calState s fe i = Cal.VALID → completes (.txcalTempCheck dt fe die) s fun t =>
      t.get (Reg.FE_STATUS.TEMP fe) = ofSigned 8 (die.tdiv 8) ∧
        calState t fe i = (if 64 < (die - toSigned 12 (s.get (Reg.FE_TXCAL_ENTRY.TCAL fe i))).natAbs then Cal.STALE
          else Cal.VALID) ∧ { t with fields := s.fields, fe0 := s.fe0, fe1 := s.fe1, fe2 := s.fe2 } = s.advance dt) ∧
    (s.inRun = true → (s.fe fe).cal = none →
      idleChain (s.advance dt) fe = true → requestNext s fe = none → s.flag (Reg.FE_TXCAL_CTRL.BG_EN fe) = true →
      bgNext s fe = some i → completes (.bgCalStart dt fe) s fun t => calState t fe i = Cal.CALIBRATING ∧
        t.get (Reg.FE_TXCAL_ENTRY.PRIOR fe i) = calState s fe i % 4 ∧
        (t.fe fe).cal = some { entry := i, requested := false } ∧
        onlyFe (s.advance dt) t fe [Reg.FE_TXCAL_ENTRY.STATE fe i, Reg.FE_TXCAL_ENTRY.PRIOR fe i,
          Reg.FE_CAL_STATUS.STALE_CNT fe, Reg.FE_CAL_STATUS.INVALID_CNT fe]) ∧
    ((s.fe fe).cal = some { entry := i, requested := false } →
      completes (.txCalDone dt fe true) s (fun t => calState t fe i = Cal.VALID ∧ (t.fe fe).cal = none ∧
        t.get (Reg.FE_TXCAL_ENTRY.TCAL fe i) = ofSigned 12 (s.fe fe).die ∧
        onlyFe (s.advance dt) t fe [Reg.FE_TXCAL_ENTRY.STATE fe i, Reg.FE_TXCAL_ENTRY.PRIOR fe i,
          Reg.FE_TXCAL_ENTRY.TCAL fe i, Reg.FE_CAL_STATUS.STALE_CNT fe, Reg.FE_CAL_STATUS.INVALID_CNT fe]) ∧
      completes (.txCalDone dt fe false) s (fun t => calState t fe i = Cal.INVALID ∧ (t.fe fe).cal = none ∧
        countedOnce s t Ctr.BG_CAL_FAIL ∧ t.events = s.events)))

/-- R104 to R106, R123: a committed emission's hop starts when its settle bound requires it, lock follows, and the first chip
leaves at or after the nominal instant with TX_ON set; its last chip ends it and frees the chain. A deadline that passes
without lock abandons it. -/
def Obligations.EmissionsRun : Prop :=
  ∀ (s : State) (dt : Nat) (fe : Fin 3) (e : Emission),
    (nextCommitted s fe = some e → e.phase = .committed → emitting s fe = none → (s.fe fe).cal = none →
      e.nominalNs ≤ (s.advance dt).time.ns + settleNs s fe e → (s.fe fe).lastChipNs + lagNs s fe ≤ (s.advance dt).time.ns →
      completes (.txHopStart dt fe) s fun t => { e with phase := .hopping } ∈ (t.fe fe).emissions ∧
        t.get (Reg.FE_STATUS.TX_ENTRY fe) = e.entry % 512 ∧ t.flag (Reg.FE_STATUS.TX_LOCK fe) = false ∧
        onlyFe (s.advance dt) t fe [Reg.FE_STATUS.TX_ENTRY fe, Reg.FE_STATUS.TX_LOCK fe]) ∧
    (inPhase s fe .hopping = some e → e.scratch = false → e.entry < 512 → completes (.txLock dt fe) s fun t =>
      { e with phase := .locked } ∈ (t.fe fe).emissions ∧ t.flag (Reg.FE_STATUS.TX_LOCK fe) = true ∧
        (calState s fe e.entry = Cal.STALE ∨ calState s fe e.entry = Cal.INVALID → calState t fe e.entry = Cal.VALID ∧
          t.get (Reg.FE_TXCAL_ENTRY.TCAL fe e.entry) = ofSigned 12 (s.fe fe).die)) ∧
    (inPhase s fe .locked = some e → listening s e = false →
      completes (.emissionStart dt fe) s fun t =>
        ((s.advance dt).time.ns < e.nominalNs ∨ e.ready = false → t = s.advance dt) ∧
        (e.nominalNs ≤ (s.advance dt).time.ns → e.ready = true → t.flag (Reg.FE_STATUS.TX_ON fe) = true ∧
          t.get (Reg.FE_STATUS.CARRIERS fe) = e.carriers.length % 256 ∧
          (∃ cs : List Carrier, cs.map (·.load) = e.carriers.map (·.load) ∧
            t.outs = s.outs ++ [.emission fe e.kind cs (cs.map onAir) t.time.ns] ∧
            { e with phase := .emitting, startNs := t.time.ns, carriers := cs } ∈ (t.fe fe).emissions) ∧
          onlyFe (s.advance dt) { t with outs := s.outs, safe := s.safe } fe
            [Reg.FE_STATUS.TX_ON fe, Reg.FE_STATUS.CARRIERS fe])) ∧
    (nextCommitted s fe = some e → e.phase ≠ .locked → e.deadline ≤ (s.advance dt).time.ns →
      completes (.txDeadline dt fe) s fun t => e ∉ (t.fe fe).emissions ∧
        reports (s.advance dt) t Ev.TX_LATE fun arg => bits arg 43 40 =
          (if (s.fe fe).cal.any fun c => !e.scratch && decide (c.entry = e.entry) then 2 else 1)) ∧
    (emitting s fe = some e → e.startNs + e.airNs ≤ (s.advance dt).time.ns → completes (.emissionEnd dt fe) s fun t =>
      emitting t fe = none ∧ t.flag (Reg.FE_STATUS.TX_ON fe) = false ∧ t.get (Reg.FE_STATUS.CARRIERS fe) = 0 ∧
        (t.fe fe).lastChipNs = e.startNs + e.airNs ∧ t.mem = s.mem)

/-- R108, R121, R122: a drop of lock during an emission ramps the PA down and raises TX_LATE with cause LOCK_LOST. A segment
above its limit in a whole 100 µs of an emission raises MASK_VIOLATION; with BACKOFF the power falls by 1 dB down to 6 dB in
total, and with STOP the chain stops. RESUME clears both. R123 to R125: when an emission's blanking window begins, the
emitter's own receiver and the peers it names are BLANKED, and no lane of theirs keeps a frame; the window ends 15 µs after
the last chip. -/
def Obligations.LockLossMaskAndBlanking : Prop :=
  (∀ (s : State) (dt : Nat) (fe : Fin 3) (e : Emission) (seg excess : Nat),
    (emitting s fe = some e → completes (.lockLost dt fe) s fun t => emitting t fe = none ∧
      t.flag (Reg.FE_STATUS.TX_ON fe) = false ∧ t.flag (Reg.FE_STATUS.TX_LOCK fe) = false ∧ .rampDown fe ∈ t.outs ∧
        reports (s.advance dt) t Ev.TX_LATE fun arg => bits arg 43 40 = 3) ∧
    (emitting s fe = some e → fe = 2 ∨ (s.advance dt).time.ns < e.startNs + ((s.fe fe).maskDone + 1) * 100000 →
      completes (.maskWindow dt fe [(seg, excess)]) s fun t => t = s.advance dt) ∧
    (fe ≠ 2 → emitting s fe = some e → e.startNs + ((s.fe fe).maskDone + 1) * 100000 ≤ (s.advance dt).time.ns → seg < 32 →
      s.flag (Reg.FE_MASK_SEG.EN fe seg) = true → completes (.maskWindow dt fe [(seg, excess)]) s fun t =>
        reports (s.advance dt) t Ev.MASK_VIOLATION (fun arg => bits arg 45 41 = seg) ∧
        (s.get (Reg.FE_MASK_CTRL.ACT fe) = 0 → (t.fe fe) = { s.fe fe with maskDone := (s.fe fe).maskDone + 1 } ∧
          t.get (Reg.FE_MASK_CTRL.BACKOFF_QDB fe) = s.get (Reg.FE_MASK_CTRL.BACKOFF_QDB fe)) ∧
        (s.get (Reg.FE_MASK_CTRL.ACT fe) = 1 →
          t.get (Reg.FE_MASK_CTRL.BACKOFF_QDB fe) = min 24 (s.get (Reg.FE_MASK_CTRL.BACKOFF_QDB fe) + 4) ∧
            (emitting t fe).isSome = true) ∧
        (s.get (Reg.FE_MASK_CTRL.ACT fe) = 2 → t.flag (Reg.FE_STATUS.MASK_STOPPED fe) = true ∧ emitting t fe = none ∧
          t.flag (Reg.FE_STATUS.TX_ON fe) = false)) ∧
    (fe ≠ 2 → completes (.maskResume dt fe) s fun t => t.get (Reg.FE_MASK_CTRL.BACKOFF_QDB fe) = 0 ∧
      t.flag (Reg.FE_STATUS.MASK_STOPPED fe) = false ∧
        onlyRegsAnswered (s.advance dt) t [Reg.FE_MASK_CTRL.BACKOFF_QDB fe, Reg.FE_STATUS.MASK_STOPPED fe])) ∧
  (∀ (s : State) (dt : Nat) (fe emitter : Fin 3) (e : Emission),
    (blankingFor (s.advance dt) emitter = some e → blanks s emitter fe = true → emitter.val ∉ (s.fe fe).blankedBy →
      completes (.blankingStart dt fe emitter) s fun t => t.flag (Reg.FE_STATUS.BLANKED fe) = true ∧
        emitter.val ∈ (t.fe fe).blankedBy ∧ (∀ l ∈ t.hear.lanes, l.2.fe = fe.val → laneHasFrame l.2 = false) ∧
        ((∃ l ∈ s.hear.lanes, l.2.fe = fe.val ∧ laneHasFrame l.2 = true) →
          countedOnce s t Ev.RX_BLANKED) ∧
        ((∀ l ∈ s.hear.lanes, l.2.fe = fe.val → laneHasFrame l.2 = false) →
          Cells.get t.counters Ev.RX_BLANKED 0 = Cells.get s.counters Ev.RX_BLANKED 0)) ∧
    ((s.fe fe).blankedBy = [emitter.val] → emitting s emitter = none → blankingFor (s.advance dt) emitter = none →
      (s.fe emitter).lastChipNs + 15000 ≤ (s.advance dt).time.ns → completes (.blankingEnd dt fe emitter) s fun t =>
        t.flag (Reg.FE_STATUS.BLANKED fe) = false ∧ (t.fe fe).blankedBy = [] ∧
          onlyFe (s.advance dt) t fe [Reg.FE_STATUS.BLANKED fe]))

/-- R138 to R140, R740: while BUSY is clear, a request of KIND 1 to 3 takes the receiver out of service; KIND 4 waits for its
entry, and an unused entry is REJECTED; KIND 5 queues every used entry; KIND 6 waits for live emissions and is REJECTED on
FE2. A receive calibration that succeeds brings the receiver back; one that fails raises CAL_FAIL, and so does a DPD training,
which leaves one carrier (R118). While BUSY is set a GO is ignored. -/
def Obligations.CalibrationRequests : Prop :=
  ∀ (s : State) (dt : Nat) (fe : Fin 3) (entry : Nat) (c : Instr) (kind : Nat),
    (c, kind) ∈ [(Instr.calReqAdc dt fe, 1), (.calReqIq dt fe, 2), (.calReqLoLeakage dt fe, 3)] →
    (s.flag (Reg.FE_CAL_STATUS.BUSY fe) = false →
      completes c s (fun t => t.flag (Reg.FE_CAL_STATUS.BUSY fe) = true ∧ t.get (Reg.FE_CAL_STATUS.KIND fe) = kind ∧
        t.flag (Reg.FE_STATUS.RX_IN_SERVICE fe) = false ∧ (t.fe fe).request = some { kind := kind, entries := [] } ∧
        ∀ l ∈ t.hear.lanes, l.2.fe = fe.val → laneHasFrame l.2 = false) ∧
      (entry < 512 → entry < (s.fe fe).used → entry < tableSize fe → completes (.calReqTxEntry dt fe entry) s fun t =>
        t.flag (Reg.FE_CAL_STATUS.BUSY fe) = true ∧ t.get (Reg.FE_CAL_STATUS.ENTRY fe) = entry ∧
          (t.fe fe).request = some { kind := 4, entries := [entry] } ∧ onlyFe (s.advance dt) { t with bus := s.bus } fe
            [Reg.FE_CAL_STATUS.BUSY fe, Reg.FE_CAL_STATUS.KIND fe, Reg.FE_CAL_STATUS.ENTRY fe]) ∧
      (entry < 512 → (s.fe fe).used ≤ entry → completes (.calReqTxEntry dt fe entry) s fun t =>
        t.flag (Reg.FE_CAL_STATUS.REJECTED fe) = true ∧ t.flag (Reg.FE_CAL_STATUS.BUSY fe) = false ∧ t.fe fe = s.fe fe) ∧
      completes (.calReqTxTable dt fe) s (fun t => t.get (Reg.FE_CAL_STATUS.KIND fe) = 5 ∧
        if (s.fe fe).used = 0 then t.flag (Reg.FE_CAL_STATUS.DONE fe) = true ∧ t.flag (Reg.FE_CAL_STATUS.BUSY fe) = false
        else t.flag (Reg.FE_CAL_STATUS.BUSY fe) = true ∧
          (t.fe fe).request = some { kind := 5, entries := List.range (s.fe fe).used }) ∧
      completes (.calReqDpd dt fe) s (fun t => if fe = 2 then t.flag (Reg.FE_CAL_STATUS.REJECTED fe) = true
        else t.flag (Reg.FE_CAL_STATUS.BUSY fe) = true ∧ (t.fe fe).request = some { kind := 6, entries := [] })) ∧
    ((s.fe fe).request = some { kind := kind, entries := [] } →
      completes (.reqCalDone dt fe true) s (fun t => t.flag (Reg.FE_STATUS.RX_IN_SERVICE fe) = true ∧
        t.flag (Reg.FE_CAL_STATUS.BUSY fe) = false ∧ t.flag (Reg.FE_CAL_STATUS.DONE fe) = true ∧ (t.fe fe).request = none) ∧
      completes (.reqCalDone dt fe false) s (fun t => t.flag (Reg.FE_CAL_STATUS.FAIL fe) = true ∧
        t.flag (Reg.FE_STATUS.RX_IN_SERVICE fe) = false ∧
        reports (s.advance dt) t Ev.CAL_FAIL fun arg => bits arg 45 42 = kind)) ∧
    (∀ r, (s.fe fe).request = some r → r.kind = 4 ∨ r.kind = 5 → ∀ ok, completes (.reqCalDone dt fe ok) s fun t =>
      if r.entries = [] then t.flag (Reg.FE_CAL_STATUS.BUSY fe) = false ∧ t.flag (Reg.FE_CAL_STATUS.DONE fe) = true ∧
        (t.fe fe).request = none ∧ (r.failed = true → t.flag (Reg.FE_CAL_STATUS.FAIL fe) = true) else t = s.advance dt) ∧
    (∀ r, (s.fe fe).request = some r → r.kind = 6 →
      (0 < (s.fe fe).dpdUs → completes (.reqCalDone dt fe true) s fun t => t.flag (Reg.FE_CAL_STATUS.BUSY fe) = false ∧
        t.flag (Reg.FE_CAL_STATUS.DONE fe) = true ∧ (t.fe fe).request = none) ∧
      ((s.fe fe).dpdUs = 0 → completes (.reqCalDone dt fe true) s fun t => t = s.advance dt) ∧
      completes (.reqCalDone dt fe false) s (fun t => t.flag (Reg.FE_CAL_STATUS.FAIL fe) = true ∧ (t.fe fe).request = none ∧
        t.get (Reg.FE_TX_CTRL.MAX_CARRIERS fe) = 1 ∧ reports (s.advance dt) t Ev.CAL_FAIL fun arg => bits arg 45 42 = 5)) ∧
    (s.flag (Reg.FE_CAL_STATUS.BUSY fe) = true →
      ∀ c' ∈ [c, .calReqTxEntry dt fe entry, .calReqTxTable dt fe, .calReqDpd dt fe],
        completes c' s (fun t => onlyRegsAnswered (s.advance dt) t []))

/-! Detectors, lanes and collision recovery. -/

/-- R150 to R156: a declared detection takes the lane reserved for it, or the lowest free one, which goes to ACQUIRE; with
none free it is a LANE_MISS. A copy of a frame in a lane of the other sub-GHz front end is counted as DIV_SUPPRESS. What is
not declared has no effect, and R154: of two in one cycle the sooner one goes first, in whichever order they are given. R153:
a pending reservation whose window runs takes a free lane, and one whose window ends is dropped as RSV_MISS. Of memory only
the capture region may change. R157 to R159, R162 to R164, R192: the states of a lane from ACQUIRE to PAYLOAD and back to
FREE. A sync word that is accepted in time ends acquisition with the lane's measurements; the sixteen symbols end with the
frequency estimate held; a timeout is SYNC_MISS, and a header that is not accepted HDR_FAIL. An injection takes the lowest
lane that no reservation waits for, and one that fails excludes the lane and raises CAL_FAIL KIND 8. -/
def Obligations.DetectionsAndLanes : Prop :=
  (∀ (s a : State) (dt x : Nat) (d e : Detect) (n : Nat) (p : PendingRsv) (other : State → Nat → Prop), a = s.advance dt →
    other = (fun t m => { laneAt t m with overlap := (laneAt s m).overlap } = laneAt s m) →
    completes (.detection dt []) s (fun t => t = a) ∧
    (declares a d = false → completes (.detection dt [d]) s fun t => t = a) ∧
    (sooner e d = true → sooner d e = false → exec (.detection dt [d, e]) s = exec (.detection dt [e, d]) s) ∧
    (declares a d = true →
      (divSuppressed a d = true → completes (.detection dt [d]) s fun t =>
        countedOnce s t Ctr.DIV_SUPPRESS ∧ (∀ m, other t m) ∧ t.up = s.up ∧
          (x < ctxBase s 0 ∨ ctxBase s 32 ≤ x → t.ddr x 1 = s.ddr x 1)) ∧
      (divSuppressed a d = false → (matchingReservation a d.fe d.bin = some n ∨
          (matchingReservation a d.fe d.bin = none ∧ laneForDetection a (isWide d.fe) = some n)) →
        completes (.detection dt [d]) s fun t => (laneAt t n).stage = .acquire ∧ (laneAt t n).fe = d.fe ∧
          (laneAt t n).bin = d.bin ∧ (laneAt t n).mode = d.mode ∧ (laneAt t n).overlap = overlaps a d ∧
          (laneAt t n).timingNs = d.timing ∧ (∀ m, m ≠ n → other t m) ∧ t.up = s.up ∧
          (x < ctxBase s 0 ∨ ctxBase s 32 ≤ x → t.ddr x 1 = s.ddr x 1)) ∧
      (divSuppressed a d = false → matchingReservation a d.fe d.bin = none → laneForDetection a (isWide d.fe) = none →
        completes (.detection dt [d]) s fun t => countedOnce s t Ev.LANE_MISS ∧ (∀ m, other t m) ∧ t.up = s.up ∧
          (x < ctxBase s 0 ∨ ctxBase s 32 ≤ x → t.ddr x 1 = s.ddr x 1))) ∧
    (s.hear.pendingRsv = [p] → p.windowTo ≤ antennaNs a p.fe → completes (.rsvWindowEnd dt p.cell) s fun t =>
      t.hear.pendingRsv = [] ∧ countedOnce s t Ctr.RSV_MISS ∧ ∀ e ∈ t.hear.lanes, e.2.stage = .reserved →
        e.2.cell = p.cell → antennaNs a e.2.fe < e.2.windowTo) ∧
    (s.hear.pendingRsv = [p] → antennaNs a p.fe < p.windowTo → (freeLanes s (isWide p.fe)).head? = some n →
      completes (.pendingReservationServed dt) s fun t => t.hear.pendingRsv = [] ∧
        onlyLane a { t with hear := { t.hear with pendingRsv := [p] } } n { stage := .reserved, fe := p.fe, bin := p.bin, cell := p.cell
                                                                            windowFrom := p.windowFrom, windowTo := p.windowTo }) ∧
    (s.hear.pendingRsv = [p] → p.windowTo ≤ antennaNs a p.fe → completes (.pendingReservationServed dt) s fun t => t = a)) ∧
  (∀ (s a : State) (dt n sync : Nat) (m : LaneMeasure) (h : PhyHeader) (l : Lane) (afc power : Int) (steps : List EqStep),
    a = s.advance dt → laneAt s n = l →
    (l.stage = .acquire → syncAccepted s l sync = true → pipeNs l.fe ≤ m.syncAt → syncTimely a l (m.syncAt - pipeNs l.fe) = true →
      completes (.syncFound dt n sync m steps) s fun t =>
        onlyLane a t n { l with stage := .header, afc := afcOf l.fe m.afc, rssi := atAntenna s l.fe m.power, lq := lqOf m.snr
                                syncNs := m.syncAt - pipeNs l.fe, eq := { steps.foldl eqStep l.eq with tracking := true } }) ∧
    (l.stage = .syncSearch → syncAccepted s l sync = true → pipeNs l.fe ≤ m.syncAt → syncTimely a l (m.syncAt - pipeNs l.fe) = true →
      completes (.syncFound dt n sync m steps) s fun t =>
        onlyLane a t n { l with stage := .header, lq := lqOf m.snr, syncNs := m.syncAt - pipeNs l.fe
                                eq := { steps.foldl eqStep l.eq with tracking := true } }) ∧
    (syncAccepted s l sync = false → completes (.syncFound dt n sync m steps) s fun t => t = a) ∧
    (l.stage = .acquire → l.allocNs + symbolsNs l.mode 16 ≤ antennaNs a l.fe →
      completes (.acquireEnd dt n afc power steps) s fun t => onlyLane a t n
        { l with stage := .syncSearch, afc := afcOf l.fe afc, rssi := atAntenna s l.fe power, eq := steps.foldl eqStep l.eq }) ∧
    (l.stage = .acquire ∨ l.stage = .syncSearch → l.allocNs + symbolsNs l.mode l.syncWait ≤ antennaNs a l.fe →
      completes (.syncTimeout dt n) s fun t => countedOnce s t Ctr.SYNC_MISS ∧
        onlyLane a { t with counters := s.counters, ox := s.ox } n {}) ∧
    (l.stage = .header → l.syncNs + syncNsOf l.mode + headerNsOf l.mode ≤ antennaNs a l.fe → (∀ e ∈ s.ox.jobs, e.1 ≠ n) →
      (∀ x, headerAccept s l.fe l.bin l.mode l.maxAirtime s.free h = some x → completes (.headerDecoded dt n h steps) s fun t =>
        (∃ j, (n, j) ∈ t.ox.jobs ∧ j.z = x.z ∧ j.cr = x.cr ∧ j.len = x.len ∧ j.seq = x.seq ∧ j.mode = l.mode ∧ j.done = 0 ∧
          j.afc = l.afc ∧ j.rssi = l.rssi ∧ j.lq = l.lq ∧ j.overlap = l.overlap) ∧
          onlyLane a { t with ox := s.ox, freeCtr := s.freeCtr } n
            { l with stage := .payload, eq := steps.foldl eqStep l.eq
                     endNs := l.syncNs - preambleNs l.mode + x.air256 * 1000 / 256 }) ∧
      (headerAccept s l.fe l.bin l.mode l.maxAirtime s.free h = none → completes (.headerDecoded dt n h steps) s fun t =>
        countedOnce s t Ctr.HDR_FAIL ∧ t.ox.jobs = s.ox.jobs ∧ laneAt t n = {})) ∧
    (l.stage = .payload → l.endNs + feNs l.fe ≤ a.time.ns → completes (.lanePayloadEnd dt n) s fun t => onlyLane a t n {}) ∧
    (l.stage = .payload → a.time.ns < l.endNs + feNs l.fe → completes (.lanePayloadEnd dt n) s fun t => t = a) ∧
    (∀ k, (openLanes a false ++ openLanes a true).head? = some k → completes (.laneInjectStart dt) s fun t =>
      onlyLane a t k { stage := .inject }) ∧
    (l.stage = .inject →
      completes (.laneInjectEnd dt n true) s (fun t => onlyLane a t n {}) ∧
      completes (.laneInjectEnd dt n false) s (fun t => laneExcluded t n = true ∧ laneAt t n = {} ∧
        reports a t Ev.CAL_FAIL fun arg => bits arg 45 42 = 8 ∧ bits arg 15 0 = n % 65536)))

/-- R203 to R208: the decoder of a lane stops on the codeword of its soft values after the iterations that it took. One that
meets every check extends the frame; the last one passes the frame's octets on to step 6 when their CRC holds. A codeword that
meets them within no iteration of the cap, and a CRC that fails, end the frame as DEC_FAIL. The last octet of a frame of the
IEEE 802.15.4 modes passes it on when its FCS holds, and else ends it as FCS_FAIL. -/
def Obligations.Codewords : Prop :=
  ∀ (s a : State) (dt n : Nat) (j : DecodeJob) (soft : List Int) (o : List Byte) (r : Nat × Option (List Byte)),
    a = s.advance dt → s.ox.jobs = [(n, j)] →
    r = decodeCodeword j.z j.cr j.octetsNow (decSetting a j).1 (alphaActs (decSetting a j).2) s.free soft →
    (isFostaic j.mode = true → iterated a j.startNs r.1 = true →
      (r.2 = none → completes (.codewordDecoded dt n (.soft soft)) s fun t => countedOnce s t Ctr.DEC_FAIL ∧ t.up = s.up ∧
        t.ox.jobs = [] ∧ ((laneAt s n).claim = j.claim → (laneAt t n).stage ≠ .payload) ∧ t.mem = s.mem) ∧
      (r.2 = some o → j.done + 1 < codewords j.len j.z → completes (.codewordDecoded dt n (.soft soft)) s fun t => t.up = s.up ∧
        t.hear = s.hear ∧ t.ox.jobs = [(n, { j with octets := j.octets ++ o, done := j.done + 1 })] ∧
          onlyRegs a { t with ox := s.ox, freeCtr := s.freeCtr } [Reg.OX_DEC_STATUS.PEAK_ITER] ∧
          t.get Reg.OX_DEC_STATUS.PEAK_ITER = max r.1 (s.get Reg.OX_DEC_STATUS.PEAK_ITER) % 128) ∧
      (∀ all, all = whitened (j.octets ++ o) → r.2 = some o → codewords j.len j.z ≤ j.done + 1 →
        completes (.codewordDecoded dt n (.soft soft)) s fun t =>
          if psduCrcOk all = true then
            ∃ u, t.up = s.up ++ [u] ∧ u.frame = frameOf (all.take (all.length - if j.fcs2 then 2 else 4)) ∧ u.lane = some n ∧
              u.len = j.len ∧ u.id = s.nextFrame ∧ u.seq = j.seq ∧ u.syncNs = j.syncNs ∧ u.stage = .fetch ∧
              t.nextFrame = s.nextFrame + 1 ∧ t.ox.jobs = []
          else countedOnce s t Ctr.DEC_FAIL ∧ t.up = s.up ∧ t.ox.jobs = [])) ∧
    (isFostaic j.mode = true → iterated a j.startNs r.1 = false → completes (.codewordDecoded dt n (.soft soft)) s fun t => t = a) ∧
    (isFostaic j.mode = false → j.endNs + feNs j.fe ≤ a.time.ns → completes (.codewordDecoded dt n (.octets o)) s fun t => t.ox.jobs = [] ∧
      (o.length = j.len → fcsOk j.fcs2 o = true → ∃ u, t.up = s.up ++ [u] ∧ u.lane = some n ∧ u.len = j.len ∧
        u.frame = frameOf (o.take (o.length - if j.fcs2 then 2 else 4))) ∧
      (o.length ≠ j.len ∨ fcsOk j.fcs2 o = false → countedOnce s t Ctr.FCS_FAIL ∧ t.up = s.up))

/-- R170 to R173: in RUN, at a 1 ms boundary, FORCE_STORM with STORM permitted, or 200 ms above 90 % with AUTO_STORM, puts
STORM in force and raises STORM_ENTER; 2 s below half of the lanes of the base mode ends it with STORM_EXIT. A write of
CHAN_HEAR_CTRL ignores a BASE that is not permitted, and writes PERMIT only before the lock. R217, R223, R225 to R227: a
RECORDING context that is due closes with its samples in its region and is QUEUED behind the others; a free canceller takes
the one that closed first. In the first layer a frame that a lane has passed is the reference; after it, and where there is
none, the strongest detection of the residual is decoded: a frame that is new goes to step 6, and the next layer follows. A
layer that finds nothing it may choose, fails or meets an uncorrectable word ends the context. -/
def Obligations.HearingAndCapture : Prop :=
  (∀ (s a : State) (dt permit : Nat) (v : Word) (powers : List BinPower), a = s.advance dt →
    permit = (if s.flag (Reg.LOCK Block.CHAN) then s.get Reg.CHAN_HEAR_CTRL.PERMIT else bits v.toNat 55 53) →
    (s.inRun = true → sampleDue a = true → s.get Reg.CHAN_STATUS.MODE ≠ modeSTORM → bit (s.get Reg.CHAN_HEAR_CTRL.PERMIT) 2 = true →
      s.get Reg.HEALTH_STATUS.PROFILE ≠ 3 →
      (s.flag Reg.CHAN_HEAR_CTRL.FORCE_STORM = true → completes (.occSample dt powers) s fun t =>
        t.get Reg.CHAN_STATUS.MODE = modeSTORM ∧ t.flag Reg.CHAN_STATUS.STORM_AUTO = false ∧ t.mem = s.mem ∧
          reports a t Ev.STORM_ENTER fun arg => bits arg 45 45 = 1) ∧
      (s.flag Reg.CHAN_HEAR_CTRL.FORCE_STORM = false → s.flag Reg.CHAN_HEAR_CTRL.AUTO_STORM = true →
        9 * enabledBoth s (s.get Reg.CHAN_STATUS.MODE) < 10 * occupiedLanes s →
        199 ≤ s.get Reg.CHAN_OCC_STATUS.ABOVE_MS → completes (.occSample dt powers) s fun t =>
          t.get Reg.CHAN_STATUS.MODE = modeSTORM ∧ t.flag Reg.CHAN_STATUS.STORM_AUTO = true ∧
            reports a t Ev.STORM_ENTER fun arg => bits arg 45 45 = 0)) ∧
    (s.inRun = true → sampleDue a = true → s.get Reg.CHAN_STATUS.MODE = modeSTORM → s.flag Reg.CHAN_HEAR_CTRL.FORCE_STORM = false →
      2 * occupiedLanes s < enabledBoth s (baseMode s) → 1999 ≤ s.get Reg.CHAN_OCC_STATUS.BELOW_MS →
      completes (.occSample dt powers) s fun t => t.get Reg.CHAN_STATUS.MODE = baseMode s % 4 ∧
        t.flag Reg.CHAN_STATUS.STORM_AUTO = false ∧ reports a t Ev.STORM_EXIT fun arg => bits arg 47 46 = baseMode s % 4) ∧
    (s.inRun = false ∨ sampleDue a = false → completes (.occSample dt powers) s fun t => t = a) ∧
    completes (.hearCtrlWrite dt v) s (fun t => t.get Reg.CHAN_HEAR_CTRL.PERMIT = permit ∧
      t.get Reg.CHAN_HEAR_CTRL.BASE = (if bits v.toNat 63 62 ≤ 1 ∧ bit permit (bits v.toNat 63 62)
        then bits v.toNat 63 62 else s.get Reg.CHAN_HEAR_CTRL.BASE) ∧
      t.flag Reg.CHAN_HEAR_CTRL.AUTO_STORM = v.getLsbD 61 ∧ t.flag Reg.CHAN_HEAR_CTRL.FORCE_STORM = v.getLsbD 60 ∧
      onlyRegsAnswered a t [Reg.CHAN_HEAR_CTRL.BASE, Reg.CHAN_HEAR_CTRL.AUTO_STORM, Reg.CHAN_HEAR_CTRL.FORCE_STORM,
        Reg.CHAN_HEAR_CTRL.PERMIT, Reg.CHAN_OCC_STATUS.BELOW_MS])) ∧
  (∀ (s a : State) (dt x : Nat) (k : Fin 32) (c next : Context) (n : Nat) (rest : List Nat) (f : LayerFrame)
    (samples kept : List (BitVec 16 × BitVec 16)) (href : Heard) (j : DecodeJob) (r : Nat × Option (List Byte)) (o : List Byte),
    a = s.advance dt → ctxAt s k = c → kept = samples.take (ctxCountNow a c) →
    next = (if c.layer + 1 < c.layerMax then { c with layer := c.layer + 1 } else {}) →
    (ctxDue a k = true → completes (.contextClose dt k samples) s fun t =>
      ctxAt t k = { c with stage := .queued, armed := [], endNs := min (antennaNs a c.fe) (c.startNs + 64000000) } ∧
        t.ox.queue = s.ox.queue ++ [k.val] ∧ (∀ i, i ≠ k.val → ctxAt t i = ctxAt s i) ∧ { t with ox := s.ox, mem := s.mem } = a ∧
        t.ddr (ctxBase s k + 0x100) (4 * kept.length) = kept.flatMap (fun p => leBytes 2 p.1.toNat ++ leBytes 2 p.2.toNat) ∧
        (x < ctxBase s k + 0x100 ∨ ctxBase s k + 0x100 + 4 * kept.length ≤ x → t.ddr x 1 = s.ddr x 1)) ∧
    (ctxDue a k = false → completes (.contextClose dt k samples) s fun t => t = a) ∧
    (ctxCount s .processing < 8 → s.ox.queue = n :: rest → completes (.cancellerTake dt) s fun t =>
      ctxAt t n = { ctxAt s n with stage := .processing } ∧ t.ox.queue = rest ∧ { t with ox := s.ox } = a) ∧
    (c.stage = .processing →
      completes (.cancelLayerDone dt k .uncorrectable) s (fun t => ctxAt t k = {} ∧ countedOnce s t Ctr.CAP_ABORT ∧
        t.flag Reg.DDRC_ECC.UNCORR = true ∧ t.mem = s.mem) ∧
      (c.layer = 0 → laneReference s c = some href → isFD href.mode = true → completes (.cancelLayerDone dt k .nothing) s fun t =>
        ctxAt t k = next ∧ t.up = s.up ∧ (x < ctxBase s k ∨ ctxBase s k + 0x40000 ≤ x → t.ddr x 1 = s.ddr x 1)) ∧
      (c.layer ≠ 0 ∨ laneReference s c = none →
        completes (.cancelLayerDone dt k .nothing) s (fun t => ctxAt t k = {} ∧ { t with ox := s.ox } = a) ∧
        (layerFits s c f (f.m.syncAt - preambleNs f.mode) = false → completes (.cancelLayerDone dt k (.found f)) s fun t =>
          ctxAt t k = {} ∧ { t with ox := s.ox } = a) ∧
        (layerFits s c f (f.m.syncAt - preambleNs f.mode) = true → layerJob s c f = some j →
          r = decodeAll (iterCap s) (alphaActs (s.get Reg.OX_DEC_CTRL.ALPHA)) s.free (codewords j.len j.z) j f.soft →
          (r.2 = none → completes (.cancelLayerDone dt k (.found f)) s fun t =>
            ctxAt t k = {} ∧ countedOnce s t Ctr.LAYER_FAIL ∧ t.up = s.up ∧ t.mem = s.mem) ∧
          (r.2 = some o → psduCrcOk (whitened o) = true → alreadyPassed s j = false → completes (.cancelLayerDone dt k (.found f)) s fun t =>
            ctxAt t k = (if c.layer + 1 < c.layerMax then { c with layer := c.layer + 1, recovered := c.recovered + 1 } else {}) ∧
              ∃ u, t.up = s.up ++ [u] ∧ u.recovered = true ∧ u.fe = c.fe ∧ u.bin = c.bin ∧ u.lane = none ∧ u.stage = .fetch ∧
                u.frame = frameOf ((whitened o).take ((whitened o).length - if j.fcs2 then 2 else 4))) ∧
          (r.2 = some o → psduCrcOk (whitened o) = true → alreadyPassed s j = true → completes (.cancelLayerDone dt k (.found f)) s fun t =>
            ctxAt t k = next ∧ t.up = s.up)))))

/-! Medium access. -/

/-- R239, R240: TSCH starts at the first boundary once the first time step is taken or waived. R89, R249: at a boundary an
accepted change list whose timeslot it is takes effect in full, and every emission that is planned then has its first chip due
at the transmit offset of that timeslot, or lies on a free-run channel. R273, R449: each PERIOD × 1.1 without a beacon is a
miss; the third one, while the beacon source is followed, raises TIME_SRC_LOST and sets HOLDOVER. R274: after HOLDOVER_WAIT
the next enabled source is taken. -/
def Obligations.TimeslotsAndBeaconSource : Prop :=
  (∀ (s a b : State) (dt : Nat) (errs : List (Nat × MemErr)) (txReq : List (Nat × Ecc)), a = s.advance dt →
    (tschOn s = false → s.inRun = true → s.flag Reg.TIME_STATUS.STEP_USED = true → 3 ∈ s.loaded → atBoundary a = true →
      completes (.tschStart dt) s fun t => tschOn t = true ∧ onlyRegs a t [Reg.MAC_STATUS.TSCH_ON]) ∧
    (tschOn s = true → s.inRun = true → atBoundary a = true → s.mac.lastAsn ≠ some (asnAt a a.time.ns) →
      b = a.setMac { a.mac with lastAsn := some (asnAt a a.time.ns) } →
      completes (.timeslotBoundary dt errs txReq) s fun t => t.mac.lastAsn = some (asnAt a a.time.ns) ∧
        (∀ (l : List (Nat × Nat × Nat)) (after : State), s.sau.pending = some (asnNow a, l) →
          sauApplyAll l 0 b = .ok after → t.sau.pending = none ∧ t.flag Reg.MAC_SAU_STATUS.APPLIED = true ∧
            t.tables.cells = after.tables.cells) ∧
        ∀ fe : Fin 3, ∀ x ∈ (t.fe fe).emissions, x ∈ (s.fe fe).emissions ∨ x.freeRun.isSome = true ∨
          (x.phase = .planned ∧ x.asn = asnNow a ∧
            x.nominalNs = slotStart a (asnNow a) + s.get Reg.MAC_SLOT_0.TX_OFFSET * 1000))) ∧
  (∀ (s a : State) (dt t0 : Nat), a = s.advance dt →
    (tschOn s = true → tsrcOn s = true → clsPrio s clsEB ≠ 0 → s.mac.tsrcNs + tsrcNs s ≤ a.time.ns →
      completes (.tsrcBeaconMiss dt) s fun t =>
        t.get Reg.MAC_STATUS.MISSES = min 3 (s.get Reg.MAC_STATUS.MISSES + 1) ∧ t.mac.tsrcNs = s.mac.tsrcNs + tsrcNs s ∧
          (s.get Reg.MAC_STATUS.MISSES = 2 → t.mac.tsrcLost = some a.tick ∧
            (s.flag Reg.MAC_STATUS.FOLLOW = true → t.flag Reg.MAC_STATUS.HOLDOVER = true ∧
              reports a t Ev.TIME_SRC_LOST fun arg => bits arg 47 46 = s.get Reg.MAC_STATUS.SRC % 4)) ∧
          (s.get Reg.MAC_STATUS.MISSES ≠ 2 → onlyRegs a { t with mac := s.mac } [Reg.MAC_STATUS.MISSES])) ∧
    (s.flag Reg.TIME_STATUS.HOLDOVER = false → s.mac.tsrcLost = some t0 → s.flag Reg.TIME_STATUS.EB_Q = false →
      a.elapsedSec t0 (s.get Reg.TIME_SRC_CTRL.HOLDOVER_WAIT) = true →
      s.flag (Reg.MAC_TSRC_CFG.EN ((s.get Reg.MAC_STATUS.SRC + 1) % 4)) = true →
      completes (.holdoverWaitExpiry dt) s fun t =>
        t.get Reg.MAC_STATUS.SRC = (s.get Reg.MAC_STATUS.SRC + 1) % 4 ∧ t.get Reg.MAC_STATUS.MISSES = 0 ∧
          onlyRegs a { t with mac := s.mac } [Reg.MAC_STATUS.SRC, Reg.MAC_STATUS.MISSES]))

/-- R251: at its commit point an emission that clashes with none that is committed becomes committed, and its unicast packet
moves from its queue to the retry store; one that clashes is displaced. R659: in the safe state a class 0 packet is not
emitted. -/
def Obligations.Commits : Prop :=
  ∀ (s a : State) (dt : Nat) (fe : Fin 3) (ok : Bool) (e : Emission) (c : Carrier) (p : Packet) (d : Debit), a = s.advance dt →
    nextPlanned a fe = some e → e.carriers = [c] → e.freeRun = none → c.load = .data p d false →
      ((∀ x ∈ (s.fe fe).emissions, x.committed = false) → p.cls ≠ 0 → p.record ≠ broadcast → p.flood = none →
        s.flag (Reg.FE_STATUS.TX_IN_SERVICE fe) = true → s.flag (Reg.FE_STATUS.MASK_STOPPED fe) = false →
        (s.fe fe).cal = none → (fe.val = 2 ∨ (779000 ≤ c.freqKhz ∧ c.freqKhz ≤ 960000)) → completes (.emissionCommit dt fe ok) s fun t =>
          (∃ e' ∈ (t.fe fe).emissions, e'.phase = .committed ∧ e'.commitNs = a.time.ns ∧ e'.nominalNs = e.nominalNs ∧
            e'.carriers = [c]) ∧ p ∉ queueAt t p.queue ∧
          ∃ p', t.sched.retry = s.sched.retry ++ [p'] ∧ p'.id = p.id ∧ p'.tries = 0 ∧
            p'.retryMax = s.get Reg.MAC_CSMA_CTRL.MAX_RETRIES) ∧
      ((∃ x ∈ (s.fe fe).emissions, x.committed = true ∧ clashes a fe x e = true) →
        completes (.emissionCommit dt fe ok) s fun t => countedOnce s t Ctr.TX_DISPLACED ∧ e ∉ (t.fe fe).emissions ∧
          t.sched.retry = s.sched.retry ∧ t.q.queues = s.q.queues) ∧
      ((∀ x ∈ (s.fe fe).emissions, x.committed = false) → p.cls = 0 → s.safeNow = true →
        completes (.emissionCommit dt fe ok) s fun t => e ∉ (t.fe fe).emissions ∧ t.sched.retry = s.sched.retry)

/-- R252, R254: a shared cell's channel is busy where the energy of its bin, or for an FDW mode that of the next bin, exceeds
CCA_THRESH during the assessment; then, or where an acknowledgement window ends without one, the attempt has failed: the
packet's tries and, after a shared cell, its backoff exponent grow, until after the last retry it is dropped as TX_FAIL. A
free channel leaves the emission as it is. R255: a listen whose energy reaches THRESH raises the exponent of its free-run
channel up to its tries, and then is counted as LBT_FAIL. -/
def Obligations.FailedAttempts : Prop :=
  ∀ (s a : State) (dt start : Nat) (fe : Fin 3) (fr : Fin 4) (peak peak2 : Int) (e : Emission) (c : Carrier) (p q : Packet)
    (d : Debit) (w : AckWait) (r : FreeRun) (b shared busy : Bool) (failed : State → Prop), a = s.advance dt →
    (failed = fun t => if q.retryMax < q.tries + 1 then countedOnce s t Ctr.TX_FAIL ∧ retryOf t p.record = none
      else ∃ q', retryOf t p.record = some q' ∧ q'.tries = q.tries + 1 ∧
        (shared = true → q'.be = min (q.be + 1) q.beMax ∧ q'.backoff < 2 ^ q'.be) ∧
        (shared = false → q'.be = q.be ∧ q'.backoff = q.backoff)) →
    ((s.fe fe).emissions = [e] → e.phase ≠ .emitting → e.kind = 0 → e.freeRun = none → e.carriers = [c] → c.shared = true →
      c.assessed = false → c.load = .data p d b →
      start = e.nominalNs - s.get Reg.MAC_SLOT_0.TX_OFFSET * 1000 + s.get Reg.MAC_SLOT_1.CCA_OFFSET * 1000 →
      start + s.get Reg.MAC_SLOT_1.CCA_LEN * 1000 ≤ a.time.ns →
      busy = (louder s fe peak (s.get Reg.MAC_CSMA_CTRL.CCA_THRESH) ||
        (isFDW c.mode && louder s fe peak2 (s.get Reg.MAC_CSMA_CTRL.CCA_THRESH)) || ccaBlanked s fe start) →
      (busy = true → (e.committed = true ∨ b = true) → retryOf s p.record = some q → shared = true →
        completes (.ccaDone dt fe c.bin peak peak2) s fun t => (t.fe fe).emissions = [] ∧ failed t) ∧
      (busy = true → e.committed = false → b = false → p.record ≠ broadcast → retryOf s p.record = none →
        s.get Reg.MAC_CSMA_CTRL.MAX_RETRIES ≠ 0 → completes (.ccaDone dt fe c.bin peak peak2) s fun t =>
          (t.fe fe).emissions = [] ∧ p ∉ queueAt t p.queue ∧ ∃ q', retryOf t p.record = some q' ∧ q'.tries = 1) ∧
      (busy = false → completes (.ccaDone dt fe c.bin peak peak2) s fun t =>
        (t.fe fe).emissions = [{ e with carriers := [{ c with assessed := true }] }] ∧ t.setFe fe (a.fe fe) = a)) ∧
    (s.mac.ackWaits = [w] → w.fe = fe.val → w.record = p.record → w.shared = shared → w.toNs ≤ antennaNs a fe →
      retryOf s p.record = some q → ackInFlight s w = false → completes (.ackWaitEnd dt fe p.record) s failed) ∧
    (runOf s fr = some r → r.listening = true → (s.fe (frFe s fr)).emissions = [e] → e.freeRun = some fr.val → e.kind ≠ 1 →
      (4 * toSigned 8 (s.get (Reg.MAC_FR.THRESH fr)) ≤ atAntenna s (frFe s fr) peak →
        completes (.lbtListenEnd dt fr peak) s fun t =>
          if s.get (Reg.MAC_FR.MAX_TRIES fr) ≤ r.busy + 1 then countedOnce s t Ctr.LBT_FAIL
          else ∃ r', runOf t fr = some r' ∧ r'.busy = r.busy + 1 ∧ r'.be = min (r.be + 1) (s.get (Reg.MAC_FR.MAX_BE fr))) ∧
      (atAntenna s (frFe s fr) peak < 4 * toSigned 8 (s.get (Reg.MAC_FR.THRESH fr)) → r.untilNs ≤ a.time.ns →
        completes (.lbtListenEnd dt fr peak) s fun t =>
          runOf t fr = some { r with listening := false } ∧ { t with mac := s.mac } = a))

/-- R278: a visit of the seen cache leaves no VALID entry whose LIFE has passed, and takes no other one away. R280: each 20 ms
window lets one waiting own flood take the next SEQ. R283, R284: a wake-up request with a legal address on an enabled sub-GHz
free-run channel is BUSY until it ends, and any other is refused with its cause, and one while BUSY is set is ignored; once
duty admits it, its listen begins on that channel. -/
def Obligations.FloodsAndWakePatterns : Prop :=
  (∀ (s a : State) (dt q : Nat) (w : FloodWait) (f : Flood), a = s.advance dt →
    completes (.seenCacheVisit dt) s (fun t =>
      (∀ x ∈ t.tables.seen, bit x.2 63 = true →
        diffN 30 (a.time.ns / 1000000 % 2 ^ 30) (x.2 % 2 ^ 30) < (seenLifeMs s : Int)) ∧
      (∀ x ∈ s.tables.seen, x.2 ≠ 0 → diffN 30 (a.time.ns / 1000000 % 2 ^ 30) (x.2 % 2 ^ 30) < (seenLifeMs s : Int) →
        x ∈ t.tables.seen) ∧ { t with tables := { t.tables with seen := s.tables.seen } } = a) ∧
    (s.mac.floods = [w] → w.flock = none → s.mac.floodWindow ≠ some (a.time.ns / 20000000) →
      nvReady s NvKind.FSEQ = true → completes (.floodWindow dt) s fun t => t.mac.floods = [] ∧
        t.mac.floodWindow = some (a.time.ns / 20000000) ∧ nvValue t NvKind.FSEQ = nvValue s NvKind.FSEQ + 1 ∧
        (w.queues = [q] → f = { seed := s.get Reg.MAC_FLOOD_CTRL.SEED_ID, seq := nvValue s NvKind.FSEQ % 65536
                                hops := max 1 (s.get Reg.MAC_FLOOD_CTRL.HOPS) } →
          enqueueCause a q (sized a { w.pkt with flood := some f, seqNo := (drawSeqNo a).2 }) = none → ∃ p ∈ queueAt t q, p.flood = some f ∧ p.data = w.pkt.data))) ∧
  (∀ (s a : State) (dt : Nat) (v : Word) (w : Wake), a = s.advance dt →
    (v.getLsbD 63 = true → s.flag Reg.MAC_WAKE_STATUS.BUSY = true →
      completes (.wakeRequest dt v) s fun t => onlyRegsAnswered a t []) ∧
    (v.getLsbD 63 = true → s.flag Reg.MAC_WAKE_STATUS.BUSY = false →
      completes (.wakeRequest dt v) s fun t =>
        if wakeAddrOk (bits v.toNat 31 0) = false then t.flag Reg.MAC_WAKE_STATUS.REFUSED = true ∧
          t.get Reg.MAC_WAKE_STATUS.CAUSE = 1 ∧ t.mac = s.mac ∧ t.outs = s.outs
        else if s.flag (Reg.MAC_FR.EN (bits v.toNat 41 40)) = true ∧ frFe s (bits v.toNat 41 40) ≠ 2 then
          t.flag Reg.MAC_WAKE_STATUS.BUSY = true ∧ { t.mac with wake := s.mac.wake } = s.mac ∧
          t.mac.wake = some { addr := bits v.toNat 31 0, reps := max 1 (bits v.toNat 39 32), fr := bits v.toNat 41 40 } ∧
          onlyRegsAnswered a { t with mac := s.mac } [Reg.MAC_WAKE_STATUS.BUSY]
        else t.flag Reg.MAC_WAKE_STATUS.REFUSED = true ∧ t.get Reg.MAC_WAKE_STATUS.CAUSE = 2 ∧ t.mac = s.mac ∧
          t.outs = s.outs) ∧
    (s.mac.wake = some w → w.admitted = false → holder s = true → runOf s w.fr = none →
      dutyAdmits a (frSub s w.fr) (wakeAirtimeUs w.reps) true = true → completes (.wakeAdmit dt) s fun t =>
        t.mac.wake = some { w with admitted := true } ∧
          ∃ r, runOf t w.fr = some r ∧ r.listening = true ∧ r.load = .wake w.addr w.reps ∧ a.time.ns ≤ r.untilNs))

/-! The uplink path, keys and the node tables. -/

/-- R33, R258, R259, R337: at step 6 a frame for another node, one outside the supported limits and an unsecured one that is
not for a core leave the path with their counters; a lookup of a locked bucket parks, and waits there; a secured frame goes on
to an engine, or to the key-miss queue (R301). R29: an uncorrectable word of the queue from the radio drops the frame. R39,
R303: a downlink packet without its link record's key waits for the unwrap. -/
def Obligations.RecordFetches : Prop :=
  ∀ (s a : State) (dt : Nat) (u : UpFrame) (cls : Fin 8) (ecc : Ecc) (x : AuxSec) (k r : Nat) (d : DownPacket),
    a = s.advance dt → s.tables.resumed = [] → parkingFull s = false →
    (s.up = [u] → u.stage = .fetch → u.id ∈ s.tables.parking → completes (.recordFetchDone dt u.id cls ecc) s fun t => t = a) ∧
    (s.up = [u] → u.stage = .fetch → u.id ∉ s.tables.parking →
      completes (.recordFetchDone dt u.id cls .uncorrectable) s (fun t => t.up = [] ∧ t.crypto = s.crypto ∧
        t.flag Reg.QMGR_XING_PROT.UNCORR = true) ∧
      (addrParks s u.frame.src = true → completes (.recordFetchDone dt u.id cls .ok) s fun t =>
        t.tables.parking = s.tables.parking ++ [u.id] ∧ { t with tables := s.tables } = a) ∧
      (addrParks s u.frame.src = false → forOther s u.frame = true →
        completes (.recordFetchDone dt u.id cls .ok) s fun t => t.up = [] ∧ t.crypto = s.crypto) ∧
      (addrParks s u.frame.src = false → forOther s u.frame = false →
        (unsupported s u.frame = true → completes (.recordFetchDone dt u.id cls .ok) s fun t =>
          t.up = [] ∧ countedOnce s t Ctr.FRAME_UNSUPPORTED) ∧
        (unsupported s u.frame = false → secOf u.frame = none → u.frame.ftype ≠ 1 ∨ forDevice s u.frame = false →
          completes (.recordFetchDone dt u.id cls .ok) s fun t => t.up = [] ∧ countedOnce s t Ctr.UNSECURED_DROP) ∧
        (unsupported s u.frame = false → secOf u.frame = some x → u.frame.ftype = 1 → x.keyMode ≠ 1 →
          u.frame.src = .ext k → lookupRecord s k = some r → completes (.recordFetchDone dt u.id cls .ok) s fun t =>
            (∀ key, cachedKey s r = some key → ∃ u', t.up = [u'] ∧ u'.stage = .waiting ∧ u'.record = r ∧
              u'.counter = (frameCounter s u x).1 ∧ t.crypto.jobs = s.crypto.jobs ++ [{ kind := .verify u.id }]) ∧
            (cachedKey s r = none → s.down = [] → ∃ u', t.up = [u'] ∧ u'.stage = .keyMiss ∧ u'.record = r ∧
              t.crypto.jobs = s.crypto.jobs)))) ∧
    (s.up = [] → s.down = [d] → d.id ∉ s.tables.parking → d.keyMiss = false → d.shortForm = false → d.record = some r →
      recRouteLen s r = 0 → cachedKey s r = none → s.crypto.unwraps = [] →
      completes (.recordFetchDone dt d.id cls ecc) s fun t =>
        (∃ d', t.down = [d'] ∧ d'.keyMiss = true ∧ d'.link = r ∧ d'.pkt = d.pkt ∧ d'.wrapped = recWrapped s r) ∧
          t.crypto.unwraps = [{ record := r }] ∧ t.q = s.q)

/-- R297, R299, R300, R311: an unwrap that succeeds enters the key cache and lets the frame that waits go on to an engine; one
that fails ends the frame as MIC_FAIL. R293, R295: a free engine starts the job that R295 puts first, with its key, nonce and
octets (R291, R292). -/
def Obligations.UnwrapsAndEngines : Prop :=
  ∀ (s a : State) (dt : Nat) (w : Unwrap) (u : UpFrame) (x : AuxSec) (key : List Byte) (engine : Fin 8) (j j' : CcmJob)
    (e : Emission) (c : Carrier) (f : TxFrame) (fe id bin nominal : Nat) (k : List Byte × Nat), a = s.advance dt →
    (s.crypto.unwraps = [w] → s.up = [u] → s.down = [] → u.stage = .keyMiss → u.record = w.record →
      (kekUnwrap s u.wrapped = some key → completes (.keyUnwrapDone dt w.record) s fun t =>
        (∃ u', t.up = [u'] ∧ u'.stage = .waiting ∧ u'.key = some key ∧ u'.record = w.record) ∧
          t.crypto.jobs = s.crypto.jobs ++ [{ kind := .verify u.id }] ∧ t.crypto.unwraps = [] ∧
          (w.keep = true → cachedKey t w.record = some key) ∧ { t with up := s.up, crypto := s.crypto } = a) ∧
      (kekUnwrap s u.wrapped = none → behind s u = false → completes (.keyUnwrapDone dt w.record) s fun t =>
        t.up = [] ∧ countedOnce s t Ev.MIC_FAIL ∧ t.crypto.jobs = s.crypto.jobs ∧ t.crypto.cache = s.crypto.cache)) ∧
    (engine.val < engines s → engineBusy s engine = false → nextJob a engine = some j →
      (j.kind = .verify u.id → s.up = [u] → secOf u.frame = some x → verifyKey s u x = some key →
        j' = { verifyParts a u x key j with engine := some engine.val } → completes (.ccmJobStart dt engine) s fun t =>
          engineJob t engine = some j' ∧ t.crypto.jobs.length = s.crypto.jobs.length ∧ t.up = [{ u with stage := .verifying }] ∧
            { t with up := s.up, crypto := s.crypto } = a) ∧
      (j.kind = .ack fe id bin ∨ j.kind = .encrypt fe id bin nominal → jobCarrier s fe id bin = some (e, c) →
        c.frame = some f → carrierKey s c = some k → j' = { sealParts a e c f k j with engine := some engine.val } →
        completes (.ccmJobStart dt engine) s fun t => engineJob t engine = some j' ∧
          t.crypto.jobs.length = s.crypto.jobs.length ∧ { t with crypto := s.crypto } = a))

/-- R260, R264, R291, R311, R325: at step 9 a frame whose counter is behind is a REPLAY, one whose MIC is not that of its
octets a MIC_FAIL, and one with the last counter a DUP_REACK; any other writes its counter into LAST_FC (stated where no
packet goes to LP4X, whose cells may lie anywhere) and, when it asks for one in time, is acknowledged TX_ACK_DELAY after its
last chip. R193, R294: a frame that is encrypted has its MIC and its FCS. -/
def Obligations.Verdicts : Prop :=
  ∀ (s a : State) (dt : Nat) (engine : Fin 8) (j : CcmJob) (u : UpFrame) (x : AuxSec) (v : Verdict) (ok : Bool)
    (e : Emission) (c : Carrier) (fe : Fin 3) (id bin nominal : Nat), a = s.advance dt → engineJob s engine = some j →
    (j.kind = .verify u.id → s.up = [u] → secOf u.frame = some x → u.frame.ftype = 1 ∨ u.frame.ftype = 2 → x.keyMode ≠ 1 →
      ok = (j.opened u.frame).2 →
      (behind s u = true → completes (.ccmJobDone dt engine v) s fun t => t.up = [] ∧
        reports a t Ev.REPLAY fun arg => bits arg 47 30 = u.record % 2 ^ 18) ∧
      (behind s u = false → ok = false → completes (.ccmJobDone dt engine v) s fun t =>
        t.up = [] ∧ countedOnce s t Ev.MIC_FAIL ∧ recLastFc t u.record = recLastFc s u.record) ∧
      (ok = true → u.counter = recLastFc s u.record → completes (.ccmJobDone dt engine v) s fun t =>
        t.up = [] ∧ countedOnce s t Ev.DUP_REACK ∧ recLastFc t u.record = recLastFc s u.record) ∧
      (behind s u = false → ok = true → u.counter ≠ recLastFc s u.record → u.counter < 2 ^ 32 →
        completes (.ccmJobDone dt engine v) s fun t => t.up = [] ∧
          (u.frame.ftype = 2 ∨ onChipOnly s → recLastFc t u.record = u.counter) ∧
          (ackWanted s u = true → holderOf s (asnAt s u.firstNs) = true → a.time.ns ≤ ackCommitNs s u →
            ∃ e ∈ (t.fe u.fe).emissions, e.kind = 1 ∧
              e.nominalNs = u.endNs + s.get Reg.MAC_SLOT_1.TX_ACK_DELAY * 1000))) ∧
    (j.kind = .ack fe id bin ∨ j.kind = .encrypt fe id bin nominal → (s.fe fe).emissions = [e] → e.id = id → e.carriers = [c] →
      c.bin = bin → completes (.ccmJobDone dt engine v) s fun t =>
        (t.fe fe).emissions = [{ e with carriers := [{ c with psdu := j.sealed ++ fcsOctets (decide (fe.val = 2)) j.sealed }] }] ∧
          engineJob t engine = none ∧ { t.setFe fe (a.fe fe) with crypto := s.crypto } = a)

/-- R297, R299, R307, R308, R313, R316: the slot commands load, clear and activate group keys, and leave their CAUSE; the WRAP
registers are zeroised by every LOAD. FLUSH empties the key cache. A write of FWD_HASH_KEY gives the key's two buckets. -/
def Obligations.GroupKeysAndHash : Prop :=
  ∀ (s : State) (dt : Nat) (v : Word) (i : Nat) (key : Option (List Byte)), i = bits v.toNat 21 16 →
    key = kekUnwrap s (gkWrapped s) →
    completes (.gkLoad dt v) s (fun t => t.flag Reg.CRYPTO_GK_STATUS.DONE = true ∧
      (∀ k : Fin 3, t.get (Reg.CRYPTO_GK_WRAP.WRAP k) = 0) ∧
      match gkLoadCause s key i (bits v.toNat 15 8) (bits v.toNat 7 0) (bit v.toNat 24) with
      | none => t.flag (Reg.CRYPTO_GK_CFG.VALID i) = true ∧ t.flag (Reg.CRYPTO_GK_CFG.TX_ACTIVE i) = false ∧
          t.get (Reg.CRYPTO_GK_CFG.TENANT i) = bits v.toNat 15 8 ∧ t.get (Reg.CRYPTO_GK_CFG.KEY_INDEX i) = bits v.toNat 7 0 ∧
          key = some (Cells.get t.crypto.groupKeys i []) ∧
          t.get Reg.CRYPTO_GK_STATUS.CAUSE = 0
      | some c => t.crypto = s.crypto ∧ t.flag Reg.CRYPTO_GK_STATUS.FAIL = true ∧ t.get Reg.CRYPTO_GK_STATUS.CAUSE = c) ∧
    completes (.gkClear dt v) s (fun t => t.flag (Reg.CRYPTO_GK_CFG.VALID i) = false ∧
      Cells.get t.crypto.groupKeys i [] = [] ∧ t.flag Reg.CRYPTO_GK_STATUS.DONE = true) ∧
    completes (.gkSetTx dt v) s (fun t => if s.flag (Reg.CRYPTO_GK_CFG.VALID i) then
        t.flag (Reg.CRYPTO_GK_CFG.TX_ACTIVE i) = true ∧ t.get Reg.CRYPTO_GK_STATUS.CAUSE = 0 ∧ t.crypto = s.crypto
      else t.get Reg.CRYPTO_GK_STATUS.CAUSE = 3 ∧ onlyRegsAnswered (s.advance dt) t
        [Reg.CRYPTO_GK_STATUS.DONE, Reg.CRYPTO_GK_STATUS.CAUSE, Reg.CRYPTO_GK_STATUS.FAIL]) ∧
    (v.getLsbD 63 = true → completes (.keyCacheFlush dt v) s fun t => t.crypto.cache = [] ∧
      (∀ w ∈ t.crypto.unwraps, w.keep = false) ∧ t.crypto.jobs = s.crypto.jobs ∧
        onlyRegsAnswered (s.advance dt) { t with crypto := s.crypto } [Reg.CRYPTO_CTRL.KEK_SLOT]) ∧
    completes (.hashKeyWrite dt v) s (fun t => t.get Reg.FWD_HASH_KEY.EUI64 = v.toNat ∧
      t.get Reg.FWD_HASH_RESULT.H0 =
        (crcReflected 0x82F63B78 (beBytes 8 v.toNat) (bits (s.otp 6) 31 0) ^^^ 0xFFFFFFFF) % 65536 ∧
      t.get Reg.FWD_HASH_RESULT.H1 =
        (crcReflected 0xEDB88320 (beBytes 8 v.toNat) (bits (s.otp 6) 63 32) ^^^ 0xFFFFFFFF) % 65536 ∧
      onlyRegsAnswered (s.advance dt) t [Reg.FWD_HASH_KEY.EUI64, Reg.FWD_HASH_RESULT.H0, Reg.FWD_HASH_RESULT.H1])

/-- R334, R342, R739: GO starts the Mule at the list's address; a block of descriptors is fetched from LP4X, and a list
outside the usable window ends with BAD_ADDR; a 64-bit read pops a completion word. R340: LOCK_MAX breaks the locks and ends
the list. R334, R336, R339: READ_BUCKET copies a bucket to LP4X and changes no other octet; WRITE_BUCKET writes the selected
slots of a bucket that its group holds and leaves the others; RELOCATE moves a slot to its key's bucket in the other way;
LOCK_PAIR locks two buckets once the group has been checked, and UNLOCK frees them and resumes parked lookups. Before each of
them locks that have stood for LOCK_MAX break (R340). -/
def Obligations.MuleListsAndBuckets : Prop :=
  (∀ (s a : State) (dt : Nat) (v : Word) (w : Nat) (rest : List Nat) (d : MuleDesc) (addr : Nat), a = s.advance dt →
    (v.getLsbD 63 = true → s.flag Reg.FWD_MULE_STATUS.BUSY = false → completes (.muleGo dt v) s fun t =>
      t.flag Reg.FWD_MULE_STATUS.BUSY = true ∧ t.tables.mule = { list := s.get Reg.FWD_MULE_LIST.ADDR * 64 } ∧
        onlyRegsAnswered a { t with tables := s.tables } [Reg.FWD_MULE_STATUS.BUSY]) ∧
    (s.flag Reg.FWD_MULE_STATUS.BUSY = true → s.tables.mule.buffer = [] →
      addr = s.tables.mule.list + 64 * s.tables.mule.fetched →
      (s.inLp4x addr 64 = true → d = .words ((List.range 8).map fun k => s.ddrLE (addr + 8 * k) 8) →
        knownOp (descOp d) = true → completes (.muleFetchBlock dt []) s fun t =>
          t.tables.mule.buffer.head? = some d ∧ t.tables.mule.pos = s.tables.mule.pos ∧ t.mem = s.mem ∧
            t.flag Reg.FWD_MULE_STATUS.BUSY = true) ∧
      (s.inLp4x addr 64 = false → completes (.muleFetchBlock dt []) s fun t =>
        t.flag Reg.FWD_MULE_STATUS.BUSY = false ∧ t.get Reg.FWD_MULE_STATUS.CAUSE = 0x09 ∧
          t.flag Reg.FWD_MULE_STATUS.FAIL = true ∧ t.tables.mule = {})) ∧
    (s.tables.muleDone = w :: rest → completes (.fwdMuleDonePop dt .ok) s fun t => t.bus.data = w ∧
      t.tables.muleDone = rest ∧ onlyRegsAnswered a { t with tables := s.tables } []) ∧
    (s.tables.mule.locks.isSome = true → a.elapsedNs s.tables.mule.lockTick 2000 = true →
      completes (.muleLockMax dt) s fun t => t.tables.mule.locks = none ∧ t.flag Reg.FWD_MULE_STATUS.BUSY = false ∧
        t.get Reg.FWD_MULE_STATUS.CAUSE = 0x06 ∧ countedOnce s t Ev.MULE_LOCK_BROKEN ∧
        t.tables.parking = [] ∧ t.tables.resumed = s.tables.resumed ++ s.tables.parking)) ∧
  (∀ (s : State) (dt : Nat) (d : MuleDesc) (b c i j : Nat), b = descBucket d 0 → c = descBucket d 1 → lockHolds s dt →
    (muleHead s 0x01 = some d → s.inLp4x (descAddr d) 64 = true → completes (.readBucket dt) s fun t =>
      (∀ k : Fin 4, t.ddrLE (descAddr d + 12 * k) 8 = (slotAt s b k).eui % 2 ^ 64) ∧
        (∀ x, x < descAddr d ∨ descAddr d + 64 ≤ x → Cells.get t.mem.lp4x x 0 = Cells.get s.mem.lp4x x 0) ∧
        t.tables.index = s.tables.index) ∧
    (muleHead s 0x02 = some d → groupHolds s b = true → bit (descWord d 0) 24 = false →
      completes (.writeBucket dt) s fun t => t.mem = s.mem ∧ ∀ k : Fin 4,
        if bit (descWord d 0) (20 + k) then (slotAt t b k).eui = (imageSlot d k).eui ∧
          (slotAt t b k).valid = (imageSlot d k).valid ∧ (slotAt t b k).record = (imageSlot d k).record
        else slotAt t b k = slotAt s b k) ∧
    (muleHead s 0x02 = some d → groupHolds s b = false → completes (.writeBucket dt) s fun t =>
      t.tables.index = s.tables.index ∧ t.get Reg.FWD_MULE_STATUS.CAUSE = 0x03) ∧
    (muleHead s 0x03 = some d → descLast d = false → checkGroup b c 1 (s.tables.mule.buffer.drop 1) = .good →
      completes (.lockPair dt) s fun t => t.tables.mule.locks = some (b, c) ∧ t.tables.mule.lockTick = s.tick + dt ∧
        t.tables.index = s.tables.index ∧ t.tables.mule.pos = s.tables.mule.pos + 1) ∧
    (muleHead s 0x04 = some d → i = bits (descWord d 0) 19 18 → j = bits (descWord d 1) 19 18 →
      groupHolds s b = true → groupHolds s c = true → (slotAt s b i).valid = true → (slotAt s c j).valid = false →
      b / 65536 ≠ c / 65536 → ownBucket s (c / 65536) (slotAt s b i).eui = c → completes (.relocate dt) s fun t =>
        slotAt t c j = slotAt s b i ∧ slotAt t b i = {} ∧ t.mem = s.mem) ∧
    (muleHead s 0x05 = some d → s.tables.mule.locks.isSome = true → completes (.unlock dt) s fun t =>
      t.tables.mule.locks = none ∧ t.tables.parking = [] ∧ t.tables.resumed = s.tables.resumed ++ s.tables.parking ∧
        t.tables.index = s.tables.index))

/-- R320, R325, R360, R361, R378: WRITE_SHORT writes an entry below 0xFFFE; WRITE_RECORD copies the words of its mask into a
quarter of the record and changes no other octet; the trie descriptors of a device that takes no prefixes from a master write
the words that they name; a test lookup answers what the walk finds. -/
def Obligations.MuleRecordsAndTrie : Prop :=
  ∀ (s : State) (dt : Nat) (d : MuleDesc) (v : Word) (w0 w1 src dst : Nat), w0 = descWord d 0 → w1 = descWord d 1 →
    lockHolds s dt →
    (muleHead s 0x06 = some d → bits w0 15 0 < 0xFFFE → completes (.writeShort dt) s fun t =>
      Cells.get t.tables.shorts (bits w0 15 0) 0 = at' (b2n (bit w1 31)) 1 31 + bits w1 17 0 ∧ t.mem = s.mem) ∧
    (muleHead s 0x07 = some d → recordsOn s = true → s.inLp4x (descAddr d) 64 = true → src = descAddr d →
      dst = recordBase s (bits w0 17 0) + 64 * bits w0 21 20 → src + 64 ≤ dst ∨ dst + 64 ≤ src →
      completes (.writeRecord dt false) s fun t =>
        (∀ k : Fin 8, t.ddr (dst + 8 * k) 8 =
          if bit (bits w0 31 24) k then s.ddr (src + 8 * k) 8 else s.ddr (dst + 8 * k) 8) ∧
        ∀ x, x < dst ∨ dst + 64 ≤ x → Cells.get t.mem.lp4x x 0 = Cells.get s.mem.lp4x x 0) ∧
    (s.flag Reg.HERD_CTRL.PREFIX_FROM_MASTER = false →
      (muleHead s 0x10 = some d → s.inLp4x (descAddr d) 1024 = true → 1 ≤ bits w0 50 48 → bits w0 50 48 ≤ 6 →
        bits w0 7 0 < stageNodes (bits w0 50 48) → completes (.trieNode dt false) s fun t => ∀ k : Fin 256,
          trieWord t (stageBase (bits w0 50 48) + 256 * bits w0 7 0 + k) = s.ddrLE (descAddr d + 4 * k) 4) ∧
      (muleHead s 0x11 = some d → bits w0 50 48 = 0 → completes (.trieEntry dt) s fun t =>
        trieWord t (bits w0 15 0) = bits w1 31 0 ∧ ∀ x, x ≠ bits w0 15 0 → trieWord t x = trieWord s x) ∧
      (muleHead s 0x12 = some d → completes (.trieFill dt) s fun t => ∀ x, trieWord t x =
        if bits w0 15 0 ≤ x ∧ x < bits w0 15 0 + min (bits w1 48 32) (65536 - bits w0 15 0) then bits w1 31 0
        else trieWord s x) ∧
      (muleHead s 0x13 = some d → completes (.trieResult dt) s fun t =>
        trieWord t (resultBase + bits w0 15 0) = bits w1 31 0 ∧
          ∀ x, x ≠ resultBase + bits w0 15 0 → trieWord t x = trieWord s x)) ∧
    completes (.trieTestLookup dt v) s (fun t => t.get Reg.FWD_TRIE_TEST_KEY.ADDR_HI = v.toNat ∧ t.tables = s.tables ∧
      match walk s v.toNat with
      | .leaf i => t.flag Reg.FWD_TRIE_TEST_RESULT.MATCH = true ∧ t.get Reg.FWD_TRIE_TEST_RESULT.INDEX = i % 65536 ∧
          t.get Reg.FWD_TRIE_TEST_RESULT.WORD = trieWord s (resultBase + i) % 2 ^ 32
      | _ => t.flag Reg.FWD_TRIE_TEST_RESULT.MATCH = false ∧ t.get Reg.FWD_TRIE_TEST_RESULT.WORD = 0)

/-- R344 to R347, R737: a due visit clears HIT of a slot that was hit, marks an idle slot AGED, and takes an aged one out,
with AGED_OUT, where no lookup hits in the same cycle. A write of FWD_IDX_CTRL restarts the grid. R739: a 64-bit read pops a
learn-event word. -/
def Obligations.SweeperAndLearning : Prop :=
  ∀ (s a : State) (dt b : Nat) (v : Word) (w : FifoWord) (rest : List FifoWord), a = s.advance dt →
    b = s.get Reg.FWD_IDX_STATUS.SWEEP_POS →
    (sweepDue a = true → bucketLocked s b = false → s.tables.hitTick ≠ a.tick → s.tables.sweepAt = 0 → s.tables.learn = [] →
      completes (.sweepVisit dt) s fun t => t.get Reg.FWD_IDX_STATUS.SWEEP_POS = (b + 1) % 2 ^ 17 ∧
        t.tables.sweepDone = s.tables.sweepDone + 1 ∧ ∀ k : Fin 4,
          ((slotAt s b k).valid = false → slotAt t b k = slotAt s b k) ∧
          ((slotAt s b k).valid = true → (slotAt s b k).hit = true →
            slotAt t b k = { slotAt s b k with hit := false }) ∧
          ((slotAt s b k).valid = true → (slotAt s b k).hit = false → (slotAt s b k).aged = false →
            slotAt t b k = { slotAt s b k with aged := true }) ∧
          ((slotAt s b k).valid = true → (slotAt s b k).hit = false → (slotAt s b k).aged = true →
            (slotAt t b k).valid = false ∧ Cells.get t.counters Ev.AGED_OUT 0 ≠ Cells.get s.counters Ev.AGED_OUT 0 ∧
              cachedKey t (slotAt s b k).record = none)) ∧
    completes (.sweepCtrlWrite dt v) s (fun t => t.flag Reg.FWD_IDX_CTRL.SWEEP_EN = v.getLsbD 63 ∧
      t.get Reg.FWD_IDX_CTRL.SWEEP_PERIOD = bits v.toNat 16 0 ∧ t.tables.sweepTick = a.tick ∧ t.tables.sweepDone = 0 ∧
      onlyRegsAnswered a { t with tables := s.tables } [Reg.FWD_IDX_CTRL.SWEEP_EN, Reg.FWD_IDX_CTRL.JOIN_HOLD,
        Reg.FWD_IDX_CTRL.SWEEP_PERIOD]) ∧
    (s.tables.learn = w :: rest → completes (.fwdLearnWordPop dt .ok) s fun t => t.bus.data = w.data ∧
      t.tables.learn = rest ∧ t.flag Reg.FWD_LEARN_STATUS.SOP = w.sop ∧ t.flag Reg.FWD_LEARN_STATUS.EOP = w.eop ∧
        onlyRegsAnswered a { t with tables := s.tables, q := s.q }
          [Reg.FWD_LEARN_STATUS.SOP, Reg.FWD_LEARN_STATUS.EOP, Reg.FWD_LEARN_STATUS.POISON])

/-- R388, R394, R396 to R400, R739: a packet at the head of a core's queues moves into its mailbox, whose words 64-bit reads
pop; FIFO_DROP discards the rest of a packet being read. A word that firmware pushes joins the packet in the transmit mailbox,
or is lost with OVF; the last one hands the packet on, or is rejected with its cause. -/
def Obligations.Mailboxes : Prop :=
  ∀ (s a : State) (dt q : Nat) (n : Fin 4) (c : Fin 8) (v : Word) (p : Packet) (w : FifoWord) (rest : List FifoWord), a = s.advance dt → q = coreQueue n c →
    completes (.cellReclaim dt) s (fun t => t.q = { s.q with lost := [] } ∧ { t with q := s.q } = a) ∧
    ((∀ k : Fin 8, s.get (Reg.QMGR_Q_CFG.LIFE_MS (coreQueue n k)) = 0) → (∀ k : Fin 8, k < c → queueAt s (coreQueue n k) = []) →
      queueAt s q = [p] → (mboxRx s n).length + (mboxWords p).length ≤ 1024 → completes (.mboxRxMove dt n .none) s fun t =>
        mboxRx t n = mboxRx s n ++ mboxWords p ∧ queueAt t q = [] ∧ t.fields = s.fields ∧ t.mem = s.mem) ∧
    (mboxRx s n = w :: rest → completes (.mboxRxPop dt n .ok) s fun t => t.bus.data = w.data ∧ mboxRx t n = rest ∧
      t.flag (Reg.QMGR_MBOX_RX_STATUS.EOP n) = w.eop ∧
        onlyRegsAnswered a { t with q := s.q } [Reg.QMGR_MBOX_RX_STATUS.SOP n, Reg.QMGR_MBOX_RX_STATUS.EOP n,
          Reg.QMGR_MBOX_RX_STATUS.POISON n]) ∧
    (v.getLsbD 63 = true → bits v.toNat 3 0 = 5 + n.val → 5 + n.val ∈ s.q.midRead →
      completes (.fifoDropRest dt v) s fun t => mboxRx t n = afterEop (mboxRx s n) ∧ (5 + n.val) ∉ t.q.midRead ∧
        t.flag (Reg.QMGR_MBOX_RX_STATUS.EOP n) = true ∧ t.mem = s.mem) ∧
    completes (.mboxTxPush dt n v) s (fun t => if (mboxTx s n).length < 1024 then
        mboxTx t n = mboxTx s n ++ [{ data := v.toNat, sop := (mboxTx s n).isEmpty }] ∧
          onlyRegsAnswered a { t with q := s.q } []
      else mboxTx t n = mboxTx s n ∧ t.flag (Reg.QMGR_MBOX_TX_STATUS.OVF n) = true) ∧
    (∀ words, words = mboxTx s n ++ [{ data := v.toNat, sop := (mboxTx s n).isEmpty, eop := true }] →
      (mboxTx s n).length < 1024 → n.val ∉ s.q.txBroken → completes (.mboxTxLast dt n v false) s fun t =>
        mboxTx t n = [] ∧ t.bus.err = false ∧
          (∀ cause, mboxCause s words false = some cause → t.flag (Reg.QMGR_MBOX_TX_STATUS.REJECT n) = true ∧
            t.get (Reg.QMGR_MBOX_TX_STATUS.CAUSE n) = cause ∧ t.q.queues = s.q.queues) ∧
          (∀ h, mboxCause s words false = none → words.head? = some h → bits h.data 63 60 = 3 →
            enqueueCause a (bits h.data 59 46) { cls := bits h.data 59 46 % 8, len := (mboxData words (bits h.data 12 0)).length } = none →
            ∃ p' ∈ queueAt t (bits h.data 59 46), p'.data = mboxData words (bits h.data 12 0)))

/-! Time. -/

/-- R439 to R442: a step of zero or more moves TIME_NS once, keeps its fraction and disarms every alarm (R444); a negative one
sets STEP_ERR; a later one is refused, reported (R468) and slewed. WAIVE uses the step without moving time. Once the step is
used, PPS qualifies if its last three edges were accepted (R449). R443: a slew that ends ends at exactly zero. R445: a due
alarm clears ARMED and sets FIRED. R460, R739: the timestamp queue pops word 0, then word 1. -/
def Obligations.TimeSteps : Prop :=
  ∀ (s a : State) (dt : Nat) (v : Word) (n : Fin 16) (e : Stamp) (rest : List Stamp), a = s.advance dt →
    (s.flag Reg.TIME_STATUS.STEP_USED = false →
      (0 ≤ v.toInt → s.flag Reg.TIME_PPS_CTRL.IN_EN = true → 3 ≤ s.time.ppsRun → s.get Reg.TIME_SRC_CTRL.PRIO_PPS ≠ 0 →
        completes (.timeStepRequest dt v) s (fun t => t.flag Reg.TIME_STATUS.PPS_Q = true) ∧
        completes (.timeWaive dt) s fun t => t.flag Reg.TIME_STATUS.PPS_Q = true) ∧
      (0 ≤ v.toInt → s.flag Reg.TIME_PPS_CTRL.IN_EN = false ∨ s.time.ppsRun < 3 →
        completes (.timeStepRequest dt v) s fun t => t.flag Reg.TIME_STATUS.STEP_USED = true ∧
        t.time = { a.time with ns := (a.time.ns + v.toNat) % 2 ^ 64, stepTick := some a.tick } ∧
        (∀ k : Fin 16, t.flag (Reg.TIME_ALARM.ARMED k) = false) ∧
        onlyRegsAnswered a { t with time := a.time, perf := a.perf }
          (Reg.TIME_STATUS.STEP_USED :: (List.range 16).map Reg.TIME_ALARM.ARMED)) ∧
      (v.toInt < 0 → completes (.timeStepRequest dt v) s fun t => t.flag Reg.TIME_STATUS.STEP_ERR = true ∧
        onlyRegsAnswered a t [Reg.TIME_STATUS.STEP_ERR]) ∧
      (s.flag Reg.TIME_PPS_CTRL.IN_EN = false ∨ s.time.ppsRun < 3 →
        completes (.timeWaive dt) s fun t => t.flag Reg.TIME_STATUS.STEP_USED = true ∧ t.flag Reg.TIME_STATUS.WAIVED = true ∧
        onlyRegsAnswered a t [Reg.TIME_STATUS.STEP_USED, Reg.TIME_STATUS.WAIVED])) ∧
    (s.flag Reg.TIME_STATUS.STEP_USED = true →
      completes (.timeStepRequest dt v) s (fun t => t.time.ns = a.time.ns ∧
        t.time.slew = clampInt slewMax (a.time.slew + v.toInt * 4294967296) ∧ t.flag Reg.TIME_STATUS.STEP_USED = true ∧
        reports a t Ev.STEP_REFUSED fun arg => bits arg 47 46 = 0 ∧ bits arg 39 0 = ofSigned 40 (satSigned 40 v.toInt)) ∧
      completes (.timeWaive dt) s (fun t => onlyRegsAnswered a t [])) ∧
    (s.time.running = true → 0 < s.time.slew →
      s.time.slew.toNat ≤ (incNom + incLimit - s.get Reg.TIME_INC.INC) * dt →
      completes (.slewDone dt) s fun t => t.time.slew = 0 ∧ t = a ∧
        t.time.ns * 2 ^ 32 + t.time.frac =
          (s.time.ns * 2 ^ 32 + s.time.frac + s.get Reg.TIME_INC.INC * dt + s.time.slew.toNat) % 2 ^ 96) ∧
    completes (.alarmFire dt n) s (fun t =>
      if s.flag (Reg.TIME_ALARM.ARMED n) = true ∧ 0 ≤ diffN 32 a.time.ns (s.get (Reg.TIME_ALARM.TARGET n)) then
        t.flag (Reg.TIME_ALARM.ARMED n) = false ∧ t.flag (Reg.TIME_ALARM.FIRED n) = true ∧
          onlyRegs a t [Reg.TIME_ALARM.ARMED n, Reg.TIME_ALARM.FIRED n]
      else t = a) ∧
    (s.time.stamps = e :: rest → completes (.timeTsWordPop dt) s fun t => t.bus = { data := if s.time.word1 then e.ns else e.word0, err := false } ∧
      t.time = { a.time with word1 := !s.time.word1, stamps := if s.time.word1 then rest else e :: rest } ∧
      { t with bus := s.bus, time := a.time } = a) ∧
    (s.time.stamps = [] → completes (.timeTsWordPop dt) s fun t => t.bus.data = 0 ∧ onlyRegsAnswered a t [])

/-- R449 to R453: a sample qualifies PTP, which is selected when nothing is, and is recorded; the servo sets the integral term
and INC. PTP_TIMEOUT disqualifies the class, and holdover follows with INC frozen. A class of higher priority replaces the
selected one after REVERT_S; in holdover the selection is repeated each second. R455, R456: edges of the 1PPS input; R457: its
output. -/
def Obligations.TimeSources : Prop :=
  ∀ (s a : State) (dt : Nat) (v : Word) (c d t0 : Nat) (i θ : Int), a = s.advance dt → θ = v.toInt →
    (s.flag Reg.HERD_CTRL.HERD_TIME = true → completes (.ptpSample dt v) s fun t => onlyRegsAnswered a t []) ∧
    (s.flag Reg.HERD_CTRL.HERD_TIME = false → s.get Reg.TIME_SRC_CTRL.PRIO_PTP ≠ 0 → s.get Reg.TIME_STATUS.SEL = 0 →
      s.flag Reg.TIME_STATUS.PTP_Q = false → s.flag Reg.TIME_CTRL.SERVO_EN = false → completes (.ptpSample dt v) s fun t =>
        t.flag Reg.TIME_STATUS.PTP_Q = true ∧ t.get Reg.TIME_STATUS.SEL = clsPTP ∧ t.flag Reg.TIME_STATUS.CHG = true ∧
        t.flag Reg.MAC_STATUS.FOLLOW = false ∧ t.get Reg.TIME_OFS_LAST.SRC = clsPTP ∧
        t.get Reg.TIME_OFS_LAST.THETA = ofSigned 48 (satSigned 48 θ) ∧
        onlyRegsAnswered a { t with time := { t.time with ptpAt := s.time.ptpAt, ptpSince := s.time.ptpSince } }
          [Reg.TIME_STATUS.PTP_Q, Reg.TIME_STATUS.SEL, Reg.TIME_STATUS.CHG, Reg.TIME_STATUS.HOLDOVER,
           Reg.MAC_STATUS.FOLLOW, Reg.TIME_OFS_LAST.SRC, Reg.TIME_OFS_LAST.THETA]) ∧
    (s.flag Reg.HERD_CTRL.HERD_TIME = false → s.get Reg.TIME_STATUS.SEL = clsPTP → s.flag Reg.TIME_STATUS.PTP_Q = true →
      s.flag Reg.TIME_CTRL.SERVO_EN = true → s.time.slew = 0 → θ.natAbs ≤ max 100 (s.get Reg.TIME_SERVO.STEP_THRESH) →
      i = clampInt incLimit (s.time.integral + ((s.get Reg.TIME_SERVO.I_GAIN : Int) * θ).tdiv 256) →
      completes (.ptpSample dt v) s fun t => t.time.integral = i ∧ t.flag Reg.TIME_STATUS.HOLDOVER = false ∧
        t.get Reg.TIME_INC.INC =
          (incNom + clampInt incLimit (-((s.get Reg.TIME_SERVO.P_GAIN : Int) * θ).tdiv 256 - i)).toNat) ∧
    (s.time.ptpAt = some t0 → a.elapsedMs t0 (10 * s.get Reg.TIME_SRC_CTRL.PTP_TIMEOUT) = true →
      s.flag Reg.TIME_STATUS.PTP_Q = true → s.get Reg.TIME_STATUS.SEL = clsPTP → completes (.ptpTimeout dt) s fun t =>
        t.flag Reg.TIME_STATUS.PTP_Q = false ∧ t.flag Reg.TIME_STATUS.HOLDOVER = true ∧ t.flag Reg.TIME_STATUS.CHG = true ∧
        t.time.integral = s.time.integral ∧ onlyRegs a { t with time := a.time }
          [Reg.TIME_STATUS.PTP_Q, Reg.TIME_STATUS.HOLDOVER, Reg.TIME_STATUS.CHG]) ∧
    (d ∈ [clsPTP, clsPPS, clsEB] → s.get Reg.TIME_STATUS.SEL = c → c ≠ 0 → s.flag (clsBit d) = true → clsPrio s d ≠ 0 →
      clsPrio s d < clsPrio s c → clsSince s d = some t0 → a.elapsedSec t0 (s.get Reg.TIME_SRC_CTRL.REVERT_S) = true →
      (∀ x ∈ [clsPTP, clsPPS, clsEB], x ≠ d → s.flag (clsBit x) = true → clsPrio s c ≤ clsPrio s x) →
      completes (.sourceRevert dt) s fun t => if s.get Reg.TIME_SRC_CTRL.REVERT_S = 0 then t = a else
        t.get Reg.TIME_STATUS.SEL = d ∧ t.flag Reg.MAC_STATUS.FOLLOW = decide (d = clsEB) ∧
          onlyRegs a t [Reg.TIME_STATUS.SEL, Reg.MAC_STATUS.FOLLOW, Reg.TIME_STATUS.CHG]) ∧
    (s.flag Reg.TIME_STATUS.HOLDOVER = true → s.flag (clsBit (s.get Reg.TIME_STATUS.SEL)) = false →
      s.time.selectAt = some t0 → t0 < a.time.ns / nsPerSec → completes (.holdoverSelectionRepeat dt) s fun t =>
        t.flag Reg.TIME_STATUS.HOLDOVER = true ∧ t.time = { a.time with selectAt := some (a.time.ns / nsPerSec) } ∧
          t.get Reg.TIME_STATUS.SEL = (bestClass s).getD (s.get Reg.TIME_STATUS.SEL)) ∧
    (s.flag Reg.TIME_PPS_CTRL.IN_EN = true → (ppsAccepts a (ppsEdgeTime a) = true → completes (.ppsEdge dt) s fun t =>
        t.time.ppsEdge = some (ppsEdgeTime a) ∧ t.time.ppsRun = s.time.ppsRun + 1 ∧ t.time.ppsMisses = 0 ∧
        (s.flag Reg.TIME_STATUS.STEP_USED = false → { t with time := a.time } = a) ∧
        (s.flag Reg.TIME_STATUS.STEP_USED = true → 2 ≤ s.time.ppsRun → s.get Reg.TIME_SRC_CTRL.PRIO_PPS ≠ 0 →
          t.flag Reg.TIME_STATUS.PPS_Q = true ∧ (s.get Reg.TIME_STATUS.SEL = clsPPS →
            t.get Reg.TIME_OFS_LAST.THETA = ofSigned 48 (ppsTheta (ppsEdgeTime a))))) ∧
      (ppsAccepts a (ppsEdgeTime a) = false → completes (.ppsEdge dt) s fun t =>
        countedOnce s t Ctr.PPS_IGNORED ∧ { t with counters := s.counters } = a) ∧
      (s.time.ppsEdge = some t0 → 0 ≤ diffN 64 a.time.ns (t0 + nsPerSec + s.get Reg.TIME_PPS_CTRL.WIN) →
        completes (.ppsMiss dt) s fun t => t.flag Reg.TIME_STATUS.PPS_Q = false ∧ t.time.ppsRun = 0 ∧
          t.time.ppsEdge = some ((t0 + nsPerSec) % 2 ^ 64) ∧ reports a t Ev.PPS_LOST fun arg =>
            bits arg 47 40 = min (s.time.ppsMisses + 1) 255 ∧ bits arg 31 0 = (t0 + nsPerSec) % 2 ^ 32)) ∧
    (s.flag Reg.TIME_PPS_CTRL.OUT_EN = true → s.flag Reg.TIME_STATUS.STEP_USED = true →
      a.time.ns % nsPerSec = 0 → s.get Reg.TIME_PPS_CTRL.OUT_OFS = 0 → completes (.ppsOutRise dt) s fun t =>
        t.time = { a.time with ppsOut := true, ppsRose := a.time.ns } ∧ t.outs = s.outs ++ [.pin .ppsOut true] ∧
          { t with time := a.time, outs := s.outs } = a) ∧
    (s.time.ppsOut = true → s.time.ppsRose + max 1 (s.get Reg.TIME_PPS_CTRL.OUT_WIDTH) * 1000000 ≤ a.time.ns →
      completes (.ppsOutFall dt) s fun t => t.time = { a.time with ppsOut := false } ∧
        t.outs = s.outs ++ [.pin .ppsOut false] ∧ { t with time := a.time, outs := s.outs } = a)

/-! The scheduler and the wired interfaces. -/

/-- R404: a port whose link is up sends the class 0 packet that waits for it. The queue has no peak rate as the cycle begins
(R416). R415: a bucket leaves the timing wheel once it is due, and one whose slot comes first is placed again with its due
time. R417, R421: at a whole second each sub-band's bucket of that second clears, USED follows, and HOLD falls 1 s below its
limit. R423: a write of a policer's registers refills its buckets. -/
def Obligations.SchedulerTurns : Prop :=
  ∀ (s a : State) (dt q : Nat) (port : Fin 2) (p : Packet) (e : WheelEntry) (sb : Fin 32) (v : Word) (n : Nat),
    a = s.advance dt → n = s.get Reg.SCHED_POL_SEL.POLICER →
    (ethUp s port = false → prpOn s = false → completes (.wiredRelease dt (Fin.castLE (by decide) port) .none .ok) s fun t => t = a) ∧
    (ethUp s port = true → prpOn s = false → q / 2048 = 3 + port.val → q % 8 = 0 → s.q.queues = [(q, [p])] →
      s.sched.retry = [] → s.get (Reg.QMGR_Q_CFG.LIFE_MS q) = 0 → a.before (Reg.SCHED_Q_RATE.PIR q) = 0 →
      ptpOf p.data (etherType p.data).1 (etherType p.data).2 = none →
      completes (.wiredRelease dt (Fin.castLE (by decide) port) .none .ok) s fun t =>
        t.outs = s.outs ++ [.frame (3 + port.val) (padTo 60 p.data)] ∧ t.q.queues = [] ∧
          { t with outs := s.outs, q := s.q, sched := s.sched, perf := s.perf } = a) ∧
    (s.sched.wheel = [e] → completes (.wheelDue dt e.bucket) s fun t => { t with sched := s.sched } = a ∧
      (diffN 32 a.nowUs e.slot < 0 → t.sched.wheel = [e]) ∧
      (0 ≤ diffN 32 a.nowUs e.slot → 0 ≤ diffN 32 a.nowUs e.due → t.sched = { s.sched with wheel := [] }) ∧
      (0 ≤ diffN 32 a.nowUs e.slot → diffN 32 a.nowUs e.due < 0 →
        ∃ e', t.sched.wheel = [e'] ∧ e'.bucket = e.bucket ∧ e'.due = e.due)) ∧
    (a.time.ns / 1000000000 = s.sched.dutySec → completes (.dutySecond dt) s fun t => t = a) ∧
    ((∀ k : Fin 4, s.flag (Reg.MAC_FR.EN k) = false) → a.time.ns / 1000000000 = s.sched.dutySec + 1 → completes (.dutySecond dt) s fun t =>
      Cells.get (dutyAt t sb).seconds (dutySecond a) 0 = 0 ∧
      (∀ k, k ≠ dutySecond a → Cells.get (dutyAt t sb).seconds k 0 = Cells.get (dutyAt s sb).seconds k 0) ∧
      t.get (Reg.SCHED_DUTY_STATUS.USED sb) = dutyUsed (dutyAt t sb) % 2 ^ 36 ∧
      t.get (Reg.SCHED_DUTY_STATUS.HOLD sb) = (if dutyUsed (dutyAt t sb) + 1000000 ≤ (dutyAt s sb).limit then 0
        else s.get (Reg.SCHED_DUTY_STATUS.HOLD sb)) ∧ t.sched.dutySec = s.sched.dutySec + 1 ∧ t.events = s.events ∧
      t.mem = s.mem) ∧
    completes (.policerCfgWrite dt 0 v) s (fun t => meterNow t n = meterFull t n ∧
      t.get (Reg.SCHED_POL_CFG.MODE n) = bits v.toNat 63 62 ∧
      onlyRegsAnswered a { t with sched := s.sched } [Reg.SCHED_POL_CFG.MODE n, Reg.SCHED_POL_CFG.AWARE n,
        Reg.SCHED_POL_CFG.COUPLED n, Reg.SCHED_POL_CFG.YELLOW_ACT n, Reg.SCHED_POL_CFG.RED_ACT n,
        Reg.SCHED_POL_CFG.YELLOW_DSCP n, Reg.SCHED_POL_CFG.RED_DSCP n]) ∧
    completes (.policerCfgWrite dt 1 v) s (fun t => meterNow t n = meterFull t n ∧
      t.get (Reg.SCHED_POL_RATE.CIR n) = bits v.toNat 63 32 ∧ t.get (Reg.SCHED_POL_RATE.PIR_EIR n) = bits v.toNat 31 0 ∧
      onlyRegsAnswered a { t with sched := s.sched } [Reg.SCHED_POL_RATE.CIR n, Reg.SCHED_POL_RATE.PIR_EIR n]) ∧
    completes (.policerCfgWrite dt 2 v) s (fun t => meterNow t n = meterFull t n ∧
      t.get (Reg.SCHED_POL_BURST.CBS n) = bits v.toNat 63 40 ∧ t.get (Reg.SCHED_POL_BURST.PBS_EBS n) = bits v.toNat 39 16 ∧
      onlyRegsAnswered a { t with sched := s.sched } [Reg.SCHED_POL_BURST.CBS n, Reg.SCHED_POL_BURST.PBS_EBS n])

/-- R473, R475: what a port that is up does with a frame: one with a bad FCS or another VID is dropped and counted, a PRP
duplicate is DISCARDED, and a broadcast IPv6 frame goes to DEFAULT_CORE; entries leave the discard table after PRP_LIFE. R58,
R471, R477, R676: links come up only where the port is on, ETH0 and ETH1 once the image is admitted, none while THERMAL_OFF.
R29: an uncorrectable word of the queue from a port drops the frame. R476 to R478: MGMT receives for DEFAULT_CORE, sends what
is pushed, and runs MDIO frames. -/
def Obligations.EthernetPorts : Prop :=
  ∀ (s a : State) (dt : Nat) (port : Fin 2) (d : List Byte) (fcsOk : Bool) (cls : Fin 8) (up : Bool) (v : Word)
    (h : Nat) (words : List Nat) (data : BitVec 16) (room : Prop), a = s.advance dt →
    room = (enqueueCause s (coreQueue (defaultCore s) cls) { cls := cls, len := d.length } = none) →
    (ethUp s port = true → s.inRun = true →
      completes (.ethFrameReceive dt port d fcsOk cls .uncorrectable) s (fun t =>
        t.flag Reg.QMGR_XING_PROT.UNCORR = true ∧ t.q.queues = s.q.queues ∧ t.outs = s.outs) ∧
      (fcsOk = false ∨ 4122 < d.length + 4 + (if fieldBE d 12 2 = 0x8100 then 0 else 4) ∨ (fieldBE d 12 2 = 0x8100 ∧
          (s.get (Reg.ETH_PORT_CFG.VID port) = 0 ∨ fieldBE d 14 2 % 4096 ≠ s.get (Reg.ETH_PORT_CFG.VID port))) →
        completes (.ethFrameReceive dt port d fcsOk cls .ok) s fun t =>
          countedOnce s t Ctr.ETH_DROP ∧ { t with counters := s.counters } = a) ∧
      (fcsOk = true → d.length + 8 ≤ 4122 → fieldBE d 12 2 ≠ 0x8100 → prpOn s = true → hasRct d = true →
        prpSeen a (prpKey d) = true → completes (.ethFrameReceive dt port d fcsOk cls .ok) s fun t =>
          t.get Reg.ETH_PRP_STATUS.DISCARDED = min (s.get Reg.ETH_PRP_STATUS.DISCARDED + 1) 65535 ∧
            onlyRegs a t [Reg.ETH_PRP_STATUS.DISCARDED]) ∧
      (fcsOk = true → d.length + 8 ≤ 4122 → fieldBE d 12 2 = 0x86DD → prpOn s = false → fieldBE d 0 6 = 0xFFFFFFFFFFFF →
        portMac s port ≠ 0xFFFFFFFFFFFF → room → completes (.ethFrameReceive dt port d fcsOk cls .ok) s fun t =>
          ∃ p, queueAt t (coreQueue (defaultCore s) cls) = queueAt s (coreQueue (defaultCore s) cls) ++ [p] ∧ p.data = d ∧
            p.time = a.time.ns ∧ (onChipOnly s → t.mem = s.mem) ∧
            { t with q := s.q, perf := s.perf, mem := s.mem, freeCtr := s.freeCtr } = a)) ∧
    completes (.prpEntryExpire dt) s (fun t => { t with wire := s.wire } = a ∧
      ∀ e, e ∈ t.wire.prp ↔ e ∈ s.wire.prp ∧ a.elapsedMs e.2 (prpLifeMs s) = false) ∧
    completes (.ethLinkChange dt 0 up) s (fun t => onlyRegs a t [Reg.ETH_STATUS.ETH0_UP] ∧ t.flag Reg.ETH_STATUS.ETH0_UP =
      (up && !s.flag Reg.HEALTH_STATUS.THERMAL_OFF && s.admitted && decide (s.get (Reg.ETH_PORT_CFG.MODE 0) ≠ 0))) ∧
    completes (.ethLinkChange dt 1 up) s (fun t => onlyRegs a t [Reg.ETH_STATUS.ETH1_UP] ∧ t.flag Reg.ETH_STATUS.ETH1_UP =
      (up && !s.flag Reg.HEALTH_STATUS.THERMAL_OFF && s.admitted && decide (s.get (Reg.ETH_PORT_CFG.MODE 1) ≠ 0))) ∧
    completes (.ethLinkChange dt 2 up) s (fun t => onlyRegs a t [Reg.ETH_STATUS.MGMT_UP] ∧ t.flag Reg.ETH_STATUS.MGMT_UP =
      (up && !s.flag Reg.HEALTH_STATUS.THERMAL_OFF && s.flag Reg.ETH_STATUS.MGMT_ON)) ∧
    (s.flag Reg.ETH_STATUS.MGMT_ON = false → completes (.mgmtFrameReceive dt d cls .ok) s (fun t => t = a) ∧
      completes (.mgmtTxPush dt v) s fun t => t.flag Reg.ETH_MGMT_TX_STATUS.OVF = true ∧
        onlyRegsAnswered a t [Reg.ETH_MGMT_TX_STATUS.OVF]) ∧
    (s.flag Reg.ETH_STATUS.MGMT_ON = true →
      (s.flag Reg.ETH_STATUS.MGMT_UP = true → fieldBE d 0 6 = portMac s 2 → room →
        completes (.mgmtFrameReceive dt d cls .ok) s fun t => { t with q := s.q, mem := s.mem, freeCtr := s.freeCtr } = a ∧
          (onChipOnly s → t.mem = s.mem) ∧ ∃ p, queueAt t (coreQueue (defaultCore s) cls) = queueAt s (coreQueue (defaultCore s) cls) ++ [p] ∧ p.data = d) ∧
      (s.wire.mgmt.length < 512 → completes (.mgmtTxPush dt v) s fun t =>
        t.wire = { s.wire with mgmt := s.wire.mgmt ++ [v.toNat] } ∧ onlyRegsAnswered a { t with wire := s.wire } []) ∧
      (s.wire.mgmt = h :: words → words.length < 511 → s.wire.mgmtLost = false → 14 ≤ bits h 12 0 → bits h 12 0 ≤ 1514 →
        completes (.mgmtTxLast dt v) s fun t => t.wire = { s.wire with mgmt := [], mgmtLost := false } ∧
          t.outs = (if words.length + 1 = ceilDiv (bits h 12 0) 8 then s.outs ++
            [.frame 8 (padTo 60 (((words ++ [v.toNat]).flatMap fun w => leBytes 8 w).take (bits h 12 0)))] else s.outs) ∧
          onlyRegsAnswered a { t with wire := s.wire, outs := s.outs } []) ∧
      (v.getLsbD 63 = true → s.flag Reg.ETH_MDIO.BUSY = false → completes (.mdioGo dt v) s fun t =>
        t.outs = s.outs ++ [.mdio (v.getLsbD 61) (bits v.toNat 57 53) (bits v.toNat 52 48) (bits v.toNat 15 0)] ∧
          t.flag Reg.ETH_MDIO.BUSY = true ∧ onlyRegsAnswered a { t with outs := s.outs }
            [Reg.ETH_MDIO.BUSY, Reg.ETH_MDIO.RD, Reg.ETH_MDIO.PHY, Reg.ETH_MDIO.REG, Reg.ETH_MDIO.DATA])) ∧
    (s.flag Reg.ETH_MDIO.BUSY = true → completes (.mdioDone dt data) s fun t => t.flag Reg.ETH_MDIO.BUSY = false ∧
      t.get Reg.ETH_MDIO.DATA = (if s.flag Reg.ETH_MDIO.RD then data.toNat else s.get Reg.ETH_MDIO.DATA) ∧
        onlyRegs a t [Reg.ETH_MDIO.BUSY, Reg.ETH_MDIO.DATA])

/-! The Herd link and site pairs. -/

/-- R484, R485: a herd frame with a bad CRC is counted as CRC_ERR; a frame for another member goes on with one hop fewer, or
is counted as HOP_DROP; a frame for every member goes on unless the next member is its source. R487, R497: each port sends a
HELLO every 1 ms; the third good one brings a port up, and PCS loss, missed HELLOs and a wrong partner take it down with
HERD_RING_BREAK; members that come into the master's reach then await a full copy. R490: the full copy of the trie and the
next hops. R29: an uncorrectable word of the queue from a port drops the frame. R491: TIME frames, link delays and the time
direction. -/
def Obligations.HerdLink : Prop :=
  ∀ (s a : State) (dt : Nat) (port : Fin 2) (f : HerdFrame) (res out : Nat) (ecc : Ecc) (member : Fin 8) (words : List (Nat × Nat))
    (hops : List Word) (t1 t2 t3 t4 : Int) (d x w : Nat), a = s.advance dt → out = 1 - port.val → inHerd s = true →
    completes (.herdFrameReceive dt port f false res ecc) s (fun t =>
      t.get Reg.HERD_COUNT.CRC_ERR = min (s.get Reg.HERD_COUNT.CRC_ERR + 1) 65535 ∧ onlyRegs a t [Reg.HERD_COUNT.CRC_ERR]) ∧
    completes (.herdFrameReceive dt port f true res .uncorrectable) s (fun t =>
      t.flag Reg.QMGR_XING_PROT.UNCORR = true ∧ t.outs = s.outs ∧ t.q.queues = s.q.queues) ∧
    (f.type ≠ 7 → f.type ≠ 2 → ringUp s port = true → f.dst ≠ s.herdId → f.dst ≠ 0xF →
      completes (.herdFrameReceive dt port f true res .ok) s fun t =>
        (f.hops = 0 → t.get Reg.HERD_COUNT.HOP_DROP = min (s.get Reg.HERD_COUNT.HOP_DROP + 1) 65535 ∧
          onlyRegs a { t with perf := s.perf } [Reg.HERD_COUNT.HOP_DROP]) ∧
        (f.hops ≠ 0 → ringUp s out = true → t.outs = s.outs ++ [.herd out { f with hops := f.hops - 1 }] ∧
          { t with outs := s.outs, perf := s.perf } = a)) ∧
    (f.type = 8 → ringUp s port = true → ringUp s out = true → f.dst = 0xF → s.herdId < 8 → f.hops ≠ 0 →
      completes (.herdFrameReceive dt port f true res .ok) s fun t => { t with outs := s.outs, perf := s.perf } = a ∧
        t.outs = if ringPartner s out = f.src then s.outs else s.outs ++ [.herd out { f with hops := f.hops - 1 }]) ∧
    (f.type = 7 →
      (f.src = ringPartner s port → f.hops + 1 = s.members → completes (.herdFrameReceive dt port f true res .ok) s fun t =>
        (ringPortOf t port).heard = a.tick ∧
          ringUp t port = (ringUp s port || decide (2 ≤ (ringPortOf s port).good)) ∧
          (s.isMaster = true → ∀ m ∈ inReach t, m ∉ inReach s → m ∈ t.wire.copies)) ∧
      (f.src ≠ ringPartner s port → completes (.herdFrameReceive dt port f true res .ok) s fun t => ringUp t port = false ∧
        (ringUp s port = true → reports a t Ev.HERD_RING_BREAK fun arg =>
          bits arg 47 47 = port.val ∧ bits arg 46 45 = 3 ∧ bits arg 44 41 = f.src % 16))) ∧
    (a.elapsedMs (ringPortOf s port).sent 1 = true → completes (.helloTx dt port) s fun t =>
      t.outs = s.outs ++ [.herd port (helloFrame s)] ∧ (ringPortOf t port).sent = a.tick ∧
        onlyRegs a { t with wire := s.wire, outs := s.outs, perf := s.perf } []) ∧
    (ringUp s port = true →
      (a.elapsedMs (ringPortOf s port).heard 3 = true → completes (.helloTimeout dt port) s fun t => ringUp t port = false ∧
        reports a t Ev.HERD_RING_BREAK fun arg => bits arg 47 47 = port.val ∧ bits arg 46 45 = 2) ∧
      completes (.herdPcsLoss dt port) s (fun t => ringUp t port = false ∧
        reports a t Ev.HERD_RING_BREAK fun arg => bits arg 47 47 = port.val ∧ bits arg 46 45 = 1) ∧
      (port = 0 → a.elapsedSec s.wire.east.delayAt 1 = true → d < 2 ^ 32 → ((t4 - t1) - (t3 - t2)) / 2 = d →
        completes (.herdDelayExchange dt port t1 t2 t3 t4) s fun t => t.get Reg.HERD_LINK_DELAY.DELAY_E = d ∧
          onlyRegs a { t with wire := s.wire } [Reg.HERD_LINK_DELAY.DELAY_E]) ∧
      (port = 1 → a.elapsedSec s.wire.west.delayAt 1 = true → d < 2 ^ 32 → ((t4 - t1) - (t3 - t2)) / 2 = d →
        completes (.herdDelayExchange dt port t1 t2 t3 t4) s fun t => t.get Reg.HERD_LINK_DELAY.DELAY_W = d ∧
          onlyRegs a { t with wire := s.wire } [Reg.HERD_LINK_DELAY.DELAY_W])) ∧
    (s.isMaster = true → member.val ∈ s.wire.copies → completes (.herdFullCopy dt member) s fun t =>
        { t with outs := s.outs, wire := s.wire } = a ∧ t.wire = { s.wire with copies := t.wire.copies } ∧
        (∀ m, m ∈ t.wire.copies ↔ m ∈ s.wire.copies ∧ m ≠ member.val) ∧ t.outs = s.outs ++ [.trieCopy member s.tables.trie ((List.range 16).map (nhWord s))]) ∧
    (s.flag Reg.HERD_CTRL.PREFIX_FROM_MASTER = true → s.isMaster = false → s.flag Reg.HERD_STATUS.REPL_SYNC = false →
      completes (.herdCopyDone dt words hops) s fun t => t.flag Reg.HERD_STATUS.REPL_SYNC = true ∧
        (words = [(x, w)] → trieWord t x = w % 2 ^ 32 ∧ ∀ y, y ≠ x → trieWord t y = 0) ∧
        ∀ i : Fin 16, ∀ v, hops[i.val]? = some v → t.flag (Reg.FWD_NH.VALID i) = v.getLsbD 63 ∧
          t.get (Reg.FWD_NH.DMAC i) = bits v.toNat 47 0) ∧
    (s.isMaster = true → a.elapsedMs s.wire.timeSent 10 = true → ringUp s 0 = true → ringUp s 1 = true → 3 ≤ s.members →
      completes (.herdTimeTx dt) s fun t => t.wire = { s.wire with timeSent := a.tick } ∧
        ∃ e g, t.outs = s.outs ++ [.herd 0 e, .herd 1 g] ∧ e.type = 6 ∧ g.type = 6 ∧ e.dst = 0xF ∧ g.dst = 0xF ∧
          e.arg = txStamp a 2 / 65536 ∧ g.arg = txStamp a 3 / 65536 ∧ e.payload = beBytes 8 0 ∧ g.payload = beBytes 8 0) ∧
    (s.flag Reg.HERD_CTRL.HERD_TIME = true → a.elapsedMs s.wire.timeHeard 30 = true →
      completes (.herdTimeDirSwitch dt) s fun t =>
        t.flag Reg.HERD_STATUS.TIME_DIR = !s.flag Reg.HERD_STATUS.TIME_DIR ∧
          onlyRegs a { t with wire := s.wire } [Reg.HERD_STATUS.TIME_DIR])

/-- R501: a lease frame whose tag fails is counted as LEASE_BAD. R502 to R505: a valid RENEW with a later epoch sets EPOCH,
and a holder stops; the holder renews every RENEW_MS and stops when its lease runs out; a standby claims with EPOCH + 1. R513,
R514: a drill needs a fresh STBY; the standby agrees to a HANDOVER, the holder takes the ACCEPT, and without it the drill
fails. -/
def Obligations.SitePair : Prop :=
  ∀ (s a : State) (dt : Nat) (port : Fin 2) (p : List Byte) (f : LeaseFrame) (v : Word) (d : Drill), a = s.advance dt →
    paired s = true → pairKey s = true → f = leaseFields s p →
    (ethUp s port = true → f.tagOk = false → completes (.leaseFrameReceive dt port p) s fun t =>
      t.get Reg.ETH_PAIR_COUNT.LEASE_BAD = min (s.get Reg.ETH_PAIR_COUNT.LEASE_BAD + 1) 65535 ∧
        onlyRegs a t [Reg.ETH_PAIR_COUNT.LEASE_BAD]) ∧
    (ethUp s port = true → f.tagOk = true → f.unit ≠ s.get Reg.ETH_PAIR_STATUS.UNIT → s.lease.peerSeq = none →
      (f.type = 1 → 0 < diffN 32 f.epoch (s.get Reg.ETH_PAIR_STATUS.EPOCH) →
        completes (.leaseFrameReceive dt port p) s fun t => t.get Reg.ETH_PAIR_STATUS.EPOCH = f.epoch % 2 ^ 32 ∧
          t.flag Reg.ETH_PAIR_STATUS.PEER_SEEN = true ∧ t.lease.peerSeq = some f.seq ∧
          t.lease.heardNs = some a.time.ns ∧ t.mem = s.mem ∧
          (s.get Reg.ETH_PAIR_STATUS.ROLE = 2 → t.get Reg.ETH_PAIR_STATUS.ROLE = 1 ∧
            reports a t Ev.LEASE_LOST fun arg => bits arg 15 14 = 2 ∧ bits arg 47 16 = s.get Reg.ETH_PAIR_STATUS.EPOCH % 2 ^ 32) ∧
          (s.get Reg.ETH_PAIR_STATUS.ROLE = 1 → t.get Reg.ETH_PAIR_STATUS.ROLE = 1 ∧
            t.lease.seq = (s.lease.seq + 1) % 2 ^ 32 ∧ t.events = s.events)) ∧
      (f.type = 3 → 0 < diffN 32 f.epoch (s.get Reg.ETH_PAIR_STATUS.EPOCH) → s.get Reg.ETH_PAIR_STATUS.ROLE = 1 →
        f.schedHash = schedHash s → f.sfMask &&& s.get Reg.ETH_PAIR_CFG.SF_MASK = 0 →
        completes (.leaseFrameReceive dt port p) s fun t => t.flag Reg.ETH_PAIR_STATUS.DRILL_PEND = true ∧
          t.get Reg.ETH_PAIR_STATUS.ROLE = 1 ∧ t.lease.drill =
            some { epoch := f.epoch, actAsn := f.actAsn, sent := false, agreed := true, tick := a.tick }) ∧
      (f.type = 4 → s.lease.drill = some d → d.sent = true → d.epoch = f.epoch → d.actAsn = f.actAsn →
        a.elapsedMs d.tick 50 = false →
        completes (.leaseFrameReceive dt port p) s fun t => t.lease.drill = some { d with agreed := true })) ∧
    (s.get Reg.ETH_PAIR_STATUS.ROLE = 2 →
      (a.agoNs s.lease.sentNs (pairNs (s.get Reg.ETH_PAIR_TIMING.RENEW_MS)) = true →
        completes (.leaseRenewTx dt) s fun t => t.lease.sentNs = a.time.ns ∧ t.lease.seq = (s.lease.seq + 1) % 2 ^ 32 ∧
          t.lease.renewNs = (if ethUp s 0 || ethUp s 1 then a.time.ns else s.lease.renewNs) ∧
          (ethUp s 0 = true → s.flag Reg.HERD_CTRL.BACKHAUL_AT_MASTER = false → ∃ o, .frame 3 o ∈ t.outs) ∧
          onlyRegs a { t with lease := s.lease, outs := s.outs, perf := s.perf } []) ∧
      (a.agoNs s.lease.renewNs (pairNs (leaseMs s - guardMs s)) = true → completes (.leaseExpire dt) s fun t =>
        t.get Reg.ETH_PAIR_STATUS.ROLE = 1 ∧ t.lease = { s.lease with stoppedNs := some a.time.ns } ∧
          reports a t Ev.LEASE_LOST fun arg => bits arg 15 14 = 0 ∧ bits arg 47 16 = s.get Reg.ETH_PAIR_STATUS.EPOCH % 2 ^ 32) ∧
      (a.agoNs s.lease.renewNs (pairNs (leaseMs s - guardMs s)) = false → completes (.leaseExpire dt) s fun t => t = a) ∧
      (s.flag Reg.ETH_PAIR_STATUS.DRILL_PEND = false → s.lease.stbyNs = none → v.getLsbD 62 = false →
        completes (.drill dt v) s fun t => t.flag Reg.ETH_PAIR_STATUS.DRILL_FAIL = true ∧
          onlyRegsAnswered a t [Reg.ETH_PAIR_STATUS.DRILL_FAIL]) ∧
      (s.flag Reg.ETH_PAIR_STATUS.DRILL_PEND = false → s.lease.stbyNs = some a.time.ns →
        s.flag Reg.ETH_PAIR_STATUS.MISMATCH = false → completes (.drill dt v) s fun t =>
          t.flag Reg.ETH_PAIR_STATUS.DRILL_PEND = true ∧ t.get Reg.ETH_PAIR_STATUS.ROLE = 2 ∧
          t.get Reg.ETH_PAIR_STATUS.EPOCH = s.get Reg.ETH_PAIR_STATUS.EPOCH % 2 ^ 32 ∧
          ∃ d', t.lease.drill = some d' ∧ d'.sent = true ∧ d'.agreed = false ∧
            d'.epoch = (s.get Reg.ETH_PAIR_STATUS.EPOCH + 1) % 2 ^ 32) ∧
      (s.flag Reg.ETH_PAIR_STATUS.DRILL_PEND = false → s.lease.stbyNs = none →
        s.get Reg.ETH_PAIR_CFG.DRILL_PERIOD_H = 1 → s.get Reg.ETH_PAIR_CFG.DRILL_PHASE_H = 0 →
        s.lease.hour ≠ some (hourNow a) → a.time.ns % 3600000000000 = 0 → completes (.drillHour dt) s fun t =>
          t.lease = { s.lease with hour := some (hourNow a) } ∧ t.flag Reg.ETH_PAIR_STATUS.DRILL_FAIL = true)) ∧
    (s.get Reg.ETH_PAIR_STATUS.ROLE = 1 → s.inRun = true → ethUp s 0 = true ∨ ethUp s 1 = true →
      s.flag Reg.TIME_STATUS.STEP_USED = true → tschOn s = true → a.agoNs (claimBase s) (pairNs (leaseMs s + guardMs s)) = true →
      completes (.leaseClaim dt) s fun t => t.get Reg.ETH_PAIR_STATUS.ROLE = 2 ∧
        t.get Reg.ETH_PAIR_STATUS.EPOCH = (s.get Reg.ETH_PAIR_STATUS.EPOCH + 1) % 2 ^ 32 ∧ t.lease.sentNs = a.time.ns ∧
        reports a t Ev.LEASE_TAKEN fun arg => bits arg 15 14 = 0 ∧
          bits arg 47 16 = (s.get Reg.ETH_PAIR_STATUS.EPOCH + 1) % 2 ^ 32) ∧
    (v.getLsbD 63 = false → completes (.syncDone dt v) s fun t => t.flag Reg.ETH_PAIR_STATUS.SYNCING = false ∧
      onlyRegsAnswered a t [Reg.ETH_PAIR_STATUS.SYNCING]) ∧
    (s.lease.drill = some d → d.sent = true → d.agreed = false → a.elapsedMs d.tick 50 = true →
      completes (.drillAcceptTimeout dt) s fun t => t.lease = { s.lease with drill := none } ∧
        t.flag Reg.ETH_PAIR_STATUS.DRILL_PEND = false ∧ t.flag Reg.ETH_PAIR_STATUS.DRILL_FAIL = true ∧
        onlyRegs a { t with lease := s.lease } [Reg.ETH_PAIR_STATUS.DRILL_PEND, Reg.ETH_PAIR_STATUS.DRILL_FAIL])

/-! Keys. -/

/-- R542, R545: while BUSY is clear, each KEYS command starts its operation and clears every result register; while BUSY is
set it is ignored. RESULT_ACK clears the results, but for those of an operation that ends in its cycle. -/
def Obligations.KeysCommandsStart : Prop :=
  ∀ (s a : State) (dt : Nat) (init : Init) (slot : Fin 32) (level : Byte) (v : Word) (c : Instr) (op lv sl : Nat),
    a = s.advance dt →
    (c, op, lv, sl) ∈ [(Instr.keyUpdate dt init, 0x01, 0, 0), (.lcAdvance dt init, 0x02, 0, 0), (.debugUnlock dt init, 0x03, 0, 0),
      (.importKeys dt init, 0x04, 0, 0), (.exportKeys dt init, 0x05, 0, 0), (.gooseClear dt init, 0x06, 0, 0),
      (.updateLock dt init, 0x07, 0, 0), (.settings dt init, 0x08, 0, 0), (.attest dt init, 0x09, 0, 0),
      (.derive dt init, 0x0A, 0, 0), (.clearSlot dt init slot, 0x0B, 0, slot.val), (.arbAdvance dt init level, 0x0C, level.toNat, 0),
      (.seal dt init, 0x0D, 0, 0), (.openBlob dt init, 0x0E, 0, 0), (.reladder dt init, 0x0F, 0, 0),
      (.provision dt init, 0x20, 0, 0), (.ownerInit dt init, 0x21, 0, 0)] →
    (s.flag Reg.KEYS_CMD_STATUS.BUSY = false → completes c s fun t => t.flag Reg.KEYS_CMD_STATUS.BUSY = true ∧
      t.get Reg.KEYS_CMD_STATUS.OP = op ∧
      t.keys = { s.keys with op := some { op := op, level := lv, slot := sl, jtag := decide (init = .jtag), tick := a.tick } } ∧
      (∀ k : Fin 16, t.flag (Reg.KEYS_RESULT.VALID k) = false ∧ t.get (Reg.KEYS_RESULT.DATA k) = 0) ∧
      onlyRegsAnswered a { t with keys := s.keys } (Reg.KEYS_CMD_STATUS.BUSY :: Reg.KEYS_CMD_STATUS.OP ::
        (List.range 16).flatMap fun k => [Reg.KEYS_RESULT.VALID k, Reg.KEYS_RESULT.DATA k])) ∧
    (s.flag Reg.KEYS_CMD_STATUS.BUSY = true → completes c s fun t => onlyRegsAnswered a t []) ∧
    completes (.resultAck dt v) s (fun t => (v.getLsbD 63 = true → resultsNew a = false → ∀ k : Fin 16,
        t.flag (Reg.KEYS_RESULT.VALID k) = false ∧ t.get (Reg.KEYS_RESULT.DATA k) = 0) ∧
      onlyRegsAnswered a t (if v.getLsbD 63 && !resultsNew a then (List.range 16).flatMap fun k =>
        [Reg.KEYS_RESULT.VALID k, Reg.KEYS_RESULT.DATA k] else []))

/-- R522, R542 to R545: how an operation ends. One that fails its checks ends with the first cause that applies and has no
effect; one that burns nothing has its effect: DEBUG_UNLOCK, IMPORT, EXPORT, GOOSE_CLEAR, DERIVE, SEAL and OPEN. While LOCKED
is set every one but GOOSE_CLEAR ends with LOCKED; a message whose header is wrong ends with FORMAT; a burn sets the bits of
its words, or, where the margin read fails, ends with OTP before its last word; CLEAR_SLOT empties a slot above 2; RELADDER
(R531) needs ZEROIZED and fills slots 0 to 2; ATTEST (R541) counts and writes results. -/
def Obligations.KeysOperationsEnd : Prop :=
  ∀ (s a : State) (dt n ofs slot : Nat) (o : KeysOp) (marginOk : Bool) (holds : BitVec 9) (b m x y data : List Byte),
    a = s.advance dt → s.keys.op = some o → b = msgBody s o o.op → x = (b.drop 8).take 32 → y = (b.drop 40).take 32 →
    slot = field b 0 1 →
    (o.op ≠ 9 ∨ nvReady s NvKind.ATT = true → keysCause s o ≠ 0 → completes (.keysOpDone dt marginOk holds) s fun t =>
      t.get Reg.KEYS_CMD_STATUS.CAUSE = keysCause s o ∧ t.flag Reg.KEYS_CMD_STATUS.FAIL = true ∧
      t.flag Reg.KEYS_CMD_STATUS.BUSY = false ∧ t.keys = { s.keys with op := none } ∧ t.mem = s.mem ∧ t.crypto = s.crypto ∧
      ∀ k : Fin 16, t.flag (Reg.KEYS_RESULT.VALID k) = false ∧ t.get (Reg.KEYS_RESULT.DATA k) = 0) ∧
    (keysCause s o = 0 →
      (o.op = 0x03 → completes (.keysOpDone dt marginOk holds) s fun t => t.get Reg.KEYS_CMD_STATUS.CAUSE = 0 ∧
        t.flag Reg.KEYS_STATUS.DEBUG = true ∧ t.flag Reg.KEYS_STATUS.LADDER = true ∧ t.mem = s.mem ∧
        (∀ k : Fin 32, t.flag (Reg.KEYS_SLOT.VALID k) = decide (k.val < 3)) ∧ t.crypto.cache = [] ∧
        ∀ k : Fin 64, t.flag (Reg.CRYPTO_GK_CFG.VALID k) = false) ∧
      (o.op = 0x04 → n = (if field b 2 1 = 0 then 24 else 40) → completes (.keysOpDone dt marginOk holds) s fun t =>
        t.get Reg.KEYS_CMD_STATUS.CAUSE = 0 ∧ t.flag (Reg.KEYS_SLOT.VALID slot) = true ∧
        t.get (Reg.KEYS_SLOT.ORIGIN slot) = 2 ∧ t.flag (Reg.KEYS_SLOT.EXPORT slot) = false ∧ t.mem = s.mem ∧
        some (Cells.get t.crypto.slotKeys slot []) = keyUnwrap (wrapKey s "PBE960 IMPORT" slot x y) ((b.drop 72).take n) ∧
        ∀ k, k ≠ slot → Cells.get t.crypto.slotKeys k [] = Cells.get s.crypto.slotKeys k []) ∧
      (o.op = 0x05 → m = keyWrap (wrapKey s "PBE960 EXPORT" slot x y) (Cells.get s.crypto.slotKeys slot []) → m.length = 40 →
        completes (.keysOpDone dt marginOk holds) s fun t => t.get Reg.KEYS_CMD_STATUS.CAUSE = 0 ∧ t.mem = s.mem ∧
          t.crypto = s.crypto ∧ ∀ k : Fin 10, t.flag (Reg.KEYS_RESULT.VALID k) = true ∧
            t.get (Reg.KEYS_RESULT.DATA k) = field m (4 * k) 4) ∧
      (o.op = 0x06 → completes (.keysOpDone dt marginOk holds) s fun t => t.mem = s.mem ∧ t.crypto = s.crypto ∧
        t.aon.writes = s.aon.writes ++ [.clear (clearNamed s o &&& (511 - holds.toNat))] ∧
        t.get Reg.KEYS_CMD_STATUS.CAUSE =
          if clearNamed s o &&& holds.toNat &&& s.get Reg.GOOSE_STATUS.LATCH = 0 then 0 else KeysCause.ACTIVE) ∧
      (o.op = 0x0A → m = keysInput s o 104 → completes (.keysOpDone dt marginOk holds) s fun t =>
        t.get Reg.KEYS_CMD_STATUS.CAUSE = 0 ∧ t.flag (Reg.KEYS_SLOT.VALID (field m 1 1)) = true ∧
        t.get (Reg.KEYS_SLOT.ORIGIN (field m 1 1)) = 3 ∧ t.mem = s.mem ∧
        Cells.get t.crypto.slotKeys (field m 1 1) [] = kdf (Cells.get s.crypto.slotKeys (field m 0 1) [])
          ((m.drop 8).take (field m 4 1)) ((m.drop (8 + field m 4 1)).take (field m 5 1)) (if field m 3 1 = 1 then 256 else 128)) ∧
      (o.jtag = false → ofs = s.get Reg.KEYS_MSG_ADDR.ADDR * 8 + 24 → m = keysInput s o 4136 →
        (o.op = 0x0D ∧ data = ccmCrypt (sealKey s m) (sealNonce m) (sealData m) ++
            ccmTag (sealKey s m) (sealNonce m) [] (sealData m) 16 ∨
          o.op = 0x0E ∧ data = ccmCrypt (sealKey s m) (sealNonce m) (sealData m)) →
        completes (.keysOpDone dt marginOk holds) s fun t => t.get Reg.KEYS_CMD_STATUS.CAUSE = 0 ∧ t.crypto = s.crypto ∧
          t.ddr ofs data.length = data ∧
          ∀ z, z < ofs ∨ ofs + data.length ≤ z → Cells.get t.mem.lp4x z 0 = Cells.get s.mem.lp4x z 0)) ∧
    (s.flag Reg.KEYS_STATUS.LOCKED = true → o.op ≠ 6 → o.op ≠ 9 → completes (.keysOpDone dt marginOk holds) s fun t =>
      t.get Reg.KEYS_CMD_STATUS.CAUSE = KeysCause.LOCKED ∧ t.flag Reg.KEYS_CMD_STATUS.FAIL = true ∧
      t.flag Reg.KEYS_CMD_STATUS.BUSY = false ∧ t.keys = { s.keys with op := none } ∧ t.mem = s.mem ∧ t.crypto = s.crypto ∧
      ∀ k : Fin 16, t.flag (Reg.KEYS_RESULT.VALID k) = false ∧ t.get (Reg.KEYS_RESULT.DATA k) = 0) ∧
    (s.flag Reg.KEYS_STATUS.LOCKED = false → s.keys.sensed = true → s.keys.lc ≠ 0 → s.keys.lc ≠ 5 → s.boot ≠ Boot.TAMPER_HOLD →
      1 ≤ o.op → o.op ≤ 8 → field (keysInput s o (msgLength o.op)) 0 4 ≠ 0x4B45594D →
      completes (.keysOpDone dt marginOk holds) s fun t => t.get Reg.KEYS_CMD_STATUS.CAUSE = KeysCause.FORMAT ∧
        t.flag Reg.KEYS_CMD_STATUS.FAIL = true ∧ t.mem = s.mem ∧ t.crypto = s.crypto) ∧
    (keysCause s o = 0 → keysPlan a o ≠ [] →
      completes (.keysOpDone dt true holds) s (fun t => t.get Reg.KEYS_CMD_STATUS.CAUSE = 0 ∧ t.keys = { s.keys with op := none } ∧
        (∀ p ∈ keysPlan a o, t.otp p.1 ||| p.2 % 2 ^ 64 = t.otp p.1) ∧
        (∀ w, w ∉ (keysPlan a o).map Prod.fst → t.otp w = s.otp w) ∧ { t.mem with otp := s.mem.otp } = s.mem) ∧
      completes (.keysOpDone dt false holds) s (fun t => t.get Reg.KEYS_CMD_STATUS.CAUSE = KeysCause.OTP ∧
        t.flag Reg.KEYS_CMD_STATUS.FAIL = true ∧
        (∀ w, w ∉ ((keysPlan a o).take ((keysPlan a o).length - 1)).map Prod.fst → t.otp w = s.otp w) ∧
        { t.mem with otp := s.mem.otp } = s.mem)) ∧
    (s.inRun = true → s.flag Reg.KEYS_STATUS.LOCKED = false → s.keys.sensed = true → s.keys.lc ≠ 0 → s.keys.lc ≠ 5 →
      (o.op = 0x0B → completes (.keysOpDone dt marginOk holds) s fun t =>
        (3 ≤ o.slot → t.flag (Reg.KEYS_SLOT.VALID o.slot) = false ∧ Cells.get t.crypto.slotKeys o.slot [] = [] ∧
          (∀ n, n ≠ o.slot → Cells.get t.crypto.slotKeys n [] = Cells.get s.crypto.slotKeys n []) ∧
          t.get Reg.KEYS_CMD_STATUS.CAUSE = 0) ∧
        (o.slot < 3 → t.crypto = s.crypto ∧ t.get Reg.KEYS_CMD_STATUS.CAUSE = KeysCause.SLOT) ∧ t.mem = s.mem) ∧
      (o.op = 0x0F → completes (.keysOpDone dt marginOk holds) s fun t =>
        if s.flag Reg.KEYS_STATUS.ZEROIZED then t.flag Reg.KEYS_STATUS.LADDER = true ∧
          t.flag Reg.KEYS_STATUS.ZEROIZED = false ∧ t.get Reg.KEYS_CMD_STATUS.CAUSE = 0 ∧
          (∀ n : Fin 32, t.flag (Reg.KEYS_SLOT.VALID n) = decide (n.val < 3)) ∧
          ∀ n : Fin 3, t.flag (Reg.KEYS_SLOT.EXPORT n) = decide (n.val ≠ 0)
        else t.get Reg.KEYS_CMD_STATUS.CAUSE = KeysCause.STATE ∧ t.crypto = s.crypto) ∧
      (o.op = 9 → slotHas s 1 5 = true → nvReady s NvKind.ATT = true → completes (.keysOpDone dt marginOk holds) s fun t =>
        t.get Reg.KEYS_ATT_CTR.ATT_CTR = (nvValue s NvKind.ATT + 1) % 2 ^ 64 ∧ nvValue t NvKind.ATT = nvValue s NvKind.ATT + 1 ∧
          t.get Reg.KEYS_CMD_STATUS.CAUSE = 0 ∧ t.mem = s.mem ∧ (∀ k : Fin 11, t.flag (Reg.KEYS_RESULT.VALID k) = true) ∧
          t.get (Reg.KEYS_RESULT.DATA 8) = (nvValue s NvKind.ATT + 1) % 2 ^ 32))

/-! The contactless interface and the FWM. -/

/-- R559, R560: a field request is refused with its cause or starts the field; switching off ends the running operation. R563:
a transceive sends its frame with the field on, keeps the buffer and the TIMEOUT of its start (R592), and stores its response
at ADDR + 0x200 with its cause. R565, R567: an anticollision lists the tags that it finds. R569 to R571: a ping beyond a
threshold sets PRESENT and raises CARD_PRESENT, or in OUTAGE sleep is kept in the always-on domain. R572, R573: the
originality check. -/
def Obligations.NfcReader : Prop :=
  ∀ (s a : State) (dt : Nat) (v w : Word) (ext : Bool) (buf pr till at' : Nat) (l : List Byte) (ans : NfcAnswer) (ta : TagA)
    (tv : TagV) (b x y : List Byte) (amp phase : Int), a = s.advance dt →
    (fieldOn s = false → ∀ e : Nat, (s.nfc.emu.isSome = true ∧ e = 8) ∨
        (s.nfc.emu = none ∧ s.flag Reg.NFC_STATUS.READY = false ∧ e = 9) ∨
        (s.nfc.emu = none ∧ s.flag Reg.NFC_STATUS.READY = true ∧ (ext = true ∨ s.flag Reg.NFC_STATUS.EXT_FIELD = true) ∧ e = 7) →
      completes (.fieldOnRequest dt v ext) s fun t => t.get Reg.NFC_RDR_RESULT.CAUSE = e ∧
        t.flag Reg.NFC_RDR_RESULT.DONE = true ∧ fieldOn t = false ∧ t.outs = s.outs ∧ t.nfc = s.nfc) ∧
    (fieldOn s = false → s.nfc.emu = none → s.flag Reg.NFC_STATUS.READY = true → s.flag Reg.NFC_STATUS.EXT_FIELD = false →
      completes (.fieldOnRequest dt v false) s fun t =>
        fieldOn t = true ∧ t.get Reg.NFC_RDR_RESULT.CAUSE = 0 ∧ a.tick + ticksOfUs 650 ≤ t.nfc.beginTick ∧
        (∀ o, s.nfc.offTick = some o → o + ticksOfUs 1000 + ticksOfUs 650 ≤ t.nfc.beginTick) ∧
        t.outs = s.outs ++ [.field (min (min 1000 (bits v.toNat 41 32)) (readerCap s))]) ∧
    (fieldOn s = true → s.nfc.op = some (.transceive w buf pr till) → completes (.fieldOffRequest dt v) s fun t =>
      fieldOn t = false ∧ t.nfc = { s.nfc with op := none, offTick := some a.tick } ∧ t.get Reg.NFC_RDR_RESULT.CAUSE = 10 ∧
        t.flag Reg.NFC_RDR_RESULT.BUSY = false ∧ t.outs = s.outs ++ [.field 0]) ∧
    (v.getLsbD 63 = true → s.nfc.op = none →
      (fieldOn s = false → completes (.transceive dt v) s (fun t => t.get Reg.NFC_RDR_RESULT.CAUSE = 10 ∧
          onlyRegsAnswered a t [Reg.NFC_RDR_RESULT.DONE, Reg.NFC_RDR_RESULT.CAUSE]) ∧
        completes (.anticollision dt v) s fun t => t.get Reg.NFC_AC_STATUS.CAUSE = 3 ∧ t.nfc = s.nfc ∧
          t.flag Reg.NFC_AC_STATUS.DONE = true) ∧
      (fieldOn s = true → s.inLp4x (rdrBuf s) 512 = true →
        till = max a.tick s.nfc.beginTick + ticksOfUs (hold 100 1000000 (s.get Reg.NFC_RDR_TIMING.TIMEOUT)) →
        completes (.transceive dt v) s fun t => t.nfc = { s.nfc with op := some (.transceive v (rdrBuf s) (rdrProto s) till) } ∧
          t.outs = s.outs ++ [.nfcSend (rdrProto s) (s.get Reg.NFC_RDR_CTRL.RATE) (s.flag Reg.NFC_RDR_CTRL.ASK100)
            (nfcFrame (rdrProto s) (v.getLsbD 62) (v.getLsbD 60)
              ((octetBits (s.ddr (rdrBuf s) (ceilDiv (min 4096 (bits v.toNat 12 0)) 8))).take (min 4096 (bits v.toNat 12 0))))] ∧
          onlyRegsAnswered a { t with nfc := s.nfc, outs := s.outs } [Reg.NFC_RDR_RESULT.BUSY]) ∧
      (fieldOn s = true → completes (.anticollision dt v) s fun t => t.flag Reg.NFC_AC_STATUS.BUSY = true ∧
        t.nfc = { s.nfc with op := some (.anticollision v) } ∧ t.get Reg.NFC_AC_STATUS.COUNT = 0) ∧
      completes (.originalityCheck dt v) s (fun t => t.nfc = { s.nfc with op := some (.originality v) } ∧
        t.flag Reg.NFC_ORIG_CTRL.HASH = v.getLsbD 62 ∧ onlyRegsAnswered a { t with nfc := s.nfc }
          [Reg.NFC_ORIG_STATUS.BUSY, Reg.NFC_ORIG_CTRL.HASH, Reg.NFC_ORIG_CTRL.ADDR])) ∧
    (s.nfc.op = some (.transceive w buf pr till) → s.nfc.beginTick ≤ a.tick →
      completes (.transceiveDone dt none) s (fun t => if till ≤ a.tick then t.get Reg.NFC_RDR_RESULT.CAUSE = 1 ∧
        t.flag Reg.NFC_RDR_RESULT.BUSY = false ∧ t.get Reg.NFC_RDR_RESULT.RX_BITS = 0 ∧ t.nfc = { s.nfc with op := none } ∧
          t.mem = s.mem else t = a) ∧
      (l = packBits 512 (nfcStored w.toNat pr ans).1 → s.inLp4x (buf + 0x200) l.length = true →
        completes (.transceiveDone dt (some ans)) s fun t => t.get Reg.NFC_RDR_RESULT.CAUSE = (nfcStored w.toNat pr ans).2 ∧
          t.flag Reg.NFC_RDR_RESULT.BUSY = false ∧ t.get Reg.NFC_RDR_RESULT.RX_BITS = (nfcStored w.toNat pr ans).1.length ∧
          t.nfc = { s.nfc with op := none } ∧ t.ddr (buf + 0x200) l.length = l ∧
          ∀ z, z < buf + 0x200 ∨ buf + 0x200 + l.length ≤ z → Cells.get t.mem.lp4x z 0 = Cells.get s.mem.lp4x z 0)) ∧
    (s.nfc.op = some (.anticollision w) → s.nfc.beginTick ≤ a.tick → bits w.toNat 51 43 = 0 → at' = bits w.toNat 39 4 * 16 →
      s.inLp4x at' 16 = true →
      (w.getLsbD 62 = false → ta.uid.length = 4 → ta.halted = false →
        completes (.anticollisionDone dt [ta] []) s fun t => t.get Reg.NFC_AC_STATUS.COUNT = 1 ∧
          t.get Reg.NFC_AC_STATUS.UNRESOLVED = 0 ∧ t.get Reg.NFC_AC_STATUS.CAUSE = 0 ∧
          t.flag Reg.NFC_AC_STATUS.BUSY = false ∧ t.ddr at' 16 = entryA ta) ∧
      (w.getLsbD 62 = true → w.getLsbD 60 = false → completes (.anticollisionDone dt [] [tv]) s fun t =>
        t.get Reg.NFC_AC_STATUS.COUNT = 1 ∧ t.get Reg.NFC_AC_STATUS.ROUNDS = 1 ∧ t.ddr at' 16 = entryV tv)) ∧
    (s.nfc.op = some (.originality w) → at' = bits w.toNat 39 6 * 64 → s.inLp4x at' 592 = true → b = s.ddr at' 592 →
      x = (b.drop 80).take 32 → y = (b.drop 112).take 32 →
      (field b 0 1 < 4 ∨ 10 < field b 0 1 → completes (.originalityDone dt) s fun t => t.flag Reg.NFC_ORIG_STATUS.MATCH = false ∧
        t.flag Reg.NFC_ORIG_STATUS.BAD_INPUT = true ∧ t.nfc = { s.nfc with op := none } ∧ t.mem = s.mem) ∧
      (4 ≤ field b 0 1 → field b 0 1 ≤ 10 → field b 11 1 = 1 → scalarOk ((b.drop 16).take 32) = true →
        scalarOk ((b.drop 48).take 32) = true → w.getLsbD 62 = false → completes (.originalityDone dt) s fun t =>
          t.flag Reg.NFC_ORIG_STATUS.MATCH = (onP256 x y && ecdsaOk x y
            ((b.drop 1).take (field b 0 1) ++ List.replicate (32 - field b 0 1) 0) ((b.drop 16).take 32) ((b.drop 48).take 32)) ∧
          t.flag Reg.NFC_ORIG_STATUS.BAD_INPUT = !onP256 x y ∧ t.get Reg.NFC_ORIG_STATUS.KEY = 0 ∧
          t.flag Reg.NFC_ORIG_STATUS.BUSY = false ∧ t.mem = s.mem)) ∧
    (pingDue a = false → completes (.presencePing dt amp phase ext) s fun t => t = a) ∧
    (pingDue a = true → pingSkipped s ext = true → completes (.presencePing dt amp phase ext) s fun t =>
      t = a.setNfc { s.nfc with pingTick := a.tick }) ∧
    (pingDue a = true → pingSkipped s ext = false → s.nfc.baseAmp ≠ 0 →
      (presAmp s < ((1000 * (amp * 65536 - s.nfc.baseAmp)).tdiv s.nfc.baseAmp).natAbs →
        completes (.presencePing dt amp phase ext) s fun t => t.nfc = { s.nfc with pingTick := a.tick } ∧
          (s.health.sleep = false → t.flag Reg.NFC_PRES_STATUS.PRESENT = true ∧ countedOnce s t Ev.CARD_PRESENT) ∧
          (s.health.sleep = true → t.aon.card.isSome = true ∧ t.counters = s.counters)) ∧
      (amp * 65536 = s.nfc.baseAmp → phase * 65536 = s.nfc.basePhase → completes (.presencePing dt amp phase ext) s fun t =>
        t.flag Reg.NFC_PRES_STATUS.PRESENT = false ∧ t.nfc = { s.nfc with pingTick := a.tick } ∧
          t.get Reg.NFC_PRES_STATUS.PINGS = min (s.get Reg.NFC_PRES_STATUS.PINGS + 1) 65535))

/-- R574, R579: a session starts in its mode with the UID of page 0, or one that begins with 0x08. R576, R577: the replies of
the emulated tag to selection, at 9 × 128 + 84 or + 20 carrier cycles by the last bit of what it heard, and its ATS. R577,
R578, R580: the replies to its APDUs, and the operations that wait for the FWM. -/
def Obligations.EmulatedTag : Prop :=
  ∀ (s a : State) (dt : Nat) (vdd last energy : Bool) (e : EmuSession) (level : Fin 3) (known : List Bool) (d : List Byte)
    (param : Byte) (ready ofs len f r c fd : Nat), a = s.advance dt →
    (fieldOn s = false → s.nfc.emu = none →
      (s.inRun = true → s.flag Reg.NFC_EMU_CTRL.EN = false → completes (.emuSessionStart dt vdd) s fun t =>
        t.flag Reg.NFC_STATUS.EXT_FIELD = true ∧ onlyRegs a t [Reg.NFC_STATUS.EXT_FIELD]) ∧
      (s.inRun = false ∨ s.flag Reg.NFC_EMU_CTRL.EN = true → completes (.emuSessionStart dt vdd) s fun t => ∃ x,
        t.nfc = { s.nfc with emu := some x } ∧ t.flag Reg.NFC_STATUS.EMU_SESSION = true ∧ t.mem = s.mem ∧
        x.active = (s.inRun && s.flag Reg.NFC_EMU_CTRL.ACTIVE_EN && vdd && !s.health.sleep) ∧
        (pageLocked s = true → x.uid = s.fwmRead 0x08 7 ∧ x.atqa = 0x0044) ∧
        (pageLocked s = false → x.uid.length = 4 ∧ x.uid.head? = some 0x08 ∧ x.atqa = 0x0004))) ∧
    (s.nfc.emu = some e → e.active = true ∨ s.fwm = [] → completes (.emuSessionEnd dt) s fun t =>
      t.nfc = { s.nfc with emu := none } ∧ t.fwm = s.fwm ∧ onlyRegs a { t with nfc := s.nfc }
        [Reg.NFC_STATUS.EXT_FIELD, Reg.NFC_STATUS.EMU_SESSION, Reg.NFC_STATUS.EMU_ACTIVE]) ∧
    (s.nfc.emu = none → completes (.emuReqa dt) s (fun t => t = a) ∧ completes (.emuWupa dt) s (fun t => t = a)) ∧
    (s.nfc.emu = some e →
      (∀ i, (i, fd) ∈ [(Instr.emuReqa dt, 1172), (.emuWupa dt, 1236)] → completes i s fun t =>
        t.outs = s.outs ++ [.tagReply fd 16 (leBytes 2 e.atqa)] ∧
          t.nfc = { s.nfc with emu := some { e with levels := 0, rats := false, file := none } } ∧
          { t with outs := s.outs, nfc := s.nfc } = a) ∧
      (e.levels = level.val → level.val < (uidLevels e.uid).length →
        (known.isPrefixOf (octetBits (levelOctets e.uid level)) = true → completes (.emuAnticollision dt level known) s fun t =>
          ∃ o, t.outs = s.outs ++ [.tagReply (if anticollisionLast known then 1236 else 1172) ((octetBits (levelOctets e.uid level)).length - known.length) o] ∧
            { t with outs := s.outs } = a) ∧
        (fd = (if frameLast (BitVec.ofNat 8 (0x93 + 2 * level.val) :: 0x70 :: levelOctets e.uid level) then 1236 else 1172) →
          completes (.emuSelectTag dt level (levelOctets e.uid level)) s fun t =>
          t.nfc = { s.nfc with emu := some { e with levels := level.val + 1 } } ∧
          t.outs = s.outs ++ [.tagReply fd 8 [if level.val + 1 = (uidLevels e.uid).length then 0x20 else 0x04]])) ∧
      (e.levels = (uidLevels e.uid).length → completes (.emuRats dt param ready) s fun t =>
        t.nfc = { s.nfc with emu := some { e with rats := true } } ∧
          t.outs = s.outs ++ [.tagReply (frameDelay (frameLast [0xE0, param]) ready) 40 [0x05, 0x78, 0x00, 0x70, 0x00]])) ∧
    (s.nfc.emu = some e → e.rats = true →
      completes (.emuSelect dt true [0xD2, 0x76, 0x00, 0x00, 0x85, 0x01, 0x01] last ready) s (fun t =>
        t.nfc = { s.nfc with emu := some { e with app := true, file := none } } ∧
          t.outs = s.outs ++ [.tagReply (frameDelay last ready) 16 [0x90, 0x00]]) ∧
      completes (.emuSelect dt false [0xE1, 0x04] last ready) s (fun t =>
        t.nfc = { s.nfc with emu := some { e with file := some 0xE104 } } ∧
          t.outs = s.outs ++ [.tagReply (frameDelay last ready) 16 [0x90, 0x00]]) ∧
      (e.file = none → completes (.emuReadBinary dt ofs len last ready) s (fun t => { t with outs := s.outs } = a ∧
          t.outs = s.outs ++ [.tagReply (frameDelay last ready) 16 [0x69, 0x86]]) ∧
        completes (.emuUpdateBinary dt ofs d energy last ready) s fun t => { t with outs := s.outs } = a ∧
          t.outs = s.outs ++ [.tagReply (frameDelay last ready) 16 [0x69, 0x86]]) ∧
      (e.file = some f → 1 ≤ len → len ≤ 240 → ofs + len ≤ ((fileBytes s f).getD []).length →
        completes (.emuReadBinary dt ofs len last ready) s fun t => { t with fwm := s.fwm } = a ∧ t.fwm = s.fwm ++
          [{ op := 7, index := f, ofs := ofs, len := len, last := last, ready := ready, emu := true, active := e.active }]) ∧
      (e.file = some f → d.length ≤ 240 → d ≠ [] → fileRecord f = some r →
        (r ≤ 28 ∧ bit (writeMask s) r = true → ofs + d.length ≤ 240 → completes (.emuUpdateBinary dt ofs d energy last ready) s
          fun t => { t with fwm := s.fwm, outs := s.outs } = a ∧
            (e.active = true ∨ energy = true → t.outs = s.outs ∧ t.fwm = s.fwm ++
              [{ op := 2, index := r, ofs := ofs, data := d, last := last, ready := ready, emu := true, active := e.active }]) ∧
            (e.active = false → energy = false → t.fwm = s.fwm ∧
              t.outs = s.outs ++ [.tagReply (frameDelay last ready) 16 [0x65, 0x81]])) ∧
        (bit (writeMask s) r = false → completes (.emuUpdateBinary dt ofs d energy last ready) s fun t =>
          { t with outs := s.outs } = a ∧ t.outs = s.outs ++ [.tagReply (frameDelay last ready) 16 [0x69, 0x82]])) ∧
      (c ≤ 15 → completes (.emuIncrement dt c energy last ready) s fun t => { t with fwm := s.fwm, outs := s.outs } = a ∧
        (bit (incMask s) c = false → t.fwm = s.fwm ∧ t.outs = s.outs ++ [.tagReply (frameDelay last ready) 16 [0x69, 0x82]]) ∧
        (bit (incMask s) c = true → ctrRead s c = some (2 ^ 24 - 1) → t.fwm = s.fwm ∧
          t.outs = s.outs ++ [.tagReply (frameDelay last ready) 16 [0x6A, 0x84]]) ∧
        (bit (incMask s) c = true → ctrRead s c ≠ some (2 ^ 24 - 1) → e.active = true ∨ energy = true → t.outs = s.outs ∧
          t.fwm = s.fwm ++ [{ op := 4, index := c, last := last, ready := ready, emu := true, active := e.active }])) ∧
      completes (.emuInsNotSupported dt true last ready) s (fun t => { t with outs := s.outs } = a ∧
        t.outs = s.outs ++ [.tagReply (frameDelay last ready) 16 [0x6D, 0x00]]) ∧
      completes (.emuInsNotSupported dt false last ready) s (fun t => { t with outs := s.outs } = a ∧
        t.outs = s.outs ++ [.tagReply (frameDelay last ready) 16 [0x6E, 0x00]]))

/-- R582 to R587, R592: the FWM commands wait in order of arrival. A record write gives the record its new data and the next
version, and leaves every other record; one that fails before its commit leaves the old record. An increment counts one, and a
failed one never reads below. PROVISION locks page 0 and resets the counters, and is refused once it is locked. -/
def Obligations.FieldWritableMemory : Prop :=
  ∀ (s a : State) (dt : Nat) (v : Word) (c : Instr) (op i x k : Nat) (o : FwmOp) (rest : List FwmOp), a = s.advance dt →
    ((c, op) ∈ [(Instr.fwmReadRecord dt v, 1), (.fwmWriteRecord dt v, 2), (.fwmReadCounters dt v, 3), (.fwmIncrement dt v, 4),
        (.fwmReadPage0 dt v, 5), (.fwmProvision dt v, 6)] → i = bits v.toNat 44 40 →
      (s.flag Reg.NFC_FWM_STATUS.BUSY = false → Boot.BOOT_ROM ≤ s.boot → completes c s fun t =>
        t.flag Reg.NFC_FWM_STATUS.BUSY = true ∧ t.fwm = s.fwm ++
          [{ op := op, index := i, addr := bits v.toNat 39 8 * 256, cause := fwmCause s op i }] ∧
          onlyRegsAnswered a { t with fwm := s.fwm } [Reg.NFC_FWM_STATUS.BUSY]) ∧
      (s.flag Reg.NFC_FWM_STATUS.BUSY = true → completes c s fun t => onlyRegsAnswered a t [])) ∧
    (s.fwm = o :: rest → completes (.fwmOpStart dt) s fun t => t.fwm = { o with started := true } :: rest ∧
      { t with fwm := s.fwm } = a) ∧
    (s.fwm = o :: rest → o.started = true → o.emu = false → o.cause = 0 →
      (o.op = 1 → s.inLp4x o.addr 240 = true → completes (.fwmOpDone dt none) s fun t =>
        t.ddr o.addr 240 = recordData s o.index ∧ t.get Reg.NFC_FWM_STATUS.VERSION = recordVersion s o.index ∧
          t.mem.fwm = s.mem.fwm ∧ t.fwm = rest ∧ t.get Reg.NFC_FWM_STATUS.CAUSE = 0) ∧
      (o.op = 2 → o.index ≤ 29 →
        completes (.fwmOpDone dt none) s (fun t => recordData t o.index = s.ddr o.addr 240 ∧
          recordVersion t o.index = (recordVersion s o.index + 1) % 65536 ∧ t.get Reg.NFC_FWM_STATUS.CAUSE = 0 ∧
          (∀ r, r ≠ o.index → recordData t r = recordData s r) ∧ { t.mem with fwm := s.mem.fwm } = s.mem) ∧
        (k ≤ 2 → completes (.fwmOpDone dt (some k)) s fun t => recordData t o.index = recordData s o.index ∧
          t.get Reg.NFC_FWM_STATUS.CAUSE = 5 ∧ t.flag Reg.NFC_FWM_STATUS.FAIL = true)) ∧
      (o.op = 3 → s.inLp4x o.addr 128 = true → completes (.fwmOpDone dt none) s fun t => t.mem.fwm = s.mem.fwm ∧
        ∀ n : Fin 16, t.ddrLE (o.addr + 8 * n) 8 = (ctrRead s n).getD 0 + if (ctrRead s n).isSome then 2 ^ 63 else 0) ∧
      (o.op = 4 → o.index ≤ 15 → ctrRead s o.index = some x →
        (x < 2 ^ 24 - 1 →
          completes (.fwmOpDone dt none) s (fun t => ctrRead t o.index = some (x + 1) ∧ t.get Reg.NFC_FWM_STATUS.CAUSE = 0) ∧
          completes (.fwmOpDone dt (some k)) s (fun t => t.get Reg.NFC_FWM_STATUS.CAUSE = 5 ∧
            ∃ y, ctrRead t o.index = some y ∧ x ≤ y)) ∧
        (x = 2 ^ 24 - 1 → completes (.fwmOpDone dt none) s fun t => t.get Reg.NFC_FWM_STATUS.CAUSE = 4 ∧ t.mem = s.mem)) ∧
      (o.op = 5 → s.inLp4x o.addr 256 = true → completes (.fwmOpDone dt none) s fun t =>
        t.ddr o.addr 256 = s.fwmRead 0 256 ∧ t.mem.fwm = s.mem.fwm) ∧
      (o.op = 6 →
        (pageLocked s = true → completes (.fwmOpDone dt none) s fun t => t.get Reg.NFC_FWM_STATUS.CAUSE = 2 ∧ t.mem = s.mem) ∧
        (pageLocked s = false → completes (.fwmOpDone dt none) s fun t => pageLocked t = true ∧
          t.fwmRead 0 0xF8 = s.ddr o.addr 0xF8 ∧ ∀ n : Fin 16, ctrRead t n = some 0))) ∧
    (s.fwm = o :: rest → o.started = true → o.emu = true → o.op = 4 → o.index ≤ 15 → s.nfc.emu.isSome = true →
      ctrRead s o.index = some x → x < 2 ^ 24 - 1 → completes (.fwmOpDone dt none) s fun t => ctrRead t o.index = some (x + 1) ∧
        t.flag Reg.NFC_FWM_STATUS.EMU_WRITE = true ∧
        t.outs = s.outs ++ [.tagReply (frameDelay o.last o.ready) 40 (beBytes 3 (x + 1) ++ [0x90, 0x00])])

/-! Interrupts and the cores. -/

/-- R601, R602: a rising filter output sets PENDING, and counts while PENDING is set; a held word (R607, R608) defers it until
the hold ends, and an event of the very cycle of a write stays (R610). R609: a write without a read before it is LATE. R605,
R606: what a locked source and T4's bank ignore. R600: an inter-processor interrupt sets the sender's private source. R597:
WFI, gating and waking. R615: STRANDED. -/
def Obligations.Interrupts : Prop :=
  ∀ (s a : State) (dt : Nat) (n : Fin 512) (w : Fin 13) (core : Fin 4) (init : Init) (v : Word) (b k c nib : Nat) (h : Hold) (e : Nat),
    a = s.advance dt →
    (powered s = true → srcListed n = true → srcHigh s n = false → srcBall s n = some b → gpioIsInput s b = true →
      nib = 4 * (n.val % 64 % 16) → c = bits (s.get (cntFld (n / 64) (n % 64))) (nib + 3) nib →
      completes (.icuSourceEvent dt n) s fun t => srcHigh t n = true ∧
        (holdOn s (n / 64) = none → (∀ i, i < 64 → bit (t.get (pendFld (n / 64))) i =
            (decide (i = n.val % 64) || bit (s.get (pendFld (n / 64))) i)) ∧
          bits (t.get (cntFld (n / 64) (n % 64))) (nib + 3) nib =
            if bit (s.get (pendFld (n / 64))) (n % 64) ∨ bit (a.before (pendFld (n / 64))) (n % 64) then min 15 (c + 1) else c) ∧
        (holdOn s (n / 64) = some h → a.elapsedNs h.tick 640 = false → t.fields = s.fields ∧
          holdOn t (n / 64) = some { h with deferred := h.deferred ++ [n.val % 64] })) ∧
    (srcListed n = true → powered s = true → srcHigh s n = false → srcBall s n = none → s.icu.raised = [n.val] →
      holdOn s (n / 64) = none → completes (.icuSourceEvent dt n) s fun t => t.icu.raised = [] ∧ srcHigh t n = false ∧
        bit (t.get (pendFld (n / 64))) (n % 64) = true) ∧
    (srcHigh s n = true → srcBall s n = some b → gpioIsInput s b = true → completes (.filterOutputFall dt n) s fun t =>
      srcHigh t n = false ∧ { t with icu := s.icu, io := s.io } = a) ∧
    completes (.pendRead dt init w) s (fun t => (holdOn s w = none → t.bus.data = s.get (pendFld w) ∧ t.fields = s.fields ∧
        holdOn t w = some { number := s.icu.opened + 1, holder := initNo init, tick := a.tick }) ∧
      (holdOn s w = some h → a.elapsedNs h.tick 640 = false → t.bus.data = s.get (pendFld w) ∧ t.fields = s.fields ∧
        holdOn t w = some (if h.holder = initNo init then { h with tick := a.tick } else h))) ∧
    (w.val ≠ 12 ∨ init = .sheepdog → lockedBits s w = 0 → s.icu.high = [] →
      (holdOn s w = some h → a.elapsedNs h.tick 640 = false → h.holder = initNo init → h.number ≠ 0 →
        Cells.get s.icu.marks (markKey w init) 0 = h.number → h.deferred = [b] → b < 64 →
        completes (.pendWrite dt init w v) s fun t => holdOn t w = none ∧ bit (t.get (pendFld w)) b = true ∧
          (∀ i, i < 64 → i ≠ b → bit (t.get (pendFld w)) i = v.getLsbD i) ∧
          t.flag Reg.ICU_STATUS.LATE = s.flag Reg.ICU_STATUS.LATE) ∧
      (holdOn s w = none → w.val < 8 → completes (.pendWrite dt init w v) s fun t => t.get (pendFld w) = v.toNat ||| pendKept a w ∧
        (Cells.get s.icu.marks (markKey w init) 0 = 0 → t.flag Reg.ICU_STATUS.LATE = true ∧
          t.get Reg.ICU_STATUS.LATE_WORD = w.val ∧ t.get Reg.ICU_STATUS.LATE_INIT = initNo init ∧
          (initNo init ≤ 4 → holdOn s (8 + initNo init) = none → bit (t.get (pendFld (8 + initNo init))) 8 = true)))) ∧
    (w.val = 12 → init ≠ .sheepdog → init ≠ .jtag → completes (.pendWrite dt init w v) s fun t => onlyRegsAnswered a t []) ∧
    (holdOn s w = some h → a.elapsedNs h.tick 640 = true → h.deferred = [b] → b < 64 → completes (.holdExpire dt w) s fun t =>
      holdOn t w = none ∧ bit (t.get (pendFld w)) b = true) ∧
    (srcListed n = true →
      (s.flag (Reg.ICU_SH_CFG.LOCKED n) = true → completes (.shCfgWrite dt n v) s fun t => onlyRegsAnswered a t []) ∧
      (s.flag (Reg.ICU_SH_CFG.LOCKED n) = false → completes (.shCfgWrite dt n v) s fun t =>
        t.flag (Reg.ICU_SH_CFG.EDGE n) = v.getLsbD 11 ∧ t.get (Reg.ICU_SH_CFG.TGT n) = bits v.toNat 10 8 ∧
          t.get (Reg.ICU_SH_CFG.FILT_CNT n) = bits v.toNat 7 0 ∧ t.mem = s.mem)) ∧
    completes (.ipi dt init v) s (fun t => ∀ i : Fin 5, v.getLsbD i = true → holdOn s (8 + i) = none →
      bit (t.get (pendFld (8 + i))) (initNo init) = true) ∧
    (powered s = true → s.get (Reg.ICU_CORE_PWR.STATE core) = 0 → completes (.coreWfi dt core) s fun t =>
      t.get (Reg.ICU_CORE_PWR.STATE core) = (if core ≠ 0 ∧ s.flag (Reg.ICU_CORE_PWR.GATE_EN core) = true then 2 else 1) ∧
        onlyRegs a { t with icu := s.icu } [Reg.ICU_CORE_PWR.STATE core]) ∧
    (wakeReq s core = true → coreEntry s core = some e → completes (.coreWake dt core) s fun t =>
      t.get (Reg.ICU_CORE_PWR.STATE core) = 0 ∧ t.flag (Reg.ICU_CORE_PWR.RESUMED core) = true ∧
        t.outs = s.outs ++ [.coreStart core e] ∧ onlyRegs a { t with icu := s.icu, outs := s.outs }
          [Reg.ICU_CORE_PWR.STATE core, Reg.ICU_CORE_PWR.RESUMED core]) ∧
    (strands s core = true → s.icu.stranded = [(core.val, k)] → a.elapsedUs k (max 1 (s.get Reg.ICU_CTRL.STRAND_US)) = true →
      holdOn s 12 = none → (List.range 512).find? (fun i => holdsLine s core i) = some e →
      completes (.strandTimeout dt core) s fun t => bit (t.get (pendFld 12)) 9 = true ∧ t.icu.stranded = [(core.val, a.tick)] ∧
        reports a t Ev.STRANDED fun arg => bits arg 47 39 = e ∧ bits arg 38 36 = core.val)

/-! The SAFE block. -/

/-- R649: a word pushed into a FIFO with room is kept, and one pushed into a FIFO full of commands is discarded and sets OVF.
At the EOP word the checks run in order and the first that fails rejects the command; one that passes is accepted. R650: it
becomes a class 0 downlink packet of its link record, and a MESSAGE source raises its ICU source. R651: in flight DEADLINE_MS
after acceptance it is detected under DEADLINE. R654: the loopback judges the rise, the stay and the fall of an emission in
this order, each against the commanded power less 10 dB. A rule that holds moves it on, and after the last one its commands
have left flight (R651); a rise that does not come by its bound, a fall that comes early and lasts 20 µs, and an emission
beyond the last bound are each detected under LOOPBACK. -/
def Obligations.ProtectiveCommandPath : Prop :=
  (∀ (s a : State) (dt seq r : Nat) (v : Word) (poison : Bool) (src : Fin 16) (f : Flight) (words : List Nat) (c : List Byte)
    (rejected : Nat → State → Prop), a = s.advance dt → words = s.safe.words ++ [v.toNat] → c = words.flatMap (leBytes 8) →
    (rejected = fun k t => t.flag Reg.SAFE_CMD_STATUS.REJECT = true ∧ t.get Reg.SAFE_CMD_STATUS.CAUSE = k ∧
      t.safe = { s.safe with words := [] } ∧ t.down = s.down ∧ t.mem = s.mem ∧ t.outs = s.outs) →
    (256 ≤ s.safe.words.length + 4 * s.safe.flights.length →
      completes (.safeCmdPush dt v) s (fun t => t.flag Reg.SAFE_CMD_STATUS.OVF = true ∧ t.safe = s.safe ∧
        onlyRegsAnswered a t [Reg.SAFE_CMD_STATUS.OVF]) ∧
      completes (.safeCmdPushLast dt v poison) s (fun t => t.flag Reg.SAFE_CMD_STATUS.OVF = true ∧ t.safe = s.safe)) ∧
    (s.safe.words.length + 4 * s.safe.flights.length < 256 →
      completes (.safeCmdPush dt v) s (fun t => t.safe = { s.safe with words := words } ∧
        onlyRegsAnswered a { t with safe := s.safe } []) ∧
      (words.length ≠ 4 ∨ fieldBE c 0 2 ≠ 0x5043 ∨ field c 3 1 = 0 →
        completes (.safeCmdPushLast dt v poison) s (rejected 1)) ∧
      (words.length = 4 → fieldBE c 0 2 = 0x5043 → field c 3 1 ≠ 0 →
        (poison = true → completes (.safeCmdPushLast dt v poison) s (rejected 2)) ∧
        (poison = false → crc32c (c.take 28) ≠ field c 28 4 → completes (.safeCmdPushLast dt v poison) s (rejected 3)) ∧
        (poison = false → crc32c (c.take 28) = field c 28 4 → field c 2 1 = src.val →
          (s.get (Reg.SAFE_SRC.KIND src) = 0 → completes (.safeCmdPushLast dt v poison) s (rejected 4)) ∧
          (s.get (Reg.SAFE_SRC.KIND src) ≠ 0 →
            (lastSeq s src = some seq → later 32 (field c 4 4) seq = false →
              completes (.safeCmdPushLast dt v poison) s (rejected 5)) ∧
            (lastSeq s src = none ∨ lastSeq s src = some seq ∧ later 32 (field c 4 4) seq = true →
              (safeTarget s c = none ∨ safeTarget s c = some r ∧ recSafety s r = false →
                completes (.safeCmdPushLast dt v poison) s (rejected 6)) ∧
              (safeTarget s c = some r → recSafety s r = true →
                (s.safeNow = true → completes (.safeCmdPushLast dt v poison) s fun t =>
                  t.flag Reg.SAFE_CMD_STATUS.REJECT = true ∧ t.get Reg.SAFE_CMD_STATUS.CAUSE = 7 ∧ t.down = s.down) ∧
                (s.safeNow = false → completes (.safeCmdPushLast dt v poison) s fun t =>
                  t.safe.flights = s.safe.flights ++ [{ source := src, seq := field c 4 4, octets := c, tick := a.tick }] ∧
                  t.safe.words = [] ∧ t.safe.inputs = s.safe.inputs.erase src.val ∧ lastSeq t src = some (field c 4 4) ∧
                  t.fields = s.fields ∧ t.mem = s.mem ∧
                  (∃ d, t.down = s.down ++ [d] ∧ d.pkt.cls = 0 ∧ d.record = some r ∧ d.pkt.datagram = c ∧
                    d.pkt.safety = some (src.val, field c 4 4)) ∧
                  t.icu.raised = (if s.get (Reg.SAFE_SRC.KIND src) = 2 then s.icu.raised ++ [112 + src.val]
                    else s.icu.raised)))))))) ∧
    (s.safe.flights = [f] → f.source = src.val → f.seq < 2 ^ 32 →
      (a.elapsedMs f.tick (s.get (Reg.SAFE_SRC.DEADLINE_MS src)) = true → s.inRun = true → s.safeNow = false →
        completes (.commandDeadline dt src f.seq) s fun t => enteredSafe a t 0x0A src f.seq ∧ t.mem = s.mem) ∧
      (a.elapsedMs f.tick (s.get (Reg.SAFE_SRC.DEADLINE_MS src)) = false →
        completes (.commandDeadline dt src f.seq) s fun t => t = a))) ∧
  (∀ (s a : State) (dt : Nat) (fe : Fin 3) (l : Loopback) (power level : Int) (k : Nat × Nat) (fails : State → Prop),
    a = s.advance dt → s.safe.loopbacks = [l] → l.fe = fe.val → l.commands = [k] → k.1 < 16 → l.passed ≤ 2 →
    level = (((emitting a fe).bind fun e => e.carriers.find? Carrier.safety).map (·.pinQdbm)).getD l.qdbm - 40 →
    (fails = fun t => enteredSafe a t 0x09 k.1 (fe.val * 2 ^ 30 + l.asn % 2 ^ 30) ∧ t.safe.loopbacks = [] ∧ t.mem = s.mem) →
    (l.passed = 0 →
      (level ≤ power → a.time.ns ≤ l.riseByNs → completes (.loopbackBound dt fe power) s fun t =>
        t.safe = { s.safe with loopbacks := [{ l with passed := 1 }] } ∧ { t with safe := s.safe } = a) ∧
      (power < level → a.time.ns < l.riseByNs → completes (.loopbackBound dt fe power) s fun t => t = a) ∧
      (power < level ∨ l.riseByNs < a.time.ns → l.riseByNs ≤ a.time.ns → s.inRun = true → s.safeNow = false →
        completes (.loopbackBound dt fe power) s fails)) ∧
    (l.passed = 1 →
      (level ≤ power → completes (.loopbackBound dt fe power) s fun t => { t with safe := s.safe } = a ∧
        t.safe = { s.safe with loopbacks := [{ l with passed := if l.stayToNs ≤ a.time.ns then 2 else 1, fellNs := none }] }) ∧
      (power < level → l.fellNs = none → a.time.ns < l.stayToNs → completes (.loopbackBound dt fe power) s fun t =>
        t.safe = { s.safe with loopbacks := [{ l with fellNs := some a.time.ns }] } ∧ { t with safe := s.safe } = a) ∧
      (∀ since, power < level → l.fellNs = some since → s.inRun = true → s.safeNow = false → since + 20000 ≤ a.time.ns →
        completes (.loopbackBound dt fe power) s fails)) ∧
    (l.passed = 1 ∧ l.fellNs = none ∧ l.stayToNs ≤ a.time.ns ∨ l.passed = 2 → power < level → a.time.ns ≤ l.fallByNs →
      completes (.loopbackBound dt fe power) s fun t => t.safe.loopbacks = [] ∧
        t.safe.flights = s.safe.flights.filter (fun f => decide ((f.source, f.seq) ≠ k)) ∧ { t with safe := s.safe } = a) ∧
    (l.passed = 1 ∧ l.fellNs = none ∧ l.stayToNs ≤ a.time.ns ∧ power < level ∨ l.passed = 2 →
      level ≤ power ∨ l.fallByNs < a.time.ns → l.fallByNs ≤ a.time.ns → s.inRun = true → s.safeNow = false →
      completes (.loopbackBound dt fe power) s fails))

/-- R658: a kick in time begins a new window; an early one, one with another KEY and a window that passes without one are each
detected, with a reset due 1 ms later. The application watchdog sets APP_WD. R666: another initiator's write is ignored; FORCE
enters the safe state, and FW_DONE is taken in it. R660: three safe notices leave, 1 ms apart. -/
def Obligations.Watchdogs : Prop :=
  ∀ (s a : State) (dt : Nat) (init : Init) (v : Word) (c : Instr) (detected : State → Prop), a = s.advance dt →
    (detected = fun t => enteredSafe a t 0x07 0 0 ∧ t.safe.wdReset = some a.tick ∧ t.mem = s.mem) →
    c ∈ [Instr.safeForce dt init v, .safeFwDone dt init v] →
    (init ≠ .sheepdog → completes (.wdKick dt init v) s (fun t => onlyRegsAnswered a t []) ∧
      completes c s (fun t => onlyRegsAnswered a t [])) ∧
    (s.inRun = true →
      (v.toNat % 256 = 0x5A → s.safe.wdKicked = false ∨ a.elapsedUs s.safe.wdTick (s.get Reg.SAFE_WD_CFG.WD_MIN_US) = true →
        completes (.wdKick dt .sheepdog v) s fun t => t.safe = { s.safe with wdTick := a.tick, wdKicked := true } ∧
          onlyRegsAnswered a { t with safe := s.safe } []) ∧
      (s.safeNow = false → s.safe.wdReset = none →
        (v.toNat % 256 = 0x5A → s.safe.wdKicked = true →
          a.elapsedUs s.safe.wdTick (s.get Reg.SAFE_WD_CFG.WD_MIN_US) = false →
          completes (.wdKick dt .sheepdog v) s fun t => detected t ∧ t.safe.wdTick = a.tick) ∧
        (v.toNat % 256 ≠ 0x5A → completes (.wdKick dt .sheepdog v) s detected) ∧
        (a.elapsedUs s.safe.wdTick (s.get Reg.SAFE_WD_CFG.WD_MAX_US) = true → completes (.wdExpire dt) s detected)) ∧
      (a.elapsedUs s.safe.wdTick (s.get Reg.SAFE_WD_CFG.WD_MAX_US) = false → completes (.wdExpire dt) s fun t => t = a) ∧
      (s.get Reg.SAFE_WD_CFG.APP_WD_MS ≠ 0 → a.elapsedMs s.safe.appTick (s.get Reg.SAFE_WD_CFG.APP_WD_MS) = true →
        completes (.appWdExpire dt) s fun t => t.flag Reg.SAFE_MON_STATUS.APP_WD = true ∧
          t.safe = { s.safe with appTick := a.tick } ∧ onlyRegs a { t with safe := s.safe } [Reg.SAFE_MON_STATUS.APP_WD]) ∧
      (s.get Reg.SAFE_WD_CFG.APP_WD_MS = 0 → completes (.appWdExpire dt) s fun t => t = a) ∧
      (init = .sheepdog → v.getLsbD 63 = true → s.safeNow = false → completes c s fun t => enteredSafe a t 0x0F 0 0 ∧
        t.flag Reg.SAFE_STATUS.FW_DONE = (v.getLsbD 62 || s.flag Reg.SAFE_STATUS.FW_DONE))) ∧
    (init = .sheepdog → v.getLsbD 63 = false → completes c s fun t =>
      t.flag Reg.SAFE_STATUS.FW_DONE = (v.getLsbD 62 && s.safeNow || s.flag Reg.SAFE_STATUS.FW_DONE) ∧
        onlyRegsAnswered a t [Reg.SAFE_STATUS.FW_DONE]) ∧
    completes (.appWdKick dt v) s (fun t => onlyRegsAnswered a { t with safe := s.safe } [] ∧
      t.safe = if v.toNat % 256 = 0xA5 then { s.safe with appTick := a.tick } else s.safe) ∧
    (s.safeNow = true → s.inRun = true → paired s = true → pairKey s = true → s.safe.notices < 3 →
      s.safe.notices = 0 ∨ a.elapsedMs s.safe.noticeTick 1 = true → s.flag Reg.HERD_CTRL.BACKHAUL_AT_MASTER = false →
      completes (.safeNoticeTx dt) s fun t => t.safe = { s.safe with notices := s.safe.notices + 1, noticeTick := a.tick } ∧
        (∀ n : Fin 2, ethUp s n = true → Out.frame (3 + n.val) (etherFrame (s.get Reg.ETH_PAIR_PEER.PEER_MAC) (portMac s n)
          0x88B6 (noticeHead s ++ (hmac (Cells.get s.crypto.slotKeys (s.get Reg.ETH_PAIR_CFG.PAIR_KEY_SLOT) [])
            (noticeHead s)).take 16)) ∈ t.outs) ∧ { t with safe := s.safe, outs := s.outs, perf := s.perf } = a) ∧
    (s.safe.notices = 3 → completes (.safeNoticeTx dt) s fun t => t = a)

/-- R653: in RUN each mechanism that detects a fault enters the safe state with its MECH, and in CALIBRATE it ends the start
in boot state SAFE (R661); in the safe state it sets its MON bit only, but names itself where it falls in the very cycle of
the entry and has the lower number. The main rails and T_j are sampled every 100 µs. A corrected word, a clean window and a
single sample are no detection; another clock domain sets CLK_REPORT, and a core's uncorrectable word ECC_REPORT (R657). -/
def Obligations.Mechanisms : Prop :=
  ∀ (s a : State) (dt mech detail d : Nat) (c : Instr) (ecc : Ecc) (tj : Int) (core : Fin 4), a = s.advance dt →
    (c, mech, detail) ∈ [(Instr.lockstepMismatch dt, 1, 0), (.tcmScrub dt .uncorrectable, 2, 0), (.tcmUncorrectableRead dt, 2, 0),
      (.cfgScrub dt true, 3, 0), (.clockMonitor dt (some 0), 4, 0), (.clockMonitor dt (some 14), 4, 14)] →
    (s.inRun = true → s.safeNow = false → completes c s fun t => enteredSafe a t mech 0 detail ∧ t.mem = s.mem) ∧
    (s.inRun = true → s.safeNow = true → s.safe.safeTick ≠ a.tick ∨ s.get Reg.SAFE_STATUS.MECH ≤ mech →
      completes c s fun t => bit (t.get Reg.SAFE_MON_STATUS.MON) (mech - 1) = true ∧ onlyRegs a t [Reg.SAFE_MON_STATUS.MON]) ∧
    (s.inRun = true → s.safeNow = true → s.safe.safeTick = a.tick → mech < s.get Reg.SAFE_STATUS.MECH →
      completes c s fun t => t.get Reg.SAFE_STATUS.MECH = mech ∧ t.get Reg.SAFE_STATUS.DETAIL = detail ∧
        { t with events := s.events, fields := s.fields } = { a with fields := s.fields }) ∧
    (s.boot = Boot.CALIBRATE → s.safeNow = false → completes c s fun t => t.boot = Boot.SAFE ∧
      t.get Reg.SAFE_STATUS.MECH = mech ∧ .pin .safeN false ∈ t.outs ∧ t.mem = s.mem) ∧
    (s.inRun = true →
      (ecc ≠ .uncorrectable → completes (.tcmScrub dt ecc) s fun t => t = a) ∧
      (scrubCrc s = s.safe.scrubCrc → completes (.cfgScrub dt false) s fun t => t = a) ∧
      (scrubCrc s ≠ s.safe.scrubCrc → s.safeNow = false → completes (.cfgScrub dt false) s fun t => enteredSafe a t 3 0 0) ∧
      completes (.clockMonitor dt none) s (fun t => t = a) ∧
      (d ∉ safeDomains → completes (.clockMonitor dt (some d)) s fun t => t.flag Reg.SAFE_MON_STATUS.CLK_REPORT = true ∧
        onlyRegs a t [Reg.SAFE_MON_STATUS.CLK_REPORT]) ∧
      (sampleTurn a s.safe.voltTick = true →
        completes (.voltageSample dt true) s (fun t =>
          t.safe = { s.safe with volts := 0, voltTick := some a.tick } ∧ { t with safe := s.safe } = a) ∧
        (s.safe.volts = 0 → completes (.voltageSample dt false) s fun t =>
          t.safe = { s.safe with volts := 1, voltTick := some a.tick } ∧ { t with safe := s.safe } = a) ∧
        (s.safe.volts = 1 → s.safeNow = false → completes (.voltageSample dt false) s fun t => enteredSafe a t 5 0 0)) ∧
      (sampleTurn a s.safe.voltTick = false → completes (.voltageSample dt false) s fun t => t = a)) ∧
    (powered s = true → sampleTurn a s.safe.tempTick = true → completes (.tempSample dt tj) s fun t =>
      t.get Reg.HEALTH_STATUS.TEMP = ofSigned 12 (satSigned 12 tj) ∧
        t.get Reg.HEALTH_STATUS.PEAK_TEMP =
          ofSigned 12 (max (satSigned 12 tj) (toSigned 12 (s.get Reg.HEALTH_STATUS.PEAK_TEMP))) ∧
        (tj < 920 → t.safe = { s.safe with hots := 0, tempTick := some a.tick } ∧
          onlyRegs a { t with safe := s.safe, health := s.health } [Reg.HEALTH_STATUS.TEMP, Reg.HEALTH_STATUS.PEAK_TEMP]) ∧
        (920 ≤ tj → s.safe.hots = 1 → s.inRun = true → s.safeNow = false → enteredSafe a t 6 0 0)) ∧
    completes (.cacheUncorrectableEcc dt core) s (fun t => t.flag Reg.SAFE_MON_STATUS.ECC_REPORT = true ∧
      t.outs = s.outs ++ [.coreFault core] ∧ onlyRegs a { t with outs := s.outs } [Reg.SAFE_MON_STATUS.ECC_REPORT])

/-- R546, R547, R554: an enabled source latches, and the first one is noted with the clock. In RUN it is reported and has its
response, each with those before it: LOG, ZEROIZE_VOLATILE, LOCK_KEYS, and a restart. R548, R61, R62: until the ladder has run
it only latches, and from then on, up to CALIBRATE, a response other than LOG ends the start in TAMPER_HOLD with the slots
zeroised. -/
def Obligations.GooseLatches : Prop :=
  ∀ (s a : State) (dt r : Nat) (src : Fin 9), a = s.advance dt → r = gooseResponse s src →
    (s.flag (Reg.GOOSE_SRC.EN src) = false ∨ gooseLatched s src = true → completes (.gooseLatch dt src) s fun t => t = a) ∧
    (s.start.off = false → s.flag (Reg.GOOSE_SRC.EN src) = true → gooseLatched s src = false → s.health.sleep = false →
      s.keys.op = none →
      (s.boot ≤ Boot.CALIBRATE ∧ (s.keys.laddered = false ∨ r = 0) ∨ s.boot = Boot.TAMPER_HOLD →
        completes (.gooseLatch dt src) s fun t => gooseLatched t src = true ∧ t.flag Reg.GOOSE_STATUS.ANY = true ∧
          (s.flag Reg.GOOSE_STATUS.ANY = false → t.get Reg.GOOSE_STATUS.FIRST = src.val ∧
            t.get Reg.GOOSE_STATUS.FIRST_RESP = s.get (Reg.GOOSE_SRC.RESPONSE src) % 8 ∧
            t.get Reg.GOOSE_LATCH_TIME.TICK = rtcNow a) ∧
          t.aon = { s.aon with latches := s.aon.latches ++ [{ src := src, phase := s.boot, abort := false }] } ∧
          onlyRegs a { t with aon := s.aon } [Reg.GOOSE_STATUS.LATCH, Reg.GOOSE_STATUS.ANY, Reg.GOOSE_STATUS.FIRST,
            Reg.GOOSE_STATUS.FIRST_RESP, Reg.GOOSE_LATCH_TIME.TICK]) ∧
      (s.boot ≤ Boot.CALIBRATE → s.keys.laddered = true → r ≠ 0 → completes (.gooseLatch dt src) s fun t =>
        t.boot = Boot.TAMPER_HOLD ∧ gooseLatched t src = true ∧ t.flag Reg.KEYS_STATUS.ZEROIZED = true ∧
          (∀ n : Fin 32, t.flag (Reg.KEYS_SLOT.VALID n) = false)) ∧
      (s.inRun = true → completes (.gooseLatch dt src) s fun t => gooseLatched t src = true ∧
        (r ≤ 2 → t.inRun = true ∧ reports a t Ev.TAMPER fun arg => bits arg 47 44 = src.val ∧
          bits arg 43 41 = s.get (Reg.GOOSE_SRC.RESPONSE src) % 8 ∧ bits arg 40 37 = Boot.RUN ∧ bits arg 36 36 = 0) ∧
        (r = 0 → t.keys = s.keys ∧ t.crypto = s.crypto ∧ t.mem = s.mem) ∧
        (r = 1 ∨ r = 2 → t.flag Reg.KEYS_STATUS.ZEROIZED = true ∧ t.crypto.cache = [] ∧
          (∀ j ∈ t.crypto.jobs, j.engine = none) ∧
          (∀ n : Fin 32, t.flag (Reg.KEYS_SLOT.VALID n) = false) ∧ (∀ n : Fin 4, t.get (Reg.KEYS_CHAL.CHAL n) = 0) ∧
          t.flag Reg.KEYS_STATUS.LOCKED = (decide (r = 2) || s.flag Reg.KEYS_STATUS.LOCKED)) ∧
        (3 ≤ r → t.boot = Boot.AON_ONLY ∧ t.flag Reg.SYS_RESET_CAUSE.TAMPER = true ∧ t.keys = {} ∧ t.crypto = {} ∧
          t.events = [])))

/-! Health, outage operation, the Lamb, performance records and the serial controllers. -/

/-- R673 to R675, R689: at a 1 ms boundary the next step is applied once T_j has stood high, and the highest one released once
it has stood low, one step at a boundary, each with a THROTTLE. R676: at the end of the reaction window of MECH 0x06
everything but the Sheepdog and the HEALTH block stops. R678, R679, R681: a day's evaluation of a monitor takes its sample and
shows the days of the fit and the confidence; between two samples of a linear monitor the fit is the line through them.
EOL_WARN is raised once at a fall below WARN_DAYS. -/
def Obligations.ThermalAndAgeing : Prop :=
  ∀ (s a : State) (dt k n d : Nat) (mon : Fin 19) (measured : List Int) (v v' : Int) (f : Fit) (l : List (Nat × Int)),
    a = s.advance dt → k = stepsOn s →
    v = (if mon.val < 15 then measured.getD mon 0 else if mon.val = 15 then (gensLeft s ownerGens : Int)
      else if mon.val = 16 then (gensLeft s settingsGens : Int)
      else if mon.val = 17 then ((s.mem.erases.map (·.2)).foldl max 0 : Nat) else (s.health.corrected : Int)) →
    l = Cells.get s.health.samples mon [] ++ [(runTime a, v)] → f = fitOf a mon l →
    n = (if mon.val = 15 ∨ mon.val = 16 then (burnsOf s mon).length else l.length) →
    (powered s = true → s.time.running = true → msBoundary a = true →
      (s.health.boundary ≠ some a.msNow →
        (k < 5 → stepHot s (k + 1) = true → completes (.throttleBoundary dt) s fun t =>
          t.get Reg.HEALTH_STATUS.STEPS = 2 ^ (k + 1) - 1 ∧ t.health = { s.health with boundary := some a.msNow } ∧
            t.mem = s.mem ∧ reports a t Ev.THROTTLE fun arg => bits arg 47 45 = k + 1 ∧ bits arg 44 44 = 1 ∧
              bits arg 43 39 = 2 ^ (k + 1) - 1 ∧ bits arg 38 27 = s.get Reg.HEALTH_STATUS.TEMP % 4096) ∧
        (0 < k → k = 5 ∨ stepHot s (k + 1) = false → stepCool a k = true → completes (.throttleBoundary dt) s fun t =>
          t.get Reg.HEALTH_STATUS.STEPS = 2 ^ (k - 1) - 1 ∧
            t.health = { s.health with boundary := some a.msNow, released := some a.tick } ∧ t.mem = s.mem ∧
            reports a t Ev.THROTTLE fun arg => bits arg 47 45 = k ∧ bits arg 44 44 = 0 ∧ bits arg 43 39 = 2 ^ (k - 1) - 1)) ∧
      (s.health.boundary = some a.msNow → completes (.throttleBoundary dt) s fun t => t = a)) ∧
    (s.inRun = true → s.safeNow = true → s.get Reg.SAFE_STATUS.MECH = 0x06 → s.flag Reg.HEALTH_STATUS.THERMAL_OFF = false →
      (a.elapsedUs s.safe.safeTick (1000 + s.get Reg.SAFE_WD_CFG.FW_REACT_US) = true → completes (.thermalOff dt) s fun t =>
        t.flag Reg.HEALTH_STATUS.THERMAL_OFF = true ∧ t.flag Reg.ETH_STATUS.ETH0_UP = false ∧
          t.flag Reg.ETH_STATUS.ETH1_UP = false ∧ t.flag Reg.ETH_STATUS.MGMT_UP = false ∧
          t.flag Reg.HERD_STATUS.E_UP = false ∧ t.flag Reg.HERD_STATUS.W_UP = false ∧
          t.flag Reg.NFC_STATUS.FIELD_ON = false ∧ (∀ n : Fin 3, (t.fe n).emissions = []) ∧
          (∀ n : Fin 4, t.get (Reg.ICU_CORE_PWR.STATE n) = 3) ∧ t.mem = s.mem) ∧
      (a.elapsedUs s.safe.safeTick (1000 + s.get Reg.SAFE_WD_CFG.FW_REACT_US) = false →
        completes (.thermalOff dt) s fun t => t = a)) ∧
    (s.inRun = true → s.health.evalAt + dayTicks ≤ runTime a → completes (.ageingEval dt measured) s fun t =>
      Cells.get t.health.samples mon [] = l ∧ t.get (Reg.HEALTH_MON.SAMPLES mon) = min n 16383 ∧
        t.get (Reg.HEALTH_MON.VALUE mon) = ofSigned 32 (satSigned 32 v) ∧
        (f.days = none → t.get (Reg.HEALTH_MON.EOL_DAYS mon) = 65535) ∧
        (∀ x, f.days = some x → x ≤ 0 → t.get (Reg.HEALTH_MON.EOL_DAYS mon) = 0) ∧
        (f.days = some (d : Rat) → t.get (Reg.HEALTH_MON.EOL_DAYS mon) = min d 65534) ∧
        (12 ≤ mon.val → mon.val < 15 → Cells.get s.health.samples mon [] = [(0, v')] → v' < v → 0 < runTime a →
          (300 - v) * (runTime a : Int) = (v - v') * (d * dayTicks : Nat) →
          t.get (Reg.HEALTH_MON.EOL_DAYS mon) = min d 65534) ∧
        (n < 2 → t.get (Reg.HEALTH_MON.CONF mon) = 0) ∧
        (2 ≤ n → t.get (Reg.HEALTH_MON.CONF mon) =
          if (if mon.val = 15 ∨ mon.val = 16 then 5 else 180) ≤ n ∧ 9 / 10 ≤ f.r2 then 3
          else if (if mon.val = 15 ∨ mon.val = 16 then 3 else 30) ≤ n ∧ 1 / 2 ≤ f.r2 then 2 else 1) ∧
        (t.get (Reg.HEALTH_MON.EOL_DAYS mon) < s.get Reg.HEALTH_CFG.WARN_DAYS → bit s.health.warned mon = false →
          2 ≤ t.get (Reg.HEALTH_MON.CONF mon) → bit t.health.warned mon = true ∧
            (s.events.length + 19 ≤ 4096 → a.eventEnabled Ev.EOL_WARN = true → ∃ r ∈ t.events, r.code = Ev.EOL_WARN ∧
              bits r.arg 47 43 = mon ∧ bits r.arg 40 25 = t.get (Reg.HEALTH_MON.EOL_DAYS mon))) ∧
        (bit s.health.warned mon = true ∨ s.get Reg.HEALTH_CFG.WARN_DAYS ≤ t.get (Reg.HEALTH_MON.EOL_DAYS mon) ∨
            t.get (Reg.HEALTH_MON.CONF mon) < 2 → bit t.health.warned mon = (bit s.health.warned mon &&
              decide (t.get (Reg.HEALTH_MON.EOL_DAYS mon) ≤ s.get Reg.HEALTH_CFG.WARN_DAYS + 30))) ∧
        t.health.evalAt = runTime a ∧ { t.mem with flash := s.mem.flash, erases := s.mem.erases } = s.mem) ∧
    (runTime a < s.health.evalAt + dayTicks → completes (.ageingEval dt measured) s fun t => t = a)

/-- R684: ON_BACKUP follows PG_MAINS, and VBAT is shown. R685: OUT_DEBOUNCE_MS after PG_MAINS fell, the profile is OUTAGE and
the mode WIDE, and a STORM ends; 1 s after it rose they return, each at a 1 ms boundary. R686: a sleep request is refused with
the first cause that holds; otherwise MAIN_PWR_EN falls, the main domain stops, and the always-on one keeps its registers.
R687: in OUTAGE sleep each wake cause drives MAIN_PWR_EN high and stands in LAMB_WAKE; while VBAT is below VBAT_WAKE_MIN the
Lamb, the clock and the card are ignored and counted. R688: 40 bits that differ from an enabled pattern in at most ERR_TOL
positions match, and others do not. -/
def Obligations.OutageSleepAndWakes : Prop :=
  (∀ (s a : State) (dt mv k : Nat) (level : Bool) (v : Word), a = s.advance dt →
    (s.health.mains ≠ level → powered s = true → completes (.pgMainsChange dt level) s fun t =>
      t.flag Reg.HEALTH_STATUS.ON_BACKUP = !level ∧ t.health = { s.health with mains := level, mainsTick := a.tick } ∧
        onlyRegs a { t with health := s.health } [Reg.HEALTH_STATUS.ON_BACKUP]) ∧
    (s.health.mains = level → completes (.pgMainsChange dt level) s fun t => t = a) ∧
    (s.start.off = false → (∀ last, s.health.vbatTick = some last → a.elapsedMs last 100 = true) →
      completes (.vbatSample dt mv) s fun t => t.get Reg.HEALTH_STATUS.VBAT = min mv 8191 ∧
        t.health = { s.health with vbatTick := some a.tick } ∧ onlyRegs a { t with health := s.health } [Reg.HEALTH_STATUS.VBAT]) ∧
    (s.inRun = true → s.health.mains = false → s.get Reg.HEALTH_STATUS.PROFILE ≠ 3 → msBoundary a = true →
      (s.flag Reg.HEALTH_CFG.OUTAGE_EN = true →
        a.elapsedMs s.health.mainsTick (s.get Reg.HEALTH_CFG.OUT_DEBOUNCE_MS) = true → completes (.outageEnter dt) s fun t =>
          t.get Reg.HEALTH_STATUS.PROFILE = 3 ∧ t.get Reg.CHAN_STATUS.MODE = modeWIDE ∧ t.health = s.health ∧
            t.crypto = s.crypto ∧ t.mem = s.mem ∧
            (s.get Reg.CHAN_STATUS.MODE = modeSTORM → countedOnce a t Ev.STORM_EXIT)) ∧
      (s.flag Reg.HEALTH_CFG.OUTAGE_EN = false → completes (.outageEnter dt) s fun t => t = a)) ∧
    (s.inRun = true → s.health.mains = true → s.get Reg.HEALTH_STATUS.PROFILE = 3 → a.elapsedSec s.health.mainsTick 1 = true →
      msBoundary a = true → completes (.outageExit dt) s fun t => t.get Reg.HEALTH_STATUS.PROFILE = s.health.profile % 4 ∧
        t.get Reg.CHAN_STATUS.MODE = s.get Reg.CHAN_HEAR_CTRL.BASE % 4 ∧ t.crypto = s.crypto ∧ t.mem = s.mem) ∧
    (powered s = true →
      (k = (if s.flag Reg.HEALTH_STATUS.ON_BACKUP = false then 1
          else if s.keys.op.isSome = true ∨ s.fwm ≠ [] ∨ s.upd.prog.isSome = true ∨ s.upd.cmd.isSome = true then 2
          else if s.safe.flights ≠ [] ∨ s.safe.inputs ≠ [] then 3
          else if s.flag Reg.LAMB_CTRL.EN = true ∧ s.flag Reg.LAMB_CTRL.CAL_OK = false then 4 else 0) →
        (k ≠ 0 → completes (.sleepRequest dt v) s fun t => t.flag Reg.HEALTH_SLEEP.REFUSED = true ∧
          t.get Reg.HEALTH_SLEEP.CAUSE = k ∧ onlyRegsAnswered a t [Reg.HEALTH_SLEEP.REFUSED, Reg.HEALTH_SLEEP.CAUSE]) ∧
        (k = 0 → completes (.sleepRequest dt v) s fun t => t.health.sleep = true ∧ t.health.presence = presWord s ∧
          .pin .mainPwrEn false ∈ t.outs ∧ t.keys = {} ∧ t.crypto = {} ∧ t.events = [] ∧ t.counters = [] ∧
          (∀ n : Fin 3, (t.fe n).emissions = []) ∧ t.aon = s.aon ∧ t.mem.otp = s.mem.otp ∧ t.mem.fwm = s.mem.fwm ∧
          (∀ g : Fld, alwaysOn g.key = true → t.get g = a.get g))))) ∧
  (∀ (s a : State) (dt n p : Nat) (pat : Fin 4) (rx : List Bool) (c : Instr) (woken : State → Prop),
    a = s.advance dt → s.health.sleep = true → s.health.waking = false →
    (c, n, p) ∈ (if rtcDue a = true then [(Instr.rtcWake dt, 1, 0), (.outageWake dt .rtc, 1, 0)] else []) ++
      (if s.flag Reg.LAMB_CTRL.EN = true ∧ s.flag (Reg.LAMB_PAT.EN pat) = true then [(Instr.outageWake dt (.lamb pat), 0, pat.val)]
        else []) ++
      (if s.aon.card.isSome = true then [(Instr.outageWake dt .card, 2, 0)] else []) ++
      (if s.health.mains = true then [(Instr.outageWake dt .mains, 3, 0)] else []) ++
      (if sleepTamper s = true then [(Instr.outageWake dt .tamper, 4, 0)] else []) ++
      (if s.flag Reg.LAMB_CTRL.EN = true ∧ lambHit s rx pat = true ∧ (∀ m, m < pat.val → lambHit s rx m = false) then
        [(Instr.lambMatch dt rx, 0, pat.val)] else []) →
    (woken = fun t => t.get Reg.LAMB_WAKE.CAUSE = 2 ^ n ∧ t.get Reg.LAMB_WAKE.PAT = p ∧
      t.get Reg.LAMB_WAKE.WAKES = min (s.get Reg.LAMB_WAKE.WAKES + 1) 65535 ∧ t.outs = s.outs ++ [.pin .mainPwrEn true] ∧
      t.health = { s.health with waking := true } ∧
      onlyRegs a { t with outs := s.outs, health := s.health } [Reg.LAMB_WAKE.CAUSE, Reg.LAMB_WAKE.PAT, Reg.LAMB_WAKE.WAKES]) →
    (3 ≤ n ∨ s.get Reg.HEALTH_CFG.VBAT_WAKE_MIN ≤ s.get Reg.HEALTH_STATUS.VBAT → completes c s woken) ∧
    (n ≤ 2 → s.get Reg.HEALTH_STATUS.VBAT < s.get Reg.HEALTH_CFG.VBAT_WAKE_MIN → completes c s fun t =>
      t.get Reg.LAMB_WAKE.IGNORED = min (s.get Reg.LAMB_WAKE.IGNORED + 1) 65535 ∧ t.outs = s.outs ∧
        onlyRegs a { t with aon := s.aon } [Reg.LAMB_WAKE.IGNORED]) ∧
    ((∀ m : Fin 4, lambHit s rx m = false) → completes (.lambMatch dt rx) s fun t => t = a))

/-- R697, R699, R700: at a multiple of the period the collector writes its record at the ring's write position, which
advances; a full ring takes none, and the snapshot is counted as missed. Between them, and with the collector off, nothing
happens. R727: the serial controllers. A push of IO_UART_TX joins its FIFO, and a full FIFO discards it with TX_OVF; received
octets queue with their errors and pop in order (R739), and a full FIFO discards with RX_OVF. An idle I2C or SPI controller
starts a transfer, and a busy one ignores GO; its end clears BUSY and sets DONE, with the data that was read. -/
def Obligations.PerfAndSerial : Prop :=
  (∀ (s a : State) (dt p x T : Nat), a = s.advance dt →
    T = a.time.ns / (p * 1000) * (p * 1000) →
    (s.perf.period = some p →
      (a.time.ns < T + 64 → T ≠ s.perf.fromNs →
        (ringFull s = false → completes (.perfSnapshot dt) s fun t =>
          t.ddr (recordAddr s (s.get Reg.PERF_RING_WR.WR)) 8768 = perfRecord a T ∧
            (x < recordAddr s (s.get Reg.PERF_RING_WR.WR) ∨ recordAddr s (s.get Reg.PERF_RING_WR.WR) + 8768 ≤ x →
              t.ddr x 1 = s.ddr x 1) ∧
            t.get Reg.PERF_RING_WR.WR = (s.get Reg.PERF_RING_WR.WR + 1) % max 1 (s.get Reg.PERF_RING_BASE.COUNT) % 65536 ∧
            t.get Reg.PERF_STATUS.LAST_SEQ = s.perf.seq % 2 ^ 48 ∧ t.perf.seq = s.perf.seq + 1 ∧ t.perf.fromNs = T ∧
            t.perf.windowNs = T ∧ t.perf.base = s.perf.totals ∧
            onlyRegs a { t with perf := s.perf, mem := s.mem } [Reg.PERF_RING_WR.WR, Reg.PERF_STATUS.LAST_SEQ]) ∧
        (ringFull s = true → completes (.perfSnapshot dt) s fun t =>
          t.get Reg.PERF_STATUS.MISSED = min (s.get Reg.PERF_STATUS.MISSED + 1) 65535 ∧ t.perf.missed = s.perf.missed + 1 ∧
            t.perf.base = s.perf.base ∧ t.perf.windowNs = s.perf.windowNs ∧ t.perf.seq = s.perf.seq ∧ t.perf.fromNs = T ∧
            onlyRegs a { t with perf := s.perf } [Reg.PERF_STATUS.MISSED])) ∧
      (T + 64 ≤ a.time.ns ∨ T = s.perf.fromNs → completes (.perfSnapshot dt) s fun t => t = a)) ∧
    (s.perf.period = none → completes (.perfSnapshot dt) s fun t => t = a)) ∧
  (∀ (s a b : State) (dt e : Nat) (n : Fin 2) (v : Word) (o : Byte) (fe pe nack : Bool) (d : BitVec 32) (rest : List Nat),
    a = s.advance dt → b = uartDrain a n →
    ((uartTx b n).length < 64 → completes (.uartTxPush dt n v) s fun t =>
      uartTx t n = uartTx b n ++ [BitVec.ofNat 8 v.toNat] ∧ { t with io := b.io, bus := b.bus } = b) ∧
    (64 ≤ (uartTx b n).length → completes (.uartTxPush dt n v) s fun t =>
      t.flag (Reg.IO_UART_CFG.TX_OVF n) = true ∧ onlyRegsAnswered b t [Reg.IO_UART_CFG.TX_OVF n]) ∧
    (s.flag (Reg.IO_UART_CFG.EN n) = true →
      ((uartRx s n).length < 64 → completes (.uartRxOctet dt n o fe pe) s fun t =>
        uartRx t n = uartRx s n ++ [o.toNat + 256 * b2n pe + 512 * b2n fe] ∧ { t with io := s.io } = a) ∧
      (64 ≤ (uartRx s n).length → completes (.uartRxOctet dt n o fe pe) s fun t =>
        t.flag (Reg.IO_UART_CFG.RX_OVF n) = true ∧ onlyRegs a t [Reg.IO_UART_CFG.RX_OVF n])) ∧
    (uartRx s n = e :: rest → e < 1024 → completes (.uartRxPop dt n) s fun t => uartRx t n = rest ∧ bit t.bus.data 63 = true ∧
      bits t.bus.data 7 0 = e % 256 ∧ bit t.bus.data 62 = bit e 9 ∧ bit t.bus.data 61 = bit e 8 ∧
      onlyRegsAnswered a { t with io := s.io } []) ∧
    (uartRx s n = [] → completes (.uartRxPop dt n) s fun t => t.bus.data = 0 ∧ onlyRegsAnswered a t []) ∧
    (v.getLsbD 63 = true →
      (s.flag (Reg.IO_I2C_STATUS.BUSY n) = false → completes (.i2cGo dt n v) s fun t =>
        t.flag (Reg.IO_I2C_STATUS.BUSY n) = true ∧
        (if n = 0 then t.io.i2c0 else t.io.i2c1) = some (v.getLsbD 62, nBytes v.toNat) ∧
        t.outs = s.outs ++ [.i2c n (bits v.toNat 54 48) (v.getLsbD 62) (v.getLsbD 61)
          (if v.getLsbD 62 then [] else leBytes (nBytes v.toNat) v.toNat)] ∧
        onlyRegsAnswered a { t with io := s.io, outs := s.outs } [Reg.IO_I2C_STATUS.BUSY n]) ∧
      (s.flag (Reg.IO_SPI_STATUS.BUSY n) = false → completes (.spiGo dt n v) s fun t =>
        t.flag (Reg.IO_SPI_STATUS.BUSY n) = true ∧ (if n = 0 then t.io.spi0 else t.io.spi1) = some (nBytes v.toNat) ∧
        t.outs = s.outs ++ [.spi n (bits v.toNat 62 61) (bits v.toNat 55 48) (leBytes (nBytes v.toNat) v.toNat)] ∧
        onlyRegsAnswered a { t with io := s.io, outs := s.outs } [Reg.IO_SPI_STATUS.BUSY n])) ∧
    (s.flag (Reg.IO_I2C_STATUS.BUSY n) = true →
      completes (.i2cGo dt n v) s (fun t => onlyRegsAnswered a t []) ∧
      completes (.i2cDone dt n nack d) s (fun t => t.flag (Reg.IO_I2C_STATUS.BUSY n) = false ∧
        t.flag (Reg.IO_I2C_STATUS.DONE n) = true ∧ t.flag (Reg.IO_I2C_STATUS.NACK n) = nack ∧
        (∀ k, (if n = 0 then s.io.i2c0 else s.io.i2c1) = some (true, k) → nack = false →
          t.get (Reg.IO_I2C_STATUS.DATA n) = d.toNat % 256 ^ k) ∧
        onlyRegs a { t with io := s.io } [Reg.IO_I2C_STATUS.BUSY n, Reg.IO_I2C_STATUS.DONE n, Reg.IO_I2C_STATUS.NACK n,
          Reg.IO_I2C_STATUS.DATA n])) ∧
    (s.flag (Reg.IO_SPI_STATUS.BUSY n) = true →
      completes (.spiGo dt n v) s (fun t => onlyRegsAnswered a t []) ∧
      completes (.spiDone dt n d) s (fun t => t.flag (Reg.IO_SPI_STATUS.BUSY n) = false ∧
        t.flag (Reg.IO_SPI_STATUS.DONE n) = true ∧
        (∀ k, (if n = 0 then s.io.spi0 else s.io.spi1) = some k → t.get (Reg.IO_SPI_STATUS.DATA n) = d.toNat % 256 ^ k) ∧
        onlyRegs a { t with io := s.io } [Reg.IO_SPI_STATUS.BUSY n, Reg.IO_SPI_STATUS.DONE n, Reg.IO_SPI_STATUS.DATA n])))
end

