-- ==== Sys2Proof/Laws/Cells.lean ====
section
/-! SUPPORT. The laws of addressed storage: what a read gives after a write, and that a write keeps the canonical form. -/

namespace Sys2Proof.Machine

variable {α : Type}

theorem Cells.get_erase_self (m : List (Nat × α)) (k : Nat) (d : α) : Cells.get (Cells.erase m k) k d = d := by
  induction m with
  | nil => rfl
  | cons e m ih =>
    obtain ⟨a, v⟩ := e
    by_cases h : a = k
    · simp [Cells.erase, h, ih]
    · simp [Cells.erase, h, Cells.get, ih]

theorem Cells.get_erase_other (m : List (Nat × α)) {k j : Nat} (d : α) (hj : j ≠ k) :
    Cells.get (Cells.erase m k) j d = Cells.get m j d := by
  induction m with
  | nil => rfl
  | cons e m ih =>
    obtain ⟨a, v⟩ := e
    by_cases h : a = k
    · have : a ≠ j := fun c => hj (c ▸ h)
      simp [Cells.erase, h, Cells.get, ih, Ne.symm hj]
    · simp [Cells.erase, h, Cells.get, ih]

theorem Cells.get_insert_self (m : List (Nat × α)) (k : Nat) (v d : α) : Cells.get (Cells.insert m k v) k d = v := by
  induction m with
  | nil => simp [Cells.insert, Cells.get]
  | cons e m ih =>
    obtain ⟨a, w⟩ := e
    by_cases h1 : k < a
    · simp [Cells.insert, h1, Cells.get]
    · by_cases h2 : k = a
      · simp [Cells.insert, h2, Cells.get]
      · have : a ≠ k := fun c => h2 c.symm
        simp [Cells.insert, h1, h2, Cells.get, this, ih]

theorem Cells.get_insert_other (m : List (Nat × α)) {k j : Nat} (v d : α) (hj : j ≠ k) :
    Cells.get (Cells.insert m k v) j d = Cells.get m j d := by
  induction m with
  | nil => simp [Cells.insert, Cells.get, Ne.symm hj]
  | cons e m ih =>
    obtain ⟨a, w⟩ := e
    by_cases h1 : k < a
    · simp [Cells.insert, h1, Cells.get, Ne.symm hj]
    · by_cases h2 : k = a
      · subst h2
        simp [Cells.insert, Cells.get, Ne.symm hj]
      · simp [Cells.insert, h1, h2, Cells.get, ih]

/-- A read after a write to the same address gives what was written. -/
@[simp] theorem Cells.get_set_self [DecidableEq α] (m : List (Nat × α)) (k : Nat) (v d : α) :
    Cells.get (Cells.set m k v d) k d = v := by
  by_cases h : v = d
  · subst h
    simp [Cells.set, Cells.get_erase_self]
  · simp [Cells.set, h, Cells.get_insert_self]

/-- A write leaves every other address as it was. -/
theorem Cells.get_set_other [DecidableEq α] (m : List (Nat × α)) {k j : Nat} (v d e : α) (hj : j ≠ k) :
    Cells.get (Cells.set m k v d) j e = Cells.get m j e := by
  by_cases h : v = d
  · simp [Cells.set, h, Cells.get_erase_other m e hj]
  · simp [Cells.set, h, Cells.get_insert_other m v e hj]

/-- Every address of the list lies above `b`. -/
def Cells.above (b : Nat) (m : List (Nat × α)) : Bool := m.all fun e => decide (b < e.1)

theorem Cells.rising_cons (a : Nat) (v : α) (m : List (Nat × α)) :
    Cells.rising ((a, v) :: m) = (Cells.above a m && Cells.rising m) := by
  induction m generalizing a v with
  | nil => rfl
  | cons e m ih =>
    obtain ⟨b, w⟩ := e
    simp only [Cells.rising]
    by_cases h : a < b
    · simp only [h, decide_true, Bool.true_and, Cells.above, List.all_cons]
      rw [ih]
      by_cases hb : Cells.above b m
      · have : (m.all fun e => decide (a < e.1)) = true := by
          simp only [Cells.above, List.all_eq_true, decide_eq_true_eq] at hb ⊢
          exact fun x hx => Nat.lt_trans h (hb x hx)
        simp [hb, this]
      · simp [hb]
    · simp [h, Cells.above]

theorem Cells.above_erase (b k : Nat) (m : List (Nat × α)) (h : Cells.above b m = true) :
    Cells.above b (Cells.erase m k) = true := by
  induction m with
  | nil => rfl
  | cons e m ih =>
    obtain ⟨a, v⟩ := e
    simp only [Cells.above, List.all_cons, Bool.and_eq_true, decide_eq_true_eq] at h ih ⊢
    by_cases hk : a = k
    · simpa [Cells.erase, hk] using ih h.2
    · simpa [Cells.erase, hk] using ⟨h.1, by simpa using ih h.2⟩

theorem Cells.above_insert (b k : Nat) (v : α) (m : List (Nat × α)) (h : Cells.above b m = true) (hk : b < k) :
    Cells.above b (Cells.insert m k v) = true := by
  induction m with
  | nil => simp [Cells.insert, Cells.above, hk]
  | cons e m ih =>
    obtain ⟨a, w⟩ := e
    simp only [Cells.above, List.all_cons, Bool.and_eq_true, decide_eq_true_eq] at h ih ⊢
    by_cases h1 : k < a
    · simpa [Cells.insert, h1, hk] using h
    · by_cases h2 : k = a
      · subst h2
        simpa [Cells.insert] using h
      · simpa [Cells.insert, h1, h2] using ⟨h.1, by simpa using ih h.2⟩

theorem Cells.rising_erase (k : Nat) (m : List (Nat × α)) (h : Cells.rising m = true) :
    Cells.rising (Cells.erase m k) = true := by
  induction m with
  | nil => rfl
  | cons e m ih =>
    obtain ⟨a, v⟩ := e
    rw [Cells.rising_cons, Bool.and_eq_true] at h
    by_cases hk : a = k
    · simpa [Cells.erase, hk] using ih h.2
    · simp only [Cells.erase, hk, if_false]
      rw [Cells.rising_cons, Cells.above_erase a k m h.1, ih h.2]
      rfl

theorem Cells.rising_insert (k : Nat) (v : α) (m : List (Nat × α)) (h : Cells.rising m = true) :
    Cells.rising (Cells.insert m k v) = true := by
  induction m with
  | nil => rfl
  | cons e m ih =>
    obtain ⟨a, w⟩ := e
    have hr := h
    rw [Cells.rising_cons, Bool.and_eq_true] at h
    by_cases h1 : k < a
    · simp [Cells.insert, h1, Cells.rising, hr]
    · by_cases h2 : k = a
      · subst h2
        simp only [Cells.insert, lt_irrefl, if_false, if_true]
        rw [Cells.rising_cons, h.1, h.2]
        rfl
      · simp only [Cells.insert, h1, h2, if_false]
        rw [Cells.rising_cons, Cells.above_insert a k v m h.1 (by omega), ih h.2]
        rfl

theorem Cells.all_erase (p : Nat × α → Bool) (k : Nat) (m : List (Nat × α)) (h : m.all p = true) :
    (Cells.erase m k).all p = true := by
  induction m with
  | nil => rfl
  | cons e m ih =>
    obtain ⟨a, v⟩ := e
    simp only [List.all_cons, Bool.and_eq_true] at h
    by_cases hk : a = k
    · simpa [Cells.erase, hk] using ih h.2
    · simp [Cells.erase, hk, h.1, ih h.2]

theorem Cells.all_insert (p : Nat × α → Bool) (k : Nat) (v : α) (m : List (Nat × α)) (h : m.all p = true)
    (hk : p (k, v) = true) : (Cells.insert m k v).all p = true := by
  induction m with
  | nil => simp [Cells.insert, hk]
  | cons e m ih =>
    obtain ⟨a, w⟩ := e
    simp only [List.all_cons, Bool.and_eq_true] at h
    by_cases h1 : k < a
    · simp [Cells.insert, h1, hk, h.1, h.2]
    · by_cases h2 : k = a
      · simp [Cells.insert, ← h2, hk, h.2]
      · simp [Cells.insert, h1, h2, h.1, ih h.2]

/-- A write keeps the canonical form. -/
theorem Cells.wf_set [DecidableEq α] (m : List (Nat × α)) (k : Nat) (v d : α) (h : Cells.wf m d = true) :
    Cells.wf (Cells.set m k v d) d = true := by
  simp only [Cells.wf, Bool.and_eq_true] at h ⊢
  by_cases hv : v = d
  · simp only [Cells.set, hv, if_true]
    exact ⟨Cells.rising_erase k m h.1, Cells.all_erase _ k m h.2⟩
  · simp only [Cells.set, hv, if_false]
    exact ⟨Cells.rising_insert k v m h.1, Cells.all_insert _ k v m h.2 (by simpa using hv)⟩

/-- Dropping entries keeps the canonical form. -/
theorem Cells.wf_filter [DecidableEq α] (m : List (Nat × α)) (d : α) (p : Nat × α → Bool) (h : Cells.wf m d = true) :
    Cells.wf (m.filter p) d = true := by
  have rise : ∀ l : List (Nat × α), Cells.rising l = true → Cells.rising (l.filter p) = true := by
    intro l
    induction l with
    | nil => exact fun h => h
    | cons e l ih =>
      obtain ⟨a, v⟩ := e
      intro h
      rw [Cells.rising_cons, Bool.and_eq_true] at h
      by_cases hp : p (a, v) = true
      · rw [List.filter_cons_of_pos hp, Cells.rising_cons, ih h.2, Bool.and_true]
        simp only [Cells.above, List.all_eq_true, decide_eq_true_eq] at h ⊢
        exact fun x hx => h.1 x (List.mem_of_mem_filter hx)
      · rw [List.filter_cons_of_neg hp]
        exact ih h.2
  simp only [Cells.wf, Bool.and_eq_true] at h ⊢
  refine ⟨rise m h.1, ?_⟩
  simp only [List.all_eq_true] at h ⊢
  exact fun x hx => h.2 x (List.mem_of_mem_filter hx)

/-- The addresses rise strictly: each entry's lies below those after it. -/
theorem Cells.rising_iff (m : List (Nat × α)) : Cells.rising m = true ↔ m.Pairwise fun x y => x.1 < y.1 := by
  induction m with
  | nil => simp [Cells.rising]
  | cons e m ih =>
    cases m with
    | nil => simp [Cells.rising]
    | cons f m =>
      obtain ⟨a, v⟩ := e
      obtain ⟨b, w⟩ := f
      simp only [Cells.rising, Bool.and_eq_true, decide_eq_true_eq, ih, List.pairwise_cons (l := (b, w) :: m)]
      constructor
      · rintro ⟨h, k⟩
        refine ⟨fun x hx => ?_, k⟩
        rcases List.mem_cons.1 hx with rfl | hx
        · exact h
        · exact Nat.lt_trans h ((List.pairwise_cons.1 k).1 x hx)
      · rintro ⟨h, k⟩
        exact ⟨h _ (List.mem_cons_self ..), k⟩

theorem Cells.wf_replace [DecidableEq α] (m : List (Nat × α)) (k : Nat) (vs : List α) (d : α) (h : Cells.wf m d = true) :
    Cells.wf (Cells.replace m k vs d) d = true := by
  simp only [Cells.wf, Bool.and_eq_true, Cells.rising_iff, List.all_eq_true, decide_eq_true_eq] at h ⊢
  obtain ⟨hr, ha⟩ := h
  have hz : ∀ (vs : List α) (k : Nat), (vs.zipIdx k).Pairwise fun x y => x.2 < y.2 := by
    intro vs
    induction vs with
    | nil => simp
    | cons v vs ih =>
      intro k
      rw [List.zipIdx_cons, List.pairwise_cons]
      exact ⟨fun x hx => Nat.lt_of_lt_of_le (Nat.lt_succ_self k) (List.le_snd_of_mem_zipIdx hx), ih (k + 1)⟩
  constructor
  · simp only [Cells.replace, List.pairwise_append, List.pairwise_map, List.mem_append, List.mem_map, List.mem_filter,
      decide_eq_true_eq]
    refine ⟨⟨hr.filter _, (hz vs k).filter _, ?_⟩, hr.filter _, ?_⟩
    · rintro x ⟨-, hx⟩ y ⟨z, ⟨hz, -⟩, rfl⟩
      exact Nat.lt_of_lt_of_le hx (List.le_snd_of_mem_zipIdx hz)
    · rintro x (⟨-, hx⟩ | ⟨z, ⟨hz, -⟩, rfl⟩) y ⟨-, hy⟩
      · exact Nat.lt_of_lt_of_le (Nat.lt_of_lt_of_le hx (Nat.le_add_right _ _)) hy
      · have := List.snd_lt_add_of_mem_zipIdx hz
        exact Nat.lt_of_lt_of_le (by omega) hy
  · intro x hx
    simp only [Cells.replace, List.mem_append, List.mem_map, List.mem_filter, decide_eq_true_eq] at hx
    rcases hx with (⟨hx, -⟩ | ⟨z, ⟨-, hz⟩, rfl⟩) | ⟨hx, -⟩
    · exact ha x hx
    · exact hz
    · exact ha x hx

end Sys2Proof.Machine
end

