-- ==== Sys2Proof/Laws/State.lean ====
section
/-! SUPPORT. What each named update of State leaves as it was, field by field, and what a register field holds after one. -/

namespace Sys2Proof.Machine

@[simp] theorem State.set_frame (s : State) (f : Fld) (v : Nat) :
    (s.set f v).tick = s.tick ∧ (s.set f v).freeCtr = s.freeCtr ∧ (s.set f v).bus = s.bus ∧
    (s.set f v).outs = s.outs ∧ (s.set f v).cycle = s.cycle ∧ (s.set f v).counters = s.counters ∧
    (s.set f v).cycleCounters = s.cycleCounters ∧ (s.set f v).events = s.events ∧ (s.set f v).mem = s.mem ∧
    (s.set f v).time = s.time ∧ (s.set f v).fe0 = s.fe0 ∧ (s.set f v).fe1 = s.fe1 ∧ (s.set f v).fe2 = s.fe2 ∧
    (s.set f v).hear = s.hear ∧ (s.set f v).ox = s.ox ∧ (s.set f v).up = s.up ∧ (s.set f v).nextFrame = s.nextFrame ∧
    (s.set f v).tables = s.tables ∧ (s.set f v).crypto = s.crypto ∧ (s.set f v).down = s.down ∧ (s.set f v).q = s.q ∧
    (s.set f v).sched = s.sched ∧ (s.set f v).mac = s.mac ∧ (s.set f v).safe = s.safe ∧ (s.set f v).nv = s.nv ∧
    (s.set f v).lease = s.lease ∧ (s.set f v).sau = s.sau ∧ (s.set f v).loaded = s.loaded ∧
    (s.set f v).wire = s.wire ∧ (s.set f v).perf = s.perf ∧ (s.set f v).health = s.health ∧ (s.set f v).icu = s.icu ∧
    (s.set f v).keys = s.keys ∧ (s.set f v).aon = s.aon ∧ (s.set f v).nfc = s.nfc ∧ (s.set f v).fwm = s.fwm ∧
    (s.set f v).upd = s.upd ∧ (s.set f v).flock = s.flock ∧ (s.set f v).io = s.io ∧ (s.set f v).start = s.start ∧
    (s.set f v).pending = s.pending :=
  ⟨rfl, rfl, rfl, rfl, rfl, rfl, rfl, rfl, rfl, rfl, rfl, rfl, rfl, rfl, rfl, rfl, rfl, rfl, rfl, rfl, rfl, rfl, rfl, rfl, rfl, rfl, rfl, rfl, rfl, rfl, rfl, rfl, rfl, rfl, rfl, rfl, rfl, rfl, rfl, rfl, rfl⟩

@[simp] theorem State.setFlag_frame (s : State) (f : Fld) (b : Bool) :
    (s.setFlag f b).tick = s.tick ∧ (s.setFlag f b).freeCtr = s.freeCtr ∧ (s.setFlag f b).bus = s.bus ∧
    (s.setFlag f b).outs = s.outs ∧ (s.setFlag f b).cycle = s.cycle ∧ (s.setFlag f b).counters = s.counters ∧
    (s.setFlag f b).cycleCounters = s.cycleCounters ∧ (s.setFlag f b).events = s.events ∧
    (s.setFlag f b).mem = s.mem ∧ (s.setFlag f b).time = s.time ∧ (s.setFlag f b).fe0 = s.fe0 ∧
    (s.setFlag f b).fe1 = s.fe1 ∧ (s.setFlag f b).fe2 = s.fe2 ∧ (s.setFlag f b).hear = s.hear ∧
    (s.setFlag f b).ox = s.ox ∧ (s.setFlag f b).up = s.up ∧ (s.setFlag f b).nextFrame = s.nextFrame ∧
    (s.setFlag f b).tables = s.tables ∧ (s.setFlag f b).crypto = s.crypto ∧ (s.setFlag f b).down = s.down ∧
    (s.setFlag f b).q = s.q ∧ (s.setFlag f b).sched = s.sched ∧ (s.setFlag f b).mac = s.mac ∧
    (s.setFlag f b).safe = s.safe ∧ (s.setFlag f b).nv = s.nv ∧ (s.setFlag f b).lease = s.lease ∧
    (s.setFlag f b).sau = s.sau ∧ (s.setFlag f b).loaded = s.loaded ∧ (s.setFlag f b).wire = s.wire ∧
    (s.setFlag f b).perf = s.perf ∧ (s.setFlag f b).health = s.health ∧ (s.setFlag f b).icu = s.icu ∧
    (s.setFlag f b).keys = s.keys ∧ (s.setFlag f b).aon = s.aon ∧ (s.setFlag f b).nfc = s.nfc ∧
    (s.setFlag f b).fwm = s.fwm ∧ (s.setFlag f b).upd = s.upd ∧ (s.setFlag f b).flock = s.flock ∧
    (s.setFlag f b).io = s.io ∧ (s.setFlag f b).start = s.start ∧ (s.setFlag f b).pending = s.pending :=
  ⟨rfl, rfl, rfl, rfl, rfl, rfl, rfl, rfl, rfl, rfl, rfl, rfl, rfl, rfl, rfl, rfl, rfl, rfl, rfl, rfl, rfl, rfl, rfl, rfl, rfl, rfl, rfl, rfl, rfl, rfl, rfl, rfl, rfl, rfl, rfl, rfl, rfl, rfl, rfl, rfl, rfl⟩

@[simp] theorem State.bump_frame (s : State) (f : Fld) (n : Nat) :
    (s.bump f n).tick = s.tick ∧ (s.bump f n).freeCtr = s.freeCtr ∧ (s.bump f n).bus = s.bus ∧
    (s.bump f n).outs = s.outs ∧ (s.bump f n).cycle = s.cycle ∧ (s.bump f n).counters = s.counters ∧
    (s.bump f n).cycleCounters = s.cycleCounters ∧ (s.bump f n).events = s.events ∧ (s.bump f n).mem = s.mem ∧
    (s.bump f n).time = s.time ∧ (s.bump f n).fe0 = s.fe0 ∧ (s.bump f n).fe1 = s.fe1 ∧ (s.bump f n).fe2 = s.fe2 ∧
    (s.bump f n).hear = s.hear ∧ (s.bump f n).ox = s.ox ∧ (s.bump f n).up = s.up ∧
    (s.bump f n).nextFrame = s.nextFrame ∧ (s.bump f n).tables = s.tables ∧ (s.bump f n).crypto = s.crypto ∧
    (s.bump f n).down = s.down ∧ (s.bump f n).q = s.q ∧ (s.bump f n).sched = s.sched ∧ (s.bump f n).mac = s.mac ∧
    (s.bump f n).safe = s.safe ∧ (s.bump f n).nv = s.nv ∧ (s.bump f n).lease = s.lease ∧ (s.bump f n).sau = s.sau ∧
    (s.bump f n).loaded = s.loaded ∧ (s.bump f n).wire = s.wire ∧ (s.bump f n).perf = s.perf ∧
    (s.bump f n).health = s.health ∧ (s.bump f n).icu = s.icu ∧ (s.bump f n).keys = s.keys ∧
    (s.bump f n).aon = s.aon ∧ (s.bump f n).nfc = s.nfc ∧ (s.bump f n).fwm = s.fwm ∧ (s.bump f n).upd = s.upd ∧
    (s.bump f n).flock = s.flock ∧ (s.bump f n).io = s.io ∧ (s.bump f n).start = s.start ∧
    (s.bump f n).pending = s.pending :=
  ⟨rfl, rfl, rfl, rfl, rfl, rfl, rfl, rfl, rfl, rfl, rfl, rfl, rfl, rfl, rfl, rfl, rfl, rfl, rfl, rfl, rfl, rfl, rfl, rfl, rfl, rfl, rfl, rfl, rfl, rfl, rfl, rfl, rfl, rfl, rfl, rfl, rfl, rfl, rfl, rfl, rfl⟩

@[simp] theorem State.setBit_frame (s : State) (f : Fld) (n : Nat) :
    (s.setBit f n).tick = s.tick ∧ (s.setBit f n).freeCtr = s.freeCtr ∧ (s.setBit f n).bus = s.bus ∧
    (s.setBit f n).outs = s.outs ∧ (s.setBit f n).cycle = s.cycle ∧ (s.setBit f n).counters = s.counters ∧
    (s.setBit f n).cycleCounters = s.cycleCounters ∧ (s.setBit f n).events = s.events ∧ (s.setBit f n).mem = s.mem ∧
    (s.setBit f n).time = s.time ∧ (s.setBit f n).fe0 = s.fe0 ∧ (s.setBit f n).fe1 = s.fe1 ∧
    (s.setBit f n).fe2 = s.fe2 ∧ (s.setBit f n).hear = s.hear ∧ (s.setBit f n).ox = s.ox ∧ (s.setBit f n).up = s.up ∧
    (s.setBit f n).nextFrame = s.nextFrame ∧ (s.setBit f n).tables = s.tables ∧ (s.setBit f n).crypto = s.crypto ∧
    (s.setBit f n).down = s.down ∧ (s.setBit f n).q = s.q ∧ (s.setBit f n).sched = s.sched ∧
    (s.setBit f n).mac = s.mac ∧ (s.setBit f n).safe = s.safe ∧ (s.setBit f n).nv = s.nv ∧
    (s.setBit f n).lease = s.lease ∧ (s.setBit f n).sau = s.sau ∧ (s.setBit f n).loaded = s.loaded ∧
    (s.setBit f n).wire = s.wire ∧ (s.setBit f n).perf = s.perf ∧ (s.setBit f n).health = s.health ∧
    (s.setBit f n).icu = s.icu ∧ (s.setBit f n).keys = s.keys ∧ (s.setBit f n).aon = s.aon ∧
    (s.setBit f n).nfc = s.nfc ∧ (s.setBit f n).fwm = s.fwm ∧ (s.setBit f n).upd = s.upd ∧
    (s.setBit f n).flock = s.flock ∧ (s.setBit f n).io = s.io ∧ (s.setBit f n).start = s.start ∧
    (s.setBit f n).pending = s.pending :=
  ⟨rfl, rfl, rfl, rfl, rfl, rfl, rfl, rfl, rfl, rfl, rfl, rfl, rfl, rfl, rfl, rfl, rfl, rfl, rfl, rfl, rfl, rfl, rfl, rfl, rfl, rfl, rfl, rfl, rfl, rfl, rfl, rfl, rfl, rfl, rfl, rfl, rfl, rfl, rfl, rfl, rfl⟩

@[simp] theorem State.clearBit_frame (s : State) (f : Fld) (n : Nat) :
    (s.clearBit f n).tick = s.tick ∧ (s.clearBit f n).freeCtr = s.freeCtr ∧ (s.clearBit f n).bus = s.bus ∧
    (s.clearBit f n).outs = s.outs ∧ (s.clearBit f n).cycle = s.cycle ∧ (s.clearBit f n).counters = s.counters ∧
    (s.clearBit f n).cycleCounters = s.cycleCounters ∧ (s.clearBit f n).events = s.events ∧
    (s.clearBit f n).mem = s.mem ∧ (s.clearBit f n).time = s.time ∧ (s.clearBit f n).fe0 = s.fe0 ∧
    (s.clearBit f n).fe1 = s.fe1 ∧ (s.clearBit f n).fe2 = s.fe2 ∧ (s.clearBit f n).hear = s.hear ∧
    (s.clearBit f n).ox = s.ox ∧ (s.clearBit f n).up = s.up ∧ (s.clearBit f n).nextFrame = s.nextFrame ∧
    (s.clearBit f n).tables = s.tables ∧ (s.clearBit f n).crypto = s.crypto ∧ (s.clearBit f n).down = s.down ∧
    (s.clearBit f n).q = s.q ∧ (s.clearBit f n).sched = s.sched ∧ (s.clearBit f n).mac = s.mac ∧
    (s.clearBit f n).safe = s.safe ∧ (s.clearBit f n).nv = s.nv ∧ (s.clearBit f n).lease = s.lease ∧
    (s.clearBit f n).sau = s.sau ∧ (s.clearBit f n).loaded = s.loaded ∧ (s.clearBit f n).wire = s.wire ∧
    (s.clearBit f n).perf = s.perf ∧ (s.clearBit f n).health = s.health ∧ (s.clearBit f n).icu = s.icu ∧
    (s.clearBit f n).keys = s.keys ∧ (s.clearBit f n).aon = s.aon ∧ (s.clearBit f n).nfc = s.nfc ∧
    (s.clearBit f n).fwm = s.fwm ∧ (s.clearBit f n).upd = s.upd ∧ (s.clearBit f n).flock = s.flock ∧
    (s.clearBit f n).io = s.io ∧ (s.clearBit f n).start = s.start ∧ (s.clearBit f n).pending = s.pending :=
  ⟨rfl, rfl, rfl, rfl, rfl, rfl, rfl, rfl, rfl, rfl, rfl, rfl, rfl, rfl, rfl, rfl, rfl, rfl, rfl, rfl, rfl, rfl, rfl, rfl, rfl, rfl, rfl, rfl, rfl, rfl, rfl, rfl, rfl, rfl, rfl, rfl, rfl, rfl, rfl, rfl, rfl⟩

@[simp] theorem State.drawn_frame (s : State) :
    (s.drawn).tick = s.tick ∧ (s.drawn).bus = s.bus ∧ (s.drawn).outs = s.outs ∧ (s.drawn).fields = s.fields ∧
    (s.drawn).cycle = s.cycle ∧ (s.drawn).counters = s.counters ∧ (s.drawn).cycleCounters = s.cycleCounters ∧
    (s.drawn).events = s.events ∧ (s.drawn).mem = s.mem ∧ (s.drawn).time = s.time ∧ (s.drawn).fe0 = s.fe0 ∧
    (s.drawn).fe1 = s.fe1 ∧ (s.drawn).fe2 = s.fe2 ∧ (s.drawn).hear = s.hear ∧ (s.drawn).ox = s.ox ∧
    (s.drawn).up = s.up ∧ (s.drawn).nextFrame = s.nextFrame ∧ (s.drawn).tables = s.tables ∧
    (s.drawn).crypto = s.crypto ∧ (s.drawn).down = s.down ∧ (s.drawn).q = s.q ∧ (s.drawn).sched = s.sched ∧
    (s.drawn).mac = s.mac ∧ (s.drawn).safe = s.safe ∧ (s.drawn).nv = s.nv ∧ (s.drawn).lease = s.lease ∧
    (s.drawn).sau = s.sau ∧ (s.drawn).loaded = s.loaded ∧ (s.drawn).wire = s.wire ∧ (s.drawn).perf = s.perf ∧
    (s.drawn).health = s.health ∧ (s.drawn).icu = s.icu ∧ (s.drawn).keys = s.keys ∧ (s.drawn).aon = s.aon ∧
    (s.drawn).nfc = s.nfc ∧ (s.drawn).fwm = s.fwm ∧ (s.drawn).upd = s.upd ∧ (s.drawn).flock = s.flock ∧
    (s.drawn).io = s.io ∧ (s.drawn).start = s.start ∧ (s.drawn).pending = s.pending :=
  ⟨rfl, rfl, rfl, rfl, rfl, rfl, rfl, rfl, rfl, rfl, rfl, rfl, rfl, rfl, rfl, rfl, rfl, rfl, rfl, rfl, rfl, rfl, rfl, rfl, rfl, rfl, rfl, rfl, rfl, rfl, rfl, rfl, rfl, rfl, rfl, rfl, rfl, rfl, rfl, rfl, rfl⟩

@[simp] theorem State.count_frame (s : State) (c n : Nat) :
    (s.count c n).tick = s.tick ∧ (s.count c n).freeCtr = s.freeCtr ∧ (s.count c n).bus = s.bus ∧
    (s.count c n).outs = s.outs ∧ (s.count c n).fields = s.fields ∧ (s.count c n).cycle = s.cycle ∧
    (s.count c n).cycleCounters = s.cycleCounters ∧ (s.count c n).events = s.events ∧ (s.count c n).mem = s.mem ∧
    (s.count c n).time = s.time ∧ (s.count c n).fe0 = s.fe0 ∧ (s.count c n).fe1 = s.fe1 ∧ (s.count c n).fe2 = s.fe2 ∧
    (s.count c n).hear = s.hear ∧ (s.count c n).ox = s.ox ∧ (s.count c n).up = s.up ∧
    (s.count c n).nextFrame = s.nextFrame ∧ (s.count c n).tables = s.tables ∧ (s.count c n).crypto = s.crypto ∧
    (s.count c n).down = s.down ∧ (s.count c n).q = s.q ∧ (s.count c n).sched = s.sched ∧ (s.count c n).mac = s.mac ∧
    (s.count c n).safe = s.safe ∧ (s.count c n).nv = s.nv ∧ (s.count c n).lease = s.lease ∧
    (s.count c n).sau = s.sau ∧ (s.count c n).loaded = s.loaded ∧ (s.count c n).wire = s.wire ∧
    (s.count c n).perf = s.perf ∧ (s.count c n).health = s.health ∧ (s.count c n).icu = s.icu ∧
    (s.count c n).keys = s.keys ∧ (s.count c n).aon = s.aon ∧ (s.count c n).nfc = s.nfc ∧ (s.count c n).fwm = s.fwm ∧
    (s.count c n).upd = s.upd ∧ (s.count c n).flock = s.flock ∧ (s.count c n).io = s.io ∧
    (s.count c n).start = s.start ∧ (s.count c n).pending = s.pending := by
  simp [State.count]

@[simp] theorem State.raise_frame (s : State) (n : Nat) :
    (s.raise n).tick = s.tick ∧ (s.raise n).freeCtr = s.freeCtr ∧ (s.raise n).bus = s.bus ∧
    (s.raise n).outs = s.outs ∧ (s.raise n).fields = s.fields ∧ (s.raise n).cycle = s.cycle ∧
    (s.raise n).counters = s.counters ∧ (s.raise n).cycleCounters = s.cycleCounters ∧ (s.raise n).events = s.events ∧
    (s.raise n).mem = s.mem ∧ (s.raise n).time = s.time ∧ (s.raise n).fe0 = s.fe0 ∧ (s.raise n).fe1 = s.fe1 ∧
    (s.raise n).fe2 = s.fe2 ∧ (s.raise n).hear = s.hear ∧ (s.raise n).ox = s.ox ∧ (s.raise n).up = s.up ∧
    (s.raise n).nextFrame = s.nextFrame ∧ (s.raise n).tables = s.tables ∧ (s.raise n).crypto = s.crypto ∧
    (s.raise n).down = s.down ∧ (s.raise n).q = s.q ∧ (s.raise n).sched = s.sched ∧ (s.raise n).mac = s.mac ∧
    (s.raise n).safe = s.safe ∧ (s.raise n).nv = s.nv ∧ (s.raise n).lease = s.lease ∧ (s.raise n).sau = s.sau ∧
    (s.raise n).loaded = s.loaded ∧ (s.raise n).wire = s.wire ∧ (s.raise n).perf = s.perf ∧
    (s.raise n).health = s.health ∧ (s.raise n).keys = s.keys ∧ (s.raise n).aon = s.aon ∧ (s.raise n).nfc = s.nfc ∧
    (s.raise n).fwm = s.fwm ∧ (s.raise n).upd = s.upd ∧ (s.raise n).flock = s.flock ∧ (s.raise n).io = s.io ∧
    (s.raise n).start = s.start ∧ (s.raise n).pending = s.pending :=
  ⟨rfl, rfl, rfl, rfl, rfl, rfl, rfl, rfl, rfl, rfl, rfl, rfl, rfl, rfl, rfl, rfl, rfl, rfl, rfl, rfl, rfl, rfl, rfl, rfl, rfl, rfl, rfl, rfl, rfl, rfl, rfl, rfl, rfl, rfl, rfl, rfl, rfl, rfl, rfl, rfl, rfl⟩

@[simp] theorem State.answer_frame (s : State) (d : Nat) :
    (s.answer d).tick = s.tick ∧ (s.answer d).freeCtr = s.freeCtr ∧ (s.answer d).outs = s.outs ∧
    (s.answer d).fields = s.fields ∧ (s.answer d).cycle = s.cycle ∧ (s.answer d).counters = s.counters ∧
    (s.answer d).cycleCounters = s.cycleCounters ∧ (s.answer d).events = s.events ∧ (s.answer d).mem = s.mem ∧
    (s.answer d).time = s.time ∧ (s.answer d).fe0 = s.fe0 ∧ (s.answer d).fe1 = s.fe1 ∧ (s.answer d).fe2 = s.fe2 ∧
    (s.answer d).hear = s.hear ∧ (s.answer d).ox = s.ox ∧ (s.answer d).up = s.up ∧
    (s.answer d).nextFrame = s.nextFrame ∧ (s.answer d).tables = s.tables ∧ (s.answer d).crypto = s.crypto ∧
    (s.answer d).down = s.down ∧ (s.answer d).q = s.q ∧ (s.answer d).sched = s.sched ∧ (s.answer d).mac = s.mac ∧
    (s.answer d).safe = s.safe ∧ (s.answer d).nv = s.nv ∧ (s.answer d).lease = s.lease ∧ (s.answer d).sau = s.sau ∧
    (s.answer d).loaded = s.loaded ∧ (s.answer d).wire = s.wire ∧ (s.answer d).perf = s.perf ∧
    (s.answer d).health = s.health ∧ (s.answer d).icu = s.icu ∧ (s.answer d).keys = s.keys ∧
    (s.answer d).aon = s.aon ∧ (s.answer d).nfc = s.nfc ∧ (s.answer d).fwm = s.fwm ∧ (s.answer d).upd = s.upd ∧
    (s.answer d).flock = s.flock ∧ (s.answer d).io = s.io ∧ (s.answer d).start = s.start ∧
    (s.answer d).pending = s.pending :=
  ⟨rfl, rfl, rfl, rfl, rfl, rfl, rfl, rfl, rfl, rfl, rfl, rfl, rfl, rfl, rfl, rfl, rfl, rfl, rfl, rfl, rfl, rfl, rfl, rfl, rfl, rfl, rfl, rfl, rfl, rfl, rfl, rfl, rfl, rfl, rfl, rfl, rfl, rfl, rfl, rfl, rfl⟩

@[simp] theorem State.busError_frame (s : State) :
    (s.busError).tick = s.tick ∧ (s.busError).freeCtr = s.freeCtr ∧ (s.busError).outs = s.outs ∧
    (s.busError).fields = s.fields ∧ (s.busError).cycle = s.cycle ∧ (s.busError).counters = s.counters ∧
    (s.busError).cycleCounters = s.cycleCounters ∧ (s.busError).events = s.events ∧ (s.busError).mem = s.mem ∧
    (s.busError).time = s.time ∧ (s.busError).fe0 = s.fe0 ∧ (s.busError).fe1 = s.fe1 ∧ (s.busError).fe2 = s.fe2 ∧
    (s.busError).hear = s.hear ∧ (s.busError).ox = s.ox ∧ (s.busError).up = s.up ∧
    (s.busError).nextFrame = s.nextFrame ∧ (s.busError).tables = s.tables ∧ (s.busError).crypto = s.crypto ∧
    (s.busError).down = s.down ∧ (s.busError).q = s.q ∧ (s.busError).sched = s.sched ∧ (s.busError).mac = s.mac ∧
    (s.busError).safe = s.safe ∧ (s.busError).nv = s.nv ∧ (s.busError).lease = s.lease ∧ (s.busError).sau = s.sau ∧
    (s.busError).loaded = s.loaded ∧ (s.busError).wire = s.wire ∧ (s.busError).perf = s.perf ∧
    (s.busError).health = s.health ∧ (s.busError).icu = s.icu ∧ (s.busError).keys = s.keys ∧
    (s.busError).aon = s.aon ∧ (s.busError).nfc = s.nfc ∧ (s.busError).fwm = s.fwm ∧ (s.busError).upd = s.upd ∧
    (s.busError).flock = s.flock ∧ (s.busError).io = s.io ∧ (s.busError).start = s.start ∧
    (s.busError).pending = s.pending :=
  ⟨rfl, rfl, rfl, rfl, rfl, rfl, rfl, rfl, rfl, rfl, rfl, rfl, rfl, rfl, rfl, rfl, rfl, rfl, rfl, rfl, rfl, rfl, rfl, rfl, rfl, rfl, rfl, rfl, rfl, rfl, rfl, rfl, rfl, rfl, rfl, rfl, rfl, rfl, rfl, rfl, rfl⟩

@[simp] theorem State.ddrWrite_frame (s : State) (a : Nat) (bs : List Byte) :
    (s.ddrWrite a bs).tick = s.tick ∧ (s.ddrWrite a bs).freeCtr = s.freeCtr ∧ (s.ddrWrite a bs).bus = s.bus ∧
    (s.ddrWrite a bs).outs = s.outs ∧ (s.ddrWrite a bs).fields = s.fields ∧ (s.ddrWrite a bs).cycle = s.cycle ∧
    (s.ddrWrite a bs).counters = s.counters ∧ (s.ddrWrite a bs).cycleCounters = s.cycleCounters ∧
    (s.ddrWrite a bs).events = s.events ∧ (s.ddrWrite a bs).time = s.time ∧ (s.ddrWrite a bs).fe0 = s.fe0 ∧
    (s.ddrWrite a bs).fe1 = s.fe1 ∧ (s.ddrWrite a bs).fe2 = s.fe2 ∧ (s.ddrWrite a bs).hear = s.hear ∧
    (s.ddrWrite a bs).ox = s.ox ∧ (s.ddrWrite a bs).up = s.up ∧ (s.ddrWrite a bs).nextFrame = s.nextFrame ∧
    (s.ddrWrite a bs).tables = s.tables ∧ (s.ddrWrite a bs).crypto = s.crypto ∧ (s.ddrWrite a bs).down = s.down ∧
    (s.ddrWrite a bs).q = s.q ∧ (s.ddrWrite a bs).sched = s.sched ∧ (s.ddrWrite a bs).mac = s.mac ∧
    (s.ddrWrite a bs).safe = s.safe ∧ (s.ddrWrite a bs).nv = s.nv ∧ (s.ddrWrite a bs).lease = s.lease ∧
    (s.ddrWrite a bs).sau = s.sau ∧ (s.ddrWrite a bs).loaded = s.loaded ∧ (s.ddrWrite a bs).wire = s.wire ∧
    (s.ddrWrite a bs).perf = s.perf ∧ (s.ddrWrite a bs).health = s.health ∧ (s.ddrWrite a bs).icu = s.icu ∧
    (s.ddrWrite a bs).keys = s.keys ∧ (s.ddrWrite a bs).aon = s.aon ∧ (s.ddrWrite a bs).nfc = s.nfc ∧
    (s.ddrWrite a bs).fwm = s.fwm ∧ (s.ddrWrite a bs).upd = s.upd ∧ (s.ddrWrite a bs).flock = s.flock ∧
    (s.ddrWrite a bs).io = s.io ∧ (s.ddrWrite a bs).start = s.start ∧ (s.ddrWrite a bs).pending = s.pending :=
  ⟨rfl, rfl, rfl, rfl, rfl, rfl, rfl, rfl, rfl, rfl, rfl, rfl, rfl, rfl, rfl, rfl, rfl, rfl, rfl, rfl, rfl, rfl, rfl, rfl, rfl, rfl, rfl, rfl, rfl, rfl, rfl, rfl, rfl, rfl, rfl, rfl, rfl, rfl, rfl, rfl, rfl⟩

@[simp] theorem State.tcmWrite_frame (s : State) (a : Nat) (bs : List Byte) :
    (s.tcmWrite a bs).tick = s.tick ∧ (s.tcmWrite a bs).freeCtr = s.freeCtr ∧ (s.tcmWrite a bs).bus = s.bus ∧
    (s.tcmWrite a bs).outs = s.outs ∧ (s.tcmWrite a bs).fields = s.fields ∧ (s.tcmWrite a bs).cycle = s.cycle ∧
    (s.tcmWrite a bs).counters = s.counters ∧ (s.tcmWrite a bs).cycleCounters = s.cycleCounters ∧
    (s.tcmWrite a bs).events = s.events ∧ (s.tcmWrite a bs).time = s.time ∧ (s.tcmWrite a bs).fe0 = s.fe0 ∧
    (s.tcmWrite a bs).fe1 = s.fe1 ∧ (s.tcmWrite a bs).fe2 = s.fe2 ∧ (s.tcmWrite a bs).hear = s.hear ∧
    (s.tcmWrite a bs).ox = s.ox ∧ (s.tcmWrite a bs).up = s.up ∧ (s.tcmWrite a bs).nextFrame = s.nextFrame ∧
    (s.tcmWrite a bs).tables = s.tables ∧ (s.tcmWrite a bs).crypto = s.crypto ∧ (s.tcmWrite a bs).down = s.down ∧
    (s.tcmWrite a bs).q = s.q ∧ (s.tcmWrite a bs).sched = s.sched ∧ (s.tcmWrite a bs).mac = s.mac ∧
    (s.tcmWrite a bs).safe = s.safe ∧ (s.tcmWrite a bs).nv = s.nv ∧ (s.tcmWrite a bs).lease = s.lease ∧
    (s.tcmWrite a bs).sau = s.sau ∧ (s.tcmWrite a bs).loaded = s.loaded ∧ (s.tcmWrite a bs).wire = s.wire ∧
    (s.tcmWrite a bs).perf = s.perf ∧ (s.tcmWrite a bs).health = s.health ∧ (s.tcmWrite a bs).icu = s.icu ∧
    (s.tcmWrite a bs).keys = s.keys ∧ (s.tcmWrite a bs).aon = s.aon ∧ (s.tcmWrite a bs).nfc = s.nfc ∧
    (s.tcmWrite a bs).fwm = s.fwm ∧ (s.tcmWrite a bs).upd = s.upd ∧ (s.tcmWrite a bs).flock = s.flock ∧
    (s.tcmWrite a bs).io = s.io ∧ (s.tcmWrite a bs).start = s.start ∧ (s.tcmWrite a bs).pending = s.pending :=
  ⟨rfl, rfl, rfl, rfl, rfl, rfl, rfl, rfl, rfl, rfl, rfl, rfl, rfl, rfl, rfl, rfl, rfl, rfl, rfl, rfl, rfl, rfl, rfl, rfl, rfl, rfl, rfl, rfl, rfl, rfl, rfl, rfl, rfl, rfl, rfl, rfl, rfl, rfl, rfl, rfl, rfl⟩

@[simp] theorem State.flashWrite_frame (s : State) (a : Nat) (bs : List Byte) :
    (s.flashWrite a bs).tick = s.tick ∧ (s.flashWrite a bs).freeCtr = s.freeCtr ∧ (s.flashWrite a bs).bus = s.bus ∧
    (s.flashWrite a bs).outs = s.outs ∧ (s.flashWrite a bs).fields = s.fields ∧ (s.flashWrite a bs).cycle = s.cycle ∧
    (s.flashWrite a bs).counters = s.counters ∧ (s.flashWrite a bs).cycleCounters = s.cycleCounters ∧
    (s.flashWrite a bs).events = s.events ∧ (s.flashWrite a bs).time = s.time ∧ (s.flashWrite a bs).fe0 = s.fe0 ∧
    (s.flashWrite a bs).fe1 = s.fe1 ∧ (s.flashWrite a bs).fe2 = s.fe2 ∧ (s.flashWrite a bs).hear = s.hear ∧
    (s.flashWrite a bs).ox = s.ox ∧ (s.flashWrite a bs).up = s.up ∧ (s.flashWrite a bs).nextFrame = s.nextFrame ∧
    (s.flashWrite a bs).tables = s.tables ∧ (s.flashWrite a bs).crypto = s.crypto ∧
    (s.flashWrite a bs).down = s.down ∧ (s.flashWrite a bs).q = s.q ∧ (s.flashWrite a bs).sched = s.sched ∧
    (s.flashWrite a bs).mac = s.mac ∧ (s.flashWrite a bs).safe = s.safe ∧ (s.flashWrite a bs).nv = s.nv ∧
    (s.flashWrite a bs).lease = s.lease ∧ (s.flashWrite a bs).sau = s.sau ∧ (s.flashWrite a bs).loaded = s.loaded ∧
    (s.flashWrite a bs).wire = s.wire ∧ (s.flashWrite a bs).perf = s.perf ∧ (s.flashWrite a bs).health = s.health ∧
    (s.flashWrite a bs).icu = s.icu ∧ (s.flashWrite a bs).keys = s.keys ∧ (s.flashWrite a bs).aon = s.aon ∧
    (s.flashWrite a bs).nfc = s.nfc ∧ (s.flashWrite a bs).fwm = s.fwm ∧ (s.flashWrite a bs).upd = s.upd ∧
    (s.flashWrite a bs).flock = s.flock ∧ (s.flashWrite a bs).io = s.io ∧ (s.flashWrite a bs).start = s.start ∧
    (s.flashWrite a bs).pending = s.pending :=
  ⟨rfl, rfl, rfl, rfl, rfl, rfl, rfl, rfl, rfl, rfl, rfl, rfl, rfl, rfl, rfl, rfl, rfl, rfl, rfl, rfl, rfl, rfl, rfl, rfl, rfl, rfl, rfl, rfl, rfl, rfl, rfl, rfl, rfl, rfl, rfl, rfl, rfl, rfl, rfl, rfl, rfl⟩

@[simp] theorem State.flashErase_frame (s : State) (a n : Nat) :
    (s.flashErase a n).tick = s.tick ∧ (s.flashErase a n).freeCtr = s.freeCtr ∧ (s.flashErase a n).bus = s.bus ∧
    (s.flashErase a n).outs = s.outs ∧ (s.flashErase a n).fields = s.fields ∧ (s.flashErase a n).cycle = s.cycle ∧
    (s.flashErase a n).counters = s.counters ∧ (s.flashErase a n).cycleCounters = s.cycleCounters ∧
    (s.flashErase a n).events = s.events ∧ (s.flashErase a n).time = s.time ∧ (s.flashErase a n).fe0 = s.fe0 ∧
    (s.flashErase a n).fe1 = s.fe1 ∧ (s.flashErase a n).fe2 = s.fe2 ∧ (s.flashErase a n).hear = s.hear ∧
    (s.flashErase a n).ox = s.ox ∧ (s.flashErase a n).up = s.up ∧ (s.flashErase a n).nextFrame = s.nextFrame ∧
    (s.flashErase a n).tables = s.tables ∧ (s.flashErase a n).crypto = s.crypto ∧ (s.flashErase a n).down = s.down ∧
    (s.flashErase a n).q = s.q ∧ (s.flashErase a n).sched = s.sched ∧ (s.flashErase a n).mac = s.mac ∧
    (s.flashErase a n).safe = s.safe ∧ (s.flashErase a n).nv = s.nv ∧ (s.flashErase a n).lease = s.lease ∧
    (s.flashErase a n).sau = s.sau ∧ (s.flashErase a n).loaded = s.loaded ∧ (s.flashErase a n).wire = s.wire ∧
    (s.flashErase a n).perf = s.perf ∧ (s.flashErase a n).health = s.health ∧ (s.flashErase a n).icu = s.icu ∧
    (s.flashErase a n).keys = s.keys ∧ (s.flashErase a n).aon = s.aon ∧ (s.flashErase a n).nfc = s.nfc ∧
    (s.flashErase a n).fwm = s.fwm ∧ (s.flashErase a n).upd = s.upd ∧ (s.flashErase a n).flock = s.flock ∧
    (s.flashErase a n).io = s.io ∧ (s.flashErase a n).start = s.start ∧ (s.flashErase a n).pending = s.pending :=
  ⟨rfl, rfl, rfl, rfl, rfl, rfl, rfl, rfl, rfl, rfl, rfl, rfl, rfl, rfl, rfl, rfl, rfl, rfl, rfl, rfl, rfl, rfl, rfl, rfl, rfl, rfl, rfl, rfl, rfl, rfl, rfl, rfl, rfl, rfl, rfl, rfl, rfl, rfl, rfl, rfl, rfl⟩

@[simp] theorem State.otpBurn_frame (s : State) (w v : Nat) :
    (s.otpBurn w v).tick = s.tick ∧ (s.otpBurn w v).freeCtr = s.freeCtr ∧ (s.otpBurn w v).bus = s.bus ∧
    (s.otpBurn w v).outs = s.outs ∧ (s.otpBurn w v).fields = s.fields ∧ (s.otpBurn w v).cycle = s.cycle ∧
    (s.otpBurn w v).counters = s.counters ∧ (s.otpBurn w v).cycleCounters = s.cycleCounters ∧
    (s.otpBurn w v).events = s.events ∧ (s.otpBurn w v).time = s.time ∧ (s.otpBurn w v).fe0 = s.fe0 ∧
    (s.otpBurn w v).fe1 = s.fe1 ∧ (s.otpBurn w v).fe2 = s.fe2 ∧ (s.otpBurn w v).hear = s.hear ∧
    (s.otpBurn w v).ox = s.ox ∧ (s.otpBurn w v).up = s.up ∧ (s.otpBurn w v).nextFrame = s.nextFrame ∧
    (s.otpBurn w v).tables = s.tables ∧ (s.otpBurn w v).crypto = s.crypto ∧ (s.otpBurn w v).down = s.down ∧
    (s.otpBurn w v).q = s.q ∧ (s.otpBurn w v).sched = s.sched ∧ (s.otpBurn w v).mac = s.mac ∧
    (s.otpBurn w v).safe = s.safe ∧ (s.otpBurn w v).nv = s.nv ∧ (s.otpBurn w v).lease = s.lease ∧
    (s.otpBurn w v).sau = s.sau ∧ (s.otpBurn w v).loaded = s.loaded ∧ (s.otpBurn w v).wire = s.wire ∧
    (s.otpBurn w v).perf = s.perf ∧ (s.otpBurn w v).health = s.health ∧ (s.otpBurn w v).icu = s.icu ∧
    (s.otpBurn w v).keys = s.keys ∧ (s.otpBurn w v).aon = s.aon ∧ (s.otpBurn w v).nfc = s.nfc ∧
    (s.otpBurn w v).fwm = s.fwm ∧ (s.otpBurn w v).upd = s.upd ∧ (s.otpBurn w v).flock = s.flock ∧
    (s.otpBurn w v).io = s.io ∧ (s.otpBurn w v).start = s.start ∧ (s.otpBurn w v).pending = s.pending :=
  ⟨rfl, rfl, rfl, rfl, rfl, rfl, rfl, rfl, rfl, rfl, rfl, rfl, rfl, rfl, rfl, rfl, rfl, rfl, rfl, rfl, rfl, rfl, rfl, rfl, rfl, rfl, rfl, rfl, rfl, rfl, rfl, rfl, rfl, rfl, rfl, rfl, rfl, rfl, rfl, rfl, rfl⟩

@[simp] theorem State.fwmWrite_frame (s : State) (a : Nat) (bs : List Byte) :
    (s.fwmWrite a bs).tick = s.tick ∧ (s.fwmWrite a bs).freeCtr = s.freeCtr ∧ (s.fwmWrite a bs).bus = s.bus ∧
    (s.fwmWrite a bs).outs = s.outs ∧ (s.fwmWrite a bs).fields = s.fields ∧ (s.fwmWrite a bs).cycle = s.cycle ∧
    (s.fwmWrite a bs).counters = s.counters ∧ (s.fwmWrite a bs).cycleCounters = s.cycleCounters ∧
    (s.fwmWrite a bs).events = s.events ∧ (s.fwmWrite a bs).time = s.time ∧ (s.fwmWrite a bs).fe0 = s.fe0 ∧
    (s.fwmWrite a bs).fe1 = s.fe1 ∧ (s.fwmWrite a bs).fe2 = s.fe2 ∧ (s.fwmWrite a bs).hear = s.hear ∧
    (s.fwmWrite a bs).ox = s.ox ∧ (s.fwmWrite a bs).up = s.up ∧ (s.fwmWrite a bs).nextFrame = s.nextFrame ∧
    (s.fwmWrite a bs).tables = s.tables ∧ (s.fwmWrite a bs).crypto = s.crypto ∧ (s.fwmWrite a bs).down = s.down ∧
    (s.fwmWrite a bs).q = s.q ∧ (s.fwmWrite a bs).sched = s.sched ∧ (s.fwmWrite a bs).mac = s.mac ∧
    (s.fwmWrite a bs).safe = s.safe ∧ (s.fwmWrite a bs).nv = s.nv ∧ (s.fwmWrite a bs).lease = s.lease ∧
    (s.fwmWrite a bs).sau = s.sau ∧ (s.fwmWrite a bs).loaded = s.loaded ∧ (s.fwmWrite a bs).wire = s.wire ∧
    (s.fwmWrite a bs).perf = s.perf ∧ (s.fwmWrite a bs).health = s.health ∧ (s.fwmWrite a bs).icu = s.icu ∧
    (s.fwmWrite a bs).keys = s.keys ∧ (s.fwmWrite a bs).aon = s.aon ∧ (s.fwmWrite a bs).nfc = s.nfc ∧
    (s.fwmWrite a bs).fwm = s.fwm ∧ (s.fwmWrite a bs).upd = s.upd ∧ (s.fwmWrite a bs).flock = s.flock ∧
    (s.fwmWrite a bs).io = s.io ∧ (s.fwmWrite a bs).start = s.start ∧ (s.fwmWrite a bs).pending = s.pending :=
  ⟨rfl, rfl, rfl, rfl, rfl, rfl, rfl, rfl, rfl, rfl, rfl, rfl, rfl, rfl, rfl, rfl, rfl, rfl, rfl, rfl, rfl, rfl, rfl, rfl, rfl, rfl, rfl, rfl, rfl, rfl, rfl, rfl, rfl, rfl, rfl, rfl, rfl, rfl, rfl, rfl, rfl⟩

@[simp] theorem State.advance_frame (s : State) (dt : Nat) :
    (s.advance dt).freeCtr = s.freeCtr ∧ (s.advance dt).bus = s.bus ∧ (s.advance dt).outs = s.outs ∧
    (s.advance dt).fields = s.fields ∧ (s.advance dt).counters = s.counters ∧ (s.advance dt).events = s.events ∧
    (s.advance dt).mem = s.mem ∧ (s.advance dt).fe0 = s.fe0 ∧ (s.advance dt).fe1 = s.fe1 ∧
    (s.advance dt).fe2 = s.fe2 ∧ (s.advance dt).hear = s.hear ∧ (s.advance dt).ox = s.ox ∧ (s.advance dt).up = s.up ∧
    (s.advance dt).nextFrame = s.nextFrame ∧ (s.advance dt).tables = s.tables ∧ (s.advance dt).crypto = s.crypto ∧
    (s.advance dt).down = s.down ∧ (s.advance dt).q = s.q ∧ (s.advance dt).sched = s.sched ∧
    (s.advance dt).mac = s.mac ∧ (s.advance dt).safe = s.safe ∧ (s.advance dt).nv = s.nv ∧
    (s.advance dt).lease = s.lease ∧ (s.advance dt).sau = s.sau ∧ (s.advance dt).loaded = s.loaded ∧
    (s.advance dt).wire = s.wire ∧ (s.advance dt).perf = s.perf ∧ (s.advance dt).health = s.health ∧
    (s.advance dt).icu = s.icu ∧ (s.advance dt).keys = s.keys ∧ (s.advance dt).aon = s.aon ∧
    (s.advance dt).nfc = s.nfc ∧ (s.advance dt).fwm = s.fwm ∧ (s.advance dt).upd = s.upd ∧
    (s.advance dt).flock = s.flock ∧ (s.advance dt).io = s.io ∧ (s.advance dt).start = s.start ∧
    (s.advance dt).pending = s.pending :=
  ⟨rfl, rfl, rfl, rfl, rfl, rfl, rfl, rfl, rfl, rfl, rfl, rfl, rfl, rfl, rfl, rfl, rfl, rfl, rfl, rfl, rfl, rfl, rfl, rfl, rfl, rfl, rfl, rfl, rfl, rfl, rfl, rfl, rfl, rfl, rfl, rfl, rfl, rfl⟩

@[simp] theorem State.ddrReplace_frame (s : State) (a : Nat) (bs : List Byte) :
    (s.ddrReplace a bs).tick = s.tick ∧ (s.ddrReplace a bs).freeCtr = s.freeCtr ∧ (s.ddrReplace a bs).bus = s.bus ∧
    (s.ddrReplace a bs).outs = s.outs ∧ (s.ddrReplace a bs).fields = s.fields ∧ (s.ddrReplace a bs).cycle = s.cycle ∧
    (s.ddrReplace a bs).counters = s.counters ∧ (s.ddrReplace a bs).cycleCounters = s.cycleCounters ∧
    (s.ddrReplace a bs).events = s.events ∧ (s.ddrReplace a bs).time = s.time ∧ (s.ddrReplace a bs).fe0 = s.fe0 ∧
    (s.ddrReplace a bs).fe1 = s.fe1 ∧ (s.ddrReplace a bs).fe2 = s.fe2 ∧ (s.ddrReplace a bs).hear = s.hear ∧
    (s.ddrReplace a bs).ox = s.ox ∧ (s.ddrReplace a bs).up = s.up ∧ (s.ddrReplace a bs).nextFrame = s.nextFrame ∧
    (s.ddrReplace a bs).tables = s.tables ∧ (s.ddrReplace a bs).crypto = s.crypto ∧
    (s.ddrReplace a bs).down = s.down ∧ (s.ddrReplace a bs).q = s.q ∧ (s.ddrReplace a bs).sched = s.sched ∧
    (s.ddrReplace a bs).mac = s.mac ∧ (s.ddrReplace a bs).safe = s.safe ∧ (s.ddrReplace a bs).nv = s.nv ∧
    (s.ddrReplace a bs).lease = s.lease ∧ (s.ddrReplace a bs).sau = s.sau ∧ (s.ddrReplace a bs).loaded = s.loaded ∧
    (s.ddrReplace a bs).wire = s.wire ∧ (s.ddrReplace a bs).perf = s.perf ∧ (s.ddrReplace a bs).health = s.health ∧
    (s.ddrReplace a bs).icu = s.icu ∧ (s.ddrReplace a bs).keys = s.keys ∧ (s.ddrReplace a bs).aon = s.aon ∧
    (s.ddrReplace a bs).nfc = s.nfc ∧ (s.ddrReplace a bs).fwm = s.fwm ∧ (s.ddrReplace a bs).upd = s.upd ∧
    (s.ddrReplace a bs).flock = s.flock ∧ (s.ddrReplace a bs).io = s.io ∧ (s.ddrReplace a bs).start = s.start ∧
    (s.ddrReplace a bs).pending = s.pending :=
  ⟨rfl, rfl, rfl, rfl, rfl, rfl, rfl, rfl, rfl, rfl, rfl, rfl, rfl, rfl, rfl, rfl, rfl, rfl, rfl, rfl, rfl, rfl, rfl, rfl, rfl, rfl, rfl, rfl, rfl, rfl, rfl, rfl, rfl, rfl, rfl, rfl, rfl, rfl, rfl, rfl, rfl⟩

@[simp] theorem State.ddrCorrected_frame (s : State) (n : Nat) :
    (s.ddrCorrected n).tick = s.tick ∧ (s.ddrCorrected n).freeCtr = s.freeCtr ∧ (s.ddrCorrected n).bus = s.bus ∧
    (s.ddrCorrected n).outs = s.outs ∧ (s.ddrCorrected n).cycle = s.cycle ∧
    (s.ddrCorrected n).counters = s.counters ∧ (s.ddrCorrected n).cycleCounters = s.cycleCounters ∧
    (s.ddrCorrected n).events = s.events ∧ (s.ddrCorrected n).mem = s.mem ∧ (s.ddrCorrected n).time = s.time ∧
    (s.ddrCorrected n).fe0 = s.fe0 ∧ (s.ddrCorrected n).fe1 = s.fe1 ∧ (s.ddrCorrected n).fe2 = s.fe2 ∧
    (s.ddrCorrected n).hear = s.hear ∧ (s.ddrCorrected n).ox = s.ox ∧ (s.ddrCorrected n).up = s.up ∧
    (s.ddrCorrected n).nextFrame = s.nextFrame ∧ (s.ddrCorrected n).tables = s.tables ∧
    (s.ddrCorrected n).crypto = s.crypto ∧ (s.ddrCorrected n).down = s.down ∧ (s.ddrCorrected n).q = s.q ∧
    (s.ddrCorrected n).sched = s.sched ∧ (s.ddrCorrected n).mac = s.mac ∧ (s.ddrCorrected n).safe = s.safe ∧
    (s.ddrCorrected n).nv = s.nv ∧ (s.ddrCorrected n).lease = s.lease ∧ (s.ddrCorrected n).sau = s.sau ∧
    (s.ddrCorrected n).loaded = s.loaded ∧ (s.ddrCorrected n).wire = s.wire ∧ (s.ddrCorrected n).perf = s.perf ∧
    (s.ddrCorrected n).icu = s.icu ∧ (s.ddrCorrected n).keys = s.keys ∧ (s.ddrCorrected n).aon = s.aon ∧
    (s.ddrCorrected n).nfc = s.nfc ∧ (s.ddrCorrected n).fwm = s.fwm ∧ (s.ddrCorrected n).upd = s.upd ∧
    (s.ddrCorrected n).flock = s.flock ∧ (s.ddrCorrected n).io = s.io ∧ (s.ddrCorrected n).start = s.start ∧
    (s.ddrCorrected n).pending = s.pending :=
  ⟨rfl, rfl, rfl, rfl, rfl, rfl, rfl, rfl, rfl, rfl, rfl, rfl, rfl, rfl, rfl, rfl, rfl, rfl, rfl, rfl, rfl, rfl, rfl, rfl, rfl, rfl, rfl, rfl, rfl, rfl, rfl, rfl, rfl, rfl, rfl, rfl, rfl, rfl, rfl, rfl⟩

@[simp] theorem State.ddrUncorr_frame (s : State) (a : Nat) :
    (s.ddrUncorr a).tick = s.tick ∧ (s.ddrUncorr a).freeCtr = s.freeCtr ∧ (s.ddrUncorr a).bus = s.bus ∧
    (s.ddrUncorr a).outs = s.outs ∧ (s.ddrUncorr a).cycle = s.cycle ∧ (s.ddrUncorr a).counters = s.counters ∧
    (s.ddrUncorr a).cycleCounters = s.cycleCounters ∧ (s.ddrUncorr a).events = s.events ∧
    (s.ddrUncorr a).mem = s.mem ∧ (s.ddrUncorr a).time = s.time ∧ (s.ddrUncorr a).fe0 = s.fe0 ∧
    (s.ddrUncorr a).fe1 = s.fe1 ∧ (s.ddrUncorr a).fe2 = s.fe2 ∧ (s.ddrUncorr a).hear = s.hear ∧
    (s.ddrUncorr a).ox = s.ox ∧ (s.ddrUncorr a).up = s.up ∧ (s.ddrUncorr a).nextFrame = s.nextFrame ∧
    (s.ddrUncorr a).tables = s.tables ∧ (s.ddrUncorr a).crypto = s.crypto ∧ (s.ddrUncorr a).down = s.down ∧
    (s.ddrUncorr a).q = s.q ∧ (s.ddrUncorr a).sched = s.sched ∧ (s.ddrUncorr a).mac = s.mac ∧
    (s.ddrUncorr a).safe = s.safe ∧ (s.ddrUncorr a).nv = s.nv ∧ (s.ddrUncorr a).lease = s.lease ∧
    (s.ddrUncorr a).sau = s.sau ∧ (s.ddrUncorr a).loaded = s.loaded ∧ (s.ddrUncorr a).wire = s.wire ∧
    (s.ddrUncorr a).perf = s.perf ∧ (s.ddrUncorr a).health = s.health ∧ (s.ddrUncorr a).icu = s.icu ∧
    (s.ddrUncorr a).keys = s.keys ∧ (s.ddrUncorr a).aon = s.aon ∧ (s.ddrUncorr a).nfc = s.nfc ∧
    (s.ddrUncorr a).fwm = s.fwm ∧ (s.ddrUncorr a).upd = s.upd ∧ (s.ddrUncorr a).flock = s.flock ∧
    (s.ddrUncorr a).io = s.io ∧ (s.ddrUncorr a).start = s.start ∧ (s.ddrUncorr a).pending = s.pending :=
  ⟨rfl, rfl, rfl, rfl, rfl, rfl, rfl, rfl, rfl, rfl, rfl, rfl, rfl, rfl, rfl, rfl, rfl, rfl, rfl, rfl, rfl, rfl, rfl, rfl, rfl, rfl, rfl, rfl, rfl, rfl, rfl, rfl, rfl, rfl, rfl, rfl, rfl, rfl, rfl, rfl, rfl⟩

@[simp] theorem State.setTables_frame (s : State) (x : TableState) :
    (s.setTables x).tick = s.tick ∧ (s.setTables x).freeCtr = s.freeCtr ∧ (s.setTables x).bus = s.bus ∧
    (s.setTables x).outs = s.outs ∧ (s.setTables x).fields = s.fields ∧ (s.setTables x).cycle = s.cycle ∧
    (s.setTables x).counters = s.counters ∧ (s.setTables x).cycleCounters = s.cycleCounters ∧
    (s.setTables x).events = s.events ∧ (s.setTables x).mem = s.mem ∧ (s.setTables x).time = s.time ∧
    (s.setTables x).fe0 = s.fe0 ∧ (s.setTables x).fe1 = s.fe1 ∧ (s.setTables x).fe2 = s.fe2 ∧
    (s.setTables x).hear = s.hear ∧ (s.setTables x).ox = s.ox ∧ (s.setTables x).up = s.up ∧
    (s.setTables x).nextFrame = s.nextFrame ∧ (s.setTables x).crypto = s.crypto ∧ (s.setTables x).down = s.down ∧
    (s.setTables x).q = s.q ∧ (s.setTables x).sched = s.sched ∧ (s.setTables x).mac = s.mac ∧
    (s.setTables x).safe = s.safe ∧ (s.setTables x).nv = s.nv ∧ (s.setTables x).lease = s.lease ∧
    (s.setTables x).sau = s.sau ∧ (s.setTables x).loaded = s.loaded ∧ (s.setTables x).wire = s.wire ∧
    (s.setTables x).perf = s.perf ∧ (s.setTables x).health = s.health ∧ (s.setTables x).icu = s.icu ∧
    (s.setTables x).keys = s.keys ∧ (s.setTables x).aon = s.aon ∧ (s.setTables x).nfc = s.nfc ∧
    (s.setTables x).fwm = s.fwm ∧ (s.setTables x).upd = s.upd ∧ (s.setTables x).flock = s.flock ∧
    (s.setTables x).io = s.io ∧ (s.setTables x).start = s.start ∧ (s.setTables x).pending = s.pending :=
  ⟨rfl, rfl, rfl, rfl, rfl, rfl, rfl, rfl, rfl, rfl, rfl, rfl, rfl, rfl, rfl, rfl, rfl, rfl, rfl, rfl, rfl, rfl, rfl, rfl, rfl, rfl, rfl, rfl, rfl, rfl, rfl, rfl, rfl, rfl, rfl, rfl, rfl, rfl, rfl, rfl, rfl⟩

@[simp] theorem State.setTables_self (s : State) (x : TableState) : (s.setTables x).tables = x := rfl

@[simp] theorem State.setQ_frame (s : State) (x : QueueState) :
    (s.setQ x).tick = s.tick ∧ (s.setQ x).freeCtr = s.freeCtr ∧ (s.setQ x).bus = s.bus ∧ (s.setQ x).outs = s.outs ∧
    (s.setQ x).fields = s.fields ∧ (s.setQ x).cycle = s.cycle ∧ (s.setQ x).counters = s.counters ∧
    (s.setQ x).cycleCounters = s.cycleCounters ∧ (s.setQ x).events = s.events ∧ (s.setQ x).mem = s.mem ∧
    (s.setQ x).time = s.time ∧ (s.setQ x).fe0 = s.fe0 ∧ (s.setQ x).fe1 = s.fe1 ∧ (s.setQ x).fe2 = s.fe2 ∧
    (s.setQ x).hear = s.hear ∧ (s.setQ x).ox = s.ox ∧ (s.setQ x).up = s.up ∧ (s.setQ x).nextFrame = s.nextFrame ∧
    (s.setQ x).tables = s.tables ∧ (s.setQ x).crypto = s.crypto ∧ (s.setQ x).down = s.down ∧
    (s.setQ x).sched = s.sched ∧ (s.setQ x).mac = s.mac ∧ (s.setQ x).safe = s.safe ∧ (s.setQ x).nv = s.nv ∧
    (s.setQ x).lease = s.lease ∧ (s.setQ x).sau = s.sau ∧ (s.setQ x).loaded = s.loaded ∧ (s.setQ x).wire = s.wire ∧
    (s.setQ x).perf = s.perf ∧ (s.setQ x).health = s.health ∧ (s.setQ x).icu = s.icu ∧ (s.setQ x).keys = s.keys ∧
    (s.setQ x).aon = s.aon ∧ (s.setQ x).nfc = s.nfc ∧ (s.setQ x).fwm = s.fwm ∧ (s.setQ x).upd = s.upd ∧
    (s.setQ x).flock = s.flock ∧ (s.setQ x).io = s.io ∧ (s.setQ x).start = s.start ∧ (s.setQ x).pending = s.pending :=
  ⟨rfl, rfl, rfl, rfl, rfl, rfl, rfl, rfl, rfl, rfl, rfl, rfl, rfl, rfl, rfl, rfl, rfl, rfl, rfl, rfl, rfl, rfl, rfl, rfl, rfl, rfl, rfl, rfl, rfl, rfl, rfl, rfl, rfl, rfl, rfl, rfl, rfl, rfl, rfl, rfl, rfl⟩

@[simp] theorem State.setQ_self (s : State) (x : QueueState) : (s.setQ x).q = x := rfl

@[simp] theorem State.setSched_frame (s : State) (x : SchedState) :
    (s.setSched x).tick = s.tick ∧ (s.setSched x).freeCtr = s.freeCtr ∧ (s.setSched x).bus = s.bus ∧
    (s.setSched x).outs = s.outs ∧ (s.setSched x).fields = s.fields ∧ (s.setSched x).cycle = s.cycle ∧
    (s.setSched x).counters = s.counters ∧ (s.setSched x).cycleCounters = s.cycleCounters ∧
    (s.setSched x).events = s.events ∧ (s.setSched x).mem = s.mem ∧ (s.setSched x).time = s.time ∧
    (s.setSched x).fe0 = s.fe0 ∧ (s.setSched x).fe1 = s.fe1 ∧ (s.setSched x).fe2 = s.fe2 ∧
    (s.setSched x).hear = s.hear ∧ (s.setSched x).ox = s.ox ∧ (s.setSched x).up = s.up ∧
    (s.setSched x).nextFrame = s.nextFrame ∧ (s.setSched x).tables = s.tables ∧ (s.setSched x).crypto = s.crypto ∧
    (s.setSched x).down = s.down ∧ (s.setSched x).q = s.q ∧ (s.setSched x).mac = s.mac ∧
    (s.setSched x).safe = s.safe ∧ (s.setSched x).nv = s.nv ∧ (s.setSched x).lease = s.lease ∧
    (s.setSched x).sau = s.sau ∧ (s.setSched x).loaded = s.loaded ∧ (s.setSched x).wire = s.wire ∧
    (s.setSched x).perf = s.perf ∧ (s.setSched x).health = s.health ∧ (s.setSched x).icu = s.icu ∧
    (s.setSched x).keys = s.keys ∧ (s.setSched x).aon = s.aon ∧ (s.setSched x).nfc = s.nfc ∧
    (s.setSched x).fwm = s.fwm ∧ (s.setSched x).upd = s.upd ∧ (s.setSched x).flock = s.flock ∧
    (s.setSched x).io = s.io ∧ (s.setSched x).start = s.start ∧ (s.setSched x).pending = s.pending :=
  ⟨rfl, rfl, rfl, rfl, rfl, rfl, rfl, rfl, rfl, rfl, rfl, rfl, rfl, rfl, rfl, rfl, rfl, rfl, rfl, rfl, rfl, rfl, rfl, rfl, rfl, rfl, rfl, rfl, rfl, rfl, rfl, rfl, rfl, rfl, rfl, rfl, rfl, rfl, rfl, rfl, rfl⟩

@[simp] theorem State.setSched_self (s : State) (x : SchedState) : (s.setSched x).sched = x := rfl

@[simp] theorem State.setMac_frame (s : State) (x : MacState) :
    (s.setMac x).tick = s.tick ∧ (s.setMac x).freeCtr = s.freeCtr ∧ (s.setMac x).bus = s.bus ∧
    (s.setMac x).outs = s.outs ∧ (s.setMac x).fields = s.fields ∧ (s.setMac x).cycle = s.cycle ∧
    (s.setMac x).counters = s.counters ∧ (s.setMac x).cycleCounters = s.cycleCounters ∧
    (s.setMac x).events = s.events ∧ (s.setMac x).mem = s.mem ∧ (s.setMac x).time = s.time ∧
    (s.setMac x).fe0 = s.fe0 ∧ (s.setMac x).fe1 = s.fe1 ∧ (s.setMac x).fe2 = s.fe2 ∧ (s.setMac x).hear = s.hear ∧
    (s.setMac x).ox = s.ox ∧ (s.setMac x).up = s.up ∧ (s.setMac x).nextFrame = s.nextFrame ∧
    (s.setMac x).tables = s.tables ∧ (s.setMac x).crypto = s.crypto ∧ (s.setMac x).down = s.down ∧
    (s.setMac x).q = s.q ∧ (s.setMac x).sched = s.sched ∧ (s.setMac x).safe = s.safe ∧ (s.setMac x).nv = s.nv ∧
    (s.setMac x).lease = s.lease ∧ (s.setMac x).sau = s.sau ∧ (s.setMac x).loaded = s.loaded ∧
    (s.setMac x).wire = s.wire ∧ (s.setMac x).perf = s.perf ∧ (s.setMac x).health = s.health ∧
    (s.setMac x).icu = s.icu ∧ (s.setMac x).keys = s.keys ∧ (s.setMac x).aon = s.aon ∧ (s.setMac x).nfc = s.nfc ∧
    (s.setMac x).fwm = s.fwm ∧ (s.setMac x).upd = s.upd ∧ (s.setMac x).flock = s.flock ∧ (s.setMac x).io = s.io ∧
    (s.setMac x).start = s.start ∧ (s.setMac x).pending = s.pending :=
  ⟨rfl, rfl, rfl, rfl, rfl, rfl, rfl, rfl, rfl, rfl, rfl, rfl, rfl, rfl, rfl, rfl, rfl, rfl, rfl, rfl, rfl, rfl, rfl, rfl, rfl, rfl, rfl, rfl, rfl, rfl, rfl, rfl, rfl, rfl, rfl, rfl, rfl, rfl, rfl, rfl, rfl⟩

@[simp] theorem State.setMac_self (s : State) (x : MacState) : (s.setMac x).mac = x := rfl

@[simp] theorem State.setCrypto_frame (s : State) (x : CryptoState) :
    (s.setCrypto x).tick = s.tick ∧ (s.setCrypto x).freeCtr = s.freeCtr ∧ (s.setCrypto x).bus = s.bus ∧
    (s.setCrypto x).outs = s.outs ∧ (s.setCrypto x).fields = s.fields ∧ (s.setCrypto x).cycle = s.cycle ∧
    (s.setCrypto x).counters = s.counters ∧ (s.setCrypto x).cycleCounters = s.cycleCounters ∧
    (s.setCrypto x).events = s.events ∧ (s.setCrypto x).mem = s.mem ∧ (s.setCrypto x).time = s.time ∧
    (s.setCrypto x).fe0 = s.fe0 ∧ (s.setCrypto x).fe1 = s.fe1 ∧ (s.setCrypto x).fe2 = s.fe2 ∧
    (s.setCrypto x).hear = s.hear ∧ (s.setCrypto x).ox = s.ox ∧ (s.setCrypto x).up = s.up ∧
    (s.setCrypto x).nextFrame = s.nextFrame ∧ (s.setCrypto x).tables = s.tables ∧ (s.setCrypto x).down = s.down ∧
    (s.setCrypto x).q = s.q ∧ (s.setCrypto x).sched = s.sched ∧ (s.setCrypto x).mac = s.mac ∧
    (s.setCrypto x).safe = s.safe ∧ (s.setCrypto x).nv = s.nv ∧ (s.setCrypto x).lease = s.lease ∧
    (s.setCrypto x).sau = s.sau ∧ (s.setCrypto x).loaded = s.loaded ∧ (s.setCrypto x).wire = s.wire ∧
    (s.setCrypto x).perf = s.perf ∧ (s.setCrypto x).health = s.health ∧ (s.setCrypto x).icu = s.icu ∧
    (s.setCrypto x).keys = s.keys ∧ (s.setCrypto x).aon = s.aon ∧ (s.setCrypto x).nfc = s.nfc ∧
    (s.setCrypto x).fwm = s.fwm ∧ (s.setCrypto x).upd = s.upd ∧ (s.setCrypto x).flock = s.flock ∧
    (s.setCrypto x).io = s.io ∧ (s.setCrypto x).start = s.start ∧ (s.setCrypto x).pending = s.pending :=
  ⟨rfl, rfl, rfl, rfl, rfl, rfl, rfl, rfl, rfl, rfl, rfl, rfl, rfl, rfl, rfl, rfl, rfl, rfl, rfl, rfl, rfl, rfl, rfl, rfl, rfl, rfl, rfl, rfl, rfl, rfl, rfl, rfl, rfl, rfl, rfl, rfl, rfl, rfl, rfl, rfl, rfl⟩

@[simp] theorem State.setCrypto_self (s : State) (x : CryptoState) : (s.setCrypto x).crypto = x := rfl

@[simp] theorem State.setSafe_frame (s : State) (x : SafeState) :
    (s.setSafe x).tick = s.tick ∧ (s.setSafe x).freeCtr = s.freeCtr ∧ (s.setSafe x).bus = s.bus ∧
    (s.setSafe x).outs = s.outs ∧ (s.setSafe x).fields = s.fields ∧ (s.setSafe x).cycle = s.cycle ∧
    (s.setSafe x).counters = s.counters ∧ (s.setSafe x).cycleCounters = s.cycleCounters ∧
    (s.setSafe x).events = s.events ∧ (s.setSafe x).mem = s.mem ∧ (s.setSafe x).time = s.time ∧
    (s.setSafe x).fe0 = s.fe0 ∧ (s.setSafe x).fe1 = s.fe1 ∧ (s.setSafe x).fe2 = s.fe2 ∧ (s.setSafe x).hear = s.hear ∧
    (s.setSafe x).ox = s.ox ∧ (s.setSafe x).up = s.up ∧ (s.setSafe x).nextFrame = s.nextFrame ∧
    (s.setSafe x).tables = s.tables ∧ (s.setSafe x).crypto = s.crypto ∧ (s.setSafe x).down = s.down ∧
    (s.setSafe x).q = s.q ∧ (s.setSafe x).sched = s.sched ∧ (s.setSafe x).mac = s.mac ∧ (s.setSafe x).nv = s.nv ∧
    (s.setSafe x).lease = s.lease ∧ (s.setSafe x).sau = s.sau ∧ (s.setSafe x).loaded = s.loaded ∧
    (s.setSafe x).wire = s.wire ∧ (s.setSafe x).perf = s.perf ∧ (s.setSafe x).health = s.health ∧
    (s.setSafe x).icu = s.icu ∧ (s.setSafe x).keys = s.keys ∧ (s.setSafe x).aon = s.aon ∧ (s.setSafe x).nfc = s.nfc ∧
    (s.setSafe x).fwm = s.fwm ∧ (s.setSafe x).upd = s.upd ∧ (s.setSafe x).flock = s.flock ∧ (s.setSafe x).io = s.io ∧
    (s.setSafe x).start = s.start ∧ (s.setSafe x).pending = s.pending :=
  ⟨rfl, rfl, rfl, rfl, rfl, rfl, rfl, rfl, rfl, rfl, rfl, rfl, rfl, rfl, rfl, rfl, rfl, rfl, rfl, rfl, rfl, rfl, rfl, rfl, rfl, rfl, rfl, rfl, rfl, rfl, rfl, rfl, rfl, rfl, rfl, rfl, rfl, rfl, rfl, rfl, rfl⟩

@[simp] theorem State.setSafe_self (s : State) (x : SafeState) : (s.setSafe x).safe = x := rfl

@[simp] theorem State.setKeys_frame (s : State) (x : KeysState) :
    (s.setKeys x).tick = s.tick ∧ (s.setKeys x).freeCtr = s.freeCtr ∧ (s.setKeys x).bus = s.bus ∧
    (s.setKeys x).outs = s.outs ∧ (s.setKeys x).fields = s.fields ∧ (s.setKeys x).cycle = s.cycle ∧
    (s.setKeys x).counters = s.counters ∧ (s.setKeys x).cycleCounters = s.cycleCounters ∧
    (s.setKeys x).events = s.events ∧ (s.setKeys x).mem = s.mem ∧ (s.setKeys x).time = s.time ∧
    (s.setKeys x).fe0 = s.fe0 ∧ (s.setKeys x).fe1 = s.fe1 ∧ (s.setKeys x).fe2 = s.fe2 ∧ (s.setKeys x).hear = s.hear ∧
    (s.setKeys x).ox = s.ox ∧ (s.setKeys x).up = s.up ∧ (s.setKeys x).nextFrame = s.nextFrame ∧
    (s.setKeys x).tables = s.tables ∧ (s.setKeys x).crypto = s.crypto ∧ (s.setKeys x).down = s.down ∧
    (s.setKeys x).q = s.q ∧ (s.setKeys x).sched = s.sched ∧ (s.setKeys x).mac = s.mac ∧ (s.setKeys x).safe = s.safe ∧
    (s.setKeys x).nv = s.nv ∧ (s.setKeys x).lease = s.lease ∧ (s.setKeys x).sau = s.sau ∧
    (s.setKeys x).loaded = s.loaded ∧ (s.setKeys x).wire = s.wire ∧ (s.setKeys x).perf = s.perf ∧
    (s.setKeys x).health = s.health ∧ (s.setKeys x).icu = s.icu ∧ (s.setKeys x).aon = s.aon ∧
    (s.setKeys x).nfc = s.nfc ∧ (s.setKeys x).fwm = s.fwm ∧ (s.setKeys x).upd = s.upd ∧
    (s.setKeys x).flock = s.flock ∧ (s.setKeys x).io = s.io ∧ (s.setKeys x).start = s.start ∧
    (s.setKeys x).pending = s.pending :=
  ⟨rfl, rfl, rfl, rfl, rfl, rfl, rfl, rfl, rfl, rfl, rfl, rfl, rfl, rfl, rfl, rfl, rfl, rfl, rfl, rfl, rfl, rfl, rfl, rfl, rfl, rfl, rfl, rfl, rfl, rfl, rfl, rfl, rfl, rfl, rfl, rfl, rfl, rfl, rfl, rfl, rfl⟩

@[simp] theorem State.setKeys_self (s : State) (x : KeysState) : (s.setKeys x).keys = x := rfl

@[simp] theorem State.setNfc_frame (s : State) (x : NfcState) :
    (s.setNfc x).tick = s.tick ∧ (s.setNfc x).freeCtr = s.freeCtr ∧ (s.setNfc x).bus = s.bus ∧
    (s.setNfc x).outs = s.outs ∧ (s.setNfc x).fields = s.fields ∧ (s.setNfc x).cycle = s.cycle ∧
    (s.setNfc x).counters = s.counters ∧ (s.setNfc x).cycleCounters = s.cycleCounters ∧
    (s.setNfc x).events = s.events ∧ (s.setNfc x).mem = s.mem ∧ (s.setNfc x).time = s.time ∧
    (s.setNfc x).fe0 = s.fe0 ∧ (s.setNfc x).fe1 = s.fe1 ∧ (s.setNfc x).fe2 = s.fe2 ∧ (s.setNfc x).hear = s.hear ∧
    (s.setNfc x).ox = s.ox ∧ (s.setNfc x).up = s.up ∧ (s.setNfc x).nextFrame = s.nextFrame ∧
    (s.setNfc x).tables = s.tables ∧ (s.setNfc x).crypto = s.crypto ∧ (s.setNfc x).down = s.down ∧
    (s.setNfc x).q = s.q ∧ (s.setNfc x).sched = s.sched ∧ (s.setNfc x).mac = s.mac ∧ (s.setNfc x).safe = s.safe ∧
    (s.setNfc x).nv = s.nv ∧ (s.setNfc x).lease = s.lease ∧ (s.setNfc x).sau = s.sau ∧
    (s.setNfc x).loaded = s.loaded ∧ (s.setNfc x).wire = s.wire ∧ (s.setNfc x).perf = s.perf ∧
    (s.setNfc x).health = s.health ∧ (s.setNfc x).icu = s.icu ∧ (s.setNfc x).keys = s.keys ∧
    (s.setNfc x).aon = s.aon ∧ (s.setNfc x).fwm = s.fwm ∧ (s.setNfc x).upd = s.upd ∧ (s.setNfc x).flock = s.flock ∧
    (s.setNfc x).io = s.io ∧ (s.setNfc x).start = s.start ∧ (s.setNfc x).pending = s.pending :=
  ⟨rfl, rfl, rfl, rfl, rfl, rfl, rfl, rfl, rfl, rfl, rfl, rfl, rfl, rfl, rfl, rfl, rfl, rfl, rfl, rfl, rfl, rfl, rfl, rfl, rfl, rfl, rfl, rfl, rfl, rfl, rfl, rfl, rfl, rfl, rfl, rfl, rfl, rfl, rfl, rfl, rfl⟩

@[simp] theorem State.setNfc_self (s : State) (x : NfcState) : (s.setNfc x).nfc = x := rfl

@[simp] theorem State.setIcu_frame (s : State) (x : IcuState) :
    (s.setIcu x).tick = s.tick ∧ (s.setIcu x).freeCtr = s.freeCtr ∧ (s.setIcu x).bus = s.bus ∧
    (s.setIcu x).outs = s.outs ∧ (s.setIcu x).fields = s.fields ∧ (s.setIcu x).cycle = s.cycle ∧
    (s.setIcu x).counters = s.counters ∧ (s.setIcu x).cycleCounters = s.cycleCounters ∧
    (s.setIcu x).events = s.events ∧ (s.setIcu x).mem = s.mem ∧ (s.setIcu x).time = s.time ∧
    (s.setIcu x).fe0 = s.fe0 ∧ (s.setIcu x).fe1 = s.fe1 ∧ (s.setIcu x).fe2 = s.fe2 ∧ (s.setIcu x).hear = s.hear ∧
    (s.setIcu x).ox = s.ox ∧ (s.setIcu x).up = s.up ∧ (s.setIcu x).nextFrame = s.nextFrame ∧
    (s.setIcu x).tables = s.tables ∧ (s.setIcu x).crypto = s.crypto ∧ (s.setIcu x).down = s.down ∧
    (s.setIcu x).q = s.q ∧ (s.setIcu x).sched = s.sched ∧ (s.setIcu x).mac = s.mac ∧ (s.setIcu x).safe = s.safe ∧
    (s.setIcu x).nv = s.nv ∧ (s.setIcu x).lease = s.lease ∧ (s.setIcu x).sau = s.sau ∧
    (s.setIcu x).loaded = s.loaded ∧ (s.setIcu x).wire = s.wire ∧ (s.setIcu x).perf = s.perf ∧
    (s.setIcu x).health = s.health ∧ (s.setIcu x).keys = s.keys ∧ (s.setIcu x).aon = s.aon ∧
    (s.setIcu x).nfc = s.nfc ∧ (s.setIcu x).fwm = s.fwm ∧ (s.setIcu x).upd = s.upd ∧ (s.setIcu x).flock = s.flock ∧
    (s.setIcu x).io = s.io ∧ (s.setIcu x).start = s.start ∧ (s.setIcu x).pending = s.pending :=
  ⟨rfl, rfl, rfl, rfl, rfl, rfl, rfl, rfl, rfl, rfl, rfl, rfl, rfl, rfl, rfl, rfl, rfl, rfl, rfl, rfl, rfl, rfl, rfl, rfl, rfl, rfl, rfl, rfl, rfl, rfl, rfl, rfl, rfl, rfl, rfl, rfl, rfl, rfl, rfl, rfl, rfl⟩

@[simp] theorem State.setIcu_self (s : State) (x : IcuState) : (s.setIcu x).icu = x := rfl

@[simp] theorem State.setHealth_frame (s : State) (x : HealthState) :
    (s.setHealth x).tick = s.tick ∧ (s.setHealth x).freeCtr = s.freeCtr ∧ (s.setHealth x).bus = s.bus ∧
    (s.setHealth x).outs = s.outs ∧ (s.setHealth x).fields = s.fields ∧ (s.setHealth x).cycle = s.cycle ∧
    (s.setHealth x).counters = s.counters ∧ (s.setHealth x).cycleCounters = s.cycleCounters ∧
    (s.setHealth x).events = s.events ∧ (s.setHealth x).mem = s.mem ∧ (s.setHealth x).time = s.time ∧
    (s.setHealth x).fe0 = s.fe0 ∧ (s.setHealth x).fe1 = s.fe1 ∧ (s.setHealth x).fe2 = s.fe2 ∧
    (s.setHealth x).hear = s.hear ∧ (s.setHealth x).ox = s.ox ∧ (s.setHealth x).up = s.up ∧
    (s.setHealth x).nextFrame = s.nextFrame ∧ (s.setHealth x).tables = s.tables ∧ (s.setHealth x).crypto = s.crypto ∧
    (s.setHealth x).down = s.down ∧ (s.setHealth x).q = s.q ∧ (s.setHealth x).sched = s.sched ∧
    (s.setHealth x).mac = s.mac ∧ (s.setHealth x).safe = s.safe ∧ (s.setHealth x).nv = s.nv ∧
    (s.setHealth x).lease = s.lease ∧ (s.setHealth x).sau = s.sau ∧ (s.setHealth x).loaded = s.loaded ∧
    (s.setHealth x).wire = s.wire ∧ (s.setHealth x).perf = s.perf ∧ (s.setHealth x).icu = s.icu ∧
    (s.setHealth x).keys = s.keys ∧ (s.setHealth x).aon = s.aon ∧ (s.setHealth x).nfc = s.nfc ∧
    (s.setHealth x).fwm = s.fwm ∧ (s.setHealth x).upd = s.upd ∧ (s.setHealth x).flock = s.flock ∧
    (s.setHealth x).io = s.io ∧ (s.setHealth x).start = s.start ∧ (s.setHealth x).pending = s.pending :=
  ⟨rfl, rfl, rfl, rfl, rfl, rfl, rfl, rfl, rfl, rfl, rfl, rfl, rfl, rfl, rfl, rfl, rfl, rfl, rfl, rfl, rfl, rfl, rfl, rfl, rfl, rfl, rfl, rfl, rfl, rfl, rfl, rfl, rfl, rfl, rfl, rfl, rfl, rfl, rfl, rfl, rfl⟩

@[simp] theorem State.setHealth_self (s : State) (x : HealthState) : (s.setHealth x).health = x := rfl

@[simp] theorem State.setPerf_frame (s : State) (x : PerfState) :
    (s.setPerf x).tick = s.tick ∧ (s.setPerf x).freeCtr = s.freeCtr ∧ (s.setPerf x).bus = s.bus ∧
    (s.setPerf x).outs = s.outs ∧ (s.setPerf x).fields = s.fields ∧ (s.setPerf x).cycle = s.cycle ∧
    (s.setPerf x).counters = s.counters ∧ (s.setPerf x).cycleCounters = s.cycleCounters ∧
    (s.setPerf x).events = s.events ∧ (s.setPerf x).mem = s.mem ∧ (s.setPerf x).time = s.time ∧
    (s.setPerf x).fe0 = s.fe0 ∧ (s.setPerf x).fe1 = s.fe1 ∧ (s.setPerf x).fe2 = s.fe2 ∧ (s.setPerf x).hear = s.hear ∧
    (s.setPerf x).ox = s.ox ∧ (s.setPerf x).up = s.up ∧ (s.setPerf x).nextFrame = s.nextFrame ∧
    (s.setPerf x).tables = s.tables ∧ (s.setPerf x).crypto = s.crypto ∧ (s.setPerf x).down = s.down ∧
    (s.setPerf x).q = s.q ∧ (s.setPerf x).sched = s.sched ∧ (s.setPerf x).mac = s.mac ∧ (s.setPerf x).safe = s.safe ∧
    (s.setPerf x).nv = s.nv ∧ (s.setPerf x).lease = s.lease ∧ (s.setPerf x).sau = s.sau ∧
    (s.setPerf x).loaded = s.loaded ∧ (s.setPerf x).wire = s.wire ∧ (s.setPerf x).health = s.health ∧
    (s.setPerf x).icu = s.icu ∧ (s.setPerf x).keys = s.keys ∧ (s.setPerf x).aon = s.aon ∧ (s.setPerf x).nfc = s.nfc ∧
    (s.setPerf x).fwm = s.fwm ∧ (s.setPerf x).upd = s.upd ∧ (s.setPerf x).flock = s.flock ∧ (s.setPerf x).io = s.io ∧
    (s.setPerf x).start = s.start ∧ (s.setPerf x).pending = s.pending :=
  ⟨rfl, rfl, rfl, rfl, rfl, rfl, rfl, rfl, rfl, rfl, rfl, rfl, rfl, rfl, rfl, rfl, rfl, rfl, rfl, rfl, rfl, rfl, rfl, rfl, rfl, rfl, rfl, rfl, rfl, rfl, rfl, rfl, rfl, rfl, rfl, rfl, rfl, rfl, rfl, rfl, rfl⟩

@[simp] theorem State.setPerf_self (s : State) (x : PerfState) : (s.setPerf x).perf = x := rfl

@[simp] theorem State.setIo_frame (s : State) (x : IoState) :
    (s.setIo x).tick = s.tick ∧ (s.setIo x).freeCtr = s.freeCtr ∧ (s.setIo x).bus = s.bus ∧
    (s.setIo x).outs = s.outs ∧ (s.setIo x).fields = s.fields ∧ (s.setIo x).cycle = s.cycle ∧
    (s.setIo x).counters = s.counters ∧ (s.setIo x).cycleCounters = s.cycleCounters ∧ (s.setIo x).events = s.events ∧
    (s.setIo x).mem = s.mem ∧ (s.setIo x).time = s.time ∧ (s.setIo x).fe0 = s.fe0 ∧ (s.setIo x).fe1 = s.fe1 ∧
    (s.setIo x).fe2 = s.fe2 ∧ (s.setIo x).hear = s.hear ∧ (s.setIo x).ox = s.ox ∧ (s.setIo x).up = s.up ∧
    (s.setIo x).nextFrame = s.nextFrame ∧ (s.setIo x).tables = s.tables ∧ (s.setIo x).crypto = s.crypto ∧
    (s.setIo x).down = s.down ∧ (s.setIo x).q = s.q ∧ (s.setIo x).sched = s.sched ∧ (s.setIo x).mac = s.mac ∧
    (s.setIo x).safe = s.safe ∧ (s.setIo x).nv = s.nv ∧ (s.setIo x).lease = s.lease ∧ (s.setIo x).sau = s.sau ∧
    (s.setIo x).loaded = s.loaded ∧ (s.setIo x).wire = s.wire ∧ (s.setIo x).perf = s.perf ∧
    (s.setIo x).health = s.health ∧ (s.setIo x).icu = s.icu ∧ (s.setIo x).keys = s.keys ∧ (s.setIo x).aon = s.aon ∧
    (s.setIo x).nfc = s.nfc ∧ (s.setIo x).fwm = s.fwm ∧ (s.setIo x).upd = s.upd ∧ (s.setIo x).flock = s.flock ∧
    (s.setIo x).start = s.start ∧ (s.setIo x).pending = s.pending :=
  ⟨rfl, rfl, rfl, rfl, rfl, rfl, rfl, rfl, rfl, rfl, rfl, rfl, rfl, rfl, rfl, rfl, rfl, rfl, rfl, rfl, rfl, rfl, rfl, rfl, rfl, rfl, rfl, rfl, rfl, rfl, rfl, rfl, rfl, rfl, rfl, rfl, rfl, rfl, rfl, rfl, rfl⟩

@[simp] theorem State.setIo_self (s : State) (x : IoState) : (s.setIo x).io = x := rfl

/-- A field holds what was last written to it, cut to its width. -/
@[simp] theorem State.get_set_self (s : State) (f : Fld) (v : Nat) : (s.set f v).get f = v % 2 ^ f.width := by
  simp [State.get, State.set]

/-- A write to one field leaves every other field as it was. -/
theorem State.get_set_other (s : State) (f g : Fld) (v : Nat) (h : g.key ≠ f.key) : (s.set f v).get g = s.get g := by
  simp [State.get, State.set, Cells.get_set_other _ _ _ _ h]

/-- A one-bit field holds the flag last written to it. -/
theorem State.flag_setFlag_self (s : State) (f : Fld) (b : Bool) : (s.setFlag f b).flag f = b := by
  have h : 1 < 2 ^ f.width := Nat.one_lt_two_pow (by simp [Fld.width])
  cases b <;> simp [State.flag, State.setFlag, b2n, Nat.mod_eq_of_lt h]

/-- A write to one field leaves every other flag as it was. -/
theorem State.flag_set_other (s : State) (f g : Fld) (v : Nat) (h : g.key ≠ f.key) : (s.set f v).flag g = s.flag g := by
  simp [State.flag, State.get_set_other s f g v h]

/-- A counting field goes up, and stays at its greatest value. -/
theorem State.get_bump_self (s : State) (f : Fld) (n : Nat) :
    (s.bump f n).get f = min (s.get f + n) (2 ^ f.width - 1) := by
  have h : min (s.get f + n) (2 ^ f.width - 1) < 2 ^ f.width := by
    have : 0 < 2 ^ f.width := Nat.two_pow_pos _
    omega
  simp [State.bump, Nat.mod_eq_of_lt h]

/-- An operation under a condition, by the condition. -/
theorem State.onlyIf_true (s : State) (k : State → State) : s.onlyIf true k = k s := rfl
theorem State.onlyIf_false (s : State) (k : State → State) : s.onlyIf false k = s := rfl

end Sys2Proof.Machine
end

