-- ==== Sys2Proof/Laws/Memory.lean ====
section
/-!
SUPPORT. The laws of the memories: a read after a write gives what was written, a write leaves every other octet as it
was, every memory operation keeps the canonical form, and no operation clears an OTP bit.
-/

namespace Sys2Proof.Machine

/-- A write leaves every octet outside it as it was. -/
theorem get_writeBytes_other (m : List Host.Cell) (d : Byte) (bs : List Byte) (a x : Nat)
    (h : x < a ∨ a + bs.length ≤ x) : Cells.get (writeBytes m d a bs) x d = Cells.get m x d := by
  induction bs generalizing m a with
  | nil => rfl
  | cons b bs ih =>
    simp only [List.length_cons] at h
    rw [writeBytes, ih _ _ (by omega), Cells.get_set_other _ _ _ _ (by omega)]

/-- A read of one octet after a write gives the octet written there. -/
theorem get_writeBytes_self (m : List Host.Cell) (d : Byte) (bs : List Byte) (a i : Nat) (h : i < bs.length) :
    Cells.get (writeBytes m d a bs) (a + i) d = bs[i] := by
  induction bs generalizing m a i with
  | nil => exact absurd h (by simp)
  | cons b bs ih =>
    cases i with
    | zero =>
      rw [writeBytes, get_writeBytes_other _ _ _ _ _ (by omega)]
      simp
    | succ i =>
      have := ih (Cells.set m a b d) (a + 1) i (by simpa using h)
      rw [writeBytes, show a + (i + 1) = a + 1 + i by omega, this]
      simp

/-- A read of octets that were just written gives them. -/
theorem readBytes_writeBytes (m : List Host.Cell) (d : Byte) (bs : List Byte) (a : Nat) :
    readBytes (writeBytes m d a bs) d a bs.length = bs := by
  induction bs generalizing m a with
  | nil => rfl
  | cons b bs ih =>
    simp only [List.length_cons, readBytes, writeBytes]
    rw [ih, get_writeBytes_other _ _ _ _ _ (by omega)]
    simp

theorem wf_writeBytes (m : List Host.Cell) (d : Byte) (a : Nat) (bs : List Byte) (h : Cells.wf m d = true) :
    Cells.wf (writeBytes m d a bs) d = true := by
  induction bs generalizing m a with
  | nil => exact h
  | cons b bs ih => exact ih _ _ (Cells.wf_set m a b d h)

/-! Every memory operation keeps the canonical form. -/

theorem ddrWrite_wf (s : State) (a : Nat) (bs : List Byte) (h : Memory.wf s.mem = true) :
    Memory.wf (s.ddrWrite a bs).mem = true := by
  simp only [Memory.wf, Bool.and_eq_true] at h ⊢
  exact ⟨⟨⟨⟨wf_writeBytes _ _ _ _ h.1.1.1.1, h.1.1.1.2⟩, h.1.1.2⟩, h.1.2⟩, h.2⟩

theorem ddrReplace_wf (s : State) (a : Nat) (bs : List Byte) (h : Memory.wf s.mem = true) :
    Memory.wf (s.ddrReplace a bs).mem = true := by
  simp only [Memory.wf, Bool.and_eq_true] at h ⊢
  exact ⟨⟨⟨⟨Cells.wf_replace _ _ _ _ h.1.1.1.1, h.1.1.1.2⟩, h.1.1.2⟩, h.1.2⟩, h.2⟩

theorem tcmWrite_wf (s : State) (a : Nat) (bs : List Byte) (h : Memory.wf s.mem = true) :
    Memory.wf (s.tcmWrite a bs).mem = true := by
  simp only [Memory.wf, Bool.and_eq_true] at h ⊢
  exact ⟨⟨⟨⟨h.1.1.1.1, wf_writeBytes _ _ _ _ h.1.1.1.2⟩, h.1.1.2⟩, h.1.2⟩, h.2⟩

theorem flashWrite_wf (s : State) (a : Nat) (bs : List Byte) (h : Memory.wf s.mem = true) :
    Memory.wf (s.flashWrite a bs).mem = true := by
  simp only [Memory.wf, Bool.and_eq_true] at h ⊢
  exact ⟨⟨⟨⟨h.1.1.1.1, h.1.1.1.2⟩, wf_writeBytes _ _ _ _ h.1.1.2⟩, h.1.2⟩, h.2⟩

theorem flashErase_wf (s : State) (a n : Nat) (h : Memory.wf s.mem = true) :
    Memory.wf (s.flashErase a n).mem = true := by
  simp only [Memory.wf, Bool.and_eq_true] at h ⊢
  exact ⟨⟨⟨⟨h.1.1.1.1, h.1.1.1.2⟩, Cells.wf_filter _ _ _ h.1.1.2⟩, h.1.2⟩, h.2⟩

theorem otpBurn_wf (s : State) (w v : Nat) (h : Memory.wf s.mem = true) : Memory.wf (s.otpBurn w v).mem = true := by
  simp only [Memory.wf, Bool.and_eq_true] at h ⊢
  exact ⟨⟨⟨⟨h.1.1.1.1, h.1.1.1.2⟩, h.1.1.2⟩, Cells.wf_set _ _ _ _ h.1.2⟩, h.2⟩

theorem fwmWrite_wf (s : State) (a : Nat) (bs : List Byte) (h : Memory.wf s.mem = true) :
    Memory.wf (s.fwmWrite a bs).mem = true := by
  simp only [Memory.wf, Bool.and_eq_true] at h ⊢
  exact ⟨⟨⟨⟨h.1.1.1.1, h.1.1.1.2⟩, h.1.1.2⟩, h.1.2⟩, wf_writeBytes _ _ _ _ h.2⟩

theorem pageErase_wf (s : State) (p : Nat) (h : Memory.wf s.mem = true) : Memory.wf (pageErase s p).mem = true := by
  simp only [Memory.wf, Bool.and_eq_true] at h ⊢
  exact ⟨⟨⟨⟨h.1.1.1.1, h.1.1.1.2⟩, h.1.1.2⟩, h.1.2⟩, Cells.wf_filter _ _ _ h.2⟩

/-- The machine at reset has every memory in canonical form. -/
theorem reset_wf : Memory.wf State.reset.mem = true := rfl

/-! OTP bits only ever set (R519). -/

theorem otpKept_refl (s : State) : otpKept s s := fun _ => Nat.or_self _

theorem otpKept_trans {s t u : State} (h : otpKept s t) (k : otpKept t u) : otpKept s u := by
  intro w
  rw [← k w, ← Nat.or_assoc, h w]

theorem otpKept_of_mem {s t : State} (h : t.mem.otp = s.mem.otp) : otpKept s t := by
  intro w
  simp [State.otp, h]

theorem otpBurn_kept (s : State) (w v : Nat) : otpKept s (s.otpBurn w v) := by
  intro x
  by_cases h : x = w
  · subst h
    simp [State.otp, State.otpBurn]
  · simp [State.otp, State.otpBurn, Cells.get_set_other _ _ _ _ h]

end Sys2Proof.Machine
end

