-- ==== Sys2Proof/Laws/Command.lean ====
section
/-!
SUPPORT. What the shapes in which every command is written can do: time passes, a condition is tested, an event occurs, a lane,
a context, a queue or a cached key takes a new value.
-/

namespace Sys2Proof.Machine

/-! A command. -/

/-- All that a command can answer. -/
theorem step'_iff (dt : Nat) (s t : State) (k : State → State) :
    step' dt s k = .next t ↔ t = { k (s.advance dt) with tick := s.tick + dt, pending := s.pending } := by
  constructor
  · intro h
    injection h with h
    exact h.symm
  · rintro rfl
    rfl

/-- Where its condition fails, only time passes. -/
theorem whenever_idle (dt : Nat) (s : State) (c : State → Bool) (k : State → State) (h : c (s.advance dt) = false) :
    whenever dt s c k = .next (s.advance dt) := by
  simp only [whenever, step', h, State.onlyIf_false]
  rfl

/-- Where its condition holds, it is the command without one. -/
theorem whenever_acts (dt : Nat) (s : State) (c : State → Bool) (k : State → State) (h : c (s.advance dt) = true) :
    whenever dt s c k = step' dt s k := by
  simp only [whenever, step', h, State.onlyIf_true]

/-- The passing of time alone leaves every memory and every register field. -/
@[simp] theorem State.advance_mem (s : State) (dt : Nat) : (s.advance dt).mem = s.mem := rfl
@[simp] theorem State.advance_get (s : State) (dt : Nat) (f : Fld) : (s.advance dt).get f = s.get f := rfl

/-- A command keeps what its effect keeps, if the clock and the queue have no part in it. -/
theorem step'_keeps {P : State → Prop} (dt : Nat) (s t : State) (k : State → State) (h : step' dt s k = .next t) (hs : P s)
    (time : ∀ s, P s → P (s.advance dt)) (own : ∀ s n l, P s → P { s with tick := n, pending := l }) (eff : ∀ s, P s → P (k s)) :
    P t := by
  rw [step'_iff] at h
  subst h
  exact own _ _ _ (eff _ (time _ hs))

/-- An operation under a condition keeps what the operation keeps. -/
theorem State.onlyIf_keeps {P : State → Prop} (s : State) (c : Bool) (k : State → State) (hs : P s) (h : P s → P (k s)) :
    P (s.onlyIf c k) := by
  cases c
  · exact hs
  · exact h hs

/-- A command keeps the canonical form of the memories if its effect does. -/
theorem step'_wf (dt : Nat) (s t : State) (k : State → State) (h : step' dt s k = .next t) (hs : Memory.wf s.mem = true)
    (eff : ∀ s, Memory.wf s.mem = true → Memory.wf (k s).mem = true) : Memory.wf t.mem = true :=
  step'_keeps (P := fun s => Memory.wf s.mem = true) dt s t k h hs (fun _ h => h) (fun _ _ _ h => h) eff

/-- A command clears no OTP bit if its effect clears none. -/
theorem step'_otpKept (dt : Nat) (s t : State) (k : State → State) (h : step' dt s k = .next t)
    (eff : ∀ s, otpKept s (k s)) : otpKept s t := by
  rw [step'_iff] at h
  subst h
  exact eff (s.advance dt)

/-! Events. -/

/-- A record either joins the FIFO or is lost; nothing else but the FIFO's status changes. -/
theorem State.recordEvent_cases (s : State) (r : EventRec) :
    s.recordEvent r = { s with events := s.events ++ [r] } ∨
      4096 ≤ s.events.length ∧
        s.recordEvent r = (s.setFlag Reg.SYS_EVENT_STATUS.OVF true).bump Reg.SYS_EVENT_LOST.LOST := by
  by_cases h : s.events.length < 4096
  · exact .inl (by simp [State.recordEvent, h])
  · exact .inr ⟨by omega, by simp [State.recordEvent, h]⟩

/-- Counting leaves every register field, and so which events are enabled. -/
@[simp] theorem State.count_get (s : State) (c n : Nat) (f : Fld) : (s.count c n).get f = s.get f := by
  simp only [State.get, State.count_frame]
@[simp] theorem State.count_eventEnabled (s : State) (c n code : Nat) : (s.count c n).eventEnabled code = s.eventEnabled code := by
  simp only [State.eventEnabled, State.count_get]

/-- What an event does (R44): it is counted, and then recorded if its code is enabled. -/
theorem State.event_eq (s : State) (code source arg : Nat) :
    s.event code source arg = (s.count code).onlyIf (s.eventEnabled code) fun s =>
      s.recordEvent { code := code, source := source, arg := arg % 2 ^ 48, time := s.time.ns } := by
  rw [← State.count_eventEnabled s code 1]
  unfold State.event
  rfl

/-- An event whose code is not enabled is counted alone. -/
theorem State.event_disabled (s : State) (code source arg : Nat) (h : s.eventEnabled code = false) :
    s.event code source arg = s.count code := by
  rw [State.event_eq, h, State.onlyIf_false]

/-- An enabled event with room in the FIFO is counted, and its record stands last. -/
theorem State.event_enabled (s : State) (code source arg : Nat) (h : s.eventEnabled code = true) (room : s.events.length < 4096) :
    s.event code source arg =
      { s.count code with events := s.events ++ [{ code := code, source := source, arg := arg % 2 ^ 48, time := s.time.ns }] } := by
  have e : (s.count code).events = s.events := by simp only [State.count_frame]
  have n : (s.count code).time = s.time := by simp only [State.count_frame]
  rw [State.event_eq, h, State.onlyIf_true, ← e, ← n]
  rcases State.recordEvent_cases (s.count code)
      { code := code, source := source, arg := arg % 2 ^ 48, time := (s.count code).time.ns } with r | ⟨full, -⟩
  · exact r
  · rw [e] at full
    omega

/-- An event changes no memory. -/
@[simp] theorem State.event_mem (s : State) (code source arg : Nat) : (s.event code source arg).mem = s.mem := by
  rw [State.event_eq]
  refine State.onlyIf_keeps (P := fun t => t.mem = s.mem) _ _ _ (by simp only [State.count_frame]) fun h => ?_
  rcases State.recordEvent_cases (s.count code)
      { code := code, source := source, arg := arg % 2 ^ 48, time := (s.count code).time.ns } with e | ⟨-, e⟩
  · rw [e]
    exact h
  · rw [e]
    simp only [State.bump_frame, State.setFlag_frame, h]

/-! Places that hold one value each: a read after a write gives what was written, and a write leaves every other place. -/

@[simp] theorem laneAt_setLane_self (s : State) (n : Nat) (l : Lane) : laneAt (setLane s n l) n = l := by simp [laneAt, setLane]
theorem laneAt_setLane_other (s : State) {n m : Nat} (l : Lane) (h : m ≠ n) : laneAt (setLane s n l) m = laneAt s m :=
  Cells.get_set_other _ _ _ _ h

@[simp] theorem ctxAt_setCtx_self (s : State) (n : Nat) (c : Context) : ctxAt (setCtx s n c) n = c := by simp [ctxAt, setCtx]
theorem ctxAt_setCtx_other (s : State) {n m : Nat} (c : Context) (h : m ≠ n) : ctxAt (setCtx s n c) m = ctxAt s m :=
  Cells.get_set_other _ _ _ _ h

@[simp] theorem queueAt_setQueue_self (s : State) (q : Nat) (l : List Packet) : queueAt (setQueue s q l) q = l := by
  simp [queueAt, setQueue]
theorem queueAt_setQueue_other (s : State) {q r : Nat} (l : List Packet) (h : r ≠ q) : queueAt (setQueue s q l) r = queueAt s r :=
  Cells.get_set_other _ _ _ _ h

/-- A key just used or entered is the one found. -/
@[simp] theorem cachedKey_useKey (s : State) (r : Nat) (k : List Byte) : cachedKey (useKey s r k) r = some k := by
  simp [cachedKey, useKey, setCache]
@[simp] theorem cachedKey_cacheKey (s : State) (r : Nat) (k : List Byte) : cachedKey (cacheKey s r k) r = some k := by
  simp [cachedKey, cacheKey, setCache]

end Sys2Proof.Machine
end

