-- ==== Sys2Proof/Tests/Slice0.lean ====
section
/-!
SUPPORT. Tests. A `witness_` theorem of an obligation shows, for each of its clauses, a concrete state and operands that meet
all of the clause's hypotheses together. A `test_` theorem holds a definition to a value written down elsewhere: in the spec,
or in the standard it names.
-/

set_option maxRecDepth 100000
set_option Elab.async false

namespace Sys2Proof.Tests

open Sys2Proof.Machine

/-! States and operands of the witnesses. -/

/-- The machine in RUN. -/
def run : State := State.reset.set Reg.SYS_BOOT_STATUS.STATE Boot.RUN

/-- The machine in a boot state. -/
def inState (b : Nat) : State := State.reset.set Reg.SYS_BOOT_STATUS.STATE b

/-- A state whose TIME_NS runs, at an instant. -/
def atNs (s : State) (ns : Nat) : State := { s with time := { s.time with ns := ns, running := true } }

/-- A boot header's first octets. -/
def bootHdr : List Byte := leBytes 4 0x48445242 ++ leBytes 2 256 ++ leBytes 2 8 ++ leBytes 4 0

/-- A carrier, an emission, a packet and a debit. -/
def car (ld : Load) : Carrier := { bin := 3, freqKhz := 868000, mode := 1, cr := 0, len := 20, airtimeUs := 100, load := ld }

def emi (ph : Phase) (ld : Load) : Emission := { kind := 0, commitNs := 0, nominalNs := 1000000, loKhz := 868000, entry := 3, carriers := [car ld], phase := ph }

/-- A front end's one emission. -/
def withEm (fe : Nat) (e : Emission) (s : State) : State := s.setFe fe { s.fe fe with emissions := [e] }

def pkt : Packet := { cls := 3, queue := 3, record := 5 }

def deb : Debit := { port := 0, excess := false, tenant := 0, queue := 3, weighted := true, committed := false, peak := false, byTenant := false, cost := 0, sub := 0, second := 0 }

/-- A frame of a node, a sub-band, and a device that listens. -/
def frm : MacFrame := { version := 2, ftype := 1, dst := .short 4660, src := .ext 43707, seqNo := none, ackReq := true, sec := none, flood := none, raw := [] }

def band : SubBand := { fe := 0, index := 0, modes := 65535, lowKhz := 0, highKhz := 3000000, capQdbm := 80, syncTol := 3 }

def rxs : State := let s := ((run.setFlag (Reg.FE_STATUS.RX_IN_SERVICE 0) true).set (Reg.CHAN_BIN_EN.EN 0) 255); { s with hear := { s.hear with subbands := [band] } }

/-- A detection, a lane, a measurement and a decode job. -/
def det : Detect := { fe := 0, bin := 3, mode := 0, corr := 255, raw := 9, freqOfs := 0, power := 0, timing := 5000 }

def withLane (s : State) (n : Nat) (l : Lane) : State := setLane s n l

def mea : LaneMeasure := { afc := 1, power := -200, snr := 2304, syncAt := 77 }

def job : DecodeJob := { claim := 1, fe := 0, bin := 3, mode := 0, seq := 0, cr := 0, z := 20, len := 20, afc := 0, rssi := 0, lq := 0, overlap := false, syncNs := 5, endNs := 9 }

/-- A received frame and its security header. -/
def upf : UpFrame := { id := 1, lane := none, fe := 0, bin := 3, mode := 1, cr := 0, recovered := false, rssi := 0, lq := 0, syncNs := 5, firstNs := 4, endNs := 9, len := 40, frame := frm }

def aux : AuxSec := { level := 5, keyMode := 0, keyIndex := 0, counter := some 7 }

/-- Node records in memory, a node in the tables, and the device's own address. -/
def withRecs (s : State) : State := ((s.setFlag Reg.FWD_REC_BASE.EN true).set Reg.FWD_REC_BASE.ADDR 4100).set Reg.DDRC_STATUS.SIZE_GIB 1

def withNode (s : State) (k r : Nat) : State := let s := withRecs s; setSlot s (hash0 s k) 0 { eui := k, record := r, valid := true }

def mine : MacFrame := { frm with dst := .short 291 }

def own (s : State) : State := s.set Reg.MAC_ADDR.SHORT 291

def routed : Routed := { datagram := [], cls := 3 }

/-- A Mule list, a descriptor, and a held lock. -/
def mul (s : State) (l : List MuleDesc) : State := let s := withRecs (s.setFlag Reg.FWD_MULE_STATUS.BUSY true); { s with tables := { s.tables with mule := { s.tables.mule with buffer := l, fetched := l.length } } }

def dsc (op : Nat) (w0 w1 : Nat) (r : List Nat := []) : MuleDesc := .words ([op * 2 ^ 56 + w0, w1] ++ r)

def locked (s : State) (b c : Nat) : State := { s with tables := { s.tables with mule := { s.tables.mule with locks := some (b, c) } } }

/-- A core's queue, and Ethernet links up. -/
def coreQ (s : State) : State := ((s.setFlag (Reg.QMGR_Q_CFG.EN 14339) true).set (Reg.QMGR_Q_CFG.QMAX 14339) 100).setFlag Reg.QMGR_BUF_BASE.EN true

def eup (s : State) : State := (s.setFlag Reg.ETH_STATUS.ETH0_UP true).setFlag Reg.ETH_STATUS.ETH1_UP true

/-- Octets as words. -/
def wordsOf (l : List Byte) : List Nat := (List.range (l.length / 8)).map fun i => leNat ((l.drop (8 * i)).take 8)

/-- A command of the protective path, and one whose CRC matches. -/
def cmdBody (src seq tgt : Nat) : List Byte := [0x50, 0x43] ++ leBytes 1 src ++ [1] ++ leBytes 4 seq ++ beBytes 8 tgt ++ List.replicate 12 0

def cmdOk (src seq tgt : Nat) : List Nat := wordsOf (cmdBody src seq tgt ++ leBytes 4 (crc32c (cmdBody src seq tgt)))

/-- Words in the command FIFO, and a record's flags. -/
def pushed (s : State) (l : List Nat) : State := { s with safe := { s.safe with words := l.take 3 } }

def safeRec (s : State) (r f : Nat) : State := s.ddrWrite (recordBase s r + 0x0B) (leBytes 1 f)

/-- Soft values of bits, of a header word and of a codeword, at magnitudes whose scaling leaves no fraction. -/
def softOf (l : List Bool) : List Int := l.map fun b => if b then -16 else 16

def hdrSoft (h : Nat) : List Int := softOf ((List.replicate 4 (wordBits h)).flatten)

def psduOf (l : List Byte) : List Byte := l ++ leBytes 4 (crc32 l)

def wps (l : List Byte) : List Byte := whitened (psduOf l)

def cwLevels : List Int := [16, 8, 16, 24, 16, 8, 16, 8, 24, 24, 24, 24, 8, 8, 8, 8]

def cwSoft (z cr : Nat) (l : List Byte) (k : Nat) : List Int := (codewordBits z cr ((l.drop (k * z)).take z)).zipIdx.map fun b => let v := cwLevels.getD (b.2 / z) 16; if b.1 then -v else v

/-- A codeword whose first check is never met. -/
def badSoft : List Int := (List.range 128).map fun i => if i = 1 then -16 else if [11, 30, 34, 53, 59, 65, 72].contains i then 16 else 0

/-- A frame that a lane received. -/
def heard : Heard := { claim := 1, fe := 0, bin := 3, mode := 1, firstNs := 1000000, endNs := 9000000, syncNs := 2000000, rssi := -200, passed := true }

/-- The base point: the owner's public key whose private key is 1. -/
def gOct : List Byte := beBytes 32 pGx ++ beBytes 32 pGy

/-- An owner message, signed with private key 1 and nonce 1. -/
def keyHead (type : Nat) : List Byte := leBytes 4 0x4B45594D ++ leBytes 2 type ++ leBytes 2 (msgLength type) ++ leBytes 8 0x1122 ++ leBytes 4 0 ++ List.replicate 12 0

def keyBody (type : Nat) (b : List Byte) : List Byte := keyHead type ++ b ++ List.replicate (msgLength type - 96 - b.length) 0

def keyMsg (type : Nat) (b : List Byte) : List Byte :=
  let m := keyBody type b
  m ++ beBytes 32 pGx ++ beBytes 32 ((beNat (sha256 m) + pGx) % pOrder)

/-- Octets in the JTAG message buffer. -/
def inJtag (l : List Byte) (s : State) : State := s.setKeys { s.keys with jtagBuf := ((wordsOf (l ++ List.replicate (7 - (l.length + 7) % 8) 0)).zipIdx.filter fun p => p.1 ≠ 0).map fun p => (p.2, BitVec.ofNat 64 p.1) }

/-- An owner generation, an identity key, and an operation under way. -/
def withOwner (s : State) : State := ({ s with mem := { s.mem with otp := ((wordsOf gOct).zipIdx).map fun (p : Nat × Nat) => (32 + p.2, (BitVec.ofNat 64 p.1 : Word)) } }.setFlag Reg.KEYS_STATUS.CUR_VALID true).set Reg.KEYS_DEVICE_ID.DEVICE_ID 0x1122

def idOne (s : State) : State := (slotPut s 0 1 1 false 0x10 (beBytes 32 1)).setFlag Reg.KEYS_STATUS.LADDER true

def keyOps (lc : Nat) (o : KeysOp) : State := let s := withOwner (atNs run 50); { s with keys := { s.keys with op := some o, sensed := true, lc := lc } }

/-- A lease frame's payload. -/
def leaseP (type unit fl epoch seq time act sf hash : Nat) (good : Bool) : List Byte :=
  let m := [0xB7, 0x2A, 0x01] ++ leBytes 1 type ++ leBytes 1 unit ++ leBytes 1 fl ++ [0, 0] ++ beBytes 4 epoch ++ beBytes 4 seq ++ beBytes 8 time ++ beBytes 5 act ++ leBytes 1 sf ++ [0, 0] ++ beBytes 4 hash ++ [0, 0, 0, 0]
  m ++ (if good then (hmac [] m).take 16 else List.replicate 16 0)

/-- A list of one SF_COMMIT entry and the state after it: no front end has CIR, so no rate is exceeded. -/
def sauStart : State := (((((run.setFlag Reg.MAC_SAU_STATUS.BUSY true).set Reg.MAC_SAU_CTRL.COUNT 1).set Reg.DDRC_STATUS.SIZE_GIB 1).set Reg.MAC_SAU_LIST.ADDR 0x100000000).set Reg.MAC_SAU_ACT_ASN.ACT_ASN 100).ddrWrite lp4xBase (leBytes 8 (2 ^ 56) ++ leBytes 8 (2 ^ 63))

def sauRun : Except Nat State := sauApplyAll ((List.range 1).map (sauEntry sauStart 0x1000000000)) 0 (sauStart.advance 0)

def sauNext : State := match sauRun with
  | .ok x => x
  | _ => sauStart

theorem sauRun_ok : sauRun = .ok sauNext := by
  have h : (match sauRun with | .ok _ => true | _ => false) = true := by decide +kernel
  unfold sauNext
  revert h
  cases sauRun <;> simp

theorem sauRun_next : sauApplyAll ((List.range (sauStart.get Reg.MAC_SAU_CTRL.COUNT)).map (sauEntry sauStart (sauStart.get Reg.MAC_SAU_LIST.ADDR * 16))) 0 (sauStart.advance 0) = .ok sauNext := by
  have h := sauRun_ok
  have n : sauStart.get Reg.MAC_SAU_CTRL.COUNT = 1 := by decide +kernel
  have l : sauStart.get Reg.MAC_SAU_LIST.ADDR * 16 = 0x1000000000 := by decide +kernel
  unfold sauRun at h
  rw [n, l]
  exact h

theorem sauNext_rates (p : Nat) (h : p ∈ List.range 7) : rateFails sauNext p = false := by
  have c : ∀ p ∈ List.range 7, cirSum sauNext p = 0 := by decide +kernel
  unfold rateFails
  rw [c p h]
  simp

theorem sauNext_items : lowestItem (scheduleChecks sauNext) = none := by decide +kernel

theorem sauNext_duty : (sauNext.hear.subbands.find? fun b => dutyFails sauNext b) = none := by decide +kernel

theorem sauNext_allRates : (List.range 7).find? (rateFails sauNext) = none := by
  rw [List.find?_eq_none]
  intro p h r
  rw [sauNext_rates p h] at r
  cases r

theorem scheduleCause_none (s : State) (a : lowestItem (scheduleChecks s) = none)
    (b : (s.hear.subbands.find? fun b => dutyFails s b) = none) (c : (List.range 7).find? (rateFails s) = none) : scheduleCause s = none := by
  unfold scheduleCause
  generalize (List.range 7).find? (rateFails s) = x at c ⊢
  generalize lowestItem (scheduleChecks s) = y at a ⊢
  generalize (s.hear.subbands.find? fun b => dutyFails s b) = z at b ⊢
  subst a b c
  rfl

theorem sauNext_passes : scheduleCause sauNext = none := scheduleCause_none sauNext sauNext_items sauNext_duty sauNext_allRates

/-! Witnesses. -/

theorem witness_AccessesThatEndInBusErrors :
    (∃ (s : State) (init : Init) (b : Nat) (o : Nat) (n : Fin 4), b < 26 ∧ o < 0x10000 ∧ reachesReg s init b o n = true ∧
      ((n.val = 2 ∧ o % 4 = 0 ∧ (b = 1 ∨ b = 2 ∨ b = 14)) ∨ n.val ≤ 1 ∨ o % 2 ^ n.val ≠ 0)) :=
  ⟨(run), (.core 2), (1), (0x100), (2), by decide +kernel⟩

theorem witness_OffsetsWithoutRegister :
    (∃ (s : State) (init : Init) (b : Nat) (o : Nat) (n : Fin 4) (ecc : Ecc), powered s = true ∧ b < 26 ∧ o < 0x10000 ∧
      reachesReg s init b o n = true ∧ (n.val = 3 ∨ n.val = 2 ∧ b ≠ 1 ∧ b ≠ 2 ∧ b ≠ 14) ∧ o % 2 ^ n.val = 0 ∧
      Reg.rowAt (b * 0x10000 + o / 8 * 8) = none ∧ ecc ≠ .uncorrectable) ∧
    (∃ (s : State) (init : Init) (b : Nat) (o : Nat) (n : Fin 4), powered s = true ∧ b < 26 ∧ o < 0x10000 ∧
      reachesReg s init b o n = true ∧ (n.val = 3 ∨ n.val = 2 ∧ b ≠ 1 ∧ b ≠ 2 ∧ b ≠ 14) ∧ o % 2 ^ n.val = 0 ∧
      Reg.rowAt (b * 0x10000 + o / 8 * 8) = none) :=
  ⟨⟨(run), (.core 2), (10), (0xF000), (3), (.ok), by decide +kernel⟩,
   ⟨(run), (.core 2), (10), (0xF000), (3), by decide +kernel⟩⟩

theorem witness_AccessCodesOfWrites :
    (∃ (s : State) (init : Init) (b : Fin 26), powered s = true ∧ reachesReg s init b 0xFFF8 3 = true) ∧
    (∃ (s : State) (init : Init) (ecc : Ecc), powered s = true ∧ reachesReg s init 10 0x30 3 = true ∧ ecc ≠ .uncorrectable) ∧
    (∃ (s : State) (init : Init), powered s = true ∧ reachesReg s init 10 0x30 3 = true) ∧
    (∃ (s : State) (init : Init) (ecc : Ecc), powered s = true ∧ ecc ≠ .uncorrectable ∧ reachesReg s init 5 0x38 2 = true) ∧
    (∃ (s : State) (init : Init) (ecc : Ecc), powered s = true ∧ ecc ≠ .uncorrectable ∧ reachesReg s init 5 0x3C 2 = true) ∧
    (∃ (s : State) (init : Init) (ecc : Ecc), powered s = true ∧ reachesReg s init 0 0x48 3 = true ∧ ecc ≠ .uncorrectable) :=
  ⟨⟨(run.set Reg.SYS_RESET_CAUSE.CORE 1), (.core 2), (10), by decide +kernel⟩,
   ⟨(run.set Reg.SYS_RESET_CAUSE.CORE 1), (.core 2), (.ok), by decide +kernel⟩,
   ⟨(run.set Reg.SYS_RESET_CAUSE.CORE 1), (.core 2), by decide +kernel⟩,
   ⟨(run.set Reg.SYS_RESET_CAUSE.CORE 1), (.core 2), (.ok), by decide +kernel⟩,
   ⟨(run.set Reg.SYS_RESET_CAUSE.CORE 1), (.core 2), (.ok), by decide +kernel⟩,
   ⟨(run.set Reg.SYS_RESET_CAUSE.CORE 1), (.core 2), (.ok), by decide +kernel⟩⟩

theorem witness_ReadsThatClearAndPop :
    (∃ (s : State) (k : Nat) (init : Init), powered s = true ∧ k < 26 ∧ reachesReg s init k 0 3 = true) ∧
    (∃ (s : State) (init : Init) (ecc : Ecc), powered s = true ∧ ecc ≠ .uncorrectable ∧ reachesReg s init 0 0x118 3 = true) ∧
    (∃ (s : State) (init : Init) (ecc : Ecc), powered s = true ∧ ecc ≠ .uncorrectable ∧ reachesReg s init 0 0x11C 2 = true) ∧
    (∃ (s : State) (dt : Nat) (init : Init) (ecc : Ecc), powered s = true ∧ ecc ≠ .uncorrectable ∧ dt ≠ 0 ∧
      reachesReg s init 20 0x0 3 = true) ∧
    (∃ (s : State) (init : Init) (ecc : Ecc), powered s = true ∧ ecc ≠ .uncorrectable ∧ reachesReg s init 20 0x0 2 = true) ∧
    (∃ (s : State) (init : Init) (ecc : Ecc), powered s = true ∧ ecc ≠ .uncorrectable ∧ reachesReg s init 20 0x4 2 = true) ∧
    (∃ (s : State) (init : Init) (r : EventRec) (rest : List EventRec), powered s = true ∧ s.events = r :: rest ∧
      reachesReg s init 0 0x104 2 = true) ∧
    (∃ (s : State), powered s = true ∧ s.events = []) ∧
    (∃ (s : State), powered s = false) :=
  ⟨⟨({ (run.set Reg.SYS_EVENT_LOST.LOST 5).set Reg.HEALTH_STATUS.PEAK_TEMP 77 with events := [{ code := 1, source := 2, arg := 3, time := 4 }, { code := 9, source := 2, arg := 3, time := 4 }] } : State),
    (20), (.core 2), by decide +kernel⟩,
   ⟨({ (run.set Reg.SYS_EVENT_LOST.LOST 5).set Reg.HEALTH_STATUS.PEAK_TEMP 77 with events := [{ code := 1, source := 2, arg := 3, time := 4 }, { code := 9, source := 2, arg := 3, time := 4 }] } : State),
     (.core 2), (.ok), by decide +kernel⟩,
   ⟨({ (run.set Reg.SYS_EVENT_LOST.LOST 5).set Reg.HEALTH_STATUS.PEAK_TEMP 77 with events := [{ code := 1, source := 2, arg := 3, time := 4 }, { code := 9, source := 2, arg := 3, time := 4 }] } : State),
     (.core 2), (.ok), by decide +kernel⟩,
   ⟨({ (run.set Reg.SYS_EVENT_LOST.LOST 5).set Reg.HEALTH_STATUS.PEAK_TEMP 77 with events := [{ code := 1, source := 2, arg := 3, time := 4 }, { code := 9, source := 2, arg := 3, time := 4 }] } : State),
     (5), (.core 2), (.ok), by decide +kernel⟩,
   ⟨({ (run.set Reg.SYS_EVENT_LOST.LOST 5).set Reg.HEALTH_STATUS.PEAK_TEMP 77 with events := [{ code := 1, source := 2, arg := 3, time := 4 }, { code := 9, source := 2, arg := 3, time := 4 }] } : State),
     (.core 2), (.ok), by decide +kernel⟩,
   ⟨({ (run.set Reg.SYS_EVENT_LOST.LOST 5).set Reg.HEALTH_STATUS.PEAK_TEMP 77 with events := [{ code := 1, source := 2, arg := 3, time := 4 }, { code := 9, source := 2, arg := 3, time := 4 }] } : State),
     (.core 2), (.ok), by decide +kernel⟩,
   ⟨({ (run.set Reg.SYS_EVENT_LOST.LOST 5).set Reg.HEALTH_STATUS.PEAK_TEMP 77 with events := [{ code := 1, source := 2, arg := 3, time := 4 }, { code := 9, source := 2, arg := 3, time := 4 }] } : State),
     (.core 2), ({ code := 1, source := 2, arg := 3, time := 4 } : EventRec),
     ([{ code := 9, source := 2, arg := 3, time := 4 }]), by decide +kernel⟩,
   ⟨(run), by decide +kernel⟩,
   ⟨({ run with start := { off := true } } : State), by decide +kernel⟩⟩

theorem witness_MemoriesOverTheBus :
    (∃ (s : State) (init : Init) (p : BitVec 40) (n : Fin 4), powered s = true ∧ (init = .jtag →
      jtagReaches s p.toNat (2 ^ n.val) = true) ∧ s.inLp4x p.toNat (2 ^ n.val) = true) ∧
    (∃ (s : State) (p : BitVec 40) (n : Fin 4), powered s = true ∧ ((Init.sheepdog) = .jtag →
      jtagReaches s p.toNat (2 ^ n.val) = true) ∧ 0x1000_0000 ≤ p.toNat ∧ p.toNat + 2 ^ n.val ≤ 0x1004_0000) ∧
    (∃ (s : State) (p : BitVec 40) (n : Fin 4), powered s = true ∧ ((Init.jtag) = .jtag →
      jtagReaches s p.toNat (2 ^ n.val) = true) ∧ n.val = 3 ∧ keysAccess s = true) :=
  ⟨⟨(withRecs run), (.core 2), (0x1000000200), (0), by decide +kernel⟩,
   ⟨(withRecs run), (0x10000200), (0), by decide +kernel⟩,
   ⟨((withRecs run).setFlag Reg.KEYS_STATUS.DEBUG true), (0x1000000200), (3), by decide +kernel⟩⟩

theorem witness_ShadowsAndPcie :
    (∃ (s : State) (init : Init), powered s = true ∧ reachesReg s init 4 0x68 3 = true) ∧
    (∃ (s : State) (v : Word), s.start.off = false ∧ s.aon.writes = [.reg 0x40068 v none]) ∧
    (∃ (s : State) (v : Word), s.start.off = false ∧ s.aon.writes = [.reg 0x40068 v (some false)]) ∧
    (∃ (s : State), s.start.off = true) ∧
    (∃ (s : State) (lanes : Nat) (speed : Nat), 0 < lanes ∧ 0 < speed ∧ Boot.IMAGE_VERIFY ≤ s.boot) ∧
    (∃ (s : State) (lanes : Nat) (speed : Nat), (lanes = 0 ∨ speed = 0 ∨ s.boot < Boot.IMAGE_VERIFY)) ∧
    (∃ (s : State), s.flag Reg.PCIE_STATUS.LINK_UP = false) ∧
    (∃ (s : State) (bar : PcieBar) (ofs : Nat), s.flag Reg.PCIE_STATUS.LINK_UP = true ∧ s.boot = Boot.SAFE ∧ powered s = true ∧
      (0x10000 ≤ ofs ∨ bar = .bar2)) ∧
    (∃ (s : State) (ecc : Ecc), s.flag Reg.PCIE_STATUS.LINK_UP = true ∧ s.boot = Boot.SAFE ∧ powered s = true ∧
      ecc ≠ .uncorrectable) ∧
    (∃ (s : State), s.flag Reg.PCIE_STATUS.LINK_UP = true ∧ s.boot = Boot.SAFE ∧ powered s = true) :=
  ⟨⟨(run), (.core 0), by decide +kernel⟩,
   ⟨({ (run.setFlag Reg.PCIE_STATUS.MSI_EN true).set Reg.GOOSE_WAKE_AT.TICK 0x123456789ABC with aon := { run.aon with writes := [.reg 0x40068 (0x8000000000000055) (none)] } } : State),
     (0x8000000000000055), by decide +kernel⟩,
   ⟨({ (run.setFlag Reg.PCIE_STATUS.MSI_EN true).set Reg.GOOSE_WAKE_AT.TICK 0x123456789ABC with aon := { run.aon with writes := [.reg 0x40068 (0x8000000000000055) (some false)] } } : State),
     (0x8000000000000055), by decide +kernel⟩,
   ⟨({ run with start := { off := true } } : State), by decide +kernel⟩,
   ⟨(run), (2), (3), by decide +kernel⟩,
   ⟨(State.reset), (0), (1), by decide +kernel⟩,
   ⟨(run), by decide +kernel⟩,
   ⟨((inState Boot.SAFE).setFlag Reg.PCIE_STATUS.LINK_UP true), (.bar0), (0x10000), by decide +kernel⟩,
   ⟨((inState Boot.SAFE).setFlag Reg.PCIE_STATUS.LINK_UP true), (.ok), by decide +kernel⟩,
   ⟨((inState Boot.SAFE).setFlag Reg.PCIE_STATUS.LINK_UP true), by decide +kernel⟩⟩

theorem witness_PowerResets :
    (∃ (s : State), s.settled ∧ s.start.off = false) ∧
    (∃ (s : State), s.settled ∧ powered s = true) ∧
    (∃ (s : State), s.settled ∧ s.start.off = true) :=
  ⟨⟨(run), by unfold State.settled; decide +kernel⟩,
   ⟨(run), by unfold State.settled; decide +kernel⟩,
   ⟨({ run with start := { off := true } } : State), by unfold State.settled; decide +kernel⟩⟩

theorem witness_Restarts :
    (∃ (s : State) (v : Word), powered s = true ∧ s.settled ∧ bits v.toNat 63 32 = 0xA5C30F96) ∧
    (∃ (s : State), powered s = true ∧ s.settled ∧ s.flag Reg.KEYS_STATUS.DEBUG = true) ∧
    (∃ (s : State) (dt : Nat) (at_ : _), powered s = true ∧ s.settled ∧ s.safe.wdReset = some at_ ∧
      (s.advance dt).elapsedMs at_ 1 = true) ∧
    (∃ (s : State) (v : Word), powered s = true ∧ bits v.toNat 63 32 ≠ 0xA5C30F96) :=
  ⟨⟨(run.setFlag Reg.KEYS_STATUS.DEBUG true), (0xA5C30F9600000000), by unfold State.settled; decide +kernel⟩,
   ⟨(run.setFlag Reg.KEYS_STATUS.DEBUG true), by unfold State.settled; decide +kernel⟩,
   ⟨({ run with safe := { wdReset := some 0 } } : State), (614400), (0), by unfold State.settled; decide +kernel⟩,
   ⟨(run), (0x1), by decide +kernel⟩⟩

theorem witness_StartStates :
    (∃ (s : State), powered s = true ∧ s.boot = Boot.AON_ONLY) ∧
    (∃ (s : State), powered s = true ∧ s.boot = Boot.BOOT_ROM ∧ s.flag Reg.SAFE_STATUS.SAFE = false) ∧
    (∃ (s : State), powered s = true ∧ s.boot = Boot.BOOT_ROM ∧ bootHdrOk s = true) ∧
    (∃ (s : State), powered s = true ∧ s.boot = Boot.LIFE_CYCLE_READ ∧ s.keys.sensed = false) :=
  ⟨⟨(State.reset), by decide +kernel⟩,
   ⟨(inState Boot.BOOT_ROM), by decide +kernel⟩,
   ⟨((inState Boot.BOOT_ROM).flashWrite 0 (bootHdr ++ leBytes 4 (crc32 bootHdr))), by decide +kernel⟩,
   ⟨(inState Boot.LIFE_CYCLE_READ), by decide +kernel⟩⟩

theorem witness_VerifyAndAdmit :
    (∃ (s : State) (dt : Nat), s.boot = Boot.IMAGE_VERIFY ∧ s.flag Reg.XSPI_UPD_STATUS.PENDING = false ∧
      stagedCandidate (s.advance dt) = false) ∧
    (∃ (s : State), s.boot = Boot.ADMIT) :=
  ⟨⟨(inState Boot.IMAGE_VERIFY), (0), by decide +kernel⟩,
   ⟨(inState Boot.ADMIT), by decide +kernel⟩⟩

theorem witness_CalibratePhases :
    (∃ (s : State) (k : Nat), s.boot = Boot.CALIBRATE ∧ s.start.calPhase = 0 ∧ 1 ≤ k ∧ k ≤ 3) ∧
    (∃ (s : State), s.boot = Boot.CALIBRATE ∧ s.start.calPhase = 2) ∧
    (∃ (s : State), s.boot = Boot.CALIBRATE ∧ s.start.calPhase = 3 ∧ s.start.lost = none) ∧
    (∃ (s : State), s.boot = Boot.CALIBRATE ∧ s.start.calPhase ≠ 3) :=
  ⟨⟨(inState Boot.CALIBRATE), (3), by decide +kernel⟩,
   ⟨({ inState Boot.CALIBRATE with start := { calPhase := 2 } } : State), by decide +kernel⟩,
   ⟨({ inState Boot.CALIBRATE with start := { calPhase := 3, lost := none } } : State), by decide +kernel⟩,
   ⟨(inState Boot.CALIBRATE), by decide +kernel⟩⟩

theorem witness_UpdateCopyAndMigration :
    (∃ (s : State) (w : Swap), s.boot = Boot.UPDATE_COPY ∧ s.upd.swap = some w ∧ w.phase < 2) ∧
    (∃ (s : State) (w : Swap), s.boot = Boot.UPDATE_COPY ∧ s.upd.swap = some w ∧ w.again = false) ∧
    (∃ (s : State) (w : Swap), s.boot = Boot.UPDATE_COPY ∧ s.upd.swap = some w ∧ w.again = true ∧
      s.flag Reg.SAFE_STATUS.SAFE = false) ∧
    (∃ (s : State) (dt : Nat), s.boot = Boot.MIGRATE ∧ (s.advance dt).elapsedSec s.upd.migTick (coresField s 4 2) = true) ∧
    (∃ (s : State), s.upd.copying = true ∧ s.upd.commit = false) :=
  ⟨⟨({ inState Boot.UPDATE_COPY with upd := { swap := some { block := 2, phase := 1, back := false } } } : State),
    ({ block := 2, phase := 1, back := false } : Swap), by decide +kernel⟩,
   ⟨({ inState Boot.UPDATE_COPY with upd := { swap := some { block := 2, phase := 1, back := false } } } : State),
     ({ block := 2, phase := 1, back := false } : Swap), by decide +kernel⟩,
   ⟨({ inState Boot.UPDATE_COPY with upd := { swap := some { block := 2, phase := 0, back := false, again := true } } } : State),
     ({ block := 2, phase := 0, back := false, again := true } : Swap), by decide +kernel⟩,
   ⟨(inState Boot.MIGRATE), (614400000000), by decide +kernel⟩,
   ⟨({ inState Boot.MIGRATE with upd := { copying := true } } : State), by decide +kernel⟩⟩

theorem witness_FlashOperations :
    (∃ (s : State), s.flag Reg.XSPI_PROG_STATUS.BUSY = false) ∧
    (∃ (s : State) (o : ProgOp), s.upd.prog = some o ∧ progCause s o = 0) ∧
    (∃ (s : State) (o : ProgOp), s.upd.prog = some o ∧
      rangeAllowed s (if o.erase then o.ofs / 65536 * 65536 else o.ofs) (if o.erase then 65536 else o.len) = false) ∧
    (∃ (s : State) (kind : Fin 3), Cells.get s.nv.programming (kind.val + 1) 0 ≠ 0 ∧ hwmUsed s (hwmActive s) < 4096) :=
  ⟨⟨(run), by decide +kernel⟩,
   ⟨({ run with upd := { prog := some { erase := false, src := 0x1000000000, ofs := 0x7FF0000, len := 4 } } } : State),
     ({ erase := false, src := 0x1000000000, ofs := 0x7FF0000, len := 4 } : ProgOp), by decide +kernel⟩,
   ⟨({ run with upd := { prog := some { erase := true, src := 0, ofs := 0x30000, len := 0 } } } : State),
     ({ erase := true, src := 0, ofs := 0x30000, len := 0 } : ProgOp), by decide +kernel⟩,
   ⟨({ run with nv := { programming := [(2, 5)] } } : State), (1), by decide +kernel⟩⟩

theorem witness_UpdateAndFlock :
    (∃ (s : State), s.flag Reg.XSPI_UPD_STATUS.BUSY = false ∧ s.inRun = true ∧ s.flag Reg.XSPI_UPD_STATUS.PENDING = false ∧
      s.flag Reg.XSPI_UPD_STATUS.TRIAL = false) ∧
    (∃ (s : State), s.flag Reg.XSPI_UPD_STATUS.BUSY = false ∧ s.inRun = true ∧ s.flag Reg.XSPI_UPD_STATUS.TRIAL = true ∧
      (jView s).swap.isNone = true) ∧
    (∃ (s : State), s.flag Reg.XSPI_UPD_STATUS.BUSY = false ∧ s.upd.cmd = some 1) ∧
    (∃ (s : State), s.inRun = true ∧ s.flag Reg.MAC_FLOCK_CTRL.EN = true ∧ s.flag Reg.MAC_FLOCK_BASE.PRESENT = true ∧
      s.flag Reg.MAC_FLOCK_STATUS.ROUND_BUSY = false) ∧
    (∃ (s : State), s.flag Reg.MAC_FLOCK_STATUS.ROUND_BUSY = true ∧ (∀ w ∈ s.mac.floods, w.flock = none)) :=
  ⟨⟨(run), by decide +kernel⟩,
   ⟨(run.setFlag Reg.XSPI_UPD_STATUS.TRIAL true), by decide +kernel⟩,
   ⟨({ run with upd := { cmd := some 1 } } : State), by decide +kernel⟩,
   ⟨(((run.setFlag Reg.MAC_FLOCK_CTRL.EN true).setFlag Reg.MAC_FLOCK_BASE.PRESENT true)), by decide +kernel⟩,
   ⟨((run.setFlag Reg.MAC_FLOCK_STATUS.ROUND_BUSY true)), by decide +kernel⟩⟩

theorem witness_ScheduleAdmission :
    (∃ (s : State) (dt : Nat) (v : Word), s.flag Reg.MAC_SAU_STATUS.BUSY = false ∧ (s.flag Reg.MAC_SAU_STATUS.PENDING = false ∨
      v.getLsbD 62 = true ∧ (s.sau.pending.any (fun p => slotReached (s.advance dt) p.1)) = false)) ∧
    (∃ (s : State) (dt : Nat) (v : Word), s.flag Reg.MAC_SAU_STATUS.BUSY = false ∧ s.flag Reg.MAC_SAU_STATUS.PENDING = true ∧
      (v.getLsbD 62 = false ∨ (s.sau.pending.any (fun p => slotReached (s.advance dt) p.1)) = true)) ∧
    (∃ (s : State) (v : Word), s.flag Reg.MAC_SAU_STATUS.BUSY = true ∧ v.getLsbD 62 = false) ∧
    (∃ (s : State) (dt : Nat) (v : Word), s.flag Reg.MAC_SAU_STATUS.PENDING = true ∧ v.getLsbD 63 = false ∧
      (s.sau.pending.any (fun p => slotReached (s.advance dt) p.1)) = false) ∧
    (∃ (s : State) (dt : Nat) (v : Word), v.getLsbD 63 = false ∧
      (s.sau.pending.any (fun p => slotReached (s.advance dt) p.1)) = true) ∧
    (∃ (s : State) (dt : Nat) (after : State), s.flag Reg.MAC_SAU_STATUS.BUSY = true ∧ 1 ≤ (s.get Reg.MAC_SAU_CTRL.COUNT) ∧
      (s.get Reg.MAC_SAU_CTRL.COUNT) ≤ 4096 ∧
      s.inLp4x (s.get Reg.MAC_SAU_LIST.ADDR * 16) (16 * (s.get Reg.MAC_SAU_CTRL.COUNT)) = true ∧
      sauApplyAll ((List.range (s.get Reg.MAC_SAU_CTRL.COUNT)).map (sauEntry s (s.get Reg.MAC_SAU_LIST.ADDR * 16))) 0 (s.advance dt) = .ok after ∧
      scheduleCause after = none ∧ later 40 (s.get Reg.MAC_SAU_ACT_ASN.ACT_ASN) (asnNow (s.advance dt)) = true) ∧
    (∃ (s : State), s.flag Reg.MAC_SAU_STATUS.BUSY = true ∧ s.get Reg.MAC_SAU_CTRL.COUNT = 0) :=
  ⟨⟨(let s := (atNs run 50000).setFlag Reg.MAC_STATUS.TSCH_ON true; { s with sau := { s.sau with pending := some (0, []) } }),
    (0), (5), by decide +kernel⟩,
   ⟨(let s := (atNs run 50000).setFlag Reg.MAC_STATUS.TSCH_ON true |>.setFlag Reg.MAC_SAU_STATUS.PENDING true; { s with sau := { s.sau with pending := some (0, []) } }),
     (0), (0x4000000000000005), by decide +kernel⟩,
   ⟨(((((run.setFlag Reg.MAC_SAU_STATUS.BUSY true).set Reg.MAC_SAU_CTRL.COUNT 1).set Reg.DDRC_STATUS.SIZE_GIB 1).set Reg.MAC_SAU_LIST.ADDR 0x100000000).set Reg.MAC_SAU_ACT_ASN.ACT_ASN 100 |>.ddrWrite lp4xBase (leBytes 8 (2 ^ 56) ++ leBytes 8 (2 ^ 63))),
     (5), by decide +kernel⟩,
   ⟨(run.setFlag Reg.MAC_SAU_STATUS.PENDING true), (0), (5), by decide +kernel⟩,
   ⟨(let s := (atNs run 50000).setFlag Reg.MAC_STATUS.TSCH_ON true; { s with sau := { s.sau with pending := some (0, []) } }),
     (0), (5), by decide +kernel⟩,
   ⟨sauStart, 0, sauNext, by decide +kernel, by decide +kernel, by decide +kernel, by decide +kernel, sauRun_next,
     sauNext_passes, by decide +kernel⟩,
   ⟨(run.setFlag Reg.MAC_SAU_STATUS.BUSY true), by decide +kernel⟩⟩

theorem witness_GainAndEntryCalibration :
    (∃ (s : State) (fe : Fin 3) (n : Nat) (peak : Int), s.flag (Reg.FE_AGC_CTRL.FREEZE fe) = false ∧ 8 < n ∧
      -(s.get (Reg.FE_AGC_CTRL.CLIP_DBFS fe) : Int) < peak ∧ s.get (Reg.FE_AGC_STATUS.GAIN_STATE fe) < 3) ∧
    (∃ (s : State) (fe : Fin 3) (n : Nat) (peak : Int), s.flag (Reg.FE_AGC_CTRL.FREEZE fe) = false ∧
      10 * max 1 (s.get (Reg.FE_AGC_CTRL.UP_WAIT fe)) ≤ n ∧ peak < -(2 * s.get (Reg.FE_AGC_CTRL.LOW_DBFS fe) : Int) ∧
      0 < s.get (Reg.FE_AGC_STATUS.GAIN_STATE fe) ∧ s.get (Reg.FE_AGC_STATUS.GAIN_STATE fe) ≤ 3) ∧
    (∃ (s : State) (fe : Fin 3), s.flag (Reg.FE_AGC_CTRL.FREEZE fe) = true) ∧
    (∃ (s : State) (dt : Nat) (fe : Fin 3) (i : Nat), (s.fe fe).used ≤ 512 ∧ i < (s.fe fe).used ∧
      tempDue (s.advance dt) fe = false) ∧
    (∃ (s : State) (dt : Nat) (fe : Fin 3) (i : Nat), (s.fe fe).used ≤ 512 ∧ i < (s.fe fe).used ∧
      tempDue (s.advance dt) fe = true ∧ calState s fe i = Cal.VALID) ∧
    (∃ (s : State) (dt : Nat) (fe : Fin 3) (i : Nat), (s.fe fe).used ≤ 512 ∧ i < (s.fe fe).used ∧ s.inRun = true ∧
      (s.fe fe).cal = none ∧ idleChain (s.advance dt) fe = true ∧ requestNext s fe = none ∧
      s.flag (Reg.FE_TXCAL_CTRL.BG_EN fe) = true ∧ bgNext s fe = some i) ∧
    (∃ (s : State) (fe : Fin 3) (i : Nat), (s.fe fe).used ≤ 512 ∧ i < (s.fe fe).used ∧
      (s.fe fe).cal = some { entry := i, requested := false }) :=
  ⟨⟨(run.set (Reg.FE_AGC_STATUS.GAIN_STATE 1) 2), (1), (9), (0), by decide +kernel⟩,
   ⟨(run.set (Reg.FE_AGC_STATUS.GAIN_STATE 1) 3), (1), (10000), (-100), by decide +kernel⟩,
   ⟨(run.setFlag (Reg.FE_AGC_CTRL.FREEZE 1) true), (1), by decide +kernel⟩,
   ⟨(((atNs run 5000).setFe 1 { run.fe1 with used := 4 }).set (Reg.FE_TXCAL_ENTRY.STATE 1 2) Cal.VALID), (0), (1), (2),
     by decide +kernel⟩,
   ⟨(((run.setFe 1 { run.fe1 with used := 4 }).set (Reg.FE_TXCAL_ENTRY.STATE 1 2) Cal.VALID)), (0), (1), (2),
     by decide +kernel⟩,
   ⟨(((((run.setFe 1 { run.fe1 with used := 4 }).set (Reg.FE_TXCAL_ENTRY.STATE 1 2) Cal.STALE).setFlag (Reg.FE_STATUS.TX_IN_SERVICE 1) true).setFlag (Reg.FE_TXCAL_CTRL.BG_EN 1) true)),
     (0), (1), (2), by decide +kernel⟩,
   ⟨(((run.setFe 1 { run.fe1 with used := 4, cal := some { entry := 2, requested := false } }))), (1), (2), by decide +kernel⟩⟩

theorem witness_EmissionsRun :
    (∃ (s : State) (dt : Nat) (fe : Fin 3) (e : Emission), nextCommitted s fe = some e ∧ e.phase = .committed ∧
      emitting s fe = none ∧ (s.fe fe).cal = none ∧ e.nominalNs ≤ (s.advance dt).time.ns + settleNs s fe e ∧
      (s.fe fe).lastChipNs + lagNs s fe ≤ (s.advance dt).time.ns) ∧
    (∃ (s : State) (fe : Fin 3) (e : Emission), inPhase s fe .hopping = some e ∧ e.scratch = false ∧ e.entry < 512) ∧
    (∃ (s : State) (fe : Fin 3) (e : Emission), inPhase s fe .locked = some e ∧ listening s e = false) ∧
    (∃ (s : State) (dt : Nat) (fe : Fin 3) (e : Emission), nextCommitted s fe = some e ∧ e.phase ≠ .locked ∧
      e.deadline ≤ (s.advance dt).time.ns) ∧
    (∃ (s : State) (dt : Nat) (fe : Fin 3) (e : Emission), emitting s fe = some e ∧
      e.startNs + e.airNs ≤ (s.advance dt).time.ns) :=
  ⟨⟨(withEm 1 (emi .committed (.beacon 0)) (atNs run 900000)), (0), (1), (emi .committed (.beacon 0)), by decide +kernel⟩,
   ⟨(withEm 1 (emi .hopping (.beacon 0)) ((atNs run 900000).set (Reg.FE_TXCAL_ENTRY.STATE 1 3) Cal.STALE)), (1),
     (emi .hopping (.beacon 0)), by decide +kernel⟩,
   ⟨(withEm 1 (emi .locked (.beacon 0)) (atNs run 900000)), (1), (emi .locked (.beacon 0)), by decide +kernel⟩,
   ⟨(withEm 1 (emi .hopping (.beacon 0)) (atNs run 900000000)), (0), (1), (emi .hopping (.beacon 0)), by decide +kernel⟩,
   ⟨(withEm 1 (emi .emitting (.beacon 0)) (atNs run 900000000)), (0), (1), (emi .emitting (.beacon 0)), by decide +kernel⟩⟩

theorem witness_LockLossMaskAndBlanking :
    (∃ (s : State) (dt : Nat) (fe : Fin 3) (e : Emission), emitting s fe = some e ∧ (fe = 2 ∨
      (s.advance dt).time.ns < e.startNs + ((s.fe fe).maskDone + 1) * 100000)) ∧
    (∃ (s : State) (dt : Nat) (fe : Fin 3) (e : Emission) (seg : Nat), fe ≠ 2 ∧ emitting s fe = some e ∧
      e.startNs + ((s.fe fe).maskDone + 1) * 100000 ≤ (s.advance dt).time.ns ∧ seg < 32 ∧
      s.flag (Reg.FE_MASK_SEG.EN fe seg) = true) ∧
    (∃ (s : State) (dt : Nat) (fe : Fin 3) (emitter : Fin 3) (e : Emission), blankingFor (s.advance dt) emitter = some e ∧
      blanks s emitter fe = true ∧ emitter.val ∉ (s.fe fe).blankedBy) ∧
    (∃ (s : State) (dt : Nat) (fe : Fin 3) (emitter : Fin 3), (s.fe fe).blankedBy = [emitter.val] ∧ emitting s emitter = none ∧
      blankingFor (s.advance dt) emitter = none ∧ (s.fe emitter).lastChipNs + 15000 ≤ (s.advance dt).time.ns) :=
  ⟨⟨((withEm 1 (emi .emitting (.beacon 0)) (atNs run 50000)).setFlag (Reg.FE_MASK_SEG.EN 1 31) true), (0), (1),
    (emi .emitting (.beacon 0)), by decide +kernel⟩,
   ⟨((withEm 1 (emi .emitting (.beacon 0)) (atNs run 900000000)).setFlag (Reg.FE_MASK_SEG.EN 1 31) true), (0), (1),
     (emi .emitting (.beacon 0)), (31), by decide +kernel⟩,
   ⟨((withEm 1 (emi .emitting (.beacon 0)) (atNs run 900000000)).setFlag (Reg.FE_MASK_SEG.EN 1 31) true), (0), (1), (1),
     (emi .emitting (.beacon 0)), by decide +kernel⟩,
   ⟨((atNs run 1000000).setFe 0 { run.fe0 with blankedBy := [1] }), (0), (0), (1), by decide +kernel⟩⟩

theorem witness_CalibrationRequests :
    (∃ (s : State) (dt : Nat) (fe : Fin 3) (entry : Nat) (c : Instr) (kind : Nat),
      (c, kind) ∈ [(Instr.calReqAdc dt fe, 1), (.calReqIq dt fe, 2), (.calReqLoLeakage dt fe, 3)] ∧
      s.flag (Reg.FE_CAL_STATUS.BUSY fe) = false ∧ entry < 512 ∧ entry < (s.fe fe).used ∧ entry < tableSize fe) ∧
    (∃ (s : State) (dt : Nat) (fe : Fin 3) (entry : Nat) (c : Instr) (kind : Nat),
      (c, kind) ∈ [(Instr.calReqAdc dt fe, 1), (.calReqIq dt fe, 2), (.calReqLoLeakage dt fe, 3)] ∧
      s.flag (Reg.FE_CAL_STATUS.BUSY fe) = false ∧ entry < 512 ∧ (s.fe fe).used ≤ entry) ∧
    (∃ (s : State) (dt : Nat) (fe : Fin 3) (c : Instr) (kind : Nat),
      (c, kind) ∈ [(Instr.calReqAdc dt fe, 1), (.calReqIq dt fe, 2), (.calReqLoLeakage dt fe, 3)] ∧
      (s.fe fe).request = some { kind := kind, entries := [] }) ∧
    (∃ (s : State) (dt : Nat) (fe : Fin 3) (c : Instr) (kind : Nat) (r : _),
      (c, kind) ∈ [(Instr.calReqAdc dt fe, 1), (.calReqIq dt fe, 2), (.calReqLoLeakage dt fe, 3)] ∧ (s.fe fe).request = some r ∧
      (r.kind = 4 ∨ r.kind = 5)) ∧
    (∃ (s : State) (dt : Nat) (fe : Fin 3) (c : Instr) (kind : Nat) (r : _),
      (c, kind) ∈ [(Instr.calReqAdc dt fe, 1), (.calReqIq dt fe, 2), (.calReqLoLeakage dt fe, 3)] ∧ (s.fe fe).request = some r ∧
      r.kind = 6 ∧ 0 < (s.fe fe).dpdUs) ∧
    (∃ (s : State) (dt : Nat) (fe : Fin 3) (c : Instr) (kind : Nat) (r : _),
      (c, kind) ∈ [(Instr.calReqAdc dt fe, 1), (.calReqIq dt fe, 2), (.calReqLoLeakage dt fe, 3)] ∧ (s.fe fe).request = some r ∧
      r.kind = 6 ∧ (s.fe fe).dpdUs = 0) ∧
    (∃ (s : State) (dt : Nat) (fe : Fin 3) (c : Instr) (kind : Nat),
      (c, kind) ∈ [(Instr.calReqAdc dt fe, 1), (.calReqIq dt fe, 2), (.calReqLoLeakage dt fe, 3)] ∧
      s.flag (Reg.FE_CAL_STATUS.BUSY fe) = true) :=
  ⟨⟨((run.setFe 1 { run.fe 1 with used := 5 })), (0), (1), (3), (.calReqAdc (0) (1)), (1), by decide +kernel⟩,
   ⟨(run), (0), (1), (0), (.calReqIq (0) (1)), (2), by decide +kernel⟩,
   ⟨(((run.setFlag (Reg.FE_CAL_STATUS.BUSY 1) true).setFe 1 { run.fe 1 with request := some { kind := 3, entries := [] } })),
     (0), (1), (.calReqLoLeakage (0) (1)), (3), by decide +kernel⟩,
   ⟨(run.setFlag (Reg.FE_CAL_STATUS.BUSY 1) true |>.setFe 1 { run.fe 1 with request := some (({ kind := 4, entries := [], failed := true } : CalRequest)), used := 5, dpdUs := 0 }),
     (5), (1), (.calReqAdc (5) (1)), (1), (({ kind := 4, entries := [], failed := true } : CalRequest)), by decide +kernel⟩,
   ⟨(run.setFlag (Reg.FE_CAL_STATUS.BUSY 1) true |>.setFe 1 { run.fe 1 with request := some (({ kind := 6, entries := [], failed := true } : CalRequest)), used := 5, dpdUs := 70 }),
     (5), (1), (.calReqAdc (5) (1)), (1), (({ kind := 6, entries := [], failed := true } : CalRequest)), by decide +kernel⟩,
   ⟨(run.setFlag (Reg.FE_CAL_STATUS.BUSY 1) true |>.setFe 1 { run.fe 1 with request := some (({ kind := 6, entries := [], failed := true } : CalRequest)), used := 5, dpdUs := 0 }),
     (5), (1), (.calReqAdc (5) (1)), (1), (({ kind := 6, entries := [], failed := true } : CalRequest)), by decide +kernel⟩,
   ⟨(((run.setFlag (Reg.FE_CAL_STATUS.BUSY 1) true).setFe 1 { run.fe 1 with request := some { kind := 3, entries := [] } })),
     (0), (1), (.calReqLoLeakage (0) (1)), (3), by decide +kernel⟩⟩

theorem witness_DetectionsAndLanes :
    (∃ (s : State) (dt : Nat) (d : Detect), declares (s.advance dt) d = false) ∧
    (∃ (s : State) (dt : Nat) (d : Detect), declares (s.advance dt) d = true ∧ divSuppressed (s.advance dt) d = true) ∧
    (∃ (s : State) (dt : Nat) (d : Detect) (n : Nat), declares (s.advance dt) d = true ∧
      divSuppressed (s.advance dt) d = false ∧ (matchingReservation (s.advance dt) d.fe d.bin = some n ∨
      (matchingReservation (s.advance dt) d.fe d.bin = none ∧ laneForDetection (s.advance dt) (isWide d.fe) = some n))) ∧
    (∃ (s : State) (dt : Nat) (d : Detect), declares (s.advance dt) d = true ∧ divSuppressed (s.advance dt) d = false ∧
      matchingReservation (s.advance dt) d.fe d.bin = none ∧ laneForDetection (s.advance dt) (isWide d.fe) = none) ∧
    (∃ (s : State) (dt : Nat) (p : PendingRsv), s.hear.pendingRsv = [p] ∧ p.windowTo ≤ antennaNs (s.advance dt) p.fe) ∧
    (∃ (s : State) (dt : Nat) (n : Nat) (p : PendingRsv), s.hear.pendingRsv = [p] ∧ antennaNs (s.advance dt) p.fe < p.windowTo ∧
      (freeLanes s (isWide p.fe)).head? = some n) ∧
    (∃ (s : State) (dt : Nat) (n : Nat) (sync : Nat) (m : LaneMeasure) (l : Lane), laneAt s n = l ∧ l.stage = .acquire ∧
      syncAccepted s l sync = true ∧ pipeNs l.fe ≤ m.syncAt ∧ syncTimely (s.advance dt) l (m.syncAt - pipeNs l.fe) = true) ∧
    (∃ (s : State) (dt : Nat) (n : Nat) (sync : Nat) (m : LaneMeasure) (l : Lane), laneAt s n = l ∧ l.stage = .syncSearch ∧
      syncAccepted s l sync = true ∧ pipeNs l.fe ≤ m.syncAt ∧ syncTimely (s.advance dt) l (m.syncAt - pipeNs l.fe) = true) ∧
    (∃ (s : State) (n : Nat) (sync : Nat) (l : Lane), laneAt s n = l ∧ syncAccepted s l sync = false) ∧
    (∃ (s : State) (dt : Nat) (n : Nat) (l : Lane), laneAt s n = l ∧ l.stage = .acquire ∧
      l.allocNs + symbolsNs l.mode 16 ≤ antennaNs (s.advance dt) l.fe) ∧
    (∃ (s : State) (dt : Nat) (n : Nat) (l : Lane), laneAt s n = l ∧ (l.stage = .acquire ∨ l.stage = .syncSearch) ∧
      l.allocNs + symbolsNs l.mode l.syncWait ≤ antennaNs (s.advance dt) l.fe) ∧
    (∃ (s : State) (dt : Nat) (n : Nat) (h : PhyHeader) (l : Lane) (x : _), laneAt s n = l ∧ l.stage = .header ∧
      l.syncNs + syncNsOf l.mode + headerNsOf l.mode ≤ antennaNs (s.advance dt) l.fe ∧ (∀ e ∈ s.ox.jobs, e.1 ≠ n) ∧
      headerAccept s l.fe l.bin l.mode l.maxAirtime s.free h = some x) ∧
    (∃ (s : State) (dt : Nat) (n : Nat) (h : PhyHeader) (l : Lane), laneAt s n = l ∧ l.stage = .header ∧
      l.syncNs + syncNsOf l.mode + headerNsOf l.mode ≤ antennaNs (s.advance dt) l.fe ∧ (∀ e ∈ s.ox.jobs, e.1 ≠ n) ∧
      headerAccept s l.fe l.bin l.mode l.maxAirtime s.free h = none) ∧
    (∃ (s : State) (dt : Nat) (n : Nat) (l : Lane), laneAt s n = l ∧ l.stage = .payload ∧
      l.endNs + feNs l.fe ≤ (s.advance dt).time.ns) ∧
    (∃ (s : State) (dt : Nat) (n : Nat) (l : Lane), laneAt s n = l ∧ l.stage = .payload ∧
      (s.advance dt).time.ns < l.endNs + feNs l.fe) ∧
    (∃ (s : State) (dt : Nat) (n : Nat) (l : Lane) (k : _), laneAt s n = l ∧
      (openLanes (s.advance dt) false ++ openLanes (s.advance dt) true).head? = some k) ∧
    (∃ (s : State) (n : Nat) (l : Lane), laneAt s n = l ∧ l.stage = .inject) :=
  ⟨⟨(atNs rxs 60000), (10), (det), by decide +kernel⟩,
   ⟨(withLane (atNs ({ rxs.setFlag (Reg.FE_STATUS.RX_IN_SERVICE 1) true with hear := { subbands := [band, { band with fe := 1 }] } }) 130000) 4 { stage := .payload, fe := 1, bin := 3 , timingNs := 5000 }),
     (10), (det), by decide +kernel⟩,
   ⟨(atNs rxs 130000), (10), (det), (0), by decide +kernel⟩,
   ⟨(atNs (([0,1,2,3] : List Nat).foldl (fun s i => s.set (Reg.CHAN_LANE_EXCL.EXCL i) (2^64-1)) rxs) 130000), (10), (det),
     by decide +kernel⟩,
   ⟨(atNs ({ rxs with hear := { rxs.hear with pendingRsv := [({ cell := 7, fe := 0, bin := 3, windowFrom := 0, windowTo := 90 } : PendingRsv)] } }) 100000),
     (10), ({ cell := 7, fe := 0, bin := 3, windowFrom := 0, windowTo := 90 } : PendingRsv), by decide +kernel⟩,
   ⟨(atNs ({ rxs with hear := { rxs.hear with pendingRsv := [({ cell := 7, fe := 0, bin := 3, windowFrom := 0, windowTo := 900000 } : PendingRsv)] } }) 100000),
     (10), (0), ({ cell := 7, fe := 0, bin := 3, windowFrom := 0, windowTo := 900000 } : PendingRsv), by decide +kernel⟩,
   ⟨(withLane (atNs rxs 500000) 2 ({ stage := .acquire, bin := 3, syncWait := 48, allocNs := 100 } : Lane)), (10), (2),
     (syncWord), ({ mea with syncAt := 62001 } : LaneMeasure),
     ({ stage := .acquire, bin := 3, syncWait := 48, allocNs := 100 } : Lane), by decide +kernel⟩,
   ⟨(withLane (atNs rxs 500000) 2 ({ stage := .syncSearch, bin := 3, syncWait := 48, allocNs := 100 } : Lane)), (10), (2),
     (syncWord), ({ mea with syncAt := 62001 } : LaneMeasure),
     ({ stage := .syncSearch, bin := 3, syncWait := 48, allocNs := 100 } : Lane), by decide +kernel⟩,
   ⟨(withLane (atNs rxs 500000) 2 ({ stage := .acquire, bin := 3, syncWait := 48, allocNs := 100 } : Lane)), (2), (0),
     ({ stage := .acquire, bin := 3, syncWait := 48, allocNs := 100 } : Lane), by decide +kernel⟩,
   ⟨(withLane (atNs rxs 500000) 2 ({ stage := .acquire, bin := 3, syncWait := 48, allocNs := 100 } : Lane)), (10), (2),
     ({ stage := .acquire, bin := 3, syncWait := 48, allocNs := 100 } : Lane), by decide +kernel⟩,
   ⟨(withLane (atNs rxs 500000) 2 ({ stage := .acquire, bin := 3, syncWait := 48, allocNs := 100 } : Lane)), (10), (2),
     ({ stage := .acquire, bin := 3, syncWait := 48, allocNs := 100 } : Lane), by decide +kernel⟩,
   ⟨(withLane (atNs rxs 100000000000) 2 ({ stage := .header, bin := 3, mode := 1, maxAirtime := 400, syncNs := 5000000 } : Lane)),
     (10), (2), (.fostaic (hdrSoft (headerWord 5 20 2 0 1))),
     ({ stage := .header, bin := 3, mode := 1, maxAirtime := 400, syncNs := 5000000 } : Lane),
     ((headerAccept (withLane (atNs rxs 100000000000) 2 ({ stage := .header, bin := 3, mode := 1, maxAirtime := 400, syncNs := 5000000 } : Lane)) ({ stage := .header, bin := 3, mode := 1, maxAirtime := 400, syncNs := 5000000 } : Lane).fe ({ stage := .header, bin := 3, mode := 1, maxAirtime := 400, syncNs := 5000000 } : Lane).bin ({ stage := .header, bin := 3, mode := 1, maxAirtime := 400, syncNs := 5000000 } : Lane).mode ({ stage := .header, bin := 3, mode := 1, maxAirtime := 400, syncNs := 5000000 } : Lane).maxAirtime (withLane (atNs rxs 100000000000) 2 ({ stage := .header, bin := 3, mode := 1, maxAirtime := 400, syncNs := 5000000 } : Lane)).free (.fostaic (hdrSoft (headerWord 5 20 2 0 1)))).getD { z := 0, len := 0, air256 := 0 }),
     by decide +kernel⟩,
   ⟨(withLane (atNs rxs 100000000000) 2 ({ stage := .header, bin := 3, mode := 2, maxAirtime := 400, syncNs := 5000000 } : Lane)),
     (10), (2), (.fostaic (hdrSoft (headerWord 5 20 2 0 1))),
     ({ stage := .header, bin := 3, mode := 2, maxAirtime := 400, syncNs := 5000000 } : Lane), by decide +kernel⟩,
   ⟨(withLane (atNs rxs 100000000) 2 ({ stage := .payload, bin := 3, endNs := 5 } : Lane)), (10), (2),
     ({ stage := .payload, bin := 3, endNs := 5 } : Lane), by decide +kernel⟩,
   ⟨(withLane (atNs rxs 100000000) 2 ({ stage := .payload, bin := 3, endNs := 100000000000 } : Lane)), (10), (2),
     ({ stage := .payload, bin := 3, endNs := 100000000000 } : Lane), by decide +kernel⟩,
   ⟨(withLane (atNs rxs 100000000) 2 ({ stage := .inject } : Lane)), (10), (2), ({ stage := .inject } : Lane), (0),
     by decide +kernel⟩,
   ⟨(withLane (atNs rxs 100000000) 2 ({ stage := .inject } : Lane)), (2), ({ stage := .inject } : Lane), by decide +kernel⟩⟩

theorem witness_Codewords :
    (∃ (s : State) (dt : Nat) (n : Nat) (j : DecodeJob) (soft : List Int), s.ox.jobs = [(n, j)] ∧ isFostaic j.mode = true ∧
      iterated (s.advance dt) j.startNs (decodeCodeword j.z j.cr j.octetsNow (decSetting (s.advance dt) j).1 (alphaActs (decSetting (s.advance dt) j).2) s.free soft).1 = true ∧
      (decodeCodeword j.z j.cr j.octetsNow (decSetting (s.advance dt) j).1 (alphaActs (decSetting (s.advance dt) j).2) s.free soft).2 = none) ∧
    (∃ (s : State) (dt : Nat) (n : Nat) (j : DecodeJob) (soft : List Int) (o : List Byte), s.ox.jobs = [(n, j)] ∧
      isFostaic j.mode = true ∧
      iterated (s.advance dt) j.startNs (decodeCodeword j.z j.cr j.octetsNow (decSetting (s.advance dt) j).1 (alphaActs (decSetting (s.advance dt) j).2) s.free soft).1 = true ∧
      (decodeCodeword j.z j.cr j.octetsNow (decSetting (s.advance dt) j).1 (alphaActs (decSetting (s.advance dt) j).2) s.free soft).2 = some o ∧
      j.done + 1 < codewords j.len j.z) ∧
    (∃ (s : State) (dt : Nat) (n : Nat) (j : DecodeJob) (soft : List Int) (o : List Byte), s.ox.jobs = [(n, j)] ∧
      isFostaic j.mode = true ∧
      iterated (s.advance dt) j.startNs (decodeCodeword j.z j.cr j.octetsNow (decSetting (s.advance dt) j).1 (alphaActs (decSetting (s.advance dt) j).2) s.free soft).1 = true ∧
      (decodeCodeword j.z j.cr j.octetsNow (decSetting (s.advance dt) j).1 (alphaActs (decSetting (s.advance dt) j).2) s.free soft).2 = some o ∧
      codewords j.len j.z ≤ j.done + 1) ∧
    (∃ (s : State) (dt : Nat) (n : Nat) (j : DecodeJob) (soft : List Int), s.ox.jobs = [(n, j)] ∧ isFostaic j.mode = true ∧
      iterated (s.advance dt) j.startNs (decodeCodeword j.z j.cr j.octetsNow (decSetting (s.advance dt) j).1 (alphaActs (decSetting (s.advance dt) j).2) s.free soft).1 = false) ∧
    (∃ (s : State) (dt : Nat) (n : Nat) (j : DecodeJob), s.ox.jobs = [(n, j)] ∧ isFostaic j.mode = false ∧
      j.endNs + feNs j.fe ≤ (s.advance dt).time.ns) :=
  ⟨⟨(withLane { ((atNs run 90000000).set Reg.OX_DEC_CTRL.ALPHA 8 |>.set Reg.CHAN_STATUS.MODE modeSTORM) with ox := { run.ox with jobs := [(4, ({ job with z := 8, len := 12 } : DecodeJob))] } } 4 { stage := .payload, claim := 1 }),
    (3), (4), ({ job with z := 8, len := 12 } : DecodeJob), (badSoft), by decide +kernel⟩,
   ⟨(withLane { ((atNs run 90000000).set Reg.OX_DEC_CTRL.ALPHA 8) with ox := { run.ox with jobs := [(4, ({ job with z := 8, len := 12 } : DecodeJob))] } } 4 { stage := .payload, claim := 1 }),
     (3), (4), ({ job with z := 8, len := 12 } : DecodeJob), (cwSoft 8 0 (wps ([1,2,3,4] : List Byte)) 0),
     ((wps ([1,2,3,4] : List Byte))), by decide +kernel⟩,
   ⟨(withLane { ((atNs run 90000000).set Reg.OX_DEC_CTRL.ALPHA 8) with ox := { run.ox with jobs := [(4, ({ job with z := 8, len := 8 } : DecodeJob))] } } 4 { stage := .payload, claim := 1 }),
     (3), (4), ({ job with z := 8, len := 8 } : DecodeJob), (cwSoft 8 0 (wps ([1,2,3,4] : List Byte)) 0),
     ((wps ([1,2,3,4] : List Byte))), by decide +kernel⟩,
   ⟨(withLane { ((atNs run 100).set Reg.OX_DEC_CTRL.ALPHA 8) with ox := { run.ox with jobs := [(4, ({ job with z := 8, len := 12 } : DecodeJob))] } } 4 { stage := .payload, claim := 1 }),
     (3), (4), ({ job with z := 8, len := 12 } : DecodeJob), (cwSoft 8 0 (wps ([1,2,3,4] : List Byte)) 0), by decide +kernel⟩,
   ⟨(withLane { ((atNs run 90000000).set Reg.OX_DEC_CTRL.ALPHA 8) with ox := { run.ox with jobs := [(4, ({ job with mode := 15, fcs2 := true, len := 6 } : DecodeJob))] } } 4 { stage := .payload, claim := 1 }),
     (3), (4), ({ job with mode := 15, fcs2 := true, len := 6 } : DecodeJob), by decide +kernel⟩⟩

theorem witness_HearingAndCapture :
    (∃ (s : State) (dt : Nat), s.inRun = true ∧ sampleDue (s.advance dt) = true ∧ s.get Reg.CHAN_STATUS.MODE ≠ modeSTORM ∧
      bit (s.get Reg.CHAN_HEAR_CTRL.PERMIT) 2 = true ∧ s.get Reg.HEALTH_STATUS.PROFILE ≠ 3 ∧
      s.flag Reg.CHAN_HEAR_CTRL.FORCE_STORM = true) ∧
    (∃ (s : State) (dt : Nat), s.inRun = true ∧ sampleDue (s.advance dt) = true ∧ s.get Reg.CHAN_STATUS.MODE ≠ modeSTORM ∧
      bit (s.get Reg.CHAN_HEAR_CTRL.PERMIT) 2 = true ∧ s.get Reg.HEALTH_STATUS.PROFILE ≠ 3 ∧
      s.flag Reg.CHAN_HEAR_CTRL.FORCE_STORM = false ∧ s.flag Reg.CHAN_HEAR_CTRL.AUTO_STORM = true ∧
      9 * enabledBoth s (s.get Reg.CHAN_STATUS.MODE) < 10 * occupiedLanes s ∧ 199 ≤ s.get Reg.CHAN_OCC_STATUS.ABOVE_MS) ∧
    (∃ (s : State) (dt : Nat), s.inRun = true ∧ sampleDue (s.advance dt) = true ∧ s.get Reg.CHAN_STATUS.MODE = modeSTORM ∧
      s.flag Reg.CHAN_HEAR_CTRL.FORCE_STORM = false ∧ 2 * occupiedLanes s < enabledBoth s (baseMode s) ∧
      1999 ≤ s.get Reg.CHAN_OCC_STATUS.BELOW_MS) ∧
    (∃ (s : State) (dt : Nat), (s.inRun = false ∨ sampleDue (s.advance dt) = false)) ∧
    (∃ (s : State) (dt : Nat) (k : Fin 32) (c : Context), ctxAt s k = c ∧ ctxDue (s.advance dt) k = true) ∧
    (∃ (s : State) (dt : Nat) (k : Fin 32) (c : Context), ctxAt s k = c ∧ ctxDue (s.advance dt) k = false) ∧
    (∃ (s : State) (k : Fin 32) (c : Context) (n : Nat) (rest : List Nat), ctxAt s k = c ∧ ctxCount s .processing < 8 ∧
      s.ox.queue = n :: rest) ∧
    (∃ (s : State) (k : Fin 32) (c : Context) (href : Heard), ctxAt s k = c ∧ c.stage = .processing ∧ c.layer = 0 ∧
      laneReference s c = some href ∧ isFD href.mode = true) ∧
    (∃ (s : State) (k : Fin 32) (c : Context) (f : LayerFrame), ctxAt s k = c ∧ c.stage = .processing ∧ (c.layer ≠ 0 ∨
      laneReference s c = none) ∧ layerFits s c f (f.m.syncAt - preambleNs f.mode) = false) ∧
    (∃ (s : State) (k : Fin 32) (c : Context) (f : LayerFrame) (j : DecodeJob), ctxAt s k = c ∧ c.stage = .processing ∧
      (c.layer ≠ 0 ∨ laneReference s c = none) ∧ layerFits s c f (f.m.syncAt - preambleNs f.mode) = true ∧
      layerJob s c f = some j ∧
      (decodeAll (iterCap s) (alphaActs (s.get Reg.OX_DEC_CTRL.ALPHA)) s.free (codewords j.len j.z) j f.soft).2 = none) ∧
    (∃ (s : State) (k : Fin 32) (c : Context) (f : LayerFrame) (j : DecodeJob) (o : List Byte), ctxAt s k = c ∧
      c.stage = .processing ∧ (c.layer ≠ 0 ∨ laneReference s c = none) ∧
      layerFits s c f (f.m.syncAt - preambleNs f.mode) = true ∧ layerJob s c f = some j ∧
      (decodeAll (iterCap s) (alphaActs (s.get Reg.OX_DEC_CTRL.ALPHA)) s.free (codewords j.len j.z) j f.soft).2 = some o ∧
      psduCrcOk (whitened o) = true ∧ alreadyPassed s j = false) ∧
    (∃ (s : State) (k : Fin 32) (c : Context) (f : LayerFrame) (j : DecodeJob) (o : List Byte), ctxAt s k = c ∧
      c.stage = .processing ∧ (c.layer ≠ 0 ∨ laneReference s c = none) ∧
      layerFits s c f (f.m.syncAt - preambleNs f.mode) = true ∧ layerJob s c f = some j ∧
      (decodeAll (iterCap s) (alphaActs (s.get Reg.OX_DEC_CTRL.ALPHA)) s.free (codewords j.len j.z) j f.soft).2 = some o ∧
      psduCrcOk (whitened o) = true ∧ alreadyPassed s j = true) :=
  ⟨⟨(((atNs run 70000000).setFlag Reg.CHAN_HEAR_CTRL.FORCE_STORM true).set Reg.CHAN_HEAR_CTRL.PERMIT 7), (0),
    by decide +kernel⟩,
   ⟨((((List.range 288).foldl (fun s n => withLane s n { stage := .payload }) (atNs run 70000000)).setFlag Reg.CHAN_HEAR_CTRL.AUTO_STORM true).set Reg.CHAN_HEAR_CTRL.PERMIT 7 |>.set Reg.CHAN_OCC_STATUS.ABOVE_MS 199),
     (0), by decide +kernel⟩,
   ⟨((((atNs run 70000000).set Reg.CHAN_STATUS.MODE modeSTORM).set Reg.CHAN_HEAR_CTRL.PERMIT 7 |>.set Reg.CHAN_OCC_STATUS.BELOW_MS 1999)),
     (0), by decide +kernel⟩,
   ⟨(((atNs run 70500000).setFlag Reg.CHAN_HEAR_CTRL.FORCE_STORM true).set Reg.CHAN_HEAR_CTRL.PERMIT 7), (0),
     by decide +kernel⟩,
   ⟨(let s := (((withRecs (atNs rxs 70000000)).set Reg.OX_CAP_BASE.ADDR 262144).setFlag Reg.OX_CAP_BASE.EN true).set Reg.CHAN_STATUS.MODE modeDEEP; let s := setCtx s 5 ({ stage := .recording, bin := 3, startNs := 1000000 } : Context); s),
     (0), (5), ({ stage := .recording, bin := 3, startNs := 1000000 } : Context), by decide +kernel⟩,
   ⟨(let s := (((withRecs (atNs rxs 2000000)).set Reg.OX_CAP_BASE.ADDR 262144).setFlag Reg.OX_CAP_BASE.EN true).set Reg.CHAN_STATUS.MODE modeDEEP; let s := setCtx s 5 ({ stage := .recording, bin := 3, startNs := 1000000 } : Context); s),
     (0), (5), ({ stage := .recording, bin := 3, startNs := 1000000 } : Context), by decide +kernel⟩,
   ⟨(let s := (((withRecs (atNs rxs 70000000)).set Reg.OX_CAP_BASE.ADDR 262144).setFlag Reg.OX_CAP_BASE.EN true).set Reg.CHAN_STATUS.MODE modeDEEP; let s := setCtx s 5 ({ stage := .queued } : Context); { s with ox := { s.ox with queue := [5] } }),
     (5), ({ stage := .queued } : Context), (5), ([]), by decide +kernel⟩,
   ⟨(let s := (((withRecs ((atNs rxs 70000000).set Reg.OX_DEC_CTRL.ALPHA 8)).set Reg.OX_CAP_BASE.ADDR 262144).setFlag Reg.OX_CAP_BASE.EN true).set Reg.CHAN_STATUS.MODE modeDEEP; let s := setCtx s 5 ({ stage := .processing, bin := 3, layerMax := 4, layer := 0, startNs := 1000000, endNs := 65000000 } : Context); { s with ox := { s.ox with heard := [heard] } }),
     (5), ({ stage := .processing, bin := 3, layerMax := 4, layer := 0, startNs := 1000000, endNs := 65000000 } : Context),
     ((laneReference (let s := (((withRecs ((atNs rxs 70000000).set Reg.OX_DEC_CTRL.ALPHA 8)).set Reg.OX_CAP_BASE.ADDR 262144).setFlag Reg.OX_CAP_BASE.EN true).set Reg.CHAN_STATUS.MODE modeDEEP; let s := setCtx s 5 ({ stage := .processing, bin := 3, layerMax := 4, layer := 0, startNs := 1000000, endNs := 65000000 } : Context); { s with ox := { s.ox with heard := [heard] } }) ({ stage := .processing, bin := 3, layerMax := 4, layer := 0, startNs := 1000000, endNs := 65000000 } : Context)).getD heard),
     by decide +kernel⟩,
   ⟨(let s := (((withRecs ((atNs rxs 70000000).set Reg.OX_DEC_CTRL.ALPHA 8)).set Reg.OX_CAP_BASE.ADDR 262144).setFlag Reg.OX_CAP_BASE.EN true).set Reg.CHAN_STATUS.MODE modeDEEP; let s := setCtx s 5 ({ stage := .processing, bin := 3, layerMax := 4, layer := 0, startNs := 1000000, endNs := 65000000 } : Context); { s with ox := { s.ox with heard := [] } }),
     (5), ({ stage := .processing, bin := 3, layerMax := 4, layer := 0, startNs := 1000000, endNs := 65000000 } : Context),
     ({ mode := 1, m := { mea with syncAt := 90000000 }, sync := syncWord, header := hdrSoft (headerWord 5 8 0 0 1), soft := [cwSoft 8 0 (wps ([1,2,3,4] : List Byte)) 0, cwSoft 8 0 (wps ([1,2,3,4] : List Byte)) 1] } : LayerFrame),
     by decide +kernel⟩,
   ⟨(let s := (((withRecs ((atNs rxs 70000000).set Reg.OX_DEC_CTRL.ALPHA 8)).set Reg.OX_CAP_BASE.ADDR 262144).setFlag Reg.OX_CAP_BASE.EN true).set Reg.CHAN_STATUS.MODE modeSTORM; let s := setCtx s 5 ({ stage := .processing, bin := 3, layerMax := 4, layer := 0, startNs := 1000000, endNs := 65000000 } : Context); { s with ox := { s.ox with heard := [] } }),
     (5), ({ stage := .processing, bin := 3, layerMax := 4, layer := 0, startNs := 1000000, endNs := 65000000 } : Context),
     ({ mode := 1, m := { mea with syncAt := 9000000 }, sync := syncWord, header := hdrSoft (headerWord 5 8 0 0 1), soft := [badSoft, []] } : LayerFrame),
     ((layerJob (let s := (((withRecs ((atNs rxs 70000000).set Reg.OX_DEC_CTRL.ALPHA 8)).set Reg.OX_CAP_BASE.ADDR 262144).setFlag Reg.OX_CAP_BASE.EN true).set Reg.CHAN_STATUS.MODE modeSTORM; let s := setCtx s 5 ({ stage := .processing, bin := 3, layerMax := 4, layer := 0, startNs := 1000000, endNs := 65000000 } : Context); { s with ox := { s.ox with heard := [] } }) ({ stage := .processing, bin := 3, layerMax := 4, layer := 0, startNs := 1000000, endNs := 65000000 } : Context) ({ mode := 1, m := { mea with syncAt := 9000000 }, sync := syncWord, header := hdrSoft (headerWord 5 8 0 0 1), soft := [badSoft, []] } : LayerFrame)).getD job),
     by decide +kernel⟩,
   ⟨(let s := (((withRecs ((atNs rxs 70000000).set Reg.OX_DEC_CTRL.ALPHA 8)).set Reg.OX_CAP_BASE.ADDR 262144).setFlag Reg.OX_CAP_BASE.EN true).set Reg.CHAN_STATUS.MODE modeDEEP; let s := setCtx s 5 ({ stage := .processing, bin := 3, layerMax := 4, layer := 0, startNs := 1000000, endNs := 65000000 } : Context); { s with ox := { s.ox with heard := [] } }),
     (5), ({ stage := .processing, bin := 3, layerMax := 4, layer := 0, startNs := 1000000, endNs := 65000000 } : Context),
     ({ mode := 1, m := { mea with syncAt := 9000000 }, sync := syncWord, header := hdrSoft (headerWord 5 8 0 0 1), soft := [cwSoft 8 0 (wps ([1,2,3,4] : List Byte)) 0, cwSoft 8 0 (wps ([1,2,3,4] : List Byte)) 1] } : LayerFrame),
     ((layerJob (let s := (((withRecs ((atNs rxs 70000000).set Reg.OX_DEC_CTRL.ALPHA 8)).set Reg.OX_CAP_BASE.ADDR 262144).setFlag Reg.OX_CAP_BASE.EN true).set Reg.CHAN_STATUS.MODE modeDEEP; let s := setCtx s 5 ({ stage := .processing, bin := 3, layerMax := 4, layer := 0, startNs := 1000000, endNs := 65000000 } : Context); { s with ox := { s.ox with heard := [] } }) ({ stage := .processing, bin := 3, layerMax := 4, layer := 0, startNs := 1000000, endNs := 65000000 } : Context) ({ mode := 1, m := { mea with syncAt := 9000000 }, sync := syncWord, header := hdrSoft (headerWord 5 8 0 0 1), soft := [cwSoft 8 0 (wps ([1,2,3,4] : List Byte)) 0, cwSoft 8 0 (wps ([1,2,3,4] : List Byte)) 1] } : LayerFrame)).getD job),
     (wps ([1,2,3,4] : List Byte)), by decide +kernel⟩,
   ⟨(let s := (((withRecs ((atNs rxs 70000000).set Reg.OX_DEC_CTRL.ALPHA 8)).set Reg.OX_CAP_BASE.ADDR 262144).setFlag Reg.OX_CAP_BASE.EN true).set Reg.CHAN_STATUS.MODE modeDEEP; let s := setCtx s 5 ({ stage := .processing, bin := 3, layerMax := 4, layer := 2, startNs := 1000000, endNs := 65000000 } : Context); { s with ox := { s.ox with heard := [{ heard with syncNs := 9000000 }] } }),
     (5), ({ stage := .processing, bin := 3, layerMax := 4, layer := 2, startNs := 1000000, endNs := 65000000 } : Context),
     ({ mode := 1, m := { mea with syncAt := 9000000 }, sync := syncWord, header := hdrSoft (headerWord 5 8 0 0 1), soft := [cwSoft 8 0 (wps ([1,2,3,4] : List Byte)) 0, cwSoft 8 0 (wps ([1,2,3,4] : List Byte)) 1] } : LayerFrame),
     ((layerJob (let s := (((withRecs ((atNs rxs 70000000).set Reg.OX_DEC_CTRL.ALPHA 8)).set Reg.OX_CAP_BASE.ADDR 262144).setFlag Reg.OX_CAP_BASE.EN true).set Reg.CHAN_STATUS.MODE modeDEEP; let s := setCtx s 5 ({ stage := .processing, bin := 3, layerMax := 4, layer := 2, startNs := 1000000, endNs := 65000000 } : Context); { s with ox := { s.ox with heard := [{ heard with syncNs := 9000000 }] } }) ({ stage := .processing, bin := 3, layerMax := 4, layer := 2, startNs := 1000000, endNs := 65000000 } : Context) ({ mode := 1, m := { mea with syncAt := 9000000 }, sync := syncWord, header := hdrSoft (headerWord 5 8 0 0 1), soft := [cwSoft 8 0 (wps ([1,2,3,4] : List Byte)) 0, cwSoft 8 0 (wps ([1,2,3,4] : List Byte)) 1] } : LayerFrame)).getD job),
     (wps ([1,2,3,4] : List Byte)), by decide +kernel⟩⟩

theorem witness_TimeslotsAndBeaconSource :
    (∃ (s : State) (dt : Nat), tschOn s = false ∧ s.inRun = true ∧ s.flag Reg.TIME_STATUS.STEP_USED = true ∧ 3 ∈ s.loaded ∧
      atBoundary (s.advance dt) = true) ∧
    (∃ (s : State) (dt : Nat), tschOn s = true ∧ s.inRun = true ∧ atBoundary (s.advance dt) = true ∧
      s.mac.lastAsn ≠ some (asnAt (s.advance dt) (s.advance dt).time.ns)) ∧
    (∃ (s : State) (dt : Nat), tschOn s = true ∧ tsrcOn s = true ∧ clsPrio s clsEB ≠ 0 ∧
      s.mac.tsrcNs + tsrcNs s ≤ (s.advance dt).time.ns) ∧
    (∃ (s : State) (dt : Nat) (t0 : Nat), s.flag Reg.TIME_STATUS.HOLDOVER = false ∧ s.mac.tsrcLost = some t0 ∧
      s.flag Reg.TIME_STATUS.EB_Q = false ∧ (s.advance dt).elapsedSec t0 (s.get Reg.TIME_SRC_CTRL.HOLDOVER_WAIT) = true ∧
      s.flag (Reg.MAC_TSRC_CFG.EN ((s.get Reg.MAC_STATUS.SRC + 1) % 4)) = true) :=
  ⟨⟨(atNs { run.setFlag Reg.TIME_STATUS.STEP_USED true with loaded := [3] } 0), (0), by decide +kernel⟩,
   ⟨(atNs ((run.setFlag Reg.MAC_STATUS.TSCH_ON true).set Reg.MAC_SLOT_0.SLOT_LEN 1000) 20000000), (0), by decide +kernel⟩,
   ⟨(atNs (((run.setFlag Reg.MAC_STATUS.TSCH_ON true).setFlag (Reg.MAC_TSRC_CFG.EN 0) true).set Reg.TIME_SRC_CTRL.PRIO_EB 1) 20000000000000),
     (0), by decide +kernel⟩,
   ⟨(let s := atNs (run.setFlag (Reg.MAC_TSRC_CFG.EN 1) true) 20000000; s.setMac { s.mac with tsrcLost := some 0 }),
     (6144000000000), (0), by decide +kernel⟩⟩

theorem witness_Commits :
    (∃ (s : State) (dt : Nat) (fe : Fin 3) (e : Emission) (c : Carrier) (p : Packet) (d : Debit),
      nextPlanned (s.advance dt) fe = some e ∧ e.carriers = [c] ∧ e.freeRun = none ∧ c.load = .data p d false ∧
      (∀ x ∈ (s.fe fe).emissions, x.committed = false) ∧ p.cls ≠ 0 ∧ p.record ≠ broadcast ∧ p.flood = none ∧
      s.flag (Reg.FE_STATUS.TX_IN_SERVICE fe) = true ∧ s.flag (Reg.FE_STATUS.MASK_STOPPED fe) = false ∧ (s.fe fe).cal = none ∧
      (fe.val = 2 ∨ (779000 ≤ c.freqKhz ∧ c.freqKhz ≤ 960000))) ∧
    (∃ (s : State) (dt : Nat) (fe : Fin 3) (e : Emission) (c : Carrier) (p : Packet) (d : Debit),
      nextPlanned (s.advance dt) fe = some e ∧ e.carriers = [c] ∧ e.freeRun = none ∧ c.load = .data p d false ∧
      (∃ x ∈ (s.fe fe).emissions, x.committed = true ∧ clashes (s.advance dt) fe x e = true)) ∧
    (∃ (s : State) (dt : Nat) (fe : Fin 3) (e : Emission) (c : Carrier) (p : Packet) (d : Debit),
      nextPlanned (s.advance dt) fe = some e ∧ e.carriers = [c] ∧ e.freeRun = none ∧ c.load = .data p d false ∧
      (∀ x ∈ (s.fe fe).emissions, x.committed = false) ∧ p.cls = 0 ∧ s.safeNow = true) :=
  ⟨⟨(withEm 0 (emi .planned (.data (pkt) (deb) false)) (atNs (setQueue run 3 [(pkt)] |>.setFlag (Reg.FE_STATUS.TX_IN_SERVICE 0) true) 900000)),
    (0), (0), (emi .planned (.data (pkt) (deb) false)), (car (.data (pkt) (deb) false)), (pkt), (deb), by decide +kernel⟩,
   ⟨(let s := atNs (setQueue run 3 [(pkt)]) 900000; s.setFe 0 { s.fe 0 with emissions := [(emi .planned (.data (pkt) (deb) false)), { emi .committed (.beacon 0) with nominalNs := 1000050 }] }),
     (0), (0), (emi .planned (.data (pkt) (deb) false)), (car (.data (pkt) (deb) false)), (pkt), (deb), by decide +kernel⟩,
   ⟨(withEm 0 (emi .planned (.data ({ pkt with cls := 0 } : Packet) (deb) false)) (atNs (setQueue run 3 [({ pkt with cls := 0 } : Packet)] |>.setFlag Reg.SAFE_STATUS.SAFE true) 900000)),
     (0), (0), (emi .planned (.data ({ pkt with cls := 0 } : Packet) (deb) false)),
     (car (.data ({ pkt with cls := 0 } : Packet) (deb) false)), ({ pkt with cls := 0 } : Packet), (deb), by decide +kernel⟩⟩

theorem witness_FailedAttempts :
    (∃ (s : State) (dt : Nat) (fe : Fin 3) (peak : Int) (peak2 : Int) (e : Emission) (c : Carrier) (p : Packet) (q : Packet) (d : Debit) (b : Bool),
      (s.fe fe).emissions = [e] ∧ e.phase ≠ .emitting ∧ e.kind = 0 ∧ e.freeRun = none ∧ e.carriers = [c] ∧ c.shared = true ∧
      c.assessed = false ∧ c.load = .data p d b ∧
      (e.nominalNs - s.get Reg.MAC_SLOT_0.TX_OFFSET * 1000 + s.get Reg.MAC_SLOT_1.CCA_OFFSET * 1000) + s.get Reg.MAC_SLOT_1.CCA_LEN * 1000 ≤ (s.advance dt).time.ns ∧
      (true) = (louder s fe peak (s.get Reg.MAC_CSMA_CTRL.CCA_THRESH) || (isFDW c.mode && louder s fe peak2 (s.get Reg.MAC_CSMA_CTRL.CCA_THRESH)) || ccaBlanked s fe (e.nominalNs - s.get Reg.MAC_SLOT_0.TX_OFFSET * 1000 + s.get Reg.MAC_SLOT_1.CCA_OFFSET * 1000)) ∧
      (e.committed = true ∨ b = true) ∧ retryOf s p.record = some q) ∧
    (∃ (s : State) (dt : Nat) (fe : Fin 3) (peak : Int) (peak2 : Int) (e : Emission) (c : Carrier) (p : Packet) (d : Debit),
      (s.fe fe).emissions = [e] ∧ e.phase ≠ .emitting ∧ e.kind = 0 ∧ e.freeRun = none ∧ e.carriers = [c] ∧ c.shared = true ∧
      c.assessed = false ∧ c.load = .data p d (false) ∧
      (e.nominalNs - s.get Reg.MAC_SLOT_0.TX_OFFSET * 1000 + s.get Reg.MAC_SLOT_1.CCA_OFFSET * 1000) + s.get Reg.MAC_SLOT_1.CCA_LEN * 1000 ≤ (s.advance dt).time.ns ∧
      (true) = (louder s fe peak (s.get Reg.MAC_CSMA_CTRL.CCA_THRESH) || (isFDW c.mode && louder s fe peak2 (s.get Reg.MAC_CSMA_CTRL.CCA_THRESH)) || ccaBlanked s fe (e.nominalNs - s.get Reg.MAC_SLOT_0.TX_OFFSET * 1000 + s.get Reg.MAC_SLOT_1.CCA_OFFSET * 1000)) ∧
      e.committed = false ∧ p.record ≠ broadcast ∧ retryOf s p.record = none ∧ s.get Reg.MAC_CSMA_CTRL.MAX_RETRIES ≠ 0) ∧
    (∃ (s : State) (dt : Nat) (fe : Fin 3) (peak : Int) (peak2 : Int) (e : Emission) (c : Carrier) (p : Packet) (d : Debit) (b : Bool),
      (s.fe fe).emissions = [e] ∧ e.phase ≠ .emitting ∧ e.kind = 0 ∧ e.freeRun = none ∧ e.carriers = [c] ∧ c.shared = true ∧
      c.assessed = false ∧ c.load = .data p d b ∧
      (e.nominalNs - s.get Reg.MAC_SLOT_0.TX_OFFSET * 1000 + s.get Reg.MAC_SLOT_1.CCA_OFFSET * 1000) + s.get Reg.MAC_SLOT_1.CCA_LEN * 1000 ≤ (s.advance dt).time.ns ∧
      (false) = (louder s fe peak (s.get Reg.MAC_CSMA_CTRL.CCA_THRESH) || (isFDW c.mode && louder s fe peak2 (s.get Reg.MAC_CSMA_CTRL.CCA_THRESH)) || ccaBlanked s fe (e.nominalNs - s.get Reg.MAC_SLOT_0.TX_OFFSET * 1000 + s.get Reg.MAC_SLOT_1.CCA_OFFSET * 1000))) ∧
    (∃ (s : State) (dt : Nat) (fe : Fin 3) (p : Packet) (q : Packet) (w : AckWait) (shared : Bool), s.mac.ackWaits = [w] ∧
      w.fe = fe.val ∧ w.record = p.record ∧ w.shared = shared ∧ w.toNs ≤ antennaNs (s.advance dt) fe ∧
      retryOf s p.record = some q ∧ ackInFlight s w = false) ∧
    (∃ (s : State) (fr : Fin 4) (peak : Int) (e : Emission) (r : FreeRun), runOf s fr = some r ∧ r.listening = true ∧
      (s.fe (frFe s fr)).emissions = [e] ∧ e.freeRun = some fr.val ∧ e.kind ≠ 1 ∧
      4 * toSigned 8 (s.get (Reg.MAC_FR.THRESH fr)) ≤ atAntenna s (frFe s fr) peak) ∧
    (∃ (s : State) (dt : Nat) (fr : Fin 4) (peak : Int) (e : Emission) (r : FreeRun), runOf s fr = some r ∧ r.listening = true ∧
      (s.fe (frFe s fr)).emissions = [e] ∧ e.freeRun = some fr.val ∧ e.kind ≠ 1 ∧
      atAntenna s (frFe s fr) peak < 4 * toSigned 8 (s.get (Reg.MAC_FR.THRESH fr)) ∧ r.untilNs ≤ (s.advance dt).time.ns) :=
  ⟨⟨(let s := withEm 0 ({ emi .committed (.data (pkt) (deb) (true)) with carriers := [({ car (.data (pkt) (deb) (true)) with shared := true } : Carrier)] } : Emission) (atNs (run.set Reg.MAC_CSMA_CTRL.CCA_THRESH 0) 5000000); { s with sched := { s.sched with retry := [({ pkt with tries := 1, retryMax := 2, be := 3, beMax := 5 } : Packet)] } }),
    (0), (0), (100), (0),
    ({ emi .committed (.data (pkt) (deb) (true)) with carriers := [({ car (.data (pkt) (deb) (true)) with shared := true } : Carrier)] } : Emission),
    ({ car (.data (pkt) (deb) (true)) with shared := true } : Carrier), (pkt),
    ({ pkt with tries := 1, retryMax := 2, be := 3, beMax := 5 } : Packet), (deb), (true), by decide +kernel⟩,
   ⟨(let s := withEm 0 ({ emi .planned (.data (pkt) (deb) (false)) with carriers := [({ car (.data (pkt) (deb) (false)) with shared := true } : Carrier)] } : Emission) (atNs (run.set Reg.MAC_CSMA_CTRL.CCA_THRESH 0) 5000000); s.set Reg.MAC_CSMA_CTRL.MAX_RETRIES 3),
     (0), (0), (100), (0),
     ({ emi .planned (.data (pkt) (deb) (false)) with carriers := [({ car (.data (pkt) (deb) (false)) with shared := true } : Carrier)] } : Emission),
     ({ car (.data (pkt) (deb) (false)) with shared := true } : Carrier), (pkt), (deb), by decide +kernel⟩,
   ⟨(let s := withEm 0 ({ emi .planned (.data (pkt) (deb) (false)) with carriers := [({ car (.data (pkt) (deb) (false)) with shared := true } : Carrier)] } : Emission) (atNs (run.set Reg.MAC_CSMA_CTRL.CCA_THRESH 0) 5000000); s.set Reg.MAC_CSMA_CTRL.CCA_THRESH 1),
     (0), (0), (-900), (-900),
     ({ emi .planned (.data (pkt) (deb) (false)) with carriers := [({ car (.data (pkt) (deb) (false)) with shared := true } : Carrier)] } : Emission),
     ({ car (.data (pkt) (deb) (false)) with shared := true } : Carrier), (pkt), (deb), (false), by decide +kernel⟩,
   ⟨(let s := (atNs (run.set Reg.MAC_CSMA_CTRL.CCA_THRESH 0) 5000000); { s with sched := { s.sched with retry := [({ pkt with tries := 1, retryMax := 2, be := 3, beMax := 5 } : Packet)] }, mac := { s.mac with ackWaits := [({ fe := 0, bin := 3, record := 5, fromNs := 3, toNs := 5, freeRun := none, shared := true } : AckWait)] } }),
     (0), (0), (pkt), ({ pkt with tries := 1, retryMax := 2, be := 3, beMax := 5 } : Packet),
     ({ fe := 0, bin := 3, record := 5, fromNs := 3, toNs := 5, freeRun := none, shared := true } : AckWait), (true),
     by decide +kernel⟩,
   ⟨(let s := withEm 0 ({ emi .planned (.data (pkt) (deb) true) with freeRun := some 0 } : Emission) (((atNs (run.set Reg.MAC_CSMA_CTRL.CCA_THRESH 0) 5000000).set (Reg.MAC_FR.MAX_TRIES 0) 0).set (Reg.MAC_FR.THRESH 0) 200); { s with sched := { s.sched with retry := [({ pkt with tries := 1, retryMax := 2, be := 3, beMax := 5 } : Packet)] }, mac := { s.mac with freeRuns := [(0, ({ be := 1, untilNs := 5, load := .data (pkt) (deb) true } : FreeRun))] } }),
     (0), (100), ({ emi .planned (.data (pkt) (deb) true) with freeRun := some 0 } : Emission),
     ({ be := 1, untilNs := 5, load := .data (pkt) (deb) true } : FreeRun), by decide +kernel⟩,
   ⟨(let s := withEm 0 ({ emi .planned (.data (pkt) (deb) true) with freeRun := some 0 } : Emission) (((atNs (run.set Reg.MAC_CSMA_CTRL.CCA_THRESH 0) 5000000).set (Reg.MAC_FR.MAX_TRIES 0) 0).set (Reg.MAC_FR.THRESH 0) 200); { s with sched := { s.sched with retry := [({ pkt with tries := 1, retryMax := 2, be := 3, beMax := 5 } : Packet)] }, mac := { s.mac with freeRuns := [(0, ({ be := 1, untilNs := 5, load := .data (pkt) (deb) true } : FreeRun))] } }),
     (0), (0), (-900), ({ emi .planned (.data (pkt) (deb) true) with freeRun := some 0 } : Emission),
     ({ be := 1, untilNs := 5, load := .data (pkt) (deb) true } : FreeRun), by decide +kernel⟩⟩

theorem witness_FloodsAndWakePatterns :
    (∃ (s : State) (dt : Nat) (w : FloodWait), s.mac.floods = [w] ∧ w.flock = none ∧
      s.mac.floodWindow ≠ some ((s.advance dt).time.ns / 20000000) ∧ nvReady s NvKind.FSEQ = true) ∧
    (∃ (s : State) (v : Word), v.getLsbD 63 = true ∧ s.flag Reg.MAC_WAKE_STATUS.BUSY = true) ∧
    (∃ (s : State) (v : Word), v.getLsbD 63 = true ∧ s.flag Reg.MAC_WAKE_STATUS.BUSY = false) ∧
    (∃ (s : State) (dt : Nat) (w : Wake), s.mac.wake = some w ∧ w.admitted = false ∧ holder s = true ∧ runOf s w.fr = none ∧
      dutyAdmits (s.advance dt) (frSub s w.fr) (wakeAirtimeUs w.reps) true = true) :=
  ⟨⟨(let s := atNs ((run.set Reg.SYS_BOOT_STATUS.STATE 9)) 20000000000; { s with mac := { s.mac with floods := [({ queues := [3], pkt := pkt } : FloodWait)] } }),
    (0), ({ queues := [3], pkt := pkt } : FloodWait), by decide +kernel⟩,
   ⟨(run.setFlag Reg.MAC_WAKE_STATUS.BUSY true), (0x8000000000000fff), by decide +kernel⟩,
   ⟨(run), (0x8000000000000fff), by decide +kernel⟩,
   ⟨(let s := (atNs run 50).set (Reg.SCHED_DUTY_CFG.HOUR_MS 0) 3600000; { s with mac := { s.mac with wake := some ({ addr := 4095, reps := 2, fr := 0 } : Wake) } }),
     (0), ({ addr := 4095, reps := 2, fr := 0 } : Wake), by decide +kernel⟩⟩

theorem witness_RecordFetches :
    (∃ (s : State) (u : UpFrame), s.tables.resumed = [] ∧ parkingFull s = false ∧ s.up = [u] ∧ u.stage = .fetch ∧
      u.id ∈ s.tables.parking) ∧
    (∃ (s : State) (u : UpFrame), s.tables.resumed = [] ∧ parkingFull s = false ∧ s.up = [u] ∧ u.stage = .fetch ∧
      u.id ∉ s.tables.parking ∧ addrParks s u.frame.src = true) ∧
    (∃ (s : State) (u : UpFrame), s.tables.resumed = [] ∧ parkingFull s = false ∧ s.up = [u] ∧ u.stage = .fetch ∧
      u.id ∉ s.tables.parking ∧ addrParks s u.frame.src = false ∧ forOther s u.frame = true) ∧
    (∃ (s : State) (u : UpFrame), s.tables.resumed = [] ∧ parkingFull s = false ∧ s.up = [u] ∧ u.stage = .fetch ∧
      u.id ∉ s.tables.parking ∧ addrParks s u.frame.src = false ∧ forOther s u.frame = false ∧ unsupported s u.frame = true) ∧
    (∃ (s : State) (u : UpFrame), s.tables.resumed = [] ∧ parkingFull s = false ∧ s.up = [u] ∧ u.stage = .fetch ∧
      u.id ∉ s.tables.parking ∧ addrParks s u.frame.src = false ∧ forOther s u.frame = false ∧ unsupported s u.frame = false ∧
      secOf u.frame = none ∧ (u.frame.ftype ≠ 1 ∨ forDevice s u.frame = false)) ∧
    (∃ (s : State) (u : UpFrame) (x : AuxSec) (k : Nat) (r : Nat), s.tables.resumed = [] ∧ parkingFull s = false ∧ s.up = [u] ∧
      u.stage = .fetch ∧ u.id ∉ s.tables.parking ∧ addrParks s u.frame.src = false ∧ forOther s u.frame = false ∧
      unsupported s u.frame = false ∧ secOf u.frame = some x ∧ u.frame.ftype = 1 ∧ x.keyMode ≠ 1 ∧ u.frame.src = .ext k ∧
      lookupRecord s k = some r) ∧
    (∃ (s : State) (r : Nat) (d : DownPacket), s.tables.resumed = [] ∧ parkingFull s = false ∧ s.up = [] ∧ s.down = [d] ∧
      d.id ∉ s.tables.parking ∧ d.keyMiss = false ∧ d.shortForm = false ∧ d.record = some r ∧ recRouteLen s r = 0 ∧
      cachedKey s r = none ∧ s.crypto.unwraps = []) :=
  ⟨⟨({ withNode (own (atNs run 50)) 43707 4 with up := [({ upf with frame := mine } : UpFrame)], tables := { (withNode (own (atNs run 50)) 43707 4).tables with parking := [1] } } : State),
    ({ upf with frame := mine } : UpFrame), by decide +kernel⟩,
   ⟨({ withNode (own (atNs run 50)) 43707 4 with up := [({ upf with frame := mine } : UpFrame)], tables := { (withNode (own (atNs run 50)) 43707 4).tables with mule := { locks := some (hash0 run 43707, 3) } } } : State),
     ({ upf with frame := mine } : UpFrame), by decide +kernel⟩,
   ⟨({ withNode (own (atNs run 50)) 43707 4 with up := [({ upf with frame := frm } : UpFrame)] } : State),
     ({ upf with frame := frm } : UpFrame), by decide +kernel⟩,
   ⟨({ withNode (own (atNs run 50)) 43707 4 with up := [({ upf with frame := { mine with version := 1 } } : UpFrame)] } : State),
     ({ upf with frame := { mine with version := 1 } } : UpFrame), by decide +kernel⟩,
   ⟨({ withNode (own (atNs run 50)) 43707 4 with up := [({ upf with frame := { mine with ftype := 2 } } : UpFrame)] } : State),
     ({ upf with frame := { mine with ftype := 2 } } : UpFrame), by decide +kernel⟩,
   ⟨({ withNode (own (atNs run 50)) 43707 4 with up := [({ upf with frame := { mine with sec := some aux } } : UpFrame)] } : State),
     ({ upf with frame := { mine with sec := some aux } } : UpFrame), (aux), (43707), (4), by decide +kernel⟩,
   ⟨({ withNode (own (atNs run 50)) 43707 4 with down := [({ id := 1, pkt := routed, record := some 4 } : DownPacket)] } : State),
     (4), ({ id := 1, pkt := routed, record := some 4 } : DownPacket), by decide +kernel⟩⟩

theorem witness_UnwrapsAndEngines :
    (∃ (s : State) (w : Unwrap) (u : UpFrame) (key : List Byte), s.crypto.unwraps = [w] ∧ s.up = [u] ∧ s.down = [] ∧
      u.stage = .keyMiss ∧ u.record = w.record ∧ kekUnwrap s u.wrapped = some key) ∧
    (∃ (s : State) (w : Unwrap) (u : UpFrame), s.crypto.unwraps = [w] ∧ s.up = [u] ∧ s.down = [] ∧ u.stage = .keyMiss ∧
      u.record = w.record ∧ kekUnwrap s u.wrapped = none ∧ behind s u = false) ∧
    (∃ (s : State) (dt : Nat) (u : UpFrame) (x : AuxSec) (key : List Byte) (engine : Fin 8) (j : CcmJob),
      engine.val < engines s ∧ engineBusy s engine = false ∧ nextJob (s.advance dt) engine = some j ∧ j.kind = .verify u.id ∧
      s.up = [u] ∧ secOf u.frame = some x ∧ verifyKey s u x = some key) ∧
    (∃ (s : State) (dt : Nat) (engine : Fin 8) (j : CcmJob) (e : Emission) (c : Carrier) (f : TxFrame) (fe : Nat) (id : Nat) (bin : Nat) (nominal : Nat) (k : List Byte × Nat),
      engine.val < engines s ∧ engineBusy s engine = false ∧ nextJob (s.advance dt) engine = some j ∧ (j.kind = .ack fe id bin ∨
      j.kind = .encrypt fe id bin nominal) ∧ jobCarrier s fe id bin = some (e, c) ∧ c.frame = some f ∧
      carrierKey s c = some k) :=
  ⟨⟨(let s := withNode (own (atNs run 50)) 43707 4; let s := ((s.setFlag (Reg.KEYS_SLOT.VALID 2) true).set (Reg.KEYS_SLOT.USAGE 2) 255).set Reg.CRYPTO_CTRL.KEK_SLOT 2; let s := { s with up := [({ upf with stage := .keyMiss, record := 4, wrapped := (keyWrap (List.replicate 16 7) (List.replicate 16 9)), counter := 7 } : UpFrame)], crypto := { s.crypto with slotKeys := [(2, List.replicate 16 7)], unwraps := [({ record := 4 } : Unwrap)] } }; s),
    ({ record := 4 } : Unwrap),
    ({ upf with stage := .keyMiss, record := 4, wrapped := (keyWrap (List.replicate 16 7) (List.replicate 16 9)), counter := 7 } : UpFrame),
    (List.replicate 16 9), by decide +kernel⟩,
   ⟨(let s := withNode (own (atNs run 50)) 43707 4; let s := ((s.setFlag (Reg.KEYS_SLOT.VALID 2) true).set (Reg.KEYS_SLOT.USAGE 2) 255).set Reg.CRYPTO_CTRL.KEK_SLOT 2; let s := { s with up := [({ upf with stage := .keyMiss, record := 4, wrapped := (List.replicate 24 1), counter := 7 } : UpFrame)], crypto := { s.crypto with slotKeys := [(2, List.replicate 16 7)], unwraps := [({ record := 4 } : Unwrap)] } }; s),
     ({ record := 4 } : Unwrap),
     ({ upf with stage := .keyMiss, record := 4, wrapped := (List.replicate 24 1), counter := 7 } : UpFrame),
     by decide +kernel⟩,
   ⟨(let s := withNode (own (atNs run 50)) 43707 4; let s := ((s.setFlag (Reg.KEYS_SLOT.VALID 2) true).set (Reg.KEYS_SLOT.USAGE 2) 255).set Reg.CRYPTO_CTRL.KEK_SLOT 2; let s := { s with up := [({ upf with stage := .waiting, record := 4, key := some (List.replicate 16 9), frame := { mine with sec := some aux, raw := List.replicate 40 3, hdrLen := 20 }, counter := 7 } : UpFrame)], crypto := { s.crypto with slotKeys := [(2, List.replicate 16 7)], jobs := [({ kind := .verify 1 } : CcmJob)] } }; s),
     (0),
     ({ upf with stage := .waiting, record := 4, key := some (List.replicate 16 9), frame := { mine with sec := some aux, raw := List.replicate 40 3, hdrLen := 20 }, counter := 7 } : UpFrame),
     (aux), (List.replicate 16 9), (1), ({ kind := .verify 1 } : CcmJob), by decide +kernel⟩,
   ⟨(let s := withEm 0 ({ emi .committed (.ack 4 9) with id := 7, carriers := [({ car (.ack 4 9) with frame := some ({ ftype := 2, dst := .short 5, src := .short 6, level := 5, seqNo := some 4 } : TxFrame) } : Carrier)] } : Emission) (withNode (own (atNs run 50)) 43707 4); let s := ((s.setFlag (Reg.CRYPTO_GK_CFG.VALID 0) true).setFlag (Reg.CRYPTO_GK_CFG.TX_ACTIVE 0) true); { s with crypto := { s.crypto with jobs := [({ kind := .ack 0 7 3 } : CcmJob)], groupKeys := [(0, List.replicate 16 9)], cache := [(4, [(4, List.replicate 16 5)])] } }),
     (0), (1), ({ kind := .ack 0 7 3 } : CcmJob),
     ({ emi .committed (.ack 4 9) with id := 7, carriers := [({ car (.ack 4 9) with frame := some ({ ftype := 2, dst := .short 5, src := .short 6, level := 5, seqNo := some 4 } : TxFrame) } : Carrier)] } : Emission),
     ({ car (.ack 4 9) with frame := some ({ ftype := 2, dst := .short 5, src := .short 6, level := 5, seqNo := some 4 } : TxFrame) } : Carrier),
     ({ ftype := 2, dst := .short 5, src := .short 6, level := 5, seqNo := some 4 } : TxFrame), (0), (7), (3), (1000000),
     ((carrierKey (let s := withEm 0 ({ emi .committed (.ack 4 9) with id := 7, carriers := [({ car (.ack 4 9) with frame := some ({ ftype := 2, dst := .short 5, src := .short 6, level := 5, seqNo := some 4 } : TxFrame) } : Carrier)] } : Emission) (withNode (own (atNs run 50)) 43707 4); let s := ((s.setFlag (Reg.CRYPTO_GK_CFG.VALID 0) true).setFlag (Reg.CRYPTO_GK_CFG.TX_ACTIVE 0) true); { s with crypto := { s.crypto with jobs := [({ kind := .ack 0 7 3 } : CcmJob)], groupKeys := [(0, List.replicate 16 9)], cache := [(4, [(4, List.replicate 16 5)])] } }) ({ car (.ack 4 9) with frame := some ({ ftype := 2, dst := .short 5, src := .short 6, level := 5, seqNo := some 4 } : TxFrame) } : Carrier)).getD ([], 0)),
     by decide +kernel⟩⟩

theorem witness_Verdicts :
    (∃ (s : State) (engine : Fin 8) (j : CcmJob) (u : UpFrame) (x : AuxSec), engineJob s engine = some j ∧
      j.kind = .verify u.id ∧ s.up = [u] ∧ secOf u.frame = some x ∧ (u.frame.ftype = 1 ∨ u.frame.ftype = 2) ∧ x.keyMode ≠ 1 ∧
      behind s u = true) ∧
    (∃ (s : State) (engine : Fin 8) (j : CcmJob) (u : UpFrame) (x : AuxSec), engineJob s engine = some j ∧
      j.kind = .verify u.id ∧ s.up = [u] ∧ secOf u.frame = some x ∧ (u.frame.ftype = 1 ∨ u.frame.ftype = 2) ∧ x.keyMode ≠ 1 ∧
      behind s u = false ∧ ((j.opened u.frame).2) = false) ∧
    (∃ (s : State) (engine : Fin 8) (j : CcmJob) (u : UpFrame) (x : AuxSec), engineJob s engine = some j ∧
      j.kind = .verify u.id ∧ s.up = [u] ∧ secOf u.frame = some x ∧ (u.frame.ftype = 1 ∨ u.frame.ftype = 2) ∧ x.keyMode ≠ 1 ∧
      ((j.opened u.frame).2) = true ∧ u.counter = recLastFc s u.record) ∧
    (∃ (s : State) (engine : Fin 8) (j : CcmJob) (u : UpFrame) (x : AuxSec), engineJob s engine = some j ∧
      j.kind = .verify u.id ∧ s.up = [u] ∧ secOf u.frame = some x ∧ (u.frame.ftype = 1 ∨ u.frame.ftype = 2) ∧ x.keyMode ≠ 1 ∧
      behind s u = false ∧ ((j.opened u.frame).2) = true ∧ u.counter ≠ recLastFc s u.record ∧ u.counter < 2 ^ 32) ∧
    (∃ (s : State) (engine : Fin 8) (j : CcmJob) (e : Emission) (c : Carrier) (fe : Fin 3) (id : Nat) (bin : Nat) (nominal : Nat),
      engineJob s engine = some j ∧ (j.kind = .ack fe id bin ∨ j.kind = .encrypt fe id bin nominal) ∧
      (s.fe fe).emissions = [e] ∧ e.id = id ∧ e.carriers = [c] ∧ c.bin = bin) :=
  ⟨⟨(let s := withNode (own (atNs run 50)) 43707 4; let s := s.ddrWrite (recordBase s 4 + 0x10) (leBytes 4 5); { s with up := [({ upf with stage := .verifying, record := 4, counter := 3, frame := { mine with ftype := 1, sec := some aux, raw := List.replicate 40 3 ++ [1,2,3,4], hdrLen := 20 } } : UpFrame)], crypto := { s.crypto with jobs := [({ kind := .verify 1, engine := some 2, key := List.replicate 16 9, nonce := List.replicate 13 1, aad := [1,2,3], body := [5,6], level := 5 } : CcmJob)] } }),
    (2),
    ({ kind := .verify 1, engine := some 2, key := List.replicate 16 9, nonce := List.replicate 13 1, aad := [1,2,3], body := [5,6], level := 5 } : CcmJob),
    ({ upf with stage := .verifying, record := 4, counter := 3, frame := { mine with ftype := 1, sec := some aux, raw := List.replicate 40 3 ++ [1,2,3,4], hdrLen := 20 } } : UpFrame),
    (aux), by decide +kernel⟩,
   ⟨(let s := withNode (own (atNs run 50)) 43707 4; let s := s.ddrWrite (recordBase s 4 + 0x10) (leBytes 4 5); { s with up := [({ upf with stage := .verifying, record := 4, counter := 5, frame := { mine with ftype := 1, sec := some aux, raw := List.replicate 40 3 ++ [1,2,3,4], hdrLen := 20 } } : UpFrame)], crypto := { s.crypto with jobs := [({ kind := .verify 1, engine := some 2, key := List.replicate 16 9, nonce := List.replicate 13 1, aad := [1,2,3], body := [5,6], level := 5 } : CcmJob)] } }),
     (2),
     ({ kind := .verify 1, engine := some 2, key := List.replicate 16 9, nonce := List.replicate 13 1, aad := [1,2,3], body := [5,6], level := 5 } : CcmJob),
     ({ upf with stage := .verifying, record := 4, counter := 5, frame := { mine with ftype := 1, sec := some aux, raw := List.replicate 40 3 ++ [1,2,3,4], hdrLen := 20 } } : UpFrame),
     (aux), by decide +kernel⟩,
   ⟨(let s := withNode (own (atNs run 50)) 43707 4; let s := s.ddrWrite (recordBase s 4 + 0x10) (leBytes 4 5); { s with up := [({ upf with stage := .verifying, record := 4, counter := 5, frame := { mine with ftype := 1, sec := some aux, raw := List.replicate 40 3 ++ (ccmTag (List.replicate 16 9) (List.replicate 13 1) [1,2,3] (ccmCrypt (List.replicate 16 9) (List.replicate 13 1) [5,6]) 4), hdrLen := 20 } } : UpFrame)], crypto := { s.crypto with jobs := [({ kind := .verify 1, engine := some 2, key := List.replicate 16 9, nonce := List.replicate 13 1, aad := [1,2,3], body := [5,6], level := 5 } : CcmJob)] } }),
     (2),
     ({ kind := .verify 1, engine := some 2, key := List.replicate 16 9, nonce := List.replicate 13 1, aad := [1,2,3], body := [5,6], level := 5 } : CcmJob),
     ({ upf with stage := .verifying, record := 4, counter := 5, frame := { mine with ftype := 1, sec := some aux, raw := List.replicate 40 3 ++ (ccmTag (List.replicate 16 9) (List.replicate 13 1) [1,2,3] (ccmCrypt (List.replicate 16 9) (List.replicate 13 1) [5,6]) 4), hdrLen := 20 } } : UpFrame),
     (aux), by decide +kernel⟩,
   ⟨(let s := withNode (own (atNs run 50)) 43707 4; let s := s.ddrWrite (recordBase s 4 + 0x10) (leBytes 4 5); { s with up := [({ upf with stage := .verifying, record := 4, counter := 7, frame := { mine with ftype := 1, sec := some aux, raw := List.replicate 40 3 ++ (ccmTag (List.replicate 16 9) (List.replicate 13 1) [1,2,3] (ccmCrypt (List.replicate 16 9) (List.replicate 13 1) [5,6]) 4), hdrLen := 20 } } : UpFrame)], crypto := { s.crypto with jobs := [({ kind := .verify 1, engine := some 2, key := List.replicate 16 9, nonce := List.replicate 13 1, aad := [1,2,3], body := [5,6], level := 5 } : CcmJob)] } }),
     (2),
     ({ kind := .verify 1, engine := some 2, key := List.replicate 16 9, nonce := List.replicate 13 1, aad := [1,2,3], body := [5,6], level := 5 } : CcmJob),
     ({ upf with stage := .verifying, record := 4, counter := 7, frame := { mine with ftype := 1, sec := some aux, raw := List.replicate 40 3 ++ (ccmTag (List.replicate 16 9) (List.replicate 13 1) [1,2,3] (ccmCrypt (List.replicate 16 9) (List.replicate 13 1) [5,6]) 4), hdrLen := 20 } } : UpFrame),
     (aux), by decide +kernel⟩,
   ⟨(let s := withEm 0 ({ emi .committed (.ack 4 9) with id := 7, carriers := [(car (.ack 4 9))] } : Emission) (own (atNs run 50)); { s with crypto := { s.crypto with jobs := [({ kind := .ack 0 7 3, engine := some 2 } : CcmJob)] } }),
     (2), ({ kind := .ack 0 7 3, engine := some 2 } : CcmJob),
     ({ emi .committed (.ack 4 9) with id := 7, carriers := [(car (.ack 4 9))] } : Emission), (car (.ack 4 9)), (0), (7), (3),
     (0), by decide +kernel⟩⟩

theorem witness_GroupKeysAndHash :
    (∃ (v : Word), v.getLsbD 63 = true) :=
  ⟨(0x8000000000030000), by decide +kernel⟩

theorem witness_MuleListsAndBuckets :
    (∃ (s : State) (v : Word), v.getLsbD 63 = true ∧ s.flag Reg.FWD_MULE_STATUS.BUSY = false) ∧
    (∃ (s : State), s.flag Reg.FWD_MULE_STATUS.BUSY = true ∧ s.tables.mule.buffer = [] ∧
      s.inLp4x (s.tables.mule.list + 64 * s.tables.mule.fetched) 64 = true ∧
      knownOp (descOp (.words ((List.range 8).map fun k => s.ddrLE ((s.tables.mule.list + 64 * s.tables.mule.fetched) + 8 * k) 8))) = true) ∧
    (∃ (s : State) (addr : Nat), s.flag Reg.FWD_MULE_STATUS.BUSY = true ∧ s.tables.mule.buffer = [] ∧
      addr = s.tables.mule.list + 64 * s.tables.mule.fetched ∧ s.inLp4x addr 64 = false) ∧
    (∃ (s : State) (w : Nat) (rest : List Nat), s.tables.muleDone = w :: rest) ∧
    (∃ (s : State) (dt : Nat), s.tables.mule.locks.isSome = true ∧
      (s.advance dt).elapsedNs s.tables.mule.lockTick 2000 = true) ∧
    (∃ (s : State) (dt : Nat) (d : MuleDesc), lockHolds s dt ∧ muleHead s 0x01 = some d ∧ s.inLp4x (descAddr d) 64 = true) ∧
    (∃ (s : State) (dt : Nat) (d : MuleDesc), lockHolds s dt ∧ muleHead s 0x02 = some d ∧ groupHolds s (descBucket d 0) = true ∧
      bit (descWord d 0) 24 = false) ∧
    (∃ (s : State) (dt : Nat) (d : MuleDesc), lockHolds s dt ∧ muleHead s 0x02 = some d ∧
      groupHolds s (descBucket d 0) = false) ∧
    (∃ (s : State) (dt : Nat) (d : MuleDesc), lockHolds s dt ∧ muleHead s 0x03 = some d ∧ descLast d = false ∧
      checkGroup (descBucket d 0) (descBucket d 1) 1 (s.tables.mule.buffer.drop 1) = .good) ∧
    (∃ (s : State) (dt : Nat) (d : MuleDesc) (i : Nat) (j : Nat), lockHolds s dt ∧ muleHead s 0x04 = some d ∧
      i = bits (descWord d 0) 19 18 ∧ j = bits (descWord d 1) 19 18 ∧ groupHolds s (descBucket d 0) = true ∧
      groupHolds s (descBucket d 1) = true ∧ (slotAt s (descBucket d 0) i).valid = true ∧
      (slotAt s (descBucket d 1) j).valid = false ∧ (descBucket d 0) / 65536 ≠ (descBucket d 1) / 65536 ∧
      ownBucket s ((descBucket d 1) / 65536) (slotAt s (descBucket d 0) i).eui = (descBucket d 1)) ∧
    (∃ (s : State) (dt : Nat) (d : MuleDesc), lockHolds s dt ∧ muleHead s 0x05 = some d ∧ s.tables.mule.locks.isSome = true) :=
  ⟨⟨(run), (0x8000000000001000), by decide +kernel⟩,
   ⟨(let s := withRecs (run.setFlag Reg.FWD_MULE_STATUS.BUSY true); let s := s.ddrWrite lp4xBase (leBytes 8 (0x1180000000000005)); { s with tables := { s.tables with mule := { s.tables.mule with list := lp4xBase } } }),
     by decide +kernel⟩,
   ⟨(let s := withRecs (run.setFlag Reg.FWD_MULE_STATUS.BUSY true); { s with tables := { s.tables with mule := { s.tables.mule with list := 64 } } }),
     (64), by decide +kernel⟩,
   ⟨({ run with tables := { run.tables with muleDone := (5) :: ([9]) } } : State), (5), ([9]), by decide +kernel⟩,
   ⟨(locked (mul run [dsc 5 3 65541]) 3 65541), (3000), by decide +kernel⟩,
   ⟨(setSlot (mul run [(dsc 1 3 lp4xBase)]) 3 1 { eui := 77, record := 8, valid := true, hit := true }), (0),
     (dsc 1 3 lp4xBase), by unfold lockHolds; decide +kernel⟩,
   ⟨(setSlot (locked (mul run [(dsc 2 (3 + 2 ^ 18) 0 [1,2,3,4,5,6])]) 3 65541) 3 1 { eui := 77, record := 8, valid := true, hit := true }),
     (0), (dsc 2 (3 + 2 ^ 18) 0 [1,2,3,4,5,6]), by unfold lockHolds; decide +kernel⟩,
   ⟨(mul run [(dsc 2 4 0 [1,2,3,4,5,6])]), (0), (dsc 2 4 0 [1,2,3,4,5,6]), by unfold lockHolds; decide +kernel⟩,
   ⟨(mul run [(dsc 3 3 65541), dsc 5 3 65541]), (0), (dsc 3 3 65541), by unfold lockHolds; decide +kernel⟩,
   ⟨(setSlot (locked (mul run [(dsc 4 (hash0 run 77 + 2 ^ 18) (hash1 run 77 + 2 ^ 19))]) (hash0 run 77) (hash1 run 77)) (hash0 run 77) 1 { eui := 77, record := 8, valid := true, hit := true }),
     (0), (dsc 4 (hash0 run 77 + 2 ^ 18) (hash1 run 77 + 2 ^ 19)), (1), (2), by unfold lockHolds; decide +kernel⟩,
   ⟨(locked (mul run [(dsc 5 3 65541)]) 3 65541), (0), (dsc 5 3 65541), by unfold lockHolds; decide +kernel⟩⟩

theorem witness_MuleRecordsAndTrie :
    (∃ (s : State) (dt : Nat) (d : MuleDesc), lockHolds s dt ∧ muleHead s 0x06 = some d ∧ bits (descWord d 0) 15 0 < 0xFFFE) ∧
    (∃ (s : State) (dt : Nat) (d : MuleDesc) (src : Nat), lockHolds s dt ∧ muleHead s 0x07 = some d ∧ recordsOn s = true ∧
      s.inLp4x (descAddr d) 64 = true ∧ src = descAddr d ∧
      (src + 64 ≤ (recordBase s (bits (descWord d 0) 17 0) + 64 * bits (descWord d 0) 21 20) ∨
      (recordBase s (bits (descWord d 0) 17 0) + 64 * bits (descWord d 0) 21 20) + 64 ≤ src)) ∧
    (∃ (s : State) (dt : Nat) (d : MuleDesc), lockHolds s dt ∧ s.flag Reg.HERD_CTRL.PREFIX_FROM_MASTER = false ∧
      muleHead s 0x10 = some d ∧ s.inLp4x (descAddr d) 1024 = true ∧ 1 ≤ bits (descWord d 0) 50 48 ∧
      bits (descWord d 0) 50 48 ≤ 6 ∧ bits (descWord d 0) 7 0 < stageNodes (bits (descWord d 0) 50 48)) ∧
    (∃ (s : State) (dt : Nat) (d : MuleDesc), lockHolds s dt ∧ s.flag Reg.HERD_CTRL.PREFIX_FROM_MASTER = false ∧
      muleHead s 0x11 = some d ∧ bits (descWord d 0) 50 48 = 0) ∧
    (∃ (s : State) (dt : Nat) (d : MuleDesc), lockHolds s dt ∧ s.flag Reg.HERD_CTRL.PREFIX_FROM_MASTER = false ∧
      muleHead s 0x12 = some d) ∧
    (∃ (s : State) (dt : Nat) (d : MuleDesc), lockHolds s dt ∧ s.flag Reg.HERD_CTRL.PREFIX_FROM_MASTER = false ∧
      muleHead s 0x13 = some d) :=
  ⟨⟨(mul run [(dsc 6 77 0xFFFFFFFF)]), (0), (dsc 6 77 0xFFFFFFFF), by unfold lockHolds; decide +kernel⟩,
   ⟨(mul (withRecs run |>.ddrWrite lp4xBase [1,2,3,4,5,6,7,8,9]) [(dsc 7 (5 + 2 ^ 20 + 2 ^ 24 * 255) lp4xBase)]), (0),
     (dsc 7 (5 + 2 ^ 20 + 2 ^ 24 * 255) lp4xBase), (lp4xBase), by unfold lockHolds; decide +kernel⟩,
   ⟨(mul run [(dsc 16 (5 + 2 ^ 48) lp4xBase)]), (0), (dsc 16 (5 + 2 ^ 48) lp4xBase), by unfold lockHolds; decide +kernel⟩,
   ⟨(mul run [(dsc 17 5 0x80000007)]), (0), (dsc 17 5 0x80000007), by unfold lockHolds; decide +kernel⟩,
   ⟨(mul run [(dsc 18 5 0x80000007)]), (0), (dsc 18 5 0x80000007), by unfold lockHolds; decide +kernel⟩,
   ⟨(mul run [(dsc 19 5 0x80000007)]), (0), (dsc 19 5 0x80000007), by unfold lockHolds; decide +kernel⟩⟩

theorem witness_SweeperAndLearning :
    (∃ (s : State) (dt : Nat), sweepDue (s.advance dt) = true ∧ bucketLocked s (s.get Reg.FWD_IDX_STATUS.SWEEP_POS) = false ∧
      s.tables.hitTick ≠ (s.advance dt).tick ∧ s.tables.sweepAt = 0 ∧ s.tables.learn = []) ∧
    (∃ (s : State) (w : FifoWord) (rest : List FifoWord), s.tables.learn = w :: rest) :=
  ⟨⟨(let s := run.setFlag Reg.FWD_IDX_CTRL.SWEEP_EN true; setSlot (setSlot (setSlot s 0 0 { eui := 77, record := 8, valid := true, hit := true }) 0 1 { eui := 78, record := 9, valid := true }) 0 2 { eui := 79, record := 9, valid := true, aged := true }),
    (100000000000), by decide +kernel⟩,
   ⟨({ run with tables := { run.tables with learn := ({ data := 5 } : FifoWord) :: ([{ data := 6, eop := true }]) } } : State),
     ({ data := 5 } : FifoWord), ([{ data := 6, eop := true }]), by decide +kernel⟩⟩

theorem witness_Mailboxes :
    (∃ (s : State) (n : Fin 4) (c : Fin 8) (p : Packet), (∀ k : Fin 8, s.get (Reg.QMGR_Q_CFG.LIFE_MS (coreQueue n k)) = 0) ∧
      (∀ k : Fin 8, k < c → queueAt s (coreQueue n k) = []) ∧ queueAt s (coreQueue n c) = [p] ∧
      (mboxRx s n).length + (mboxWords p).length ≤ 1024) ∧
    (∃ (s : State) (n : Fin 4) (w : FifoWord) (rest : List FifoWord), mboxRx s n = w :: rest) ∧
    (∃ (s : State) (n : Fin 4) (v : Word), v.getLsbD 63 = true ∧ bits v.toNat 3 0 = 5 + n.val ∧ 5 + n.val ∈ s.q.midRead) ∧
    (∃ (s : State) (n : Fin 4), (mboxTx s n).length < 1024 ∧ n.val ∉ s.q.txBroken) :=
  ⟨⟨(setQueue run (coreQueue 1 2) [({ pkt with cls := 2, data := [1,2,3,4,5,6,7,8,9], queue := coreQueue 1 2 } : Packet)]), (1),
    (2), ({ pkt with cls := 2, data := [1,2,3,4,5,6,7,8,9], queue := coreQueue 1 2 } : Packet), by decide +kernel⟩,
   ⟨(setMboxRx run 1 (({ data := 5, sop := true } : FifoWord) :: ([{ data := 6, eop := true }]))), (1),
     ({ data := 5, sop := true } : FifoWord), ([{ data := 6, eop := true }]), by decide +kernel⟩,
   ⟨(let s := setMboxRx run 1 (({ data := 5, sop := true } : FifoWord) :: ([{ data := 6, eop := true }])); { s with q := { s.q with midRead := [6] } }),
     (1), (0x8000000000000006), by decide +kernel⟩,
   ⟨({ run with q := { run.q with lost := [5] } } : State), (1), by decide +kernel⟩⟩

theorem witness_TimeSteps :
    (∃ (s : State) (v : Word), s.flag Reg.TIME_STATUS.STEP_USED = false ∧ 0 ≤ v.toInt ∧ s.flag Reg.TIME_PPS_CTRL.IN_EN = true ∧
      3 ≤ s.time.ppsRun ∧ s.get Reg.TIME_SRC_CTRL.PRIO_PPS ≠ 0) ∧
    (∃ (s : State) (v : Word), s.flag Reg.TIME_STATUS.STEP_USED = false ∧ 0 ≤ v.toInt ∧
      (s.flag Reg.TIME_PPS_CTRL.IN_EN = false ∨ s.time.ppsRun < 3)) ∧
    (∃ (s : State) (v : Word), s.flag Reg.TIME_STATUS.STEP_USED = false ∧ v.toInt < 0) ∧
    (∃ (s : State), s.flag Reg.TIME_STATUS.STEP_USED = true) ∧
    (∃ (s : State) (dt : Nat), s.time.running = true ∧ 0 < s.time.slew ∧
      s.time.slew.toNat ≤ (incNom + incLimit - s.get Reg.TIME_INC.INC) * dt) ∧
    (∃ (s : State) (e : Stamp) (rest : List Stamp), s.time.stamps = e :: rest) ∧
    (∃ (s : State), s.time.stamps = []) :=
  ⟨⟨(let s := ((atNs run 5000000050).setFlag Reg.TIME_PPS_CTRL.IN_EN true).set Reg.TIME_SRC_CTRL.PRIO_PPS 1; { s with time := { s.time with ppsEdge := some 4000001000, ppsRun := 3 } }),
    (1000), by decide +kernel⟩,
   ⟨(atNs run 50), (1000), by decide +kernel⟩,
   ⟨(((atNs run 5000).setFlag (Reg.TIME_ALARM.ARMED 3) true)), (-1), by decide +kernel⟩,
   ⟨(((atNs run 50).setFlag (Reg.TIME_ALARM.ARMED 3) true).setFlag Reg.TIME_STATUS.STEP_USED true), by decide +kernel⟩,
   ⟨(let s := atNs run 50; { s with time := { s.time with slew := 1000 } }), (7), by decide +kernel⟩,
   ⟨(let s := atNs run 50; { s with time := { s.time with stamps := ({ word0 := 5, ns := 7 } : Stamp) :: ([{ word0 := 6, ns := 7 }]) } }),
     ({ word0 := 5, ns := 7 } : Stamp), ([{ word0 := 6, ns := 7 }]), by decide +kernel⟩,
   ⟨(atNs run 50), by decide +kernel⟩⟩

theorem witness_TimeSources :
    (∃ (s : State), s.flag Reg.HERD_CTRL.HERD_TIME = true) ∧
    (∃ (s : State), s.flag Reg.HERD_CTRL.HERD_TIME = false ∧ s.get Reg.TIME_SRC_CTRL.PRIO_PTP ≠ 0 ∧
      s.get Reg.TIME_STATUS.SEL = 0 ∧ s.flag Reg.TIME_STATUS.PTP_Q = false ∧ s.flag Reg.TIME_CTRL.SERVO_EN = false) ∧
    (∃ (s : State) (v : Word), s.flag Reg.HERD_CTRL.HERD_TIME = false ∧ s.get Reg.TIME_STATUS.SEL = clsPTP ∧
      s.flag Reg.TIME_STATUS.PTP_Q = true ∧ s.flag Reg.TIME_CTRL.SERVO_EN = true ∧ s.time.slew = 0 ∧
      (v.toInt).natAbs ≤ max 100 (s.get Reg.TIME_SERVO.STEP_THRESH)) ∧
    (∃ (s : State) (dt : Nat) (t0 : Nat), s.time.ptpAt = some t0 ∧
      (s.advance dt).elapsedMs t0 (10 * s.get Reg.TIME_SRC_CTRL.PTP_TIMEOUT) = true ∧ s.flag Reg.TIME_STATUS.PTP_Q = true ∧
      s.get Reg.TIME_STATUS.SEL = clsPTP) ∧
    (∃ (s : State) (dt : Nat) (c : Nat) (d : Nat) (t0 : Nat), d ∈ [clsPTP, clsPPS, clsEB] ∧ s.get Reg.TIME_STATUS.SEL = c ∧
      c ≠ 0 ∧ s.flag (clsBit d) = true ∧ clsPrio s d ≠ 0 ∧ clsPrio s d < clsPrio s c ∧ clsSince s d = some t0 ∧
      (s.advance dt).elapsedSec t0 (s.get Reg.TIME_SRC_CTRL.REVERT_S) = true ∧ (∀ x ∈ [clsPTP, clsPPS, clsEB], x ≠ d →
      s.flag (clsBit x) = true → clsPrio s c ≤ clsPrio s x)) ∧
    (∃ (s : State) (dt : Nat) (t0 : Nat), s.flag Reg.TIME_STATUS.HOLDOVER = true ∧
      s.flag (clsBit (s.get Reg.TIME_STATUS.SEL)) = false ∧ s.time.selectAt = some t0 ∧
      t0 < (s.advance dt).time.ns / nsPerSec) ∧
    (∃ (s : State) (dt : Nat), s.flag Reg.TIME_PPS_CTRL.IN_EN = true ∧
      ppsAccepts (s.advance dt) (ppsEdgeTime (s.advance dt)) = true) ∧
    (∃ (s : State) (dt : Nat), s.flag Reg.TIME_PPS_CTRL.IN_EN = true ∧
      ppsAccepts (s.advance dt) (ppsEdgeTime (s.advance dt)) = false) ∧
    (∃ (s : State) (dt : Nat) (t0 : Nat), s.flag Reg.TIME_PPS_CTRL.IN_EN = true ∧ s.time.ppsEdge = some t0 ∧
      0 ≤ diffN 64 (s.advance dt).time.ns (t0 + nsPerSec + s.get Reg.TIME_PPS_CTRL.WIN)) ∧
    (∃ (s : State) (dt : Nat), s.flag Reg.TIME_PPS_CTRL.OUT_EN = true ∧ s.flag Reg.TIME_STATUS.STEP_USED = true ∧
      (s.advance dt).time.ns % nsPerSec = 0 ∧ s.get Reg.TIME_PPS_CTRL.OUT_OFS = 0) ∧
    (∃ (s : State) (dt : Nat), s.time.ppsOut = true ∧
      s.time.ppsRose + max 1 (s.get Reg.TIME_PPS_CTRL.OUT_WIDTH) * 1000000 ≤ (s.advance dt).time.ns) :=
  ⟨⟨((atNs run 50).setFlag Reg.HERD_CTRL.HERD_TIME true), by decide +kernel⟩,
   ⟨((((atNs run 50).set Reg.TIME_SRC_CTRL.PRIO_PTP 1).set Reg.TIME_STATUS.SEL 0).setFlag Reg.TIME_CTRL.SERVO_EN false),
     by decide +kernel⟩,
   ⟨(((((atNs run 50).set Reg.TIME_SRC_CTRL.PRIO_PTP 1).set Reg.TIME_STATUS.SEL 1).setFlag Reg.TIME_CTRL.SERVO_EN true).setFlag Reg.TIME_STATUS.PTP_Q true),
     (-77), by decide +kernel⟩,
   ⟨(let s := ((((atNs run 50).set Reg.TIME_SRC_CTRL.PRIO_PTP 1).set Reg.TIME_STATUS.SEL 1).setFlag Reg.TIME_CTRL.SERVO_EN true).setFlag Reg.TIME_STATUS.PTP_Q true; { s with time := { s.time with ptpAt := some 0, ptpSince := some 0 } }),
     (60000000000), (0), by decide +kernel⟩,
   ⟨(let s := ((((atNs run 50).set Reg.TIME_SRC_CTRL.PRIO_PTP 1).set Reg.TIME_STATUS.SEL 2).set Reg.TIME_SRC_CTRL.PRIO_PPS 2).setFlag Reg.TIME_STATUS.PTP_Q true |>.setFlag Reg.TIME_STATUS.PPS_Q true; { s with time := { s.time with ptpAt := some 0, ptpSince := some 0 } }),
     (600000000000), (2), (1), (0), by decide +kernel⟩,
   ⟨(let s := ((((atNs run 50).set Reg.TIME_SRC_CTRL.PRIO_PTP 1).set Reg.TIME_STATUS.SEL 2).set Reg.TIME_SRC_CTRL.PRIO_PPS 2).setFlag Reg.TIME_STATUS.HOLDOVER true |>.setFlag Reg.TIME_STATUS.PTP_Q true; { s with time := { s.time with selectAt := some 0, ptpSince := some 0 } }),
     (600000000000), (0), by decide +kernel⟩,
   ⟨(((atNs run 5000000050).setFlag Reg.TIME_PPS_CTRL.IN_EN true).set Reg.TIME_SRC_CTRL.PRIO_PPS 1), (1000), by decide +kernel⟩,
   ⟨(let s := ((atNs run 5500000050).setFlag Reg.TIME_PPS_CTRL.IN_EN true).set Reg.TIME_SRC_CTRL.PRIO_PPS 1; { s with time := { s.time with ppsEdge := some 4000001000, ppsRun := 2, ppsMisses := 1 } }),
     (1000), by decide +kernel⟩,
   ⟨(let s := ((atNs run 5500000050).setFlag Reg.TIME_PPS_CTRL.IN_EN true).set Reg.TIME_SRC_CTRL.PRIO_PPS 1; { s with time := { s.time with ppsEdge := some 4000001000, ppsRun := 2, ppsMisses := 1 } }),
     (1000), (4000001000), by decide +kernel⟩,
   ⟨(((atNs run 5000000000).setFlag Reg.TIME_PPS_CTRL.OUT_EN true).setFlag Reg.TIME_STATUS.STEP_USED true), (0),
     by decide +kernel⟩,
   ⟨(let s := ((atNs run 5100000000).setFlag Reg.TIME_PPS_CTRL.OUT_EN true).setFlag Reg.TIME_STATUS.STEP_USED true; { s with time := { s.time with ppsOut := true, ppsRose := 5000000000 } }),
     (0), by decide +kernel⟩⟩

theorem witness_SchedulerTurns :
    (∃ (s : State) (port : Fin 2), ethUp s port = false ∧ prpOn s = false) ∧
    (∃ (s : State) (dt : Nat) (q : Nat) (port : Fin 2) (p : Packet), ethUp s port = true ∧ prpOn s = false ∧
      q / 2048 = 3 + port.val ∧ q % 8 = 0 ∧ s.q.queues = [(q, [p])] ∧ s.sched.retry = [] ∧
      s.get (Reg.QMGR_Q_CFG.LIFE_MS q) = 0 ∧ (s.advance dt).before (Reg.SCHED_Q_RATE.PIR q) = 0 ∧
      ptpOf p.data (etherType p.data).1 (etherType p.data).2 = none) ∧
    (∃ (s : State) (e : WheelEntry), s.sched.wheel = [e]) ∧
    (∃ (s : State) (dt : Nat), (s.advance dt).time.ns / 1000000000 = s.sched.dutySec) ∧
    (∃ (s : State) (dt : Nat), (∀ k : Fin 4, s.flag (Reg.MAC_FR.EN k) = false) ∧
      (s.advance dt).time.ns / 1000000000 = s.sched.dutySec + 1) :=
  ⟨⟨(atNs run 50), (1), by decide +kernel⟩,
   ⟨(setQueue (eup (atNs run 50)) (8192) [({ pkt with cls := 0, queue := (8192), data := List.replicate 64 1 } : Packet)]),
     (1000), (8192), (1), ({ pkt with cls := 0, queue := (8192), data := List.replicate 64 1 } : Packet), by decide +kernel⟩,
   ⟨(let s := atNs run 50000; { s with sched := { s.sched with wheel := [({ bucket := 7, due := 40, slot := 32, fine := true } : WheelEntry)] } }),
     ({ bucket := 7, due := 40, slot := 32, fine := true } : WheelEntry), by decide +kernel⟩,
   ⟨(atNs run 50), (1000), by decide +kernel⟩,
   ⟨(let s := dutyDebit (atNs run 5000000000) 3 5000; { s with sched := { s.sched with dutySec := 4 } }), (1000),
     by decide +kernel⟩⟩

theorem witness_EthernetPorts :
    (∃ (s : State) (port : Fin 2) (d : List Byte) (fcsOk : Bool), ethUp s port = true ∧ s.inRun = true ∧ (fcsOk = false ∨
      4122 < d.length + 4 + (if fieldBE d 12 2 = 0x8100 then 0 else 4) ∨ (fieldBE d 12 2 = 0x8100 ∧
      (s.get (Reg.ETH_PORT_CFG.VID port) = 0 ∨ fieldBE d 14 2 % 4096 ≠ s.get (Reg.ETH_PORT_CFG.VID port))))) ∧
    (∃ (s : State) (dt : Nat) (port : Fin 2) (d : List Byte), ethUp s port = true ∧ s.inRun = true ∧ d.length + 8 ≤ 4122 ∧
      fieldBE d 12 2 ≠ 0x8100 ∧ prpOn s = true ∧ hasRct d = true ∧ prpSeen (s.advance dt) (prpKey d) = true) ∧
    (∃ (s : State) (port : Fin 2) (d : List Byte) (cls : Fin 8), ethUp s port = true ∧ s.inRun = true ∧ d.length + 8 ≤ 4122 ∧
      fieldBE d 12 2 = 0x86DD ∧ prpOn s = false ∧ fieldBE d 0 6 = 0xFFFFFFFFFFFF ∧ portMac s port ≠ 0xFFFFFFFFFFFF ∧
      ((enqueueCause s (coreQueue (defaultCore s) cls) { cls := cls, len := d.length } = none))) ∧
    (∃ (s : State), s.flag Reg.ETH_STATUS.MGMT_ON = false) ∧
    (∃ (s : State) (d : List Byte) (cls : Fin 8), s.flag Reg.ETH_STATUS.MGMT_ON = true ∧ s.flag Reg.ETH_STATUS.MGMT_UP = true ∧
      fieldBE d 0 6 = portMac s 2 ∧ ((enqueueCause s (coreQueue (defaultCore s) cls) { cls := cls, len := d.length } = none))) ∧
    (∃ (s : State), s.flag Reg.ETH_STATUS.MGMT_ON = true ∧ s.wire.mgmt.length < 512) ∧
    (∃ (s : State) (h : Nat) (words : List Nat), s.flag Reg.ETH_STATUS.MGMT_ON = true ∧ s.wire.mgmt = h :: words ∧
      words.length < 511 ∧ s.wire.mgmtLost = false ∧ 14 ≤ bits h 12 0 ∧ bits h 12 0 ≤ 1514) ∧
    (∃ (s : State) (v : Word), s.flag Reg.ETH_STATUS.MGMT_ON = true ∧ v.getLsbD 63 = true ∧ s.flag Reg.ETH_MDIO.BUSY = false) ∧
    (∃ (s : State), s.flag Reg.ETH_MDIO.BUSY = true) :=
  ⟨⟨(eup (atNs run 50)), (1), (List.replicate 12 0 ++ [0x81,0,0,5] ++ List.replicate 60 0), (true), by decide +kernel⟩,
   ⟨(let s := eup (atNs run 50) |>.setFlag Reg.ETH_PRP_CTRL.PRP_EN true; { s with wire := { s.wire with prp := [(prpKey (withRct (List.replicate 12 3 ++ [0x08,0x00,0,5] ++ List.replicate 60 0) 77 10), 0)] } }),
     (1000), (1), (withRct (List.replicate 12 3 ++ [0x08,0x00,0,5] ++ List.replicate 60 0) 77 10), by decide +kernel⟩,
   ⟨(let s := coreQ (eup (atNs run 50)); s), (1),
     (List.replicate 6 255 ++ List.replicate 6 0 ++ [0x86,0xDD,0,5] ++ List.replicate 60 0), (3), by decide +kernel⟩,
   ⟨(eup (atNs run 50)), by decide +kernel⟩,
   ⟨(coreQ (((atNs run 50).setFlag Reg.ETH_STATUS.MGMT_ON true).setFlag Reg.ETH_STATUS.MGMT_UP true)),
     (beBytes 6 2 ++ List.replicate 60 0), (3), by decide +kernel⟩,
   ⟨(coreQ (((atNs run 50).setFlag Reg.ETH_STATUS.MGMT_ON true).setFlag Reg.ETH_STATUS.MGMT_UP true)), by decide +kernel⟩,
   ⟨(let s := (((atNs run 50).setFlag Reg.ETH_STATUS.MGMT_ON true).setFlag Reg.ETH_STATUS.MGMT_UP true |>.setFlag Reg.ETH_MDIO.BUSY true); { s with wire := { s.wire with mgmt := (16) :: ([5]) } }),
     (16), ([5]), by decide +kernel⟩,
   ⟨(coreQ (((atNs run 50).setFlag Reg.ETH_STATUS.MGMT_ON true).setFlag Reg.ETH_STATUS.MGMT_UP true)), (0x8000000000000000),
     by decide +kernel⟩,
   ⟨(let s := (((atNs run 50).setFlag Reg.ETH_STATUS.MGMT_ON true).setFlag Reg.ETH_STATUS.MGMT_UP true |>.setFlag Reg.ETH_MDIO.BUSY true); { s with wire := { s.wire with mgmt := (16) :: ([5]) } }),
     by decide +kernel⟩⟩

theorem witness_HerdLink :
    (∃ (s : State) (port : Fin 2) (f : HerdFrame), inHerd s = true ∧ f.type ≠ 7 ∧ f.type ≠ 2 ∧ ringUp s port = true ∧
      f.dst ≠ s.herdId ∧ f.dst ≠ 0xF) ∧
    (∃ (s : State) (port : Fin 2) (f : HerdFrame), inHerd s = true ∧ f.type = 8 ∧ ringUp s port = true ∧
      ringUp s (1 - port.val) = true ∧ f.dst = 0xF ∧ s.herdId < 8 ∧ f.hops ≠ 0) ∧
    (∃ (s : State) (port : Fin 2) (f : HerdFrame), inHerd s = true ∧ f.type = 7 ∧ f.src = ringPartner s port ∧
      f.hops + 1 = s.members) ∧
    (∃ (s : State) (port : Fin 2) (f : HerdFrame), inHerd s = true ∧ f.type = 7 ∧ f.src ≠ ringPartner s port) ∧
    (∃ (s : State) (dt : Nat) (port : Fin 2), inHerd s = true ∧ (s.advance dt).elapsedMs (ringPortOf s port).sent 1 = true) ∧
    (∃ (s : State) (dt : Nat) (port : Fin 2), inHerd s = true ∧ ringUp s port = true ∧
      (s.advance dt).elapsedMs (ringPortOf s port).heard 3 = true) ∧
    (∃ (s : State) (dt : Nat) (t1 : Int) (t2 : Int) (t3 : Int) (t4 : Int) (d : Nat), inHerd s = true ∧ ringUp s (0) = true ∧
      (s.advance dt).elapsedSec s.wire.east.delayAt 1 = true ∧ d < 2 ^ 32 ∧ ((t4 - t1) - (t3 - t2)) / 2 = d) ∧
    (∃ (s : State) (dt : Nat) (t1 : Int) (t2 : Int) (t3 : Int) (t4 : Int) (d : Nat), inHerd s = true ∧ ringUp s (1) = true ∧
      (s.advance dt).elapsedSec s.wire.west.delayAt 1 = true ∧ d < 2 ^ 32 ∧ ((t4 - t1) - (t3 - t2)) / 2 = d) ∧
    (∃ (s : State) (member : Fin 8), inHerd s = true ∧ s.isMaster = true ∧ member.val ∈ s.wire.copies) ∧
    (∃ (s : State), inHerd s = true ∧ s.flag Reg.HERD_CTRL.PREFIX_FROM_MASTER = true ∧ s.isMaster = false ∧
      s.flag Reg.HERD_STATUS.REPL_SYNC = false) ∧
    (∃ (s : State) (dt : Nat), inHerd s = true ∧ s.isMaster = true ∧ (s.advance dt).elapsedMs s.wire.timeSent 10 = true ∧
      ringUp s 0 = true ∧ ringUp s 1 = true ∧ 3 ≤ s.members) ∧
    (∃ (s : State) (dt : Nat), inHerd s = true ∧ s.flag Reg.HERD_CTRL.HERD_TIME = true ∧
      (s.advance dt).elapsedMs s.wire.timeHeard 30 = true) :=
  ⟨⟨(let s := ((((atNs run 50).set Reg.HERD_STATUS.MEMBERS 4).set Reg.HERD_STATUS.HERD_ID 0).setFlag Reg.HERD_STATUS.E_UP true).setFlag Reg.HERD_STATUS.W_UP true; s),
    (1), ({ type := 1, dst := 2, src := 1, hops := 2, flags := 0, payload := [1,2] } : HerdFrame), by decide +kernel⟩,
   ⟨(let s := ((((atNs run 50).set Reg.HERD_STATUS.MEMBERS 4).set Reg.HERD_STATUS.HERD_ID 2).setFlag Reg.HERD_STATUS.E_UP true).setFlag Reg.HERD_STATUS.W_UP true; s),
     (1), ({ type := 8, dst := 15, src := 1, hops := 4, flags := 0, payload := [1,2] } : HerdFrame), by decide +kernel⟩,
   ⟨(let s := ((((atNs run 50).set Reg.HERD_STATUS.MEMBERS 4).set Reg.HERD_STATUS.HERD_ID 0).setFlag Reg.HERD_STATUS.E_UP true).setFlag Reg.HERD_STATUS.W_UP false; s),
     (1), ({ type := 7, dst := 2, src := 3, hops := 3, flags := 0, payload := [1,2] } : HerdFrame), by decide +kernel⟩,
   ⟨(let s := ((((atNs run 50).set Reg.HERD_STATUS.MEMBERS 4).set Reg.HERD_STATUS.HERD_ID 0).setFlag Reg.HERD_STATUS.E_UP true).setFlag Reg.HERD_STATUS.W_UP true; s),
     (1), ({ type := 7, dst := 2, src := 2, hops := 3, flags := 0, payload := [1,2] } : HerdFrame), by decide +kernel⟩,
   ⟨(let s := ((((atNs run 50).set Reg.HERD_STATUS.MEMBERS 4).set Reg.HERD_STATUS.HERD_ID 0).setFlag Reg.HERD_STATUS.E_UP true).setFlag Reg.HERD_STATUS.W_UP true; s),
     (70000000000), (1), by decide +kernel⟩,
   ⟨(let s := ((((atNs run 50).set Reg.HERD_STATUS.MEMBERS 4).set Reg.HERD_STATUS.HERD_ID 0).setFlag Reg.HERD_STATUS.E_UP true).setFlag Reg.HERD_STATUS.W_UP true; s),
     (70000000000), (1), by decide +kernel⟩,
   ⟨(let s := ((((atNs run 50).set Reg.HERD_STATUS.MEMBERS 4).set Reg.HERD_STATUS.HERD_ID 0).setFlag Reg.HERD_STATUS.E_UP true).setFlag Reg.HERD_STATUS.W_UP true; s),
     (70000000000), (0), (5), (6), (100), (49), by decide +kernel⟩,
   ⟨(let s := ((((atNs run 50).set Reg.HERD_STATUS.MEMBERS 4).set Reg.HERD_STATUS.HERD_ID 0).setFlag Reg.HERD_STATUS.E_UP true).setFlag Reg.HERD_STATUS.W_UP true; s),
     (70000000000), (0), (5), (6), (100), (49), by decide +kernel⟩,
   ⟨(let s := ((((atNs run 50).set Reg.HERD_STATUS.MEMBERS 4).set Reg.HERD_STATUS.HERD_ID 0).setFlag Reg.HERD_STATUS.E_UP true).setFlag Reg.HERD_STATUS.W_UP true; { s with wire := { s.wire with copies := [2,3] } }),
     (2), by decide +kernel⟩,
   ⟨(let s := ((((atNs run 50).set Reg.HERD_STATUS.MEMBERS 4).set Reg.HERD_STATUS.HERD_ID 2).setFlag Reg.HERD_STATUS.E_UP true).setFlag Reg.HERD_STATUS.W_UP true; s.setFlag Reg.HERD_CTRL.PREFIX_FROM_MASTER true),
     by decide +kernel⟩,
   ⟨(let s := ((((atNs run 50).set Reg.HERD_STATUS.MEMBERS 4).set Reg.HERD_STATUS.HERD_ID 0).setFlag Reg.HERD_STATUS.E_UP true).setFlag Reg.HERD_STATUS.W_UP true; s),
     (70000000000), by decide +kernel⟩,
   ⟨(let s := ((((atNs run 50).set Reg.HERD_STATUS.MEMBERS 4).set Reg.HERD_STATUS.HERD_ID 3).setFlag Reg.HERD_STATUS.E_UP true).setFlag Reg.HERD_STATUS.W_UP true; s.setFlag Reg.HERD_CTRL.HERD_TIME true |>.setFlag Reg.HERD_CTRL.PREFIX_FROM_MASTER true),
     (70000000000), by decide +kernel⟩⟩

theorem witness_SitePair :
    (∃ (s : State) (port : Fin 2) (p : List Byte), paired s = true ∧ pairKey s = true ∧ ethUp s port = true ∧
      (leaseFields s p).tagOk = false) ∧
    (∃ (s : State) (port : Fin 2) (p : List Byte), paired s = true ∧ pairKey s = true ∧ ethUp s port = true ∧
      (leaseFields s p).tagOk = true ∧ (leaseFields s p).unit ≠ s.get Reg.ETH_PAIR_STATUS.UNIT ∧ s.lease.peerSeq = none ∧
      (leaseFields s p).type = 1 ∧ 0 < diffN 32 (leaseFields s p).epoch (s.get Reg.ETH_PAIR_STATUS.EPOCH)) ∧
    (∃ (s : State) (port : Fin 2) (p : List Byte), paired s = true ∧ pairKey s = true ∧ ethUp s port = true ∧
      (leaseFields s p).tagOk = true ∧ (leaseFields s p).unit ≠ s.get Reg.ETH_PAIR_STATUS.UNIT ∧ s.lease.peerSeq = none ∧
      (leaseFields s p).type = 3 ∧ 0 < diffN 32 (leaseFields s p).epoch (s.get Reg.ETH_PAIR_STATUS.EPOCH) ∧
      s.get Reg.ETH_PAIR_STATUS.ROLE = 1 ∧ (leaseFields s p).schedHash = schedHash s ∧
      (leaseFields s p).sfMask &&& s.get Reg.ETH_PAIR_CFG.SF_MASK = 0) ∧
    (∃ (s : State) (dt : Nat) (port : Fin 2) (p : List Byte) (d : Drill), paired s = true ∧ pairKey s = true ∧
      ethUp s port = true ∧ (leaseFields s p).tagOk = true ∧ (leaseFields s p).unit ≠ s.get Reg.ETH_PAIR_STATUS.UNIT ∧
      s.lease.peerSeq = none ∧ (leaseFields s p).type = 4 ∧ s.lease.drill = some d ∧ d.sent = true ∧
      d.epoch = (leaseFields s p).epoch ∧ d.actAsn = (leaseFields s p).actAsn ∧ (s.advance dt).elapsedMs d.tick 50 = false) ∧
    (∃ (s : State) (dt : Nat), paired s = true ∧ pairKey s = true ∧ s.get Reg.ETH_PAIR_STATUS.ROLE = 2 ∧
      (s.advance dt).agoNs s.lease.sentNs (pairNs (s.get Reg.ETH_PAIR_TIMING.RENEW_MS)) = true) ∧
    (∃ (s : State) (dt : Nat), paired s = true ∧ pairKey s = true ∧ s.get Reg.ETH_PAIR_STATUS.ROLE = 2 ∧
      (s.advance dt).agoNs s.lease.renewNs (pairNs (leaseMs s - guardMs s)) = true) ∧
    (∃ (s : State) (dt : Nat), paired s = true ∧ pairKey s = true ∧ s.get Reg.ETH_PAIR_STATUS.ROLE = 2 ∧
      (s.advance dt).agoNs s.lease.renewNs (pairNs (leaseMs s - guardMs s)) = false) ∧
    (∃ (s : State) (v : Word), paired s = true ∧ pairKey s = true ∧ s.get Reg.ETH_PAIR_STATUS.ROLE = 2 ∧
      s.flag Reg.ETH_PAIR_STATUS.DRILL_PEND = false ∧ s.lease.stbyNs = none ∧ v.getLsbD 62 = false) ∧
    (∃ (s : State) (dt : Nat), paired s = true ∧ pairKey s = true ∧ s.get Reg.ETH_PAIR_STATUS.ROLE = 2 ∧
      s.flag Reg.ETH_PAIR_STATUS.DRILL_PEND = false ∧ s.lease.stbyNs = some (s.advance dt).time.ns ∧
      s.flag Reg.ETH_PAIR_STATUS.MISMATCH = false) ∧
    (∃ (s : State) (dt : Nat), paired s = true ∧ pairKey s = true ∧ s.get Reg.ETH_PAIR_STATUS.ROLE = 2 ∧
      s.flag Reg.ETH_PAIR_STATUS.DRILL_PEND = false ∧ s.lease.stbyNs = none ∧ s.get Reg.ETH_PAIR_CFG.DRILL_PERIOD_H = 1 ∧
      s.get Reg.ETH_PAIR_CFG.DRILL_PHASE_H = 0 ∧ s.lease.hour ≠ some (hourNow (s.advance dt)) ∧
      (s.advance dt).time.ns % 3600000000000 = 0) ∧
    (∃ (s : State) (dt : Nat), paired s = true ∧ pairKey s = true ∧ s.get Reg.ETH_PAIR_STATUS.ROLE = 1 ∧ s.inRun = true ∧
      (ethUp s 0 = true ∨ ethUp s 1 = true) ∧ s.flag Reg.TIME_STATUS.STEP_USED = true ∧ tschOn s = true ∧
      (s.advance dt).agoNs (claimBase s) (pairNs (leaseMs s + guardMs s)) = true) ∧
    (∃ (s : State) (v : Word), paired s = true ∧ pairKey s = true ∧ v.getLsbD 63 = false) ∧
    (∃ (s : State) (dt : Nat) (d : Drill), paired s = true ∧ pairKey s = true ∧ s.lease.drill = some d ∧ d.sent = true ∧
      d.agreed = false ∧ (s.advance dt).elapsedMs d.tick 50 = true) :=
  ⟨⟨(let s := (((((((atNs run 50000000000).setFlag (Reg.KEYS_SLOT.VALID 7) true).set (Reg.KEYS_SLOT.USAGE 7) 4).set Reg.ETH_PAIR_CFG.PAIR_KEY_SLOT 7).set Reg.ETH_PAIR_STATUS.ROLE 1).set Reg.ETH_PAIR_TIMING.LEASE_MS 300).set Reg.ETH_PAIR_TIMING.DRIFT_GUARD_MS 50 |>.set Reg.ETH_PAIR_TIMING.RENEW_MS 50).set Reg.ETH_PAIR_STATUS.EPOCH 9; let s := eup s; s),
    (1),
    (leaseP 1 1 2 11 4 6 77 2 (schedHash (let s := (((((((atNs run 50000000000).setFlag (Reg.KEYS_SLOT.VALID 7) true).set (Reg.KEYS_SLOT.USAGE 7) 4).set Reg.ETH_PAIR_CFG.PAIR_KEY_SLOT 7).set Reg.ETH_PAIR_STATUS.ROLE 1).set Reg.ETH_PAIR_TIMING.LEASE_MS 300).set Reg.ETH_PAIR_TIMING.DRIFT_GUARD_MS 50 |>.set Reg.ETH_PAIR_TIMING.RENEW_MS 50).set Reg.ETH_PAIR_STATUS.EPOCH 9; let s := eup s; s)) false),
    by decide +kernel⟩,
   ⟨(let s := (((((((atNs run 50000000000).setFlag (Reg.KEYS_SLOT.VALID 7) true).set (Reg.KEYS_SLOT.USAGE 7) 4).set Reg.ETH_PAIR_CFG.PAIR_KEY_SLOT 7).set Reg.ETH_PAIR_STATUS.ROLE 1).set Reg.ETH_PAIR_TIMING.LEASE_MS 300).set Reg.ETH_PAIR_TIMING.DRIFT_GUARD_MS 50 |>.set Reg.ETH_PAIR_TIMING.RENEW_MS 50).set Reg.ETH_PAIR_STATUS.EPOCH 9; let s := eup s; s),
     (1),
     (leaseP 1 1 2 11 4 6 77 2 (schedHash (let s := (((((((atNs run 50000000000).setFlag (Reg.KEYS_SLOT.VALID 7) true).set (Reg.KEYS_SLOT.USAGE 7) 4).set Reg.ETH_PAIR_CFG.PAIR_KEY_SLOT 7).set Reg.ETH_PAIR_STATUS.ROLE 1).set Reg.ETH_PAIR_TIMING.LEASE_MS 300).set Reg.ETH_PAIR_TIMING.DRIFT_GUARD_MS 50 |>.set Reg.ETH_PAIR_TIMING.RENEW_MS 50).set Reg.ETH_PAIR_STATUS.EPOCH 9; let s := eup s; s)) true),
     by decide +kernel⟩,
   ⟨(let s := (((((((atNs run 50000000000).setFlag (Reg.KEYS_SLOT.VALID 7) true).set (Reg.KEYS_SLOT.USAGE 7) 4).set Reg.ETH_PAIR_CFG.PAIR_KEY_SLOT 7).set Reg.ETH_PAIR_STATUS.ROLE 1).set Reg.ETH_PAIR_TIMING.LEASE_MS 300).set Reg.ETH_PAIR_TIMING.DRIFT_GUARD_MS 50 |>.set Reg.ETH_PAIR_TIMING.RENEW_MS 50).set Reg.ETH_PAIR_STATUS.EPOCH 9; let s := eup s; s),
     (1),
     (leaseP 3 1 2 11 4 6 77 0 (schedHash (let s := (((((((atNs run 50000000000).setFlag (Reg.KEYS_SLOT.VALID 7) true).set (Reg.KEYS_SLOT.USAGE 7) 4).set Reg.ETH_PAIR_CFG.PAIR_KEY_SLOT 7).set Reg.ETH_PAIR_STATUS.ROLE 1).set Reg.ETH_PAIR_TIMING.LEASE_MS 300).set Reg.ETH_PAIR_TIMING.DRIFT_GUARD_MS 50 |>.set Reg.ETH_PAIR_TIMING.RENEW_MS 50).set Reg.ETH_PAIR_STATUS.EPOCH 9; let s := eup s; s)) true),
     by decide +kernel⟩,
   ⟨(let s := (((((((atNs run 50000000000).setFlag (Reg.KEYS_SLOT.VALID 7) true).set (Reg.KEYS_SLOT.USAGE 7) 4).set Reg.ETH_PAIR_CFG.PAIR_KEY_SLOT 7).set Reg.ETH_PAIR_STATUS.ROLE 1).set Reg.ETH_PAIR_TIMING.LEASE_MS 300).set Reg.ETH_PAIR_TIMING.DRIFT_GUARD_MS 50 |>.set Reg.ETH_PAIR_TIMING.RENEW_MS 50).set Reg.ETH_PAIR_STATUS.EPOCH 9; let s := eup s; let s := s.setFlag Reg.ETH_PAIR_STATUS.DRILL_PEND true; { s with lease := { s.lease with drill := some ({ epoch := 11, actAsn := 77, sent := true, agreed := false, tick := 0 } : Drill) } }),
     (5), (1),
     (leaseP 4 1 2 11 4 6 77 2 (schedHash (let s := (((((((atNs run 50000000000).setFlag (Reg.KEYS_SLOT.VALID 7) true).set (Reg.KEYS_SLOT.USAGE 7) 4).set Reg.ETH_PAIR_CFG.PAIR_KEY_SLOT 7).set Reg.ETH_PAIR_STATUS.ROLE 1).set Reg.ETH_PAIR_TIMING.LEASE_MS 300).set Reg.ETH_PAIR_TIMING.DRIFT_GUARD_MS 50 |>.set Reg.ETH_PAIR_TIMING.RENEW_MS 50).set Reg.ETH_PAIR_STATUS.EPOCH 9; let s := eup s; let s := s.setFlag Reg.ETH_PAIR_STATUS.DRILL_PEND true; { s with lease := { s.lease with drill := some ({ epoch := 11, actAsn := 77, sent := true, agreed := false, tick := 0 } : Drill) } })) true),
     ({ epoch := 11, actAsn := 77, sent := true, agreed := false, tick := 0 } : Drill), by decide +kernel⟩,
   ⟨(let s := (((((((atNs run 50000000000).setFlag (Reg.KEYS_SLOT.VALID 7) true).set (Reg.KEYS_SLOT.USAGE 7) 4).set Reg.ETH_PAIR_CFG.PAIR_KEY_SLOT 7).set Reg.ETH_PAIR_STATUS.ROLE 2).set Reg.ETH_PAIR_TIMING.LEASE_MS 300).set Reg.ETH_PAIR_TIMING.DRIFT_GUARD_MS 50 |>.set Reg.ETH_PAIR_TIMING.RENEW_MS 50).set Reg.ETH_PAIR_STATUS.EPOCH 9; let s := eup s; s),
     (70000000000), by decide +kernel⟩,
   ⟨(let s := (((((((atNs run 50000000000).setFlag (Reg.KEYS_SLOT.VALID 7) true).set (Reg.KEYS_SLOT.USAGE 7) 4).set Reg.ETH_PAIR_CFG.PAIR_KEY_SLOT 7).set Reg.ETH_PAIR_STATUS.ROLE 2).set Reg.ETH_PAIR_TIMING.LEASE_MS 300).set Reg.ETH_PAIR_TIMING.DRIFT_GUARD_MS 50 |>.set Reg.ETH_PAIR_TIMING.RENEW_MS 50).set Reg.ETH_PAIR_STATUS.EPOCH 9; let s := eup s; s),
     (70000000000), by decide +kernel⟩,
   ⟨(let s := (((((((atNs run 50000000000).setFlag (Reg.KEYS_SLOT.VALID 7) true).set (Reg.KEYS_SLOT.USAGE 7) 4).set Reg.ETH_PAIR_CFG.PAIR_KEY_SLOT 7).set Reg.ETH_PAIR_STATUS.ROLE 2).set Reg.ETH_PAIR_TIMING.LEASE_MS 300).set Reg.ETH_PAIR_TIMING.DRIFT_GUARD_MS 50 |>.set Reg.ETH_PAIR_TIMING.RENEW_MS 50).set Reg.ETH_PAIR_STATUS.EPOCH 9; let s := eup s; { s with lease := { s.lease with renewNs := 50000000000 } }),
     (5), by decide +kernel⟩,
   ⟨(let s := (((((((atNs run 50000000000).setFlag (Reg.KEYS_SLOT.VALID 7) true).set (Reg.KEYS_SLOT.USAGE 7) 4).set Reg.ETH_PAIR_CFG.PAIR_KEY_SLOT 7).set Reg.ETH_PAIR_STATUS.ROLE 2).set Reg.ETH_PAIR_TIMING.LEASE_MS 300).set Reg.ETH_PAIR_TIMING.DRIFT_GUARD_MS 50 |>.set Reg.ETH_PAIR_TIMING.RENEW_MS 50).set Reg.ETH_PAIR_STATUS.EPOCH 9; let s := eup s; s),
     (0x0000000000000001), by decide +kernel⟩,
   ⟨(let s := (((((((atNs run 50000000000).setFlag (Reg.KEYS_SLOT.VALID 7) true).set (Reg.KEYS_SLOT.USAGE 7) 4).set Reg.ETH_PAIR_CFG.PAIR_KEY_SLOT 7).set Reg.ETH_PAIR_STATUS.ROLE 2).set Reg.ETH_PAIR_TIMING.LEASE_MS 300).set Reg.ETH_PAIR_TIMING.DRIFT_GUARD_MS 50 |>.set Reg.ETH_PAIR_TIMING.RENEW_MS 50).set Reg.ETH_PAIR_STATUS.EPOCH 4294967295; let s := eup s; { s with lease := { s.lease with stbyNs := some 50000000000 } }),
     (0), by decide +kernel⟩,
   ⟨(let s := (((((((atNs run 50000000000).setFlag (Reg.KEYS_SLOT.VALID 7) true).set (Reg.KEYS_SLOT.USAGE 7) 4).set Reg.ETH_PAIR_CFG.PAIR_KEY_SLOT 7).set Reg.ETH_PAIR_STATUS.ROLE 2).set Reg.ETH_PAIR_TIMING.LEASE_MS 300).set Reg.ETH_PAIR_TIMING.DRIFT_GUARD_MS 50 |>.set Reg.ETH_PAIR_TIMING.RENEW_MS 50).set Reg.ETH_PAIR_STATUS.EPOCH 9; let s := eup s; let s := s.set Reg.ETH_PAIR_CFG.DRILL_PERIOD_H 1; { s with time := { s.time with ns := 7200000000000 } }),
     (0), by decide +kernel⟩,
   ⟨(let s := (((((((atNs run 50000000000).setFlag (Reg.KEYS_SLOT.VALID 7) true).set (Reg.KEYS_SLOT.USAGE 7) 4).set Reg.ETH_PAIR_CFG.PAIR_KEY_SLOT 7).set Reg.ETH_PAIR_STATUS.ROLE 1).set Reg.ETH_PAIR_TIMING.LEASE_MS 300).set Reg.ETH_PAIR_TIMING.DRIFT_GUARD_MS 50 |>.set Reg.ETH_PAIR_TIMING.RENEW_MS 50).set Reg.ETH_PAIR_STATUS.EPOCH 9; let s := eup s; s.setFlag Reg.TIME_STATUS.STEP_USED true |>.setFlag Reg.MAC_STATUS.TSCH_ON true),
     (70000000000), by decide +kernel⟩,
   ⟨(let s := (((((((atNs run 50000000000).setFlag (Reg.KEYS_SLOT.VALID 7) true).set (Reg.KEYS_SLOT.USAGE 7) 4).set Reg.ETH_PAIR_CFG.PAIR_KEY_SLOT 7).set Reg.ETH_PAIR_STATUS.ROLE 1).set Reg.ETH_PAIR_TIMING.LEASE_MS 300).set Reg.ETH_PAIR_TIMING.DRIFT_GUARD_MS 50 |>.set Reg.ETH_PAIR_TIMING.RENEW_MS 50).set Reg.ETH_PAIR_STATUS.EPOCH 9; let s := eup s; s),
     (0x0000000000000001), by decide +kernel⟩,
   ⟨(let s := (((((((atNs run 50000000000).setFlag (Reg.KEYS_SLOT.VALID 7) true).set (Reg.KEYS_SLOT.USAGE 7) 4).set Reg.ETH_PAIR_CFG.PAIR_KEY_SLOT 7).set Reg.ETH_PAIR_STATUS.ROLE 1).set Reg.ETH_PAIR_TIMING.LEASE_MS 300).set Reg.ETH_PAIR_TIMING.DRIFT_GUARD_MS 50 |>.set Reg.ETH_PAIR_TIMING.RENEW_MS 50).set Reg.ETH_PAIR_STATUS.EPOCH 9; let s := eup s; { s with lease := { s.lease with drill := some ({ epoch := 11, actAsn := 77, sent := true, agreed := false, tick := 0 } : Drill) } }),
     (70000000000), ({ epoch := 11, actAsn := 77, sent := true, agreed := false, tick := 0 } : Drill), by decide +kernel⟩⟩

theorem witness_KeysCommandsStart :
    (∃ (s : State) (dt : Nat) (init : Init) (slot : Fin 32) (level : Byte) (c : Instr) (op : Nat) (lv : Nat) (sl : Nat),
      (c, op, lv, sl) ∈ [(Instr.keyUpdate dt init, 0x01, 0, 0), (.lcAdvance dt init, 0x02, 0, 0), (.debugUnlock dt init, 0x03, 0, 0), (.importKeys dt init, 0x04, 0, 0), (.exportKeys dt init, 0x05, 0, 0), (.gooseClear dt init, 0x06, 0, 0), (.updateLock dt init, 0x07, 0, 0), (.settings dt init, 0x08, 0, 0), (.attest dt init, 0x09, 0, 0), (.derive dt init, 0x0A, 0, 0), (.clearSlot dt init slot, 0x0B, 0, slot.val), (.arbAdvance dt init level, 0x0C, level.toNat, 0), (.seal dt init, 0x0D, 0, 0), (.openBlob dt init, 0x0E, 0, 0), (.reladder dt init, 0x0F, 0, 0), (.provision dt init, 0x20, 0, 0), (.ownerInit dt init, 0x21, 0, 0)] ∧
      s.flag Reg.KEYS_CMD_STATUS.BUSY = false) ∧
    (∃ (s : State) (dt : Nat) (init : Init) (slot : Fin 32) (level : Byte) (c : Instr) (op : Nat) (lv : Nat) (sl : Nat),
      (c, op, lv, sl) ∈ [(Instr.keyUpdate dt init, 0x01, 0, 0), (.lcAdvance dt init, 0x02, 0, 0), (.debugUnlock dt init, 0x03, 0, 0), (.importKeys dt init, 0x04, 0, 0), (.exportKeys dt init, 0x05, 0, 0), (.gooseClear dt init, 0x06, 0, 0), (.updateLock dt init, 0x07, 0, 0), (.settings dt init, 0x08, 0, 0), (.attest dt init, 0x09, 0, 0), (.derive dt init, 0x0A, 0, 0), (.clearSlot dt init slot, 0x0B, 0, slot.val), (.arbAdvance dt init level, 0x0C, level.toNat, 0), (.seal dt init, 0x0D, 0, 0), (.openBlob dt init, 0x0E, 0, 0), (.reladder dt init, 0x0F, 0, 0), (.provision dt init, 0x20, 0, 0), (.ownerInit dt init, 0x21, 0, 0)] ∧
      s.flag Reg.KEYS_CMD_STATUS.BUSY = true) :=
  ⟨⟨((atNs run 50).setFlag Reg.KEYS_CMD_STATUS.BUSY false |>.set (Reg.KEYS_RESULT.DATA 3) 9 |>.setFlag (Reg.KEYS_RESULT.VALID 3) true),
    (7), (.core 1), (9), (4), (Instr.keyUpdate (7) (.core 1)), (1), (0), (0), by decide +kernel⟩,
   ⟨((atNs run 50).setFlag Reg.KEYS_CMD_STATUS.BUSY true |>.set (Reg.KEYS_RESULT.DATA 3) 9 |>.setFlag (Reg.KEYS_RESULT.VALID 3) true),
     (7), (.core 1), (9), (4), (Instr.keyUpdate (7) (.core 1)), (1), (0), (0), by decide +kernel⟩⟩

theorem witness_KeysOperationsEnd :
    (∃ (s : State) (o : KeysOp), s.keys.op = some o ∧ (o.op ≠ 9 ∨ nvReady s NvKind.ATT = true) ∧ keysCause s o ≠ 0) ∧
    (∃ (s : State) (o : KeysOp), s.keys.op = some o ∧ keysCause s o = 0 ∧ o.op = 0x03) ∧
    (∃ (s : State) (o : KeysOp), s.keys.op = some o ∧ keysCause s o = 0 ∧ o.op = 0x04) ∧
    (∃ (s : State) (o : KeysOp), s.keys.op = some o ∧ keysCause s o = 0 ∧ o.op = 0x05 ∧
      (keyWrap (wrapKey s "PBE960 EXPORT" (field (msgBody s o o.op) 0 1) (((msgBody s o o.op).drop 8).take 32) (((msgBody s o o.op).drop 40).take 32)) (Cells.get s.crypto.slotKeys (field (msgBody s o o.op) 0 1) [])).length = 40) ∧
    (∃ (s : State) (o : KeysOp), s.keys.op = some o ∧ keysCause s o = 0 ∧ o.op = 0x06) ∧
    (∃ (s : State) (o : KeysOp), s.keys.op = some o ∧ keysCause s o = 0 ∧ o.op = 0x0A) ∧
    (∃ (s : State) (o : KeysOp) (data : List Byte), s.keys.op = some o ∧ keysCause s o = 0 ∧ o.jtag = false ∧ (o.op = 0x0D ∧
      data = ccmCrypt (sealKey s (keysInput s o 4136)) (sealNonce (keysInput s o 4136)) (sealData (keysInput s o 4136)) ++ ccmTag (sealKey s (keysInput s o 4136)) (sealNonce (keysInput s o 4136)) [] (sealData (keysInput s o 4136)) 16 ∨
      o.op = 0x0E ∧
      data = ccmCrypt (sealKey s (keysInput s o 4136)) (sealNonce (keysInput s o 4136)) (sealData (keysInput s o 4136)))) ∧
    (∃ (s : State) (o : KeysOp), s.keys.op = some o ∧ s.flag Reg.KEYS_STATUS.LOCKED = true ∧ o.op ≠ 6 ∧ o.op ≠ 9) ∧
    (∃ (s : State) (o : KeysOp), s.keys.op = some o ∧ s.flag Reg.KEYS_STATUS.LOCKED = false ∧ s.keys.sensed = true ∧
      s.keys.lc ≠ 0 ∧ s.keys.lc ≠ 5 ∧ s.boot ≠ Boot.TAMPER_HOLD ∧ 1 ≤ o.op ∧ o.op ≤ 8 ∧
      field (keysInput s o (msgLength o.op)) 0 4 ≠ 0x4B45594D) ∧
    (∃ (s : State) (dt : Nat) (o : KeysOp), s.keys.op = some o ∧ keysCause s o = 0 ∧ keysPlan (s.advance dt) o ≠ []) ∧
    (∃ (s : State) (o : KeysOp), s.keys.op = some o ∧ s.inRun = true ∧ s.flag Reg.KEYS_STATUS.LOCKED = false ∧
      s.keys.sensed = true ∧ s.keys.lc ≠ 0 ∧ s.keys.lc ≠ 5 ∧ o.op = 0x0B) ∧
    (∃ (s : State) (o : KeysOp), s.keys.op = some o ∧ s.inRun = true ∧ s.flag Reg.KEYS_STATUS.LOCKED = false ∧
      s.keys.sensed = true ∧ s.keys.lc ≠ 0 ∧ s.keys.lc ≠ 5 ∧ o.op = 0x0F) ∧
    (∃ (s : State) (o : KeysOp), s.keys.op = some o ∧ s.inRun = true ∧ s.flag Reg.KEYS_STATUS.LOCKED = false ∧
      s.keys.sensed = true ∧ s.keys.lc ≠ 0 ∧ s.keys.lc ≠ 5 ∧ o.op = 9 ∧ slotHas s 1 5 = true ∧ nvReady s NvKind.ATT = true) :=
  ⟨⟨(let s := (atNs run 50).setFlag Reg.KEYS_STATUS.LOCKED true; let s := { s with keys := { s.keys with op := some ({ op := 1, level := 0, slot := 0, jtag := false } : KeysOp), sensed := true, lc := 3 } }; s),
    ({ op := 1, level := 0, slot := 0, jtag := false } : KeysOp), by decide +kernel⟩,
   ⟨(inJtag (keyMsg 3 []) (keyOps 2 ({ op := 3, level := 0, slot := 0, jtag := true } : KeysOp))),
     ({ op := 3, level := 0, slot := 0, jtag := true } : KeysOp), by decide +kernel⟩,
   ⟨(inJtag (keyMsg 4 (leBytes 1 5 ++ leBytes 1 1 ++ leBytes 6 0 ++ gOct ++ keyWrap (wrapKey (idOne (keyOps 3 ({ op := 4, level := 0, slot := 0, jtag := true } : KeysOp))) "PBE960 IMPORT" 5 (beBytes 32 pGx) (beBytes 32 pGy)) (List.replicate 16 9))) (idOne (keyOps 3 ({ op := 4, level := 0, slot := 0, jtag := true } : KeysOp)))),
     ({ op := 4, level := 0, slot := 0, jtag := true } : KeysOp), by decide +kernel⟩,
   ⟨(inJtag (keyMsg 5 (leBytes 8 1 ++ gOct)) (slotPut (idOne (keyOps 3 ({ op := 5, level := 0, slot := 0, jtag := true } : KeysOp))) 1 1 1 true 0x20 (List.replicate 32 9))),
     ({ op := 5, level := 0, slot := 0, jtag := true } : KeysOp), by decide +kernel⟩,
   ⟨(inJtag (keyMsg 6 (List.replicate 24 0)) (keyOps 1 ({ op := 6, level := 0, slot := 0, jtag := true } : KeysOp))),
     ({ op := 6, level := 0, slot := 0, jtag := true } : KeysOp), by decide +kernel⟩,
   ⟨(inJtag ([4,9,1,0] ++ [8,2,0,0] ++ ascii "MESH KEY" ++ [1,2]) (slotPut (keyOps 3 ({ op := 10, level := 0, slot := 0, jtag := true } : KeysOp)) 4 1 1 false 0x10 (List.replicate 32 9))),
     ({ op := 10, level := 0, slot := 0, jtag := true } : KeysOp), by decide +kernel⟩,
   ⟨(let s := slotPut (keyOps 3 ({ op := 13, level := 0, slot := 0, jtag := false } : KeysOp)) 4 1 0 false 1 (List.replicate 16 9); let s := (s.set Reg.DDRC_STATUS.SIZE_GIB 1).set Reg.KEYS_MSG_ADDR.ADDR (lp4xBase / 8); s.ddrWrite lp4xBase ([4,0,0,0] ++ [5,0,0,0] ++ List.replicate 13 1 ++ [0,0,0] ++ [1,2,3,4,5])),
     ({ op := 13, level := 0, slot := 0, jtag := false } : KeysOp),
     (ccmCrypt (sealKey (let s := slotPut (keyOps 3 ({ op := 13, level := 0, slot := 0, jtag := false } : KeysOp)) 4 1 0 false 1 (List.replicate 16 9); let s := (s.set Reg.DDRC_STATUS.SIZE_GIB 1).set Reg.KEYS_MSG_ADDR.ADDR (lp4xBase / 8); s.ddrWrite lp4xBase ([4,0,0,0] ++ [5,0,0,0] ++ List.replicate 13 1 ++ [0,0,0] ++ [1,2,3,4,5])) (keysInput (let s := slotPut (keyOps 3 ({ op := 13, level := 0, slot := 0, jtag := false } : KeysOp)) 4 1 0 false 1 (List.replicate 16 9); let s := (s.set Reg.DDRC_STATUS.SIZE_GIB 1).set Reg.KEYS_MSG_ADDR.ADDR (lp4xBase / 8); s.ddrWrite lp4xBase ([4,0,0,0] ++ [5,0,0,0] ++ List.replicate 13 1 ++ [0,0,0] ++ [1,2,3,4,5])) ({ op := 13, level := 0, slot := 0, jtag := false } : KeysOp) 4136)) (sealNonce (keysInput (let s := slotPut (keyOps 3 ({ op := 13, level := 0, slot := 0, jtag := false } : KeysOp)) 4 1 0 false 1 (List.replicate 16 9); let s := (s.set Reg.DDRC_STATUS.SIZE_GIB 1).set Reg.KEYS_MSG_ADDR.ADDR (lp4xBase / 8); s.ddrWrite lp4xBase ([4,0,0,0] ++ [5,0,0,0] ++ List.replicate 13 1 ++ [0,0,0] ++ [1,2,3,4,5])) ({ op := 13, level := 0, slot := 0, jtag := false } : KeysOp) 4136)) (sealData (keysInput (let s := slotPut (keyOps 3 ({ op := 13, level := 0, slot := 0, jtag := false } : KeysOp)) 4 1 0 false 1 (List.replicate 16 9); let s := (s.set Reg.DDRC_STATUS.SIZE_GIB 1).set Reg.KEYS_MSG_ADDR.ADDR (lp4xBase / 8); s.ddrWrite lp4xBase ([4,0,0,0] ++ [5,0,0,0] ++ List.replicate 13 1 ++ [0,0,0] ++ [1,2,3,4,5])) ({ op := 13, level := 0, slot := 0, jtag := false } : KeysOp) 4136)) ++ ccmTag (sealKey (let s := slotPut (keyOps 3 ({ op := 13, level := 0, slot := 0, jtag := false } : KeysOp)) 4 1 0 false 1 (List.replicate 16 9); let s := (s.set Reg.DDRC_STATUS.SIZE_GIB 1).set Reg.KEYS_MSG_ADDR.ADDR (lp4xBase / 8); s.ddrWrite lp4xBase ([4,0,0,0] ++ [5,0,0,0] ++ List.replicate 13 1 ++ [0,0,0] ++ [1,2,3,4,5])) (keysInput (let s := slotPut (keyOps 3 ({ op := 13, level := 0, slot := 0, jtag := false } : KeysOp)) 4 1 0 false 1 (List.replicate 16 9); let s := (s.set Reg.DDRC_STATUS.SIZE_GIB 1).set Reg.KEYS_MSG_ADDR.ADDR (lp4xBase / 8); s.ddrWrite lp4xBase ([4,0,0,0] ++ [5,0,0,0] ++ List.replicate 13 1 ++ [0,0,0] ++ [1,2,3,4,5])) ({ op := 13, level := 0, slot := 0, jtag := false } : KeysOp) 4136)) (sealNonce (keysInput (let s := slotPut (keyOps 3 ({ op := 13, level := 0, slot := 0, jtag := false } : KeysOp)) 4 1 0 false 1 (List.replicate 16 9); let s := (s.set Reg.DDRC_STATUS.SIZE_GIB 1).set Reg.KEYS_MSG_ADDR.ADDR (lp4xBase / 8); s.ddrWrite lp4xBase ([4,0,0,0] ++ [5,0,0,0] ++ List.replicate 13 1 ++ [0,0,0] ++ [1,2,3,4,5])) ({ op := 13, level := 0, slot := 0, jtag := false } : KeysOp) 4136)) [] (sealData (keysInput (let s := slotPut (keyOps 3 ({ op := 13, level := 0, slot := 0, jtag := false } : KeysOp)) 4 1 0 false 1 (List.replicate 16 9); let s := (s.set Reg.DDRC_STATUS.SIZE_GIB 1).set Reg.KEYS_MSG_ADDR.ADDR (lp4xBase / 8); s.ddrWrite lp4xBase ([4,0,0,0] ++ [5,0,0,0] ++ List.replicate 13 1 ++ [0,0,0] ++ [1,2,3,4,5])) ({ op := 13, level := 0, slot := 0, jtag := false } : KeysOp) 4136)) 16),
     by decide +kernel⟩,
   ⟨(let s := (atNs run 50).setFlag Reg.KEYS_STATUS.LOCKED true; let s := { s with keys := { s.keys with op := some ({ op := 1, level := 0, slot := 0, jtag := false } : KeysOp), sensed := true, lc := 3 } }; s),
     ({ op := 1, level := 0, slot := 0, jtag := false } : KeysOp), by decide +kernel⟩,
   ⟨(let s := (atNs run 50).setFlag Reg.KEYS_STATUS.LOCKED false; let s := { s with keys := { s.keys with op := some ({ op := 1, level := 0, slot := 0, jtag := true } : KeysOp), sensed := true, lc := 3 } }; s),
     ({ op := 1, level := 0, slot := 0, jtag := true } : KeysOp), by decide +kernel⟩,
   ⟨(inJtag (keyMsg 2 [5]) (keyOps 3 ({ op := 2, level := 0, slot := 0, jtag := true } : KeysOp))), (7),
     ({ op := 2, level := 0, slot := 0, jtag := true } : KeysOp), by decide +kernel⟩,
   ⟨(let s := (atNs run 50).setFlag Reg.KEYS_STATUS.LOCKED false; let s := { s with keys := { s.keys with op := some ({ op := 11, level := 0, slot := 0, jtag := false } : KeysOp), sensed := true, lc := 3 } }; let s := s.setFlag (Reg.KEYS_SLOT.VALID 9) true; { s with crypto := { s.crypto with slotKeys := [(2,[1]),(9,[5]),(11,[6])] } }),
     ({ op := 11, level := 0, slot := 0, jtag := false } : KeysOp), by decide +kernel⟩,
   ⟨(let s := (atNs run 50).setFlag Reg.KEYS_STATUS.LOCKED false; let s := { s with keys := { s.keys with op := some ({ op := 15, level := 0, slot := 0, jtag := false } : KeysOp), sensed := true, lc := 3 } }; s.setFlag Reg.KEYS_STATUS.ZEROIZED true),
     ({ op := 15, level := 0, slot := 0, jtag := false } : KeysOp), by decide +kernel⟩,
   ⟨(let s := (atNs run 50).setFlag Reg.KEYS_STATUS.LOCKED false; let s := { s with keys := { s.keys with op := some ({ op := 9, level := 0, slot := 0, jtag := false } : KeysOp), sensed := true, lc := 3 } }; (s.setFlag (Reg.KEYS_SLOT.VALID 1) true).set (Reg.KEYS_SLOT.USAGE 1) 32),
     ({ op := 9, level := 0, slot := 0, jtag := false } : KeysOp), by decide +kernel⟩⟩

theorem witness_NfcReader :
    (∃ (s : State) (ext : Bool) (e : Nat), fieldOn s = false ∧ ((s.nfc.emu.isSome = true ∧ e = 8) ∨ (s.nfc.emu = none ∧
      s.flag Reg.NFC_STATUS.READY = false ∧ e = 9) ∨ (s.nfc.emu = none ∧ s.flag Reg.NFC_STATUS.READY = true ∧ (ext = true ∨
      s.flag Reg.NFC_STATUS.EXT_FIELD = true) ∧ e = 7))) ∧
    (∃ (s : State), fieldOn s = false ∧ s.nfc.emu = none ∧ s.flag Reg.NFC_STATUS.READY = true ∧
      s.flag Reg.NFC_STATUS.EXT_FIELD = false) ∧
    (∃ (s : State) (w : Word) (buf : Nat) (pr : Nat) (till : Nat), fieldOn s = true ∧
      s.nfc.op = some (.transceive w buf pr till)) ∧
    (∃ (s : State) (v : Word), v.getLsbD 63 = true ∧ s.nfc.op = none ∧ fieldOn s = false) ∧
    (∃ (s : State) (v : Word), v.getLsbD 63 = true ∧ s.nfc.op = none ∧ fieldOn s = true ∧ s.inLp4x (rdrBuf s) 512 = true) ∧
    (∃ (s : State) (dt : Nat) (w : Word) (buf : Nat) (pr : Nat) (till : Nat) (ans : NfcAnswer),
      s.nfc.op = some (.transceive w buf pr till) ∧ s.nfc.beginTick ≤ (s.advance dt).tick ∧
      s.inLp4x (buf + 0x200) (packBits 512 (nfcStored w.toNat pr ans).1).length = true) ∧
    (∃ (s : State) (dt : Nat) (w : Word) (ta : TagA), s.nfc.op = some (.anticollision w) ∧
      s.nfc.beginTick ≤ (s.advance dt).tick ∧ bits w.toNat 51 43 = 0 ∧ s.inLp4x (bits w.toNat 39 4 * 16) 16 = true ∧
      w.getLsbD 62 = false ∧ ta.uid.length = 4 ∧ ta.halted = false) ∧
    (∃ (s : State) (dt : Nat) (w : Word), s.nfc.op = some (.anticollision w) ∧ s.nfc.beginTick ≤ (s.advance dt).tick ∧
      bits w.toNat 51 43 = 0 ∧ s.inLp4x (bits w.toNat 39 4 * 16) 16 = true ∧ w.getLsbD 62 = true ∧ w.getLsbD 60 = false) ∧
    (∃ (s : State) (w : Word), s.nfc.op = some (.originality w) ∧ s.inLp4x (bits w.toNat 39 6 * 64) 592 = true ∧
      (field (s.ddr (bits w.toNat 39 6 * 64) 592) 0 1 < 4 ∨ 10 < field (s.ddr (bits w.toNat 39 6 * 64) 592) 0 1)) ∧
    (∃ (s : State) (w : Word), s.nfc.op = some (.originality w) ∧ s.inLp4x (bits w.toNat 39 6 * 64) 592 = true ∧
      4 ≤ field (s.ddr (bits w.toNat 39 6 * 64) 592) 0 1 ∧ field (s.ddr (bits w.toNat 39 6 * 64) 592) 0 1 ≤ 10 ∧
      field (s.ddr (bits w.toNat 39 6 * 64) 592) 11 1 = 1 ∧
      scalarOk (((s.ddr (bits w.toNat 39 6 * 64) 592).drop 16).take 32) = true ∧
      scalarOk (((s.ddr (bits w.toNat 39 6 * 64) 592).drop 48).take 32) = true ∧ w.getLsbD 62 = false) ∧
    (∃ (s : State) (dt : Nat), pingDue (s.advance dt) = false) ∧
    (∃ (s : State) (dt : Nat) (ext : Bool), pingDue (s.advance dt) = true ∧ pingSkipped s ext = true) ∧
    (∃ (s : State) (dt : Nat) (ext : Bool) (amp : Int), pingDue (s.advance dt) = true ∧ pingSkipped s ext = false ∧
      s.nfc.baseAmp ≠ 0 ∧ presAmp s < ((1000 * (amp * 65536 - s.nfc.baseAmp)).tdiv s.nfc.baseAmp).natAbs) ∧
    (∃ (s : State) (dt : Nat) (ext : Bool) (amp : Int) (phase : Int), pingDue (s.advance dt) = true ∧
      pingSkipped s ext = false ∧ s.nfc.baseAmp ≠ 0 ∧ amp * 65536 = s.nfc.baseAmp ∧ phase * 65536 = s.nfc.basePhase) :=
  ⟨⟨(let s := (atNs run 50).setFlag Reg.NFC_STATUS.FIELD_ON false |>.setFlag Reg.NFC_STATUS.READY true; let s := { withRecs s with nfc := { s.nfc with emu := some { active := true, uid := [1,2,3,4], atqa := 4 } } }; s),
    (false), (8), by decide +kernel⟩,
   ⟨(let s := (atNs run 50).setFlag Reg.NFC_STATUS.FIELD_ON false |>.setFlag Reg.NFC_STATUS.READY true; let s := { withRecs s with nfc := { s.nfc with beginTick := 0 } }; s),
     by decide +kernel⟩,
   ⟨(let s := (atNs run 50).setFlag Reg.NFC_STATUS.FIELD_ON true |>.setFlag Reg.NFC_STATUS.READY true; let s := { withRecs s with nfc := { s.nfc with op := some (.transceive (7) (lp4xBase) (0) (0)) } }; s),
     (7), (lp4xBase), (0), (0), by decide +kernel⟩,
   ⟨(let s := (atNs run 50).setFlag Reg.NFC_STATUS.FIELD_ON false |>.setFlag Reg.NFC_STATUS.READY true; let s := { withRecs s with nfc := { s.nfc with emu := some { active := true, uid := [1,2,3,4], atqa := 4 } } }; s),
     (0x8000000000000021), by decide +kernel⟩,
   ⟨(let s := (atNs run 50).setFlag Reg.NFC_STATUS.FIELD_ON true |>.setFlag Reg.NFC_STATUS.READY true; let s := { withRecs s with nfc := { s.nfc with op := none } }; s.set Reg.NFC_RDR_BUF.ADDR (lp4xBase / 1024)),
     (0x8000000000000021), by decide +kernel⟩,
   ⟨(let s := (atNs run 50).setFlag Reg.NFC_STATUS.FIELD_ON true |>.setFlag Reg.NFC_STATUS.READY true; let s := { withRecs s with nfc := { s.nfc with op := some (.transceive (7) (lp4xBase) (0) (5)) } }; s),
     (1000000000), (7), (lp4xBase), (0), (5), ({ bits := [] } : NfcAnswer), by decide +kernel⟩,
   ⟨(let s := (atNs run 50).setFlag Reg.NFC_STATUS.FIELD_ON true |>.setFlag Reg.NFC_STATUS.READY true; let s := { withRecs s with nfc := { s.nfc with op := some (.anticollision (0x1000000000)) } }; s),
     (1000000000), (0x1000000000), ({ uid := [1,2,3,4], atqa := 68, sak := 32 } : TagA), by decide +kernel⟩,
   ⟨(let s := (atNs run 50).setFlag Reg.NFC_STATUS.FIELD_ON true |>.setFlag Reg.NFC_STATUS.READY true; let s := { withRecs s with nfc := { s.nfc with op := some (.anticollision (0x4000001000000000)) } }; s),
     (1000000000), (0x4000001000000000), by decide +kernel⟩,
   ⟨(let s := (atNs run 50).setFlag Reg.NFC_STATUS.FIELD_ON false |>.setFlag Reg.NFC_STATUS.READY true; let s := { withRecs s with nfc := { s.nfc with op := some (.originality (BitVec.ofNat 64 lp4xBase)) } }; s.ddrWrite lp4xBase ([0,1,2,3,4,0,0,0,0,0,0,1,0,0,0,0] ++ beBytes 32 5 ++ beBytes 32 7)),
     (BitVec.ofNat 64 lp4xBase), by decide +kernel⟩,
   ⟨(let s := (atNs run 50).setFlag Reg.NFC_STATUS.FIELD_ON false |>.setFlag Reg.NFC_STATUS.READY true; let s := { withRecs s with nfc := { s.nfc with op := some (.originality (BitVec.ofNat 64 lp4xBase)) } }; s.ddrWrite lp4xBase ([4,1,2,3,4,0,0,0,0,0,0,1,0,0,0,0] ++ beBytes 32 5 ++ beBytes 32 7)),
     (BitVec.ofNat 64 lp4xBase), by decide +kernel⟩,
   ⟨(let s := (atNs run 50).setFlag Reg.NFC_STATUS.FIELD_ON false |>.setFlag Reg.NFC_STATUS.READY true; let s := { withRecs s with nfc := { s.nfc with emu := some { active := true, uid := [1,2,3,4], atqa := 4 } } }; s),
     (1000000000), by decide +kernel⟩,
   ⟨(let s := (atNs run 50).setFlag Reg.NFC_STATUS.FIELD_ON false |>.setFlag Reg.NFC_STATUS.READY true; let s := { withRecs s with nfc := { s.nfc with pingTick := 0 } }; (s.setFlag Reg.NFC_PRES_CTRL.EN true).set Reg.NFC_PRES_CTRL.AMP_THR 5),
     (1000000000), (true), by decide +kernel⟩,
   ⟨(let s := (atNs run 50).setFlag Reg.NFC_STATUS.FIELD_ON false |>.setFlag Reg.NFC_STATUS.READY true; let s := { withRecs s with nfc := { s.nfc with baseAmp := 655360, basePhase := 65536 } }; (s.setFlag Reg.NFC_PRES_CTRL.EN true).set Reg.NFC_PRES_CTRL.AMP_THR 5),
     (1000000000), (false), (1), by decide +kernel⟩,
   ⟨(let s := (atNs run 50).setFlag Reg.NFC_STATUS.FIELD_ON false |>.setFlag Reg.NFC_STATUS.READY true; let s := { withRecs s with nfc := { s.nfc with baseAmp := 65536, basePhase := 65536 } }; (s.setFlag Reg.NFC_PRES_CTRL.EN true).set Reg.NFC_PRES_CTRL.AMP_THR 5),
     (1000000000), (false), (1), (1), by decide +kernel⟩⟩

theorem witness_EmulatedTag :
    (∃ (s : State), fieldOn s = false ∧ s.nfc.emu = none ∧ s.inRun = true ∧ s.flag Reg.NFC_EMU_CTRL.EN = false) ∧
    (∃ (s : State), fieldOn s = false ∧ s.nfc.emu = none ∧ (s.inRun = false ∨ s.flag Reg.NFC_EMU_CTRL.EN = true)) ∧
    (∃ (s : State) (e : EmuSession), s.nfc.emu = some e ∧ (e.active = true ∨ s.fwm = [])) ∧
    (∃ (s : State) (dt : Nat) (e : EmuSession) (fd : Nat) (i : _), s.nfc.emu = some e ∧
      (i, fd) ∈ [(Instr.emuReqa dt, 1172), (.emuWupa dt, 1236)]) ∧
    (∃ (s : State) (e : EmuSession) (level : Fin 3) (known : List Bool), s.nfc.emu = some e ∧ e.levels = level.val ∧
      level.val < (uidLevels e.uid).length ∧ known.isPrefixOf (octetBits (levelOctets e.uid level)) = true) ∧
    (∃ (s : State) (e : EmuSession) (level : Fin 3), s.nfc.emu = some e ∧ e.levels = level.val ∧
      level.val < (uidLevels e.uid).length) ∧
    (∃ (s : State) (e : EmuSession), s.nfc.emu = some e ∧ e.levels = (uidLevels e.uid).length) ∧
    (∃ (s : State) (e : EmuSession), s.nfc.emu = some e ∧ e.rats = true ∧ e.file = none) ∧
    (∃ (s : State) (e : EmuSession) (ofs : Nat) (len : Nat) (f : Nat), s.nfc.emu = some e ∧ e.rats = true ∧ e.file = some f ∧
      1 ≤ len ∧ len ≤ 240 ∧ ofs + len ≤ ((fileBytes s f).getD []).length) ∧
    (∃ (s : State) (e : EmuSession) (d : List Byte) (ofs : Nat) (f : Nat) (r : Nat), s.nfc.emu = some e ∧ e.rats = true ∧
      e.file = some f ∧ d.length ≤ 240 ∧ d ≠ [] ∧ fileRecord f = some r ∧ r ≤ 28 ∧ bit (writeMask s) r = true ∧
      ofs + d.length ≤ 240) ∧
    (∃ (s : State) (e : EmuSession) (d : List Byte) (f : Nat) (r : Nat), s.nfc.emu = some e ∧ e.rats = true ∧ e.file = some f ∧
      d.length ≤ 240 ∧ d ≠ [] ∧ fileRecord f = some r ∧ bit (writeMask s) r = false) ∧
    (∃ (s : State) (e : EmuSession) (c : Nat), s.nfc.emu = some e ∧ e.rats = true ∧ c ≤ 15) :=
  ⟨⟨(let s := (atNs (run) 50).setFlag Reg.NFC_EMU_CTRL.EN false |>.setFlag Reg.NFC_EMU_CTRL.ACTIVE_EN true; s),
    by decide +kernel⟩,
   ⟨(let s := (atNs (run) 50).setFlag Reg.NFC_EMU_CTRL.EN true |>.setFlag Reg.NFC_EMU_CTRL.ACTIVE_EN true; s),
     by decide +kernel⟩,
   ⟨(let s := (atNs run 50).setFlag Reg.NFC_STATUS.FIELD_ON false |>.setFlag Reg.NFC_STATUS.READY true; let s := { withRecs s with nfc := { s.nfc with emu := some ({ active := true, uid := [1,2,3,4,5,6,7], atqa := 68, levels := 0, rats := false, file := none } : EmuSession) } }; s),
     ({ active := true, uid := [1,2,3,4,5,6,7], atqa := 68, levels := 0, rats := false, file := none } : EmuSession),
     by decide +kernel⟩,
   ⟨(let s := { (atNs run 50) with nfc := { run.nfc with emu := some ({ active := true, uid := [1,2,3,4,5,6,7], atqa := 68, levels := 1, rats := true, file := some 0xE104 } : EmuSession) } }; s),
     (7), ({ active := true, uid := [1,2,3,4,5,6,7], atqa := 68, levels := 1, rats := true, file := some 0xE104 } : EmuSession),
     (1172), (.emuReqa (7)), by decide +kernel⟩,
   ⟨(let s := (atNs run 50).setFlag Reg.NFC_STATUS.FIELD_ON false |>.setFlag Reg.NFC_STATUS.READY true; let s := { withRecs s with nfc := { s.nfc with emu := some ({ active := true, uid := [1,2,3,4,5,6,7], atqa := 68, levels := 0, rats := false, file := none } : EmuSession) } }; s),
     ({ active := true, uid := [1,2,3,4,5,6,7], atqa := 68, levels := 0, rats := false, file := none } : EmuSession), (0), ([]),
     by decide +kernel⟩,
   ⟨(let s := (atNs run 50).setFlag Reg.NFC_STATUS.FIELD_ON false |>.setFlag Reg.NFC_STATUS.READY true; let s := { withRecs s with nfc := { s.nfc with emu := some ({ active := true, uid := [1,2,3,4,5,6,7], atqa := 68, levels := 0, rats := false, file := none } : EmuSession) } }; s),
     ({ active := true, uid := [1,2,3,4,5,6,7], atqa := 68, levels := 0, rats := false, file := none } : EmuSession), (0),
     by decide +kernel⟩,
   ⟨(let s := (atNs run 50).setFlag Reg.NFC_STATUS.FIELD_ON false |>.setFlag Reg.NFC_STATUS.READY true; let s := { withRecs s with nfc := { s.nfc with emu := some ({ active := true, uid := [1,2,3,4,5,6,7], atqa := 68, levels := 2, rats := false, file := none } : EmuSession) } }; s),
     ({ active := true, uid := [1,2,3,4,5,6,7], atqa := 68, levels := 2, rats := false, file := none } : EmuSession),
     by decide +kernel⟩,
   ⟨(let s := (atNs run 50).setFlag Reg.NFC_STATUS.FIELD_ON false |>.setFlag Reg.NFC_STATUS.READY true; let s := { withRecs s with nfc := { s.nfc with emu := some ({ active := true, uid := [1,2,3,4,5,6,7], atqa := 68, levels := 2, rats := true, file := none } : EmuSession) } }; s),
     ({ active := true, uid := [1,2,3,4,5,6,7], atqa := 68, levels := 2, rats := true, file := none } : EmuSession),
     by decide +kernel⟩,
   ⟨(let s := (atNs run 50).setFlag Reg.NFC_STATUS.FIELD_ON false |>.setFlag Reg.NFC_STATUS.READY true; let s := { withRecs s with nfc := { s.nfc with emu := some ({ active := true, uid := [1,2,3,4,5,6,7], atqa := 68, levels := 2, rats := true, file := some 0xE104 } : EmuSession) } }; s),
     ({ active := true, uid := [1,2,3,4,5,6,7], atqa := 68, levels := 2, rats := true, file := some 0xE104 } : EmuSession), (5),
     (7), (0xE104), by decide +kernel⟩,
   ⟨(let s := (atNs run 50).setFlag Reg.NFC_STATUS.FIELD_ON false |>.setFlag Reg.NFC_STATUS.READY true; let s := { withRecs s with nfc := { s.nfc with emu := some ({ active := true, uid := [1,2,3,4,5,6,7], atqa := 68, levels := 2, rats := true, file := some 0xE104 } : EmuSession) } }; let s := recordWrite s 29 ([0xFF,0,0,0,0xFF,0xFF]++List.replicate 234 0) 4 false; s),
     ({ active := true, uid := [1,2,3,4,5,6,7], atqa := 68, levels := 2, rats := true, file := some 0xE104 } : EmuSession),
     ([9,8]), (5), (0xE104), (0), by decide +kernel⟩,
   ⟨(let s := (atNs run 50).setFlag Reg.NFC_STATUS.FIELD_ON false |>.setFlag Reg.NFC_STATUS.READY true; let s := { withRecs s with nfc := { s.nfc with emu := some ({ active := true, uid := [1,2,3,4,5,6,7], atqa := 68, levels := 2, rats := true, file := some 0xE104 } : EmuSession) } }; s),
     ({ active := true, uid := [1,2,3,4,5,6,7], atqa := 68, levels := 2, rats := true, file := some 0xE104 } : EmuSession),
     ([9,8]), (0xE104), (0), by decide +kernel⟩,
   ⟨(let s := (atNs run 50).setFlag Reg.NFC_STATUS.FIELD_ON false |>.setFlag Reg.NFC_STATUS.READY true; let s := { withRecs s with nfc := { s.nfc with emu := some ({ active := true, uid := [1,2,3,4,5,6,7], atqa := 68, levels := 2, rats := true, file := none } : EmuSession) } }; s),
     ({ active := true, uid := [1,2,3,4,5,6,7], atqa := 68, levels := 2, rats := true, file := none } : EmuSession), (3),
     by decide +kernel⟩⟩

theorem witness_FieldWritableMemory :
    (∃ (s : State) (dt : Nat) (v : Word) (c : Instr) (op : Nat),
      (c, op) ∈ [(Instr.fwmReadRecord dt v, 1), (.fwmWriteRecord dt v, 2), (.fwmReadCounters dt v, 3), (.fwmIncrement dt v, 4), (.fwmReadPage0 dt v, 5), (.fwmProvision dt v, 6)] ∧
      s.flag Reg.NFC_FWM_STATUS.BUSY = false ∧ Boot.BOOT_ROM ≤ s.boot) ∧
    (∃ (s : State) (dt : Nat) (v : Word) (c : Instr) (op : Nat),
      (c, op) ∈ [(Instr.fwmReadRecord dt v, 1), (.fwmWriteRecord dt v, 2), (.fwmReadCounters dt v, 3), (.fwmIncrement dt v, 4), (.fwmReadPage0 dt v, 5), (.fwmProvision dt v, 6)] ∧
      s.flag Reg.NFC_FWM_STATUS.BUSY = true) ∧
    (∃ (s : State) (o : FwmOp) (rest : List FwmOp), s.fwm = o :: rest ∧ o.started = true ∧ o.emu = false ∧ o.cause = 0 ∧
      o.op = 1 ∧ s.inLp4x o.addr 240 = true) ∧
    (∃ (s : State) (k : Nat) (o : FwmOp) (rest : List FwmOp), s.fwm = o :: rest ∧ o.started = true ∧ o.emu = false ∧
      o.cause = 0 ∧ o.op = 2 ∧ o.index ≤ 29 ∧ k ≤ 2) ∧
    (∃ (s : State) (o : FwmOp) (rest : List FwmOp), s.fwm = o :: rest ∧ o.started = true ∧ o.emu = false ∧ o.cause = 0 ∧
      o.op = 3 ∧ s.inLp4x o.addr 128 = true) ∧
    (∃ (s : State) (x : Nat) (o : FwmOp) (rest : List FwmOp), s.fwm = o :: rest ∧ o.started = true ∧ o.emu = false ∧
      o.cause = 0 ∧ o.op = 4 ∧ o.index ≤ 15 ∧ ctrRead s o.index = some x ∧ x < 2 ^ 24 - 1) ∧
    (∃ (s : State) (o : FwmOp) (rest : List FwmOp), s.fwm = o :: rest ∧ o.started = true ∧ o.emu = false ∧ o.cause = 0 ∧
      o.op = 4 ∧ o.index ≤ 15 ∧ ctrRead s o.index = some (2 ^ 24 - 1)) ∧
    (∃ (s : State) (o : FwmOp) (rest : List FwmOp), s.fwm = o :: rest ∧ o.started = true ∧ o.emu = false ∧ o.cause = 0 ∧
      o.op = 5 ∧ s.inLp4x o.addr 256 = true) ∧
    (∃ (s : State) (o : FwmOp) (rest : List FwmOp), s.fwm = o :: rest ∧ o.started = true ∧ o.emu = false ∧ o.cause = 0 ∧
      o.op = 6 ∧ pageLocked s = true) ∧
    (∃ (s : State) (o : FwmOp) (rest : List FwmOp), s.fwm = o :: rest ∧ o.started = true ∧ o.emu = false ∧ o.cause = 0 ∧
      o.op = 6 ∧ pageLocked s = false) ∧
    (∃ (s : State) (x : Nat) (o : FwmOp) (rest : List FwmOp), s.fwm = o :: rest ∧ o.started = true ∧ o.emu = true ∧ o.op = 4 ∧
      o.index ≤ 15 ∧ s.nfc.emu.isSome = true ∧ ctrRead s o.index = some x ∧ x < 2 ^ 24 - 1) :=
  ⟨⟨(let s := (atNs run 50).setFlag Reg.NFC_FWM_STATUS.BUSY false; s), (7), (0x8000230000000500),
    (Instr.fwmReadRecord (7) (0x8000230000000500)), (1), by decide +kernel⟩,
   ⟨(let s := (atNs run 50).setFlag Reg.NFC_FWM_STATUS.BUSY true; s), (7), (0), (Instr.fwmReadRecord (7) (0)), (1),
     by decide +kernel⟩,
   ⟨(let s := withRecs ((atNs run 50).setFlag Reg.NFC_FWM_STATUS.BUSY true); let s := { s with fwm := ({ op := 1, index := 3, addr := 68719476736, started := true, emu := false } : FwmOp) :: ([{ op := 1 }]), nfc := { s.nfc with emu := some { active := true, uid := [], atqa := 4 } } }; let s := s.ddrWrite 68719476736 [1,2,3,4]; let s := s.fwmWrite (ctrAddr 3 0) (leBytes 4 (5) ++ leBytes 4 (2^32-1-(5))); recordWrite s 3 (List.replicate 240 7) 4 false),
     ({ op := 1, index := 3, addr := 68719476736, started := true, emu := false } : FwmOp), ([{ op := 1 }]), by decide +kernel⟩,
   ⟨(let s := withRecs ((atNs run 50).setFlag Reg.NFC_FWM_STATUS.BUSY true); let s := { s with fwm := ({ op := 2, index := 3, addr := 68719476736, started := true, emu := false } : FwmOp) :: ([{ op := 1 }]), nfc := { s.nfc with emu := some { active := true, uid := [], atqa := 4 } } }; let s := s.ddrWrite 68719476736 [1,2,3,4]; let s := s.fwmWrite (ctrAddr 3 0) (leBytes 4 (5) ++ leBytes 4 (2^32-1-(5))); recordWrite s 3 (List.replicate 240 7) 4 false),
     (1), ({ op := 2, index := 3, addr := 68719476736, started := true, emu := false } : FwmOp), ([{ op := 1 }]),
     by decide +kernel⟩,
   ⟨(let s := withRecs ((atNs run 50).setFlag Reg.NFC_FWM_STATUS.BUSY true); let s := { s with fwm := ({ op := 3, index := 3, addr := 68719476736, started := true, emu := false } : FwmOp) :: ([{ op := 1 }]), nfc := { s.nfc with emu := some { active := true, uid := [], atqa := 4 } } }; let s := s.ddrWrite 68719476736 [1,2,3,4]; let s := s.fwmWrite (ctrAddr 3 0) (leBytes 4 (5) ++ leBytes 4 (2^32-1-(5))); recordWrite s 3 (List.replicate 240 7) 4 false),
     ({ op := 3, index := 3, addr := 68719476736, started := true, emu := false } : FwmOp), ([{ op := 1 }]), by decide +kernel⟩,
   ⟨(let s := withRecs ((atNs run 50).setFlag Reg.NFC_FWM_STATUS.BUSY true); let s := { s with fwm := ({ op := 4, index := 3, addr := 68719476736, started := true, emu := false } : FwmOp) :: ([{ op := 1 }]), nfc := { s.nfc with emu := some { active := true, uid := [], atqa := 4 } } }; let s := s.ddrWrite 68719476736 [1,2,3,4]; let s := s.fwmWrite (ctrAddr 3 0) (leBytes 4 (5) ++ leBytes 4 (2^32-1-(5))); recordWrite s 3 (List.replicate 240 7) 4 false),
     (5), ({ op := 4, index := 3, addr := 68719476736, started := true, emu := false } : FwmOp), ([{ op := 1 }]),
     by decide +kernel⟩,
   ⟨(let s := withRecs ((atNs run 50).setFlag Reg.NFC_FWM_STATUS.BUSY true); let s := { s with fwm := ({ op := 4, index := 3, addr := 68719476736, started := true, emu := false } : FwmOp) :: ([{ op := 1 }]), nfc := { s.nfc with emu := some { active := true, uid := [], atqa := 4 } } }; let s := s.ddrWrite 68719476736 [1,2,3,4]; s.fwmWrite (ctrAddr 3 0) (leBytes 4 (2 ^ 24 - 1) ++ leBytes 4 (2^32-1-(2 ^ 24 - 1)))),
     ({ op := 4, index := 3, addr := 68719476736, started := true, emu := false } : FwmOp), ([{ op := 1 }]), by decide +kernel⟩,
   ⟨(let s := withRecs ((atNs run 50).setFlag Reg.NFC_FWM_STATUS.BUSY true); let s := { s with fwm := ({ op := 5, index := 3, addr := 68719476736, started := true, emu := false } : FwmOp) :: ([{ op := 1 }]), nfc := { s.nfc with emu := some { active := true, uid := [], atqa := 4 } } }; let s := s.ddrWrite 68719476736 [1,2,3,4]; let s := s.fwmWrite (ctrAddr 3 0) (leBytes 4 (5) ++ leBytes 4 (2^32-1-(5))); recordWrite s 3 (List.replicate 240 7) 4 false),
     ({ op := 5, index := 3, addr := 68719476736, started := true, emu := false } : FwmOp), ([{ op := 1 }]), by decide +kernel⟩,
   ⟨(let s := withRecs ((atNs run 50).setFlag Reg.NFC_FWM_STATUS.BUSY true); let s := { s with fwm := ({ op := 6, index := 3, addr := 68719476736, started := true, emu := false } : FwmOp) :: ([{ op := 1 }]), nfc := { s.nfc with emu := some { active := true, uid := [], atqa := 4 } } }; let s := s.ddrWrite 68719476736 [1,2,3,4]; s.fwmWrite 0xF8 [0,0,0,0]),
     ({ op := 6, index := 3, addr := 68719476736, started := true, emu := false } : FwmOp), ([{ op := 1 }]), by decide +kernel⟩,
   ⟨(let s := withRecs ((atNs run 50).setFlag Reg.NFC_FWM_STATUS.BUSY true); let s := { s with fwm := ({ op := 6, index := 3, addr := 68719476736, started := true, emu := false } : FwmOp) :: ([{ op := 1 }]), nfc := { s.nfc with emu := some { active := true, uid := [], atqa := 4 } } }; let s := s.ddrWrite 68719476736 [1,2,3,4]; let s := s.fwmWrite (ctrAddr 3 0) (leBytes 4 (5) ++ leBytes 4 (2^32-1-(5))); recordWrite s 3 (List.replicate 240 7) 4 false),
     ({ op := 6, index := 3, addr := 68719476736, started := true, emu := false } : FwmOp), ([{ op := 1 }]), by decide +kernel⟩,
   ⟨(let s := withRecs ((atNs run 50).setFlag Reg.NFC_FWM_STATUS.BUSY true); let s := { s with fwm := ({ op := 4, index := 3, addr := 68719476736, started := true, emu := true } : FwmOp) :: ([{ op := 1 }]), nfc := { s.nfc with emu := some { active := true, uid := [], atqa := 4 } } }; let s := s.ddrWrite 68719476736 [1,2,3,4]; s.fwmWrite (ctrAddr 3 0) (leBytes 4 (5) ++ leBytes 4 (2^32-1-(5)))),
     (5), ({ op := 4, index := 3, addr := 68719476736, started := true, emu := true } : FwmOp), ([{ op := 1 }]),
     by decide +kernel⟩⟩

theorem witness_Interrupts :
    (∃ (s : State) (n : Fin 512) (b : Nat), powered s = true ∧ srcListed n = true ∧ srcHigh s n = false ∧ srcBall s n = some b ∧
      gpioIsInput s b = true) ∧
    (∃ (s : State) (n : Fin 512), srcListed n = true ∧ powered s = true ∧ srcHigh s n = false ∧ srcBall s n = none ∧
      s.icu.raised = [n.val] ∧ holdOn s (n / 64) = none) ∧
    (∃ (s : State) (n : Fin 512) (b : Nat), srcHigh s n = true ∧ srcBall s n = some b ∧ gpioIsInput s b = true) ∧
    (∃ (s : State) (dt : Nat) (w : Fin 13) (init : Init) (b : Nat) (h : Hold), (w.val ≠ 12 ∨ init = .sheepdog) ∧
      lockedBits s w = 0 ∧ s.icu.high = [] ∧ holdOn s w = some h ∧ (s.advance dt).elapsedNs h.tick 640 = false ∧
      h.holder = initNo init ∧ h.number ≠ 0 ∧ Cells.get s.icu.marks (markKey w init) 0 = h.number ∧ h.deferred = [b] ∧ b < 64) ∧
    (∃ (s : State) (w : Fin 13) (init : Init), (w.val ≠ 12 ∨ init = .sheepdog) ∧ lockedBits s w = 0 ∧ s.icu.high = [] ∧
      holdOn s w = none ∧ w.val < 8) ∧
    (∃ (w : Fin 13) (init : Init), w.val = 12 ∧ init ≠ .sheepdog ∧ init ≠ .jtag) ∧
    (∃ (s : State) (dt : Nat) (w : Fin 13) (b : Nat) (h : Hold), holdOn s w = some h ∧
      (s.advance dt).elapsedNs h.tick 640 = true ∧ h.deferred = [b] ∧ b < 64) ∧
    (∃ (s : State) (n : Fin 512), srcListed n = true ∧ s.flag (Reg.ICU_SH_CFG.LOCKED n) = true) ∧
    (∃ (s : State) (n : Fin 512), srcListed n = true ∧ s.flag (Reg.ICU_SH_CFG.LOCKED n) = false) ∧
    (∃ (s : State) (core : Fin 4), powered s = true ∧ s.get (Reg.ICU_CORE_PWR.STATE core) = 0) ∧
    (∃ (s : State) (core : Fin 4) (e : Nat), wakeReq s core = true ∧ coreEntry s core = some e) ∧
    (∃ (s : State) (dt : Nat) (core : Fin 4) (k : Nat) (e : Nat), strands s core = true ∧ s.icu.stranded = [(core.val, k)] ∧
      (s.advance dt).elapsedUs k (max 1 (s.get Reg.ICU_CTRL.STRAND_US)) = true ∧ holdOn s 12 = none ∧
      (List.range 512).find? (fun i => holdsLine s core i) = some e) :=
  ⟨⟨(let s := atNs run 50; let s := s; s), (70), (6), by decide +kernel⟩,
   ⟨(let s := atNs run 50; let s := s; { s with icu := { s.icu with raised := [18] } }), (18), by decide +kernel⟩,
   ⟨(let s := atNs run 50; let s := s; { s with icu := { s.icu with high := [(70,true)] } }), (70), (6), by decide +kernel⟩,
   ⟨(let s := atNs run 50; let s := s; { s with icu := { s.icu with holds := [(1,({ number := 3, holder := 1, tick := 5, deferred := [(6)] } : Hold))], marks := [(9,3)] } }),
     (5), (1), (.core 1), (6), ({ number := 3, holder := 1, tick := 5, deferred := [(6)] } : Hold), by decide +kernel⟩,
   ⟨(let s := atNs run 50; let s := s; s), (1), (.core 1), by decide +kernel⟩,
   ⟨(12), (.core 1), by decide +kernel⟩,
   ⟨(let s := atNs run 50; let s := s; { s with icu := { s.icu with holds := [(1,({ number := 3, holder := 1, tick := 5, deferred := [(6)] } : Hold))] } }),
     (70000000000), (1), (6), ({ number := 3, holder := 1, tick := 5, deferred := [(6)] } : Hold), by decide +kernel⟩,
   ⟨(let s := atNs run 50; let s := s.setFlag (Reg.ICU_SH_CFG.LOCKED 127) true; { s with icu := { s.icu with raised := [127] } }),
     (127), by decide +kernel⟩,
   ⟨(let s := atNs run 50; let s := s; s), (70), by decide +kernel⟩,
   ⟨(let s := atNs run 50; let s := s.setFlag (Reg.ICU_CORE_PWR.GATE_EN 0) true; s), (0), by decide +kernel⟩,
   ⟨(let s := (((((atNs run 50).setBit (pendFld 1) 6).setBit (Reg.ICU_SH_EN.EN 1) 6).set (Reg.ICU_SH_CFG.TGT 70) 1).set (Reg.ICU_CORE_PWR.STATE 1) 2); { s with start := { s.start with cores := [1] ++ List.replicate 23 0 ++ ([1] ++ List.replicate 23 0 ++ leBytes 8 0x1122 ++ List.replicate 32 0) } }),
     (1), (0x1122), by decide +kernel⟩,
   ⟨(let s := atNs run 50; let s := ((((s.setBit (pendFld 1) 6).setBit (Reg.ICU_SH_EN.EN 1) 6).set (Reg.ICU_SH_CFG.TGT 70) 1).set (Reg.ICU_CORE_PWR.STATE 1) 2); { s with icu := { s.icu with stranded := [(1,0)] } }),
     (70000000000), (1), (0), (70), by decide +kernel⟩⟩

theorem witness_ProtectiveCommandPath :
    (∃ (s : State), 256 ≤ s.safe.words.length + 4 * s.safe.flights.length) ∧
    (∃ (s : State) (v : Word), s.safe.words.length + 4 * s.safe.flights.length < 256 ∧ ((s.safe.words ++ [v.toNat]).length ≠ 4 ∨
      fieldBE ((s.safe.words ++ [v.toNat]).flatMap (leBytes 8)) 0 2 ≠ 0x5043 ∨
      field ((s.safe.words ++ [v.toNat]).flatMap (leBytes 8)) 3 1 = 0)) ∧
    (∃ (s : State) (v : Word), s.safe.words.length + 4 * s.safe.flights.length < 256 ∧ (s.safe.words ++ [v.toNat]).length = 4 ∧
      fieldBE ((s.safe.words ++ [v.toNat]).flatMap (leBytes 8)) 0 2 = 0x5043 ∧
      field ((s.safe.words ++ [v.toNat]).flatMap (leBytes 8)) 3 1 ≠ 0) ∧
    (∃ (s : State) (v : Word), s.safe.words.length + 4 * s.safe.flights.length < 256 ∧ (s.safe.words ++ [v.toNat]).length = 4 ∧
      fieldBE ((s.safe.words ++ [v.toNat]).flatMap (leBytes 8)) 0 2 = 0x5043 ∧
      field ((s.safe.words ++ [v.toNat]).flatMap (leBytes 8)) 3 1 ≠ 0 ∧
      crc32c (((s.safe.words ++ [v.toNat]).flatMap (leBytes 8)).take 28) ≠ field ((s.safe.words ++ [v.toNat]).flatMap (leBytes 8)) 28 4) ∧
    (∃ (s : State) (v : Word) (src : Fin 16), s.safe.words.length + 4 * s.safe.flights.length < 256 ∧
      (s.safe.words ++ [v.toNat]).length = 4 ∧ fieldBE ((s.safe.words ++ [v.toNat]).flatMap (leBytes 8)) 0 2 = 0x5043 ∧
      field ((s.safe.words ++ [v.toNat]).flatMap (leBytes 8)) 3 1 ≠ 0 ∧
      crc32c (((s.safe.words ++ [v.toNat]).flatMap (leBytes 8)).take 28) = field ((s.safe.words ++ [v.toNat]).flatMap (leBytes 8)) 28 4 ∧
      field ((s.safe.words ++ [v.toNat]).flatMap (leBytes 8)) 2 1 = src.val ∧ s.get (Reg.SAFE_SRC.KIND src) = 0) ∧
    (∃ (s : State) (seq : Nat) (v : Word) (src : Fin 16), s.safe.words.length + 4 * s.safe.flights.length < 256 ∧
      (s.safe.words ++ [v.toNat]).length = 4 ∧ fieldBE ((s.safe.words ++ [v.toNat]).flatMap (leBytes 8)) 0 2 = 0x5043 ∧
      field ((s.safe.words ++ [v.toNat]).flatMap (leBytes 8)) 3 1 ≠ 0 ∧
      crc32c (((s.safe.words ++ [v.toNat]).flatMap (leBytes 8)).take 28) = field ((s.safe.words ++ [v.toNat]).flatMap (leBytes 8)) 28 4 ∧
      field ((s.safe.words ++ [v.toNat]).flatMap (leBytes 8)) 2 1 = src.val ∧ s.get (Reg.SAFE_SRC.KIND src) ≠ 0 ∧
      lastSeq s src = some seq ∧ later 32 (field ((s.safe.words ++ [v.toNat]).flatMap (leBytes 8)) 4 4) seq = false) ∧
    (∃ (s : State) (seq : Nat) (r : Nat) (v : Word) (src : Fin 16), s.safe.words.length + 4 * s.safe.flights.length < 256 ∧
      (s.safe.words ++ [v.toNat]).length = 4 ∧ fieldBE ((s.safe.words ++ [v.toNat]).flatMap (leBytes 8)) 0 2 = 0x5043 ∧
      field ((s.safe.words ++ [v.toNat]).flatMap (leBytes 8)) 3 1 ≠ 0 ∧
      crc32c (((s.safe.words ++ [v.toNat]).flatMap (leBytes 8)).take 28) = field ((s.safe.words ++ [v.toNat]).flatMap (leBytes 8)) 28 4 ∧
      field ((s.safe.words ++ [v.toNat]).flatMap (leBytes 8)) 2 1 = src.val ∧ s.get (Reg.SAFE_SRC.KIND src) ≠ 0 ∧
      (lastSeq s src = none ∨ lastSeq s src = some seq ∧
      later 32 (field ((s.safe.words ++ [v.toNat]).flatMap (leBytes 8)) 4 4) seq = true) ∧
      (safeTarget s ((s.safe.words ++ [v.toNat]).flatMap (leBytes 8)) = none ∨
      safeTarget s ((s.safe.words ++ [v.toNat]).flatMap (leBytes 8)) = some r ∧ recSafety s r = false)) ∧
    (∃ (s : State) (seq : Nat) (r : Nat) (v : Word) (src : Fin 16), s.safe.words.length + 4 * s.safe.flights.length < 256 ∧
      (s.safe.words ++ [v.toNat]).length = 4 ∧ fieldBE ((s.safe.words ++ [v.toNat]).flatMap (leBytes 8)) 0 2 = 0x5043 ∧
      field ((s.safe.words ++ [v.toNat]).flatMap (leBytes 8)) 3 1 ≠ 0 ∧
      crc32c (((s.safe.words ++ [v.toNat]).flatMap (leBytes 8)).take 28) = field ((s.safe.words ++ [v.toNat]).flatMap (leBytes 8)) 28 4 ∧
      field ((s.safe.words ++ [v.toNat]).flatMap (leBytes 8)) 2 1 = src.val ∧ s.get (Reg.SAFE_SRC.KIND src) ≠ 0 ∧
      (lastSeq s src = none ∨ lastSeq s src = some seq ∧
      later 32 (field ((s.safe.words ++ [v.toNat]).flatMap (leBytes 8)) 4 4) seq = true) ∧
      safeTarget s ((s.safe.words ++ [v.toNat]).flatMap (leBytes 8)) = some r ∧ recSafety s r = true ∧ s.safeNow = true) ∧
    (∃ (s : State) (seq : Nat) (r : Nat) (v : Word) (src : Fin 16), s.safe.words.length + 4 * s.safe.flights.length < 256 ∧
      (s.safe.words ++ [v.toNat]).length = 4 ∧ fieldBE ((s.safe.words ++ [v.toNat]).flatMap (leBytes 8)) 0 2 = 0x5043 ∧
      field ((s.safe.words ++ [v.toNat]).flatMap (leBytes 8)) 3 1 ≠ 0 ∧
      crc32c (((s.safe.words ++ [v.toNat]).flatMap (leBytes 8)).take 28) = field ((s.safe.words ++ [v.toNat]).flatMap (leBytes 8)) 28 4 ∧
      field ((s.safe.words ++ [v.toNat]).flatMap (leBytes 8)) 2 1 = src.val ∧ s.get (Reg.SAFE_SRC.KIND src) ≠ 0 ∧
      (lastSeq s src = none ∨ lastSeq s src = some seq ∧
      later 32 (field ((s.safe.words ++ [v.toNat]).flatMap (leBytes 8)) 4 4) seq = true) ∧
      safeTarget s ((s.safe.words ++ [v.toNat]).flatMap (leBytes 8)) = some r ∧ recSafety s r = true ∧ s.safeNow = false) ∧
    (∃ (s : State) (dt : Nat) (src : Fin 16) (f : Flight), s.safe.flights = [f] ∧ f.source = src.val ∧ f.seq < 2 ^ 32 ∧
      (s.advance dt).elapsedMs f.tick (s.get (Reg.SAFE_SRC.DEADLINE_MS src)) = true ∧ s.inRun = true ∧ s.safeNow = false) ∧
    (∃ (s : State) (dt : Nat) (src : Fin 16) (f : Flight), s.safe.flights = [f] ∧ f.source = src.val ∧ f.seq < 2 ^ 32 ∧
      (s.advance dt).elapsedMs f.tick (s.get (Reg.SAFE_SRC.DEADLINE_MS src)) = false) ∧
    (∃ (s : State) (dt : Nat) (fe : Fin 3) (l : Loopback) (power : Int) (k : Nat × Nat), s.safe.loopbacks = [l] ∧
      l.fe = fe.val ∧ l.commands = [k] ∧ k.1 < 16 ∧ l.passed ≤ 2 ∧ l.passed = 0 ∧
      ((((emitting (s.advance dt) fe).bind fun e => e.carriers.find? Carrier.safety).map (·.pinQdbm)).getD l.qdbm - 40) ≤ power ∧
      (s.advance dt).time.ns ≤ l.riseByNs) ∧
    (∃ (s : State) (dt : Nat) (fe : Fin 3) (l : Loopback) (power : Int) (k : Nat × Nat), s.safe.loopbacks = [l] ∧
      l.fe = fe.val ∧ l.commands = [k] ∧ k.1 < 16 ∧ l.passed ≤ 2 ∧ l.passed = 0 ∧
      power < ((((emitting (s.advance dt) fe).bind fun e => e.carriers.find? Carrier.safety).map (·.pinQdbm)).getD l.qdbm - 40) ∧
      (s.advance dt).time.ns < l.riseByNs) ∧
    (∃ (s : State) (dt : Nat) (fe : Fin 3) (l : Loopback) (power : Int) (k : Nat × Nat), s.safe.loopbacks = [l] ∧
      l.fe = fe.val ∧ l.commands = [k] ∧ k.1 < 16 ∧ l.passed ≤ 2 ∧ l.passed = 0 ∧
      (power < ((((emitting (s.advance dt) fe).bind fun e => e.carriers.find? Carrier.safety).map (·.pinQdbm)).getD l.qdbm - 40) ∨
      l.riseByNs < (s.advance dt).time.ns) ∧ l.riseByNs ≤ (s.advance dt).time.ns ∧ s.inRun = true ∧ s.safeNow = false) ∧
    (∃ (s : State) (dt : Nat) (fe : Fin 3) (l : Loopback) (power : Int) (k : Nat × Nat), s.safe.loopbacks = [l] ∧
      l.fe = fe.val ∧ l.commands = [k] ∧ k.1 < 16 ∧ l.passed ≤ 2 ∧ l.passed = 1 ∧
      ((((emitting (s.advance dt) fe).bind fun e => e.carriers.find? Carrier.safety).map (·.pinQdbm)).getD l.qdbm - 40) ≤ power) ∧
    (∃ (s : State) (dt : Nat) (fe : Fin 3) (l : Loopback) (power : Int) (k : Nat × Nat), s.safe.loopbacks = [l] ∧
      l.fe = fe.val ∧ l.commands = [k] ∧ k.1 < 16 ∧ l.passed ≤ 2 ∧ l.passed = 1 ∧
      power < ((((emitting (s.advance dt) fe).bind fun e => e.carriers.find? Carrier.safety).map (·.pinQdbm)).getD l.qdbm - 40) ∧
      l.fellNs = none ∧ (s.advance dt).time.ns < l.stayToNs) ∧
    (∃ (s : State) (dt : Nat) (fe : Fin 3) (l : Loopback) (power : Int) (k : Nat × Nat) (since : _), s.safe.loopbacks = [l] ∧
      l.fe = fe.val ∧ l.commands = [k] ∧ k.1 < 16 ∧ l.passed ≤ 2 ∧ l.passed = 1 ∧
      power < ((((emitting (s.advance dt) fe).bind fun e => e.carriers.find? Carrier.safety).map (·.pinQdbm)).getD l.qdbm - 40) ∧
      l.fellNs = some since ∧ s.inRun = true ∧ s.safeNow = false ∧ since + 20000 ≤ (s.advance dt).time.ns) ∧
    (∃ (s : State) (dt : Nat) (fe : Fin 3) (l : Loopback) (power : Int) (k : Nat × Nat), s.safe.loopbacks = [l] ∧
      l.fe = fe.val ∧ l.commands = [k] ∧ k.1 < 16 ∧ l.passed ≤ 2 ∧ (l.passed = 1 ∧ l.fellNs = none ∧
      l.stayToNs ≤ (s.advance dt).time.ns ∨ l.passed = 2) ∧
      power < ((((emitting (s.advance dt) fe).bind fun e => e.carriers.find? Carrier.safety).map (·.pinQdbm)).getD l.qdbm - 40) ∧
      (s.advance dt).time.ns ≤ l.fallByNs) ∧
    (∃ (s : State) (dt : Nat) (fe : Fin 3) (l : Loopback) (power : Int) (k : Nat × Nat), s.safe.loopbacks = [l] ∧
      l.fe = fe.val ∧ l.commands = [k] ∧ k.1 < 16 ∧ l.passed ≤ 2 ∧ (l.passed = 1 ∧ l.fellNs = none ∧
      l.stayToNs ≤ (s.advance dt).time.ns ∧
      power < ((((emitting (s.advance dt) fe).bind fun e => e.carriers.find? Carrier.safety).map (·.pinQdbm)).getD l.qdbm - 40) ∨
      l.passed = 2) ∧
      (((((emitting (s.advance dt) fe).bind fun e => e.carriers.find? Carrier.safety).map (·.pinQdbm)).getD l.qdbm - 40) ≤ power ∨
      l.fallByNs < (s.advance dt).time.ns) ∧ l.fallByNs ≤ (s.advance dt).time.ns ∧ s.inRun = true ∧ s.safeNow = false) :=
  ⟨⟨(let s := safeRec (withNode ((atNs run 50).set (Reg.SAFE_SRC.KIND 3) 1) 77 4) 4 2; let s := pushed s (cmdOk 3 9 77); { s with safe := { s.safe with words := List.replicate 256 5 } }),
    by decide +kernel⟩,
   ⟨(let s := safeRec (withNode ((atNs run 50).set (Reg.SAFE_SRC.KIND 3) 1) 77 4) 4 2; let s := pushed s (cmdOk 3 9 77); { s with safe := { s.safe with words := List.replicate 255 5 } }),
     (BitVec.ofNat 64 (((cmdOk 3 9 77))[3]?.getD 0)), by decide +kernel⟩,
   ⟨(let s := safeRec (withNode ((atNs run 50).set (Reg.SAFE_SRC.KIND 3) 1) 77 4) 4 2; let s := pushed s (cmdOk 3 9 77); { s with safe := { s.safe with lastSeq := [] } }),
     (BitVec.ofNat 64 (((cmdOk 3 9 77))[3]?.getD 0)), by decide +kernel⟩,
   ⟨(let s := safeRec (withNode ((atNs run 50).set (Reg.SAFE_SRC.KIND 3) 1) 77 4) 4 2; pushed s (wordsOf (cmdBody 3 9 77 ++ [1,2,3,4]))),
     (BitVec.ofNat 64 (((wordsOf (cmdBody 3 9 77 ++ [1,2,3,4])))[3]?.getD 0)), by decide +kernel⟩,
   ⟨(let s := safeRec (withNode ((atNs run 50).set (Reg.SAFE_SRC.KIND 3) 0) 77 4) 4 2; let s := pushed s (cmdOk 3 9 77); { s with safe := { s.safe with lastSeq := [] } }),
     (BitVec.ofNat 64 (((cmdOk 3 9 77))[3]?.getD 0)), (3), by decide +kernel⟩,
   ⟨(let s := safeRec (withNode ((atNs run 50).set (Reg.SAFE_SRC.KIND 3) 1) 77 4) 4 2; let s := pushed s (cmdOk 3 9 77); { s with safe := { s.safe with lastSeq := [(3,9)] } }),
     (9), (BitVec.ofNat 64 (((cmdOk 3 9 77))[3]?.getD 0)), (3), by decide +kernel⟩,
   ⟨(let s := safeRec (withNode ((atNs run 50).set (Reg.SAFE_SRC.KIND 3) 1) 77 4) 4 0; let s := pushed s (cmdOk 3 9 77); { s with safe := { s.safe with lastSeq := [] } }),
     (8), (4), (BitVec.ofNat 64 (((cmdOk 3 9 77))[3]?.getD 0)), (3), by decide +kernel⟩,
   ⟨((let s := safeRec (withNode ((atNs run 50).set (Reg.SAFE_SRC.KIND 3) 1) 77 4) 4 2; pushed s (cmdOk 3 9 77)).setFlag Reg.SAFE_STATUS.SAFE true),
     (8), (4), (BitVec.ofNat 64 (((cmdOk 3 9 77))[3]?.getD 0)), (3), by decide +kernel⟩,
   ⟨(let s := safeRec (withNode ((atNs run 50).set (Reg.SAFE_SRC.KIND 3) 1) 77 4) 4 2; let s := pushed s (cmdOk 3 9 77); { s with safe := { s.safe with lastSeq := [] } }),
     (8), (4), (BitVec.ofNat 64 (((cmdOk 3 9 77))[3]?.getD 0)), (3), by decide +kernel⟩,
   ⟨(let s := (atNs run 50); let s := s.set (Reg.SAFE_SRC.DEADLINE_MS 3) 7; { s with safe := { s.safe with flights := [({ source := 3, seq := 9, octets := [], tick := 0 } : Flight)] } }),
     (70000000000), (3), ({ source := 3, seq := 9, octets := [], tick := 0 } : Flight), by decide +kernel⟩,
   ⟨(let s := (atNs run 50); let s := s.set (Reg.SAFE_SRC.DEADLINE_MS 3) 7; { s with safe := { s.safe with flights := [({ source := 3, seq := 9, octets := [], tick := 0 } : Flight)] } }),
     (0), (3), ({ source := 3, seq := 9, octets := [], tick := 0 } : Flight), by decide +kernel⟩,
   ⟨(let s := (atNs run 29000); { s with safe := { s.safe with loopbacks := [({ fe := 1, asn := 5, riseByNs := 30000, stayToNs := 40000, fallByNs := 50000, commands := [((4,9))], passed := 0, qdbm := 80, fellNs := none } : Loopback)] } }),
     (0), (1),
     ({ fe := 1, asn := 5, riseByNs := 30000, stayToNs := 40000, fallByNs := 50000, commands := [((4,9))], passed := 0, qdbm := 80, fellNs := none } : Loopback),
     (40), ((4,9)), by decide +kernel⟩,
   ⟨(let s := (atNs run 29000); { s with safe := { s.safe with loopbacks := [({ fe := 1, asn := 5, riseByNs := 30000, stayToNs := 40000, fallByNs := 50000, commands := [((4,9))], passed := 0, qdbm := 80, fellNs := none } : Loopback)] } }),
     (0), (1),
     ({ fe := 1, asn := 5, riseByNs := 30000, stayToNs := 40000, fallByNs := 50000, commands := [((4,9))], passed := 0, qdbm := 80, fellNs := none } : Loopback),
     (39), ((4,9)), by decide +kernel⟩,
   ⟨(let s := (atNs run 30000); { s with safe := { s.safe with loopbacks := [({ fe := 1, asn := 5, riseByNs := 30000, stayToNs := 40000, fallByNs := 50000, commands := [((4,9))], passed := 0, qdbm := 80, fellNs := none } : Loopback)] } }),
     (0), (1),
     ({ fe := 1, asn := 5, riseByNs := 30000, stayToNs := 40000, fallByNs := 50000, commands := [((4,9))], passed := 0, qdbm := 80, fellNs := none } : Loopback),
     (39), ((4,9)), by decide +kernel⟩,
   ⟨(let s := (atNs run 29000); { s with safe := { s.safe with loopbacks := [({ fe := 1, asn := 5, riseByNs := 30000, stayToNs := 40000, fallByNs := 50000, commands := [((4,9))], passed := 1, qdbm := 80, fellNs := none } : Loopback)] } }),
     (0), (1),
     ({ fe := 1, asn := 5, riseByNs := 30000, stayToNs := 40000, fallByNs := 50000, commands := [((4,9))], passed := 1, qdbm := 80, fellNs := none } : Loopback),
     (40), ((4,9)), by decide +kernel⟩,
   ⟨(let s := (atNs run 29000); { s with safe := { s.safe with loopbacks := [({ fe := 1, asn := 5, riseByNs := 30000, stayToNs := 40000, fallByNs := 50000, commands := [((4,9))], passed := 1, qdbm := 80, fellNs := none } : Loopback)] } }),
     (0), (1),
     ({ fe := 1, asn := 5, riseByNs := 30000, stayToNs := 40000, fallByNs := 50000, commands := [((4,9))], passed := 1, qdbm := 80, fellNs := none } : Loopback),
     (39), ((4,9)), by decide +kernel⟩,
   ⟨(let s := (atNs run 29000); { s with safe := { s.safe with loopbacks := [({ fe := 1, asn := 5, riseByNs := 30000, stayToNs := 40000, fallByNs := 50000, commands := [((4,9))], passed := 1, qdbm := 80, fellNs := (some 5000) } : Loopback)] } }),
     (0), (1),
     ({ fe := 1, asn := 5, riseByNs := 30000, stayToNs := 40000, fallByNs := 50000, commands := [((4,9))], passed := 1, qdbm := 80, fellNs := (some 5000) } : Loopback),
     (39), ((4,9)), (5000), by decide +kernel⟩,
   ⟨(let s := (atNs run 29000); { s with safe := { s.safe with loopbacks := [({ fe := 1, asn := 5, riseByNs := 30000, stayToNs := 40000, fallByNs := 50000, commands := [((4,9))], passed := 2, qdbm := 80, fellNs := none } : Loopback)] } }),
     (0), (1),
     ({ fe := 1, asn := 5, riseByNs := 30000, stayToNs := 40000, fallByNs := 50000, commands := [((4,9))], passed := 2, qdbm := 80, fellNs := none } : Loopback),
     (39), ((4,9)), by decide +kernel⟩,
   ⟨(let s := (atNs run 50000); { s with safe := { s.safe with loopbacks := [({ fe := 1, asn := 5, riseByNs := 30000, stayToNs := 40000, fallByNs := 50000, commands := [((4,9))], passed := 2, qdbm := 80, fellNs := none } : Loopback)] } }),
     (0), (1),
     ({ fe := 1, asn := 5, riseByNs := 30000, stayToNs := 40000, fallByNs := 50000, commands := [((4,9))], passed := 2, qdbm := 80, fellNs := none } : Loopback),
     (40), ((4,9)), by decide +kernel⟩⟩

theorem witness_Watchdogs :
    (∃ (dt : Nat) (init : Init) (v : Word) (c : Instr), c ∈ [Instr.safeForce dt init v, .safeFwDone dt init v] ∧
      init ≠ .sheepdog) ∧
    (∃ (s : State) (dt : Nat) (init : Init) (v : Word) (c : Instr), c ∈ [Instr.safeForce dt init v, .safeFwDone dt init v] ∧
      s.inRun = true ∧ v.toNat % 256 = 0x5A ∧ (s.safe.wdKicked = false ∨
      (s.advance dt).elapsedUs s.safe.wdTick (s.get Reg.SAFE_WD_CFG.WD_MIN_US) = true)) ∧
    (∃ (s : State) (dt : Nat) (init : Init) (v : Word) (c : Instr), c ∈ [Instr.safeForce dt init v, .safeFwDone dt init v] ∧
      s.inRun = true ∧ s.safeNow = false ∧ s.safe.wdReset = none ∧ v.toNat % 256 = 0x5A ∧ s.safe.wdKicked = true ∧
      (s.advance dt).elapsedUs s.safe.wdTick (s.get Reg.SAFE_WD_CFG.WD_MIN_US) = false) ∧
    (∃ (s : State) (dt : Nat) (init : Init) (v : Word) (c : Instr), c ∈ [Instr.safeForce dt init v, .safeFwDone dt init v] ∧
      s.inRun = true ∧ s.safeNow = false ∧ s.safe.wdReset = none ∧ v.toNat % 256 ≠ 0x5A) ∧
    (∃ (s : State) (dt : Nat) (init : Init) (v : Word) (c : Instr), c ∈ [Instr.safeForce dt init v, .safeFwDone dt init v] ∧
      s.inRun = true ∧ s.safeNow = false ∧ s.safe.wdReset = none ∧
      (s.advance dt).elapsedUs s.safe.wdTick (s.get Reg.SAFE_WD_CFG.WD_MAX_US) = true) ∧
    (∃ (s : State) (dt : Nat) (init : Init) (v : Word) (c : Instr), c ∈ [Instr.safeForce dt init v, .safeFwDone dt init v] ∧
      s.inRun = true ∧ (s.advance dt).elapsedUs s.safe.wdTick (s.get Reg.SAFE_WD_CFG.WD_MAX_US) = false) ∧
    (∃ (s : State) (dt : Nat) (init : Init) (v : Word) (c : Instr), c ∈ [Instr.safeForce dt init v, .safeFwDone dt init v] ∧
      s.inRun = true ∧ s.get Reg.SAFE_WD_CFG.APP_WD_MS ≠ 0 ∧
      (s.advance dt).elapsedMs s.safe.appTick (s.get Reg.SAFE_WD_CFG.APP_WD_MS) = true) ∧
    (∃ (s : State) (dt : Nat) (init : Init) (v : Word) (c : Instr), c ∈ [Instr.safeForce dt init v, .safeFwDone dt init v] ∧
      s.inRun = true ∧ s.get Reg.SAFE_WD_CFG.APP_WD_MS = 0) ∧
    (∃ (s : State) (dt : Nat) (v : Word) (c : Instr), c ∈ [Instr.safeForce dt (.sheepdog) v, .safeFwDone dt (.sheepdog) v] ∧
      s.inRun = true ∧ v.getLsbD 63 = true ∧ s.safeNow = false) ∧
    (∃ (dt : Nat) (v : Word) (c : Instr), c ∈ [Instr.safeForce dt (.sheepdog) v, .safeFwDone dt (.sheepdog) v] ∧
      v.getLsbD 63 = false) ∧
    (∃ (s : State) (dt : Nat) (init : Init) (v : Word) (c : Instr), c ∈ [Instr.safeForce dt init v, .safeFwDone dt init v] ∧
      s.safeNow = true ∧ s.inRun = true ∧ paired s = true ∧ pairKey s = true ∧ s.safe.notices < 3 ∧ (s.safe.notices = 0 ∨
      (s.advance dt).elapsedMs s.safe.noticeTick 1 = true) ∧ s.flag Reg.HERD_CTRL.BACKHAUL_AT_MASTER = false) ∧
    (∃ (s : State) (dt : Nat) (init : Init) (v : Word) (c : Instr), c ∈ [Instr.safeForce dt init v, .safeFwDone dt init v] ∧
      s.safe.notices = 3) :=
  ⟨⟨(700000000), (.jtag), (0x800000000000005A), (Instr.safeForce (700000000) (.jtag) (0x800000000000005A)), by decide +kernel⟩,
   ⟨(let s := (atNs run 50).set Reg.SAFE_WD_CFG.WD_MIN_US 100 |>.set Reg.SAFE_WD_CFG.WD_MAX_US 10000; let s := s; { s with safe := { s.safe with wdKicked := true } }),
     (700000000), (.sheepdog), (0x800000000000005A), (Instr.safeForce (700000000) (.sheepdog) (0x800000000000005A)),
     by decide +kernel⟩,
   ⟨(let s := (atNs run 50).set Reg.SAFE_WD_CFG.WD_MIN_US 100 |>.set Reg.SAFE_WD_CFG.WD_MAX_US 10000; let s := s; { s with safe := { s.safe with wdKicked := true } }),
     (5), (.sheepdog), (0x800000000000005A), (Instr.safeForce (5) (.sheepdog) (0x800000000000005A)), by decide +kernel⟩,
   ⟨(let s := (atNs run 50).set Reg.SAFE_WD_CFG.WD_MIN_US 100 |>.set Reg.SAFE_WD_CFG.WD_MAX_US 10000; let s := s; { s with safe := { s.safe with wdKicked := true } }),
     (5), (.sheepdog), (0xC0000000000000A5), (Instr.safeForce (5) (.sheepdog) (0xC0000000000000A5)), by decide +kernel⟩,
   ⟨(let s := (atNs run 50).set Reg.SAFE_WD_CFG.WD_MIN_US 100 |>.set Reg.SAFE_WD_CFG.WD_MAX_US 10000; let s := s; { s with safe := { s.safe with wdKicked := true } }),
     (700000000), (.sheepdog), (0x800000000000005A), (Instr.safeForce (700000000) (.sheepdog) (0x800000000000005A)),
     by decide +kernel⟩,
   ⟨(let s := (atNs run 50).set Reg.SAFE_WD_CFG.WD_MIN_US 100 |>.set Reg.SAFE_WD_CFG.WD_MAX_US 10000; let s := s; { s with safe := { s.safe with wdKicked := true } }),
     (5), (.sheepdog), (0x800000000000005A), (Instr.safeForce (5) (.sheepdog) (0x800000000000005A)), by decide +kernel⟩,
   ⟨(let s := (atNs run 50).set Reg.SAFE_WD_CFG.WD_MIN_US 100 |>.set Reg.SAFE_WD_CFG.WD_MAX_US 10000; let s := s.set Reg.SAFE_WD_CFG.APP_WD_MS 9; { s with safe := { s.safe with wdTick := 0 } }),
     (700000000), (.sheepdog), (0x800000000000005A), (Instr.safeForce (700000000) (.sheepdog) (0x800000000000005A)),
     by decide +kernel⟩,
   ⟨(let s := (atNs run 50).set Reg.SAFE_WD_CFG.WD_MIN_US 100 |>.set Reg.SAFE_WD_CFG.WD_MAX_US 10000; let s := s; { s with safe := { s.safe with wdKicked := true } }),
     (5), (.sheepdog), (0x800000000000005A), (Instr.safeForce (5) (.sheepdog) (0x800000000000005A)), by decide +kernel⟩,
   ⟨(let s := (atNs run 50).set Reg.SAFE_WD_CFG.WD_MIN_US 100 |>.set Reg.SAFE_WD_CFG.WD_MAX_US 10000; let s := s; { s with safe := { s.safe with wdKicked := true } }),
     (5), (0x800000000000005A), (Instr.safeForce (5) (.sheepdog) (0x800000000000005A)), by decide +kernel⟩,
   ⟨(5), (0), (Instr.safeForce (5) (.sheepdog) (0)), by decide +kernel⟩,
   ⟨(let s := (atNs run 50).set Reg.SAFE_WD_CFG.WD_MIN_US 100 |>.set Reg.SAFE_WD_CFG.WD_MAX_US 10000; let s := (((((eup s).setFlag (Reg.KEYS_SLOT.VALID 7) true).set (Reg.KEYS_SLOT.USAGE 7) 4).set Reg.ETH_PAIR_CFG.PAIR_KEY_SLOT 7).set Reg.ETH_PAIR_STATUS.ROLE 1).setFlag Reg.SAFE_STATUS.SAFE true; { s with safe := { s.safe with notices := 0 } }),
     (700000000), (.sheepdog), (0x800000000000005A), (Instr.safeForce (700000000) (.sheepdog) (0x800000000000005A)),
     by decide +kernel⟩,
   ⟨(let s := (atNs run 50).set Reg.SAFE_WD_CFG.WD_MIN_US 100 |>.set Reg.SAFE_WD_CFG.WD_MAX_US 10000; let s := (((((eup s).setFlag (Reg.KEYS_SLOT.VALID 7) true).set (Reg.KEYS_SLOT.USAGE 7) 4).set Reg.ETH_PAIR_CFG.PAIR_KEY_SLOT 7).set Reg.ETH_PAIR_STATUS.ROLE 1).setFlag Reg.SAFE_STATUS.SAFE true; { s with safe := { s.safe with notices := 3 } }),
     (700000000), (.sheepdog), (0x800000000000005A), (Instr.safeForce (700000000) (.sheepdog) (0x800000000000005A)),
     by decide +kernel⟩⟩

theorem witness_Mechanisms :
    (∃ (s : State) (dt : Nat) (mech : Nat) (detail : Nat) (c : Instr),
      (c, mech, detail) ∈ [(Instr.lockstepMismatch dt, 1, 0), (.tcmScrub dt .uncorrectable, 2, 0), (.tcmUncorrectableRead dt, 2, 0), (.cfgScrub dt true, 3, 0), (.clockMonitor dt (some 0), 4, 0), (.clockMonitor dt (some 14), 4, 14)] ∧
      s.inRun = true ∧ s.safeNow = true ∧ (s.safe.safeTick ≠ (s.advance dt).tick ∨ s.get Reg.SAFE_STATUS.MECH ≤ mech)) ∧
    (∃ (s : State) (dt : Nat) (mech : Nat) (detail : Nat) (c : Instr),
      (c, mech, detail) ∈ [(Instr.lockstepMismatch dt, 1, 0), (.tcmScrub dt .uncorrectable, 2, 0), (.tcmUncorrectableRead dt, 2, 0), (.cfgScrub dt true, 3, 0), (.clockMonitor dt (some 0), 4, 0), (.clockMonitor dt (some 14), 4, 14)] ∧
      s.inRun = true ∧ s.safeNow = true ∧ s.safe.safeTick = (s.advance dt).tick ∧ mech < s.get Reg.SAFE_STATUS.MECH) ∧
    (∃ (s : State) (dt : Nat) (mech : Nat) (detail : Nat) (c : Instr),
      (c, mech, detail) ∈ [(Instr.lockstepMismatch dt, 1, 0), (.tcmScrub dt .uncorrectable, 2, 0), (.tcmUncorrectableRead dt, 2, 0), (.cfgScrub dt true, 3, 0), (.clockMonitor dt (some 0), 4, 0), (.clockMonitor dt (some 14), 4, 14)] ∧
      s.boot = Boot.CALIBRATE ∧ s.safeNow = false) ∧
    (∃ (s : State) (dt : Nat) (mech : Nat) (detail : Nat) (c : Instr) (ecc : Ecc),
      (c, mech, detail) ∈ [(Instr.lockstepMismatch dt, 1, 0), (.tcmScrub dt .uncorrectable, 2, 0), (.tcmUncorrectableRead dt, 2, 0), (.cfgScrub dt true, 3, 0), (.clockMonitor dt (some 0), 4, 0), (.clockMonitor dt (some 14), 4, 14)] ∧
      s.inRun = true ∧ ecc ≠ .uncorrectable) ∧
    (∃ (s : State) (dt : Nat) (mech : Nat) (detail : Nat) (c : Instr),
      (c, mech, detail) ∈ [(Instr.lockstepMismatch dt, 1, 0), (.tcmScrub dt .uncorrectable, 2, 0), (.tcmUncorrectableRead dt, 2, 0), (.cfgScrub dt true, 3, 0), (.clockMonitor dt (some 0), 4, 0), (.clockMonitor dt (some 14), 4, 14)] ∧
      s.inRun = true ∧ scrubCrc s = s.safe.scrubCrc) ∧
    (∃ (s : State) (dt : Nat) (mech : Nat) (detail : Nat) (c : Instr),
      (c, mech, detail) ∈ [(Instr.lockstepMismatch dt, 1, 0), (.tcmScrub dt .uncorrectable, 2, 0), (.tcmUncorrectableRead dt, 2, 0), (.cfgScrub dt true, 3, 0), (.clockMonitor dt (some 0), 4, 0), (.clockMonitor dt (some 14), 4, 14)] ∧
      s.inRun = true ∧ scrubCrc s ≠ s.safe.scrubCrc ∧ s.safeNow = false) ∧
    (∃ (s : State) (dt : Nat) (mech : Nat) (detail : Nat) (d : Nat) (c : Instr),
      (c, mech, detail) ∈ [(Instr.lockstepMismatch dt, 1, 0), (.tcmScrub dt .uncorrectable, 2, 0), (.tcmUncorrectableRead dt, 2, 0), (.cfgScrub dt true, 3, 0), (.clockMonitor dt (some 0), 4, 0), (.clockMonitor dt (some 14), 4, 14)] ∧
      s.inRun = true ∧ d ∉ safeDomains) ∧
    (∃ (s : State) (dt : Nat) (mech : Nat) (detail : Nat) (c : Instr),
      (c, mech, detail) ∈ [(Instr.lockstepMismatch dt, 1, 0), (.tcmScrub dt .uncorrectable, 2, 0), (.tcmUncorrectableRead dt, 2, 0), (.cfgScrub dt true, 3, 0), (.clockMonitor dt (some 0), 4, 0), (.clockMonitor dt (some 14), 4, 14)] ∧
      s.inRun = true ∧ sampleTurn (s.advance dt) s.safe.voltTick = true ∧ s.safe.volts = 0) ∧
    (∃ (s : State) (dt : Nat) (mech : Nat) (detail : Nat) (c : Instr),
      (c, mech, detail) ∈ [(Instr.lockstepMismatch dt, 1, 0), (.tcmScrub dt .uncorrectable, 2, 0), (.tcmUncorrectableRead dt, 2, 0), (.cfgScrub dt true, 3, 0), (.clockMonitor dt (some 0), 4, 0), (.clockMonitor dt (some 14), 4, 14)] ∧
      s.inRun = true ∧ sampleTurn (s.advance dt) s.safe.voltTick = true ∧ s.safe.volts = 1 ∧ s.safeNow = false) ∧
    (∃ (s : State) (dt : Nat) (mech : Nat) (detail : Nat) (c : Instr),
      (c, mech, detail) ∈ [(Instr.lockstepMismatch dt, 1, 0), (.tcmScrub dt .uncorrectable, 2, 0), (.tcmUncorrectableRead dt, 2, 0), (.cfgScrub dt true, 3, 0), (.clockMonitor dt (some 0), 4, 0), (.clockMonitor dt (some 14), 4, 14)] ∧
      s.inRun = true ∧ sampleTurn (s.advance dt) s.safe.voltTick = false) ∧
    (∃ (s : State) (dt : Nat) (mech : Nat) (detail : Nat) (c : Instr),
      (c, mech, detail) ∈ [(Instr.lockstepMismatch dt, 1, 0), (.tcmScrub dt .uncorrectable, 2, 0), (.tcmUncorrectableRead dt, 2, 0), (.cfgScrub dt true, 3, 0), (.clockMonitor dt (some 0), 4, 0), (.clockMonitor dt (some 14), 4, 14)] ∧
      powered s = true ∧ sampleTurn (s.advance dt) s.safe.tempTick = true) :=
  ⟨⟨(let s := (atNs (run) 50).setFlag Reg.SAFE_STATUS.SAFE true; { s with safe := { s.safe with volts := 1, hots := 1 } }), (7),
    (1), (0), (.lockstepMismatch (7)), by decide +kernel⟩,
   ⟨(let s := (atNs run 50).setFlag Reg.SAFE_STATUS.SAFE true |>.set Reg.SAFE_STATUS.MECH 5; { s with safe := { s.safe with safeTick := 7 } }),
     (7), (1), (0), (.lockstepMismatch (7)), by decide +kernel⟩,
   ⟨(let s := (atNs (inState Boot.CALIBRATE) 50).setFlag Reg.SAFE_STATUS.SAFE false; { s with safe := { s.safe with volts := 1, hots := 1 } }),
     (7), (1), (0), (.lockstepMismatch (7)), by decide +kernel⟩,
   ⟨(let s := (atNs (run) 50).setFlag Reg.SAFE_STATUS.SAFE true; { s with safe := { s.safe with volts := 1, hots := 1 } }), (7),
     (1), (0), (.lockstepMismatch (7)), (.corrected), by decide +kernel⟩,
   ⟨(let s := (atNs run 50); { s with safe := { s.safe with volts := 0, hots := 0, scrubCrc := scrubCrc s } }), (7), (1), (0),
     (.lockstepMismatch (7)), by decide +kernel⟩,
   ⟨(let s := (atNs (run) 50).setFlag Reg.SAFE_STATUS.SAFE false; { s with safe := { s.safe with volts := 1, hots := 1 } }),
     (7), (1), (0), (.lockstepMismatch (7)), by decide +kernel⟩,
   ⟨(let s := (atNs (run) 50).setFlag Reg.SAFE_STATUS.SAFE true; { s with safe := { s.safe with volts := 1, hots := 1 } }), (7),
     (1), (0), (1), (.lockstepMismatch (7)), by decide +kernel⟩,
   ⟨(let s := (atNs run 50); { s with safe := { s.safe with volts := 0, hots := 0, scrubCrc := scrubCrc s } }), (7), (1), (0),
     (.lockstepMismatch (7)), by decide +kernel⟩,
   ⟨(let s := (atNs (run) 50).setFlag Reg.SAFE_STATUS.SAFE false; { s with safe := { s.safe with volts := 1, hots := 1 } }),
     (7), (1), (0), (.lockstepMismatch (7)), by decide +kernel⟩,
   ⟨(let s := (atNs run 50); { s with safe := { s.safe with voltTick := some 7 } }), (7), (1), (0), (.lockstepMismatch (7)),
     by decide +kernel⟩,
   ⟨(let s := (atNs (run) 50).setFlag Reg.SAFE_STATUS.SAFE true; { s with safe := { s.safe with volts := 1, hots := 1 } }), (7),
     (1), (0), (.lockstepMismatch (7)), by decide +kernel⟩⟩

theorem witness_GooseLatches :
    (∃ (s : State) (src : Fin 9), (s.flag (Reg.GOOSE_SRC.EN src) = false ∨ gooseLatched s src = true)) ∧
    (∃ (s : State) (src : Fin 9), s.start.off = false ∧ s.flag (Reg.GOOSE_SRC.EN src) = true ∧ gooseLatched s src = false ∧
      s.health.sleep = false ∧ s.keys.op = none ∧ (s.boot ≤ Boot.CALIBRATE ∧ (s.keys.laddered = false ∨
      (gooseResponse s src) = 0) ∨ s.boot = Boot.TAMPER_HOLD)) ∧
    (∃ (s : State) (src : Fin 9), s.start.off = false ∧ s.flag (Reg.GOOSE_SRC.EN src) = true ∧ gooseLatched s src = false ∧
      s.health.sleep = false ∧ s.keys.op = none ∧ s.boot ≤ Boot.CALIBRATE ∧ s.keys.laddered = true ∧
      (gooseResponse s src) ≠ 0) ∧
    (∃ (s : State) (src : Fin 9), s.start.off = false ∧ s.flag (Reg.GOOSE_SRC.EN src) = true ∧ gooseLatched s src = false ∧
      s.health.sleep = false ∧ s.keys.op = none ∧ s.inRun = true) :=
  ⟨⟨(let s := (((atNs (run) 50).setFlag (Reg.GOOSE_SRC.EN 3) true).set (Reg.GOOSE_SRC.RESPONSE 3) 2); s), (4),
    by decide +kernel⟩,
   ⟨(let s := (((atNs (inState Boot.BOOT_ROM) 50).setFlag (Reg.GOOSE_SRC.EN 3) true).set (Reg.GOOSE_SRC.RESPONSE 3) 0); s), (3),
     by decide +kernel⟩,
   ⟨(let s := (((atNs (inState Boot.ADMIT) 50).setFlag (Reg.GOOSE_SRC.EN 3) true).set (Reg.GOOSE_SRC.RESPONSE 3) 1); { s with keys := { s.keys with laddered := true } }),
     (3), by decide +kernel⟩,
   ⟨(let s := (((atNs (run) 50).setFlag (Reg.GOOSE_SRC.EN 3) true).set (Reg.GOOSE_SRC.RESPONSE 3) 0); s), (3),
     by decide +kernel⟩⟩

theorem witness_ThermalAndAgeing :
    (∃ (s : State) (dt : Nat), powered s = true ∧ s.time.running = true ∧ msBoundary (s.advance dt) = true ∧
      s.health.boundary ≠ some (s.advance dt).msNow ∧ (stepsOn s) < 5 ∧ stepHot s ((stepsOn s) + 1) = true) ∧
    (∃ (s : State) (dt : Nat), powered s = true ∧ s.time.running = true ∧ msBoundary (s.advance dt) = true ∧
      s.health.boundary ≠ some (s.advance dt).msNow ∧ 0 < (stepsOn s) ∧ ((stepsOn s) = 5 ∨
      stepHot s ((stepsOn s) + 1) = false) ∧ stepCool (s.advance dt) (stepsOn s) = true) ∧
    (∃ (s : State) (dt : Nat), powered s = true ∧ s.time.running = true ∧ msBoundary (s.advance dt) = true ∧
      s.health.boundary = some (s.advance dt).msNow) ∧
    (∃ (s : State) (dt : Nat), s.inRun = true ∧ s.safeNow = true ∧ s.get Reg.SAFE_STATUS.MECH = 0x06 ∧
      s.flag Reg.HEALTH_STATUS.THERMAL_OFF = false ∧
      (s.advance dt).elapsedUs s.safe.safeTick (1000 + s.get Reg.SAFE_WD_CFG.FW_REACT_US) = true) ∧
    (∃ (s : State) (dt : Nat), s.inRun = true ∧ s.safeNow = true ∧ s.get Reg.SAFE_STATUS.MECH = 0x06 ∧
      s.flag Reg.HEALTH_STATUS.THERMAL_OFF = false ∧
      (s.advance dt).elapsedUs s.safe.safeTick (1000 + s.get Reg.SAFE_WD_CFG.FW_REACT_US) = false) ∧
    (∃ (s : State) (dt : Nat), s.inRun = true ∧ s.health.evalAt + dayTicks ≤ runTime (s.advance dt)) ∧
    (∃ (s : State) (dt : Nat), runTime (s.advance dt) < s.health.evalAt + dayTicks) :=
  ⟨⟨(let s := atNs run 7000000000; let s := s.set Reg.HEALTH_STATUS.TEMP 4000; { s with tick := 70000000000, health := { s.health with hot1 := 10 } }),
    (0), by decide +kernel⟩,
   ⟨(let s := atNs run 7000000000; let s := s.set Reg.HEALTH_STATUS.STEPS 31; { s with tick := 70000000000, health := { s.health with cool1 := some 0, cool2 := some 0, cool3 := some 0 } }),
     (0), by decide +kernel⟩,
   ⟨(let s := atNs run 50000000; let s := s; { s with health := { s.health with boundary := some (s.advance 0).msNow } }), (0),
     by decide +kernel⟩,
   ⟨(let s := atNs run 50000000; let s := ((eup s).setFlag Reg.SAFE_STATUS.SAFE true).set Reg.SAFE_STATUS.MECH 6; { s with health := { s.health with hot1 := 0 } }),
     (7000000000), by decide +kernel⟩,
   ⟨(let s := atNs run 50000000; let s := ((eup s).setFlag Reg.SAFE_STATUS.SAFE true).set Reg.SAFE_STATUS.MECH 6; { s with health := { s.health with hot1 := 0 } }),
     (0), by decide +kernel⟩,
   ⟨(let s := atNs run 50000000; let s := s.set (Reg.HEALTH_MON.SAMPLES 0) 200 |>.set Reg.HEALTH_CFG.WARN_DAYS 365; { s with health := { s.health with evalAt := 0, warned := 0 } }),
     (70000000000000), by decide +kernel⟩,
   ⟨(let s := atNs run 50000000; let s := s.set Reg.HEALTH_STATUS.STEPS 0 |>.set Reg.HEALTH_STATUS.TEMP 4000; { s with health := { s.health with hot1 := 10 } }),
     (7000000000), by decide +kernel⟩⟩

theorem witness_OutageSleepAndWakes :
    (∃ (s : State) (level : Bool), s.health.mains ≠ level ∧ powered s = true) ∧
    (∃ (s : State) (level : Bool), s.health.mains = level) ∧
    (∃ (s : State) (dt : Nat), s.start.off = false ∧ (∀ last, s.health.vbatTick = some last →
      (s.advance dt).elapsedMs last 100 = true)) ∧
    (∃ (s : State) (dt : Nat), s.inRun = true ∧ s.health.mains = false ∧ s.get Reg.HEALTH_STATUS.PROFILE ≠ 3 ∧
      msBoundary (s.advance dt) = true ∧ s.flag Reg.HEALTH_CFG.OUTAGE_EN = true ∧
      (s.advance dt).elapsedMs s.health.mainsTick (s.get Reg.HEALTH_CFG.OUT_DEBOUNCE_MS) = true) ∧
    (∃ (s : State) (dt : Nat), s.inRun = true ∧ s.health.mains = false ∧ s.get Reg.HEALTH_STATUS.PROFILE ≠ 3 ∧
      msBoundary (s.advance dt) = true ∧ s.flag Reg.HEALTH_CFG.OUTAGE_EN = false) ∧
    (∃ (s : State) (dt : Nat), s.inRun = true ∧ s.health.mains = true ∧ s.get Reg.HEALTH_STATUS.PROFILE = 3 ∧
      (s.advance dt).elapsedSec s.health.mainsTick 1 = true ∧ msBoundary (s.advance dt) = true) ∧
    (∃ (s : State), powered s = true ∧ ((if s.flag Reg.HEALTH_STATUS.ON_BACKUP = false then 1 else if s.keys.op.isSome = true ∨
      s.fwm ≠ [] ∨ s.upd.prog.isSome = true ∨ s.upd.cmd.isSome = true then 2 else if s.safe.flights ≠ [] ∨
      s.safe.inputs ≠ [] then 3 else if s.flag Reg.LAMB_CTRL.EN = true ∧
      s.flag Reg.LAMB_CTRL.CAL_OK = false then 4 else 0)) ≠ 0) ∧
    (∃ (s : State), powered s = true ∧ ((if s.flag Reg.HEALTH_STATUS.ON_BACKUP = false then 1 else if s.keys.op.isSome = true ∨
      s.fwm ≠ [] ∨ s.upd.prog.isSome = true ∨ s.upd.cmd.isSome = true then 2 else if s.safe.flights ≠ [] ∨
      s.safe.inputs ≠ [] then 3 else if s.flag Reg.LAMB_CTRL.EN = true ∧
      s.flag Reg.LAMB_CTRL.CAL_OK = false then 4 else 0)) = 0) ∧
    (∃ (s : State) (dt : Nat) (n : Nat) (p : Nat) (pat : Fin 4) (rx : List Bool) (c : Instr), s.health.sleep = true ∧
      s.health.waking = false ∧
      (c, n, p) ∈ (if rtcDue (s.advance dt) = true then [(Instr.rtcWake dt, 1, 0), (.outageWake dt .rtc, 1, 0)] else []) ++ (if s.flag Reg.LAMB_CTRL.EN = true ∧
      s.flag (Reg.LAMB_PAT.EN pat) = true then [(Instr.outageWake dt (.lamb pat), 0, pat.val)] else []) ++ (if s.aon.card.isSome = true then [(Instr.outageWake dt .card, 2, 0)] else []) ++ (if s.health.mains = true then [(Instr.outageWake dt .mains, 3, 0)] else []) ++ (if sleepTamper s = true then [(Instr.outageWake dt .tamper, 4, 0)] else []) ++ (if s.flag Reg.LAMB_CTRL.EN = true ∧
      lambHit s rx pat = true ∧ (∀ m, m < pat.val →
      lambHit s rx m = false) then [(Instr.lambMatch dt rx, 0, pat.val)] else []) ∧ (3 ≤ n ∨
      s.get Reg.HEALTH_CFG.VBAT_WAKE_MIN ≤ s.get Reg.HEALTH_STATUS.VBAT)) ∧
    (∃ (s : State) (dt : Nat) (n : Nat) (p : Nat) (pat : Fin 4) (rx : List Bool) (c : Instr), s.health.sleep = true ∧
      s.health.waking = false ∧
      (c, n, p) ∈ (if rtcDue (s.advance dt) = true then [(Instr.rtcWake dt, 1, 0), (.outageWake dt .rtc, 1, 0)] else []) ++ (if s.flag Reg.LAMB_CTRL.EN = true ∧
      s.flag (Reg.LAMB_PAT.EN pat) = true then [(Instr.outageWake dt (.lamb pat), 0, pat.val)] else []) ++ (if s.aon.card.isSome = true then [(Instr.outageWake dt .card, 2, 0)] else []) ++ (if s.health.mains = true then [(Instr.outageWake dt .mains, 3, 0)] else []) ++ (if sleepTamper s = true then [(Instr.outageWake dt .tamper, 4, 0)] else []) ++ (if s.flag Reg.LAMB_CTRL.EN = true ∧
      lambHit s rx pat = true ∧ (∀ m, m < pat.val →
      lambHit s rx m = false) then [(Instr.lambMatch dt rx, 0, pat.val)] else []) ∧ n ≤ 2 ∧
      s.get Reg.HEALTH_STATUS.VBAT < s.get Reg.HEALTH_CFG.VBAT_WAKE_MIN) ∧
    (∃ (s : State) (dt : Nat) (n : Nat) (p : Nat) (pat : Fin 4) (rx : List Bool) (c : Instr), s.health.sleep = true ∧
      s.health.waking = false ∧
      (c, n, p) ∈ (if rtcDue (s.advance dt) = true then [(Instr.rtcWake dt, 1, 0), (.outageWake dt .rtc, 1, 0)] else []) ++ (if s.flag Reg.LAMB_CTRL.EN = true ∧
      s.flag (Reg.LAMB_PAT.EN pat) = true then [(Instr.outageWake dt (.lamb pat), 0, pat.val)] else []) ++ (if s.aon.card.isSome = true then [(Instr.outageWake dt .card, 2, 0)] else []) ++ (if s.health.mains = true then [(Instr.outageWake dt .mains, 3, 0)] else []) ++ (if sleepTamper s = true then [(Instr.outageWake dt .tamper, 4, 0)] else []) ++ (if s.flag Reg.LAMB_CTRL.EN = true ∧
      lambHit s rx pat = true ∧ (∀ m, m < pat.val →
      lambHit s rx m = false) then [(Instr.lambMatch dt rx, 0, pat.val)] else []) ∧ (∀ m : Fin 4, lambHit s rx m = false)) :=
  ⟨⟨(let s := atNs run 50000000; let s := s; { s with health := { s.health with hot1 := 0 } }), (false), by decide +kernel⟩,
   ⟨(let s := atNs run 50000000; let s := s; { s with health := { s.health with hot1 := 0 } }), (true), by decide +kernel⟩,
   ⟨(let s := atNs run 50000000; let s := s; { s with health := { s.health with hot1 := 0 } }), (7000000000),
     by decide +kernel⟩,
   ⟨(let s := atNs run 7000000000; let s := s.setFlag Reg.HEALTH_CFG.OUTAGE_EN true |>.set Reg.CHAN_STATUS.MODE 1; { s with tick := 70000000000, health := { s.health with mains := false } }),
     (0), by decide +kernel⟩,
   ⟨(let s := atNs run 7000000000; let s := s.setFlag Reg.HEALTH_CFG.OUTAGE_EN false |>.set Reg.CHAN_STATUS.MODE 2; { s with tick := 70000000000, health := { s.health with mains := false } }),
     (0), by decide +kernel⟩,
   ⟨(let s := atNs run 7000000000; let s := s.set Reg.HEALTH_STATUS.PROFILE 3 |>.set Reg.CHAN_STATUS.MODE 0 |>.set Reg.CHAN_HEAR_CTRL.BASE 2; { s with tick := 70000000000, health := { s.health with profile := 1 } }),
     (0), by decide +kernel⟩,
   ⟨(let s := atNs run 50000000; let s := s; { s with health := { s.health with hot1 := 0 } }), by decide +kernel⟩,
   ⟨(let s := atNs run 7000000000; let s := s.setFlag Reg.HEALTH_STATUS.ON_BACKUP true; { s with tick := 70000000000, health := { s.health with profile := 1 } }),
     by decide +kernel⟩,
   ⟨(let s := atNs run 50000000; let s := let s := s.setFlag Reg.LAMB_CTRL.EN true |>.setFlag (Reg.LAMB_PAT.EN 2) true |>.set (Reg.LAMB_PAT.ADDR 2) 0xFFFF |>.setFlag (Reg.LAMB_PAT.EN 3) true |>.set (Reg.LAMB_PAT.ADDR 3) 0xFFFF |>.setFlag Reg.GOOSE_WAKE_AT.EN true |>.set (Reg.GOOSE_SRC.RESPONSE 1) 2 |>.set Reg.HEALTH_CFG.VBAT_WAKE_MIN 2000 |>.set Reg.HEALTH_STATUS.VBAT 3000; { s with aon := { s.aon with card := some (1,2), latches := [{ src := 1, phase := 0xE }] } }; { s with health := { s.health with sleep := true } }),
     (7000000000), (1), (0), (2), (wakeBits 0xFFFF), (.rtcWake (7000000000)), by decide +kernel⟩,
   ⟨(let s := atNs run 50000000; let s := let s := s.setFlag Reg.LAMB_CTRL.EN true |>.setFlag (Reg.LAMB_PAT.EN 2) true |>.set (Reg.LAMB_PAT.ADDR 2) 0xFFFF |>.setFlag (Reg.LAMB_PAT.EN 3) true |>.set (Reg.LAMB_PAT.ADDR 3) 0xFFFF |>.setFlag Reg.GOOSE_WAKE_AT.EN true |>.set (Reg.GOOSE_SRC.RESPONSE 1) 2 |>.set Reg.HEALTH_CFG.VBAT_WAKE_MIN 3500 |>.set Reg.HEALTH_STATUS.VBAT 3000; { s with aon := { s.aon with card := some (1,2), latches := [{ src := 1, phase := 0xE }] } }; { s with health := { s.health with sleep := true } }),
     (7000000000), (1), (0), (2), (wakeBits 0xFFFF), (.rtcWake (7000000000)), by decide +kernel⟩,
   ⟨(let s := atNs run 50000000; let s := s.setFlag Reg.LAMB_CTRL.EN true; { s with health := { s.health with sleep := true } }),
     (7), (3), (0), (2), (wakeBits 0xFF00), (.outageWake (7) .mains), by decide +kernel⟩⟩

theorem witness_PerfAndSerial :
    (∃ (s : State) (dt : Nat) (p : Nat), s.perf.period = some p ∧
      (s.advance dt).time.ns < ((s.advance dt).time.ns / (p * 1000) * (p * 1000)) + 64 ∧
      ((s.advance dt).time.ns / (p * 1000) * (p * 1000)) ≠ s.perf.fromNs ∧ ringFull s = false) ∧
    (∃ (s : State) (dt : Nat) (p : Nat), s.perf.period = some p ∧
      (s.advance dt).time.ns < ((s.advance dt).time.ns / (p * 1000) * (p * 1000)) + 64 ∧
      ((s.advance dt).time.ns / (p * 1000) * (p * 1000)) ≠ s.perf.fromNs ∧ ringFull s = true) ∧
    (∃ (s : State) (dt : Nat) (p : Nat), s.perf.period = some p ∧
      (((s.advance dt).time.ns / (p * 1000) * (p * 1000)) + 64 ≤ (s.advance dt).time.ns ∨
      ((s.advance dt).time.ns / (p * 1000) * (p * 1000)) = s.perf.fromNs)) ∧
    (∃ (s : State), s.perf.period = none) ∧
    (∃ (s : State) (dt : Nat) (n : Fin 2), (uartTx (uartDrain (s.advance dt) n) n).length < 64) ∧
    (∃ (s : State) (dt : Nat) (n : Fin 2), 64 ≤ (uartTx (uartDrain (s.advance dt) n) n).length) ∧
    (∃ (s : State) (n : Fin 2), s.flag (Reg.IO_UART_CFG.EN n) = true ∧ (uartRx s n).length < 64) ∧
    (∃ (s : State) (n : Fin 2), s.flag (Reg.IO_UART_CFG.EN n) = true ∧ 64 ≤ (uartRx s n).length) ∧
    (∃ (s : State) (e : Nat) (n : Fin 2) (rest : List Nat), uartRx s n = e :: rest ∧ e < 1024) ∧
    (∃ (s : State) (n : Fin 2), uartRx s n = []) ∧
    (∃ (s : State) (n : Fin 2) (v : Word), v.getLsbD 63 = true ∧ s.flag (Reg.IO_I2C_STATUS.BUSY n) = false) ∧
    (∃ (s : State) (n : Fin 2) (v : Word), v.getLsbD 63 = true ∧ s.flag (Reg.IO_SPI_STATUS.BUSY n) = false) ∧
    (∃ (s : State) (n : Fin 2), s.flag (Reg.IO_I2C_STATUS.BUSY n) = true) ∧
    (∃ (s : State) (n : Fin 2), s.flag (Reg.IO_SPI_STATUS.BUSY n) = true) :=
  ⟨⟨(let s := (atNs run 6000000000).set Reg.PERF_RING_BASE.COUNT 4 |>.set Reg.PERF_RING_BASE.ADDR (lp4xBase / 8 / 64) |>.set Reg.DDRC_STATUS.SIZE_GIB 1; let s := s; { s with perf := { s.perf with period := some (1000) } }),
    (0), (1000), by decide +kernel⟩,
   ⟨(let s := (atNs run 6000000000).set Reg.PERF_RING_BASE.COUNT 4 |>.set Reg.PERF_RING_BASE.ADDR (lp4xBase / 8 / 64) |>.set Reg.DDRC_STATUS.SIZE_GIB 1; let s := s.set Reg.PERF_RING_WR.WR 3 |>.set Reg.PERF_RING_RD.RD 0; { s with perf := { s.perf with period := some (1000) } }),
     (0), (1000), by decide +kernel⟩,
   ⟨(let s := (atNs run 70000000000).set Reg.PERF_RING_BASE.COUNT 4 |>.set Reg.PERF_RING_BASE.ADDR 1048576; let s := s; { s with perf := { s.perf with period := some (60000000) } }),
     (7000000000), (60000000), by decide +kernel⟩,
   ⟨(let s := (atNs run 70000000000).set Reg.PERF_RING_BASE.COUNT 4 |>.set Reg.PERF_RING_BASE.ADDR 1048576; let s := s; { s with perf := { s.perf with period := none } }),
     by decide +kernel⟩,
   ⟨(let s := (atNs run 70000000000).set Reg.PERF_RING_BASE.COUNT 4 |>.set Reg.PERF_RING_BASE.ADDR 1048576; let s := s; { s with perf := { s.perf with period := some (60000000) } }),
     (7000000000), (0), by decide +kernel⟩,
   ⟨(let s := (atNs run 5).setFlag (Reg.IO_UART_CFG.EN 0) true |>.set (Reg.IO_UART_CFG.DIV 0) 100; { s with io := { s.io with uartTx0 := List.replicate 64 7, uartTx1 := List.replicate 64 9, uartRx0 := [], uartRx1 := [] } }),
     (50), (0), by decide +kernel⟩,
   ⟨(let s := (atNs run 5).setFlag (Reg.IO_UART_CFG.EN 0) true |>.set (Reg.IO_UART_CFG.DIV 0) 100; { s with io := { s.io with uartTx0 := List.replicate 0 7, uartTx1 := List.replicate 0 9, uartRx0 := List.replicate 0 7, uartRx1 := (0x241) :: List.replicate (0-1) 7 } }),
     (0), by decide +kernel⟩,
   ⟨(let s := (atNs run 5).setFlag (Reg.IO_UART_CFG.EN 0) true |>.set (Reg.IO_UART_CFG.DIV 0) 100; { s with io := { s.io with uartTx0 := List.replicate 64 7, uartTx1 := List.replicate 64 9, uartRx0 := List.replicate 64 7, uartRx1 := (0x241) :: List.replicate (64-1) 7 } }),
     (0), by decide +kernel⟩,
   ⟨(let s := (atNs run 5).setFlag (Reg.IO_UART_CFG.EN 1) true |>.set (Reg.IO_UART_CFG.DIV 1) 100; { s with io := { s.io with uartTx0 := List.replicate 0 7, uartTx1 := List.replicate 0 9, uartRx0 := List.replicate 0 7, uartRx1 := (0x241) :: List.replicate (0-1) 7 } }),
     (0x241), (1), (List.replicate (0-1) 7), by decide +kernel⟩,
   ⟨(let s := (atNs run 70000000000).set Reg.PERF_RING_BASE.COUNT 4 |>.set Reg.PERF_RING_BASE.ADDR 1048576; let s := s; { s with perf := { s.perf with period := some (60000000) } }),
     (0), by decide +kernel⟩,
   ⟨(let s := (atNs run 5).setFlag (Reg.IO_UART_CFG.EN 0) true |>.set (Reg.IO_UART_CFG.DIV 0) 100; { s with io := { s.io with uartTx0 := List.replicate 0 7, uartTx1 := List.replicate 0 9, uartRx0 := List.replicate 0 7, uartRx1 := (0x241) :: List.replicate (0-1) 7 } }),
     (0), (0x80000000000000AB), by decide +kernel⟩,
   ⟨(let s := (atNs run 5).setFlag (Reg.IO_UART_CFG.EN 0) true |>.set (Reg.IO_UART_CFG.DIV 0) 100; { s with io := { s.io with uartTx0 := List.replicate 0 7, uartTx1 := List.replicate 0 9, uartRx0 := List.replicate 0 7, uartRx1 := (0x241) :: List.replicate (0-1) 7 } }),
     (0), (0x80000000000000AB), by decide +kernel⟩,
   ⟨(let s := (atNs run 5).setFlag (Reg.IO_I2C_STATUS.BUSY 0) true |>.setFlag (Reg.IO_SPI_STATUS.BUSY 0) true; { s with io := { s.io with i2c0 := some (true,2), i2c1 := some (true,4), spi0 := some 3, spi1 := some 1 } }),
     (0), by decide +kernel⟩,
   ⟨(let s := (atNs run 5).setFlag (Reg.IO_I2C_STATUS.BUSY 0) true |>.setFlag (Reg.IO_SPI_STATUS.BUSY 0) true; { s with io := { s.io with i2c0 := some (true,2), i2c1 := some (true,4), spi0 := some 3, spi1 := some 1 } }),
     (0), by decide +kernel⟩⟩

/-! Witnesses of the statements about a step. -/

/-- A state in which a write of LP4X waits. -/
def waiting : State := { run with pending := [.registerWrite 1 (.core 2) (.phys 0x1000000200) 0 0x5A .ok] }

theorem witness_StepRunsFrontCommand : ∃ (c : Instr) (s : State) (rest : List Instr), s.pending = c :: rest :=
  ⟨_, waiting, [], rfl⟩

theorem witness_CommandsKeepQueueAndClock : ∃ (i : Instr) (s t : State), exec i s = .next t :=
  ⟨.seenCacheVisit 1, waiting, _, rfl⟩

theorem witness_StepKeepsMemoriesCanonical : ∃ s t : State, s.inv ∧ step s = .next t :=
  ⟨waiting, _, by show Memory.wf _ = true; decide +kernel, rfl⟩

theorem witness_StepNeverClearsOtpBits : ∃ s t : State, step s = .next t := ⟨waiting, _, rfl⟩

/-! Operand checks. -/

/-- R719: a core does not reach the JTAG message buffer. -/
theorem test_addr_refused : Instr.wellFormed (.registerWrite 0 (.core 0) (.jtagBuf 3) 3 0 .ok) = false := by decide

/-- R481: a request that is split begins on a 64-bit boundary. -/
theorem test_pcie_refused : Instr.wellFormed (.pcieRequest 0 .bar2 4 (.readWords 2) .ok) = false := by decide

/-- R479: a link has 1 or 2 lanes. -/
theorem test_link_refused : Instr.wellFormed (.pcieLinkTrain 0 4 3 false) = false := by decide

/-- No row of the table gives bits. -/
theorem test_no_words : decodeTableWord 16 0 = none := by decide

/-! Values written down elsewhere. -/

/-- The ASCII octets "123456789". -/
def digits : List Byte := [0x31, 0x32, 0x33, 0x34, 0x35, 0x36, 0x37, 0x38, 0x39]

/-- 05_waveforms_and_coding.md, R193. -/
theorem test_crc32 : crc32 digits = 0xCBF43926 := by decide +kernel

/-- The check value of CRC-32C. -/
theorem test_crc32c : crc32c digits = 0xE3069283 := by decide +kernel

/-- The check value of the CRC of an IEEE 802.15.4 FCS. -/
theorem test_crc16 : crc16 digits = 0x2189 := by decide +kernel

/-- ISO/IEC 14443-3: CRC_A of 00 00 is sent as A0 1E. -/
theorem test_crcA : leBytes 2 (crcNfc 0 [0, 0]) = [0xA0, 0x1E] := by decide +kernel

/-- FIPS 180-4: the digest of "abc". -/
theorem test_sha256 : beNat (sha256 [0x61, 0x62, 0x63]) =
    0xba7816bf8f01cfea414140de5dae2223b00361a396177a9cb410ff61f20015ad := by decide +kernel

/-- RFC 3394, 4.1: 128 bits of key data wrapped with a 128-bit KEK. -/
theorem test_keyWrap : keyWrap ((List.range 16).map (BitVec.ofNat 8)) ((List.range 16).map fun i => BitVec.ofNat 8 (17 * i)) =
    beBytes 24 0x1FA68B0A8112B447AEF34BD8FB5A7B829D3E862371D2CFE5 := by decide +kernel

/-- RFC 3610, packet vector 1. -/
theorem test_ccm :
    let key := (List.range 16).map fun i => BitVec.ofNat 8 (0xC0 + i)
    let nonce := beBytes 13 0x00000003020100A0A1A2A3A4A5
    let data := (List.range 23).map fun i => BitVec.ofNat 8 (8 + i)
    ccmCrypt key nonce data = beBytes 23 0x588C979A61C663D2F066D0C2C0F989806D5F6B61DAC384 ∧
      ccmTag key nonce ((List.range 8).map (BitVec.ofNat 8)) data 8 = beBytes 8 0x17E8D12CFDF926E0 := by decide +kernel

/-- The public key of scalar 2 on P-256. -/
theorem test_publicKey : beNat ((publicKey [2]).take 32) =
    0x7cf27b188d034f7e8a52380304b51ac3c08969e277f21b35a60b48fc47669978 := by decide +kernel

/-- R214: ALPHA of OX_DEC_CTRL is 0xC at reset. -/
theorem test_reset_alpha : State.reset.get Reg.OX_DEC_CTRL.ALPHA = 0xC := by decide

end Sys2Proof.Tests
end

section
/-!
SUPPORT. What an access to a control register does before the register itself has a say: the bridge's check (R30, R395), the
width and alignment rules (R7, R9), and the offsets that hold no register (R12). Then the statements of 00_scope.md.
-/

namespace Sys2Proof.Machine

/-! What a report of a FIFO's check bits leaves as it was. -/

/-- `t` is `a` but for register fields, counters, the EVENT FIFO and the state of the queues: all that a report of a FIFO's
check bits changes where no mechanism detects the word (R44, R392, R402). -/
def onlyReports (a t : State) : Prop :=
  { t with fields := a.fields, counters := a.counters, events := a.events, q := a.q } = a

theorem onlyReports_refl (a : State) : onlyReports a a := rfl

theorem onlyReports_trans {a b t : State} (h : onlyReports a b) (k : onlyReports b t) : onlyReports a t := by
  unfold onlyReports at h k ⊢
  rw [← k] at h
  exact h

theorem State.set_onlyReports (s : State) (f : Fld) (v : Nat) : onlyReports s (s.set f v) := by
  simp only [onlyReports, State.set_frame]

theorem State.count_onlyReports (s : State) (c n : Nat) : onlyReports s (s.count c n) := by
  simp only [onlyReports, State.count_frame]

theorem State.setQ_onlyReports (s : State) (x : QueueState) : onlyReports s (s.setQ x) := rfl

theorem State.recordEvent_onlyReports (s : State) (r : EventRec) : onlyReports s (s.recordEvent r) := by
  rcases State.recordEvent_cases s r with h | ⟨-, h⟩
  · rw [h]
    rfl
  · rw [h]
    exact onlyReports_trans (State.set_onlyReports ..) (State.set_onlyReports ..)

theorem State.event_onlyReports (s : State) (code source arg : Nat) : onlyReports s (s.event code source arg) := by
  rw [State.event_eq]
  exact State.onlyIf_keeps (P := onlyReports s) _ _ _ (State.count_onlyReports ..) fun h =>
    onlyReports_trans h (State.recordEvent_onlyReports ..)

theorem fifoUncorr_onlyReports (s : State) (fifo block : Nat) (hw : Bool) : onlyReports s (fifoUncorr s fifo block hw) := by
  unfold fifoUncorr
  dsimp only
  split
  · exact onlyReports_trans (State.setQ_onlyReports s _) (State.event_onlyReports ..)
  · exact onlyReports_trans (State.setQ_onlyReports s _) (State.count_onlyReports ..)

theorem bridgeRead_onlyReports (s : State) (b : Nat) (ecc : Ecc) : onlyReports s (bridgeRead s b ecc) := by
  cases ecc with
  | ok => exact onlyReports_refl s
  | corrected => exact State.set_onlyReports ..
  | uncorrectable =>
    exact onlyReports_trans (State.set_onlyReports ..)
      (onlyReports_trans (fifoUncorr_onlyReports ..) (State.set_onlyReports ..))

/-- The bridge's check keeps the clock, the queue of commands and the power. -/
theorem bridgeRead_frame (s : State) (b : Nat) (ecc : Ecc) :
    (bridgeRead s b ecc).tick = s.tick ∧ (bridgeRead s b ecc).pending = s.pending ∧
      powered (bridgeRead s b ecc) = powered s := by
  have h := bridgeRead_onlyReports s b ecc
  unfold onlyReports at h
  have clock := congrArg State.tick h
  have queue := congrArg State.pending h
  have power := congrArg powered h
  exact ⟨clock, queue, power⟩

/-! Answers on the bus. -/

theorem onlyBusError_busError (a : State) : onlyBusError a a.busError := ⟨rfl, rfl⟩

theorem onlyRegsAnswered_answer (a : State) (d : Nat) (fs : List Fld) : onlyRegsAnswered a (a.answer d) fs :=
  ⟨rfl, rfl, fun _ _ => rfl⟩

/-- A command whose effect is the bridge's check and an answer on the bus completes with that. -/
theorem completes_of_bus {i : Instr} {s r : State} {dt b : Nat} {ecc : Ecc} {k : State → State} {post : State → Prop}
    (h : exec i s = step' dt s k) (effect : k (s.advance dt) = r)
    (bus : { r with bus := (bridgeRead (s.advance dt) b ecc).bus } = bridgeRead (s.advance dt) b ecc) (hp : post r) :
    completes i s post := by
  obtain ⟨clock, queue, -⟩ := bridgeRead_frame (s.advance dt) b ecc
  rw [← bus] at clock queue
  refine ⟨r, h.trans ?_, hp⟩
  rw [step'_iff, effect]
  change r.tick = s.tick + dt at clock
  change r.pending = s.pending at queue
  rw [← clock, ← queue]

/-! An access to the register bus. -/

section RegisterAccess
variable {b o : Nat} (hb : b < 26) (ho : o < 0x10000)

include ho in
/-- The widths that the control blocks take, each at its own alignment (R6, R7, R9). -/
theorem widthOk_busReg (n : Fin 4) : widthOk (ctrlBase + b * 0x10000 + o) (2 ^ n.val) = true ↔
    o % 2 ^ n.val = 0 ∧ (n.val = 3 ∨ n.val = 2 ∧ b ≠ 1 ∧ b ≠ 2 ∧ b ≠ 14) := by
  rw [widthOk, show (ctrlBase + b * 0x10000 + o - ctrlBase) / 0x10000 = b by omega]
  unfold ctrlBase
  fin_cases n <;> simp <;> omega

include hb ho

theorem busReg_toNat : (BitVec.ofNat 40 (ctrlBase + b * 0x10000 + o)).toNat = ctrlBase + b * 0x10000 + o := by
  rw [BitVec.toNat_ofNat, Nat.mod_eq_of_lt (by simp only [ctrlBase]; omega)]

theorem inCtrl_busReg : inCtrl (ctrlBase + b * 0x10000 + o) = true := by
  unfold inCtrl ctrlBase ctrlSpan
  rw [decide_eq_true_eq]
  omega

/-- What the bridge makes of an access (R395): a bus error after an uncorrectable word, and the access otherwise. -/
theorem onBus_busReg (s : State) (ecc : Ecc) (k : State → State) :
    onBus s (ctrlBase + b * 0x10000 + o) ecc k =
      if ecc = .uncorrectable then (bridgeRead s b ecc).busError else k (bridgeRead s b ecc) := by
  rw [onBus, inCtrl_busReg hb ho, if_pos rfl, show (ctrlBase + b * 0x10000 + o - ctrlBase) / 0x10000 = b by omega]
  rfl

theorem readAt_busReg {s : State} {init : Init} {n : Nat} (ecc : Ecc) (reach : reachesReg s init b o n = true) :
    readAt s init (busReg b o) (2 ^ n) ecc =
      if ecc = .uncorrectable then (bridgeRead s b ecc).busError
      else busRead (bridgeRead s b ecc) init (ctrlBase + b * 0x10000 + o) (2 ^ n) := by
  rw [busReg, readAt, busReg_toNat hb ho, show reaches s init _ _ = true from reach, State.onlyIf_true, onBus_busReg hb ho]

theorem writeAt_busReg {s : State} {init : Init} {n : Nat} (v : Word) (ecc : Ecc) (reach : reachesReg s init b o n = true) :
    writeAt s init (busReg b o) (2 ^ n) v ecc =
      if ecc = .uncorrectable then (bridgeRead s b ecc).busError
      else busWrite (bridgeRead s b ecc) init (ctrlBase + b * 0x10000 + o) (2 ^ n) v.toNat := by
  rw [busReg, writeAt, busReg_toNat hb ho, show reaches s init _ _ = true from reach, State.onlyIf_true, onBus_busReg hb ho]

/-- A read of a register whose effect, after the bridge's check, is an answer on the bus. -/
theorem rcFieldRead_completes {s r : State} {dt : Nat} {init : Init} {n : Fin 4} {ecc : Ecc} {post : State → Prop}
    (reach : reachesReg s init b o n = true)
    (effect : (if ecc = .uncorrectable then (bridgeRead (s.advance dt) b ecc).busError
      else busRead (bridgeRead (s.advance dt) b ecc) init (ctrlBase + b * 0x10000 + o) (2 ^ n.val)) = r)
    (bus : { r with bus := (bridgeRead (s.advance dt) b ecc).bus } = bridgeRead (s.advance dt) b ecc) (hp : post r) :
    completes (.rcFieldRead dt init (busReg b o) n ecc) s post :=
  completes_of_bus rfl ((readAt_busReg (s := s.advance dt) hb ho ecc reach).trans effect) bus hp

/-- A write of a register whose effect, after the bridge's check, is an answer on the bus. -/
theorem registerWrite_completes {s r : State} {dt : Nat} {init : Init} {n : Fin 4} {v : Word} {ecc : Ecc} {post : State → Prop}
    (reach : reachesReg s init b o n = true)
    (effect : (if ecc = .uncorrectable then (bridgeRead (s.advance dt) b ecc).busError
      else busWrite (bridgeRead (s.advance dt) b ecc) init (ctrlBase + b * 0x10000 + o) (2 ^ n.val) v.toNat) = r)
    (bus : { r with bus := (bridgeRead (s.advance dt) b ecc).bus } = bridgeRead (s.advance dt) b ecc) (hp : post r) :
    completes (.registerWrite dt init (busReg b o) n v ecc) s post :=
  completes_of_bus rfl ((writeAt_busReg (s := s.advance dt) hb ho v ecc reach).trans effect) bus hp

/-! A width or an alignment that the block does not take. -/

theorem busRead_of_width {s : State} {init : Init} {n : Nat} (bad : widthOk (ctrlBase + b * 0x10000 + o) n = false) :
    busRead s init (ctrlBase + b * 0x10000 + o) n = s.busError := by
  simp only [busRead, inCtrl_busReg hb ho, bad]
  cases powered s <;> rfl

theorem busWrite_of_width {s : State} {init : Init} {n v : Nat} (bad : widthOk (ctrlBase + b * 0x10000 + o) n = false) :
    busWrite s init (ctrlBase + b * 0x10000 + o) n v = s.busError := by
  simp only [busWrite, inCtrl_busReg hb ho, bad]
  cases powered s <;> rfl

theorem rcFieldRead_busError {s : State} {dt : Nat} {init : Init} {n : Fin 4} {ecc : Ecc} (reach : reachesReg s init b o n = true)
    (bad : ecc = .uncorrectable ∨ widthOk (ctrlBase + b * 0x10000 + o) (2 ^ n.val) = false) :
    completes (.rcFieldRead dt init (busReg b o) n ecc) s (onlyBusError (bridgeRead (s.advance dt) b ecc)) := by
  refine rcFieldRead_completes (r := (bridgeRead (s.advance dt) b ecc).busError) hb ho reach ?_ rfl (onlyBusError_busError _)
  rcases bad with word | width
  · rw [if_pos word]
  · rw [busRead_of_width hb ho width, ite_self]

theorem registerWrite_busError {s : State} {dt : Nat} {init : Init} {n : Fin 4} {v : Word} {ecc : Ecc}
    (reach : reachesReg s init b o n = true)
    (bad : ecc = .uncorrectable ∨ widthOk (ctrlBase + b * 0x10000 + o) (2 ^ n.val) = false) :
    completes (.registerWrite dt init (busReg b o) n v ecc) s (onlyBusError (bridgeRead (s.advance dt) b ecc)) := by
  refine registerWrite_completes (r := (bridgeRead (s.advance dt) b ecc).busError) hb ho reach ?_ rfl (onlyBusError_busError _)
  rcases bad with word | width
  · rw [if_pos word]
  · rw [busWrite_of_width hb ho width, ite_self]

/-! A width that the block takes. -/

theorem busRead_register {s : State} {init : Init} {n : Nat} (power : powered s = true)
    (width : widthOk (ctrlBase + b * 0x10000 + o) n = true) :
    busRead s init (ctrlBase + b * 0x10000 + o) n =
      if n = 8 then readWhole s init b o else readHalf s b (o / 8 * 8) (decide (o % 8 = 4)) := by
  simp only [busRead, power, inCtrl_busReg hb ho, width, show (ctrlBase + b * 0x10000 + o - ctrlBase) / 0x10000 = b by omega,
    show (ctrlBase + b * 0x10000 + o - ctrlBase) % 0x10000 = o by omega]
  rfl

theorem busWrite_register {s : State} {init : Init} {n v : Nat} (power : powered s = true)
    (width : widthOk (ctrlBase + b * 0x10000 + o) n = true) :
    busWrite s init (ctrlBase + b * 0x10000 + o) n v =
      if n = 8 then (writeReg s init b o v none).answer 0
      else
        (writeReg s init b (o / 8 * 8) (halfWord s b (o / 8 * 8) v (decide (o % 8 = 4)))
          (some (decide (o % 8 = 4)))).answer 0 := by
  simp only [busWrite, power, inCtrl_busReg hb ho, width, show (ctrlBase + b * 0x10000 + o - ctrlBase) / 0x10000 = b by omega,
    show (ctrlBase + b * 0x10000 + o - ctrlBase) % 0x10000 = o by omega]
  rfl

end RegisterAccess

/-! An offset that no row of its block covers (R12). -/

/-- A row of a block that covers an offset puts a register there. -/
theorem rowAt_of_row {b o off stop : Nat} (row : ∃ r ∈ Reg.blockRows b, r.off = off ∧ r.off + 8 * r.count = stop)
    (lo : off ≤ o) (hi : o < stop) (ho : o < 0x10000) : Reg.rowAt (b * 0x10000 + o) ≠ none := by
  obtain ⟨r, hr, rfl, rfl⟩ := row
  rw [Reg.rowAt, show (b * 0x10000 + o) / 0x10000 = b by omega, show (b * 0x10000 + o) % 0x10000 = o by omega, Ne,
    List.find?_eq_none]
  intro none
  exact none r hr (by simp [lo, hi])

section NoRegister
variable {b o : Nat} (h : Reg.rowAt (b * 0x10000 + o) = none) (ho : o < 0x10000)
include h

theorem regFields_of_no_row : regFields b o = [] := by
  unfold regFields
  rw [h]
  split_ifs <;> rfl

theorem regWord_of_no_row (s : State) : regWord s b o = 0 := by
  rw [regWord, regFields_of_no_row h]
  rfl

theorem clearRc_of_no_row (s : State) (hi lo : Nat) : clearRc s b o hi lo = s := by
  rw [clearRc, regFields_of_no_row h]
  rfl

theorem writePlain_of_no_row (s : State) (v : Nat) : writePlain s b o v = s := by
  rw [writePlain, regFields_of_no_row h]
  rfl

theorem readHalf_of_no_row (s : State) (high : Bool) : readHalf s b o high = s.answer 0 := by
  rw [readHalf, regWord_of_no_row h, clearRc_of_no_row h, clearRc_of_no_row h, ite_self, Nat.zero_div, Nat.zero_mod, ite_self]

theorem not_at_pair {c x y : Nat} (rows : Reg.rowAt (c * 0x10000 + x) ≠ none ∧ Reg.rowAt (c * 0x10000 + y) ≠ none) :
    ¬ (b = c ∧ (o = x ∨ o = y)) := by
  rintro ⟨rfl, rfl | rfl⟩
  · exact rows.1 h
  · exact rows.2 h

theorem not_at_frontEnd {x : Nat} (rows : ∀ fe : Fin 3, Reg.rowAt ((5 + fe.val) * 0x10000 + x) ≠ none) :
    ¬ (5 ≤ b ∧ b ≤ 7 ∧ o = x) := by
  rintro ⟨lo, hi, rfl⟩
  apply rows ⟨b - 5, by omega⟩
  rwa [show 5 + (b - 5) = b by omega]

include ho

theorem not_in_row {c off stop : Nat} (row : ∃ r ∈ Reg.blockRows c, r.off = off ∧ r.off + 8 * r.count = stop) :
    ¬ (b = c ∧ off ≤ o ∧ o < stop) := by
  rintro ⟨rfl, lo, hi⟩
  exact rowAt_of_row row lo hi ho h

theorem pendWord_of_no_row : pendWord b o = none := by
  rw [pendWord, if_neg (not_in_row h ho (by decide)), if_neg (not_in_row h ho (by decide))]

theorem wrapWord_of_no_row : wrapWord b o = false := decide_eq_false (not_in_row h ho (by decide))

/-- Every register whose read does more than show its word lies in a row, so that none of those reads is left. -/
theorem readWhole_of_no_row (s : State) (init : Init) : readWhole s init b o = s.answer 0 := by
  unfold readWhole
  rw [pendWord_of_no_row h ho]
  dsimp only
  split
  pick_goal -1
  · rw [if_neg (not_in_row h ho (by decide)), if_neg (not_at_pair h (by decide)), regWord_of_no_row h, clearRc_of_no_row h]
  all_goals exact absurd h (by decide)

/-- Every register whose write has a meaning of its own lies in a row, so that the plain write is left. -/
theorem writeReg_of_no_row (s : State) (init : Init) (v : Nat) (half : Option Bool) : writeReg s init b o v half = s := by
  unfold writeReg
  rw [pendWord_of_no_row h ho]
  dsimp only
  split
  pick_goal -1
  · rw [wrapWord_of_no_row h ho, if_neg Bool.false_ne_true,
      if_neg (not_in_row h ho (by decide)), if_neg (not_in_row h ho (by decide)), if_neg (not_in_row h ho (by decide)),
      if_neg (not_at_frontEnd h (by decide)), if_neg (not_at_frontEnd h (by decide)),
      if_neg (not_in_row h ho (by decide)), if_neg (not_in_row h ho (by decide)), if_neg (not_in_row h ho (by decide)),
      if_neg fun lamb => lamb.2.2 h,
      if_neg (not_at_pair h (by decide)), if_neg (not_at_pair h (by decide)), if_neg (not_at_pair h (by decide)),
      if_neg (not_at_pair h (by decide)), writePlain_of_no_row h]
  all_goals exact absurd h (by decide)

end NoRegister

section NoRegisterAccess
variable {b o n : Nat} {s : State} {init : Init} (hb : b < 26) (ho : o < 0x10000) (power : powered s = true)
  (width : widthOk (ctrlBase + b * 0x10000 + o) n = true) (aligned : o % n = 0)
  (row : Reg.rowAt (b * 0x10000 + o / 8 * 8) = none)
include hb ho power width aligned row

theorem busRead_of_no_row : busRead s init (ctrlBase + b * 0x10000 + o) n = s.answer 0 := by
  rw [busRead_register hb ho power width]
  split
  next eight =>
    subst eight
    rw [show o / 8 * 8 = o by omega] at row
    exact readWhole_of_no_row row ho s init
  next => exact readHalf_of_no_row row s _

theorem busWrite_of_no_row (v : Nat) : busWrite s init (ctrlBase + b * 0x10000 + o) n v = s.answer 0 := by
  rw [busWrite_register hb ho power width]
  split
  next eight =>
    subst eight
    rw [show o / 8 * 8 = o by omega] at row
    rw [writeReg_of_no_row row ho]
  next => rw [writeReg_of_no_row row (by omega)]

end NoRegisterAccess

/-! The statements. -/

/-- Settles O8: whatever the bridge's word says, the access ends in a bus error, for the width rules refuse it. -/
theorem accessesThatEndInBusErrors : Obligations.AccessesThatEndInBusErrors := by
  intro s dt init b o n v ecc hb ho reach narrow
  have bad : widthOk (ctrlBase + b * 0x10000 + o) (2 ^ n.val) = false := by
    rw [← Bool.not_eq_true, widthOk_busReg ho]
    omega
  exact ⟨registerWrite_busError hb ho reach (.inr bad), rcFieldRead_busError hb ho reach (.inr bad)⟩

/-- Settles O9: no handler of a read or a write is for an offset without a row, and the plain ones find no field there. -/
theorem offsetsWithoutRegister : Obligations.OffsetsWithoutRegister := by
  rintro s _ dt init b o n v ecc rfl power hb ho reach width aligned row
  have fits : widthOk (ctrlBase + b * 0x10000 + o) (2 ^ n.val) = true := (widthOk_busReg ho n).2 ⟨aligned, width⟩
  have power' : powered (bridgeRead (s.advance dt) b ecc) = true := (bridgeRead_frame _ b ecc).2.2.trans power
  refine ⟨fun good => ⟨?_, ?_⟩,
    fun bad => ⟨registerWrite_busError hb ho reach (.inl bad), rcFieldRead_busError hb ho reach (.inl bad)⟩⟩
  · refine registerWrite_completes (r := (bridgeRead (s.advance dt) b ecc).answer 0) hb ho reach ?_ rfl
      (onlyRegsAnswered_answer _ 0 [])
    rw [if_neg good, busWrite_of_no_row hb ho power' fits aligned row]
  · refine rcFieldRead_completes (r := (bridgeRead (s.advance dt) b ecc).answer 0) hb ho reach ?_ rfl
      ⟨rfl, onlyRegsAnswered_answer _ 0 []⟩
    rw [if_neg good, busRead_of_no_row hb ho power' fits aligned row]

/-! A field that an access leaves at its value is written with that value, cut to the field's width. A state whose register
store holds more than the width at that place is changed by it, and the statements on accesses speak of every state and of
every field at a place, whatever its width. -/

/-- The field that begins at the same bit and is one bit wider. -/
def Fld.widened (f : Fld) : Fld := { f with hi := f.hi + 1 }

/-- The machine at reset, but that the register store holds one bit beyond the field at the field's place. -/
def overfull (f : Fld) : State := { State.reset with fields := [(f.key, 2 ^ f.width)] }

/-- A write of the lower half of FE0_TXCAL_CTRL writes BG_EN with its own value. -/
theorem registerWrite_txcal_cuts_overfull :
    ∃ t, exec (.registerWrite 0 (.core 0) (busReg 5 0x38) 2 0 .ok) (overfull (Reg.FE_TXCAL_CTRL.BG_EN 0)) = .next t ∧
      t.get (Reg.FE_TXCAL_CTRL.BG_EN 0).widened = 0 :=
  ⟨_, rfl, by decide⟩

/-- A read of the upper half of SYS_EVENT_LOST writes LOST with its own value. -/
theorem rcFieldRead_lost_cuts_overfull :
    ∃ t, exec (.rcFieldRead 0 (.core 0) (busReg 0 0x11C) 2 .ok) (overfull Reg.SYS_EVENT_LOST.LOST) = .next t ∧
      t.get Reg.SYS_EVENT_LOST.LOST.widened = 0 :=
  ⟨_, rfl, by decide⟩

/-- Refutes O10: where the register store holds 2 at the place of the one-bit BG_EN of FE0, a 32-bit write of the lower half
of FE0_TXCAL_CTRL leaves 0 there, so that more than SEL has changed. -/
theorem not_accessCodesOfWrites : ¬ Obligations.AccessCodesOfWrites := by
  intro h
  obtain ⟨-, -, txcal, -⟩ := h (overfull (Reg.FE_TXCAL_CTRL.BG_EN 0)) _ 0 5 (.core 0) 0 0 .ok rfl rfl
  obtain ⟨lowerHalf, -⟩ := txcal rfl (by decide)
  obtain ⟨t, run, -, -, -, kept⟩ := lowerHalf rfl
  obtain ⟨t', run', cut⟩ := registerWrite_txcal_cuts_overfull
  obtain rfl : t = t' := Host.Outcome.next.inj (run.symm.trans run')
  have same := kept (Reg.FE_TXCAL_CTRL.BG_EN 0).widened (by decide)
  exact absurd (cut.symm.trans same) (by decide)

/-- Refutes O11: where the register store holds 2 ^ 16 at the place of the 16-bit LOST, a 32-bit read of the upper half of
SYS_EVENT_LOST leaves 0 there, so that the read has changed the register store. -/
theorem not_readsThatClearAndPop : ¬ Obligations.ReadsThatClearAndPop := by
  intro h
  obtain ⟨-, -, upperHalf, -⟩ := h.1 (overfull Reg.SYS_EVENT_LOST.LOST) _ 0 0 (.core 0) .ok rfl rfl
  obtain ⟨t, run, -, -, -, kept⟩ := upperHalf (by decide) rfl rfl
  obtain ⟨t', run', cut⟩ := rcFieldRead_lost_cuts_overfull
  obtain rfl : t = t' := Host.Outcome.next.inj (run.symm.trans run')
  have same := kept Reg.SYS_EVENT_LOST.LOST.widened (by simp)
  exact absurd (cut.symm.trans same) (by decide)

end Sys2Proof.Machine
end

section
/-!
SUPPORT. What an access to a memory outside the control blocks does (R22, R5), and to JTAG's message buffer (R719). Then the
statements of 01_architecture_and_flows.md about the bus and the always-on shadow.
-/

namespace Sys2Proof.Machine

/-- A command whose effect `r` leaves the clock and the queue completes with it. -/
theorem completes_of_effect {i : Instr} {s r : State} {dt : Nat} {k : State → State} {post : State → Prop}
    (h : exec i s = step' dt s k) (effect : k (s.advance dt) = r) (clock : r.tick = s.tick + dt)
    (queue : r.pending = s.pending) (hp : post r) : completes i s post := by
  refine ⟨r, h.trans ?_, hp⟩
  rw [step'_iff, effect, ← clock, ← queue]

/-- A write through the bus or the JTAG message buffer, by its effect. -/
theorem registerWrite_completes_with {s r : State} {dt : Nat} {init : Init} {addr : BusAddr} {n : Fin 4} {v : Word} {ecc : Ecc}
    {post : State → Prop} (effect : writeAt (s.advance dt) init addr (2 ^ n.val) v ecc = r) (clock : r.tick = s.tick + dt)
    (queue : r.pending = s.pending) (hp : post r) : completes (.registerWrite dt init addr n v ecc) s post :=
  completes_of_effect (k := fun a => writeAt a init addr (2 ^ n.val) v ecc) rfl effect clock queue hp

/-- A read through the bus or the JTAG message buffer, by its effect. -/
theorem rcFieldRead_completes_with {s r : State} {dt : Nat} {init : Init} {addr : BusAddr} {n : Fin 4} {ecc : Ecc}
    {post : State → Prop} (effect : readAt (s.advance dt) init addr (2 ^ n.val) ecc = r) (clock : r.tick = s.tick + dt)
    (queue : r.pending = s.pending) (hp : post r) : completes (.rcFieldRead dt init addr n ecc) s post :=
  completes_of_effect (k := fun a => readAt a init addr (2 ^ n.val) ecc) rfl effect clock queue hp

/-! Octets of a memory. -/

theorem leBytes_length (n v : Nat) : (leBytes n v).length = n := by
  induction n generalizing v with
  | zero => rfl
  | succ n ih => rw [leBytes, List.length_cons, ih]

/-- What `n` octets written at an address read as. -/
theorem readBytes_writeBytes_leBytes (m : List Host.Cell) (d : Byte) (a n v : Nat) :
    readBytes (writeBytes m d a (leBytes n v)) d a n = leBytes n v := by
  have h := readBytes_writeBytes m d (leBytes n v) a
  rwa [leBytes_length] at h

/-- An octet of LP4X outside the `n` that are written. -/
theorem ddr_ddrWrite_other (s : State) {a n v x : Nat} (h : x < a ∨ a + n ≤ x) :
    (s.ddrWrite a (leBytes n v)).ddr x 1 = s.ddr x 1 := by
  have outside : x < a ∨ a + (leBytes n v).length ≤ x := by rwa [leBytes_length]
  exact congrArg (· :: []) (get_writeBytes_other s.mem.lp4x 0 _ a x outside)

/-! An access that lies in no control block (R22). -/

theorem onBus_outside {a : Nat} (outside : inCtrl a = false) (s : State) (ecc : Ecc) (k : State → State) :
    onBus s a ecc k = k s := by
  rw [onBus, outside, if_neg Bool.false_ne_true]

section Outside
variable {s : State} {init : Init} {p : BitVec 40} {n : Nat} (reach : reaches s init p.toNat n = true)
  (outside : inCtrl p.toNat = false)
include reach outside

theorem readAt_outside (ecc : Ecc) : readAt s init (.phys p) n ecc = busRead s init p.toNat n := by
  rw [readAt, reach, State.onlyIf_true, onBus_outside outside]

theorem writeAt_outside (v : Word) (ecc : Ecc) : writeAt s init (.phys p) n v ecc = busWrite s init p.toNat n v.toNat := by
  rw [writeAt, reach, State.onlyIf_true, onBus_outside outside]

end Outside

/-- An initiator reaches an address, if JTAG does where it is JTAG that asks. -/
theorem reaches_of_jtag {s : State} {init : Init} {a n : Nat} (h : init = .jtag → jtagReaches s a n = true) :
    reaches s init a n = true := by
  by_cases jtag : init = .jtag
  · rw [reaches, h jtag, Bool.or_true]
  · rw [reaches, bne_iff_ne.2 jtag, Bool.true_or]

/-! LP4X. -/

theorem inLp4x_iff {s : State} {a n : Nat} :
    s.inLp4x a n = true ↔ 0x10_0000_0000 ≤ a ∧ a + n ≤ 0x10_0000_0000 + s.lp4xSize := by
  rw [State.inLp4x, lp4xBase, decide_eq_true_eq]

theorem inCtrl_lp4x {a : Nat} (base : 0x10_0000_0000 ≤ a) : inCtrl a = false := by
  unfold inCtrl ctrlBase ctrlSpan
  rw [decide_eq_false_iff_not]
  omega

/-- LP4X lies above every other window of the address map, so that each of its octets is read from it. -/
theorem memByte_lp4x {s : State} {a : Nat} (h : s.inLp4x a 1 = true) (init : Init) :
    memByte s init a = some (Cells.get s.mem.lp4x a 0) := by
  obtain ⟨base, -⟩ := inLp4x_iff.1 h
  rw [memByte, if_neg (by omega), if_neg (by omega), if_neg (by omega), if_neg (by omega), if_pos h]

theorem memRead_succ (s : State) (init : Init) (a n : Nat) :
    memRead s init a (n + 1) = (memByte s init a >>= fun b => memRead s init (a + 1) n >>= fun bs => pure (b :: bs)) := by
  have next : (fun i => memByte s init (a + i)) ∘ Nat.succ = fun i => memByte s init (a + 1 + i) := by
    funext i
    exact congrArg (memByte s init) (by omega)
  rw [memRead, List.range_succ_eq_map, List.mapM_cons, List.mapM_map, next]
  rfl

theorem memRead_lp4x {s : State} {a n : Nat} (h : s.inLp4x a n = true) (init : Init) :
    memRead s init a n = some (s.ddr a n) := by
  induction n generalizing a with
  | zero => rfl
  | succ n ih =>
    obtain ⟨base, top⟩ := inLp4x_iff.1 h
    have first : s.inLp4x a 1 = true := inLp4x_iff.2 ⟨base, by omega⟩
    have others : s.inLp4x (a + 1) n = true := inLp4x_iff.2 ⟨by omega, by omega⟩
    rw [memRead_succ, memByte_lp4x first, ih others]
    rfl

/-! The Sheepdog's TCM. -/

theorem inCtrl_tcm {a n : Nat} (top : a + n ≤ 0x1004_0000) : inCtrl a = false := by
  unfold inCtrl ctrlBase ctrlSpan
  rw [decide_eq_false_iff_not]
  omega

/-! The bus. -/

section Powered
variable {s : State} {a n : Nat} (power : powered s = true)
include power

theorem busRead_lp4x (h : s.inLp4x a n = true) (init : Init) : busRead s init a n = s.answer (leNat (s.ddr a n)) := by
  simp only [busRead, power, inCtrl_lp4x (inLp4x_iff.1 h).1, memRead_lp4x h]
  rfl

theorem busWrite_lp4x (h : s.inLp4x a n = true) (init : Init) (v : Nat) :
    busWrite s init a n v = (s.ddrWrite a (leBytes n v)).answer 0 := by
  obtain ⟨base, -⟩ := inLp4x_iff.1 h
  have notTcm : ¬ (0x1000_0000 ≤ a ∧ a + n ≤ 0x1004_0000 ∧ init = .sheepdog) := by omega
  simp only [busWrite, power, inCtrl_lp4x base, if_neg notTcm, h]
  rfl

theorem busWrite_tcm (base : 0x1000_0000 ≤ a) (top : a + n ≤ 0x1004_0000) (v : Nat) :
    busWrite s .sheepdog a n v = (s.tcmWrite (a - 0x1000_0000) (leBytes n v)).answer 0 := by
  simp [busWrite, power, inCtrl_tcm top, base, top]

end Powered

/-! The JTAG message buffer (R719). -/

section JtagBuffer
variable {s : State} {n : Fin 4} (width : n.val = 3) (access : keysAccess s = true) (w : Fin 256)
include width access

theorem readAt_jtagBuf (ecc : Ecc) :
    readAt s .jtag (.jtagBuf w) (2 ^ n.val) ecc = s.answer (Cells.get s.keys.jtagBuf w.val 0).toNat := by
  rw [readAt, width, show bufferAccess .jtag (2 ^ 3) = true from rfl, access]
  rfl

theorem writeAt_jtagBuf (v : Word) (ecc : Ecc) : writeAt s .jtag (.jtagBuf w) (2 ^ n.val) v ecc =
    (s.setKeys { s.keys with jtagBuf := Cells.set s.keys.jtagBuf w.val v 0 }).answer 0 := by
  rw [writeAt, width, show bufferAccess .jtag (2 ^ 3) = true from rfl, access]
  rfl

end JtagBuffer

/-- Settles O12: LP4X and the TCM lie outside the control blocks, so that the bus passes the access on to them, and JTAG's
message buffer is one place for each word. -/
theorem memoriesOverTheBus : Obligations.MemoriesOverTheBus := by
  intro s a dt x init p n v ecc w ha power jtag
  have reach : reaches a init p.toNat (2 ^ n.val) = true := reaches_of_jtag (by rwa [ha])
  have powerA : powered a = true := by rwa [ha]
  refine ⟨fun lp4x => ?_, ?_, ?_⟩
  · have lp4xA : a.inLp4x p.toNat (2 ^ n.val) = true := by rwa [ha]
    have outside : inCtrl p.toNat = false := inCtrl_lp4x (inLp4x_iff.1 lp4x).1
    have write := (writeAt_outside reach outside v ecc).trans (busWrite_lp4x powerA lp4xA init v.toNat)
    have read := (readAt_outside reach outside ecc).trans (busRead_lp4x powerA lp4xA init)
    subst ha
    exact ⟨registerWrite_completes_with write rfl rfl
        ⟨readBytes_writeBytes_leBytes .., ddr_ddrWrite_other s, rfl, rfl, fun _ _ => rfl⟩,
      rcFieldRead_completes_with read rfl rfl ⟨rfl, onlyRegsAnswered_answer ..⟩⟩
  · rintro rfl base top
    have write := (writeAt_outside reach (inCtrl_tcm top) v ecc).trans (busWrite_tcm powerA base top v.toNat)
    subst ha
    exact registerWrite_completes_with write rfl rfl ⟨readBytes_writeBytes_leBytes .., rfl, rfl, fun _ _ => rfl⟩
  · rintro rfl width access
    have accessA : keysAccess a = true := by rwa [ha]
    have write := writeAt_jtagBuf width accessA w v ecc
    have read := readAt_jtagBuf width accessA w ecc
    subst ha
    exact ⟨registerWrite_completes_with write rfl rfl
        ⟨Cells.get_set_self .., fun m other => Cells.get_set_other _ _ _ _ other, rfl, rfl, fun _ _ => rfl⟩,
      rcFieldRead_completes_with read rfl rfl ⟨rfl, onlyRegsAnswered_answer ..⟩⟩

/-- A 32-bit write of the lower half of GOOSE_WAKE_AT arrives in the always-on domain and writes EN with its own value. -/
theorem aonShadowSync_wakeAt_cuts_overfull :
    ∃ t, exec (.aonShadowSync 0)
        { overfull Reg.GOOSE_WAKE_AT.EN with aon := { writes := [.reg 0x40068 0 (some false)] } } = .next t ∧
      t.get Reg.GOOSE_WAKE_AT.EN.widened = 0 :=
  ⟨_, rfl, by decide⟩

/-- Refutes O13: where the register store holds 2 at the place of the one-bit EN of GOOSE_WAKE_AT, the arrival of a 32-bit write
of the lower half leaves 0 there, so that more than TICK has changed. -/
theorem not_shadowsAndPcie : ¬ Obligations.ShadowsAndPcie := by
  rintro ⟨shadow, -⟩
  obtain ⟨-, -, lowerHalf, -⟩ := shadow
    { overfull Reg.GOOSE_WAKE_AT.EN with aon := { writes := [.reg 0x40068 0 (some false)] } } _ 0 .sheepdog 0 rfl
  obtain ⟨t, run, -, -, -, kept⟩ := lowerHalf rfl rfl
  obtain ⟨t', run', cut⟩ := aonShadowSync_wakeAt_cuts_overfull
  obtain rfl : t = t' := Host.Outcome.next.inj (run.symm.trans run')
  have same := kept Reg.GOOSE_WAKE_AT.EN.widened (by decide)
  exact absurd (cut.symm.trans same) (by decide)

end Sys2Proof.Machine
end

section
/-!
SUPPORT. Step 6 of the uplink path and step 4 of the downlink path (R33, R39): what the lookup of a frame's source may change, the
fates of a frame, and the wait for a key. Then the statement of 01_architecture_and_flows.md about them.
-/

namespace Sys2Proof.Machine

/-! What the lookup of a frame's source and its learn event may change (R317, R327 to R331). -/

/-- The register fields that a learn event may write: the learn FIFO is full, and so may be the EVENT FIFO (R331, R44). -/
def learnFields : List Fld :=
  [Reg.FWD_LEARN_STATUS.OVF, Reg.FWD_LEARN_LOST.LOST, Reg.SYS_EVENT_STATUS.OVF, Reg.SYS_EVENT_LOST.LOST]

/-- `t` is `a` but for the node tables, the records in LP4X, what went out on the herd, and the reports of a lookup (DUP_KEY)
and of a lost learn event (LEARN_OVERFLOW): all that a lookup and its learn event may change. -/
structure onlyLearns (a t : State) : Prop where
  rest : { t with fields := a.fields, counters := a.counters, events := a.events, outs := a.outs, perf := a.perf,
                  tables := a.tables, mem := a.mem, freeCtr := a.freeCtr } = a
  get_eq : ∀ g : Fld, (∀ f ∈ learnFields, g.key ≠ f.key) → t.get g = a.get g
  counter_eq : ∀ c, c ≠ Ev.LEARN_OVERFLOW → c ≠ Ctr.DUP_KEY → Cells.get t.counters c 0 = Cells.get a.counters c 0

namespace onlyLearns

theorem of_rest {a t : State} (fields : t.fields = a.fields) (counters : t.counters = a.counters)
    (rest : { t with events := a.events, outs := a.outs, perf := a.perf, tables := a.tables, mem := a.mem
                     freeCtr := a.freeCtr } = a) : onlyLearns a t where
  rest := by rw [← fields, ← counters]; exact rest
  get_eq g _ := by rw [State.get, State.get, fields]
  counter_eq c _ _ := by rw [counters]

theorem refl (a : State) : onlyLearns a a := of_rest rfl rfl rfl

theorem trans {a b t : State} (h : onlyLearns a b) (k : onlyLearns b t) : onlyLearns a t where
  rest := by
    have hr := h.rest
    rw [← k.rest] at hr
    exact hr
  get_eq g other := (k.get_eq g other).trans (h.get_eq g other)
  counter_eq c lost dup := (k.counter_eq c lost dup).trans (h.counter_eq c lost dup)

theorem onlyIf {s : State} (c : Bool) {k : State → State} (h : onlyLearns s (k s)) : onlyLearns s (s.onlyIf c k) :=
  State.onlyIf_keeps (P := onlyLearns s) s c k (refl s) fun _ => h

section
variable {a t : State} (h : onlyLearns a t)
include h

theorem up_eq : t.up = a.up := by
  have e := congrArg State.up h.rest
  exact e

theorem down_eq : t.down = a.down := by
  have e := congrArg State.down h.rest
  exact e

theorem crypto_eq : t.crypto = a.crypto := by
  have e := congrArg State.crypto h.rest
  exact e

theorem clock_eq : t.tick = a.tick ∧ t.pending = a.pending := by
  have e := congrArg State.tick h.rest
  have e' := congrArg State.pending h.rest
  exact ⟨e, e'⟩

theorem tschOn_eq : tschOn t = tschOn a := by
  rw [tschOn, tschOn, State.flag, State.flag, h.get_eq _ (by decide)]

theorem forDevice_eq (f : MacFrame) : forDevice t f = forDevice a f := by
  unfold forDevice deviceId
  rw [h.get_eq Reg.MAC_ADDR.SHORT (by decide), h.get_eq Reg.KEYS_DEVICE_ID.DEVICE_ID (by decide)]

theorem forOther_eq (f : MacFrame) : forOther t f = forOther a f := by
  rw [forOther, forOther, h.forDevice_eq]

theorem unsupported_eq (f : MacFrame) : unsupported t f = unsupported a f := by
  unfold unsupported
  rw [h.tschOn_eq]

theorem frameCounter_eq (u : UpFrame) (x : AuxSec) : frameCounter t u x = frameCounter a u x := by
  unfold frameCounter asnAt slotNs
  rw [h.get_eq Reg.MAC_ASN_EPOCH.EPOCH_NS (by decide), h.get_eq Reg.MAC_SLOT_0.SLOT_LEN (by decide)]

theorem cachedKey_eq (r : Nat) : cachedKey t r = cachedKey a r := by
  rw [cachedKey, cachedKey, h.crypto_eq]

theorem countedOnce_count {c : Nat} (lost : c ≠ Ev.LEARN_OVERFLOW) (dup : c ≠ Ctr.DUP_KEY) :
    Cells.get (t.count c).counters c 0 = Cells.get (a.count c).counters c 0 := by
  simp only [State.count, Cells.get_set_self, h.counter_eq c lost dup]

end

end onlyLearns

theorem State.set_onlyLearns (s : State) {f : Fld} (hf : f ∈ learnFields) (v : Nat) : onlyLearns s (s.set f v) where
  rest := by simp only [State.set_frame]
  get_eq g other := State.get_set_other s f g v (other f hf)
  counter_eq _ _ _ := by simp only [State.set_frame]

theorem State.count_onlyLearns (s : State) {c : Nat} (hc : c = Ev.LEARN_OVERFLOW ∨ c = Ctr.DUP_KEY) :
    onlyLearns s (s.count c) where
  rest := by simp only [State.count_frame]
  get_eq g _ := State.count_get s c 1 g
  counter_eq d lost dup := Cells.get_set_other _ _ _ _ (by rintro rfl; exact hc.elim lost dup)

theorem State.recordEvent_onlyLearns (s : State) (r : EventRec) : onlyLearns s (s.recordEvent r) := by
  rcases State.recordEvent_cases s r with h | ⟨-, h⟩
  · rw [h]
    exact .of_rest rfl rfl rfl
  · rw [h]
    exact (State.set_onlyLearns s (by decide) _).trans (State.set_onlyLearns _ (by decide) _)

theorem learnOverflow_onlyLearns (s : State) (source arg : Nat) :
    onlyLearns s (s.event Ev.LEARN_OVERFLOW source arg) := by
  rw [State.event_eq]
  exact (State.count_onlyLearns s (.inl rfl)).trans (.onlyIf _ (State.recordEvent_onlyLearns ..))

theorem touch_onlyLearns (s : State) (key : Nat) : onlyLearns s (touch s key) := by
  unfold touch
  split
  next =>
    split
    next => exact .refl s
    next =>
      dsimp only
      refine onlyLearns.trans ?_ (.onlyIf _ (State.count_onlyLearns _ (.inr rfl)))
      exact .of_rest rfl rfl rfl
  next => exact .refl s

theorem resolve_onlyLearns (s : State) (x : Addr) : onlyLearns s (resolve s x).2 := by
  cases x with
  | absent => exact .refl s
  | ext k => exact touch_onlyLearns s k
  | short n =>
    unfold resolve
    dsimp only
    split
    next => exact .refl s
    next => exact touch_onlyLearns ..

theorem learnLost_onlyLearns (s : State) (kind : Nat) : onlyLearns s (learnLost s kind) := by
  have flagged (a : State) : onlyLearns a ((a.setFlag Reg.FWD_LEARN_STATUS.OVF true).bump Reg.FWD_LEARN_LOST.LOST) :=
    (State.set_onlyLearns a (f := Reg.FWD_LEARN_STATUS.OVF) (by decide) _).trans
      (State.set_onlyLearns _ (f := Reg.FWD_LEARN_LOST.LOST) (by decide) _)
  have windowed : onlyLearns s (s.setTables { s.tables with learnWindow := (s.tables.learnWindow.add s.msNow).1 }) :=
    .of_rest rfl rfl rfl
  have written := windowed.trans (flagged _)
  unfold learnLost
  dsimp only
  split
  · exact written.trans (learnOverflow_onlyLearns ..)
  · exact written.trans (State.count_onlyLearns _ (.inl rfl))

theorem herdSend_onlyLearns (s : State) (f : HerdFrame) : onlyLearns s (herdSend s f) := by
  unfold herdSend
  split
  · exact .of_rest rfl rfl rfl
  · exact .refl s

/-- Whatever becomes of a learn event, and whatever the tables note of one that got away. -/
theorem learnOffer_onlyLearns (s : State) (kind w0 w1 w2 w3 : Nat) : onlyLearns s (learnOffer s kind w0 w1 w2 w3).1 := by
  unfold learnOffer
  split
  · split
    · exact learnLost_onlyLearns ..
    · exact herdSend_onlyLearns ..
  · split
    · exact .of_rest rfl rfl rfl
    · exact learnLost_onlyLearns ..

theorem learnMoved_onlyLearns (u : UpFrame) (record : Option Nat) (c : LearnFc) (s : State) (lane short : Nat) :
    onlyLearns s (learn.moved u record c s lane short) := by
  unfold learn.moved
  split
  next => exact .refl s
  next r =>
    split
    · have offered := learnOffer_onlyLearns s 3 (learnWord0 s 3 lane u r c) (recEui s r) (learnWord2 u short c) u.syncNs
      dsimp only
      split
      · exact offered.trans (.of_rest rfl rfl rfl)
      · exact offered
    · exact .refl s

/-- A JOIN or NEW_SHORT event, unless its key produced one within JOIN_HOLD. -/
theorem learnPlain_onlyLearns (s : State) (kind w0 w1 w2 w3 key : Nat) :
    onlyLearns s (if recently s key then s
      else if (learnOffer s kind w0 w1 w2 w3).2 then noteRecent (learnOffer s kind w0 w1 w2 w3).1 key
      else (learnOffer s kind w0 w1 w2 w3).1) := by
  have offered := learnOffer_onlyLearns s kind w0 w1 w2 w3
  split
  · exact .refl s
  · split
    · exact offered.trans (.of_rest rfl rfl rfl)
    · exact offered

theorem learn_onlyLearns (s : State) (u : UpFrame) (record : Option Nat) (c : LearnFc) : onlyLearns s (learn s u record c) := by
  have drawn : onlyLearns s (s.onlyIf u.lane.isNone State.drawn) := .onlyIf _ (.of_rest rfl rfl rfl)
  unfold learn
  refine drawn.trans ?_
  dsimp only
  split
  next => exact .refl _
  next =>
    split
    · exact learnPlain_onlyLearns ..
    · exact learnMoved_onlyLearns ..
  next =>
    split
    · exact learnPlain_onlyLearns ..
    · exact learnMoved_onlyLearns ..

/-! A received frame at step 6 (R33). -/

/-- The state after the lookup of a frame's source and its learn event. -/
def lookedUp (s : State) (u : UpFrame) : State :=
  learn (resolve s u.frame.src).2 u (resolve s u.frame.src).1 (learnFc s u)

theorem lookedUp_onlyLearns (s : State) (u : UpFrame) : onlyLearns s (lookedUp s u) :=
  (resolve_onlyLearns ..).trans (learn_onlyLearns ..)

section Fate
variable {s : State} {u : UpFrame}

theorem fetchUp_of_other (other : forOther s u.frame = true) (cls : Nat) : fetchUp s u cls = dropUp (lookedUp s u) u.id := by
  rw [← (lookedUp_onlyLearns s u).forOther_eq] at other
  exact if_pos other

variable (mine : forOther s u.frame = false)
include mine

theorem fetchUp_of_unsupported (limits : unsupported s u.frame = true) (cls : Nat) :
    fetchUp s u cls = (dropUp (lookedUp s u) u.id).count Ctr.FRAME_UNSUPPORTED := by
  rw [← (lookedUp_onlyLearns s u).forOther_eq, ← Bool.not_eq_true] at mine
  rw [← (lookedUp_onlyLearns s u).unsupported_eq] at limits
  exact (if_neg mine).trans (if_pos limits)

variable (limits : unsupported s u.frame = false)
include limits

theorem fetchUp_of_unsecured (plain : secOf u.frame = none) (core : u.frame.ftype ≠ 1 ∨ forDevice s u.frame = false) (cls : Nat) :
    fetchUp s u cls = (dropUp (lookedUp s u) u.id).count Ctr.UNSECURED_DROP := by
  have learned := lookedUp_onlyLearns s u
  rw [← learned.forOther_eq, ← Bool.not_eq_true] at mine
  rw [← learned.unsupported_eq, ← Bool.not_eq_true] at limits
  rw [← learned.forDevice_eq] at core
  have dropped : ¬ (u.frame.ftype = 1 ∧ forDevice (dropUp (lookedUp s u) u.id) u.frame = true) := by
    rintro ⟨data, device⟩
    exact core.elim (· data) fun no => Bool.false_ne_true (no.symm.trans device)
  refine (if_neg mine).trans ((if_neg limits).trans ?_)
  rw [plain]
  exact if_neg dropped

theorem fetchUp_of_secured {x : AuxSec} {r : Nat} (secured : secOf u.frame = some x) (data : u.frame.ftype = 1)
    (own : x.keyMode ≠ 1) (found : (resolve s u.frame.src).1 = some r) (cls : Nat) :
    fetchUp s u cls = fetchOwn (lookedUp s u) u x r := by
  have learned := lookedUp_onlyLearns s u
  rw [← learned.forOther_eq, ← Bool.not_eq_true] at mine
  rw [← learned.unsupported_eq, ← Bool.not_eq_true] at limits
  refine (if_neg mine).trans ((if_neg limits).trans ?_)
  simp only [lookedUp, secured, data, own, found, one_ne_zero, OfNat.one_ne_ofNat, if_false, false_and]

end Fate

/-- A frame that was alone on the path has left it. -/
theorem dropUp_of_alone {s : State} {u : UpFrame} (up : s.up = [u]) : (dropUp s u.id).up = [] := by
  simp [dropUp, up]

/-- What a report leaves of a frame's way: the clock, the queue of commands, the frames on the path and the CRYPTO block. -/
theorem onlyReports.frame {a t : State} (h : onlyReports a t) :
    t.tick = a.tick ∧ t.pending = a.pending ∧ t.up = a.up ∧ t.crypto = a.crypto := by
  unfold onlyReports at h
  have clock := congrArg State.tick h
  have queue := congrArg State.pending h
  have up := congrArg State.up h
  have crypto := congrArg State.crypto h
  exact ⟨clock, queue, up, crypto⟩

/-! The unwrap units (R300). -/

theorem startUnwraps_onlyUnwraps (s : State) :
    { startUnwraps s with crypto := { (startUnwraps s).crypto with unwraps := s.crypto.unwraps } } = s := by
  unfold startUnwraps
  refine List.foldlRecOn (motive := fun t : State => { t with crypto := { t.crypto with unwraps := s.crypto.unwraps } } = s) _ _ rfl
    fun t h r _ => ?_
  split
  · exact h
  · exact h

theorem startUnwraps_frame (s : State) :
    (startUnwraps s).tick = s.tick ∧ (startUnwraps s).pending = s.pending ∧ (startUnwraps s).up = s.up ∧
      (startUnwraps s).crypto.jobs = s.crypto.jobs := by
  have h := startUnwraps_onlyUnwraps s
  have clock := congrArg State.tick h
  have queue := congrArg State.pending h
  have up := congrArg State.up h
  have jobs := congrArg (·.crypto.jobs) h
  exact ⟨clock, queue, up, jobs⟩

theorem keyMissFull_onlyReports (s : State) (fe : Nat) :
    ∃ c, onlyReports (s.setCrypto c) (keyMissFull s fe) := by
  unfold keyMissFull
  dsimp only
  split
  · exact ⟨_, State.event_onlyReports ..⟩
  · exact ⟨_, State.count_onlyReports ..⟩

/-! A frame under its node's key (R298 to R301). -/

theorem fetchOwn_clock (s : State) (u : UpFrame) (x : AuxSec) (r : Nat) :
    (fetchOwn s u x r).tick = s.tick ∧ (fetchOwn s u x r).pending = s.pending := by
  unfold fetchOwn
  dsimp only
  split
  next => exact ⟨rfl, rfl⟩
  next =>
    split
    · obtain ⟨c, reported⟩ := keyMissFull_onlyReports (dropUp s u.id) u.fe
      obtain ⟨clock, queue, -, -⟩ := reported.frame
      exact ⟨clock, queue⟩
    · obtain ⟨clock, queue, -, -⟩ := startUnwraps_frame { s with up := _ }
      exact ⟨clock, queue⟩

section Own
variable {s : State} {u : UpFrame} (up : s.up = [u]) (x : AuxSec) {r : Nat}
include up

theorem fetchOwn_of_cached {key : List Byte} (cached : cachedKey s r = some key) :
    (fetchOwn s u x r).crypto.jobs = s.crypto.jobs ++ [{ kind := .verify u.id }] ∧
      ∃ u', (fetchOwn s u x r).up = [u'] ∧ u'.stage = .waiting ∧ u'.record = r ∧ u'.counter = (frameCounter s u x).1 := by
  have started : fetchOwn s u x r = startVerify (useKey s r key) u r none (frameCounter s u x) := by
    simp only [fetchOwn, cached]
  have waits : (startVerify (useKey s r key) u r none (frameCounter s u x)).up =
      s.up.map fun y => if y.id = u.id then { u with record := r, key := none, counter := (frameCounter s u x).1,
                                                     asnCounter := (frameCounter s u x).2, stage := .waiting } else y := rfl
  rw [started, waits, up]
  exact ⟨rfl, _, List.map_singleton .., by simp⟩

theorem fetchOwn_of_uncached (fresh : u.stage = .fetch) (down : s.down = []) (uncached : cachedKey s r = none) :
    (fetchOwn s u x r).crypto.jobs = s.crypto.jobs ∧
      ∃ u', (fetchOwn s u x r).up = [u'] ∧ u'.stage = .keyMiss ∧ u'.record = r := by
  have room : ¬ 512 ≤ keyMissLevel s := by simp [keyMissLevel, up, down, fresh]
  obtain ⟨-, -, waits, jobs⟩ := startUnwraps_frame
    { s with up := s.up.map fun y => if y.id = u.id then
        { u with record := r, counter := (frameCounter s u x).1, asnCounter := (frameCounter s u x).2, stage := .keyMiss
                 wrapped := recWrapped s r } else y }
  simp only [fetchOwn, uncached, if_neg room]
  rw [waits, jobs, up]
  exact ⟨rfl, _, List.map_singleton .., by simp⟩

end Own

/-! A word from the radio's clock domain that fails its check (R29, R395). -/

theorem State.event_get_other (s : State) (code source arg : Nat) {g : Fld} (ovf : g.key ≠ Reg.SYS_EVENT_STATUS.OVF.key)
    (lost : g.key ≠ Reg.SYS_EVENT_LOST.LOST.key) : (s.event code source arg).get g = s.get g := by
  rw [State.event_eq]
  refine State.onlyIf_keeps (P := fun t => t.get g = s.get g) _ _ _ (State.count_get ..) fun h => ?_
  rcases State.recordEvent_cases (s.count code)
      { code := code, source := source, arg := arg % 2 ^ 48, time := (s.count code).time.ns } with e | ⟨-, e⟩
  · simpa only [e, State.get] using h
  · rw [e, State.bump, State.get_set_other _ _ _ _ lost, State.setFlag, State.get_set_other _ _ _ _ ovf, h]

theorem fifoUncorr_get_other (s : State) (fifo block : Nat) (hw : Bool) {g : Fld} (ovf : g.key ≠ Reg.SYS_EVENT_STATUS.OVF.key)
    (lost : g.key ≠ Reg.SYS_EVENT_LOST.LOST.key) : (fifoUncorr s fifo block hw).get g = s.get g := by
  unfold fifoUncorr
  dsimp only
  split
  · exact State.event_get_other _ _ _ _ ovf lost
  · exact State.count_get ..

theorem crossed_uncorrectable_onlyReports (s : State) (block : Nat) (k : State → State) :
    onlyReports s (crossed s block .uncorrectable k) :=
  onlyReports_trans (State.set_onlyReports s Reg.QMGR_XING_PROT.UNCORR 1)
    (onlyReports_trans (fifoUncorr_onlyReports ..)
      (onlyReports_trans (State.count_onlyReports ..) (State.set_onlyReports ..)))

theorem crossed_uncorrectable_flag (s : State) (block : Nat) (k : State → State) :
    (crossed s block .uncorrectable k).flag Reg.QMGR_XING_PROT.UNCORR = true := by
  have reported : crossed s block .uncorrectable k =
      ((fifoUncorr (s.setFlag Reg.QMGR_XING_PROT.UNCORR true) Fifo.XING block true).count Ctr.HW_FIFO_DROP).setFlag
        Reg.SAFE_MON_STATUS.FIFO_REPORT true := rfl
  rw [reported, State.setFlag, State.flag_set_other _ _ _ _ (by decide), State.flag, State.count_get,
    fifoUncorr_get_other _ _ _ _ (by decide) (by decide)]
  exact State.flag_setFlag_self s Reg.QMGR_XING_PROT.UNCORR true


/-! RECORD_FETCH_DONE (R33, R39). -/

section RecordFetch
variable {s r : State} {dt id : Nat} {cls : Fin 8} {ecc : Ecc} {post : State → Prop} (noneResumed : s.tables.resumed = [])
  (room : parkingFull s = false)
include noneResumed room

/-- Where no lookup has resumed and the parking queue has room, it is the turn of every lookup that does not park. -/
theorem onTurn_eq (dt : Nat) : onTurn (s.advance dt) id = !s.tables.parking.contains id := by
  have full : parkingFull (s.advance dt) = false := room
  have parking : (s.advance dt).tables = s.tables := rfl
  rw [onTurn, full, parking, noneResumed]
  simp

section Up
variable {u : UpFrame} (up : s.up = [u])
include up

theorem recordFetchDone_up_parked (parked : u.id ∈ s.tables.parking) :
    completes (.recordFetchDone dt u.id cls ecc) s fun t => t = s.advance dt := by
  have notYet : onTurn (s.advance dt) u.id = false := by simp [onTurn_eq noneResumed room, parked]
  refine completes_of_effect (i := .recordFetchDone ..) (by unfold exec execRecordFetchDone; rfl) (r := s.advance dt) ?_ rfl rfl rfl
  simp [up, notYet]

variable (fresh : u.stage = .fetch)
include fresh

theorem recordFetchDone_up (free : u.id ∉ s.tables.parking)
    (effect : (if ecc = .uncorrectable then crossed (dropUp (s.advance dt) u.id) Block.FWD ecc (fun a => a)
      else crossed (s.advance dt) Block.FWD ecc fun a => lookUp a u cls) = r)
    (clock : r.tick = s.tick + dt) (queue : r.pending = s.pending) (hp : post r) :
    completes (.recordFetchDone dt u.id cls ecc) s post := by
  have turn : onTurn (s.advance dt) u.id = true := by simp [onTurn_eq noneResumed room, free]
  refine completes_of_effect (i := .recordFetchDone ..) (by unfold exec execRecordFetchDone; rfl) ?_ clock queue hp
  simpa [up, turn, fresh, noneResumed] using effect

/-- A frame whose words all passed their check is looked up. -/
theorem recordFetchDone_up_ok (free : u.id ∉ s.tables.parking) (effect : lookUp (s.advance dt) u cls = r)
    (clock : r.tick = s.tick + dt) (queue : r.pending = s.pending) (hp : post r) :
    completes (.recordFetchDone dt u.id cls .ok) s post :=
  recordFetchDone_up noneResumed room up fresh free effect clock queue hp

/-- A frame whose lookup does not park meets its fate. -/
theorem recordFetchDone_up_fetched (free : u.id ∉ s.tables.parking) (found : addrParks s u.frame.src = false)
    (effect : fetchUp (s.advance dt) u cls = r) (clock : r.tick = s.tick + dt) (queue : r.pending = s.pending) (hp : post r) :
    completes (.recordFetchDone dt u.id cls .ok) s post := by
  have unparked : ¬ addrParks (s.advance dt) u.frame.src = true := Bool.not_eq_true _ ▸ found
  exact recordFetchDone_up_ok noneResumed room up fresh free ((if_neg unparked).trans effect) clock queue hp

end Up

theorem recordFetchDone_down {d : DownPacket} {n : Nat} (up : s.up = []) (down : s.down = [d]) (free : d.id ∉ s.tables.parking)
    (noKey : d.keyMiss = false) (record : d.record = some n) (effect : fetchDown (goesOn (s.advance dt) d.id) d n = r)
    (clock : r.tick = s.tick + dt) (queue : r.pending = s.pending) (hp : post r) :
    completes (.recordFetchDone dt d.id cls ecc) s post := by
  have turn : onTurn (s.advance dt) d.id = true := by simp [onTurn_eq noneResumed room, free]
  refine completes_of_effect (i := .recordFetchDone ..) (by unfold exec execRecordFetchDone; rfl) ?_ clock queue hp
  simpa [up, down, turn, noKey, record] using effect

end RecordFetch

/-! A downlink packet without its link record's key (R39, R303). -/

/-- The one record that has a packet in the key-miss queue takes the first of the two idle unwrap units. -/
theorem startUnwraps_of_alone {s : State} {d : DownPacket} (up : s.up = []) (down : s.down = [d]) (waits : d.keyMiss = true)
    (idle : s.crypto.unwraps = []) :
    startUnwraps s = { s with crypto := { s.crypto with unwraps := [{ record := d.link }] } } := by
  have records : keyMissRecords s = [d.link] := by simp [keyMissRecords, up, down, waits, sortBy, insertBy]
  simp [startUnwraps, records, idle, State.setCrypto]

/-- A packet to a record that no route leads to, as step 4 leaves it to wait for the record's key. -/
def keylessDown (s : State) (d : DownPacket) (r : Nat) : DownPacket :=
  { d with keyMiss := true, link := r, mac := nodeAddr s r false, payload := downPayload s d.pkt r (nodeAddr s r false) []
           wrapped := recWrapped s r }

/-- The one packet on its way waits for the unwrap of the record it goes to. -/
theorem fetchDown_of_uncached {s : State} {d : DownPacket} {r : Nat} (up : s.up = []) (down : s.down = [d])
    (long : d.shortForm = false) (direct : recRouteLen s r = 0) (uncached : cachedKey s r = none)
    (idle : s.crypto.unwraps = []) : fetchDown s d r =
      { s with down := [keylessDown (dropDown s d.id) d r], crypto := { s.crypto with unwraps := [{ record := r }] } } := by
  have left : (dropDown s d.id).down = [] := by simp [dropDown, down]
  have leftUp : (dropDown s d.id).up = [] := up
  have room : keyMissLevel (dropDown s d.id) = 0 := by simp [keyMissLevel, leftUp, left]
  have miss : cachedKey (dropDown s d.id) r = none := uncached
  have waits : fetchDown s d r = startUnwraps { dropDown s d.id with down := [keylessDown (dropDown s d.id) d r] } := by
    simp [fetchDown, State.onlyIf, direct, long, miss, room, left, keylessDown]
  exact waits.trans (startUnwraps_of_alone (d := keylessDown (dropDown s d.id) d r) up rfl rfl idle)

/-! The fates of a frame that is alone on the path. -/

section Fates
variable {s : State} {u : UpFrame} (up : s.up = [u])
include up

/-- A frame dropped after its lookup: the path is empty, and the CRYPTO block has nothing of it. -/
theorem dropUp_lookedUp_frame : (dropUp (lookedUp s u) u.id).tick = s.tick ∧ (dropUp (lookedUp s u) u.id).pending = s.pending ∧
    (dropUp (lookedUp s u) u.id).up = [] ∧ (dropUp (lookedUp s u) u.id).crypto = s.crypto := by
  have learned := lookedUp_onlyLearns s u
  obtain ⟨clock, queue⟩ := learned.clock_eq
  exact ⟨clock, queue, dropUp_of_alone (learned.up_eq.trans up), learned.crypto_eq⟩

/-- A frame dropped after its lookup under a counter of its own. -/
theorem dropUp_lookedUp_counted {c : Nat} (lost : c ≠ Ev.LEARN_OVERFLOW) (dup : c ≠ Ctr.DUP_KEY) :
    ((dropUp (lookedUp s u) u.id).count c).tick = s.tick ∧ ((dropUp (lookedUp s u) u.id).count c).pending = s.pending ∧
      ((dropUp (lookedUp s u) u.id).count c).up = [] ∧ countedOnce s ((dropUp (lookedUp s u) u.id).count c) c := by
  obtain ⟨clock, queue, alone, -⟩ := dropUp_lookedUp_frame up
  have counted := (lookedUp_onlyLearns s u).countedOnce_count lost dup
  exact ⟨clock, queue, alone, counted⟩

end Fates

/-- Settles O34: a lookup and its learn event touch the node tables and report, but nothing on which the frame's fate turns, so
that the fate is read off the state before them. -/
theorem recordFetches : Obligations.RecordFetches := by
  intro s a dt u cls ecc x k r d ha noneResumed room
  refine ⟨fun up _ parked => ?_, fun up fresh free => ⟨?_, fun parks => ?_, fun found other => ?_, fun found mine =>
    ⟨fun limits => ?_, fun limits plain core => ?_, fun limits secured data own source record => ?_⟩⟩,
    fun up down free noKey long record direct uncached idle => ?_⟩
  all_goals subst ha
  · exact recordFetchDone_up_parked noneResumed room up parked
  · obtain ⟨clock, queue, path, crypto⟩ :=
      (crossed_uncorrectable_onlyReports (dropUp (s.advance dt) u.id) Block.FWD fun a => a).frame
    exact recordFetchDone_up noneResumed room up fresh free (if_pos rfl) clock queue
      ⟨path.trans (dropUp_of_alone up), crypto, crossed_uncorrectable_flag ..⟩
  · exact recordFetchDone_up_ok noneResumed room up fresh free (if_pos parks) rfl rfl ⟨rfl, rfl⟩
  · obtain ⟨clock, queue, path, crypto⟩ := dropUp_lookedUp_frame (s := s.advance dt) up
    exact recordFetchDone_up_fetched noneResumed room up fresh free found (fetchUp_of_other (s := s.advance dt) other cls)
      clock queue ⟨path, crypto⟩
  · obtain ⟨clock, queue, path, counted⟩ :=
      dropUp_lookedUp_counted (s := s.advance dt) up (c := Ctr.FRAME_UNSUPPORTED) (by decide) (by decide)
    exact recordFetchDone_up_fetched noneResumed room up fresh free found (fetchUp_of_unsupported (s := s.advance dt) mine limits cls)
      clock queue ⟨path, counted⟩
  · obtain ⟨clock, queue, path, counted⟩ :=
      dropUp_lookedUp_counted (s := s.advance dt) up (c := Ctr.UNSECURED_DROP) (by decide) (by decide)
    exact recordFetchDone_up_fetched noneResumed room up fresh free found
      (fetchUp_of_unsecured (s := s.advance dt) mine limits plain core cls) clock queue ⟨path, counted⟩
  · have learned := lookedUp_onlyLearns (s.advance dt) u
    have path : (lookedUp (s.advance dt) u).up = [u] := learned.up_eq.trans up
    have selected : (resolve (s.advance dt) u.frame.src).1 = some r := by rw [source]; exact record
    obtain ⟨clock, queue⟩ := fetchOwn_clock (lookedUp (s.advance dt) u) u x r
    refine recordFetchDone_up_fetched noneResumed room up fresh free found
      (fetchUp_of_secured (s := s.advance dt) mine limits secured data own selected cls) (clock.trans learned.clock_eq.1)
      (queue.trans learned.clock_eq.2) ⟨fun key cached => ?_, fun uncached down => ?_⟩
    · obtain ⟨jobs, u', waits, stage, node, counter⟩ :=
        fetchOwn_of_cached path x ((learned.cachedKey_eq r).trans cached)
      rw [learned.crypto_eq] at jobs
      rw [learned.frameCounter_eq] at counter
      exact ⟨u', waits, stage, node, counter, jobs⟩
    · obtain ⟨jobs, u', waits, stage, node⟩ :=
        fetchOwn_of_uncached path x fresh (learned.down_eq.trans down) ((learned.cachedKey_eq r).trans uncached)
      rw [learned.crypto_eq] at jobs
      exact ⟨u', waits, stage, node, jobs⟩
  · have waits := fetchDown_of_uncached (s := goesOn (s.advance dt) d.id) up down long direct uncached idle
    exact recordFetchDone_down noneResumed room up down free noKey record waits rfl rfl
      ⟨⟨_, rfl, rfl, rfl, rfl, rfl⟩, rfl, rfl⟩

end Sys2Proof.Machine
end

section
/-!
SUPPORT. What a restart leaves of the machine (R49 to R53), and what a core reset leaves (R401). Then the statements about resets.
-/

namespace Sys2Proof.Machine

/-! Commands and folds. -/

/-- A command whose precondition holds completes with its effect, if that leaves the clock and the queue. -/
theorem completes_of_whenever {i : Instr} {s r : State} {dt : Nat} {c : State → Bool} {k : State → State} {post : State → Prop}
    (h : exec i s = whenever dt s c k) (acts : c (s.advance dt) = true) (effect : k (s.advance dt) = r)
    (clock : r.tick = s.tick + dt) (queue : r.pending = s.pending) (hp : post r) : completes i s post :=
  completes_of_effect (h.trans (whenever_acts dt s c k acts)) effect clock queue hp

/-- What every step of a fold leaves, the fold leaves. -/
theorem foldl_leaves {β γ : Type} (π : State → γ) {f : State → β → State} (h : ∀ s e, π (f s e) = π s) (l : List β) (s : State) :
    π (l.foldl f s) = π s :=
  List.foldlRecOn (motive := fun t => π t = π s) l f rfl fun t ht e _ => (h t e).trans ht

/-! The always-on fields among all fields. -/

theorem Cells.get_filter {α : Type} (m : List (Nat × α)) (p : Nat → Bool) (k : Nat) (d : α) :
    Cells.get (m.filter fun e => p e.1) k d = if p k then Cells.get m k d else d := by
  induction m with
  | nil => simp [Cells.get]
  | cons e m ih =>
    obtain ⟨a, v⟩ := e
    by_cases here : a = k
    · subst here
      cases hp : p a <;> simp [List.filter, hp, Cells.get, ih]
    · cases hp : p a <;> simp [List.filter, hp, Cells.get, here, ih]

/-- A register field of a store of which only the places with a property are kept. -/
theorem State.get_filter (s : State) (p : Nat → Bool) (g : Fld) :
    ({ s with fields := s.fields.filter fun e => p e.1 } : State).get g = if p g.key then s.get g else g.rst % 2 ^ g.width := by
  rw [State.get, Cells.get_filter]
  split <;> rfl

/-! What a restart of the main domain leaves. -/

section MainReset
variable (s : State) (power : Bool) (g : Fld)

theorem mainReset_get (ext : g.key ≠ Reg.NFC_STATUS.EXT_FIELD.key) (emu : g.key ≠ Reg.NFC_STATUS.EMU_SESSION.key)
    (backup : g.key ≠ Reg.HEALTH_STATUS.ON_BACKUP.key) :
    (mainReset s power).get g = if alwaysOn g.key then s.get g else g.rst % 2 ^ g.width := by
  rw [← State.get_filter]
  unfold mainReset State.setFlag
  rw [State.get_set_other _ _ _ _ backup, State.get_set_other _ _ _ _ emu, State.get_set_other _ _ _ _ ext]
  rfl

theorem mainReset_get_alwaysOn (h : alwaysOn g.key = true) : (mainReset s power).get g = s.get g := by
  rw [mainReset_get, if_pos h] <;> (intro e; rw [e] at h; exact absurd h (by decide))

end MainReset

/-- The volatile domains of a machine whose main domain has restarted stand at their reset state, whatever has come since to the
always-on fields, the pins, the bus and the always-on domain. -/
theorem mainReset_restarted (s : State) (power : Bool) {t : State} {b : AonState}
    (rest : ∃ F O A R B, t = { mainReset s power with fields := F, outs := O, aon := A, bus := R, start := B })
    (fields : ∀ g : Fld, alwaysOn g.key = false → t.get g = (mainReset s power).get g) (aon : { t.aon with avs := b.avs } = b) :
    restarted { s with aon := b } t := by
  obtain ⟨F, O, A, R, B, rfl⟩ := rest
  refine ⟨fun g volatile ext emu backup => ?_, rfl, rfl, rfl, rfl, rfl, rfl, rfl, rfl, ?_, ?_, ?_, aon⟩
  · rw [fields g volatile, mainReset_get s power g ext emu backup, volatile]
    rfl
  all_goals cases power <;> rfl

/-! The pins of AON_ONLY (R56, R706). -/

theorem emit_avs_codes (s : State) (l : List Nat) :
    l.foldl (fun s v => s.emit (.avs v)) s = { s with outs := s.outs ++ l.map .avs } := by
  induction l generalizing s with
  | nil => simp
  | cons v l ih => rw [List.foldl_cons, ih]; simp [State.emit]

theorem avsTo_eq (s : State) (code : Nat) :
    ∃ l, avsTo s code = { s with outs := s.outs ++ l, aon := { s.aon with avs := code } } := by
  unfold avsTo
  dsimp only
  rw [emit_avs_codes]
  exact ⟨_, rfl⟩

theorem aonPins_eq (s : State) :
    ∃ l, aonPins s = { s with outs := s.outs ++ .pin .safeN false :: l, aon := { s.aon with avs := 8 } } := by
  obtain ⟨l, h⟩ := avsTo_eq ((s.emit (.pin .safeN false)).emit (.pin .mainPwrEn true)) 8
  refine ⟨.pin .mainPwrEn true :: l, h.trans ?_⟩
  simp [State.emit]

/-! A restart with nothing to cut short. -/

theorem fwmRestart_of_idle {s : State} (h : s.fwm = []) : fwmRestart s = s := by
  cases s
  cases h
  rfl

theorem tearAll_of_settled {s : State} (h : s.settled) : tearAll s = s := by
  obtain ⟨key, prog, swap, copying, cmd, fwm, programming⟩ := h
  have keys : keysTear s true = s := by rw [keysTear, key]
  have progs : progTear s = s := by rw [progTear, prog]
  have upds : updTear s = s := by rw [updTear, swap, copying, cmd]
  have hwms : hwmTear s = s := by rw [hwmTear, programming, List.foldl_nil]
  rw [tearAll, keys, fwmRestart_of_idle fwm, progs, upds, hwms]

section FullRestart
variable {s : State} (settled : s.settled) (cause : Fld) (power : Bool)
include settled

theorem fullRestart_eq :
    ∃ l, fullRestart s cause power = { (mainReset s power).setFlag cause true with
      outs := s.outs ++ .pin .safeN false :: l, aon := { s.aon with avs := 8 } } := by
  rw [fullRestart, tearAll_of_settled settled]
  exact aonPins_eq _

theorem fullRestart_clock :
    (fullRestart s cause power).tick = s.tick ∧ (fullRestart s cause power).pending = s.pending := by
  obtain ⟨l, h⟩ := fullRestart_eq settled cause power
  rw [h]
  exact ⟨rfl, rfl⟩

theorem fullRestart_mem :
    (fullRestart s cause power).mem = if power then { s.mem with lp4x := [], tcm := [] } else s.mem := by
  obtain ⟨l, h⟩ := fullRestart_eq settled cause power
  rw [h]
  rfl

theorem fullRestart_outs : ∃ l, (fullRestart s cause power).outs = s.outs ++ .pin .safeN false :: l := by
  obtain ⟨l, h⟩ := fullRestart_eq settled cause power
  rw [h]
  exact ⟨l, rfl⟩

theorem fullRestart_restarted {cause : Fld} (kept : alwaysOn cause.key = true) : restarted s (fullRestart s cause power) := by
  obtain ⟨l, h⟩ := fullRestart_eq settled cause power
  rw [h]
  refine mainReset_restarted s power ⟨_, _, _, _, _, rfl⟩ (fun g volatile => ?_) rfl
  refine State.get_set_other (mainReset s power) cause g _ ?_
  intro e
  rw [e, kept] at volatile
  exact absurd volatile (by decide)

theorem fullRestart_causeAdded : causeAdded s (fullRestart s cause power) cause := by
  obtain ⟨l, h⟩ := fullRestart_eq settled cause power
  rw [h]
  refine ⟨?_, fun g on other => ?_⟩
  · have set := State.get_set_self (mainReset s power) cause 1
    rw [Nat.mod_eq_of_lt (Nat.one_lt_two_pow (by simp [Fld.width]))] at set
    exact set
  · exact (State.get_set_other (mainReset s power) cause g _ other).trans (mainReset_get_alwaysOn s power g on)

end FullRestart

/-! A restart of the always-on domain too (R49, R552). -/

/-- A machine whose main domain has restarted, with its always-on fields at their reset values too. -/
def allReset (s : State) : State :=
  { mainReset s true with fields := (mainReset s true).fields.filter fun e => !alwaysOn e.1 }

theorem allReset_get_alwaysOn (s : State) {g : Fld} (h : alwaysOn g.key = true) : (allReset s).get g = g.rst % 2 ^ g.width := by
  rw [allReset, State.get_filter (mainReset s true) fun k => !alwaysOn k, h]
  rfl

theorem allReset_get_volatile (s : State) {g : Fld} (h : alwaysOn g.key = false) : (allReset s).get g = (mainReset s true).get g := by
  rw [allReset, State.get_filter (mainReset s true) fun k => !alwaysOn k, h]
  rfl

theorem coldRestart_eq {s : State} (settled : s.settled) :
    ∃ l, coldRestart s = { allReset s with outs := s.outs ++ l, aon := { rtcTick := s.tick } } := by
  obtain ⟨l, h⟩ := aonPins_eq ({ allReset s with aon := { rtcTick := s.tick } }.emit (.avs 8))
  refine ⟨.avs 8 :: .pin .safeN false :: l, ?_⟩
  rw [coldRestart, tearAll_of_settled settled]
  refine h.trans ?_
  simp only [State.emit, List.append_assoc, List.singleton_append]
  rfl

/-- The effect of ALWAYS_ON_SUPPLY_LOSS. -/
def supplyLost (s : State) : State :=
  let t := mainReset (tearAll s) true
  { t with fields := t.fields.filter fun e => !alwaysOn e.1, aon := {}, start := { t.start with off := true } }

theorem supplyLost_eq {s : State} (settled : s.settled) :
    supplyLost s = { allReset s with aon := {}, start := { (mainReset s true).start with off := true } } := by
  rw [supplyLost, tearAll_of_settled settled]
  rfl

/-! Which register fields a change touches. -/

theorem onlyRegs_refl (a : State) (fs : List Fld) : onlyRegs a a fs := ⟨rfl, fun _ _ => rfl⟩

theorem onlyRegs_trans {a b t : State} {fs : List Fld} (h : onlyRegs a b fs) (k : onlyRegs b t fs) : onlyRegs a t fs := by
  obtain ⟨restB, fieldsB⟩ := h
  obtain ⟨restT, fieldsT⟩ := k
  refine ⟨?_, fun g other => (fieldsT g other).trans (fieldsB g other)⟩
  rw [← restT] at restB
  exact restB

theorem onlyRegs_mono {a t : State} {fs gs : List Fld} (h : onlyRegs a t fs) (sub : fs ⊆ gs) : onlyRegs a t gs :=
  ⟨h.1, fun g other => h.2 g fun f hf => other f (sub hf)⟩

theorem State.set_onlyRegs (s : State) {f : Fld} {fs : List Fld} (hf : f ∈ fs) (v : Nat) : onlyRegs s (s.set f v) fs :=
  ⟨rfl, fun g other => State.get_set_other s f g v (other f hf)⟩

/-- A change of register fields leaves the clock, the queue of commands, the memories and what KEYS holds. -/
theorem onlyRegs_frame {a t : State} {fs : List Fld} (h : onlyRegs a t fs) :
    t.tick = a.tick ∧ t.pending = a.pending ∧ t.mem = a.mem ∧ t.keys = a.keys := by
  have clock := congrArg State.tick h.1
  have queue := congrArg State.pending h.1
  have mem := congrArg State.mem h.1
  have keys := congrArg State.keys h.1
  exact ⟨clock, queue, mem, keys⟩

/-! Fields that are written one after the other. -/

/-- Write register fields, in order. -/
def State.setAll (s : State) (l : List (Fld × Nat)) : State := l.foldl (fun s w => s.set w.1 w.2) s

/-- What stands last among the writes to a field's place, if all writes to that place are to the field itself. -/
def lastWritten (l : List (Fld × Nat)) (f : Fld) : Option Nat :=
  l.foldl (fun v w => if w.1 = f then some w.2 else if w.1.key = f.key then none else v) none

theorem State.setAll_onlyRegs (s : State) (l : List (Fld × Nat)) : onlyRegs s (s.setAll l) (l.map Prod.fst) :=
  List.foldlRecOn (motive := fun t => onlyRegs s t (l.map Prod.fst)) l _ (onlyRegs_refl s _) fun t ht w hw =>
    onlyRegs_trans ht (State.set_onlyRegs t (List.mem_map_of_mem hw) w.2)

theorem State.get_setAll_written (s : State) {l : List (Fld × Nat)} {f : Fld} {v : Nat} (h : lastWritten l f = some v) :
    (s.setAll l).get f = v % 2 ^ f.width := by
  induction l using List.reverseRecOn generalizing v with
  | nil => simp [lastWritten] at h
  | append_singleton l w ih =>
    unfold lastWritten at h ih
    unfold State.setAll at ih ⊢
    rw [List.foldl_append, List.foldl_cons, List.foldl_nil] at h ⊢
    by_cases same : w.1 = f
    · rw [if_pos same] at h
      cases h
      rw [same, State.get_set_self]
    · rw [if_neg same] at h
      by_cases place : w.1.key = f.key
      · rw [if_pos place] at h
        cases h
      · rw [if_neg place] at h
        rw [State.get_set_other _ _ _ _ (Ne.symm place), ih h]

/-! Flags of a register. -/

theorem State.flag_setFlag_other (s : State) (f g : Fld) (b : Bool) (h : g.key ≠ f.key) : (s.setFlag f b).flag g = s.flag g :=
  State.flag_set_other s f g _ h

theorem State.event_flag_other (s : State) (code source arg : Nat) {g : Fld} (ovf : g.key ≠ Reg.SYS_EVENT_STATUS.OVF.key)
    (lost : g.key ≠ Reg.SYS_EVENT_LOST.LOST.key) : (s.event code source arg).flag g = s.flag g := by
  rw [State.flag, State.flag, State.event_get_other _ _ _ _ ovf lost]

/-! An answer on the bus leaves what has been done. -/

theorem onlyRegsAnswered_of_onlyRegs {a t : State} {fs : List Fld} (h : onlyRegs a t fs) (d : Nat) :
    onlyRegsAnswered a (t.answer d) fs := by
  obtain ⟨rest, fields⟩ := h
  have bus := congrArg (fun u : State => { u with bus := a.bus }) rest
  exact ⟨rfl, bus, fields⟩

theorem restarted_answer {a t : State} (h : restarted a t) (d : Nat) : restarted a (t.answer d) := by
  unfold restarted at h ⊢
  exact h

theorem causeAdded_answer {a t : State} {cause : Fld} (h : causeAdded a t cause) (d : Nat) : causeAdded a (t.answer d) cause := by
  unfold causeAdded at h ⊢
  exact h

/-! A core reset (R51, R401). -/

/-- The fields that the start of the application cores writes. -/
def coreFields : List Fld := (List.range 4).flatMap fun c => [Reg.ICU_CORE_PWR.STATE c, Reg.ICU_CORE_PWR.RESUMED c]

/-- An application core starts at its entry point, if the image has one for it. -/
def startCore (s : State) (c : Nat) : State :=
  match coreEntry s c with
  | none => s
  | some e => ((s.set (Reg.ICU_CORE_PWR.STATE c) 0).setFlag (Reg.ICU_CORE_PWR.RESUMED c) false).emit (.coreStart c e)

/-- `t` is `a` but for the state of the application cores and what was put out. -/
def onlyStarts (a t : State) : Prop := onlyRegs a { t with outs := a.outs } coreFields

theorem onlyStarts_refl (a : State) : onlyStarts a a := onlyRegs_refl a coreFields

theorem onlyStarts_trans {a b t : State} (h : onlyStarts a b) (k : onlyStarts b t) : onlyStarts a t := by
  obtain ⟨restB, fieldsB⟩ := h
  obtain ⟨restT, fieldsT⟩ := k
  refine ⟨?_, fun g other => (fieldsT g other).trans (fieldsB g other)⟩
  rw [← restT] at restB
  exact restB

theorem startCore_onlyStarts (s : State) {c : Nat} (hc : c < 4) : onlyStarts s (startCore s c) := by
  have state : Reg.ICU_CORE_PWR.STATE c ∈ coreFields := List.mem_flatMap.2 ⟨c, List.mem_range.2 hc, by simp⟩
  have resumed : Reg.ICU_CORE_PWR.RESUMED c ∈ coreFields := List.mem_flatMap.2 ⟨c, List.mem_range.2 hc, by simp⟩
  unfold startCore
  split
  next => exact onlyStarts_refl s
  next => exact onlyRegs_trans (State.set_onlyRegs s state 0) (State.set_onlyRegs _ resumed 0)

theorem startCores_onlyStarts (s : State) : onlyStarts s ((List.range 4).foldl startCore s) :=
  List.foldlRecOn (motive := onlyStarts s) _ startCore (onlyStarts_refl s) fun _ ht _ hc =>
    onlyStarts_trans ht (startCore_onlyStarts _ (List.mem_range.1 hc))

/-- The mailboxes as a core reset leaves them. -/
def mailboxesEmptied (q : QueueState) : QueueState :=
  { q with rx := [], tx := [], midRead := q.midRead.filter fun f => decide (f < 5), txBroken := [] }

theorem coreReset_eq (s : State) :
    coreReset s = State.onlyIf { s.setFlag Reg.SYS_RESET_CAUSE.CORE true with q := mailboxesEmptied s.q } s.inRun
      fun s => (List.range 4).foldl startCore s := by
  have run : ({ s.setFlag Reg.SYS_RESET_CAUSE.CORE true with q := mailboxesEmptied s.q } : State).inRun = s.inRun := by
    have boot := State.get_set_other s Reg.SYS_RESET_CAUSE.CORE Reg.SYS_BOOT_STATUS.STATE 1 (by decide)
    exact congrArg (fun b => decide (b = Boot.RUN)) boot
  rw [← run]
  rfl

theorem coreReset_onlyStarts (s : State) :
    onlyStarts { s.setFlag Reg.SYS_RESET_CAUSE.CORE true with q := mailboxesEmptied s.q } (coreReset s) := by
  rw [coreReset_eq]
  cases s.inRun
  · exact onlyStarts_refl _
  · exact startCores_onlyStarts _

section CoreReset
variable (s : State)

theorem coreReset_queues : (coreReset s).q = mailboxesEmptied s.q := by
  have rest := congrArg State.q (coreReset_onlyStarts s).1
  exact rest

theorem coreReset_clock : (coreReset s).tick = s.tick ∧ (coreReset s).pending = s.pending := by
  have clock := congrArg State.tick (coreReset_onlyStarts s).1
  have queue := congrArg State.pending (coreReset_onlyStarts s).1
  exact ⟨clock, queue⟩

theorem coreReset_sets_core : (coreReset s).flag Reg.SYS_RESET_CAUSE.CORE = true := by
  have kept := (coreReset_onlyStarts s).2 Reg.SYS_RESET_CAUSE.CORE (by decide)
  have set := State.flag_setFlag_self s Reg.SYS_RESET_CAUSE.CORE true
  unfold State.flag at set ⊢
  exact (congrArg (fun n => decide (n ≠ 0)) kept).trans set

/-- A core reset changes no more than CORE, the mailboxes, the state of the cores and what was put out. -/
theorem coreReset_onlyRegs :
    onlyRegs s { coreReset s with outs := s.outs, q := s.q } (Reg.SYS_RESET_CAUSE.CORE :: coreFields) := by
  obtain ⟨rest, fields⟩ := coreReset_onlyStarts s
  refine ⟨?_, fun g other => ?_⟩
  · have all := congrArg (fun u : State => { u with q := s.q, fields := s.fields }) rest
    exact all
  · have core := State.get_set_other s Reg.SYS_RESET_CAUSE.CORE g 1 (other _ (List.mem_cons_self ..))
    exact (fields g fun f hf => other f (List.mem_cons_of_mem _ hf)).trans core

end CoreReset

/-! A write of SYS_RESET_CTRL (R51, R53). -/

/-- The key of SYS_RESET_CTRL stands above the bits that a command for one TYPE fixes. -/
theorem bits_key_of_type (v : Nat) {type : Nat} (h : type < 4) : bits (v / 4 * 4 + type) 63 32 = bits v 63 32 := by
  unfold bits
  omega

section ResetCtrl
variable (s : State) {v : Word}

theorem writeResetCtrl_of_no_key (key : bits v.toNat 63 32 ≠ 0xA5C30F96) {type : Nat} (h : type < 4) :
    writeResetCtrl s (v.toNat / 4 * 4 + type) = s := by
  rw [writeResetCtrl, bits_key_of_type _ h, if_pos key]

/-- A command that writes SYS_RESET_CTRL completes with what the write does, and an answer. -/
theorem completes_of_resetCtrl {i : Instr} {r : State} {dt type : Nat} {post : State → Prop}
    (h : exec i s = whenever dt s powered fun s => (writeResetCtrl s (v.toNat / 4 * 4 + type)).answer 0)
    (power : powered s = true) (effect : writeResetCtrl (s.advance dt) (v.toNat / 4 * 4 + type) = r)
    (clock : r.tick = s.tick + dt) (queue : r.pending = s.pending) (hp : post (r.answer 0)) : completes i s post := by
  subst effect
  exact completes_of_whenever h power rfl clock queue hp

variable (key : bits v.toNat 63 32 = 0xA5C30F96)
include key

theorem writeResetCtrl_system :
    writeResetCtrl s (v.toNat / 4 * 4 + 1) = fullRestart s Reg.SYS_RESET_CAUSE.SOFT false := by
  rw [writeResetCtrl, bits_key_of_type _ (by decide), if_neg (not_not.2 key), if_pos (by omega)]

theorem writeResetCtrl_core : writeResetCtrl s (v.toNat / 4 * 4 + 2) = coreReset s := by
  rw [writeResetCtrl, bits_key_of_type _ (by decide), if_neg (not_not.2 key), if_neg (by omega), if_pos (by omega)]

end ResetCtrl

/-! The statements. -/

/-- Settles O5: no memory is written at reset. -/
theorem resetMemoriesCanonical : Obligations.ResetMemoriesCanonical := reset_wf

/-- Settles O7: each register word is computed from the reset values of its fields. -/
theorem resetRegisters : Obligations.ResetRegisters := by
  unfold Obligations.ResetRegisters
  decide

/-- A command that restarts the device completes with the restart. -/
theorem completes_of_fullRestart {i : Instr} {s : State} {dt : Nat} {c : State → Bool} {cause : Fld} {power : Bool}
    {post : State → Prop} (settled : s.settled) (h : exec i s = whenever dt s c fun s => fullRestart s cause power)
    (acts : c (s.advance dt) = true) (hp : post (fullRestart (s.advance dt) cause power)) : completes i s post := by
  obtain ⟨clock, queue⟩ := fullRestart_clock (s := s.advance dt) settled cause power
  exact completes_of_whenever h acts rfl clock queue hp

/-- Settles O14: with nothing in progress that it cuts short, a restart is the reset of the main domain, or of both. -/
theorem powerResets : Obligations.PowerResets := by
  intro s dt settled
  have settledA : (s.advance dt).settled := settled
  have lp4x (cause : Fld) : (fullRestart (s.advance dt) cause true).mem.lp4x = [] := by rw [fullRestart_mem settledA]; rfl
  have tcm (cause : Fld) : (fullRestart (s.advance dt) cause true).mem.tcm = [] := by rw [fullRestart_mem settledA]; rfl
  refine ⟨fun on => ?_, fun power => ?_, fun off => ?_, fun on => ?_⟩
  · exact completes_of_fullRestart (c := fun s => !s.start.off) settled rfl (congrArg not on)
      ⟨fullRestart_restarted settledA true (by decide), fullRestart_causeAdded settledA _ true, lp4x _, tcm _,
        fullRestart_outs settledA _ true⟩
  · exact completes_of_fullRestart settled rfl power
      ⟨fullRestart_restarted settledA true (by decide), fullRestart_causeAdded settledA _ true, lp4x _, tcm _⟩
  · obtain ⟨l, cold⟩ := coldRestart_eq settledA
    refine completes_of_whenever (c := fun s => s.start.off) rfl off cold rfl rfl
      ⟨?_, fun g always => allReset_get_alwaysOn (s.advance dt) always, rfl⟩
    exact mainReset_restarted (s.advance dt) true ⟨_, _, _, _, _, rfl⟩
      (fun g volatile => allReset_get_volatile (s.advance dt) volatile) rfl
  · exact completes_of_whenever (c := fun s => !s.start.off) (k := supplyLost) rfl (congrArg not on) (supplyLost_eq settledA) rfl rfl
      ⟨rfl, rfl, fun g always => allReset_get_alwaysOn (s.advance dt) always, rfl⟩

/-- Settles O15: the keyed writes and the other causes come to one of the two kinds of restart, and a write without the key to
none. -/
theorem restarts : Obligations.Restarts := by
  intro s dt v power
  have mem (settled : s.settled) (cause : Fld) : (fullRestart (s.advance dt) cause false).mem = s.mem :=
    fullRestart_mem (s := s.advance dt) settled cause false
  refine ⟨fun settled key => ?_, fun settled debug => ?_, fun at_ settled due late => ?_, fun key => ?_, fun key => ⟨?_, ?_⟩⟩
  · obtain ⟨clock, queue⟩ := fullRestart_clock (s := s.advance dt) settled Reg.SYS_RESET_CAUSE.SOFT false
    exact completes_of_resetCtrl s rfl power (writeResetCtrl_system _ key) clock queue
      ⟨restarted_answer (fullRestart_restarted (s := s.advance dt) settled false (by decide)) 0,
        causeAdded_answer (fullRestart_causeAdded (s := s.advance dt) settled _ false) 0, mem settled _, rfl⟩
  · have acts : (powered (s.advance dt) && (s.advance dt).flag Reg.KEYS_STATUS.DEBUG) = true :=
      Bool.and_eq_true_iff.2 ⟨power, debug⟩
    exact completes_of_fullRestart (c := fun s => powered s && s.flag Reg.KEYS_STATUS.DEBUG) settled rfl acts
      ⟨fullRestart_restarted (s := s.advance dt) settled false (by decide),
        fullRestart_causeAdded (s := s.advance dt) settled _ false, mem settled _⟩
  · have acts : (((s.advance dt).safe.wdReset.map fun t => (s.advance dt).elapsedMs t 1).getD false) = true := by
      rw [show (s.advance dt).safe.wdReset = some at_ from due]
      exact late
    exact completes_of_fullRestart (c := fun s => (s.safe.wdReset.map fun t => s.elapsedMs t 1).getD false) settled rfl acts
      ⟨fullRestart_restarted (s := s.advance dt) settled false (by decide),
        fullRestart_causeAdded (s := s.advance dt) settled _ false, mem settled _⟩
  · obtain ⟨clock, queue⟩ := coreReset_clock (s.advance dt)
    have queues := coreReset_queues (s.advance dt)
    refine completes_of_resetCtrl s rfl power (writeResetCtrl_core _ key) clock queue
      ⟨coreReset_sets_core (s.advance dt), ?_, ?_, ?_, onlyRegsAnswered_of_onlyRegs (coreReset_onlyRegs (s.advance dt)) 0⟩
    all_goals
      rw [State.answer, queues]
      rfl
  · exact completes_of_resetCtrl s rfl power (writeResetCtrl_of_no_key _ key (by decide)) rfl rfl (onlyRegsAnswered_answer ..)
  · exact completes_of_resetCtrl s rfl power (writeResetCtrl_of_no_key _ key (by decide)) rfl rfl (onlyRegsAnswered_answer ..)

end Sys2Proof.Machine
end

section
/-!
SUPPORT. The start up to IMAGE_VERIFY (R54 to R61): what ends AON_ONLY, BOOT_ROM and LIFE_CYCLE_READ, and what each leaves. Then the
statement about these states.
-/

namespace Sys2Proof.Machine

/-! The boot state. -/

theorem State.boot_setBoot (s : State) {b : Nat} (h : b < 16) : (s.setBoot b).boot = b :=
  (State.get_set_self s Reg.SYS_BOOT_STATUS.STATE b).trans (Nat.mod_eq_of_lt h)

theorem State.setBoot_onlyRegs (s : State) (b : Nat) : onlyRegs s (s.setBoot b) [Reg.SYS_BOOT_STATUS.STATE] :=
  State.set_onlyRegs s (by decide) b

/-! A mechanism that detects a fault during a start (R59, R661). -/

/-- What the entry to SAFE leaves in SAFE_STATUS and in the boot state. -/
def startSafeWrites (mech detail : Nat) : List (Fld × Nat) :=
  [(Reg.SAFE_STATUS.SAFE, 1), (Reg.SAFE_STATUS.MECH, mech), (Reg.SAFE_STATUS.DETAIL, detail), (Reg.SYS_BOOT_STATUS.STATE, Boot.SAFE)]

/-- The detection is noted in MON and reported, and SAFE_N goes low. -/
def safeReported (s : State) (mech source detail : Nat) : State :=
  safePin (safeEvent (s.set Reg.SAFE_MON_STATUS.MON (s.get Reg.SAFE_MON_STATUS.MON ||| 2 ^ (mech - 1))) mech source detail) false

theorem safeReported_frame (s : State) (mech source detail : Nat) :
    { safeReported s mech source detail with
      fields := s.fields, counters := s.counters, events := s.events, outs := s.outs, q := s.q } = s := by
  have reports : onlyReports s
      (safeEvent (s.set Reg.SAFE_MON_STATUS.MON (s.get Reg.SAFE_MON_STATUS.MON ||| 2 ^ (mech - 1))) mech source detail) :=
    onlyReports_trans (State.set_onlyReports ..) (State.event_onlyReports ..)
  have rest := congrArg (fun u : State => { u with outs := s.outs }) reports
  exact rest

theorem safeReported_get_other (s : State) (mech source detail : Nat) {g : Fld} (ovf : g.key ≠ Reg.SYS_EVENT_STATUS.OVF.key)
    (lost : g.key ≠ Reg.SYS_EVENT_LOST.LOST.key) (mon : g.key ≠ Reg.SAFE_MON_STATUS.MON.key) :
    (safeReported s mech source detail).get g = s.get g :=
  (State.event_get_other _ _ _ _ ovf lost).trans (State.get_set_other s Reg.SAFE_MON_STATUS.MON g _ mon)

theorem enterSafe_eq_of_start {s : State} (mech source detail : Nat) (safe : s.flag Reg.SAFE_STATUS.SAFE = false)
    (boot : s.boot ≠ Boot.SAFE) (start : s.boot ≠ Boot.RUN) :
    enterSafe s mech source detail = (safeReported s mech source detail).setAll (startSafeWrites mech detail) := by
  have kept := State.get_set_other s Reg.SAFE_MON_STATUS.MON Reg.SYS_BOOT_STATUS.STATE
    (s.get Reg.SAFE_MON_STATUS.MON ||| 2 ^ (mech - 1)) (by decide)
  have idle : ¬ ((s.set Reg.SAFE_MON_STATUS.MON (s.get Reg.SAFE_MON_STATUS.MON ||| 2 ^ (mech - 1))).flag Reg.SAFE_STATUS.SAFE ||
      decide ((s.set Reg.SAFE_MON_STATUS.MON (s.get Reg.SAFE_MON_STATUS.MON ||| 2 ^ (mech - 1))).boot = Boot.SAFE)) = true := by
    rw [State.flag_set_other _ _ _ _ (by decide), safe, Bool.false_or, decide_eq_true_eq]
    exact fun e => boot (kept.symm.trans e)
  have starting : ¬ ((((safeReported s mech source detail).setFlag Reg.SAFE_STATUS.SAFE true).set Reg.SAFE_STATUS.MECH mech).set
      Reg.SAFE_STATUS.DETAIL detail).inRun = true := by
    rw [State.inRun, State.boot, State.get_set_other _ _ _ _ (by decide), State.get_set_other _ _ _ _ (by decide), State.setFlag,
      State.get_set_other _ _ _ _ (by decide), safeReported_get_other _ _ _ _ (by decide) (by decide) (by decide), decide_eq_true_eq]
    exact start
  unfold enterSafe
  dsimp only
  rw [if_neg idle]
  exact if_neg starting

section EnterSafe
variable {s : State} (mech source detail : Nat) (safe : s.flag Reg.SAFE_STATUS.SAFE = false)
  (boot : s.boot ≠ Boot.SAFE) (start : s.boot ≠ Boot.RUN)
include safe boot start

/-- During a start the detection ends it in SAFE, and SAFE_STATUS names the mechanism. -/
theorem enterSafe_of_start : (enterSafe s mech source detail).boot = Boot.SAFE ∧
    (enterSafe s mech source detail).get Reg.SAFE_STATUS.MECH = mech % 2 ^ 8 ∧
    (enterSafe s mech source detail).flag Reg.SAFE_STATUS.SAFE = true := by
  rw [enterSafe_eq_of_start mech source detail safe boot start]
  have written {f : Fld} {v : Nat} (h : lastWritten (startSafeWrites mech detail) f = some v) :=
    State.get_setAll_written (safeReported s mech source detail) h
  refine ⟨written (f := Reg.SYS_BOOT_STATUS.STATE) (v := Boot.SAFE) ?_, written (f := Reg.SAFE_STATUS.MECH) (v := mech) ?_, ?_⟩
  · simp +decide [lastWritten, startSafeWrites]
  · simp +decide [lastWritten, startSafeWrites]
  · rw [State.flag, written (v := 1) (by simp +decide [lastWritten, startSafeWrites])]
    rfl

theorem enterSafe_frame_of_start : (enterSafe s mech source detail).tick = s.tick ∧
    (enterSafe s mech source detail).pending = s.pending ∧ (enterSafe s mech source detail).mem = s.mem := by
  rw [enterSafe_eq_of_start mech source detail safe boot start]
  have rest := safeReported_frame s mech source detail
  have clock := congrArg State.tick rest
  have queue := congrArg State.pending rest
  have mem := congrArg State.mem rest
  exact ⟨clock, queue, mem⟩

end EnterSafe

/-! What BOOT_ROM takes from the flash and records there (R622, R630, R638). -/

/-- The fields that show the journal's view. -/
def journalFields : List Fld := [Reg.XSPI_UPD_STATUS.PENDING, Reg.XSPI_UPD_STATUS.TRIAL, Reg.XSPI_UPD_STATUS.TRIAL_N]

/-- `t` is `a` but for the flash, the counters kept there, the fields that show the journal's view, and AVS_VID. -/
structure onlyRestores (a t : State) : Prop where
  rest : { t with fields := a.fields, nv := a.nv, outs := a.outs, aon := a.aon
                  mem := { t.mem with flash := a.mem.flash, erases := a.mem.erases } } = a
  get_eq : ∀ g : Fld, (∀ f ∈ journalFields, g.key ≠ f.key) → t.get g = a.get g

namespace onlyRestores

theorem refl (a : State) : onlyRestores a a := ⟨rfl, fun _ _ => rfl⟩

theorem trans {a b t : State} (h : onlyRestores a b) (k : onlyRestores b t) : onlyRestores a t where
  rest := by
    have rest := h.rest
    rw [← k.rest] at rest
    exact rest
  get_eq g other := (k.get_eq g other).trans (h.get_eq g other)

theorem onlyIf {s : State} (c : Bool) {k : State → State} (h : onlyRestores s (k s)) : onlyRestores s (s.onlyIf c k) :=
  State.onlyIf_keeps (P := onlyRestores s) s c k (refl s) fun _ => h

theorem foldl {β : Type} {f : State → β → State} (h : ∀ s e, onlyRestores s (f s e)) (l : List β) (s : State) :
    onlyRestores s (l.foldl f s) :=
  List.foldlRecOn (motive := onlyRestores s) l f (refl s) fun _ ht e _ => ht.trans (h _ e)

theorem set (s : State) {f : Fld} (hf : f ∈ journalFields) (v : Nat) : onlyRestores s (s.set f v) :=
  ⟨rfl, fun g other => State.get_set_other s f g v (other f hf)⟩

theorem flashWrite (s : State) (a : Nat) (bs : List Byte) : onlyRestores s (s.flashWrite a bs) := ⟨rfl, fun _ _ => rfl⟩

theorem flashErase (s : State) (a n : Nat) : onlyRestores s (s.flashErase a n) := ⟨rfl, fun _ _ => rfl⟩

theorem setNv (s : State) (n : NvState) : onlyRestores s { s with nv := n } := ⟨rfl, fun _ _ => rfl⟩

theorem frame {a t : State} (h : onlyRestores a t) : t.tick = a.tick ∧ t.pending = a.pending ∧ t.start = a.start ∧
    { t.mem with flash := a.mem.flash, erases := a.mem.erases } = a.mem := by
  have clock := congrArg State.tick h.rest
  have queue := congrArg State.pending h.rest
  have start := congrArg State.start h.rest
  have mem := congrArg State.mem h.rest
  exact ⟨clock, queue, start, mem⟩

end onlyRestores

theorem jAppend_onlyRestores (s : State) (r : JRec) : onlyRestores s (jAppend s r) := by
  unfold jAppend
  exact .onlyIf _ (.flashWrite ..)

theorem journalStart_onlyRestores (s : State) : onlyRestores s (journalStart s) := by
  have pending := onlyRestores.set s (f := Reg.XSPI_UPD_STATUS.PENDING) (by decide) (b2n (jView s).pending)
  have trial := pending.trans (.set _ (f := Reg.XSPI_UPD_STATUS.TRIAL) (by decide) (b2n (jView s).trial))
  have trialN := trial.trans (.set _ (f := Reg.XSPI_UPD_STATUS.TRIAL_N) (by decide) (jView s).trialN)
  unfold journalStart
  refine trialN.trans (.onlyIf _ ?_)
  exact (jAppend_onlyRestores ..).trans (.set _ (f := Reg.XSPI_UPD_STATUS.TRIAL_N) (by decide) _)

/-- A record of a counter is put into a block of FC_HWM. -/
def hwmPut (s : State) (b kind value : Nat) : State :=
  s.flashWrite (Region.FC_HWM + 65536 * b + 16 * hwmUsed s b) (hwmRecord kind value)

theorem hwmPut_onlyRestores (s : State) (b kind value : Nat) : onlyRestores s (hwmPut s b kind value) := .flashWrite ..

theorem hwmAppend_eq (s : State) (kind value : Nat) : hwmAppend s kind value =
    if hwmUsed s (hwmActive s) < 4096 then hwmPut s (hwmActive s) kind value
    else hwmPut (([1, 2, 3] : List Nat).foldl (fun t k => hwmPut t (1 - hwmActive s) k (nvValue t k))
      (s.flashErase (Region.FC_HWM + 65536 * (1 - hwmActive s)) 65536)) (1 - hwmActive s) kind value := rfl

theorem hwmAppend_onlyRestores (s : State) (kind value : Nat) : onlyRestores s (hwmAppend s kind value) := by
  rw [hwmAppend_eq]
  split
  · exact hwmPut_onlyRestores ..
  · refine (onlyRestores.flashErase s (Region.FC_HWM + 65536 * (1 - hwmActive s)) 65536).trans
      (onlyRestores.trans ?_ (hwmPut_onlyRestores ..))
    exact onlyRestores.foldl (fun _ _ => hwmPut_onlyRestores ..) _ _

theorem hwmRestore_onlyRestores (s : State) : onlyRestores s (hwmRestore s) :=
  (onlyRestores.setNv s {}).trans (.foldl (fun _ _ => (hwmAppend_onlyRestores ..).trans (.setNv ..)) _ _)

theorem avsTo_onlyRestores (s : State) (code : Nat) : onlyRestores s (avsTo s code) := by
  obtain ⟨l, h⟩ := avsTo_eq s code
  rw [h]
  exact ⟨rfl, fun _ _ => rfl⟩

/-! BOOT_ROM passes (R54, R59). -/

/-- What BOOT_ROM has found of LP4X and of the straps. -/
def trainedState (s : State) (gib herdId : Nat) : State :=
  ((s.setFlag Reg.DDRC_STATUS.TRAINED true).set Reg.DDRC_STATUS.SIZE_GIB (gib + 1)).setStart { s.start with herdId := herdId }

/-- A passed BOOT_ROM ends in LIFE_CYCLE_READ. -/
def bootRomPassed (s : State) (gib herdId : Nat) : State :=
  (avsTo (hwmRestore (journalStart (trainedState s gib herdId))) (Config.avsCode % 16)).setBoot Boot.LIFE_CYCLE_READ

theorem bootRomPassed_onlyRestores (s : State) (gib herdId : Nat) :
    onlyRestores (trainedState s gib herdId) (avsTo (hwmRestore (journalStart (trainedState s gib herdId))) (Config.avsCode % 16)) :=
  ((journalStart_onlyRestores _).trans (hwmRestore_onlyRestores _)).trans (avsTo_onlyRestores ..)

theorem bootRomPassed_get (s : State) (gib herdId : Nat) {g : Fld} (state : g.key ≠ Reg.SYS_BOOT_STATUS.STATE.key)
    (journal : ∀ f ∈ journalFields, g.key ≠ f.key) :
    (bootRomPassed s gib herdId).get g = (trainedState s gib herdId).get g :=
  (State.get_set_other _ Reg.SYS_BOOT_STATUS.STATE _ _ state).trans ((bootRomPassed_onlyRestores s gib herdId).get_eq g journal)

/-- BOOT_ROM that passes reports LP4X and its capacity. -/
theorem bootRomPassed_lp4x (s : State) {gib : Nat} (h : gib < 4) (herdId : Nat) :
    (bootRomPassed s gib herdId).flag Reg.DDRC_STATUS.TRAINED = true ∧
      (bootRomPassed s gib herdId).get Reg.DDRC_STATUS.SIZE_GIB = gib + 1 := by
  constructor
  · have trained := State.flag_setFlag_self s Reg.DDRC_STATUS.TRAINED true
    rw [← State.flag_set_other _ Reg.DDRC_STATUS.SIZE_GIB _ (gib + 1) (by decide)] at trained
    rw [State.flag, bootRomPassed_get _ _ _ (by decide) (by decide)]
    exact trained
  · have size := State.get_set_self (s.setFlag Reg.DDRC_STATUS.TRAINED true) Reg.DDRC_STATUS.SIZE_GIB (gib + 1)
    have fits : gib + 1 < 2 ^ Reg.DDRC_STATUS.SIZE_GIB.width := by
      rw [show Reg.DDRC_STATUS.SIZE_GIB.width = 3 from rfl]
      omega
    rw [Nat.mod_eq_of_lt fits] at size
    exact (bootRomPassed_get s gib herdId (g := Reg.DDRC_STATUS.SIZE_GIB) (by decide) (by decide)).trans size

/-- BOOT_ROM that passes leaves the clock, the queue of commands and every memory but the flash, and takes the straps. -/
theorem bootRomPassed_frame (s : State) (gib herdId : Nat) :
    (bootRomPassed s gib herdId).tick = s.tick ∧ (bootRomPassed s gib herdId).pending = s.pending ∧
      (bootRomPassed s gib herdId).start = { s.start with herdId := herdId } ∧
      { (bootRomPassed s gib herdId).mem with flash := s.mem.flash, erases := s.mem.erases } = s.mem := by
  obtain ⟨clock, queue, start, mem⟩ := (bootRomPassed_onlyRestores s gib herdId).frame
  unfold bootRomPassed State.setBoot
  simp only [State.set_frame, clock, queue, start]
  refine ⟨?_, ?_, ?_, mem⟩ <;> simp only [trainedState, State.setStart, State.set_frame, State.setFlag_frame]

/-! What LIFE_CYCLE_READ senses (R60, R524, R553, R555). -/

theorem otpLc_le (s : State) : otpLc s ≤ 5 := by
  unfold otpLc
  split
  next => omega
  next n last =>
    have mem := List.mem_of_getLast? last
    rw [List.mem_filter, List.mem_range] at mem
    omega

/-- What the OTP shows in the sensed fields. -/
def senseWrites (s : State) : List (Fld × Nat) :=
  [(Reg.KEYS_STATUS.LC, otpLc s), (Reg.KEYS_STATUS.UPDATE_LOCK, b2n (bit (s.otp 7) 0)),
    (Reg.KEYS_STATUS.CUR_VALID, b2n (currentGen s ownerGens).isSome), (Reg.KEYS_STATUS.CUR_GEN, (currentGen s ownerGens).getD 0),
    (Reg.KEYS_STATUS.NEXT_GEN, nextGen s ownerGens), (Reg.KEYS_STATUS.ARB_LEVEL, arbLevel s),
    (Reg.KEYS_STATUS.SET_VALID, b2n (currentGen s settingsGens).isSome), (Reg.KEYS_STATUS.SET_GEN, (currentGen s settingsGens).getD 0),
    (Reg.KEYS_DEVICE_ID.DEVICE_ID, s.otp 1), (Reg.KEYS_OTP_DATA.DATA, 0)]

theorem senseOtp_eq (s : State) : senseOtp s = s.setAll (senseWrites s) := rfl

/-- The fields of the Goose's settings. -/
def gooseFields : List Fld :=
  (List.range 9).flatMap fun n => [Reg.GOOSE_SRC.EN n, Reg.GOOSE_SRC.POL n, Reg.GOOSE_SRC.RESPONSE n, Reg.GOOSE_SRC.DEB n]

theorem gooseSettings_onlyRegs (s : State) : onlyRegs s (gooseSettings s) gooseFields := by
  refine List.foldlRecOn (motive := fun t => onlyRegs s t gooseFields) _ _ (onlyRegs_refl s _) fun t ht n hn =>
    onlyRegs_trans ht ?_
  have source {f : Fld} (hf : f ∈ [Reg.GOOSE_SRC.EN n, Reg.GOOSE_SRC.POL n, Reg.GOOSE_SRC.RESPONSE n, Reg.GOOSE_SRC.DEB n]) :
      f ∈ gooseFields := List.mem_flatMap.2 ⟨n, hn, hf⟩
  have written (en pol response deb : Nat) : onlyRegs t ((((t.set (Reg.GOOSE_SRC.EN n) en).set (Reg.GOOSE_SRC.POL n) pol).set
      (Reg.GOOSE_SRC.RESPONSE n) response).set (Reg.GOOSE_SRC.DEB n) deb) gooseFields :=
    onlyRegs_mono (State.setAll_onlyRegs t [(Reg.GOOSE_SRC.EN n, en), (Reg.GOOSE_SRC.POL n, pol),
      (Reg.GOOSE_SRC.RESPONSE n, response), (Reg.GOOSE_SRC.DEB n, deb)]) fun _ hf => source hf
  dsimp only
  split <;> exact written ..

/-- The OTP is sensed, and the life-cycle state is in force. -/
def otpSensed (s : State) : State :=
  ((senseOtp s).setKeys { s.keys with sensed := true, lc := otpLc s }).setFlag Reg.KEYS_STATUS.DEBUG (decide (otpLc s ≤ 1))

/-- The fields that sensing writes. -/
def senseFields : List Fld :=
  [Reg.KEYS_STATUS.LC, Reg.KEYS_STATUS.UPDATE_LOCK, Reg.KEYS_STATUS.CUR_VALID, Reg.KEYS_STATUS.CUR_GEN, Reg.KEYS_STATUS.NEXT_GEN,
    Reg.KEYS_STATUS.ARB_LEVEL, Reg.KEYS_STATUS.SET_VALID, Reg.KEYS_STATUS.SET_GEN, Reg.KEYS_DEVICE_ID.DEVICE_ID,
    Reg.KEYS_OTP_DATA.DATA]

theorem senseOtp_onlyRegs (s : State) : onlyRegs s (senseOtp s) senseFields := by
  rw [senseOtp_eq]
  exact State.setAll_onlyRegs s (senseWrites s)

theorem senseOtp_lc (s : State) : (senseOtp s).get Reg.KEYS_STATUS.LC = otpLc s := by
  have written : lastWritten (senseWrites s) Reg.KEYS_STATUS.LC = some (otpLc s) := by
    simp +decide [lastWritten, senseWrites]
  have fits : otpLc s < 2 ^ Reg.KEYS_STATUS.LC.width := Nat.lt_of_le_of_lt (otpLc_le s) (by decide)
  rw [senseOtp_eq, State.get_setAll_written s written, Nat.mod_eq_of_lt fits]

/-- The fields of the NONCE. -/
def nonceFields : List Fld := [Reg.KEYS_NONCE.NONCE 0, Reg.KEYS_NONCE.NONCE 1]

/-- `t` is `a` but for the register fields named and for how many free values have been drawn. -/
def onlyRegsDrawn (a t : State) (fs : List Fld) : Prop :=
  { t with fields := a.fields, freeCtr := a.freeCtr } = a ∧ ∀ g : Fld, (∀ f ∈ fs, g.key ≠ f.key) → t.get g = a.get g

theorem onlyRegsDrawn_trans {a b t : State} {fs gs : List Fld} (h : onlyRegsDrawn a b fs) (k : onlyRegs b t gs) :
    onlyRegsDrawn a t (fs ++ gs) := by
  obtain ⟨restB, fieldsB⟩ := h
  obtain ⟨restT, fieldsT⟩ := k
  refine ⟨?_, fun g other => (fieldsT g fun f hf => other f (List.mem_append_right _ hf)).trans
    (fieldsB g fun f hf => other f (List.mem_append_left _ hf))⟩
  rw [← restT] at restB
  exact restB

theorem onlyRegsDrawn_frame {a t : State} {fs : List Fld} (h : onlyRegsDrawn a t fs) :
    t.tick = a.tick ∧ t.pending = a.pending ∧ t.mem = a.mem ∧ t.keys = a.keys := by
  have clock := congrArg State.tick h.1
  have queue := congrArg State.pending h.1
  have mem := congrArg State.mem h.1
  have keys := congrArg State.keys h.1
  exact ⟨clock, queue, mem, keys⟩

theorem drawNonce_onlyRegsDrawn (s : State) : onlyRegsDrawn s (drawNonce s) nonceFields := by
  refine ⟨rfl, fun g other => ?_⟩
  have first := State.get_set_other s (Reg.KEYS_NONCE.NONCE 0) g s.free (other _ (by decide))
  have second := State.get_set_other (s.set (Reg.KEYS_NONCE.NONCE 0) s.free).drawn (Reg.KEYS_NONCE.NONCE 1) g s.drawn.free
    (other _ (by decide))
  exact second.trans first

/-- The state in which LIFE_CYCLE_READ decides how the start goes on. -/
def lifeCycleRead (s : State) : State := gooseSettings (drawNonce (otpSensed s))

section LifeCycleRead
variable (s : State)

theorem lifeCycleRead_onlyRegsDrawn : onlyRegsDrawn (otpSensed s) (lifeCycleRead s) (nonceFields ++ gooseFields) :=
  onlyRegsDrawn_trans (drawNonce_onlyRegsDrawn _) (gooseSettings_onlyRegs _)

theorem lifeCycleRead_get {g : Fld} (other : ∀ f ∈ nonceFields ++ gooseFields, g.key ≠ f.key) :
    (lifeCycleRead s).get g = (otpSensed s).get g := (lifeCycleRead_onlyRegsDrawn s).2 g other

theorem lifeCycleRead_get_other {g : Fld}
    (other : ∀ f ∈ Reg.KEYS_STATUS.DEBUG :: senseFields ++ (nonceFields ++ gooseFields), g.key ≠ f.key) :
    (lifeCycleRead s).get g = s.get g := by
  rw [lifeCycleRead_get s fun f hf => other f (List.mem_append_right _ hf), otpSensed, State.setFlag,
    State.get_set_other _ _ _ _ (other _ (by simp))]
  exact (senseOtp_onlyRegs s).2 g fun f hf => other f (List.mem_append_left _ (List.mem_cons_of_mem _ hf))

theorem lifeCycleRead_lc : (lifeCycleRead s).get Reg.KEYS_STATUS.LC = otpLc s := by
  rw [lifeCycleRead_get s (by decide), otpSensed, State.setFlag, State.get_set_other _ _ _ _ (by decide)]
  exact senseOtp_lc s

theorem lifeCycleRead_debug : (lifeCycleRead s).flag Reg.KEYS_STATUS.DEBUG = decide (otpLc s ≤ 1) := by
  rw [State.flag, lifeCycleRead_get s (by decide)]
  exact State.flag_setFlag_self _ Reg.KEYS_STATUS.DEBUG _

/-- Sensing changes no more than fields, what KEYS holds of the life cycle, and free values. -/
theorem lifeCycleRead_frame : (lifeCycleRead s).tick = s.tick ∧ (lifeCycleRead s).pending = s.pending ∧
    (lifeCycleRead s).mem = s.mem ∧ (lifeCycleRead s).keys = { s.keys with sensed := true, lc := otpLc s } := by
  obtain ⟨clock, queue, mem, keys⟩ := onlyRegsDrawn_frame (lifeCycleRead_onlyRegsDrawn s)
  obtain ⟨clockS, queueS, memS, -⟩ := onlyRegs_frame (senseOtp_onlyRegs s)
  simp only [otpSensed, State.setFlag_frame, State.setKeys] at clock queue mem keys
  exact ⟨clock.trans clockS, queue.trans queueS, mem.trans memS, keys⟩

end LifeCycleRead

/-! How the start goes on (R61, R629 to R632). -/

/-- The fields that the end of a state of the start writes: the boot state, and what a full EVENT FIFO shows. -/
def resumeFields : List Fld := [Reg.SYS_BOOT_STATUS.STATE, Reg.SYS_EVENT_STATUS.OVF, Reg.SYS_EVENT_LOST.LOST]

/-- `t` is `a` but for the boot state, what the journal resumes or records, and reports. -/
structure onlyResumes (a t : State) : Prop where
  rest : { t with fields := a.fields, counters := a.counters, events := a.events, q := a.q, upd := a.upd
                  mem := { t.mem with flash := a.mem.flash, erases := a.mem.erases } } = a
  get_eq : ∀ g : Fld, (∀ f ∈ resumeFields, g.key ≠ f.key) → t.get g = a.get g

namespace onlyResumes

theorem refl (a : State) : onlyResumes a a := ⟨rfl, fun _ _ => rfl⟩

theorem trans {a b t : State} (h : onlyResumes a b) (k : onlyResumes b t) : onlyResumes a t where
  rest := by
    have rest := h.rest
    rw [← k.rest] at rest
    exact rest
  get_eq g other := (k.get_eq g other).trans (h.get_eq g other)

theorem setBoot (s : State) (b : Nat) : onlyResumes s (s.setBoot b) :=
  ⟨rfl, fun g other => State.get_set_other s Reg.SYS_BOOT_STATUS.STATE g b (other _ (by decide))⟩

theorem setUpd (s : State) (u : UpdState) : onlyResumes s { s with upd := u } := ⟨rfl, fun _ _ => rfl⟩

theorem event (s : State) (code source arg : Nat) : onlyResumes s (s.event code source arg) where
  rest := by
    have rest := State.event_onlyReports s code source arg
    unfold onlyReports at rest
    generalize s.event code source arg = t at rest
    have all := congrArg
      (fun u : State => { u with upd := s.upd, mem := { u.mem with flash := s.mem.flash, erases := s.mem.erases } }) rest
    exact all
  get_eq g other := State.event_get_other s code source arg (other _ (by decide)) (other _ (by decide))

section
variable {a t : State} (h : onlyResumes a t)
include h

theorem frame : t.tick = a.tick ∧ t.pending = a.pending ∧ t.keys = a.keys ∧ t.mem.otp = a.mem.otp := by
  have clock := congrArg State.tick h.rest
  have queue := congrArg State.pending h.rest
  have keys := congrArg State.keys h.rest
  have otp := congrArg (fun u : State => u.mem.otp) h.rest
  exact ⟨clock, queue, keys, otp⟩

theorem flag_eq {g : Fld} (other : ∀ f ∈ resumeFields, g.key ≠ f.key) : t.flag g = a.flag g := by
  rw [State.flag, State.flag, h.get_eq g other]

end

end onlyResumes

theorem tamperHold_onlyResumes (s : State) : onlyResumes s (tamperHold s) :=
  (List.foldlRecOn (motive := onlyResumes s) _ tamperEvent (.refl s) fun _ ht _ _ => ht.trans (.event ..)).trans (.setBoot ..)

theorem jAppend_onlyResumes (s : State) (r : JRec) : onlyResumes s (jAppend s r) := by
  unfold jAppend
  exact State.onlyIf_keeps (P := onlyResumes s) s _ _ (.refl s) fun _ => ⟨rfl, fun _ _ => rfl⟩

theorem startRevert_onlyResumes (s : State) (cause : Nat) : onlyResumes s (startRevert s cause) := by
  unfold startRevert swapBegin
  exact (((onlyResumes.setUpd s _).trans (jAppend_onlyResumes ..)).trans (.setUpd ..)).trans (.setBoot ..)

theorem resumeUpdate_onlyResumes (s : State) : onlyResumes s (resumeUpdate s) := by
  unfold resumeUpdate
  dsimp only
  split
  next => exact (onlyResumes.setUpd s _).trans (.setBoot ..)
  next =>
    split_ifs
    · exact startRevert_onlyResumes ..
    · exact (onlyResumes.setBoot s _).trans (.setUpd ..)
    · exact .setBoot ..

theorem transition_onlyResumes (s : State) {next : State → State} (h : onlyResumes s (next s)) : onlyResumes s (transition s next) := by
  unfold transition
  split
  · exact tamperHold_onlyResumes s
  · exact h

/-- Where nothing is latched, a transition is not held. -/
theorem gooseHolds_of_no_latch {s : State} (h : s.get Reg.GOOSE_STATUS.LATCH = 0) : gooseHolds s = false := by
  rw [gooseHolds, List.any_eq_false]
  intro n _
  rw [gooseLatched, h, bit, Nat.zero_div]
  exact Bool.false_ne_true

theorem jView_congr {s t : State} (h : t.mem.flash = s.mem.flash) : jView t = jView s := by
  unfold jView jRecords jUsed jOctets State.flash
  rw [h]

/-- With nothing to resume, the start goes on to IMAGE_VERIFY. -/
theorem resumeUpdate_of_none {s : State} (swap : (jView s).swap.isNone = true) (trial : (jView s).trial = false)
    (commit : (jView s).commit = false) : resumeUpdate s = s.setBoot Boot.IMAGE_VERIFY := by
  unfold resumeUpdate
  dsimp only
  rw [Option.isNone_iff_eq_none.1 swap, trial, commit]
  simp

/-! The statement. -/

theorem lifeCycleReadDone_completes {s r : State} {dt : Nat} {post : State → Prop} (power : powered s = true)
    (boot : s.boot = Boot.LIFE_CYCLE_READ) (first : s.keys.sensed = false)
    (effect : (if otpLc s = 0 ∨ otpLc s = 5 then lifeCycleRead (s.advance dt)
      else transition (lifeCycleRead (s.advance dt)) resumeUpdate) = r)
    (clock : r.tick = s.tick + dt) (queue : r.pending = s.pending) (hp : post r) : completes (.lifeCycleReadDone dt) s post := by
  have acts : (powered (s.advance dt) && decide ((s.advance dt).boot = Boot.LIFE_CYCLE_READ) && !(s.advance dt).keys.sensed) = true := by
    rw [show powered (s.advance dt) = true from power, show (s.advance dt).boot = Boot.LIFE_CYCLE_READ from boot,
      show (s.advance dt).keys.sensed = false from first]
    rfl
  exact completes_of_whenever
    (c := fun s => powered s && decide (s.boot = Boot.LIFE_CYCLE_READ) && !s.keys.sensed) rfl acts effect clock queue hp

/-- BOOT_ROM_DONE in BOOT_ROM, by what the self-test and the training found. -/
theorem bootRomDone_completes {s r : State} {dt : Nat} {selfTest : Option (Fin 3)} {trained : Bool} {gib : Fin 4} {herdId : Fin 8}
    {post : State → Prop} (power : powered s = true) (boot : s.boot = Boot.BOOT_ROM)
    (effect : (match selfTest with
      | some k => enterSafe (s.advance dt) 0x0C 0 (k.val + 1)
      | none =>
        if !trained then (s.advance dt).setBoot Boot.SAFE
        else if !bootHdrOk (s.advance dt) then enterSafe (s.advance dt) 0x0E 0 1
        else bootRomPassed (s.advance dt) gib.val herdId.val) = r)
    (clock : r.tick = s.tick + dt) (queue : r.pending = s.pending) (hp : post r) :
    completes (.bootRomDone dt selfTest trained gib herdId) s post := by
  have acts : (powered (s.advance dt) && decide ((s.advance dt).boot = Boot.BOOT_ROM)) = true := by
    rw [show powered (s.advance dt) = true from power, show (s.advance dt).boot = Boot.BOOT_ROM from boot]
    rfl
  refine completes_of_whenever (c := fun s => powered s && decide (s.boot = Boot.BOOT_ROM)) rfl acts ?_ clock queue hp
  rw [← effect]
  cases selfTest <;> rfl

theorem refclkQualified_completes {s : State} {dt : Nat} {post : State → Prop} (power : powered s = true)
    (boot : s.boot = Boot.AON_ONLY)
    (hp : post (({ s.advance dt with time := { (s.advance dt).time with running := true } } : State).setBoot Boot.BOOT_ROM)) :
    completes (.refclkQualified dt) s post := by
  have acts : (powered (s.advance dt) && decide ((s.advance dt).boot = Boot.AON_ONLY)) = true := by
    rw [show powered (s.advance dt) = true from power, show (s.advance dt).boot = Boot.AON_ONLY from boot]
    rfl
  exact completes_of_whenever (c := fun s => powered s && decide (s.boot = Boot.AON_ONLY)) rfl acts rfl rfl rfl hp

/-- Settles O16: each of the three states ends by its own command, in the state that what it found leads to. -/
theorem startStates : Obligations.StartStates := by
  intro s dt gib herdId k trained power
  refine ⟨fun boot => ?_, fun boot safe => ?_, fun boot => ?_, fun boot header => ?_, fun boot first => ?_⟩
  · obtain ⟨rest, fields⟩ := State.setBoot_onlyRegs (s.advance dt) Boot.BOOT_ROM
    exact refclkQualified_completes power boot ⟨State.boot_setBoot _ (by decide), rfl, rfl, fields⟩
  · have notSafe : (s.advance dt).boot ≠ Boot.SAFE := by rw [show (s.advance dt).boot = Boot.BOOT_ROM from boot]; decide
    have notRun : (s.advance dt).boot ≠ Boot.RUN := by rw [show (s.advance dt).boot = Boot.BOOT_ROM from boot]; decide
    obtain ⟨ended, mech, shown⟩ := enterSafe_of_start (s := s.advance dt) 0x0C 0 (k.val + 1) safe notSafe notRun
    obtain ⟨clock, queue, mem⟩ := enterSafe_frame_of_start (s := s.advance dt) 0x0C 0 (k.val + 1) safe notSafe notRun
    exact bootRomDone_completes power boot rfl clock queue ⟨ended, mech, shown, mem⟩
  · exact bootRomDone_completes power boot rfl rfl rfl ⟨State.boot_setBoot _ (by decide), State.setBoot_onlyRegs (s.advance dt) _⟩
  · have effect : (if !true then (s.advance dt).setBoot Boot.SAFE
        else if !bootHdrOk (s.advance dt) then enterSafe (s.advance dt) 0x0E 0 1
        else bootRomPassed (s.advance dt) gib.val herdId.val) = bootRomPassed (s.advance dt) gib.val herdId.val := by
      rw [show bootHdrOk (s.advance dt) = true from header]
      rfl
    obtain ⟨shown, capacity⟩ := bootRomPassed_lp4x (s.advance dt) gib.isLt herdId.val
    obtain ⟨clock, queue, start, mem⟩ := bootRomPassed_frame (s.advance dt) gib.val herdId.val
    exact bootRomDone_completes power boot effect clock queue ⟨State.boot_setBoot _ (by decide), shown, capacity, start, mem⟩
  · obtain ⟨clock, queue, mem, keys⟩ := lifeCycleRead_frame (s.advance dt)
    have lc := lifeCycleRead_lc (s.advance dt)
    have debug := lifeCycleRead_debug (s.advance dt)
    have state := lifeCycleRead_get_other (s.advance dt) (g := Reg.SYS_BOOT_STATUS.STATE) (by decide)
    by_cases halts : otpLc s = 0 ∨ otpLc s = 5
    · refine lifeCycleReadDone_completes power boot first (if_pos halts) clock queue
        ⟨congrArg KeysState.sensed keys, congrArg KeysState.lc keys, lc, debug, congrArg Memories.otp mem,
          fun _ => ⟨state.trans boot, mem⟩, fun blank ended => ?_⟩
      exact absurd halts (not_or.2 ⟨blank, ended⟩)
    · have resumes := transition_onlyResumes (lifeCycleRead (s.advance dt)) (resumeUpdate_onlyResumes _)
      obtain ⟨clockR, queueR, keysR, otpR⟩ := resumes.frame
      refine lifeCycleReadDone_completes power boot first (if_neg halts) (clockR.trans clock) (queueR.trans queue)
        ⟨congrArg KeysState.sensed (keysR.trans keys), congrArg KeysState.lc (keysR.trans keys),
          (resumes.get_eq _ (by decide)).trans lc,
          (resumes.flag_eq (by decide)).trans debug, otpR.trans (congrArg Memories.otp mem),
          fun ends => absurd ends halts, fun _ _ latch swap trial commit => ?_⟩
      have unlatched := (lifeCycleRead_get_other (s.advance dt) (g := Reg.GOOSE_STATUS.LATCH) (by decide)).trans latch
      have view : jView (lifeCycleRead (s.advance dt)) = jView s := jView_congr (congrArg Memories.flash mem)
      rw [← view] at swap trial commit
      rw [transition, gooseHolds_of_no_latch unlatched, if_neg Bool.false_ne_true, resumeUpdate_of_none swap trial commit]
      exact State.boot_setBoot _ (by decide)

end Sys2Proof.Machine
end

section
/-!
SUPPORT. Verification of CONFIG and admission (R71, R73, R78): what a refusal reports, what a passed image goes on to, and what the
loading of the tables leaves. Then the statement about them.
-/

namespace Sys2Proof.Machine

/-! A refusal (R48, R78). -/

/-- What a report of a breach leaves in SYS_BOOT_STATUS. -/
def breachWrites (b : Breach) : List (Fld × Nat) :=
  [(Reg.SYS_BOOT_STATUS.REASON, b.code), (Reg.SYS_BOOT_STATUS.SECTION, b.sect), (Reg.SYS_BOOT_STATUS.ITEM, b.item),
    (Reg.SYS_BOOT_STATUS.ITEM_HI, b2n (bit b.item 16))]

/-- The argument of CONFIG_REFUSED (R76). -/
def breachArg (b : Breach) (staged : Bool) : Nat :=
  at' b.code 16 32 + at' b.sect 8 24 + at' (b2n staged) 1 23 + at' (b2n (bit b.item 16)) 1 16 + at' b.item 16 0

theorem reportBreach_eq (s : State) (b : Breach) (staged : Bool) :
    reportBreach s b staged = (s.setAll (breachWrites b)).event Ev.CONFIG_REFUSED Block.SYS (breachArg b staged) := rfl

/-- An event changes no more than register fields, counters and the FIFO. -/
theorem State.event_frame (s : State) (code source arg : Nat) :
    { s.event code source arg with fields := s.fields, counters := s.counters, events := s.events } = s := by
  rw [State.event_eq, State.onlyIf]
  split
  · obtain joins | ⟨-, lost⟩ := State.recordEvent_cases (s.count code)
      { code := code, source := source, arg := arg % 2 ^ 48, time := (s.count code).time.ns }
    · rw [joins]
      simp only [State.count_frame]
    · rw [lost]
      simp only [State.bump_frame, State.setFlag_frame, State.count_frame]
  · simp only [State.count_frame]

section Refuse
variable (s : State) (b : Breach)

theorem refuseConfig_boot : (refuseConfig s b).boot = Boot.CONFIG_REFUSED := State.boot_setBoot _ (by decide)

/-- A refusal leaves the written fields of SYS_BOOT_STATUS but for the boot state. -/
theorem refuseConfig_get {f : Fld} {v : Nat} (written : lastWritten (breachWrites b) f = some v)
    (state : f.key ≠ Reg.SYS_BOOT_STATUS.STATE.key) (ovf : f.key ≠ Reg.SYS_EVENT_STATUS.OVF.key)
    (lost : f.key ≠ Reg.SYS_EVENT_LOST.LOST.key) : (refuseConfig s b).get f = v % 2 ^ f.width := by
  rw [refuseConfig, State.setBoot, State.get_set_other _ _ _ _ state, reportBreach_eq, State.event_get_other _ _ _ _ ovf lost]
  exact State.get_setAll_written s written

theorem refuseConfig_reason : (refuseConfig s b).get Reg.SYS_BOOT_STATUS.REASON = b.code % 2 ^ 16 :=
  refuseConfig_get s b (f := Reg.SYS_BOOT_STATUS.REASON) (by simp +decide [lastWritten, breachWrites]) (by decide) (by decide)
    (by decide)

theorem refuseConfig_section : (refuseConfig s b).get Reg.SYS_BOOT_STATUS.SECTION = b.sect % 2 ^ 8 :=
  refuseConfig_get s b (f := Reg.SYS_BOOT_STATUS.SECTION) (by simp +decide [lastWritten, breachWrites]) (by decide) (by decide)
    (by decide)

theorem refuseConfig_item : (refuseConfig s b).get Reg.SYS_BOOT_STATUS.ITEM = b.item % 2 ^ 16 :=
  refuseConfig_get s b (f := Reg.SYS_BOOT_STATUS.ITEM) (by simp +decide [lastWritten, breachWrites]) (by decide) (by decide)
    (by decide)

/-- A refusal changes no more than register fields, counters and the FIFO. -/
theorem refuseConfig_frame :
    { refuseConfig s b with fields := s.fields, counters := s.counters, events := s.events } = s := by
  have reported := State.event_frame (s.setAll (breachWrites b)) Ev.CONFIG_REFUSED Block.SYS (breachArg b false)
  have written := (State.setAll_onlyRegs s (breachWrites b)).1
  rw [← reported] at written
  exact written

theorem refuseConfig_clock : (refuseConfig s b).tick = s.tick ∧ (refuseConfig s b).pending = s.pending := by
  have rest := refuseConfig_frame s b
  generalize refuseConfig s b = t at rest
  have clock := congrArg State.tick rest
  have queue := congrArg State.pending rest
  exact ⟨clock, queue⟩

end Refuse

/-! What the states of a start from IMAGE_VERIFY to ADMIT leave. -/

/-- The clock, the queue of commands, the image in force and the flash. -/
def startFrame (s : State) : Nat × List Instr × Nat × List Host.Cell := (s.tick, s.pending, s.start.image, s.mem.flash)

section StartFrame
variable (s : State)

@[simp] theorem startFrame_set (f : Fld) (v : Nat) : startFrame (s.set f v) = startFrame s := rfl
@[simp] theorem startFrame_setFlag (f : Fld) (b : Bool) : startFrame (s.setFlag f b) = startFrame s := rfl
@[simp] theorem startFrame_setBit (f : Fld) (n : Nat) : startFrame (s.setBit f n) = startFrame s := rfl
@[simp] theorem startFrame_setBoot (b : Nat) : startFrame (s.setBoot b) = startFrame s := rfl
@[simp] theorem startFrame_setTables (x : TableState) : startFrame (s.setTables x) = startFrame s := rfl
@[simp] theorem startFrame_setCrypto (x : CryptoState) : startFrame (s.setCrypto x) = startFrame s := rfl
@[simp] theorem startFrame_setKeys (x : KeysState) : startFrame (s.setKeys x) = startFrame s := rfl

theorem startFrame_onlyIf (c : Bool) {k : State → State} (h : ∀ s, startFrame (k s) = startFrame s) :
    startFrame (s.onlyIf c k) = startFrame s :=
  State.onlyIf_keeps (P := fun t => startFrame t = startFrame s) s c k rfl fun _ => h s

theorem startFrame_event (code source arg : Nat) : startFrame (s.event code source arg) = startFrame s := by
  have rest := State.event_frame s code source arg
  generalize s.event code source arg = t at rest
  have kept := congrArg startFrame rest
  exact kept

theorem startFrame_slotPut (n origin size : Nat) (exportable : Bool) (usage : Nat) (key : List Byte) :
    startFrame (slotPut s n origin size exportable usage key) = startFrame s := by
  simp only [slotPut, startFrame_set, startFrame_setFlag, startFrame_setCrypto]

theorem startFrame_slotClear (n : Nat) : startFrame (slotClear s n) = startFrame s := by
  simp only [slotClear, startFrame_set, startFrame_setFlag, startFrame_setCrypto]

theorem startFrame_runLadder : startFrame (runLadder s) = startFrame s := by
  unfold runLadder
  dsimp only
  simp only [startFrame_setFlag, startFrame_setKeys]
  rw [foldl_leaves startFrame (fun _ _ => startFrame_set ..), foldl_leaves startFrame fun _ _ => startFrame_slotClear ..]
  simp only [startFrame_slotPut]

theorem startFrame_tamperHold : startFrame (tamperHold s) = startFrame s := by
  rw [tamperHold, startFrame_set, tamperEvents]
  exact foldl_leaves startFrame (fun _ _ => startFrame_event ..) _ s

end StartFrame

/-! A verified image (R71, R540, R596). -/

/-- What an image that passes leaves before the start goes on: its measurement, its core images and the Sheepdog's TCM. -/
def imageTaken (s : State) : State :=
  let s := s.setKeys { s.keys with meas := measOf s s.start.image }
  let s := s.setStart { s.start with cores := coresOf s s.start.image, secVer := leNat (s.flash (s.start.image + 0x21) 1) }
  loadTcm s s.start.image

theorem startFrame_tcmWrite (s : State) (a : Nat) (bs : List Byte) : startFrame (s.tcmWrite a bs) = startFrame s := rfl

theorem loadTcm_frame (s : State) (base : Nat) : (loadTcm s base).fields = s.fields ∧ startFrame (loadTcm s base) = startFrame s := by
  unfold loadTcm
  dsimp only
  split
  next => exact ⟨rfl, rfl⟩
  next => exact ⟨by simp only [State.tcmWrite_frame], startFrame_tcmWrite ..⟩

theorem imageTaken_frame (s : State) : (imageTaken s).fields = s.fields ∧ startFrame (imageTaken s) = startFrame s := by
  unfold imageTaken
  exact loadTcm_frame ..

/-- The clock, the queue of commands, the image in force and the flash, one by one. -/
theorem startFrame_iff {s t : State} : startFrame t = startFrame s ↔
    t.tick = s.tick ∧ t.pending = s.pending ∧ t.start.image = s.start.image ∧ t.mem.flash = s.mem.flash := by
  simp only [startFrame, Prod.mk.injEq]

theorem stagedImage_congr {s t : State} (h : startFrame t = startFrame s) : stagedImage t = stagedImage s := by
  obtain ⟨-, -, image, -⟩ := startFrame_iff.1 h
  rw [stagedImage, stagedImage, image]

theorem State.get_congr {s t : State} (h : t.fields = s.fields) (g : Fld) : t.get g = s.get g := by rw [State.get, State.get, h]

theorem gooseHolds_congr {s t : State} (h : t.fields = s.fields) : gooseHolds t = gooseHolds s := by
  unfold gooseHolds
  congr 1
  funext n
  rw [gooseLatched, gooseLatched, gooseResponse, gooseResponse, State.get_congr h, State.get_congr h]

/-- An image that is not staged needs no migration. -/
theorem migrateFrom_of_not_staged {s : State} (h : stagedImage s = false) : migrateFrom s = none := by
  rw [migrateFrom, h, if_neg]
  simp

theorem afterCopy_of_not_staged {s : State} (h : stagedImage s = false) : afterCopy s = enterAdmit (imageTaken s) := by
  have none := migrateFrom_of_not_staged ((stagedImage_congr (imageTaken_frame s).2).trans h)
  unfold afterCopy
  unfold imageTaken at none ⊢
  dsimp only at none ⊢
  rw [none]

/-! Entry to ADMIT (R61, R596). -/

/-- The end of the entry to ADMIT, where nothing holds it. -/
def admitEntered (s : State) : State :=
  let s := (runLadder s).setBoot Boot.ADMIT
  match coreEntry s 4 with
  | none => s
  | some e => s.emit (.coreStart 4 e)

theorem emit_coreStart (s : State) (c e : Nat) :
    startFrame (s.emit (.coreStart c e)) = startFrame s ∧ (s.emit (.coreStart c e)).boot = s.boot := ⟨rfl, rfl⟩

theorem admitEntered_frame (s : State) : startFrame (admitEntered s) = startFrame s ∧ (admitEntered s).boot = Boot.ADMIT := by
  have frame := (startFrame_setBoot (runLadder s) Boot.ADMIT).trans (startFrame_runLadder s)
  have boot := State.boot_setBoot (runLadder s) (b := Boot.ADMIT) (by decide)
  unfold admitEntered
  dsimp only
  split
  next => exact ⟨frame, boot⟩
  next c _ =>
    obtain ⟨frameE, bootE⟩ := emit_coreStart ((runLadder s).setBoot Boot.ADMIT) 4 c
    exact ⟨frameE.trans frame, bootE.trans boot⟩

theorem enterAdmit_frame (s : State) : startFrame (enterAdmit s) = startFrame s ∧
    (enterAdmit s).boot = if gooseHolds s then Boot.TAMPER_HOLD else Boot.ADMIT := by
  have eq : enterAdmit s = if gooseHolds s then tamperHold s else admitEntered s := rfl
  rw [eq]
  split
  · exact ⟨startFrame_tamperHold s, State.boot_setBoot _ (by decide)⟩
  · exact admitEntered_frame s

/-! Loading the tables (R73). -/

section Loads
variable (p : List Byte) (s : State)

theorem startFrame_loadOpt (im : Sections) (t : Nat) {load : List Byte → State → State} (h : ∀ p s, startFrame (load p s) = startFrame s) :
    startFrame (loadOpt im t load s) = startFrame s := by
  unfold loadOpt
  split
  next => rfl
  next => exact h ..

/-- A fold each of whose steps leaves the frame leaves it. -/
theorem startFrame_foldl {β : Type} {f : State → β → State} (h : ∀ s e, startFrame (f s e) = startFrame s) (l : List β) :
    startFrame (l.foldl f s) = startFrame s := foldl_leaves startFrame h l s

theorem startFrame_profileLoad : startFrame (profileLoad p s) = startFrame s := by
  have health (s : State) (x : HealthState) : startFrame { s with health := x } = startFrame s := rfl
  simp only [profileLoad, startFrame_set, startFrame_setFlag, health]

theorem startFrame_feLoad (i : Nat) : startFrame (feLoad p s i) = startFrame s := by
  have enable (s : State) (n : Nat) : startFrame { s with start := { s.start with enable := n } } = startFrame s := rfl
  unfold feLoad
  dsimp only
  rw [startFrame_setFlag, enable, startFrame_onlyIf _ _ fun _ => startFrame_set ..]
  simp only [startFrame_set, startFrame_setFlag]

theorem startFrame_setFe (fe : Nat) (x : FrontEnd) : startFrame (s.setFe fe x) = startFrame s := by
  unfold State.setFe
  split_ifs <;> rfl

theorem startFrame_txloLoad (fe : Nat) : startFrame (txloLoad p s fe) = startFrame s := by
  unfold txloLoad
  dsimp only
  rw [startFrame_foldl _ fun _ _ => by simp only [startFrame_set], startFrame_setFe]

theorem startFrame_binsLoad (fe : Nat) : startFrame (binsLoad s fe) = startFrame s :=
  startFrame_foldl _ (fun _ _ => startFrame_onlyIf _ _ fun _ => startFrame_setBit ..) _

theorem startFrame_radioLoad : startFrame (radioLoad p s) = startFrame s := by
  have start (s : State) : startFrame { s with start := { s.start with enable := 0 } } = startFrame s := rfl
  have hear (s : State) (x : Hearing) : startFrame { s with hear := x } = startFrame s := rfl
  unfold radioLoad
  dsimp only
  rw [startFrame_setFlag, startFrame_foldl _ fun _ _ => startFrame_binsLoad .., startFrame_foldl _ fun _ _ => by
    simp only [startFrame_set, startFrame_setFlag], startFrame_foldl _ fun _ _ => startFrame_txloLoad .., hear,
    startFrame_foldl _ fun _ _ => startFrame_feLoad .., start]

theorem startFrame_scheduleLoad : startFrame (scheduleLoad p s) = startFrame s := by
  unfold scheduleLoad
  dsimp only
  rw [startFrame_setTables, startFrame_foldl _ fun _ _ => by simp only [startFrame_set], startFrame_foldl _ fun _ _ => by
    simp only [startFrame_set, startFrame_setFlag], startFrame_foldl _ fun _ _ => by simp only [startFrame_set, startFrame_setFlag]]
  simp only [startFrame_set, startFrame_setFlag]

theorem startFrame_tenantsLoad : startFrame (tenantsLoad p s) = startFrame s := by
  have sched (s : State) (x : SchedState) : startFrame { s with sched := x } = startFrame s := rfl
  unfold tenantsLoad
  dsimp only
  rw [startFrame_foldl _ fun _ _ => startFrame_set .., sched]

theorem startFrame_shapersLoad : startFrame (shapersLoad p s) = startFrame s := by
  unfold shapersLoad
  dsimp only
  rw [startFrame_foldl _ fun _ _ => by simp only [startFrame_set, startFrame_setFlag], startFrame_foldl _ fun _ _ => by
    simp only [startFrame_set], startFrame_foldl _ fun _ _ => by simp only [startFrame_set], startFrame_set]

theorem startFrame_policersLoad : startFrame (policersLoad p s) = startFrame s := by
  unfold policersLoad
  dsimp only
  rw [startFrame_foldl _ fun _ _ => by simp only [startFrame_set, startFrame_setFlag], startFrame_foldl _ fun _ _ => by
    simp only [startFrame_set, startFrame_setFlag]]

theorem startFrame_setTrie (i v : Nat) : startFrame (setTrie s i v) = startFrame s := startFrame_setTables ..

theorem startFrame_prefixesLoad : startFrame (prefixesLoad p s) = startFrame s := by
  unfold prefixesLoad
  dsimp only
  rw [startFrame_setTables, startFrame_foldl _ fun _ _ => by simp only [startFrame_set, startFrame_setFlag],
    startFrame_foldl _ fun _ _ => startFrame_foldl _ (fun _ _ => startFrame_foldl _ (fun _ _ => startFrame_setTrie ..) _) _,
    startFrame_foldl _ fun _ _ => startFrame_setTrie .., startFrame_foldl _ fun _ _ => startFrame_setTrie ..]

theorem startFrame_herdLoad : startFrame (herdLoad p s) = startFrame s := by
  unfold herdLoad
  dsimp only
  rw [startFrame_setFlag, startFrame_setFlag]
  split
  · simp only [startFrame_set, startFrame_setFlag]
  · simp only [startFrame_set, startFrame_setFlag]

theorem startFrame_pairLoad : startFrame (pairLoad p s) = startFrame s := by
  have lease (s : State) (x : LeaseState) : startFrame { s with lease := x } = startFrame s := rfl
  simp only [pairLoad, startFrame_set, startFrame_setFlag, lease]

theorem startFrame_safetyLoad : startFrame (safetyLoad p s) = startFrame s := by
  unfold safetyLoad
  dsimp only
  rw [startFrame_setFlag, startFrame_foldl _ fun _ _ => by simp only [startFrame_set, startFrame_setFlag, startFrame_setBit]]
  simp only [startFrame_set]

theorem startFrame_icuLoad : startFrame (icuLoad p s) = startFrame s := by
  unfold icuLoad
  dsimp only
  rw [startFrame_setFlag, startFrame_foldl _ fun _ _ => by
    rw [startFrame_onlyIf _ _ fun _ => startFrame_setBit ..]
    simp only [startFrame_set, startFrame_setFlag], startFrame_set]

theorem startFrame_coresLoad : startFrame (coresLoad p s) = startFrame s := by
  refine startFrame_foldl s (fun s r => ?_) _
  dsimp only
  split <;> simp only [startFrame_set, startFrame_setFlag]

theorem startFrame_timeLoad : startFrame (timeLoad p s) = startFrame s := by
  unfold timeLoad
  dsimp only
  rw [startFrame_setFlag, startFrame_foldl _ fun _ _ => by simp only [startFrame_set, startFrame_setFlag], startFrame_foldl _ fun _ _ => by
    simp only [startFrame_set]]
  simp only [startFrame_set, startFrame_setFlag]

theorem startFrame_loadTraffic (im : Sections) : startFrame (loadTraffic im s) = startFrame s := by
  unfold loadTraffic
  dsimp only
  rw [startFrame_loadOpt _ _ _ startFrame_prefixesLoad, startFrame_loadOpt _ _ _ startFrame_policersLoad,
    startFrame_loadOpt _ _ _ startFrame_shapersLoad, startFrame_tenantsLoad, startFrame_loadOpt _ _ _ startFrame_scheduleLoad,
    startFrame_radioLoad, startFrame_profileLoad]

theorem startFrame_loadTables (im : Sections) : startFrame (loadTables im s) = startFrame s := by
  unfold loadTables
  dsimp only
  rw [startFrame_timeLoad, startFrame_coresLoad, startFrame_icuLoad, startFrame_safetyLoad,
    startFrame_loadOpt _ _ _ startFrame_pairLoad, startFrame_herdLoad, startFrame_loadTraffic]

theorem startFrame_gkPut (i tenant index : Nat) (service : Bool) (key : List Byte) :
    startFrame (gkPut s i tenant index service key) = startFrame s := by
  simp only [gkPut, startFrame_set, startFrame_setFlag, startFrame_setCrypto]

theorem startFrame_gkActivate (i : Nat) : startFrame (gkActivate s i) = startFrame s := by
  unfold gkActivate
  dsimp only
  rw [startFrame_setFlag]
  split
  · exact startFrame_setFlag ..
  · rfl

theorem startFrame_keysLoad : startFrame (keysLoad p s) = startFrame s := by
  unfold keysLoad
  dsimp only
  rw [startFrame_foldl _ fun _ _ => by rw [startFrame_onlyIf _ _ fun _ => startFrame_gkActivate .., startFrame_gkPut], startFrame_set]

end Loads

/-! ADMIT passes (R73). -/

/-- The LOCK bits that ADMIT sets for the blocks that no single section owns. -/
def lockWrites : List (Fld × Nat) :=
  ([Block.CRYPTO, Block.OX, Block.MAC, Block.FWD, Block.SCHED, Block.QMGR, Block.PERF] : List Nat).map fun b => (Reg.LOCK b, 1)

theorem lockBlocks_eq (s : State) : lockBlocks s = s.setAll lockWrites := rfl

theorem lockBlocks_locks (s : State) : ∀ f ∈ lockWrites.map Prod.fst, (lockBlocks s).flag f = true := by
  intro f hf
  have last : ∀ f ∈ lockWrites.map Prod.fst, lastWritten lockWrites f = some 1 ∧ f.width = 1 := by decide
  obtain ⟨written, width⟩ := last f hf
  rw [lockBlocks_eq, State.flag, State.get_setAll_written s written, width]
  rfl

theorem startFrame_lockBlocks (s : State) : startFrame (lockBlocks s) = startFrame s :=
  startFrame_foldl s (fun _ _ => startFrame_setFlag ..) _

/-- The tables are loaded and locked, and the phases of CALIBRATE stand at their first. -/
def admitted (im : Sections) (t : State) : State :=
  let s := lockBlocks (loadOpt im 8 keysLoad t)
  let s := { s with loaded := im.map Prod.fst }
  s.setStart { s.start with waiveFirst := bit (field (sectOr im 0xE) 0 1) 1, calPhase := 0 }

section Admitted
variable (im : Sections) (t : State)

theorem startFrame_admitted : startFrame (admitted im t) = startFrame t := by
  have locked : startFrame (lockBlocks (loadOpt im 8 keysLoad t)) = startFrame t := by
    rw [startFrame_lockBlocks, startFrame_loadOpt t im 8 startFrame_keysLoad]
  unfold admitted
  generalize lockBlocks (loadOpt im 8 keysLoad t) = u at locked
  exact locked

theorem admitted_get (g : Fld) : (admitted im t).get g = (lockBlocks (loadOpt im 8 keysLoad t)).get g := by
  unfold admitted
  generalize lockBlocks (loadOpt im 8 keysLoad t) = u
  rfl

/-- Which image it is that stands in force, and the master's replication. -/
def sourceShown (s : State) : State :=
  let s := s.setFlag Reg.SYS_BOOT_STATUS.CFG_SRC (stagedImage s)
  s.onlyIf s.isMaster fun s => s.setFlag Reg.HERD_STATUS.REPL_SYNC true

theorem sourceShown_onlyRegs (s : State) :
    onlyRegs s (sourceShown s) [Reg.SYS_BOOT_STATUS.CFG_SRC, Reg.HERD_STATUS.REPL_SYNC] :=
  onlyRegs_trans (State.set_onlyRegs s (by decide) _)
    (State.onlyIf_keeps (P := fun t => onlyRegs _ t _) _ _ _ (onlyRegs_refl _ _) fun _ => State.set_onlyRegs _ (by decide) _)

theorem sourceShown_source (s : State) : (sourceShown s).flag Reg.SYS_BOOT_STATUS.CFG_SRC = stagedImage s :=
  State.onlyIf_keeps (P := fun t => t.flag Reg.SYS_BOOT_STATUS.CFG_SRC = stagedImage s) _ _ _ (State.flag_setFlag_self ..) fun h =>
    (State.flag_setFlag_other _ _ _ _ (by decide)).trans h

theorem onlyRegs_start {a t : State} {fs : List Fld} (h : onlyRegs a t fs) : t.start = a.start ∧ t.loaded = a.loaded := by
  have start := congrArg State.start h.1
  have loaded := congrArg State.loaded h.1
  exact ⟨start, loaded⟩

/-- The check value of the protected words is taken, and CALIBRATE begins. -/
def calibrateEntered (s : State) : State :=
  let s := { s with safe := { s.safe with scrubCrc := scrubCrc s } }
  s.setBoot Boot.CALIBRATE

theorem calibrateEntered_frame (s : State) : startFrame (calibrateEntered s) = startFrame s ∧
    (calibrateEntered s).start = s.start ∧ (calibrateEntered s).loaded = s.loaded := ⟨rfl, rfl, rfl⟩

theorem calibrateEntered_flag_other (s : State) {g : Fld} (other : g.key ≠ Reg.SYS_BOOT_STATUS.STATE.key) :
    (calibrateEntered s).flag g = s.flag g :=
  State.flag_set_other { s with safe := { s.safe with scrubCrc := scrubCrc s } } Reg.SYS_BOOT_STATUS.STATE g Boot.CALIBRATE other

theorem admitPass_eq : admitPass im t = calibrateEntered (sourceShown (admitted im t)) := by
  unfold admitPass calibrateEntered sourceShown admitted
  dsimp only

theorem admitPass_boot : (admitPass im t).boot = Boot.CALIBRATE := State.boot_setBoot _ (by decide)

theorem sourceShown_frame (s : State) : startFrame (sourceShown s) = startFrame s ∧ (sourceShown s).start = s.start ∧
    (sourceShown s).loaded = s.loaded := by
  obtain ⟨clock, queue, mem, -⟩ := onlyRegs_frame (sourceShown_onlyRegs s)
  obtain ⟨start, loaded⟩ := onlyRegs_start (sourceShown_onlyRegs s)
  exact ⟨startFrame_iff.2 ⟨clock, queue, congrArg BootState.image start, congrArg Memories.flash mem⟩, start, loaded⟩

theorem startFrame_admitPass : startFrame (admitPass im t) = startFrame t := by
  obtain ⟨entered, -, -⟩ := calibrateEntered_frame (sourceShown (admitted im t))
  obtain ⟨shown, -, -⟩ := sourceShown_frame (admitted im t)
  rw [admitPass_eq, entered, shown, startFrame_admitted]

/-- What admission shows: the sections loaded, and the first phase. -/
theorem admitPass_loaded : (admitPass im t).loaded = im.map Prod.fst ∧ (admitPass im t).start.calPhase = 0 := by
  obtain ⟨-, startE, loadedE⟩ := calibrateEntered_frame (sourceShown (admitted im t))
  obtain ⟨-, startS, loadedS⟩ := sourceShown_frame (admitted im t)
  rw [admitPass_eq, startE, loadedE, startS, loadedS]
  exact ⟨rfl, rfl⟩

/-- Which image it is that stands in force. -/
theorem admitPass_source : (admitPass im t).flag Reg.SYS_BOOT_STATUS.CFG_SRC = stagedImage t := by
  rw [admitPass_eq, calibrateEntered_flag_other _ (by decide), sourceShown_source, stagedImage_congr (startFrame_admitted im t)]

theorem admitPass_locks : ∀ f ∈ lockWrites.map Prod.fst, (admitPass im t).flag f = true := by
  intro f hf
  have apart : ∀ f ∈ lockWrites.map Prod.fst, f.key ≠ Reg.SYS_BOOT_STATUS.STATE.key ∧
      ∀ g ∈ [Reg.SYS_BOOT_STATUS.CFG_SRC, Reg.HERD_STATUS.REPL_SYNC], f.key ≠ g.key := by decide
  obtain ⟨state, source⟩ := apart f hf
  have kept := (sourceShown_onlyRegs (admitted im t)).2 f source
  rw [admitPass_eq, calibrateEntered_flag_other _ state, State.flag, kept, admitted_get]
  exact lockBlocks_locks _ f hf

end Admitted

/-! CONFIG_STAGED is rejected (R71, R626, R631). -/

theorem reportBreach_clock (s : State) (b : Breach) (staged : Bool) :
    (reportBreach s b staged).tick = s.tick ∧ (reportBreach s b staged).pending = s.pending := by
  obtain ⟨clock, queue, -, -⟩ := onlyRegs_frame (State.setAll_onlyRegs s (breachWrites b))
  obtain ⟨clockE, queueE, -, -⟩ := startFrame_iff.1
    (startFrame_event (s.setAll (breachWrites b)) Ev.CONFIG_REFUSED Block.SYS (breachArg b staged))
  rw [reportBreach_eq]
  exact ⟨clockE.trans clock, queueE.trans queue⟩

/-- What a rejection records before the start goes on. -/
def stagedRejected (s : State) (b : Breach) : State :=
  let s := (reportBreach s b true).setFlag Reg.SYS_BOOT_STATUS.STAGED_REJ true
  let s := jAppend s { type := JType.CFG_REJECT, arg := imgSeq s Region.CONFIG_STAGED }
  let s := s.setFlag Reg.XSPI_UPD_STATUS.PENDING false
  s.setStart { s.start with image := Region.CONFIG }

theorem stagedRejected_clock (s : State) (b : Breach) :
    (stagedRejected s b).tick = s.tick ∧ (stagedRejected s b).pending = s.pending := by
  have records (s : State) (r : JRec) : (jAppend s r).tick = s.tick ∧ (jAppend s r).pending = s.pending := by
    obtain ⟨clock, queue, -⟩ := (jAppend_onlyResumes s r).frame
    exact ⟨clock, queue⟩
  obtain ⟨clock, queue⟩ := reportBreach_clock s b true
  obtain ⟨clockJ, queueJ⟩ := records ((reportBreach s b true).setFlag Reg.SYS_BOOT_STATUS.STAGED_REJ true)
    { type := JType.CFG_REJECT,
      arg := imgSeq ((reportBreach s b true).setFlag Reg.SYS_BOOT_STATUS.STAGED_REJ true) Region.CONFIG_STAGED }
  simp only [State.setFlag_frame] at clockJ queueJ
  simp only [stagedRejected, State.setStart, State.setFlag_frame]
  exact ⟨clockJ.trans clock, queueJ.trans queue⟩

theorem rejectStaged_clock (s : State) (b : Breach) {next : State → State}
    (h : ∀ s, (next s).tick = s.tick ∧ (next s).pending = s.pending) :
    (rejectStaged s b next).tick = s.tick ∧ (rejectStaged s b next).pending = s.pending := by
  have eq : rejectStaged s b next = if (stagedRejected s b).flag Reg.XSPI_UPD_STATUS.TRIAL then
      startRevert (stagedRejected s b) UpdCause.ADMIT_FAIL else next (stagedRejected s b) := rfl
  obtain ⟨clock, queue⟩ := stagedRejected_clock s b
  rw [eq]
  split
  · obtain ⟨clockR, queueR, -⟩ := (startRevert_onlyResumes (stagedRejected s b) UpdCause.ADMIT_FAIL).frame
    exact ⟨clockR.trans clock, queueR.trans queue⟩
  · obtain ⟨clockN, queueN⟩ := h (stagedRejected s b)
    exact ⟨clockN.trans clock, queueN.trans queue⟩

/-! The statement. -/

/-- IMAGE_VERIFY_DONE where CONFIG_STAGED is no candidate. -/
theorem imageVerifyDone_completes {s r : State} {dt : Nat} {post : State → Prop} (boot : s.boot = Boot.IMAGE_VERIFY)
    (pending : s.flag Reg.XSPI_UPD_STATUS.PENDING = false) (candidate : stagedCandidate (s.advance dt) = false)
    (effect : verifyConfig (s.advance dt) = r) (clock : r.tick = s.tick + dt) (queue : r.pending = s.pending) (hp : post r) :
    completes (.imageVerifyDone dt) s post := by
  have kept : pendingChecks (s.advance dt) = s.advance dt := by
    rw [pendingChecks, show (s.advance dt).flag Reg.XSPI_UPD_STATUS.PENDING = false from pending]
    rfl
  refine completes_of_whenever (c := fun s => decide (s.boot = Boot.IMAGE_VERIFY)) rfl (decide_eq_true boot) ?_ clock queue hp
  dsimp only
  rw [kept, candidate]
  exact effect

/-- ADMIT_DONE, by what the checks found on the tables loaded tentatively. -/
theorem admitDone_completes {s r : State} {dt : Nat} {post : State → Prop} {im : Sections}
    (sections : im = imagePayloads (s.advance dt) s.start.image) (boot : s.boot = Boot.ADMIT)
    (effect : (match admitBreach im (loadTables im (s.advance dt)) with
      | none => admitPass im (loadTables im (s.advance dt))
      | some b => if stagedImage (s.advance dt) then rejectStaged (s.advance dt) b (fun s => s.setBoot Boot.IMAGE_VERIFY)
        else refuseConfig (s.advance dt) b) = r)
    (clock : r.tick = s.tick + dt) (queue : r.pending = s.pending) (hp : post r) : completes (.admitDone dt) s post := by
  subst sections
  exact completes_of_whenever (c := fun s => decide (s.boot = Boot.ADMIT)) rfl (decide_eq_true boot) effect clock queue hp

/-- Settles O17: CONFIG is verified by its checks alone, and ADMIT goes by the first breach of the tables loaded tentatively. -/
theorem verifyAndAdmit : Obligations.VerifyAndAdmit := by
  intro s dt
  refine ⟨?_, fun im sections boot => ?_⟩
  · rintro a chosen boot pending candidate
    have verify : verifyConfig (s.advance dt) = match verifyImage a Region.CONFIG Region.ACTIVE with
        | some b => refuseConfig a b
        | none => afterCopy a := by rw [chosen]; rfl
    have frame : a.tick = s.tick + dt ∧ a.pending = s.pending ∧ a.start.image = Region.CONFIG ∧ a.mem.flash = s.mem.flash ∧
        a.fields = s.fields := by rw [chosen]; exact ⟨rfl, rfl, rfl, rfl, rfl⟩
    obtain ⟨clockA, queueA, imageA, flashA, fieldsA⟩ := frame
    cases breach : verifyImage a Region.CONFIG Region.ACTIVE with
    | some b =>
      rw [breach] at verify
      obtain ⟨clock, queue⟩ := refuseConfig_clock a b
      have rest := congrArg (fun u : State => { u with bus := a.bus }) (refuseConfig_frame a b)
      exact imageVerifyDone_completes boot pending candidate verify (clock.trans clockA) (queue.trans queueA)
        ⟨refuseConfig_boot a b, refuseConfig_reason a b, refuseConfig_section a b, refuseConfig_item a b, rest⟩
    | none =>
      have config : stagedImage a = false := by rw [stagedImage, imageA]; decide
      rw [breach, afterCopy_of_not_staged config] at verify
      obtain ⟨fieldsT, frameT⟩ := imageTaken_frame a
      obtain ⟨frameE, bootE⟩ := enterAdmit_frame (imageTaken a)
      obtain ⟨clock, queue, image, flash⟩ := startFrame_iff.1 (frameE.trans frameT)
      rw [gooseHolds_congr (fieldsT.trans fieldsA)] at bootE
      exact imageVerifyDone_completes boot pending candidate verify (clock.trans clockA) (queue.trans queueA)
        ⟨bootE, image.trans imageA, flash.trans flashA⟩
  · have sameSource : stagedImage (s.advance dt) = stagedImage s := rfl
    cases breach : admitBreach im (loadTables im (s.advance dt)) with
    | none =>
      have loads := startFrame_loadTables (s.advance dt) im
      obtain ⟨clock, queue, -, -⟩ := startFrame_iff.1 ((startFrame_admitPass im (loadTables im (s.advance dt))).trans loads)
      obtain ⟨loaded, phase⟩ := admitPass_loaded im (loadTables im (s.advance dt))
      have source := admitPass_source im (loadTables im (s.advance dt))
      rw [stagedImage_congr loads, sameSource] at source
      refine admitDone_completes sections boot (by rw [breach]) clock queue
        ⟨admitPass_boot .., loaded, phase, source, fun b hb => admitPass_locks im _ _ ?_⟩
      exact List.mem_map.2 ⟨(Reg.LOCK b, 1), List.mem_map.2 ⟨b, hb, rfl⟩, rfl⟩
    | some b =>
      cases source : stagedImage s with
      | true =>
        obtain ⟨clock, queue⟩ := rejectStaged_clock (s.advance dt) b (next := fun s => s.setBoot Boot.IMAGE_VERIFY)
          fun _ => ⟨rfl, rfl⟩
        exact admitDone_completes sections boot (by simp only [breach, sameSource, source, if_true]) clock queue
          fun not => absurd not (by decide)
      | false =>
        obtain ⟨clock, queue⟩ := refuseConfig_clock (s.advance dt) b
        exact admitDone_completes sections boot (by simp only [breach, sameSource, source, Bool.false_eq_true, if_false]) clock queue
          fun _ => ⟨refuseConfig_boot _ b, refuseConfig_frame (s.advance dt) b⟩

end Sys2Proof.Machine
end

section
/-!
SUPPORT. CALIBRATE and entry to RUN (R57, R80 to R82): what the end of a phase leaves, and what entry to RUN keeps of the boot
state, of the front ends' service and of what was put out. Then the statement about the phases.
-/

namespace Sys2Proof.Machine

/-! What entry to RUN keeps. -/

/-- The boot state and the service of the front ends. -/
def entryFields : List Fld :=
  Reg.SYS_BOOT_STATUS.STATE :: ([0, 1, 2] : List Nat).flatMap fun fe => [Reg.FE_STATUS.RX_IN_SERVICE fe, Reg.FE_STATUS.TX_IN_SERVICE fe]

/-- What stands beside the register fields: what was put out, the start, the clock and the queue of commands. -/
def entryRest (s : State) : List Out × BootState × Nat × List Instr := (s.outs, s.start, s.tick, s.pending)

/-- `t` holds what `a` holds in the fields of `K`, in the start, in the clock and in the queue of commands, and `a` put out nothing
that `t` has not. -/
structure entryKept (K : List Fld) (a t : State) : Prop where
  get_eq : ∀ g ∈ K, t.get g = a.get g
  outs : a.outs ⊆ t.outs
  start : t.start = a.start
  clock : t.tick = a.tick
  queue : t.pending = a.pending

namespace entryKept
variable {K : List Fld}

theorem refl (a : State) : entryKept K a a := ⟨fun _ _ => rfl, List.Subset.refl _, rfl, rfl, rfl⟩

theorem trans {a b t : State} (h : entryKept K a b) (k : entryKept K b t) : entryKept K a t :=
  ⟨fun g hg => (k.get_eq g hg).trans (h.get_eq g hg), List.Subset.trans h.outs k.outs, k.start.trans h.start,
    k.clock.trans h.clock, k.queue.trans h.queue⟩

theorem mono {L : List Fld} {a t : State} (h : entryKept K a t) (sub : L ⊆ K) : entryKept L a t :=
  ⟨fun g hg => h.get_eq g (sub hg), h.outs, h.start, h.clock, h.queue⟩

theorem onlyIf {a s : State} (c : Bool) {k : State → State} (h : entryKept K a s) (step : ∀ s, entryKept K s (k s)) :
    entryKept K a (s.onlyIf c k) :=
  State.onlyIf_keeps (P := entryKept K a) s c k h fun h => h.trans (step s)

theorem foldl {β : Type} {f : State → β → State} (l : List β) (step : ∀ s, ∀ e ∈ l, entryKept K s (f s e)) (s : State) :
    entryKept K s (l.foldl f s) :=
  List.foldlRecOn (motive := entryKept K s) l f (refl s) fun t ht e he => ht.trans (step t e he)

/-- A change outside the register fields and of nothing that is kept. -/
theorem of_rest {a t : State} (fields : t.fields = a.fields) (rest : entryRest t = entryRest a) : entryKept K a t := by
  simp only [entryRest, Prod.mk.injEq] at rest
  obtain ⟨outs, start, clock, queue⟩ := rest
  exact ⟨fun g _ => State.get_congr fields g, fun o ho => outs ▸ ho, start, clock, queue⟩

theorem set (s : State) {f : Fld} (apart : ∀ g ∈ K, g.key ≠ f.key) (v : Nat) : entryKept K s (s.set f v) :=
  ⟨fun g hg => State.get_set_other s f g v (apart g hg), List.Subset.refl _, rfl, rfl, rfl⟩

theorem setFlag (s : State) {f : Fld} (apart : ∀ g ∈ K, g.key ≠ f.key) (b : Bool) : entryKept K s (s.setFlag f b) := set s apart _

theorem emit_coreStart (s : State) (c e : Nat) : entryKept K s (s.emit (.coreStart c e)) :=
  ⟨fun _ _ => rfl, List.subset_append_left .., rfl, rfl, rfl⟩

theorem event (s : State) (code source arg : Nat) (ovf : ∀ g ∈ K, g.key ≠ Reg.SYS_EVENT_STATUS.OVF.key)
    (lost : ∀ g ∈ K, g.key ≠ Reg.SYS_EVENT_LOST.LOST.key) : entryKept K s (s.event code source arg) := by
  have fields (g : Fld) (hg : g ∈ K) := State.event_get_other s code source arg (ovf g hg) (lost g hg)
  have rest := State.event_frame s code source arg
  generalize s.event code source arg = t at fields rest
  have kept := congrArg entryRest rest
  simp only [entryRest, Prod.mk.injEq] at kept
  obtain ⟨outs, start, clock, queue⟩ := kept
  exact ⟨fields, fun o ho => outs ▸ ho, start, clock, queue⟩

theorem drawn (s : State) : entryKept K s s.drawn := of_rest rfl rfl
theorem setTables (s : State) (x : TableState) : entryKept K s (s.setTables x) := of_rest rfl rfl
theorem setMac (s : State) (x : MacState) : entryKept K s (s.setMac x) := of_rest rfl rfl
theorem setSched (s : State) (x : SchedState) : entryKept K s (s.setSched x) := of_rest rfl rfl
theorem setHealth (s : State) (x : HealthState) : entryKept K s (s.setHealth x) := of_rest rfl rfl
theorem setOx (s : State) (x : OxState) : entryKept K s { s with ox := x } := of_rest rfl rfl
theorem setHear (s : State) (x : Hearing) : entryKept K s { s with hear := x } := of_rest rfl rfl
theorem setTime (s : State) (x : TimeState) : entryKept K s { s with time := x } := of_rest rfl rfl
theorem setAon (s : State) (x : AonState) : entryKept K s { s with aon := x } := of_rest rfl rfl
theorem setUpd (s : State) (x : UpdState) : entryKept K s { s with upd := x } := of_rest rfl rfl
theorem ddrWrite (s : State) (a : Nat) (bs : List Byte) : entryKept K s (s.ddrWrite a bs) := of_rest rfl rfl
theorem flashWrite (s : State) (a : Nat) (bs : List Byte) : entryKept K s (s.flashWrite a bs) := of_rest rfl rfl

theorem setFe (s : State) (fe : Nat) (x : FrontEnd) : entryKept K s (s.setFe fe x) := by
  unfold State.setFe
  split_ifs <;> exact of_rest rfl rfl

end entryKept

/-- A write to a register of CHAN or of a block after it keeps the boot state and the front ends' service. -/
theorem entryFields_apart {f : Fld} (h : 0x80000 ≤ f.off) : ∀ g ∈ entryFields, g.key ≠ f.key := by
  have low : ∀ g ∈ entryFields, g.key < 0x80000 * 64 := by decide
  intro g hg
  have := low g hg
  have : f.key = f.off * 64 + f.lo := rfl
  omega

theorem windowOff_high (w i : Nat) : 0x80000 ≤ windowOff w i := by
  unfold windowOff
  omega

theorem entryKept.setHigh (s : State) {f : Fld} (h : 0x80000 ≤ f.off) (v : Nat) : entryKept entryFields s (s.set f v) :=
  .set s (entryFields_apart h) v

theorem entryKept.setFlagHigh (s : State) {f : Fld} (h : 0x80000 ≤ f.off) (b : Bool) : entryKept entryFields s (s.setFlag f b) :=
  .setHigh s h _

theorem entryKept.report (s : State) (code source arg : Nat) : entryKept entryFields s (s.event code source arg) :=
  .event s code source arg (by decide) (by decide)

/-! The hearing mode in force (R168, R672, R685). -/

theorem newSettings_kept (s : State) {k : State → State} (h : entryKept entryFields s (k s)) :
    entryKept entryFields s (newSettings s k) := by
  unfold newSettings
  dsimp only
  split
  · exact h
  · exact h.trans (.setOx ..)

theorem refreshDrain_kept (s : State) : entryKept entryFields s (refreshDrain s) := .setHear ..

theorem setCtx_kept (s : State) (n : Nat) (c : Context) : entryKept entryFields s (setCtx s n c) := .setOx ..

theorem closeCtx_kept (s : State) (n : Nat) : entryKept entryFields s (closeCtx s n) := by
  unfold closeCtx
  dsimp only
  split
  · exact (setCtx_kept ..).trans (.setOx ..)
  · exact .refl s

theorem recoveryOff_kept (s : State) : entryKept entryFields s (recoveryOff s) := by
  refine .foldl _ (fun s n _ => ?_) s
  dsimp only
  split_ifs
  · exact closeCtx_kept s n
  · exact setCtx_kept s n {}
  · exact .refl s

theorem rehear_kept (s : State) {k : State → State} (h : entryKept entryFields s (k s)) : entryKept entryFields s (rehear s k) :=
  .onlyIf _ ((newSettings_kept s h).trans (refreshDrain_kept _)) recoveryOff_kept

theorem runHear_kept (s : State) : entryKept entryFields s (runHear s) := by
  unfold runHear
  split
  · exact rehear_kept s ((entryKept.setHigh s (by decide) 3).trans (.setHigh _ (by decide) _))
  · exact rehear_kept s (.setHigh s (by decide) _)

/-! The time base and the beacon source (R441, R449). -/

theorem timeChanged_kept (s : State) : entryKept entryFields s (timeChanged s) := .setFlagHigh s (by decide) true

theorem clsBit_high (c : Nat) : 0x80000 ≤ (clsBit c).off := by
  unfold clsBit
  split_ifs <;> decide

theorem setClsSince_kept (s : State) (c : Nat) (t : Option Nat) : entryKept entryFields s (setClsSince s c t) := by
  unfold setClsSince
  split_ifs <;> exact .setTime ..

theorem selectClass_kept (s : State) (c : Nat) : entryKept entryFields s (selectClass s c) := by
  unfold selectClass
  split
  · exact .refl s
  · exact ((entryKept.setHigh s (by decide) c).trans (.setFlagHigh _ (by decide) _)).trans (timeChanged_kept _)

theorem endHoldover_kept (s : State) : entryKept entryFields s (endHoldover s) :=
  .onlyIf _ (.refl s) fun s => (entryKept.setFlagHigh s (by decide) false).trans (timeChanged_kept _)

theorem qualify_kept (s : State) (c : Nat) : entryKept entryFields s (qualify s c) := by
  unfold qualify
  dsimp only
  split
  · exact .refl s
  · have qualified := ((entryKept.setFlagHigh s (clsBit_high c) true).trans (setClsSince_kept _ c (some s.tick))).trans (timeChanged_kept _)
    exact .onlyIf _ (.onlyIf _ qualified fun s => selectClass_kept s c) endHoldover_kept

theorem ppsUsable_kept (s : State) : entryKept entryFields s (ppsUsable s) := .onlyIf _ (.refl s) fun s => qualify_kept s clsPPS

theorem waiveStep_kept (s : State) : entryKept entryFields s (waiveStep s) :=
  .onlyIf _ (.refl s) fun s =>
    ((entryKept.setFlagHigh s (by decide) true).trans (.setFlagHigh _ (by decide) true)).trans (ppsUsable_kept _)

theorem runSources_kept (s : State) : entryKept entryFields s (runSources s) :=
  .onlyIf _ ((entryKept.onlyIf _ (.refl s) waiveStep_kept).trans (.setMac ..)) fun s => qualify_kept s clsEB

/-! The other clocks, the duty-cycle credit and what is reported (R81, R420, R491, R571, R658). -/

theorem runClocks_kept (s : State) : entryKept entryFields s (runClocks s) := by
  have wire (s : State) (x : WireState) : entryKept entryFields s { s with wire := x } := .of_rest rfl rfl
  have lease (s : State) (x : LeaseState) : entryKept entryFields s { s with lease := x } := .of_rest rfl rfl
  have safe (s : State) (x : SafeState) : entryKept entryFields s { s with safe := x } := .of_rest rfl rfl
  unfold runClocks restartSweep
  exact ((((entryKept.setFlagHigh s (by decide) _).trans (wire ..)).trans (lease ..)).trans (safe ..)).trans (.setTables ..)

theorem setDuty_kept (s : State) (sb : Nat) (d : Duty) : entryKept entryFields s (setDuty s sb d) :=
  (entryKept.setSched s _).trans (.setHigh _ (windowOff_high ..) _)

theorem dutySecondBegins_kept (s : State) (k : Nat) : entryKept entryFields s (dutySecondBegins s k) :=
  .foldl _ (fun s sb _ => .onlyIf _ (setDuty_kept s sb _) fun s => .setHigh s (windowOff_high ..) 0) s

theorem dutyTurn_kept (s : State) : entryKept entryFields s (dutyTurn s) := by
  unfold dutyTurn
  dsimp only
  split
  · exact .refl s
  · exact (entryKept.foldl _ (fun s _ _ => dutySecondBegins_kept s _) s).trans (.setSched ..)

theorem dutyDebit_kept (s : State) (sb us : Nat) : entryKept entryFields s (dutyDebit s sb us) :=
  (dutyTurn_kept s).trans (setDuty_kept ..)

theorem runDuty_kept (s : State) : entryKept entryFields s (runDuty s) := by
  refine .foldl _ (fun s b _ => ?_) s
  dsimp only
  split
  · exact ((dutyDebit_kept s _ _).trans (.drawn _)).trans (dutyDebit_kept ..)
  · exact dutyDebit_kept s _ _

theorem runCard_kept (s : State) : entryKept entryFields s (runCard s) := by
  unfold runCard
  split
  · exact .refl s
  · exact ((((entryKept.setAon s _).trans (.setFlagHigh _ (by decide) true)).trans (.setHigh _ (by decide) _)).trans
      (.setHigh _ (by decide) _)).trans (.report ..)

theorem tamperEvents_kept (s : State) (p : GooseLatch → Bool) : entryKept entryFields s (tamperEvents s p) :=
  .foldl _ (fun s _ _ => .report s ..) s

theorem restoreLog_kept (s : State) : entryKept entryFields s (restoreLog s) := by
  unfold restoreLog
  split
  · exact .setHealth ..
  · refine (entryKept.foldl _ (fun s e _ => ?_) s).trans (.setHealth ..)
    exact (((entryKept.setHigh s (windowOff_high ..) _).trans (.setHigh _ (windowOff_high ..) _)).trans
      (.setHigh _ (windowOff_high ..) _)).trans (.setHigh _ (windowOff_high ..) _)

/-! The cores and the copy of R72. -/

theorem loadCores_kept (s : State) (base : Nat) : entryKept entryFields s (loadCores s base) :=
  .foldl _ (fun s _ _ => .onlyIf _ (.refl s) fun s => .ddrWrite s ..) s

theorem runCores_kept (s : State) : entryKept entryFields s (runCores s) := by
  have apart : ∀ c < 4, ∀ g ∈ entryFields, g.key ≠ (Reg.ICU_CORE_PWR.STATE c).key := by decide
  refine (loadCores_kept s _).trans (.foldl _ (fun s c hc => ?_) _)
  split
  · exact .refl s
  · exact (entryKept.set s (apart c (List.mem_range.1 hc)) 0).trans (.emit_coreStart ..)

theorem jAppend_kept (s : State) (r : JRec) : entryKept entryFields s (jAppend s r) := by
  unfold jAppend
  exact .onlyIf _ (.refl s) fun s => .flashWrite s ..

theorem runCopy_kept (s : State) : entryKept entryFields s (runCopy s) := by
  have recorded (s : State) : entryKept entryFields s (cfgCopyRec s 0) := jAppend_kept ..
  unfold runCopy
  exact .onlyIf _ (.refl s) fun s => (recorded s).trans (.setUpd ..)

/-! Entry to RUN (R57, R82). -/

/-- The service that a front end comes into (R82). -/
def receives (s : State) (fe : Nat) : Bool := decide (feEnable s fe ≠ 0) && !s.start.feOut.contains fe
def transmits (s : State) (fe : Nat) : Bool := decide (feEnable s fe = 2) && !s.start.feOut.contains fe

/-- The fields of the other front ends, with the boot state. -/
def otherService (fe : Nat) : List Fld :=
  entryFields.filter fun f => decide (f ≠ Reg.FE_STATUS.RX_IN_SERVICE fe ∧ f ≠ Reg.FE_STATUS.TX_IN_SERVICE fe)

theorem resuming_kept {K : List Fld} (s : State) (fe : Nat) {k : State → State} (h : entryKept K s (k s)) :
    entryKept K s (s.resuming fe k) := by
  unfold State.resuming
  dsimp only
  split
  · exact h.trans (.setFe ..)
  · exact h

theorem setFe_flag (s : State) (fe : Nat) (x : FrontEnd) (f : Fld) : (s.setFe fe x).flag f = s.flag f := by
  unfold State.setFe
  split_ifs <;> rfl

theorem resuming_flag (s : State) (fe : Nat) (k : State → State) (f : Fld) : (s.resuming fe k).flag f = (k s).flag f := by
  unfold State.resuming
  dsimp only
  split
  · exact setFe_flag ..
  · rfl

/-- A front end's service is written, and the lock of its receive synthesiser. -/
theorem runFe_eq (s : State) (fe : Nat) : runFe s fe =
    ((s.resuming fe fun s' => s'.setFlag (Reg.FE_STATUS.RX_IN_SERVICE fe) (receives s fe)).setFlag (Reg.FE_STATUS.TX_IN_SERVICE fe)
      (transmits s fe)).setFlag (Reg.FE_STATUS.RX_LOCK fe) (receives s fe) := rfl

theorem runFe_kept (s : State) {fe : Nat} (h : fe < 3) : entryKept (otherService fe) s (runFe s fe) := by
  have apart : ∀ fe < 3, (∀ g ∈ otherService fe, g.key ≠ (Reg.FE_STATUS.RX_IN_SERVICE fe).key) ∧
      (∀ g ∈ otherService fe, g.key ≠ (Reg.FE_STATUS.TX_IN_SERVICE fe).key) ∧
      ∀ g ∈ otherService fe, g.key ≠ (Reg.FE_STATUS.RX_LOCK fe).key := by decide
  obtain ⟨rx, tx, lock⟩ := apart fe h
  have resumed := resuming_kept (K := otherService fe) s fe (k := fun s' => s'.setFlag (Reg.FE_STATUS.RX_IN_SERVICE fe) (receives s fe))
    (.setFlag s rx _)
  rw [runFe_eq]
  exact (resumed.trans (.setFlag _ tx _)).trans (.setFlag _ lock _)

/-- A front end of `t` is in the service that the start of `s` gives it. -/
def serves (s t : State) (fe : Nat) : Prop :=
  t.flag (Reg.FE_STATUS.RX_IN_SERVICE fe) = receives s fe ∧ t.flag (Reg.FE_STATUS.TX_IN_SERVICE fe) = transmits s fe

theorem receives_congr {s t : State} (h : t.start = s.start) (fe : Nat) : receives t fe = receives s fe ∧ transmits t fe = transmits s fe := by
  rw [receives, receives, transmits, transmits, feEnable, feEnable, h]
  exact ⟨rfl, rfl⟩

theorem runFe_serves {s t : State} (start : t.start = s.start) {fe : Nat} (h : fe < 3) : serves s (runFe t fe) fe := by
  have apart : ∀ fe < 3, (Reg.FE_STATUS.RX_IN_SERVICE fe).key ≠ (Reg.FE_STATUS.TX_IN_SERVICE fe).key ∧
      (Reg.FE_STATUS.RX_IN_SERVICE fe).key ≠ (Reg.FE_STATUS.RX_LOCK fe).key ∧
      (Reg.FE_STATUS.TX_IN_SERVICE fe).key ≠ (Reg.FE_STATUS.RX_LOCK fe).key := by decide
  obtain ⟨rxTx, rxLock, txLock⟩ := apart fe h
  obtain ⟨rx, tx⟩ := receives_congr start fe
  rw [serves, ← rx, ← tx, runFe_eq, State.flag_setFlag_other _ _ _ _ rxLock, State.flag_setFlag_other _ _ _ _ rxTx, resuming_flag,
    State.flag_setFlag_self, State.flag_setFlag_other _ _ _ _ txLock, State.flag_setFlag_self]
  exact ⟨rfl, rfl⟩

theorem serves_kept {K : List Fld} {s a t : State} {fe : Nat} (h : serves s a fe) (kept : entryKept K a t)
    (rx : Reg.FE_STATUS.RX_IN_SERVICE fe ∈ K) (tx : Reg.FE_STATUS.TX_IN_SERVICE fe ∈ K) : serves s t fe := by
  unfold serves State.flag at h ⊢
  rw [kept.get_eq _ rx, kept.get_eq _ tx]
  exact h

/-- Entry to RUN as far as SAFE_N. -/
def runBegins (s : State) : State := (s.setBoot Boot.RUN).emit (.pin .safeN true)

theorem runBegins_boot (s : State) : (runBegins s).boot = Boot.RUN := State.boot_setBoot s (b := Boot.RUN) (by decide)

theorem runBegins_safeN (s : State) : .pin .safeN true ∈ (runBegins s).outs := List.mem_append_right _ (List.mem_singleton.2 rfl)

theorem runBegins_frame (s : State) : (runBegins s).start = s.start ∧ (runBegins s).tick = s.tick ∧ (runBegins s).pending = s.pending :=
  ⟨rfl, rfl, rfl⟩

/-- SAFE_N rises, and the front ends come into service. -/
def served (s : State) : State := runFe (runFe (runFe (runBegins s) 0) 1) 2

/-- The boot state, the start, the clock and what was put out stand through the service of the front ends. -/
theorem served_kept (s : State) : entryKept [Reg.SYS_BOOT_STATUS.STATE] (runBegins s) (served s) :=
  (((runFe_kept _ (by decide)).mono (by decide)).trans ((runFe_kept _ (by decide)).mono (by decide))).trans
    ((runFe_kept _ (by decide)).mono (by decide))

/-- The service of each front end stands as its ENABLE and phase A left it (R82). -/
theorem served_serves (s : State) (fe : Fin 3) : serves s (served s) fe := by
  obtain ⟨first, -, -⟩ := runBegins_frame s
  have kept0 := runFe_kept (runBegins s) (fe := 0) (by decide)
  have kept1 := runFe_kept (runFe (runBegins s) 0) (fe := 1) (by decide)
  have kept2 := runFe_kept (runFe (runFe (runBegins s) 0) 1) (fe := 2) (by decide)
  have second := kept0.start.trans first
  match fe with
  | 0 => exact serves_kept (serves_kept (runFe_serves first (by decide)) kept1 (by decide) (by decide)) kept2 (by decide) (by decide)
  | 1 => exact serves_kept (runFe_serves second (by decide)) kept2 (by decide) (by decide)
  | 2 => exact runFe_serves (kept1.start.trans second) (by decide)

/-- What follows the service of the front ends keeps it. -/
theorem enterRun_kept (s : State) : entryKept entryFields (served s) (enterRun s) := by
  have clocks := ((runHear_kept (served s)).trans (runSources_kept _)).trans (runClocks_kept _)
  have reports := ((clocks.trans (runDuty_kept _)).trans (runCard_kept _)).trans (tamperEvents_kept _ fun _ => true)
  exact ((reports.trans (restoreLog_kept _)).trans (runCores_kept _)).trans (runCopy_kept _)

section EnterRun
variable (s : State)

theorem enterRun_boot : (enterRun s).boot = Boot.RUN := by
  have run := runBegins_boot s
  unfold State.boot at run ⊢
  rw [(enterRun_kept s).get_eq _ (by decide), (served_kept s).get_eq _ (by decide), run]

theorem enterRun_safeN : .pin .safeN true ∈ (enterRun s).outs :=
  (enterRun_kept s).outs ((served_kept s).outs (runBegins_safeN s))

theorem enterRun_serves (fe : Fin 3) : serves s (enterRun s) fe := by
  have named : ∀ fe : Fin 3, Reg.FE_STATUS.RX_IN_SERVICE fe ∈ entryFields ∧ Reg.FE_STATUS.TX_IN_SERVICE fe ∈ entryFields := by decide
  obtain ⟨rx, tx⟩ := named fe
  exact serves_kept (served_serves s fe) (enterRun_kept s) rx tx

theorem enterRun_clock : (enterRun s).tick = s.tick ∧ (enterRun s).pending = s.pending := by
  obtain ⟨-, clock, queue⟩ := runBegins_frame s
  exact ⟨((enterRun_kept s).clock.trans (served_kept s).clock).trans clock,
    ((enterRun_kept s).queue.trans (served_kept s).queue).trans queue⟩

end EnterRun

/-! The phases (R80). -/

/-- A failed calibration is reported, and its front end leaves service (R82). -/
def feLeaves (s : State) (fe : Nat) : State :=
  let s := (feOut s fe).setStart { s.start with feOut := s.start.feOut ++ [fe] }
  s.onlyIf (decide (feEnable s fe ≠ 0)) fun s => lose s fe

/-- The front end is out of service from then on, and an enabled one is lost. -/
theorem feLeaves_start (s : State) (fe : Nat) : (feLeaves s fe).start.feOut = s.start.feOut ++ [fe] ∧
    (feEnable s fe ≠ 0 → (feLeaves s fe).start.lost.isSome = true) ∧ (feLeaves s fe).tick = s.tick ∧ (feLeaves s fe).pending = s.pending := by
  have eq : feLeaves s fe = if decide (feEnable s fe ≠ 0) then
      lose ((feOut s fe).setStart { s.start with feOut := s.start.feOut ++ [fe] }) fe
    else (feOut s fe).setStart { s.start with feOut := s.start.feOut ++ [fe] } := rfl
  rw [eq]
  by_cases off : feEnable s fe = 0
  · rw [if_neg (by simp [off])]
    exact ⟨rfl, fun on => absurd off on, rfl, rfl⟩
  · rw [if_pos (decide_eq_true off)]
    exact ⟨rfl, fun _ => rfl, rfl, rfl⟩

theorem phaseA_nil (s : State) : phaseA s [] = s := by simp [phaseA]

theorem phaseA_single (s : State) (fe : Fin 3) {k : Nat} (low : 1 ≤ k) (high : k ≤ 3) :
    phaseA s [(fe.val, k)] = feLeaves (calFail s fe.val k 0) fe := by
  match fe with
  | 0 => simp [phaseA, feLeaves, low, high]
  | 1 => simp [phaseA, feLeaves, low, high]
  | 2 => simp [phaseA, feLeaves, low, high]

theorem phaseC_nil (s : State) : phaseC s [] = s := by simp [phaseC]

theorem phaseD_nil (s : State) : phaseD s [] = s := by simp [phaseD]

/-- The next phase stands, with nothing emitted and no pattern of the front-end modules chosen. -/
theorem phaseEnd_zero (s : State) : phaseEnd s 0 = s.setStart { s.start with calPhase := 1 } := rfl

/-- The patterns of the front-end modules for phase D. -/
def femPatterns (s : State) : State :=
  ([0, 1, 2] : List Nat).foldl (fun s fe => (s.setFe fe { s.fe fe with femOpen := s.free % 4 }).drawn) s

theorem phaseEnd_two (s : State) : phaseEnd s 2 = femPatterns (s.setStart { s.start with calPhase := 3 }) := rfl

theorem phaseEnd_three {s : State} (h : s.start.lost = none) : phaseEnd s 3 = enterRun s := by
  rw [phaseEnd, if_neg (by decide), calibrated, h]

/-- What the end of phase C leaves: the start, the boot state, the memories, the clock and the queue of commands. -/
def phaseFrame (s : State) : BootState × Nat × Memories × Nat × List Instr := (s.start, s.boot, s.mem, s.tick, s.pending)

theorem femPatterns_frame (s : State) : phaseFrame (femPatterns s) = phaseFrame s := by
  refine foldl_leaves phaseFrame (fun s fe => ?_) _ s
  unfold State.setFe State.drawn
  split_ifs <;> rfl

theorem event_start (s : State) (code source arg : Nat) : (s.event code source arg).start = s.start := by
  have rest := State.event_frame s code source arg
  generalize s.event code source arg = t at rest
  have start := congrArg State.start rest
  exact start

theorem calFail_frame (s : State) (fe kind index : Nat) : (calFail s fe kind index).start = s.start ∧
    (calFail s fe kind index).tick = s.tick ∧ (calFail s fe kind index).pending = s.pending := by
  obtain ⟨clock, queue, -, -⟩ := startFrame_iff.1 (startFrame_event s Ev.CAL_FAIL _ _)
  exact ⟨event_start .., clock, queue⟩

/-- What CALIBRATE_PHASE_DONE does in CALIBRATE: a phase ends only where it stands. -/
def calStep (result : CalResult) (s : State) : State :=
  match result, s.start.calPhase with
  | .phaseA l, 0 => phaseEnd (phaseA s l) 0
  | .phaseB l t a p k, 1 => phaseEnd (phaseB s l t a p k) 1
  | .phaseC l, 2 => phaseEnd (phaseC s l) 2
  | .phaseD l, 3 => phaseEnd (phaseD s l) 3
  | _, _ => s

section CalStep
variable {s : State}

theorem calStep_phaseA (h : s.start.calPhase = 0) (l : List (Nat × Nat)) :
    calStep (.phaseA l) s = (phaseA s l).setStart { (phaseA s l).start with calPhase := 1 } := by
  unfold calStep
  rw [h]
  exact phaseEnd_zero _

theorem calStep_phaseC (h : s.start.calPhase = 2) : calStep (.phaseC []) s = femPatterns (s.setStart { s.start with calPhase := 3 }) := by
  unfold calStep
  rw [h, ← phaseEnd_two]
  exact congrArg (phaseEnd · 2) (phaseC_nil s)

theorem calStep_phaseD (h : s.start.calPhase = 3) (kept : s.start.lost = none) : calStep (.phaseD []) s = enterRun s := by
  unfold calStep
  rw [h, ← phaseEnd_three kept]
  exact congrArg (phaseEnd · 3) (phaseD_nil s)

theorem calStep_phaseD_early (h : s.start.calPhase ≠ 3) (l : List Nat) : calStep (.phaseD l) s = s := by
  unfold calStep
  split
  next other _ => cases other
  next other _ => cases other
  next other _ => cases other
  next stands => exact absurd stands h
  next => rfl

end CalStep

theorem phaseDone_completes {s r : State} {dt : Nat} {result : CalResult} {post : State → Prop} (boot : s.boot = Boot.CALIBRATE)
    (effect : calStep result (s.advance dt) = r) (clock : r.tick = s.tick + dt) (queue : r.pending = s.pending) (hp : post r) :
    completes (.calibratePhaseDone dt result) s post :=
  completes_of_whenever (c := fun s => decide (s.boot = Boot.CALIBRATE)) (k := calStep result) rfl (decide_eq_true boot) effect clock
    queue hp

/-- Settles O18: each phase ends only where it stands, and the last of them, with nothing lost, is entry to RUN. -/
theorem calibratePhases : Obligations.CalibratePhases := by
  intro s dt fe k boot
  refine ⟨fun phase => ?_, fun phase low high => ?_, fun phase => ?_, fun phase kept => ?_, fun other => ?_⟩
  · have effect := calStep_phaseA (s := s.advance dt) phase []
    rw [phaseA_nil] at effect
    exact phaseDone_completes boot effect rfl rfl ⟨rfl, rfl, fun _ _ => rfl⟩
  · have effect := calStep_phaseA (s := s.advance dt) phase [(fe.val, k)]
    rw [phaseA_single _ _ low high] at effect
    obtain ⟨out, lost, clock, queue⟩ := feLeaves_start (calFail (s.advance dt) fe k 0) fe
    obtain ⟨start, clockF, queueF⟩ := calFail_frame (s.advance dt) fe k 0
    rw [start] at out
    rw [feEnable, start] at lost
    exact phaseDone_completes boot effect (clock.trans clockF) (queue.trans queueF) ⟨rfl, out, lost⟩
  · have frame := femPatterns_frame ((s.advance dt).setStart { s.start with calPhase := 3 })
    simp only [phaseFrame, Prod.mk.injEq] at frame
    obtain ⟨start, bootT, mem, clock, queue⟩ := frame
    exact phaseDone_completes boot (calStep_phaseC (s := s.advance dt) phase) clock queue ⟨start, bootT.trans boot, mem⟩
  · obtain ⟨clock, queue⟩ := enterRun_clock (s.advance dt)
    obtain ⟨rx, tx⟩ := enterRun_serves (s.advance dt) fe
    exact phaseDone_completes boot (calStep_phaseD (s := s.advance dt) phase kept) clock queue
      ⟨enterRun_boot _, enterRun_safeN _, rx, tx⟩
  · exact phaseDone_completes boot (calStep_phaseD_early (s := s.advance dt) other []) rfl rfl rfl

end Sys2Proof.Machine
end

section
/-!
SUPPORT. The schedule admission unit (R84 to R90): what GO, CANCEL and the end of a check do, and what a refusal leaves. Then the
statement about it.
-/

namespace Sys2Proof.Machine

/-! The words that SAU_GO and SAU_CANCEL write. -/

section Words
variable (v : Word)

theorem bit_toNat (n : Nat) : bit v.toNat n = v.getLsbD n := by
  rw [BitVec.getLsbD, Nat.testBit_eq_decide_div_mod_eq, bit]

theorem sauGo_word : bits (putBits v.toNat 63 63 1) 12 0 = bits v.toNat 12 0 ∧
    bit (putBits v.toNat 63 63 1) 62 = v.getLsbD 62 ∧ bit (putBits v.toNat 63 63 1) 63 = true := by
  rw [← bit_toNat]
  have := v.isLt
  refine ⟨?_, decide_eq_decide.2 ?_, decide_eq_true ?_⟩ <;> unfold putBits bits <;> omega

theorem sauCancel_word : bits (putBits v.toNat 62 62 1) 12 0 = bits v.toNat 12 0 ∧
    bit (putBits v.toNat 62 62 1) 62 = true ∧ bit (putBits v.toNat 62 62 1) 63 = v.getLsbD 63 := by
  rw [← bit_toNat]
  have := v.isLt
  refine ⟨?_, decide_eq_true ?_, decide_eq_decide.2 ?_⟩ <;> unfold putBits bits <;> omega

end Words

/-! A refusal (R86). -/

section Refusal
variable (s : State) (reason item : Nat)

theorem sauRefuse_onlyReports : onlyReports s (sauRefuse s reason item) :=
  onlyReports_trans (State.set_onlyReports ..) (onlyReports_trans (State.set_onlyReports ..) (onlyReports_trans
    (State.set_onlyReports ..) (onlyReports_trans (State.set_onlyReports ..) (onlyReports_trans (State.set_onlyReports ..)
      (State.event_onlyReports ..)))))

theorem sauRefuse_reason : (sauRefuse s reason item).get Reg.MAC_SAU_STATUS.REASON = reason % 2 ^ 16 := by
  unfold sauRefuse
  dsimp only
  rw [State.event_get_other _ _ _ _ (by decide) (by decide), State.get_set_other _ _ _ _ (by decide), State.get_set_self]
  rfl

theorem sauRefuse_accepted : (sauRefuse s reason item).flag Reg.MAC_SAU_STATUS.ACCEPTED = false := by
  unfold sauRefuse
  dsimp only
  rw [State.event_flag_other _ _ _ _ (by decide) (by decide), State.flag_set_other _ _ _ _ (by decide),
    State.flag_set_other _ _ _ _ (by decide), State.flag_setFlag_self]

theorem sauRefuse_pending : (sauRefuse s reason item).flag Reg.MAC_SAU_STATUS.PENDING = s.flag Reg.MAC_SAU_STATUS.PENDING := by
  unfold sauRefuse
  dsimp only
  rw [State.event_flag_other _ _ _ _ (by decide) (by decide), State.flag_set_other _ _ _ _ (by decide),
    State.flag_set_other _ _ _ _ (by decide), State.flag_setFlag_other _ _ _ _ (by decide),
    State.flag_setFlag_other _ _ _ _ (by decide), State.flag_setFlag_other _ _ _ _ (by decide)]

/-- A refusal leaves the clock, the queue of commands, the list that waits and the tables. -/
theorem sauRefuse_frame : (sauRefuse s reason item).tick = s.tick ∧ (sauRefuse s reason item).pending = s.pending ∧
    (sauRefuse s reason item).sau = s.sau ∧ (sauRefuse s reason item).tables = s.tables := by
  have h := sauRefuse_onlyReports s reason item
  unfold onlyReports at h
  have clock := congrArg State.tick h
  have queue := congrArg State.pending h
  have sau := congrArg State.sau h
  have tables := congrArg State.tables h
  exact ⟨clock, queue, sau, tables⟩

end Refusal

/-! A write of MAC_SAU_CTRL. -/

/-- COUNT is written. -/
def withCount (s : State) (n : Nat) : State := s.set Reg.MAC_SAU_CTRL.COUNT n

theorem withCount_flag (s : State) (n : Nat) {g : Fld} (h : g.key ≠ Reg.MAC_SAU_CTRL.COUNT.key) : (withCount s n).flag g = s.flag g :=
  State.flag_set_other s _ g n h

theorem slotReached_withCount (s : State) (n act : Nat) : slotReached (withCount s n) act = slotReached s act := by
  unfold slotReached asnNow asnAt slotNs tschOn
  rw [withCount_flag _ _ (by decide), withCount, State.get_set_other _ _ _ _ (by decide), State.get_set_other _ _ _ _ (by decide)]
  rfl

/-- An accepted list waits, and its boundary has not come: CANCEL drops it (R90). -/
def cancels (s : State) : Bool :=
  s.flag Reg.MAC_SAU_STATUS.PENDING && !s.sau.pending.any fun p => slotReached s p.1

theorem cancels_withCount (s : State) (n : Nat) : cancels (withCount s n) = cancels s := by
  have reached : (fun p : Nat × List (Nat × Nat × Nat) => slotReached (withCount s n) p.1) = fun p => slotReached s p.1 :=
    funext fun p => slotReached_withCount s n p.1
  rw [cancels, withCount_flag _ _ (by decide), reached]
  rfl

/-- The list that waits is dropped. -/
def dropWaiting (s : State) : State := { s.setFlag Reg.MAC_SAU_STATUS.PENDING false with sau := { pending := none } }

theorem dropWaiting_get_other (s : State) {g : Fld} (h : g.key ≠ Reg.MAC_SAU_STATUS.PENDING.key) :
    (dropWaiting s).get g = s.get g :=
  State.get_set_other s Reg.MAC_SAU_STATUS.PENDING g 0 h

/-- A write with GO. -/
theorem writeSauCtrl_go (s : State) (v : Word) :
    writeSauCtrl s (putBits v.toNat 63 63 1) =
      sauGo ((withCount s (bits v.toNat 12 0)).onlyIf (v.getLsbD 62 && cancels s) dropWaiting) := by
  obtain ⟨count, cancel, go⟩ := sauGo_word v
  rw [← cancels_withCount s (bits v.toNat 12 0), writeSauCtrl, count, cancel, go, State.onlyIf_true]
  cases v.getLsbD 62 <;> rfl

/-- A write with CANCEL and without GO. -/
theorem writeSauCtrl_cancel (s : State) {v : Word} (h : v.getLsbD 63 = false) :
    writeSauCtrl s (putBits v.toNat 62 62 1) = (withCount s (bits v.toNat 12 0)).onlyIf (cancels s) dropWaiting := by
  obtain ⟨count, cancel, go⟩ := sauCancel_word v
  rw [← cancels_withCount s (bits v.toNat 12 0), writeSauCtrl, count, cancel, go, h, State.onlyIf_false, State.onlyIf_true]
  rfl

/-- What a write has done before GO is looked at: COUNT is written, and a list may have been dropped. -/
def beforeGo (s : State) (v : Word) (drops : Bool) : State := (withCount s (bits v.toNat 12 0)).onlyIf drops dropWaiting

section BeforeGo
variable (s : State) (v : Word) (drops : Bool)

theorem beforeGo_count : (beforeGo s v drops).get Reg.MAC_SAU_CTRL.COUNT = bits v.toNat 12 0 := by
  have fits : bits v.toNat 12 0 % 2 ^ Reg.MAC_SAU_CTRL.COUNT.width = bits v.toNat 12 0 := Nat.mod_mod ..
  have count := State.get_set_self s Reg.MAC_SAU_CTRL.COUNT (bits v.toNat 12 0)
  rw [fits] at count
  cases drops
  · exact count
  · exact (dropWaiting_get_other (withCount s (bits v.toNat 12 0)) (by decide)).trans count

theorem beforeGo_busy : (beforeGo s v drops).flag Reg.MAC_SAU_STATUS.BUSY = s.flag Reg.MAC_SAU_STATUS.BUSY := by
  have count := withCount_flag s (bits v.toNat 12 0) (g := Reg.MAC_SAU_STATUS.BUSY) (by decide)
  cases drops
  · exact count
  · have kept := dropWaiting_get_other (withCount s (bits v.toNat 12 0)) (g := Reg.MAC_SAU_STATUS.BUSY) (by decide)
    exact (congrArg (fun n => decide (n ≠ 0)) kept).trans count

theorem beforeGo_pending :
    (beforeGo s v drops).flag Reg.MAC_SAU_STATUS.PENDING = (!drops && s.flag Reg.MAC_SAU_STATUS.PENDING) := by
  cases drops
  · exact withCount_flag s _ (by decide)
  · exact State.flag_setFlag_self (withCount s (bits v.toNat 12 0)) Reg.MAC_SAU_STATUS.PENDING false

theorem beforeGo_onlyRegs :
    onlyRegs s { beforeGo s v drops with sau := s.sau } [Reg.MAC_SAU_CTRL.COUNT, Reg.MAC_SAU_STATUS.PENDING] := by
  have count := State.set_onlyRegs s (f := Reg.MAC_SAU_CTRL.COUNT)
    (fs := [Reg.MAC_SAU_CTRL.COUNT, Reg.MAC_SAU_STATUS.PENDING]) (by decide) (bits v.toNat 12 0)
  cases drops
  · exact count
  · exact onlyRegs_trans count (State.set_onlyRegs _ (f := Reg.MAC_SAU_STATUS.PENDING) (by decide) 0)

end BeforeGo

/-! GO, by the state of the unit (R86, R87). -/

theorem sauGo_of_busy {s : State} (busy : s.flag Reg.MAC_SAU_STATUS.BUSY = true) : sauGo s = s := if_pos busy

section NotBusy
variable {s : State} (idle : s.flag Reg.MAC_SAU_STATUS.BUSY = false)
include idle

theorem sauGo_of_waiting (waits : s.flag Reg.MAC_SAU_STATUS.PENDING = true) :
    sauGo s = sauRefuse s.drawn 0x0402 (s.free % 65536) := by
  rw [sauGo, idle, if_neg Bool.false_ne_true, waits, if_pos rfl]

theorem sauGo_of_idle (none : s.flag Reg.MAC_SAU_STATUS.PENDING = false) : sauGo s = s.setFlag Reg.MAC_SAU_STATUS.BUSY true := by
  rw [sauGo, idle, if_neg Bool.false_ne_true, none, if_neg Bool.false_ne_true]

end NotBusy

/-! The end of a check (R84 to R89). -/

section Check
variable {s : State}

/-- A list of no entries is refused. -/
theorem sauCheck_of_empty (count : s.get Reg.MAC_SAU_CTRL.COUNT = 0) :
    sauCheck s = sauRefuse s.drawn 0x0404 (s.free % 65536) := by
  rw [sauCheck]
  exact if_pos (.inl count)

theorem sauCheck_of_good {after : State} (some : 1 ≤ s.get Reg.MAC_SAU_CTRL.COUNT) (most : s.get Reg.MAC_SAU_CTRL.COUNT ≤ 4096)
    (inside : s.inLp4x (s.get Reg.MAC_SAU_LIST.ADDR * 16) (16 * s.get Reg.MAC_SAU_CTRL.COUNT) = true)
    (applies : sauApplyAll ((List.range (s.get Reg.MAC_SAU_CTRL.COUNT)).map (sauEntry s (s.get Reg.MAC_SAU_LIST.ADDR * 16))) 0 s =
      .ok after) (passes : scheduleCause after = none)
    (ahead : later 40 (s.get Reg.MAC_SAU_ACT_ASN.ACT_ASN) (asnNow s) = true) :
    sauCheck s = sauAccept s (s.get Reg.MAC_SAU_ACT_ASN.ACT_ASN)
      ((List.range (s.get Reg.MAC_SAU_CTRL.COUNT)).map (sauEntry s (s.get Reg.MAC_SAU_LIST.ADDR * 16))) := by
  have listOk : ¬ (s.get Reg.MAC_SAU_CTRL.COUNT = 0 ∨ 4096 < s.get Reg.MAC_SAU_CTRL.COUNT ∨
      (!s.inLp4x (s.get Reg.MAC_SAU_LIST.ADDR * 16) (16 * s.get Reg.MAC_SAU_CTRL.COUNT)) = true) := by
    rw [inside]
    simp
    omega
  rw [sauCheck]
  dsimp only
  rw [if_neg listOk, applies]
  dsimp only
  rw [passes]
  exact if_pos ahead

end Check

section Accept
variable (s : State) (act : Nat) (l : List (Nat × Nat × Nat))

/-- What an accepted list leaves in MAC_SAU_STATUS. -/
def acceptWrites : List (Fld × Nat) :=
  [(Reg.MAC_SAU_STATUS.BUSY, 0), (Reg.MAC_SAU_STATUS.DONE, 1), (Reg.MAC_SAU_STATUS.ACCEPTED, 1), (Reg.MAC_SAU_STATUS.REASON, 0),
    (Reg.MAC_SAU_STATUS.ITEM, 0), (Reg.MAC_SAU_STATUS.PENDING, 1)]

theorem sauAccept_eq : sauAccept s act l = { s.setAll acceptWrites with sau := { pending := some (act, l) } } := rfl

theorem sauAccept_flags : (sauAccept s act l).flag Reg.MAC_SAU_STATUS.BUSY = false ∧
    (sauAccept s act l).flag Reg.MAC_SAU_STATUS.ACCEPTED = true ∧ (sauAccept s act l).flag Reg.MAC_SAU_STATUS.PENDING = true := by
  have get {f : Fld} {v : Nat} (h : lastWritten acceptWrites f = some v) : (sauAccept s act l).get f = v % 2 ^ f.width := by
    rw [sauAccept_eq]
    exact State.get_setAll_written s h
  refine ⟨?_, ?_, ?_⟩
  · rw [State.flag, get (v := 0) (by decide)]; rfl
  · rw [State.flag, get (v := 1) (by decide)]; rfl
  · rw [State.flag, get (v := 1) (by decide)]; rfl

theorem sauAccept_onlyRegs : onlyRegs s { sauAccept s act l with sau := s.sau } (acceptWrites.map Prod.fst) := by
  have written := State.setAll_onlyRegs s acceptWrites
  exact written

end Accept

/-! The statement. -/

/-- A write of GO, by what the unit makes of it. -/
theorem sauGo_completes {s r : State} {dt : Nat} {v : Word} {post : State → Prop}
    (effect : sauGo (beforeGo (s.advance dt) v (v.getLsbD 62 && cancels (s.advance dt))) = r)
    (clock : r.tick = s.tick + dt) (queue : r.pending = s.pending) (hp : post (r.answer 0)) : completes (.sauGo dt v) s post :=
  completes_of_effect (k := fun s => (writeSauCtrl s (putBits v.toNat 63 63 1)).answer 0) rfl
    (congrArg (State.answer · 0) ((writeSauCtrl_go ..).trans effect)) clock queue hp

/-- A write of CANCEL without GO. -/
theorem sauCancel_completes {s r : State} {dt : Nat} {v : Word} {post : State → Prop} (noGo : v.getLsbD 63 = false)
    (effect : beforeGo (s.advance dt) v (cancels (s.advance dt)) = r)
    (clock : r.tick = s.tick + dt) (queue : r.pending = s.pending) (hp : post (r.answer 0)) : completes (.sauCancel dt v) s post :=
  completes_of_effect (k := fun s => (writeSauCtrl s (putBits v.toNat 62 62 1)).answer 0) rfl
    (congrArg (State.answer · 0) ((writeSauCtrl_cancel _ noGo).trans effect)) clock queue hp

theorem beforeGo_clock (s : State) (v : Word) (drops : Bool) :
    (beforeGo s v drops).tick = s.tick ∧ (beforeGo s v drops).pending = s.pending := by
  cases drops <;> exact ⟨rfl, rfl⟩

section Go
variable {s : State} (v : Word) {reached : Bool} (cancel : cancels s = (s.flag Reg.MAC_SAU_STATUS.PENDING && !reached))
include cancel

/-- No list waits for GO where none waited before, or where the write itself drops it (R90). -/
theorem beforeGo_of_free (free : s.flag Reg.MAC_SAU_STATUS.PENDING = false ∨ v.getLsbD 62 = true ∧ reached = false) :
    (beforeGo s v (v.getLsbD 62 && cancels s)).flag Reg.MAC_SAU_STATUS.PENDING = false := by
  rw [beforeGo_pending, cancel]
  rcases free with none | ⟨asked, ahead⟩
  · rw [none, Bool.and_false]
  · rw [asked, ahead]
    cases s.flag Reg.MAC_SAU_STATUS.PENDING <;> rfl

/-- GO keeps the list that waits where CANCEL is not asked for, or comes too late (R90). -/
theorem keeps_of_late (late : v.getLsbD 62 = false ∨ reached = true) : (v.getLsbD 62 && cancels s) = false := by
  rw [cancel]
  rcases late with asked | late
  · rw [asked, Bool.false_and]
  · rw [late, Bool.not_true, Bool.and_false, Bool.and_false]

end Go

/-- GO that starts a check sets BUSY over what the write has done before. -/
theorem beforeGo_started (s : State) (v : Word) (drops : Bool) :
    ((beforeGo s v drops).setFlag Reg.MAC_SAU_STATUS.BUSY true).get Reg.MAC_SAU_CTRL.COUNT = bits v.toNat 12 0 ∧
      onlyRegs s { (beforeGo s v drops).setFlag Reg.MAC_SAU_STATUS.BUSY true with sau := s.sau }
        [Reg.MAC_SAU_CTRL.COUNT, Reg.MAC_SAU_STATUS.BUSY, Reg.MAC_SAU_STATUS.PENDING] := by
  have dropped := onlyRegs_mono (beforeGo_onlyRegs s v drops)
    (gs := [Reg.MAC_SAU_CTRL.COUNT, Reg.MAC_SAU_STATUS.BUSY, Reg.MAC_SAU_STATUS.PENDING]) (by decide)
  exact ⟨(State.get_set_other _ Reg.MAC_SAU_STATUS.BUSY Reg.MAC_SAU_CTRL.COUNT 1 (by decide)).trans (beforeGo_count ..),
    onlyRegs_trans dropped (State.set_onlyRegs _ (f := Reg.MAC_SAU_STATUS.BUSY) (by decide) 1)⟩

/-- Settles O22: CANCEL comes first in a write, so that GO finds the unit running, with a list that waits, or idle; and a list that
passes every check is accepted. -/
theorem scheduleAdmission : Obligations.ScheduleAdmission := by
  rintro s a dt v reached rfl hreached
  have cancel : cancels (s.advance dt) = ((s.advance dt).flag Reg.MAC_SAU_STATUS.PENDING && !reached) := by
    rw [hreached]
    rfl
  have clock (drops : Bool) := beforeGo_clock (s.advance dt) v drops
  refine ⟨fun idle free => ?_, fun idle waits late => ?_, fun busy noCancel => ?_, fun waits noGo ahead => ?_,
    fun noGo late => ?_, fun n addr after busy hn haddr some most inside applies passes ahead => ?_, fun busy count => ?_⟩
  · have none := beforeGo_of_free v cancel free
    obtain ⟨tick, pending⟩ := clock (v.getLsbD 62 && cancels (s.advance dt))
    obtain ⟨count, only⟩ := beforeGo_started (s.advance dt) v (v.getLsbD 62 && cancels (s.advance dt))
    refine sauGo_completes (sauGo_of_idle ((beforeGo_busy ..).trans idle) none) tick pending
      ⟨State.flag_setFlag_self _ Reg.MAC_SAU_STATUS.BUSY true, ?_, count, onlyRegsAnswered_of_onlyRegs only 0⟩
    exact (State.flag_setFlag_other _ Reg.MAC_SAU_STATUS.BUSY Reg.MAC_SAU_STATUS.PENDING true (by decide)).trans none
  · have keeps := keeps_of_late v cancel late
    obtain ⟨tick, pending⟩ := clock false
    have waiting := (beforeGo_pending (s.advance dt) v false).trans waits
    have refused := sauGo_of_waiting ((beforeGo_busy (s.advance dt) v false).trans idle) waiting
    obtain ⟨tickR, pendingR, sau, tables⟩ := sauRefuse_frame (beforeGo (s.advance dt) v false).drawn 0x0402
      ((beforeGo (s.advance dt) v false).free % 65536)
    exact sauGo_completes ((congrArg (fun d => sauGo (beforeGo (s.advance dt) v d)) keeps).trans refused) (tickR.trans tick)
      (pendingR.trans pending) ⟨sauRefuse_reason .., sau, (sauRefuse_pending ..).trans waiting, sauRefuse_accepted .., tables⟩
  · have keeps := keeps_of_late v cancel (.inl noCancel)
    have ignored := sauGo_of_busy ((beforeGo_busy (s.advance dt) v false).trans busy)
    have count := State.set_onlyRegs (s.advance dt) (f := Reg.MAC_SAU_CTRL.COUNT) (fs := [Reg.MAC_SAU_CTRL.COUNT]) (by decide)
      (bits v.toNat 12 0)
    exact sauGo_completes ((congrArg (fun d => sauGo (beforeGo (s.advance dt) v d)) keeps).trans ignored) rfl rfl
      (onlyRegsAnswered_of_onlyRegs count 0)
  · have drops : cancels (s.advance dt) = true := by
      rw [cancel, show (s.advance dt).flag Reg.MAC_SAU_STATUS.PENDING = true from waits, ahead]
      rfl
    exact sauCancel_completes noGo (congrArg (beforeGo (s.advance dt) v) drops) rfl rfl
      ⟨beforeGo_pending (s.advance dt) v true, rfl,
        onlyRegsAnswered_of_onlyRegs (beforeGo_onlyRegs (s.advance dt) v true) 0⟩
  · have keeps : cancels (s.advance dt) = false := by rw [cancel, late, Bool.not_true, Bool.and_false]
    have count := State.set_onlyRegs (s.advance dt) (f := Reg.MAC_SAU_CTRL.COUNT) (fs := [Reg.MAC_SAU_CTRL.COUNT]) (by decide)
      (bits v.toNat 12 0)
    exact sauCancel_completes noGo (congrArg (beforeGo (s.advance dt) v) keeps) rfl rfl (onlyRegsAnswered_of_onlyRegs count 0)
  · subst hn haddr
    have accepted := sauCheck_of_good (s := s.advance dt) some most inside applies passes ahead
    obtain ⟨idle, taken, waits⟩ := sauAccept_flags (s.advance dt) (s.get Reg.MAC_SAU_ACT_ASN.ACT_ASN)
      ((List.range (s.get Reg.MAC_SAU_CTRL.COUNT)).map (sauEntry s (s.get Reg.MAC_SAU_LIST.ADDR * 16)))
    exact completes_of_whenever (c := fun s => s.flag Reg.MAC_SAU_STATUS.BUSY) rfl busy accepted rfl rfl
      ⟨idle, taken, waits, rfl, sauAccept_onlyRegs ..⟩
  · have refused := sauCheck_of_empty (s := s.advance dt) count
    obtain ⟨tick, pending, -, tables⟩ := sauRefuse_frame (s.advance dt).drawn 0x0404 ((s.advance dt).free % 65536)
    exact completes_of_whenever (c := fun s => s.flag Reg.MAC_SAU_STATUS.BUSY) rfl busy refused tick pending
      ⟨sauRefuse_reason .., sauRefuse_accepted .., tables⟩

end Sys2Proof.Machine
end

section
/-!
SUPPORT. The radio front ends (R92 to R142): what a write of a front end's own state and of its register fields leaves, and what an
event reports. Then the statement about gain and the calibration of transmit entries (R95, R99 to R102).
-/

namespace Sys2Proof.Machine

/-! A front end's own state. -/

section SetFe
variable (s : State) (fe : Nat) (x y : FrontEnd)

/-- Putting a front end leaves the rest of the machine. -/
@[simp] theorem State.setFe_frame :
    (s.setFe fe x).fields = s.fields ∧ (s.setFe fe x).counters = s.counters ∧ (s.setFe fe x).events = s.events ∧
      (s.setFe fe x).outs = s.outs ∧ (s.setFe fe x).time = s.time ∧ (s.setFe fe x).mem = s.mem ∧ (s.setFe fe x).hear = s.hear ∧
      (s.setFe fe x).tick = s.tick ∧ (s.setFe fe x).pending = s.pending := by
  unfold State.setFe
  split_ifs <;> exact ⟨rfl, rfl, rfl, rfl, rfl, rfl, rfl, rfl, rfl⟩

@[simp] theorem State.fe_setFe_self : (s.setFe fe x).fe fe = x := by
  unfold State.fe State.setFe
  split_ifs <;> rfl

@[simp] theorem State.setFe_setFe : (s.setFe fe x).setFe fe y = s.setFe fe y := by
  unfold State.setFe
  split_ifs <;> rfl

@[simp] theorem State.setFe_fe_self : s.setFe fe (s.fe fe) = s := by
  unfold State.fe State.setFe
  split_ifs <;> rfl

@[simp] theorem State.setFe_get (g : Fld) : (s.setFe fe x).get g = s.get g := State.get_congr (State.setFe_frame s fe x).1 g

/-- All but the register fields is put back where a front end is put. -/
theorem State.setFe_with_fields (l : List (Nat × Nat)) :
    ({ s with fields := l } : State).setFe fe x = { s.setFe fe x with fields := l } := by
  unfold State.setFe
  split_ifs <;> rfl

end SetFe

@[simp] theorem State.advance_fe (s : State) (dt fe : Nat) : (s.advance dt).fe fe = s.fe fe := rfl
@[simp] theorem State.advance_flag (s : State) (dt : Nat) (g : Fld) : (s.advance dt).flag g = s.flag g := rfl
@[simp] theorem State.count_fe (s : State) (c n fe : Nat) : (s.count c n).fe fe = s.fe fe := by
  unfold State.fe
  simp only [State.count_frame]
@[simp] theorem State.set_fe (s : State) (f : Fld) (v fe : Nat) : (s.set f v).fe fe = s.fe fe := rfl
@[simp] theorem State.setFlag_fe (s : State) (f : Fld) (b : Bool) (fe : Nat) : (s.setFlag f b).fe fe = s.fe fe := rfl
@[simp] theorem State.setFlag_get_other (s : State) (f g : Fld) (b : Bool) (h : g.key ≠ f.key) : (s.setFlag f b).get g = s.get g :=
  State.get_set_other s f g _ h

/-! Changes of one front end and of register fields. -/

section OnlyFe
variable {a b t : State} {fe : Nat} {fs : List Fld}

theorem onlyRegs_setFe (h : onlyRegs a t fs) (fe : Nat) (x : FrontEnd) : onlyRegs (a.setFe fe x) (t.setFe fe x) fs := by
  obtain ⟨rest, fields⟩ := h
  refine ⟨?_, fun g other => by rw [State.setFe_get, State.setFe_get, fields g other]⟩
  rw [(State.setFe_frame a fe x).1, ← State.setFe_with_fields, rest]

theorem onlyFe_of_onlyRegs (h : onlyRegs a t fs) (fe : Nat) : onlyFe a t fe fs := by
  have put := onlyRegs_setFe h fe (a.fe fe)
  rwa [State.setFe_fe_self] at put

theorem onlyFe_refl (a : State) (fe : Nat) (fs : List Fld) : onlyFe a a fe fs := onlyFe_of_onlyRegs (onlyRegs_refl a fs) fe

theorem onlyFe_trans (h : onlyFe a b fe fs) (k : onlyFe b t fe fs) : onlyFe a t fe fs := by
  have put := onlyRegs_setFe k fe (a.fe fe)
  rw [State.setFe_setFe] at put
  exact onlyRegs_trans h put

theorem onlyFe_mono {gs : List Fld} (h : onlyFe a t fe fs) (sub : fs ⊆ gs) : onlyFe a t fe gs := onlyRegs_mono h sub

theorem State.setFe_onlyFe (s : State) (fe : Nat) (x : FrontEnd) (fs : List Fld) : onlyFe s (s.setFe fe x) fe fs := by
  unfold onlyFe
  rw [State.setFe_setFe, State.setFe_fe_self]
  exact onlyRegs_refl s fs

theorem State.set_onlyFe (s : State) {f : Fld} (hf : f ∈ fs) (v fe : Nat) : onlyFe s (s.set f v) fe fs :=
  onlyFe_of_onlyRegs (State.set_onlyRegs s hf v) fe

theorem State.setFlag_onlyFe (s : State) {f : Fld} (hf : f ∈ fs) (b : Bool) (fe : Nat) : onlyFe s (s.setFlag f b) fe fs :=
  State.set_onlyFe s hf _ fe

/-- A field that is not named holds what it held. -/
theorem onlyFe_get (h : onlyFe a t fe fs) {g : Fld} (other : ∀ f ∈ fs, g.key ≠ f.key) : t.get g = a.get g := by
  rw [← h.2 g other, State.setFe_get]

/-- A change of one front end leaves the clock and the queue of commands. -/
theorem onlyFe_clock (h : onlyFe a t fe fs) : t.tick = a.tick ∧ t.pending = a.pending := by
  obtain ⟨clock, queue, -, -⟩ := onlyRegs_frame h
  simp only [State.setFe_frame] at clock queue
  exact ⟨clock, queue⟩

/-- A command whose effect is a change of one front end completes with it. -/
theorem completes_of_onlyFe {i : Instr} {s r : State} {dt : Nat} {k : State → State} {post : State → Prop}
    (h : exec i s = step' dt s k) (effect : k (s.advance dt) = r) (only : onlyFe (s.advance dt) r fe fs) (hp : post r) :
    completes i s post :=
  completes_of_effect h effect (onlyFe_clock only).1 (onlyFe_clock only).2 hp

/-- A command with a precondition that holds, whose effect is a change of one front end. -/
theorem completes_of_whenever_onlyFe {i : Instr} {s r : State} {dt : Nat} {c : State → Bool} {k : State → State}
    {post : State → Prop} (h : exec i s = whenever dt s c k) (acts : c (s.advance dt) = true) (effect : k (s.advance dt) = r)
    (only : onlyFe (s.advance dt) r fe fs) (hp : post r) : completes i s post :=
  completes_of_onlyFe (h.trans (whenever_acts dt s c k acts)) effect only hp

end OnlyFe

/-- A command whose precondition fails completes with the passing of time. -/
theorem completes_of_whenever_idle {i : Instr} {s : State} {dt : Nat} {c : State → Bool} {k : State → State}
    (h : exec i s = whenever dt s c k) (idle : c (s.advance dt) = false) : completes i s fun t => t = s.advance dt :=
  ⟨s.advance dt, h.trans (whenever_idle dt s c k idle), rfl⟩

/-! What a register field holds after it is written. -/

theorem State.get_set_of_lt (s : State) (f : Fld) {v : Nat} (h : v < 2 ^ f.width) : (s.set f v).get f = v :=
  (State.get_set_self s f v).trans (Nat.mod_eq_of_lt h)

theorem ofSigned_lt (w : Nat) (x : Int) : ofSigned w x < 2 ^ w := by
  have pos : (0 : Int) < ((2 ^ w : Nat) : Int) := by exact_mod_cast Nat.two_pow_pos w
  have := Int.emod_lt_of_pos x pos
  have := Int.emod_nonneg x pos.ne'
  unfold ofSigned
  omega

theorem State.get_set_ofSigned (s : State) (f : Fld) (x : Int) : (s.set f (ofSigned f.width x)).get f = ofSigned f.width x :=
  State.get_set_of_lt s f (ofSigned_lt ..)

/-! The places of the fields of a transmit entry (R97). -/

/-- What an entry holds beside its frequency. -/
def txcalFields (fe i : Nat) : List Fld :=
  [Reg.FE_TXCAL_ENTRY.STATE fe i, Reg.FE_TXCAL_ENTRY.PRIOR fe i, Reg.FE_TXCAL_ENTRY.TCAL fe i]

/-- The entries stand above every control block. -/
theorem txcalFields_key (fe i : Nat) : ∀ f ∈ txcalFields fe i, 0x200000 * 64 ≤ f.key := by
  simp only [txcalFields, List.forall_mem_cons, Fld.key, Reg.FE_TXCAL_ENTRY.STATE, Reg.FE_TXCAL_ENTRY.PRIOR,
    Reg.FE_TXCAL_ENTRY.TCAL, windowOff]
  refine ⟨by omega, by omega, by omega, by simp⟩

/-- The fields of one entry stand apart. -/
theorem txcalFields_apart (fe i : Nat) : (Reg.FE_TXCAL_ENTRY.STATE fe i).key ≠ (Reg.FE_TXCAL_ENTRY.PRIOR fe i).key ∧
    (Reg.FE_TXCAL_ENTRY.STATE fe i).key ≠ (Reg.FE_TXCAL_ENTRY.TCAL fe i).key ∧
      (Reg.FE_TXCAL_ENTRY.PRIOR fe i).key ≠ (Reg.FE_TXCAL_ENTRY.TCAL fe i).key := by
  simp only [Fld.key, Reg.FE_TXCAL_ENTRY.STATE, Reg.FE_TXCAL_ENTRY.PRIOR, Reg.FE_TXCAL_ENTRY.TCAL]
  omega

/-- The state of one entry stands apart from another entry. -/
theorem txcalState_apart (fe : Nat) {i j : Nat} (h : i ≠ j) :
    (Reg.FE_TXCAL_ENTRY.STATE fe i).key ≠ (Reg.FE_TXCAL_ENTRY.STATE fe j).key ∧
      (Reg.FE_TXCAL_ENTRY.STATE fe i).key ≠ (Reg.FE_TXCAL_ENTRY.PRIOR fe j).key := by
  simp only [Fld.key, Reg.FE_TXCAL_ENTRY.STATE, Reg.FE_TXCAL_ENTRY.PRIOR, windowOff]
  omega

/-- A register field below the windows stands apart from every entry. -/
theorem txcalFields_low {f : Fld} (low : f.key < 0x200000 * 64) (fe i : Nat) : ∀ g ∈ txcalFields fe i, g.key ≠ f.key :=
  fun g hg => (Nat.lt_of_lt_of_le low (txcalFields_key fe i g hg)).ne'

/-! The counts of FEn_CAL_STATUS. -/

/-- The counts that follow the table. -/
def countFields (fe : Nat) : List Fld := [Reg.FE_CAL_STATUS.STALE_CNT fe, Reg.FE_CAL_STATUS.INVALID_CNT fe]

theorem countFields_low (fe : Fin 3) : ∀ f ∈ countFields fe, f.key < 0x200000 * 64 := by decide +revert

theorem refreshCal_onlyRegs (s : State) (fe : Nat) : onlyRegs s (refreshCal s fe) (countFields fe) :=
  onlyRegs_trans (State.set_onlyRegs s (List.mem_cons_self ..) _)
    (State.set_onlyRegs _ (List.mem_cons_of_mem _ (List.mem_singleton_self _)) _)

/-- The counts leave every entry. -/
theorem refreshCal_get_entry (s : State) (fe : Fin 3) {j i : Nat} {g : Fld} (hg : g ∈ txcalFields j i) :
    (refreshCal s fe).get g = s.get g :=
  (refreshCal_onlyRegs s fe).2 g fun f hf => txcalFields_low (countFields_low fe f hf) j i g hg

theorem refreshCal_fe (s : State) (fe j : Nat) : (refreshCal s fe).fe j = s.fe j := rfl

/-! Gain (R95). -/

/-- A step of the gain: its new state, and the peak that is shown. -/
def gainStep (s : State) (fe gain : Nat) (peak : Int) : State :=
  (s.set (Reg.FE_AGC_STATUS.GAIN_STATE fe) gain).set (Reg.FE_AGC_STATUS.PEAK_DBFS fe) (ofSigned 8 peak)

theorem gainStep_gain (s : State) (fe : Fin 3) {gain : Nat} (h : gain < 4) (peak : Int) :
    (gainStep s fe gain peak).get (Reg.FE_AGC_STATUS.GAIN_STATE fe) = gain :=
  (State.get_set_other _ _ _ _ (by decide +revert)).trans (State.get_set_of_lt s (Reg.FE_AGC_STATUS.GAIN_STATE fe) h)

theorem gainStep_onlyRegs (s : State) (fe gain : Nat) (peak : Int) :
    onlyRegs s (gainStep s fe gain peak) [Reg.FE_AGC_STATUS.GAIN_STATE fe, Reg.FE_AGC_STATUS.PEAK_DBFS fe] :=
  onlyRegs_trans (State.set_onlyRegs s (List.mem_cons_self ..) _)
    (State.set_onlyRegs _ (List.mem_cons_of_mem _ (List.mem_singleton_self _)) _)

section Gain
variable {s : State} {fe : Fin 3} {n : Nat} {peak : Int} (dt : Nat)

theorem agcStepDown_completes (free : s.flag (Reg.FE_AGC_CTRL.FREEZE fe) = false) (many : 8 < n)
    (loud : -(s.get (Reg.FE_AGC_CTRL.CLIP_DBFS fe) : Int) < peak) (room : s.get (Reg.FE_AGC_STATUS.GAIN_STATE fe) < 3) :
    completes (.agcStepDown dt fe n peak) s fun t =>
      t.get (Reg.FE_AGC_STATUS.GAIN_STATE fe) = s.get (Reg.FE_AGC_STATUS.GAIN_STATE fe) + 1 ∧
        onlyRegs (s.advance dt) t [Reg.FE_AGC_STATUS.GAIN_STATE fe, Reg.FE_AGC_STATUS.PEAK_DBFS fe] := by
  have acts : (!(s.advance dt).flag (Reg.FE_AGC_CTRL.FREEZE fe) && decide (8 < n ∧
      -((s.advance dt).get (Reg.FE_AGC_CTRL.CLIP_DBFS fe) : Int) < peak ∧
        (s.advance dt).get (Reg.FE_AGC_STATUS.GAIN_STATE fe) < 3)) = true :=
    Bool.and_eq_true_iff.2 ⟨congrArg not free, decide_eq_true ⟨many, loud, room⟩⟩
  have only := gainStep_onlyRegs (s.advance dt) fe (s.get (Reg.FE_AGC_STATUS.GAIN_STATE fe) + 1) peak
  refine completes_of_whenever_onlyFe (c := fun s => !s.flag (Reg.FE_AGC_CTRL.FREEZE fe) && decide (8 < n ∧
    -(s.get (Reg.FE_AGC_CTRL.CLIP_DBFS fe) : Int) < peak ∧ s.get (Reg.FE_AGC_STATUS.GAIN_STATE fe) < 3)) rfl acts rfl
    (onlyFe_of_onlyRegs only fe) ⟨?_, only⟩
  exact gainStep_gain (s.advance dt) fe (gain := s.get (Reg.FE_AGC_STATUS.GAIN_STATE fe) + 1) (by omega) peak

theorem agcStepUp_completes (free : s.flag (Reg.FE_AGC_CTRL.FREEZE fe) = false)
    (long : 10 * max 1 (s.get (Reg.FE_AGC_CTRL.UP_WAIT fe)) ≤ n)
    (quiet : peak < -(2 * s.get (Reg.FE_AGC_CTRL.LOW_DBFS fe) : Int)) (room : 0 < s.get (Reg.FE_AGC_STATUS.GAIN_STATE fe))
    (top : s.get (Reg.FE_AGC_STATUS.GAIN_STATE fe) ≤ 3) :
    completes (.agcStepUp dt fe n peak) s fun t =>
      t.get (Reg.FE_AGC_STATUS.GAIN_STATE fe) = s.get (Reg.FE_AGC_STATUS.GAIN_STATE fe) - 1 ∧
        onlyRegs (s.advance dt) t [Reg.FE_AGC_STATUS.GAIN_STATE fe, Reg.FE_AGC_STATUS.PEAK_DBFS fe] := by
  have acts : (!(s.advance dt).flag (Reg.FE_AGC_CTRL.FREEZE fe) && decide (10 * max 1 ((s.advance dt).get
      (Reg.FE_AGC_CTRL.UP_WAIT fe)) ≤ n ∧ peak < -(2 * (s.advance dt).get (Reg.FE_AGC_CTRL.LOW_DBFS fe) : Int) ∧
        0 < (s.advance dt).get (Reg.FE_AGC_STATUS.GAIN_STATE fe))) = true :=
    Bool.and_eq_true_iff.2 ⟨congrArg not free, decide_eq_true ⟨long, quiet, room⟩⟩
  have only := gainStep_onlyRegs (s.advance dt) fe (s.get (Reg.FE_AGC_STATUS.GAIN_STATE fe) - 1) peak
  refine completes_of_whenever_onlyFe (c := fun s => !s.flag (Reg.FE_AGC_CTRL.FREEZE fe) && decide (10 * max 1 (s.get
    (Reg.FE_AGC_CTRL.UP_WAIT fe)) ≤ n ∧ peak < -(2 * s.get (Reg.FE_AGC_CTRL.LOW_DBFS fe) : Int) ∧
      0 < s.get (Reg.FE_AGC_STATUS.GAIN_STATE fe))) rfl acts rfl (onlyFe_of_onlyRegs only fe) ⟨?_, only⟩
  exact gainStep_gain (s.advance dt) fe (gain := s.get (Reg.FE_AGC_STATUS.GAIN_STATE fe) - 1) (by omega) peak

end Gain

/-! The comparison of temperatures (R99). -/

/-- A fold over distinct places that changes what `π` reads only at one of them changes it once. -/
theorem foldl_at_once {γ : Type} (π : State → γ) {f : State → Nat → State} {g : γ → γ} {i : Nat}
    (other : ∀ s j, j ≠ i → π (f s j) = π s) (here : ∀ s, π (f s i) = g (π s)) {l : List Nat} (nodup : l.Nodup) (mem : i ∈ l)
    (s : State) : π (l.foldl f s) = g (π s) := by
  induction l generalizing s with
  | nil => exact absurd mem (by simp)
  | cons j l ih =>
    obtain ⟨apart, nodup⟩ := List.nodup_cons.1 nodup
    rw [List.foldl_cons]
    rcases List.mem_cons.1 mem with rfl | mem
    · rw [← here]
      exact List.foldlRecOn (motive := fun t => π t = π (f s i)) l f rfl fun t ht j hj =>
        (other t j fun e => apart (e ▸ hj)).trans ht
    · rw [ih nodup mem, other s j fun e => apart (e ▸ mem)]

/-- A VALID entry far from the die becomes STALE. -/
def staleStep (fe : Nat) (far : Nat → Bool) (s : State) (i : Nat) : State :=
  s.onlyIf (decide (calState s fe i = Cal.VALID) && far i) fun s => s.set (Reg.FE_TXCAL_ENTRY.STATE fe i) Cal.STALE

/-- The comparison of one entry; while it is being calibrated, its PRIOR becomes STALE. -/
def tempStep (fe : Nat) (far : Nat → Bool) (s : State) (i : Nat) : State :=
  let s := staleStep fe far s i
  s.onlyIf (decide (calState s fe i = Cal.CALIBRATING ∧ s.get (Reg.FE_TXCAL_ENTRY.PRIOR fe i) = Cal.VALID) && far i)
    fun s => s.set (Reg.FE_TXCAL_ENTRY.PRIOR fe i) Cal.STALE

/-- Is an entry more than 8 °C from a die temperature? -/
def tempFar (s : State) (fe : Nat) (die : Int) (i : Nat) : Bool :=
  decide (64 < (die - toSigned 12 (s.get (Reg.FE_TXCAL_ENTRY.TCAL fe i))).natAbs)

/-- A die temperature is taken and shown. -/
def tempTaken (s : State) (fe : Nat) (die : Int) : State :=
  (s.setFe fe { s.fe fe with die := die, tempAt := some (s.time.ns / 10000000) }).set (Reg.FE_STATUS.TEMP fe)
    (ofSigned 8 (die.tdiv 8))

/-- The entries of a front end are compared with a die temperature. -/
def tempCompared (s : State) (fe : Nat) (die : Int) : State :=
  refreshCal ((List.range ((tempTaken s fe die).fe fe).used).foldl (tempStep fe (tempFar (tempTaken s fe die) fe die))
    (tempTaken s fe die)) fe

section Temp
variable (fe : Nat) (far : Nat → Bool) (s : State)

/-- The comparison of one entry writes its STATE or its PRIOR. -/
theorem tempStep_onlyRegs (i : Nat) :
    onlyRegs s (tempStep fe far s i) [Reg.FE_TXCAL_ENTRY.STATE fe i, Reg.FE_TXCAL_ENTRY.PRIOR fe i] :=
  State.onlyIf_keeps (P := fun t => onlyRegs s t _) _ _ _
    (State.onlyIf_keeps (P := fun t => onlyRegs s t _) _ _ _ (onlyRegs_refl s _) fun _ =>
      State.set_onlyRegs s (List.mem_cons_self ..) _)
    fun h => onlyRegs_trans h (State.set_onlyRegs _ (List.mem_cons_of_mem _ (List.mem_singleton_self _)) _)

theorem tempStep_calState_other {i j : Nat} (h : j ≠ i) : calState (tempStep fe far s j) fe i = calState s fe i := by
  obtain ⟨state, prior⟩ := txcalState_apart fe h.symm
  exact (tempStep_onlyRegs fe far s j).2 _ (by simp [state, prior])

theorem staleStep_calState (i : Nat) : calState (staleStep fe far s i) fe i =
    if calState s fe i = Cal.VALID ∧ far i = true then Cal.STALE else calState s fe i := by
  unfold staleStep
  by_cases stale : calState s fe i = Cal.VALID ∧ far i = true
  · rw [if_pos stale, decide_eq_true stale.1, stale.2]
    exact State.get_set_self s (Reg.FE_TXCAL_ENTRY.STATE fe i) Cal.STALE
  · rw [if_neg stale, show (decide (calState s fe i = Cal.VALID) && far i) = false by simpa using stale]
    rfl

theorem tempStep_calState (i : Nat) : calState (tempStep fe far s i) fe i =
    if calState s fe i = Cal.VALID ∧ far i = true then Cal.STALE else calState s fe i := by
  obtain ⟨apart, -, -⟩ := txcalFields_apart fe i
  rw [← staleStep_calState]
  exact State.onlyIf_keeps (P := fun t => calState t fe i = calState (staleStep fe far s i) fe i) (staleStep fe far s i) _ _ rfl
    fun _ => State.get_set_other _ _ _ _ apart

/-- Comparing entries leaves everything below the windows and beside the register fields. -/
theorem tempSteps_frame (l : List Nat) : { l.foldl (tempStep fe far) s with fields := s.fields } = s ∧
    ∀ g : Fld, g.key < 0x200000 * 64 → (l.foldl (tempStep fe far) s).get g = s.get g := by
  refine List.foldlRecOn (motive := fun t : State => { t with fields := s.fields } = s ∧ ∀ g : Fld, g.key < 0x200000 * 64 →
    t.get g = s.get g) l _ ⟨rfl, fun _ _ => rfl⟩ fun t ht i _ => ?_
  obtain ⟨rest, fields⟩ := tempStep_onlyRegs fe far t i
  obtain ⟨restT, fieldsT⟩ := ht
  rw [← rest] at restT
  refine ⟨restT, fun g low => (fields g fun f hf => ?_).trans (fieldsT g low)⟩
  exact (txcalFields_low low fe i f (by simp only [txcalFields, List.mem_cons] at hf ⊢; tauto)).symm

end Temp

/-- TEMP stands below the windows, and apart from the counts. -/
theorem temp_apart (fe : Fin 3) : (Reg.FE_STATUS.TEMP fe).key < 0x200000 * 64 ∧
    ∀ f ∈ countFields fe, (Reg.FE_STATUS.TEMP fe).key ≠ f.key := by decide +revert

section TempCompared
variable (s : State) (fe : Fin 3) (die : Int)

theorem tempTaken_get_entry {j i : Nat} {g : Fld} (hg : g ∈ txcalFields j i) : (tempTaken s fe die).get g = s.get g :=
  (State.get_set_other _ _ _ _ (txcalFields_low (temp_apart fe).1 j i g hg)).trans (State.setFe_get ..)

/-- What the comparison makes of an entry. -/
theorem tempCompared_calState {i : Nat} (used : i < (s.fe fe).used) : calState (tempCompared s fe die) fe i =
    if calState s fe i = Cal.VALID ∧ tempFar s fe die i = true then Cal.STALE else calState s fe i := by
  have mem : i ∈ List.range ((tempTaken s fe die).fe fe).used := by
    rw [tempTaken, State.set_fe, State.fe_setFe_self]
    exact List.mem_range.2 used
  have far : tempFar (tempTaken s fe die) fe die i = tempFar s fe die i := by
    rw [tempFar, tempFar, tempTaken_get_entry (j := fe) (i := i) _ _ _ (by simp [txcalFields])]
  have taken : calState (tempTaken s fe die) fe i = calState s fe i :=
    tempTaken_get_entry (j := fe) (i := i) _ _ _ (by simp [txcalFields])
  have counted : calState (tempCompared s fe die) fe i = _ :=
    refreshCal_get_entry _ fe (j := fe) (i := i) (by simp [txcalFields])
  refine counted.trans ?_
  have compared := foldl_at_once (fun t => calState t fe i)
    (g := fun st => if st = Cal.VALID ∧ tempFar (tempTaken s fe die) fe die i = true then Cal.STALE else st)
    (fun t j h => tempStep_calState_other fe (tempFar (tempTaken s fe die) fe die) t h)
    (fun t => tempStep_calState fe (tempFar (tempTaken s fe die) fe die) t i) List.nodup_range mem (tempTaken s fe die)
  rwa [far, taken] at compared

theorem tempCompared_temp : (tempCompared s fe die).get (Reg.FE_STATUS.TEMP fe) = ofSigned 8 (die.tdiv 8) := by
  have counted := (refreshCal_onlyRegs ((List.range ((tempTaken s fe die).fe fe).used).foldl
    (tempStep fe (tempFar (tempTaken s fe die) fe die)) (tempTaken s fe die)) fe).2 (Reg.FE_STATUS.TEMP fe) (temp_apart fe).2
  refine counted.trans (((tempSteps_frame fe _ _ _).2 _ (temp_apart fe).1).trans ?_)
  exact State.get_set_ofSigned _ (Reg.FE_STATUS.TEMP fe) _

/-- The comparison changes no more than register fields and the front end. -/
theorem tempCompared_frame : { tempCompared s fe die with fields := s.fields, fe0 := s.fe0, fe1 := s.fe1, fe2 := s.fe2 } = s := by
  have taken : { tempTaken s fe die with fields := s.fields, fe0 := s.fe0, fe1 := s.fe1, fe2 := s.fe2 } = s := by
    unfold tempTaken State.setFe
    split_ifs <;> rfl
  have compared := (tempSteps_frame fe (tempFar (tempTaken s fe die) fe die) (tempTaken s fe die)
    (List.range ((tempTaken s fe die).fe fe).used)).1
  have counted := (refreshCal_onlyRegs ((List.range ((tempTaken s fe die).fe fe).used).foldl
    (tempStep fe (tempFar (tempTaken s fe die) fe die)) (tempTaken s fe die)) fe).1
  rw [← counted] at compared
  rw [← compared] at taken
  exact taken

theorem tempCompared_clock : (tempCompared s fe die).tick = s.tick ∧ (tempCompared s fe die).pending = s.pending := by
  have rest := tempCompared_frame s fe die
  generalize tempCompared s fe die = t at rest
  have clock := congrArg State.tick rest
  have queue := congrArg State.pending rest
  exact ⟨clock, queue⟩

end TempCompared

/-! Background calibration (R100, R102). -/

/-- The fields that the calibration of an entry writes, with the counts. -/
def calFields (fe i : Nat) : List Fld := txcalFields fe i ++ countFields fe

section CalStart
variable (s : State) (fe : Fin 3) (i : Nat)

/-- An entry whose calibration starts unasked is CALIBRATING, with its state in PRIOR. -/
theorem calStart_entry : calState (calStart s fe i false) fe i = Cal.CALIBRATING ∧
    (calStart s fe i false).get (Reg.FE_TXCAL_ENTRY.PRIOR fe i) = calState s fe i % 4 ∧
      ((calStart s fe i false).fe fe).cal = some { entry := i, requested := false } := by
  obtain ⟨apart, -, -⟩ := txcalFields_apart fe i
  refine ⟨(refreshCal_get_entry _ fe (j := fe) (i := i) (by simp [txcalFields])).trans ?_,
    (refreshCal_get_entry _ fe (j := fe) (i := i) (by simp [txcalFields])).trans ?_, ?_⟩
  · exact State.get_set_self _ (Reg.FE_TXCAL_ENTRY.STATE fe i) Cal.CALIBRATING
  · exact (State.get_set_other _ _ _ _ apart.symm).trans (State.get_set_self _ (Reg.FE_TXCAL_ENTRY.PRIOR fe i) _)
  · rw [calStart, refreshCal_fe, State.set_fe, State.set_fe, State.fe_setFe_self]

theorem calStart_onlyFe : onlyFe s (calStart s fe i false) fe [Reg.FE_TXCAL_ENTRY.STATE fe i, Reg.FE_TXCAL_ENTRY.PRIOR fe i,
    Reg.FE_CAL_STATUS.STALE_CNT fe, Reg.FE_CAL_STATUS.INVALID_CNT fe] := by
  refine onlyFe_trans (onlyFe_trans (onlyFe_trans (State.setFe_onlyFe s fe _ _) (State.set_onlyFe _ ?_ _ _))
    (State.set_onlyFe _ ?_ _ _)) (onlyFe_of_onlyRegs (onlyRegs_mono (refreshCal_onlyRegs _ fe) ?_) fe) <;> simp [countFields]

end CalStart

section CalValid
variable (s : State) (fe : Fin 3) (i : Nat)

/-- An entry that becomes VALID takes the die temperature (R100, R101). -/
theorem calValid_entry : calState (calValid s fe i) fe i = Cal.VALID ∧
    (calValid s fe i).get (Reg.FE_TXCAL_ENTRY.TCAL fe i) = ofSigned 12 (s.fe fe).die := by
  obtain ⟨statePrior, stateTcal, -⟩ := txcalFields_apart fe i
  refine ⟨(refreshCal_get_entry _ fe (j := fe) (i := i) (by simp [txcalFields])).trans ?_,
    (refreshCal_get_entry _ fe (j := fe) (i := i) (by simp [txcalFields])).trans ?_⟩
  · exact (State.get_set_other _ _ _ _ stateTcal).trans ((State.get_set_other _ _ _ _ statePrior).trans
      (State.get_set_self _ (Reg.FE_TXCAL_ENTRY.STATE fe i) Cal.VALID))
  · exact State.get_set_ofSigned _ (Reg.FE_TXCAL_ENTRY.TCAL fe i) _

theorem calValid_onlyRegs : onlyRegs s (calValid s fe i) (calFields fe i) := by
  refine onlyRegs_trans (onlyRegs_trans (onlyRegs_trans (State.set_onlyRegs s ?_ _) (State.set_onlyRegs _ ?_ _))
    (State.set_onlyRegs _ ?_ _)) (onlyRegs_mono (refreshCal_onlyRegs _ fe) (List.subset_append_right ..)) <;>
    simp [calFields, txcalFields]

theorem calValid_fe (j : Nat) : (calValid s fe i).fe j = s.fe j := by
  simp only [calValid, refreshCal_fe, State.set_fe]

end CalValid

/-- The calibration of an entry has failed: it is INVALID (R102). -/
def calInvalid (s : State) (fe i : Nat) : State :=
  refreshCal ((s.set (Reg.FE_TXCAL_ENTRY.STATE fe i) Cal.INVALID).set (Reg.FE_TXCAL_ENTRY.PRIOR fe i) 0) fe

section CalInvalid
variable (s : State) (fe : Fin 3) (i : Nat)

theorem calInvalid_calState : calState (calInvalid s fe i) fe i = Cal.INVALID :=
  (refreshCal_get_entry _ fe (j := fe) (i := i) (by simp [txcalFields])).trans
    ((State.get_set_other _ _ _ _ (txcalFields_apart fe i).1).trans
      (State.get_set_self _ (Reg.FE_TXCAL_ENTRY.STATE fe i) Cal.INVALID))

theorem calInvalid_frame : (calInvalid s fe i).counters = s.counters ∧ (calInvalid s fe i).events = s.events ∧
    (calInvalid s fe i).tick = s.tick ∧ (calInvalid s fe i).pending = s.pending ∧
      ∀ j, (calInvalid s fe i).fe j = s.fe j := ⟨rfl, rfl, rfl, rfl, fun _ => rfl⟩

end CalInvalid

/-- The chain has no calibration of an entry any more. -/
def calOver (s : State) (fe : Nat) : State := s.setFe fe { s.fe fe with cal := none }

theorem calOver_onlyFe (s : State) (fe : Nat) (fs : List Fld) : onlyFe s (calOver s fe) fe fs := State.setFe_onlyFe ..

theorem calOver_fe (s : State) (fe : Nat) : (calOver s fe).fe fe = { s.fe fe with cal := none } := State.fe_setFe_self ..

/-! The statement. -/

section BgCalStart
variable {s : State} {fe : Fin 3} {i : Nat} (dt : Nat)

theorem bgCalStart_completes (run : s.inRun = true) (free : (s.fe fe).cal = none) (idle : idleChain (s.advance dt) fe = true)
    (own : requestNext s fe = none) (enabled : s.flag (Reg.FE_TXCAL_CTRL.BG_EN fe) = true) (next : bgNext s fe = some i) :
    completes (.bgCalStart dt fe) s fun t => calState t fe i = Cal.CALIBRATING ∧
      t.get (Reg.FE_TXCAL_ENTRY.PRIOR fe i) = calState s fe i % 4 ∧ (t.fe fe).cal = some { entry := i, requested := false } ∧
        onlyFe (s.advance dt) t fe [Reg.FE_TXCAL_ENTRY.STATE fe i, Reg.FE_TXCAL_ENTRY.PRIOR fe i,
          Reg.FE_CAL_STATUS.STALE_CNT fe, Reg.FE_CAL_STATUS.INVALID_CNT fe] := by
  have acts : ((s.advance dt).inRun && ((s.advance dt).fe fe).cal.isNone && idleChain (s.advance dt) fe) = true := by
    rw [idle, Bool.and_true]
    exact Bool.and_eq_true_iff.2 ⟨run, Option.isNone_iff_eq_none.2 free⟩
  have only := calStart_onlyFe (s.advance dt) fe i
  obtain ⟨state, prior, cal⟩ := calStart_entry (s.advance dt) fe i
  refine completes_of_whenever_onlyFe (dt := dt) (c := fun s => s.inRun && (s.fe fe).cal.isNone && idleChain s fe)
    (by unfold exec execBgCalStart; rfl) acts ?_ only ⟨state, prior, cal, only⟩
  rw [show requestNext (s.advance dt) fe = none from own, if_pos (show (s.advance dt).flag _ = true from enabled),
    show bgNext (s.advance dt) fe = some i from next]

end BgCalStart

section TxCalDone
variable {s : State} {fe : Fin 3} {i : Nat} (dt : Nat) (runs : (s.fe fe).cal = some { entry := i, requested := false })
include runs

theorem txCalDone_succeeds : completes (.txCalDone dt fe true) s fun t => calState t fe i = Cal.VALID ∧ (t.fe fe).cal = none ∧
    t.get (Reg.FE_TXCAL_ENTRY.TCAL fe i) = ofSigned 12 (s.fe fe).die ∧
      onlyFe (s.advance dt) t fe [Reg.FE_TXCAL_ENTRY.STATE fe i, Reg.FE_TXCAL_ENTRY.PRIOR fe i,
        Reg.FE_TXCAL_ENTRY.TCAL fe i, Reg.FE_CAL_STATUS.STALE_CNT fe, Reg.FE_CAL_STATUS.INVALID_CNT fe] := by
  have only : onlyFe (s.advance dt) (calValid (calOver (s.advance dt) fe) fe i) fe (calFields fe i) :=
    onlyFe_trans (calOver_onlyFe (s.advance dt) fe _) (onlyFe_of_onlyRegs (calValid_onlyRegs _ fe i) fe)
  obtain ⟨state, tcal⟩ := calValid_entry (calOver (s.advance dt) fe) fe i
  have gone := (calValid_fe (calOver (s.advance dt) fe) fe i fe).trans (calOver_fe (s.advance dt) fe)
  rw [calOver_fe] at tcal
  refine completes_of_onlyFe (dt := dt) (by unfold exec execTxCalDone; rfl) ?_ only ⟨state, congrArg FrontEnd.cal gone, tcal, only⟩
  rw [show ((s.advance dt).fe fe).cal = _ from runs]
  rfl

theorem txCalDone_fails : completes (.txCalDone dt fe false) s fun t => calState t fe i = Cal.INVALID ∧ (t.fe fe).cal = none ∧
    countedOnce s t Ctr.BG_CAL_FAIL ∧ t.events = s.events := by
  obtain ⟨counters, events, clock, queue, fronts⟩ := calInvalid_frame (calOver (s.advance dt) fe) fe i
  obtain ⟨clockO, queueO⟩ := onlyFe_clock (calOver_onlyFe (s.advance dt) fe [])
  have cal := congrArg FrontEnd.cal ((fronts fe).trans (calOver_fe (s.advance dt) fe))
  have kept := State.setFe_frame (s.advance dt) fe { (s.advance dt).fe fe with cal := none }
  refine completes_of_effect (r := (calInvalid (calOver (s.advance dt) fe) fe i).count Ctr.BG_CAL_FAIL) (dt := dt)
    (by unfold exec execTxCalDone; rfl) ?_ ?_ ?_ ⟨?_, ?_, ?_, ?_⟩
  · rw [show ((s.advance dt).fe fe).cal = _ from runs]
    rfl
  · rw [(State.count_frame ..).1]
    exact clock.trans clockO
  · simp only [State.count_frame]
    exact queue.trans queueO
  · exact (State.count_get ..).trans (calInvalid_calState ..)
  · rw [State.count_fe, cal]
  · rw [countedOnce, State.count, State.count, Cells.get_set_self, Cells.get_set_self, counters, calOver, kept.2.1]
    rfl
  · simp only [State.count_frame]
    exact events.trans kept.2.2.1

end TxCalDone

/-- Settles O23: each command's precondition is the rule's, and its effect writes the entry that the rule names once. -/
theorem gainAndEntryCalibration : Obligations.GainAndEntryCalibration := by
  refine ⟨fun s dt fe n peak => ⟨agcStepDown_completes dt, agcStepUp_completes dt, fun frozen => ⟨?_, ?_⟩⟩,
    fun s dt fe die i most used => ⟨fun idle => ?_, fun due valid => ?_, bgCalStart_completes dt, fun runs =>
      ⟨txCalDone_succeeds dt runs, txCalDone_fails dt runs⟩⟩⟩
  · exact completes_of_whenever_idle (by unfold exec execAgcStepDown; rfl) (by simp [frozen])
  · exact completes_of_whenever_idle (by unfold exec execAgcStepUp; rfl) (by simp [frozen])
  · exact completes_of_whenever_idle (c := fun s => tempDue s fe) rfl idle
  · obtain ⟨clock, queue⟩ := tempCompared_clock (s.advance dt) fe die
    have state := tempCompared_calState (s.advance dt) fe die (i := i) used
    refine completes_of_whenever (c := fun s => tempDue s fe) (k := fun s => tempCompared s fe die) rfl due rfl clock queue
      ⟨tempCompared_temp (s.advance dt) fe die, state.trans ?_, tempCompared_frame (s.advance dt) fe die⟩
    have here : calState (s.advance dt) fe i = Cal.VALID := valid
    simp only [here, true_and, tempFar, decide_eq_true_eq]
    rfl


end Sys2Proof.Machine
end

section
/-!
SUPPORT. Emissions (R104 to R111, R123): what the end of an emission changes of the traffic behind the front ends, and what an event
reports of it. Then the statement about an emission from its hop to its last chip.
-/

namespace Sys2Proof.Machine

/-! What an event reports (R44). -/

theorem State.recordEvent_counters (s : State) (r : EventRec) : (s.recordEvent r).counters = s.counters := by
  rcases State.recordEvent_cases s r with h | ⟨-, h⟩
  · rw [h]
  · rw [h]
    simp only [State.bump_frame, State.setFlag_frame]

section Event
variable (s : State) (code source arg : Nat)

theorem State.event_counters : (s.event code source arg).counters = (s.count code).counters := by
  rw [State.event_eq]
  exact State.onlyIf_keeps (P := fun t => t.counters = (s.count code).counters) _ _ _ rfl fun _ =>
    State.recordEvent_counters ..

/-- An event leaves the front ends, the lanes, what was put out, the clock and the queue of commands. -/
theorem State.event_rest : (∀ fe, (s.event code source arg).fe fe = s.fe fe) ∧ (s.event code source arg).hear = s.hear ∧
    (s.event code source arg).outs = s.outs ∧ (s.event code source arg).time = s.time ∧
      (s.event code source arg).tick = s.tick ∧ (s.event code source arg).pending = s.pending := by
  have rest := State.event_frame s code source arg
  generalize s.event code source arg = t at rest
  have fronts (fe : Nat) := congrArg (fun u : State => u.fe fe) rest
  have hear := congrArg State.hear rest
  have outs := congrArg State.outs rest
  have time := congrArg State.time rest
  have clock := congrArg State.tick rest
  have queue := congrArg State.pending rest
  exact ⟨fronts, hear, outs, time, clock, queue⟩

theorem State.event_countedOnce : countedOnce s (s.event code source arg) code :=
  congrArg (Cells.get · code 0) (State.event_counters ..)

theorem State.event_reports {p : Nat → Prop} (h : p (arg % 2 ^ 48)) : reports s (s.event code source arg) code p := by
  refine ⟨State.event_countedOnce .., fun room on => ?_⟩
  rw [State.event_enabled s code source arg on room]
  exact ⟨_, List.mem_append_right _ (List.mem_singleton_self _), rfl, rfl, h⟩

end Event

section Reports
variable {a b t : State} {code : Nat} {p : Nat → Prop}

/-- What was reported stays reported while its counter stands and its record is kept. -/
theorem reports_of_kept (h : reports a b code p) (counter : Cells.get t.counters code 0 = Cells.get b.counters code 0)
    (events : b.events ⊆ t.events) : reports a t code p := by
  obtain ⟨counted, recorded⟩ := h
  refine ⟨counter.trans counted, fun room on => ?_⟩
  obtain ⟨r, mem, shown⟩ := recorded room on
  exact ⟨r, events mem, shown⟩

/-- What is reported from one state is reported from another with the same fields, counters, events and time. -/
theorem reports_congr (h : reports b t code p) (fields : b.fields = a.fields) (counters : b.counters = a.counters)
    (events : b.events = a.events) (time : b.time = a.time) : reports a t code p := by
  have enabled : b.eventEnabled code = a.eventEnabled code := by
    rw [State.eventEnabled, State.eventEnabled, State.get_congr fields]
  unfold reports countedOnce State.count at h ⊢
  rwa [counters, events, time, enabled] at h

end Reports

/-! The traffic behind the front ends. -/

/-- `t` is `a` but for the queues, the scheduler, the MAC, the loopbacks, free values, the totals of the ports, the register fields
from CHAN on and TX_FAIL: all that the end of an emission changes behind its front end. -/
structure onlyTraffic (a t : State) : Prop where
  rest : { t with fields := a.fields, counters := a.counters, q := a.q, sched := a.sched, mac := a.mac, safe := a.safe
                  freeCtr := a.freeCtr, perf := a.perf } = a
  get_eq : ∀ g : Fld, g.key < 0x80000 * 64 → t.get g = a.get g
  counter_eq : ∀ c, c ≠ Ctr.TX_FAIL → Cells.get t.counters c 0 = Cells.get a.counters c 0

namespace onlyTraffic

theorem of_rest {a t : State} (fields : t.fields = a.fields) (counters : t.counters = a.counters)
    (rest : { t with q := a.q, sched := a.sched, mac := a.mac, safe := a.safe, freeCtr := a.freeCtr, perf := a.perf } = a) :
    onlyTraffic a t where
  rest := by rw [← fields, ← counters]; exact rest
  get_eq g _ := State.get_congr fields g
  counter_eq c _ := by rw [counters]

theorem refl (a : State) : onlyTraffic a a := of_rest rfl rfl rfl

theorem trans {a b t : State} (h : onlyTraffic a b) (k : onlyTraffic b t) : onlyTraffic a t where
  rest := by
    have rest := h.rest
    rw [← k.rest] at rest
    exact rest
  get_eq g low := (k.get_eq g low).trans (h.get_eq g low)
  counter_eq c other := (k.counter_eq c other).trans (h.counter_eq c other)

theorem onlyIf (s : State) (c : Bool) {k : State → State} (h : ∀ s, onlyTraffic s (k s)) : onlyTraffic s (s.onlyIf c k) :=
  State.onlyIf_keeps (P := onlyTraffic s) s c k (refl s) fun _ => h s

theorem foldl {β : Type} {f : State → β → State} (h : ∀ s e, onlyTraffic s (f s e)) (l : List β) (s : State) :
    onlyTraffic s (l.foldl f s) :=
  List.foldlRecOn (motive := onlyTraffic s) l f (refl s) fun _ ht e _ => ht.trans (h _ e)

theorem set (s : State) {f : Fld} (high : 0x80000 ≤ f.off) (v : Nat) : onlyTraffic s (s.set f v) := by
  refine ⟨rfl, fun g low => State.get_set_other s f g v ?_, fun _ _ => rfl⟩
  unfold Fld.key at low ⊢
  omega

theorem setFlag (s : State) {f : Fld} (high : 0x80000 ≤ f.off) (b : Bool) : onlyTraffic s (s.setFlag f b) := set s high _

theorem setSched (s : State) (x : SchedState) : onlyTraffic s (s.setSched x) := of_rest rfl rfl rfl
theorem setMac (s : State) (x : MacState) : onlyTraffic s (s.setMac x) := of_rest rfl rfl rfl
theorem setQ (s : State) (x : QueueState) : onlyTraffic s (s.setQ x) := of_rest rfl rfl rfl
theorem drawn (s : State) : onlyTraffic s s.drawn := of_rest rfl rfl rfl
theorem portTx (s : State) (port bytes air : Nat) : onlyTraffic s (s.portTx port bytes air) := of_rest rfl rfl rfl

theorem countTxFail (s : State) : onlyTraffic s (s.count Ctr.TX_FAIL) where
  rest := by simp only [State.count_frame]
  get_eq g _ := State.count_get ..
  counter_eq _ other := Cells.get_set_other _ _ _ _ other

section
variable {a t : State} (h : onlyTraffic a t)
include h

theorem fe_eq (fe : Nat) : t.fe fe = a.fe fe := by
  have fronts := congrArg (fun u : State => u.fe fe) h.rest
  exact fronts

theorem outs_eq : t.outs = a.outs := by
  have outs := congrArg State.outs h.rest
  exact outs

theorem events_eq : t.events = a.events := by
  have events := congrArg State.events h.rest
  exact events

theorem mem_eq : t.mem = a.mem := by
  have mem := congrArg State.mem h.rest
  exact mem

theorem clock_eq : t.tick = a.tick ∧ t.pending = a.pending := by
  have clock := congrArg State.tick h.rest
  have queue := congrArg State.pending h.rest
  exact ⟨clock, queue⟩

theorem flag_eq {g : Fld} (low : g.key < 0x80000 * 64) : t.flag g = a.flag g := by
  rw [State.flag, State.flag, h.get_eq g low]

theorem emitting_eq (fe : Nat) : emitting t fe = emitting a fe := by
  rw [emitting, emitting, h.fe_eq]

/-- Traffic takes back no report but of a failed transmission. -/
theorem reports_kept {b : State} {code : Nat} {p : Nat → Prop} (reported : reports b a code p) (other : code ≠ Ctr.TX_FAIL) :
    reports b t code p :=
  reports_of_kept reported (h.counter_eq code other) fun _ hr => h.events_eq ▸ hr

end

end onlyTraffic

/-! Debits return (R410, R412, R420). -/

theorem credit_onlyTraffic (s : State) (b cost : Nat) : onlyTraffic s (credit s b cost) := by
  unfold credit
  split
  · exact .refl s
  · exact (onlyTraffic.setSched s _).trans (.onlyIf _ _ fun s => .setSched s _)

theorem setDuty_onlyTraffic (s : State) (sb : Nat) (d : Duty) : onlyTraffic s (setDuty s sb d) :=
  (onlyTraffic.setSched s _).trans (.set _ (windowOff_high ..) _)

theorem refund_onlyTraffic (s : State) (d : Debit) : onlyTraffic s (refund s d) := by
  have deficits (s : State) (k v k' v' : Nat) : onlyTraffic s (setClassDeficit (setDeficit s k v) k' v') :=
    (onlyTraffic.setSched s _).trans (.setSched _ _)
  unfold refund
  exact ((((onlyTraffic.onlyIf s _ fun s => credit_onlyTraffic s ..).trans (.onlyIf _ _ fun s => credit_onlyTraffic s ..)).trans
    (.onlyIf _ _ fun s => credit_onlyTraffic s ..)).trans (.onlyIf _ _ fun s => deficits s ..)).trans
      (.onlyIf _ _ fun s => setDuty_onlyTraffic s ..)

theorem dutyBack_onlyTraffic (s : State) (c : Carrier) : onlyTraffic s (dutyBack s c) := by
  unfold dutyBack
  split
  · exact .refl s
  · exact setDuty_onlyTraffic ..

/-! What becomes of a carrier (R108, R109, R253, R267, R283). -/

theorem unwatch_onlyTraffic (s : State) (fe asn : Nat) : onlyTraffic s (unwatch s fe asn) := .of_rest rfl rfl rfl

theorem wakeEnd_onlyTraffic (s : State) (cause : Option Nat) : onlyTraffic s (wakeEnd s cause) := by
  have ended := ((onlyTraffic.setMac s { s.mac with wake := none }).trans
    (.setFlag _ (f := Reg.MAC_WAKE_STATUS.BUSY) (by decide) false)).trans
      (.setFlag _ (f := Reg.MAC_WAKE_STATUS.DONE) (by decide) true)
  unfold wakeEnd
  dsimp only
  split
  · exact ended
  · exact (ended.trans (.setFlag _ (by decide) true)).trans (.set _ (by decide) _)

theorem unsend_onlyTraffic (s : State) (fe : Nat) (e : Emission) (c : Carrier) : onlyTraffic s (unsend s fe e c) := by
  refine (dutyBack_onlyTraffic s c).trans ?_
  unfold unsend
  dsimp only
  split
  next p d _ _ =>
    have returned := (refund_onlyTraffic (dutyBack s c) d).trans
      (.onlyIf _ (decide (p.cls = 0)) fun s => unwatch_onlyTraffic s fe e.asn)
    split
    · exact returned.trans (.setQ _ _)
    · exact returned
  next => exact wakeEnd_onlyTraffic ..
  next => exact .refl _

theorem freeChannel_onlyTraffic (s : State) (e : Emission) : onlyTraffic s (freeChannel s e) := by
  unfold freeChannel
  split
  · split
    · exact .refl s
    · exact .setMac ..
  · exact .refl s

theorem failAttempt_onlyTraffic (s : State) (record : Nat) (shared : Bool) : onlyTraffic s (failAttempt s record shared) := by
  unfold failAttempt
  split
  · exact .refl s
  · dsimp only
    split
    · exact (onlyTraffic.setSched s _).trans (.countTxFail _)
    · exact (onlyTraffic.onlyIf s _ .drawn).trans (.setSched _ _)

theorem loseEmission_onlyTraffic (s : State) (e : Emission) : onlyTraffic s (loseEmission s e) := by
  refine .foldl (fun s c => ?_) _ s
  split
  · exact failAttempt_onlyTraffic ..
  · exact wakeEnd_onlyTraffic ..
  · exact .refl s

theorem openAck_onlyTraffic (s : State) (fe : Nat) (e : Emission) (c : Carrier) (endNs : Nat) :
    onlyTraffic s (openAck s fe e c endNs) := by
  unfold openAck
  split
  · split
    · exact .refl s
    · exact .setMac ..
  · exact .refl s

theorem finishEmission_onlyTraffic (s : State) (fe : Nat) (e : Emission) (endNs : Nat) :
    onlyTraffic s (finishEmission s fe e endNs) := by
  have opened := onlyTraffic.foldl (fun s c => openAck_onlyTraffic s fe e c endNs) e.carriers s
  exact (opened.trans (.onlyIf _ _ fun s => wakeEnd_onlyTraffic s none)).trans (freeChannel_onlyTraffic _ e)

/-! The emissions of a chain. -/

section Emissions
variable (s : State) (fe : Nat)

theorem putEmission_onlyFe (old new : Emission) (fs : List Fld) : onlyFe s (putEmission s fe old new) fe fs :=
  State.setFe_onlyFe ..

theorem putEmission_fe (old new : Emission) : (putEmission s fe old new).fe fe =
    { s.fe fe with emissions := (s.fe fe).emissions.map fun e => if e = old then new else e } := State.fe_setFe_self ..

/-- The new emission stands where the old one stood. -/
theorem mem_putEmission {old : Emission} (h : old ∈ (s.fe fe).emissions) (new : Emission) :
    new ∈ ((putEmission s fe old new).fe fe).emissions := by
  rw [putEmission_fe]
  exact List.mem_map.2 ⟨old, h, if_pos rfl⟩

theorem not_mem_dropEmission (e : Emission) : e ∉ ((dropEmission s fe e).fe fe).emissions := by
  rw [dropEmission, State.fe_setFe_self]
  simp

variable {s fe}

theorem mem_of_inPhase {p : Phase} {e : Emission} (h : inPhase s fe p = some e) : e ∈ (s.fe fe).emissions := List.mem_of_find?_eq_some h

theorem mem_of_nextCommitted {e : Emission} (h : nextCommitted s fe = some e) : e ∈ (s.fe fe).emissions :=
  List.mem_of_find?_eq_some h

end Emissions

/-! The end of emitting (R123). -/

section ChainOff
variable (s : State) (fe : Nat)

theorem chainOff_fe : (chainOff s fe).fe fe = { s.fe fe with
    emissions := (s.fe fe).emissions.filter fun e => decide (e.phase ≠ .emitting), lastChipNs := s.time.ns } := by
  rw [chainOff, State.set_fe, State.setFlag_fe, State.fe_setFe_self]

theorem chainOff_onlyFe : onlyFe s (chainOff s fe) fe [Reg.FE_STATUS.TX_ON fe, Reg.FE_STATUS.CARRIERS fe] :=
  onlyFe_trans (onlyFe_trans (State.setFe_onlyFe s fe _ _) (State.setFlag_onlyFe _ (List.mem_cons_self ..) _ _))
    (State.set_onlyFe _ (List.mem_cons_of_mem _ (List.mem_singleton_self _)) _ _)

/-- Nothing is emitted by a front end none of whose emissions leaves. -/
theorem emitting_of_filtered {s : State} {fe : Nat} {l : List Emission}
    (h : (s.fe fe).emissions = l.filter fun e => decide (e.phase ≠ .emitting)) : emitting s fe = none := by
  rw [emitting, h, List.find?_eq_none]
  simp

theorem chainOff_emitting : emitting (chainOff s fe) fe = none :=
  emitting_of_filtered (congrArg FrontEnd.emissions (chainOff_fe s fe))

theorem chainOff_flags (fe : Fin 3) : (chainOff s fe).flag (Reg.FE_STATUS.TX_ON fe) = false ∧
    (chainOff s fe).get (Reg.FE_STATUS.CARRIERS fe) = 0 := by
  have apart : ∀ fe : Fin 3, (Reg.FE_STATUS.TX_ON fe).key ≠ (Reg.FE_STATUS.CARRIERS fe).key := by decide
  exact ⟨(State.flag_set_other _ _ _ _ (apart fe)).trans (State.flag_setFlag_self ..), State.get_set_self ..⟩

end ChainOff

/-! The hop (R104, R734). -/

/-- The hop of a committed emission has started. -/
def hopStarted (s : State) (fe : Nat) (e : Emission) : State :=
  ((putEmission s fe e { e with phase := .hopping }).set (Reg.FE_STATUS.TX_ENTRY fe) e.entry).setFlag (Reg.FE_STATUS.TX_LOCK fe) false

theorem hopStarted_onlyFe (s : State) (fe : Nat) (e : Emission) :
    onlyFe s (hopStarted s fe e) fe [Reg.FE_STATUS.TX_ENTRY fe, Reg.FE_STATUS.TX_LOCK fe] :=
  onlyFe_trans (onlyFe_trans (putEmission_onlyFe s fe e _ _) (State.set_onlyFe _ (List.mem_cons_self ..) _ _))
    (State.setFlag_onlyFe _ (List.mem_cons_of_mem _ (List.mem_singleton_self _)) _ _)

theorem hopStarted_shows (s : State) (fe : Fin 3) (e : Emission) :
    (hopStarted s fe e).get (Reg.FE_STATUS.TX_ENTRY fe) = e.entry % 512 ∧
      (hopStarted s fe e).flag (Reg.FE_STATUS.TX_LOCK fe) = false := by
  have apart : ∀ fe : Fin 3, (Reg.FE_STATUS.TX_ENTRY fe).key ≠ (Reg.FE_STATUS.TX_LOCK fe).key := by decide
  exact ⟨(State.setFlag_get_other _ _ _ _ (apart fe)).trans (State.get_set_self _ (Reg.FE_STATUS.TX_ENTRY fe) _),
    State.flag_setFlag_self ..⟩

theorem txHopStart_completes {s : State} {dt : Nat} {fe : Fin 3} {e : Emission} (next : nextCommitted s fe = some e)
    (committed : e.phase = .committed) (silent : emitting s fe = none) (free : (s.fe fe).cal = none)
    (due : e.nominalNs ≤ (s.advance dt).time.ns + settleNs s fe e)
    (rested : (s.fe fe).lastChipNs + lagNs s fe ≤ (s.advance dt).time.ns) :
    completes (.txHopStart dt fe) s fun t => { e with phase := .hopping } ∈ (t.fe fe).emissions ∧
      t.get (Reg.FE_STATUS.TX_ENTRY fe) = e.entry % 512 ∧ t.flag (Reg.FE_STATUS.TX_LOCK fe) = false ∧
        onlyFe (s.advance dt) t fe [Reg.FE_STATUS.TX_ENTRY fe, Reg.FE_STATUS.TX_LOCK fe] := by
  have acts : (decide (e.phase = .committed) && (emitting (s.advance dt) fe).isNone && ((s.advance dt).fe fe).cal.isNone &&
      decide (e.nominalNs ≤ (s.advance dt).time.ns + settleNs (s.advance dt) fe e) &&
      (decide (((s.advance dt).fe fe).lastChipNs = 0) ||
        decide (((s.advance dt).fe fe).lastChipNs + lagNs (s.advance dt) fe ≤ (s.advance dt).time.ns))) = true := by
    rw [show emitting (s.advance dt) fe = none from silent, show ((s.advance dt).fe fe).cal = none from free,
      decide_eq_true committed, decide_eq_true (show _ ≤ _ + settleNs (s.advance dt) fe e from due),
      decide_eq_true (show ((s.advance dt).fe fe).lastChipNs + lagNs (s.advance dt) fe ≤ _ from rested), Bool.or_true]
    rfl
  have only := hopStarted_onlyFe (s.advance dt) fe e
  obtain ⟨entry, lock⟩ := hopStarted_shows (s.advance dt) fe e
  refine completes_of_onlyFe (dt := dt) (by unfold exec execTxHopStart; rfl) ?_ only
    ⟨mem_putEmission (s.advance dt) fe (mem_of_nextCommitted next) _, entry, lock, only⟩
  rw [show nextCommitted (s.advance dt) fe = some e from next]
  exact congrArg (State.onlyIf (s.advance dt) · _) acts

/-! Lock (R101, R105). -/

/-- The synthesiser has locked for an emission. -/
def lockReached (s : State) (fe : Nat) (e : Emission) : State :=
  (putEmission s fe e { e with phase := .locked }).setFlag (Reg.FE_STATUS.TX_LOCK fe) true

/-- The entry of an emission becomes VALID where lock came from STALE or INVALID values (R101). -/
def lockValidates (s : State) (fe : Nat) (e : Emission) : State :=
  s.onlyIf (!e.scratch && decide (calState s fe e.entry = Cal.INVALID ∨ calState s fe e.entry = Cal.STALE)) fun s =>
    calValid s fe e.entry

section Lock
variable (s : State) (fe : Fin 3) (e : Emission)

theorem lockReached_onlyFe : onlyFe s (lockReached s fe e) fe [Reg.FE_STATUS.TX_LOCK fe] :=
  onlyFe_trans (putEmission_onlyFe s fe e _ _) (State.setFlag_onlyFe _ (List.mem_singleton_self _) _ _)

theorem lockValidates_onlyRegs : onlyRegs s (lockValidates s fe e) (calFields fe e.entry) :=
  State.onlyIf_keeps (P := fun t => onlyRegs s t _) _ _ _ (onlyRegs_refl s _) fun _ => calValid_onlyRegs s fe e.entry

theorem lockValidates_fe : (lockValidates s fe e).fe fe = s.fe fe :=
  State.onlyIf_keeps (P := fun t => t.fe fe = s.fe fe) _ _ _ rfl fun _ => calValid_fe ..

/-- TX_LOCK stands apart from what the end of an entry's calibration writes. -/
theorem txLock_apart (fe : Fin 3) (i : Nat) : ∀ f ∈ calFields fe i, (Reg.FE_STATUS.TX_LOCK fe).key ≠ f.key := by
  have low : ∀ fe : Fin 3, (Reg.FE_STATUS.TX_LOCK fe).key < 0x200000 * 64 ∧
      ∀ f ∈ countFields fe, (Reg.FE_STATUS.TX_LOCK fe).key ≠ f.key := by decide
  intro f hf
  rcases List.mem_append.1 hf with entry | count
  · exact (txcalFields_low (low fe).1 fe i f entry).symm
  · exact (low fe).2 f count

theorem lockValidates_lock : (lockValidates s fe e).flag (Reg.FE_STATUS.TX_LOCK fe) = s.flag (Reg.FE_STATUS.TX_LOCK fe) := by
  rw [State.flag, State.flag, (lockValidates_onlyRegs s fe e).2 _ (txLock_apart fe e.entry)]

theorem lockReached_calState (i : Nat) : calState (lockReached s fe e) fe i = calState s fe i :=
  onlyFe_get (lockReached_onlyFe s fe e) fun f hf => by
    rw [List.mem_singleton.1 hf]
    exact (txLock_apart fe i _ (by simp [calFields, txcalFields])).symm

variable {s e}

theorem lockValidates_of_unsettled (table : e.scratch = false)
    (unsettled : calState s fe e.entry = Cal.STALE ∨ calState s fe e.entry = Cal.INVALID) :
    lockValidates s fe e = calValid s fe e.entry := by
  rw [lockValidates, table, decide_eq_true unsettled.symm]
  rfl

end Lock

theorem txLock_completes {s : State} {fe : Fin 3} {e : Emission} (dt : Nat) (hops : inPhase s fe .hopping = some e)
    (table : e.scratch = false) : completes (.txLock dt fe) s fun t =>
      { e with phase := .locked } ∈ (t.fe fe).emissions ∧ t.flag (Reg.FE_STATUS.TX_LOCK fe) = true ∧
        (calState s fe e.entry = Cal.STALE ∨ calState s fe e.entry = Cal.INVALID → calState t fe e.entry = Cal.VALID ∧
          t.get (Reg.FE_TXCAL_ENTRY.TCAL fe e.entry) = ofSigned 12 (s.fe fe).die) := by
  have reached := lockReached_onlyFe (s.advance dt) fe e
  have validates := onlyFe_of_onlyRegs (lockValidates_onlyRegs (lockReached (s.advance dt) fe e) fe e) fe
  have only := onlyFe_trans (onlyFe_mono reached (List.subset_append_left _ (calFields fe e.entry)))
    (onlyFe_mono validates (List.subset_append_right [Reg.FE_STATUS.TX_LOCK fe] _))
  refine completes_of_onlyFe (dt := dt) (r := lockValidates (lockReached (s.advance dt) fe e) fe e)
    (by unfold exec execTxLock; rfl) ?_ only ⟨?_, ?_, fun unsettled => ?_⟩
  · rw [show inPhase (s.advance dt) fe .hopping = some e from hops]
    rfl
  · rw [lockValidates_fe, lockReached, State.setFlag_fe]
    exact mem_putEmission (s.advance dt) fe (mem_of_inPhase hops) _
  · rw [lockValidates_lock]
    exact State.flag_setFlag_self ..
  · have kept := lockReached_calState (s.advance dt) fe e e.entry
    have die : ((lockReached (s.advance dt) fe e).fe fe).die = (s.fe fe).die := by
      rw [lockReached, State.setFlag_fe, putEmission_fe]
      rfl
    rw [lockValidates_of_unsettled fe table (by rw [kept]; exact unsettled), ← die]
    exact calValid_entry ..

/-! The first chip (R105, R120, R654). -/

/-- An emission as it leaves at an instant, with its carriers at their powers. -/
def asEmitted (s : State) (fe : Nat) (e : Emission) : Emission :=
  { e with phase := .emitting, startNs := s.time.ns
           carriers := e.carriers.map fun c => c.atPower s fe (carrierPower s fe e.carriers.length c) }

/-- The chain of an emission that leaves: its taps are in use, TX_ON is set, and its carriers are counted. -/
def chainOn (s : State) (fe : Nat) (e : Emission) : State :=
  let s' := putEmission (firApply s fe e.carriers.length) fe e (asEmitted s fe e)
  ((s'.setFe fe { s'.fe fe with maskDone := 0 }).setFlag (Reg.FE_STATUS.TX_ON fe) true).set (Reg.FE_STATUS.CARRIERS fe)
    e.carriers.length

/-- The emission leaves, watched by the loopback. -/
def emissionLeft (s : State) (fe : Fin 3) (e : Emission) : State :=
  (watchStart (chainOn s fe e) fe (asEmitted s fe e) (chainOn s fe e).time.ns).emit
    (.emission fe e.kind (asEmitted s fe e).carriers ((asEmitted s fe e).carriers.map onAir) (chainOn s fe e).time.ns)

section Leaving
variable (s : State) (fe : Fin 3) (e : Emission)

theorem firApply_onlyFe (n : Nat) (fs : List Fld) : onlyFe s (firApply s fe n) fe fs := by
  unfold firApply
  split
  · exact onlyFe_refl s fe fs
  · exact State.setFe_onlyFe ..

theorem firApply_emissions (n : Nat) : ((firApply s fe n).fe fe).emissions = (s.fe fe).emissions := by
  unfold firApply
  split
  · rfl
  · rw [State.fe_setFe_self]

theorem chainOn_onlyFe : onlyFe s (chainOn s fe e) fe [Reg.FE_STATUS.TX_ON fe, Reg.FE_STATUS.CARRIERS fe] :=
  onlyFe_trans (onlyFe_trans (onlyFe_trans (onlyFe_trans (firApply_onlyFe s fe _ _) (putEmission_onlyFe _ fe e _ _))
    (State.setFe_onlyFe _ fe _ _)) (State.setFlag_onlyFe _ (List.mem_cons_self ..) _ _))
      (State.set_onlyFe _ (List.mem_cons_of_mem _ (List.mem_singleton_self _)) _ _)

theorem chainOn_shows : (chainOn s fe e).flag (Reg.FE_STATUS.TX_ON fe) = true ∧
    (chainOn s fe e).get (Reg.FE_STATUS.CARRIERS fe) = e.carriers.length % 256 := by
  have apart : ∀ fe : Fin 3, (Reg.FE_STATUS.TX_ON fe).key ≠ (Reg.FE_STATUS.CARRIERS fe).key := by decide
  exact ⟨(State.flag_set_other _ _ _ _ (apart fe)).trans (State.flag_setFlag_self ..), State.get_set_self ..⟩

theorem mem_chainOn {e : Emission} (h : e ∈ (s.fe fe).emissions) : asEmitted s fe e ∈ ((chainOn s fe e).fe fe).emissions := by
  rw [chainOn, State.set_fe, State.setFlag_fe, State.fe_setFe_self]
  rw [← firApply_emissions s fe e.carriers.length] at h
  exact mem_putEmission _ fe h _

/-- What is put out and what the loopback holds is not a front end's. -/
theorem onlyFe_outs_safe {a t : State} {n : Nat} {fs : List Fld} (h : onlyFe a t n fs) : t.outs = a.outs ∧ t.time = a.time ∧
    { t with outs := a.outs, safe := a.safe } = t := by
  have outs := congrArg State.outs h.1
  have time := congrArg State.time h.1
  have safe := congrArg State.safe h.1
  have frame : (t.setFe n (a.fe n)).safe = t.safe := by
    unfold State.setFe
    split_ifs <;> rfl
  have kept := State.setFe_frame t n (a.fe n)
  have outs' : t.outs = a.outs := kept.2.2.2.1.symm.trans outs
  refine ⟨outs', kept.2.2.2.2.1.symm.trans time, ?_⟩
  rw [← outs', ← frame.symm.trans safe]

theorem emissionLeft_frame : (emissionLeft s fe e).fields = (chainOn s fe e).fields ∧
    (emissionLeft s fe e).fe fe = (chainOn s fe e).fe fe ∧ (emissionLeft s fe e).time = s.time ∧
      { emissionLeft s fe e with outs := s.outs, safe := s.safe } = chainOn s fe e ∧
        (emissionLeft s fe e).outs = s.outs ++
          [.emission fe e.kind (asEmitted s fe e).carriers ((asEmitted s fe e).carriers.map onAir) s.time.ns] := by
  obtain ⟨outs, time, rest⟩ := onlyFe_outs_safe (chainOn_onlyFe s fe e)
  refine ⟨rfl, rfl, time, rest, ?_⟩
  rw [← time, ← outs]
  rfl

end Leaving

theorem emissionStart_waits {s : State} {dt : Nat} {fe : Fin 3} {e : Emission} (locked : inPhase s fe .locked = some e)
    (early : (s.advance dt).time.ns < e.nominalNs ∨ e.ready = false) :
    completes (.emissionStart dt fe) s fun t => t = s.advance dt := by
  have waits : (decide (e.nominalNs ≤ (s.advance dt).time.ns) && e.ready && !listening (s.advance dt) e) = false := by
    rcases early with early | unready
    · rw [decide_eq_false (by omega)]
      rfl
    · rw [unready, Bool.and_false, Bool.false_and]
  refine completes_of_effect (r := s.advance dt) (dt := dt) (by unfold exec execEmissionStart; rfl) ?_ rfl rfl rfl
  rw [show inPhase (s.advance dt) fe .locked = some e from locked]
  exact congrArg (State.onlyIf (s.advance dt) · _) waits

/-- What a command does when its precondition holds. -/
theorem State.onlyIf_of {s r : State} {b : Bool} {k : State → State} (acts : b = true) (effect : k s = r) : s.onlyIf b k = r := by
  rw [acts]
  exact effect

theorem emissionStart_leaves {s : State} {dt : Nat} {fe : Fin 3} {e : Emission} (locked : inPhase s fe .locked = some e)
    (heard : listening s e = false) (due : e.nominalNs ≤ (s.advance dt).time.ns) (ready : e.ready = true) :
    completes (.emissionStart dt fe) s fun t => t = emissionLeft (s.advance dt) fe e := by
  have acts : (decide (e.nominalNs ≤ (s.advance dt).time.ns) && e.ready && !listening (s.advance dt) e) = true := by
    rw [decide_eq_true due, ready, show listening (s.advance dt) e = false from heard]
    rfl
  obtain ⟨-, -, -, rest, -⟩ := emissionLeft_frame (s.advance dt) fe e
  obtain ⟨clock, queue⟩ := onlyFe_clock (chainOn_onlyFe (s.advance dt) fe e)
  rw [← rest] at clock queue
  refine completes_of_effect (r := emissionLeft (s.advance dt) fe e) (dt := dt) (by unfold exec execEmissionStart; rfl) ?_ clock queue rfl
  rw [show inPhase (s.advance dt) fe .locked = some e from locked]
  exact State.onlyIf_of acts rfl

/-- What holds of a command's outcome after it has been determined. -/
theorem completes_mono {i : Instr} {s : State} {p q : State → Prop} (h : completes i s p) (imp : ∀ t, p t → q t) :
    completes i s q := by
  obtain ⟨t, run, holds⟩ := h
  exact ⟨t, run, imp t holds⟩

theorem emissionStart_completes {s : State} {fe : Fin 3} {e : Emission} (dt : Nat) (locked : inPhase s fe .locked = some e)
    (heard : listening s e = false) : completes (.emissionStart dt fe) s fun t =>
      ((s.advance dt).time.ns < e.nominalNs ∨ e.ready = false → t = s.advance dt) ∧
      (e.nominalNs ≤ (s.advance dt).time.ns → e.ready = true → t.flag (Reg.FE_STATUS.TX_ON fe) = true ∧
        t.get (Reg.FE_STATUS.CARRIERS fe) = e.carriers.length % 256 ∧
        (∃ cs : List Carrier, cs.map (·.load) = e.carriers.map (·.load) ∧
          t.outs = s.outs ++ [.emission fe e.kind cs (cs.map onAir) t.time.ns] ∧
          { e with phase := .emitting, startNs := t.time.ns, carriers := cs } ∈ (t.fe fe).emissions) ∧
        onlyFe (s.advance dt) { t with outs := s.outs, safe := s.safe } fe
          [Reg.FE_STATUS.TX_ON fe, Reg.FE_STATUS.CARRIERS fe]) := by
  by_cases early : (s.advance dt).time.ns < e.nominalNs ∨ e.ready = false
  · refine completes_mono (emissionStart_waits locked early) fun t ht => ⟨fun _ => ht, fun due ready => ?_⟩
    rcases early with early | unready
    · omega
    · exact absurd (unready.symm.trans ready) (by decide)
  · obtain ⟨due, ready⟩ : e.nominalNs ≤ (s.advance dt).time.ns ∧ e.ready = true := by
      simpa only [not_or, not_lt, Bool.not_eq_false] using early
    obtain ⟨fields, front, time, rest, outs⟩ := emissionLeft_frame (s.advance dt) fe e
    obtain ⟨on, carriers⟩ := chainOn_shows (s.advance dt) fe e
    have get (g : Fld) := State.get_congr fields g
    have loads : (asEmitted (s.advance dt) fe e).carriers.map (·.load) = e.carriers.map (·.load) := by
      rw [asEmitted, List.map_map]
      rfl
    refine completes_mono (emissionStart_leaves locked heard due ready) ?_
    rintro t rfl
    refine ⟨fun h => absurd h early, fun _ _ => ⟨?_, (get _).trans carriers, ⟨_, loads, ?_, ?_⟩, ?_⟩⟩
    · rw [State.flag, get]
      exact on
    · rw [time]
      exact outs
    · rw [time, front]
      exact mem_chainOn (s.advance dt) fe (mem_of_inPhase locked)
    · have only := chainOn_onlyFe (s.advance dt) fe e
      rwa [← rest] at only

/-! A deadline that passes (R106, R107). -/

/-- CAUSE of TX_LATE stands in its four bits (R141). -/
theorem txLate_cause (fe kind entry scratch asn : Nat) {cause : Nat} (h : cause < 16) :
    bits ((at' fe 2 46 + at' kind 2 44 + at' cause 4 40 + at' entry 9 31 + at' scratch 1 30 + at' asn 30 0) % 2 ^ 48) 43 40 =
      cause := by
  unfold bits at'
  omega

theorem txLate_reports (s : State) (fe : Nat) (e : Emission) {cause : Nat} (h : cause < 16) :
    reports s (txLate s fe e cause) Ev.TX_LATE fun arg => bits arg 43 40 = cause :=
  State.event_reports s _ _ _ (txLate_cause _ _ _ _ _ h)

/-- An emission that is abandoned leaves its chain, and the rest is traffic. -/
theorem abandon_onlyTraffic (s : State) (fe : Nat) (e : Emission) (cause : Nat) :
    onlyTraffic (dropEmission (txLate s fe e cause) fe e) (abandon s fe e cause) :=
  (onlyTraffic.foldl (fun s c => unsend_onlyTraffic s fe e c) _ _).trans (freeChannel_onlyTraffic ..)

theorem dropEmission_frame (s : State) (fe : Nat) (e : Emission) : (dropEmission s fe e).counters = s.counters ∧
    (dropEmission s fe e).events = s.events ∧ (dropEmission s fe e).tick = s.tick ∧ (dropEmission s fe e).pending = s.pending := by
  rw [dropEmission]
  simp only [State.setFe_frame, and_self]

section Abandon
variable (s : State) (fe : Nat) (e : Emission) {cause : Nat}

theorem not_mem_abandon : e ∉ ((abandon s fe e cause).fe fe).emissions := by
  rw [(abandon_onlyTraffic s fe e cause).fe_eq]
  exact not_mem_dropEmission _ fe e

theorem abandon_reports (h : cause < 16) : reports s (abandon s fe e cause) Ev.TX_LATE fun arg => bits arg 43 40 = cause := by
  obtain ⟨counters, events, -, -⟩ := dropEmission_frame (txLate s fe e cause) fe e
  have dropped := reports_of_kept (t := dropEmission (txLate s fe e cause) fe e) (txLate_reports s fe e h)
    (congrArg (Cells.get · Ev.TX_LATE 0) counters) fun r hr => events ▸ hr
  exact (abandon_onlyTraffic s fe e cause).reports_kept dropped (by decide)

theorem abandon_clock : (abandon s fe e cause).tick = s.tick ∧ (abandon s fe e cause).pending = s.pending := by
  obtain ⟨clock, queue⟩ := (abandon_onlyTraffic s fe e cause).clock_eq
  obtain ⟨-, -, clockD, queueD⟩ := dropEmission_frame (txLate s fe e cause) fe e
  obtain ⟨-, -, -, -, clockE, queueE⟩ := State.event_rest s Ev.TX_LATE (Block.FE fe)
    (at' fe 2 46 + at' e.kind 2 44 + at' cause 4 40 + at' e.entry 9 31 + at' (b2n e.scratch) 1 30 + at' e.asn 30 0)
  exact ⟨(clock.trans clockD).trans clockE, (queue.trans queueD).trans queueE⟩

end Abandon

/-- Why a deadline has passed: the calibration of the emission's own entry, or no lock. -/
def deadlineCause (s : State) (fe : Nat) (e : Emission) : Nat :=
  if (s.fe fe).cal.any fun c => !e.scratch && decide (c.entry = e.entry) then Late.CAL_BUSY else Late.LOCK_TIMEOUT

theorem deadlineCause_lt (s : State) (fe : Nat) (e : Emission) : deadlineCause s fe e < 16 := by
  unfold deadlineCause
  split <;> decide

theorem txDeadline_completes {s : State} {dt : Nat} {fe : Fin 3} {e : Emission} (next : nextCommitted s fe = some e)
    (unlocked : e.phase ≠ .locked) (passed : e.deadline ≤ (s.advance dt).time.ns) :
    completes (.txDeadline dt fe) s fun t => e ∉ (t.fe fe).emissions ∧
      reports (s.advance dt) t Ev.TX_LATE fun arg => bits arg 43 40 =
        (if (s.fe fe).cal.any fun c => !e.scratch && decide (c.entry = e.entry) then 2 else 1) := by
  obtain ⟨clock, queue⟩ := abandon_clock (s.advance dt) fe e (cause := deadlineCause (s.advance dt) fe e)
  refine completes_of_effect (dt := dt) (by unfold exec execTxDeadline; rfl) ?_ clock queue
    ⟨not_mem_abandon (s.advance dt) fe e, abandon_reports (s.advance dt) fe e (deadlineCause_lt ..)⟩
  rw [show nextCommitted (s.advance dt) fe = some e from next]
  refine (congrArg (State.onlyIf (s.advance dt) · _) (decide_eq_true ⟨unlocked, passed⟩)).trans ?_
  rw [State.onlyIf_true, deadlineCause]
  cases ((s.advance dt).fe fe).cal <;> rfl

/-! The last chip (R119, R123). -/

/-- The totals of a port take the carriers that have gone out. -/
def portCounted (s : State) (fe : Nat) (e : Emission) : State :=
  e.carriers.foldl (fun s c => match c.load with
    | .wake _ _ => s
    | _ => s.portTx fe c.len c.airtimeUs) s

theorem portCounted_onlyTraffic (s : State) (fe : Nat) (e : Emission) : onlyTraffic s (portCounted s fe e) := by
  refine .foldl (fun s c => ?_) _ s
  split
  · exact .refl s
  · exact .portTx ..

/-- The chain is off, with its last chip at an instant. -/
def chainEnded (s : State) (fe last : Nat) : State :=
  (chainOff s fe).setFe fe { (chainOff s fe).fe fe with lastChipNs := last }

/-- Digital predistortion has tracked an emission. -/
def dpdTracked (s : State) (fe : Nat) (e : Emission) : State :=
  s.onlyIf (decide (fe ≠ 2)) fun s => s.setFe fe { s.fe fe with dpdUs := (s.fe fe).dpdUs + e.airNs / 1000 }

/-- An emission's last chip has left. -/
def emissionOver (s : State) (fe : Nat) (e : Emission) : State :=
  dpdTracked (finishEmission (chainEnded (portCounted s fe e) fe (e.startNs + e.airNs)) fe e (e.startNs + e.airNs)) fe e

theorem dpdTracked_frame (s : State) (fe : Nat) (e : Emission) (fs : List Fld) : onlyFe s (dpdTracked s fe e) fe fs ∧
    ((dpdTracked s fe e).fe fe).emissions = (s.fe fe).emissions ∧
      ((dpdTracked s fe e).fe fe).lastChipNs = (s.fe fe).lastChipNs := by
  refine State.onlyIf_keeps (P := fun t => onlyFe s t fe fs ∧ (t.fe fe).emissions = (s.fe fe).emissions ∧
    (t.fe fe).lastChipNs = (s.fe fe).lastChipNs) _ _ _ ⟨onlyFe_refl s fe fs, rfl, rfl⟩ fun _ => ⟨State.setFe_onlyFe .., ?_, ?_⟩
  all_goals rw [State.fe_setFe_self]

section EmissionOver
variable (s : State) (fe : Fin 3) (e : Emission)

theorem chainEnded_onlyFe (last : Nat) :
    onlyFe s (chainEnded s fe last) fe [Reg.FE_STATUS.TX_ON fe, Reg.FE_STATUS.CARRIERS fe] :=
  onlyFe_trans (chainOff_onlyFe s fe) (State.setFe_onlyFe ..)

theorem chainEnded_shows (last : Nat) : emitting (chainEnded s fe last) fe = none ∧
    ((chainEnded s fe last).fe fe).lastChipNs = last ∧ (chainEnded s fe last).flag (Reg.FE_STATUS.TX_ON fe) = false ∧
      (chainEnded s fe last).get (Reg.FE_STATUS.CARRIERS fe) = 0 := by
  obtain ⟨on, carriers⟩ := chainOff_flags s fe
  refine ⟨emitting_of_filtered (l := (s.fe fe).emissions) ?_, ?_, (setFe_flag ..).trans on, (State.setFe_get ..).trans carriers⟩
  · rw [chainEnded, State.fe_setFe_self, chainOff_fe]
  · rw [chainEnded, State.fe_setFe_self]

/-- The last chip of an emission takes the chain off, and leaves the memories, the clock and the queue of commands. -/
theorem emissionOver_shows : emitting (emissionOver s fe e) fe = none ∧ (emissionOver s fe e).flag (Reg.FE_STATUS.TX_ON fe) = false ∧
    (emissionOver s fe e).get (Reg.FE_STATUS.CARRIERS fe) = 0 ∧ ((emissionOver s fe e).fe fe).lastChipNs = e.startNs + e.airNs := by
  have low : ∀ fe : Fin 3, (Reg.FE_STATUS.TX_ON fe).key < 0x80000 * 64 ∧ (Reg.FE_STATUS.CARRIERS fe).key < 0x80000 * 64 := by decide
  obtain ⟨silent, last, on, carriers⟩ := chainEnded_shows (portCounted s fe e) fe (e.startNs + e.airNs)
  have finished := finishEmission_onlyTraffic (chainEnded (portCounted s fe e) fe (e.startNs + e.airNs)) fe e (e.startNs + e.airNs)
  obtain ⟨tracked, emissions, lastKept⟩ := dpdTracked_frame
    (finishEmission (chainEnded (portCounted s fe e) fe (e.startNs + e.airNs)) fe e (e.startNs + e.airNs)) fe e []
  have get (g : Fld) := onlyFe_get tracked (g := g) fun _ hf => absurd hf (by simp)
  refine ⟨?_, ?_, ?_, ?_⟩
  · rw [emissionOver, emitting, emissions]
    exact (finished.emitting_eq fe).trans silent
  · rw [emissionOver, State.flag, get]
    exact (finished.flag_eq (low fe).1).trans on
  · rw [emissionOver, get]
    exact (finished.get_eq _ (low fe).2).trans carriers
  · rw [emissionOver, lastKept, finished.fe_eq, last]

theorem onlyFe_mem {a t : State} {n : Nat} {fs : List Fld} (h : onlyFe a t n fs) : t.mem = a.mem := by
  obtain ⟨-, -, mem, -⟩ := onlyRegs_frame h
  simpa only [State.setFe_frame] using mem

theorem emissionOver_frame : (emissionOver s fe e).mem = s.mem ∧ (emissionOver s fe e).tick = s.tick ∧
    (emissionOver s fe e).pending = s.pending := by
  have counted := portCounted_onlyTraffic s fe e
  have ended := chainEnded_onlyFe (portCounted s fe e) fe (e.startNs + e.airNs)
  have finished := finishEmission_onlyTraffic (chainEnded (portCounted s fe e) fe (e.startNs + e.airNs)) fe e (e.startNs + e.airNs)
  obtain ⟨tracked, -, -⟩ := dpdTracked_frame
    (finishEmission (chainEnded (portCounted s fe e) fe (e.startNs + e.airNs)) fe e (e.startNs + e.airNs)) fe e []
  obtain ⟨clockC, queueC⟩ := counted.clock_eq
  obtain ⟨clockE, queueE⟩ := onlyFe_clock ended
  obtain ⟨clockF, queueF⟩ := finished.clock_eq
  obtain ⟨clockT, queueT⟩ := onlyFe_clock tracked
  exact ⟨(((onlyFe_mem tracked).trans finished.mem_eq).trans (onlyFe_mem ended)).trans counted.mem_eq,
    ((clockT.trans clockF).trans clockE).trans clockC, ((queueT.trans queueF).trans queueE).trans queueC⟩

end EmissionOver

theorem emissionEnd_completes {s : State} {dt : Nat} {fe : Fin 3} {e : Emission} (leaves : emitting s fe = some e)
    (last : e.startNs + e.airNs ≤ (s.advance dt).time.ns) : completes (.emissionEnd dt fe) s fun t =>
      emitting t fe = none ∧ t.flag (Reg.FE_STATUS.TX_ON fe) = false ∧ t.get (Reg.FE_STATUS.CARRIERS fe) = 0 ∧
        (t.fe fe).lastChipNs = e.startNs + e.airNs ∧ t.mem = s.mem := by
  obtain ⟨silent, on, carriers, lastChip⟩ := emissionOver_shows (s.advance dt) fe e
  obtain ⟨mem, clock, queue⟩ := emissionOver_frame (s.advance dt) fe e
  refine completes_of_effect (dt := dt) (by unfold exec execEmissionEnd; rfl) ?_ clock queue ⟨silent, on, carriers, lastChip, mem⟩
  rw [show emitting (s.advance dt) fe = some e from leaves]
  exact congrArg (State.onlyIf (s.advance dt) · _) (decide_eq_true last)

/-! The statement. -/

/-- Settles O24: each phase's command acts on the emission that stands first in that phase, and what an end returns to the traffic
touches neither the front end nor what has been reported. -/
theorem emissionsRun : Obligations.EmissionsRun := fun _ dt _ _ =>
  ⟨txHopStart_completes, fun hops table _ => txLock_completes dt hops table, emissionStart_completes dt, txDeadline_completes,
    emissionEnd_completes⟩


end Sys2Proof.Machine
end

section
/-!
SUPPORT. Loss of lock, mask violations and blanking (R108, R121 to R125): what each leaves of the reports made before it, and what
becomes of the lanes of a front end that is blanked. Then the statement about the three.
-/

namespace Sys2Proof.Machine

/-! What stands of a report. -/

/-- The count of a code, the EVENT FIFO, the clock and the queue of commands are kept. -/
structure recordKept (code : Nat) (a t : State) : Prop where
  counter : Cells.get t.counters code 0 = Cells.get a.counters code 0
  events : t.events = a.events
  clock : t.tick = a.tick ∧ t.pending = a.pending

namespace recordKept
variable {code : Nat} {a b t : State}

theorem trans (h : recordKept code a b) (k : recordKept code b t) : recordKept code a t where
  counter := k.counter.trans h.counter
  events := k.events.trans h.events
  clock := ⟨k.clock.1.trans h.clock.1, k.clock.2.trans h.clock.2⟩

theorem of_onlyFe {n : Nat} {fs : List Fld} (h : onlyFe a t n fs) : recordKept code a t := by
  have counters := congrArg State.counters h.1
  have events := congrArg State.events h.1
  have frame := State.setFe_frame t n (a.fe n)
  exact ⟨congrArg (Cells.get · code 0) (frame.2.1.symm.trans counters), frame.2.2.1.symm.trans events, onlyFe_clock h⟩

theorem of_onlyTraffic (h : onlyTraffic a t) (other : code ≠ Ctr.TX_FAIL) : recordKept code a t :=
  ⟨h.counter_eq code other, h.events_eq, h.clock_eq⟩

theorem rampDown (s : State) (fe : Nat) : recordKept code s (s.emit (.rampDown fe)) := ⟨rfl, rfl, rfl, rfl⟩

theorem reports {p : Nat → Prop} (h : recordKept code b t) (reported : Machine.reports a b code p) : Machine.reports a t code p :=
  reports_of_kept reported h.counter fun _ hr => h.events ▸ hr

end recordKept

/-- What is counted from one state is counted from another with the same counters. -/
theorem countedOnce_congr {a b t : State} {c : Nat} (h : countedOnce b t c) (counters : b.counters = a.counters) :
    countedOnce a t c := by
  unfold countedOnce State.count at h ⊢
  rwa [counters] at h

/-! Loss of lock (R108). -/

/-- The chain of an emission that lost its lock is off, and its PA ramps down. -/
def lockDropped (s : State) (fe : Nat) (e : Emission) : State :=
  (chainOff ((txLate s fe e Late.LOCK_LOST).setFlag (Reg.FE_STATUS.TX_LOCK fe) false) fe).emit (.rampDown fe)

/-- The frames of an emission that lost its lock are not sent. -/
def emissionLost (s : State) (fe : Nat) (e : Emission) : State :=
  freeChannel (e.carriers.foldl (fun s c => match c.load with
    | .data _ _ _ => unsend s fe e { c with duty := none }
    | .wake _ _ => wakeEnd s (some 4)
    | _ => s) s) e

theorem emissionLost_onlyTraffic (s : State) (fe : Nat) (e : Emission) : onlyTraffic s (emissionLost s fe e) := by
  refine (onlyTraffic.foldl (fun s c => ?_) e.carriers s).trans (freeChannel_onlyTraffic ..)
  split
  · exact unsend_onlyTraffic ..
  · exact wakeEnd_onlyTraffic ..
  · exact .refl s

section LockDropped
variable (s : State) (fe : Fin 3) (e : Emission)

theorem lockDropped_shows : emitting (lockDropped s fe e) fe = none ∧ (lockDropped s fe e).flag (Reg.FE_STATUS.TX_ON fe) = false ∧
    (lockDropped s fe e).flag (Reg.FE_STATUS.TX_LOCK fe) = false ∧ .rampDown fe ∈ (lockDropped s fe e).outs := by
  have apart : ∀ fe : Fin 3, ∀ f ∈ [Reg.FE_STATUS.TX_ON fe, Reg.FE_STATUS.CARRIERS fe],
      (Reg.FE_STATUS.TX_LOCK fe).key ≠ f.key := by decide
  have unlocked := onlyFe_get (chainOff_onlyFe ((txLate s fe e Late.LOCK_LOST).setFlag (Reg.FE_STATUS.TX_LOCK fe) false) fe) (apart fe)
  refine ⟨chainOff_emitting _ fe, (chainOff_flags _ fe).1, ?_, List.mem_append_right _ (List.mem_singleton_self _)⟩
  exact (congrArg (fun v => decide (v ≠ 0)) unlocked).trans (State.flag_setFlag_self ..)

theorem lockDropped_recordKept (code : Nat) : recordKept code (txLate s fe e Late.LOCK_LOST) (lockDropped s fe e) :=
  ((recordKept.of_onlyFe (State.setFlag_onlyFe _ (List.mem_singleton_self _) false fe)).trans
    (.of_onlyFe (chainOff_onlyFe _ fe))).trans (.rampDown _ fe)

end LockDropped

theorem lockLost_completes {s : State} {fe : Fin 3} {e : Emission} (dt : Nat) (leaves : emitting s fe = some e) :
    completes (.lockLost dt fe) s fun t => emitting t fe = none ∧ t.flag (Reg.FE_STATUS.TX_ON fe) = false ∧
      t.flag (Reg.FE_STATUS.TX_LOCK fe) = false ∧ .rampDown fe ∈ t.outs ∧
        reports (s.advance dt) t Ev.TX_LATE fun arg => bits arg 43 40 = 3 := by
  have low : ∀ fe : Fin 3, (Reg.FE_STATUS.TX_ON fe).key < 0x80000 * 64 ∧ (Reg.FE_STATUS.TX_LOCK fe).key < 0x80000 * 64 := by decide
  obtain ⟨silent, on, lock, ramped⟩ := lockDropped_shows (s.advance dt) fe e
  have lost := emissionLost_onlyTraffic (lockDropped (s.advance dt) fe e) fe e
  have kept := (lockDropped_recordKept (s.advance dt) fe e Ev.TX_LATE).trans (.of_onlyTraffic lost (by decide))
  obtain ⟨-, -, -, -, clock, queue⟩ := State.event_rest (s.advance dt) Ev.TX_LATE (Block.FE fe)
    (at' fe 2 46 + at' e.kind 2 44 + at' Late.LOCK_LOST 4 40 + at' e.entry 9 31 + at' (b2n e.scratch) 1 30 + at' e.asn 30 0)
  refine completes_of_effect (r := emissionLost (lockDropped (s.advance dt) fe e) fe e) (dt := dt)
    (by unfold exec execLockLost; rfl) ?_ (kept.clock.1.trans clock) (kept.clock.2.trans queue)
    ⟨(lost.emitting_eq fe).trans silent, (lost.flag_eq (low fe).1).trans on, (lost.flag_eq (low fe).2).trans lock, ?_,
      kept.reports (txLate_reports (s.advance dt) fe e (by decide))⟩
  · rw [show emitting (s.advance dt) fe = some e from leaves]
    rfl
  · rw [lost.outs_eq]
    exact ramped

/-! Mask violations (R121). -/

/-- A window of an emission's mask has been evaluated. -/
def windowDone (s : State) (fe : Nat) : State := s.setFe fe { s.fe fe with maskDone := (s.fe fe).maskDone + 1 }

theorem bits_at'_maskSeg (fe seg act carriers excess : Nat) (h : seg < 32) : bits ((at' fe 2 46 + at' seg 5 41 + at' act 2 39 +
    at' carriers 4 35 + at' excess 8 27) % 2 ^ 48) 45 41 = seg := by
  unfold bits at'
  omega

section Mask
variable (s : State) (fe : Fin 3) (e : Emission) (v : Nat × Nat)

theorem maskEvent_reports (h : v.1 < 32) :
    reports s (maskEvent fe e s v) Ev.MASK_VIOLATION fun arg => bits arg 45 41 = v.1 :=
  State.event_reports s _ _ _ (bits_at'_maskSeg _ _ _ _ _ h)

theorem maskEvent_get {g : Fld} (ovf : g.key ≠ Reg.SYS_EVENT_STATUS.OVF.key) (lost : g.key ≠ Reg.SYS_EVENT_LOST.LOST.key) :
    (maskEvent fe e s v).get g = s.get g := State.event_get_other _ _ _ _ ovf lost

theorem maskEvent_rest : (maskEvent fe e s v).fe fe = s.fe fe ∧ (maskEvent fe e s v).tick = s.tick ∧
    (maskEvent fe e s v).pending = s.pending := by
  obtain ⟨fronts, -, -, -, clock, queue⟩ := State.event_rest s Ev.MASK_VIOLATION (Block.FE fe)
    (at' fe 2 46 + at' v.1 5 41 + at' (maskActOf s fe) 2 39 + at' e.carriers.length 4 35 + at' (min v.2 255) 8 27)
  exact ⟨fronts fe, clock, queue⟩

theorem windowDone_get (g : Fld) : (windowDone s fe).get g = s.get g := State.setFe_get ..

theorem windowDone_frame : (windowDone s fe).fields = s.fields ∧ (windowDone s fe).counters = s.counters ∧
    (windowDone s fe).events = s.events ∧ (windowDone s fe).time = s.time ∧ (windowDone s fe).tick = s.tick ∧
      (windowDone s fe).pending = s.pending := by
  simp only [windowDone, State.setFe_frame, and_self]

/-- A violation of a window that has been evaluated. -/
def violated (s : State) (fe : Nat) (e : Emission) (v : Nat × Nat) : State := maskEvent fe e (windowDone s fe) v

theorem violated_fe : (violated s fe e v).fe fe = { s.fe fe with maskDone := (s.fe fe).maskDone + 1 } := by
  obtain ⟨front, -, -⟩ := maskEvent_rest (windowDone s fe) fe e v
  exact front.trans (State.fe_setFe_self ..)

theorem violated_emitting : emitting (violated s fe e v) fe = emitting s fe := by
  rw [emitting, violated_fe]
  rfl

theorem violated_ctrl : (violated s fe e v).get (Reg.FE_MASK_CTRL.ACT fe) = s.get (Reg.FE_MASK_CTRL.ACT fe) ∧
    (violated s fe e v).get (Reg.FE_MASK_CTRL.BACKOFF_QDB fe) = s.get (Reg.FE_MASK_CTRL.BACKOFF_QDB fe) := by
  have apart : ∀ fe : Fin 3, ∀ f ∈ [Reg.FE_MASK_CTRL.ACT fe, Reg.FE_MASK_CTRL.BACKOFF_QDB fe],
      f.key ≠ Reg.SYS_EVENT_STATUS.OVF.key ∧ f.key ≠ Reg.SYS_EVENT_LOST.LOST.key := by decide
  have get (f : Fld) (hf : f ∈ [Reg.FE_MASK_CTRL.ACT fe, Reg.FE_MASK_CTRL.BACKOFF_QDB fe]) :
      (violated s fe e v).get f = s.get f :=
    (maskEvent_get _ fe e v (apart fe f hf).1 (apart fe f hf).2).trans (windowDone_get s fe f)
  exact ⟨get _ (by simp), get _ (by simp)⟩

theorem violated_reports (h : v.1 < 32) :
    reports s (violated s fe e v) Ev.MASK_VIOLATION fun arg => bits arg 45 41 = v.1 := by
  obtain ⟨fields, counters, events, time, -⟩ := windowDone_frame s fe
  exact reports_congr (maskEvent_reports (windowDone s fe) fe e v h) fields counters events time

theorem violated_clock : (violated s fe e v).tick = s.tick ∧ (violated s fe e v).pending = s.pending := by
  obtain ⟨-, -, -, -, clock, queue⟩ := windowDone_frame s fe
  obtain ⟨-, clockE, queueE⟩ := maskEvent_rest (windowDone s fe) fe e v
  exact ⟨clockE.trans clock, queueE.trans queue⟩

end Mask

/-! The action of MASK_ACT (R121). -/

section MaskAct
variable {s : State} {fe : Fin 3} {e : Emission}

theorem emitting_isSome_of_mem (h : e ∈ (s.fe fe).emissions) (leaves : e.phase = .emitting) : (emitting s fe).isSome = true :=
  List.find?_isSome.2 ⟨e, h, decide_eq_true leaves⟩

theorem phase_of_emitting (leaves : emitting s fe = some e) : e.phase = .emitting := by
  have found := List.find?_some (show ((s.fe fe).emissions.find? fun e => decide (e.phase = .emitting)) = some e from leaves)
  exact of_decide_eq_true found

/-- BACKOFF takes 1 dB off the power of the emission in progress, which goes on. -/
theorem maskBackoff_shows (leaves : emitting s fe = some e) :
    (maskBackoff fe s).get (Reg.FE_MASK_CTRL.BACKOFF_QDB fe) = min 24 (s.get (Reg.FE_MASK_CTRL.BACKOFF_QDB fe) + 4) ∧
      (emitting (maskBackoff fe s) fe).isSome = true ∧
        onlyFe s (maskBackoff fe s) fe [Reg.FE_MASK_CTRL.BACKOFF_QDB fe] := by
  have phase : e.phase = .emitting := phase_of_emitting leaves
  have stands : e ∈ (s.fe fe).emissions := List.mem_of_find?_eq_some leaves
  unfold maskBackoff
  rw [leaves]
  dsimp only
  refine ⟨(State.setFe_get ..).trans (State.get_set_of_lt _ _ ?_), ?_, ?_⟩
  · exact lt_of_le_of_lt (Nat.min_le_left ..) (show 24 < 2 ^ 8 by decide)
  · exact emitting_isSome_of_mem (mem_putEmission (s.set _ _) fe stands _) (by exact phase)
  · exact onlyFe_trans (State.set_onlyFe s (List.mem_singleton_self _) _ _) (putEmission_onlyFe _ fe _ _ _)

/-- The chain of an emission that STOP ends is off. -/
def maskStopped (s : State) (fe : Nat) : State :=
  ((chainOff s fe).emit (.rampDown fe)).setFlag (Reg.FE_STATUS.MASK_STOPPED fe) true

theorem maskStop_eq (leaves : emitting s fe = some e) : maskStop fe s = freeChannel (loseEmission (maskStopped s fe) e) e := by
  rw [maskStop, leaves]
  rfl

theorem maskStop_shows (leaves : emitting s fe = some e) : (maskStop fe s).flag (Reg.FE_STATUS.MASK_STOPPED fe) = true ∧
    emitting (maskStop fe s) fe = none ∧ (maskStop fe s).flag (Reg.FE_STATUS.TX_ON fe) = false := by
  have low : ∀ fe : Fin 3, (Reg.FE_STATUS.MASK_STOPPED fe).key < 0x80000 * 64 ∧ (Reg.FE_STATUS.TX_ON fe).key < 0x80000 * 64 ∧
      (Reg.FE_STATUS.TX_ON fe).key ≠ (Reg.FE_STATUS.MASK_STOPPED fe).key := by decide
  obtain ⟨lowStopped, lowOn, apart⟩ := low fe
  have lost := (loseEmission_onlyTraffic (maskStopped s fe) e).trans (freeChannel_onlyTraffic _ e)
  rw [maskStop_eq leaves]
  exact ⟨(lost.flag_eq lowStopped).trans (State.flag_setFlag_self ..), (lost.emitting_eq fe).trans (chainOff_emitting s fe),
    (lost.flag_eq lowOn).trans ((State.flag_setFlag_other _ _ _ _ apart).trans (chainOff_flags s fe).1)⟩

theorem maskStop_recordKept (leaves : emitting s fe = some e) : recordKept Ev.MASK_VIOLATION s (maskStop fe s) := by
  rw [maskStop_eq leaves]
  exact (((recordKept.of_onlyFe (chainOff_onlyFe s fe)).trans (.rampDown _ fe)).trans
    (.of_onlyFe (State.setFlag_onlyFe _ (List.mem_singleton_self _) true fe))).trans
      (.of_onlyTraffic ((loseEmission_onlyTraffic _ e).trans (freeChannel_onlyTraffic _ e)) (by decide))

/-- Whatever the action, a violation stays reported. -/
theorem maskAct_recordKept (leaves : emitting s fe = some e) : recordKept Ev.MASK_VIOLATION s (maskAct fe 1 s) := by
  obtain ⟨-, -, only⟩ := maskBackoff_shows leaves
  unfold maskAct
  rw [if_neg (by decide)]
  split
  · exact .of_onlyFe only
  · exact maskStop_recordKept leaves
  · exact ⟨rfl, rfl, rfl, rfl⟩

theorem maskAct_of_act {act : Nat} (h : s.get (Reg.FE_MASK_CTRL.ACT fe) = act) : maskAct fe 1 s = match min 2 act with
    | 1 => maskBackoff fe s
    | 2 => maskStop fe s
    | _ => s := by
  rw [maskAct, maskActOf, h]
  rfl

end MaskAct

theorem maskWindow_waits {s : State} {dt : Nat} {fe : Fin 3} {e : Emission} (above : List (Nat × Nat))
    (leaves : emitting s fe = some e) (early : fe = 2 ∨ (s.advance dt).time.ns < e.startNs + ((s.fe fe).maskDone + 1) * 100000) :
    completes (.maskWindow dt fe above) s fun t => t = s.advance dt := by
  have waits : ¬ (fe.val ≠ 2 ∧ e.startNs + ((s.fe fe).maskDone + 1) * 100000 ≤ (s.advance dt).time.ns) := by
    rcases early with rfl | early
    · exact fun h => h.1 rfl
    · exact fun h => absurd h.2 (by omega)
  refine completes_of_effect (r := s.advance dt) (dt := dt) (by unfold exec execMaskWindow; rfl) ?_ rfl rfl rfl
  rw [show emitting (s.advance dt) fe = some e from leaves]
  exact congrArg (State.onlyIf (s.advance dt) · _) (decide_eq_false waits)

theorem maskWindow_acts {s : State} {dt : Nat} {fe : Fin 3} {e : Emission} {seg : Nat} (excess : Nat) (live : fe ≠ 2)
    (leaves : emitting s fe = some e) (due : e.startNs + ((s.fe fe).maskDone + 1) * 100000 ≤ (s.advance dt).time.ns)
    (h : seg < 32) (enabled : s.flag (Reg.FE_MASK_SEG.EN fe seg) = true) :
    completes (.maskWindow dt fe [(seg, excess)]) s fun t =>
      t = maskAct fe 1 (violated (s.advance dt) fe e (seg, excess)) := by
  have found : ([(seg, excess)].filter fun v => decide (v.1 < 32) &&
      (windowDone (s.advance dt) fe).flag (Reg.FE_MASK_SEG.EN fe v.1)) = [(seg, excess)] := by
    refine List.filter_eq_self.2 fun v hv => ?_
    rw [List.mem_singleton.1 hv, decide_eq_true h, windowDone, setFe_flag, State.advance_flag, enabled]
    rfl
  have standing : emitting (violated (s.advance dt) fe e (seg, excess)) fe = some e := (violated_emitting ..).trans leaves
  obtain ⟨clock, queue⟩ := violated_clock (s.advance dt) fe e (seg, excess)
  obtain ⟨clockA, queueA⟩ := (maskAct_recordKept standing).clock
  refine completes_of_effect (dt := dt) (by unfold exec execMaskWindow; rfl) ?_ (clockA.trans clock) (queueA.trans queue) rfl
  rw [show emitting (s.advance dt) fe = some e from leaves]
  refine State.onlyIf_of (decide_eq_true ⟨fun two => live (Fin.ext two), due⟩) ?_
  exact congrArg (fun hit : List (Nat × Nat) => maskAct fe hit.length (hit.foldl (maskEvent fe e) (windowDone (s.advance dt) fe))) found

theorem maskWindow_completes {s : State} {dt : Nat} {fe : Fin 3} {e : Emission} {seg : Nat} (excess : Nat) (live : fe ≠ 2)
    (leaves : emitting s fe = some e) (due : e.startNs + ((s.fe fe).maskDone + 1) * 100000 ≤ (s.advance dt).time.ns)
    (h : seg < 32) (enabled : s.flag (Reg.FE_MASK_SEG.EN fe seg) = true) :
    completes (.maskWindow dt fe [(seg, excess)]) s fun t =>
      reports (s.advance dt) t Ev.MASK_VIOLATION (fun arg => bits arg 45 41 = seg) ∧
      (s.get (Reg.FE_MASK_CTRL.ACT fe) = 0 → (t.fe fe) = { s.fe fe with maskDone := (s.fe fe).maskDone + 1 } ∧
        t.get (Reg.FE_MASK_CTRL.BACKOFF_QDB fe) = s.get (Reg.FE_MASK_CTRL.BACKOFF_QDB fe)) ∧
      (s.get (Reg.FE_MASK_CTRL.ACT fe) = 1 →
        t.get (Reg.FE_MASK_CTRL.BACKOFF_QDB fe) = min 24 (s.get (Reg.FE_MASK_CTRL.BACKOFF_QDB fe) + 4) ∧
          (emitting t fe).isSome = true) ∧
      (s.get (Reg.FE_MASK_CTRL.ACT fe) = 2 → t.flag (Reg.FE_STATUS.MASK_STOPPED fe) = true ∧ emitting t fe = none ∧
        t.flag (Reg.FE_STATUS.TX_ON fe) = false) := by
  have standing : emitting (violated (s.advance dt) fe e (seg, excess)) fe = some e := (violated_emitting ..).trans leaves
  obtain ⟨act, backoff⟩ := violated_ctrl (s.advance dt) fe e (seg, excess)
  refine completes_mono (maskWindow_acts excess live leaves due h enabled) ?_
  rintro t rfl
  refine ⟨(maskAct_recordKept standing).reports (violated_reports (s.advance dt) fe e _ h), fun none => ?_, fun back => ?_,
    fun stop => ?_⟩
  · rw [maskAct_of_act (act.trans none)]
    exact ⟨violated_fe .., backoff⟩
  · obtain ⟨less, goesOn, -⟩ := maskBackoff_shows standing
    rw [maskAct_of_act (act.trans back)]
    exact ⟨less.trans (by rw [backoff]; rfl), goesOn⟩
  · rw [maskAct_of_act (act.trans stop)]
    exact maskStop_shows standing

/-- What RESUME clears. -/
def maskResumed (s : State) (fe : Nat) : State :=
  (s.set (Reg.FE_MASK_CTRL.BACKOFF_QDB fe) 0).setFlag (Reg.FE_STATUS.MASK_STOPPED fe) false

theorem maskResumed_shows (s : State) (fe : Fin 3) : (maskResumed s fe).get (Reg.FE_MASK_CTRL.BACKOFF_QDB fe) = 0 ∧
    (maskResumed s fe).flag (Reg.FE_STATUS.MASK_STOPPED fe) = false ∧
      onlyRegs s (maskResumed s fe) [Reg.FE_MASK_CTRL.BACKOFF_QDB fe, Reg.FE_STATUS.MASK_STOPPED fe] := by
  have apart : ∀ fe : Fin 3, (Reg.FE_MASK_CTRL.BACKOFF_QDB fe).key ≠ (Reg.FE_STATUS.MASK_STOPPED fe).key := by decide
  exact ⟨(State.setFlag_get_other _ _ _ _ (apart fe)).trans (State.get_set_of_lt _ _ (Nat.two_pow_pos _)),
    State.flag_setFlag_self .., onlyRegs_trans (State.set_onlyRegs s (List.mem_cons_self ..) _)
      (State.set_onlyRegs _ (List.mem_cons_of_mem _ (List.mem_singleton_self _)) _)⟩

theorem maskResume_completes {s : State} {fe : Fin 3} (dt : Nat) (live : fe ≠ 2) : completes (.maskResume dt fe) s fun t =>
    t.get (Reg.FE_MASK_CTRL.BACKOFF_QDB fe) = 0 ∧ t.flag (Reg.FE_STATUS.MASK_STOPPED fe) = false ∧
      onlyRegsAnswered (s.advance dt) t [Reg.FE_MASK_CTRL.BACKOFF_QDB fe, Reg.FE_STATUS.MASK_STOPPED fe] := by
  have resumed : maskResume (s.advance dt) fe = maskResumed (s.advance dt) fe := if_neg fun two => live (Fin.ext two)
  obtain ⟨backoff, stopped, only⟩ := maskResumed_shows (s.advance dt) fe
  exact completes_of_effect (r := (maskResumed (s.advance dt) fe).answer 0) (dt := dt) (by unfold exec execMaskResume; rfl)
    (congrArg (State.answer · 0) resumed) rfl rfl ⟨backoff, stopped, onlyRegsAnswered_of_onlyRegs only 0⟩

/-! The lanes of a front end (R124, R157). -/

/-- `t` is `a` but for what the lanes and collision recovery hold. -/
def onlyHearing (a t : State) : Prop := { t with hear := a.hear, ox := a.ox } = a

namespace onlyHearing
variable {a b t : State}

theorem refl (a : State) : onlyHearing a a := Eq.refl a

theorem trans (h : onlyHearing a b) (k : onlyHearing b t) : onlyHearing a t := by
  unfold onlyHearing at h k ⊢
  rw [← k] at h
  exact h

theorem foldl {β : Type} {f : State → β → State} (h : ∀ s e, onlyHearing s (f s e)) (l : List β) (s : State) :
    onlyHearing s (l.foldl f s) :=
  List.foldlRecOn (motive := onlyHearing s) l f (refl s) fun _ ht e _ => ht.trans (h _ e)

theorem setCtx (s : State) (n : Nat) (c : Context) : onlyHearing s (setCtx s n c) := Eq.refl s

theorem freeLane (s : State) (n : Nat) : onlyHearing s (freeLane s n) := Eq.refl s

theorem disarm (s : State) (ctx : Option Nat) (claim : Nat) : onlyHearing s (disarm s ctx claim) := by
  unfold Machine.disarm
  split
  · exact refl s
  · dsimp only
    split
    · exact setCtx ..
    · exact setCtx ..

theorem closeCtx (s : State) (n : Nat) : onlyHearing s (closeCtx s n) := by
  unfold Machine.closeCtx
  dsimp only
  split
  · exact Eq.refl s
  · exact refl s

theorem rest (h : onlyHearing a t) : (∀ fe, t.fe fe = a.fe fe) ∧ t.fields = a.fields ∧ t.counters = a.counters ∧
    t.tick = a.tick ∧ t.pending = a.pending := by
  have fronts (fe : Nat) := congrArg (fun u : State => u.fe fe) h
  have fields := congrArg State.fields h
  have counters := congrArg State.counters h
  have clock := congrArg State.tick h
  have queue := congrArg State.pending h
  exact ⟨fronts, fields, counters, clock, queue⟩

end onlyHearing

theorem closeCtx_hear (s : State) (n : Nat) : (closeCtx s n).hear = s.hear := by
  unfold closeCtx
  dsimp only
  split <;> rfl

theorem disarm_hear (s : State) (ctx : Option Nat) (claim : Nat) : (disarm s ctx claim).hear = s.hear := by
  unfold disarm
  split
  · rfl
  · dsimp only
    split <;> rfl

/-- The contexts that blanking moves are collision recovery's alone. -/
theorem blankCtxs_frame (s : State) (fe : Nat) : onlyHearing s (blankCtxs s fe) ∧ (blankCtxs s fe).hear = s.hear := by
  refine List.foldlRecOn (motive := fun t => onlyHearing s t ∧ t.hear = s.hear) _ _ ⟨.refl s, rfl⟩ fun t ⟨only, hear⟩ n _ => ?_
  dsimp only
  split
  · exact ⟨only.trans (.closeCtx t n), (closeCtx_hear t n).trans hear⟩
  · split
    · exact ⟨only.trans (.setCtx t n _), hear⟩
    · exact ⟨only, hear⟩

theorem Cells.erase_eq_filter {α : Type} (k : Nat) : ∀ m : List (Nat × α), Cells.erase m k = m.filter fun e => decide (e.1 ≠ k)
  | [] => rfl
  | (a, v) :: rest => by
    rw [Cells.erase, Cells.erase_eq_filter k rest, List.filter_cons]
    by_cases h : a = k <;> simp [h]

/-- One lane of a front end that is blanked returns to the free pool. -/
def laneAbandoned (s : State) (e : Nat × Lane) : State :=
  let jobs := if e.2.stage = .payload then Cells.erase s.ox.jobs e.1 else s.ox.jobs
  disarm (freeLane { s with ox := { s.ox with jobs := jobs } } e.1) e.2.context e.2.claim

theorem laneAbandoned_onlyHearing (s : State) (e : Nat × Lane) : onlyHearing s (laneAbandoned s e) := by
  have jobless (jobs) : onlyHearing s { s with ox := { s.ox with jobs := jobs } } := Eq.refl s
  exact ((jobless _).trans (.freeLane _ e.1)).trans (.disarm ..)

theorem freeLane_lanes (s : State) (n : Nat) : (freeLane s n).hear.lanes = Cells.erase s.hear.lanes n := by
  show Cells.set s.hear.lanes n {} {} = _
  rw [Cells.set, if_pos rfl]

theorem laneAbandoned_lanes (s : State) (e : Nat × Lane) :
    (laneAbandoned s e).hear.lanes = s.hear.lanes.filter fun l => decide (l.1 ≠ e.1) := by
  rw [laneAbandoned, disarm_hear, freeLane_lanes, Cells.erase_eq_filter]

/-- The lanes that are left stood before, at numbers that no abandoned lane has. -/
theorem lanesAbandoned_lanes {l : Nat × Lane} : ∀ (mine : List (Nat × Lane)) (s : State),
    l ∈ (mine.foldl laneAbandoned s).hear.lanes → l ∈ s.hear.lanes ∧ l ∉ mine
  | [], _, h => ⟨h, List.not_mem_nil⟩
  | e :: mine, s, h => by
    obtain ⟨stood, other⟩ := lanesAbandoned_lanes mine (laneAbandoned s e) h
    rw [laneAbandoned_lanes, List.mem_filter, decide_eq_true_iff] at stood
    refine ⟨stood.1, fun mem => ?_⟩
    rcases List.mem_cons.1 mem with rfl | mem
    · exact stood.2 rfl
    · exact other mem

section Abandoned
variable (s : State) (fe : Nat)

theorem abandonFrames_eq : abandonFrames s fe = ((s.hear.lanes.filter (blanksLane fe)).foldl laneAbandoned s,
    ((s.hear.lanes.filter (blanksLane fe)).filter fun e => laneHasFrame e.2).length) := rfl

theorem abandonFrames_onlyHearing : onlyHearing s (abandonFrames s fe).1 := .foldl laneAbandoned_onlyHearing _ s

/-- A lane with a frame is not in INJECT. -/
theorem stage_of_frame {l : Lane} (h : laneHasFrame l = true) : l.stage ≠ .inject := by
  intro inject
  rw [laneHasFrame, inject] at h
  exact absurd h (by decide)

theorem blanksLane_of_frame {l : Nat × Lane} (h : laneHasFrame l.2 = true) : blanksLane fe l = decide (l.2.fe = fe) := by
  rw [blanksLane, if_neg (stage_of_frame h)]

theorem abandonFrames_lanes : ∀ l ∈ (abandonFrames s fe).1.hear.lanes, l.2.fe = fe → laneHasFrame l.2 = false := by
  intro l left here
  obtain ⟨stood, kept⟩ := lanesAbandoned_lanes _ s left
  refine Bool.eq_false_iff.2 fun frame => kept ?_
  exact List.mem_filter.2 ⟨stood, (blanksLane_of_frame fe frame).trans (decide_eq_true here)⟩

theorem abandonFrames_count : (abandonFrames s fe).2 ≠ 0 ↔ ∃ l ∈ s.hear.lanes, l.2.fe = fe ∧ laneHasFrame l.2 = true := by
  rw [abandonFrames_eq, ne_eq, List.length_eq_zero_iff, List.eq_nil_iff_forall_not_mem, not_forall]
  refine exists_congr fun l => ?_
  rw [not_not, List.mem_filter, List.mem_filter, and_assoc]
  refine and_congr_right fun _ => and_congr_left fun frame => ?_
  rw [blanksLane_of_frame fe frame, decide_eq_true_iff]

end Abandoned

/-! Blanking (R123 to R125). -/

/-- A front end is blanked by an emitter. -/
def blankedFor (s : State) (fe emitter : Nat) : State :=
  (s.setFe fe { s.fe fe with blankedBy := (s.fe fe).blankedBy ++ [emitter] }).setFlag (Reg.FE_STATUS.BLANKED fe) true

/-- The frames in progress on a front end that is blanked are abandoned. -/
def framesBlanked (s : State) (fe : Nat) : State × Nat := abandonFrames (blankCtxs s fe) fe

theorem framesBlanked_onlyHearing (s : State) (fe : Nat) : onlyHearing s (framesBlanked s fe).1 :=
  (blankCtxs_frame s fe).1.trans (abandonFrames_onlyHearing ..)

theorem framesBlanked_lanes (s : State) (fe : Nat) :
    ∀ l ∈ (framesBlanked s fe).1.hear.lanes, l.2.fe = fe → laneHasFrame l.2 = false := by
  rw [framesBlanked]
  exact abandonFrames_lanes (blankCtxs s fe) fe

theorem framesBlanked_count (s : State) (fe : Nat) :
    (framesBlanked s fe).2 ≠ 0 ↔ ∃ l ∈ s.hear.lanes, l.2.fe = fe ∧ laneHasFrame l.2 = true := by
  rw [framesBlanked, abandonFrames_count, (blankCtxs_frame s fe).2]

section RxBlanked
variable (s : State) (fe cause frames durNs : Nat)

/-- RX_BLANKED is reported where a frame was abandoned, and nothing happens otherwise. -/
theorem rxBlanked_cases : (frames = 0 ∧ rxBlanked s fe cause frames durNs = s) ∨
    (frames ≠ 0 ∧ ∃ arg, rxBlanked s fe cause frames durNs = s.event Ev.RX_BLANKED (Block.FE fe) arg) := by
  unfold rxBlanked
  rcases eq_or_ne frames 0 with none | some
  · exact .inl ⟨none, by rw [decide_eq_false (not_not.2 none), State.onlyIf_false]⟩
  · exact .inr ⟨some, _, by rw [decide_eq_true some, State.onlyIf_true]⟩

theorem rxBlanked_rest : (∀ j, (rxBlanked s fe cause frames durNs).fe j = s.fe j) ∧
    (rxBlanked s fe cause frames durNs).hear = s.hear ∧ (rxBlanked s fe cause frames durNs).tick = s.tick ∧
      (rxBlanked s fe cause frames durNs).pending = s.pending := by
  rcases rxBlanked_cases s fe cause frames durNs with ⟨-, e⟩ | ⟨-, arg, e⟩
  · rw [e]
    exact ⟨fun _ => rfl, rfl, rfl, rfl⟩
  · obtain ⟨fronts, hear, -, -, clock, queue⟩ := State.event_rest s Ev.RX_BLANKED (Block.FE fe) arg
    rw [e]
    exact ⟨fronts, hear, clock, queue⟩

theorem rxBlanked_get {g : Fld} (ovf : g.key ≠ Reg.SYS_EVENT_STATUS.OVF.key) (lost : g.key ≠ Reg.SYS_EVENT_LOST.LOST.key) :
    (rxBlanked s fe cause frames durNs).get g = s.get g := by
  rcases rxBlanked_cases s fe cause frames durNs with ⟨-, e⟩ | ⟨-, arg, e⟩
  · rw [e]
  · rw [e, State.event_get_other _ _ _ _ ovf lost]

theorem rxBlanked_counted (h : frames ≠ 0) : countedOnce s (rxBlanked s fe cause frames durNs) Ev.RX_BLANKED := by
  rcases rxBlanked_cases s fe cause frames durNs with ⟨none, -⟩ | ⟨-, arg, e⟩
  · exact absurd none h
  · rw [e]
    exact State.event_countedOnce ..

theorem rxBlanked_of_none (h : frames = 0) : rxBlanked s fe cause frames durNs = s := by
  rcases rxBlanked_cases s fe cause frames durNs with ⟨-, e⟩ | ⟨some, -⟩
  · exact e
  · exact absurd h some

end RxBlanked

/-- The frames in progress on a front end are abandoned, and reported so. -/
def framesLost (s : State) (fe cause durNs : Nat) : State :=
  rxBlanked (framesBlanked s fe).1 fe cause (framesBlanked s fe).2 durNs

section Lost
variable (s : State) (fe cause durNs : Nat)

theorem framesLost_rest : (∀ j, (framesLost s fe cause durNs).fe j = s.fe j) ∧
    (∀ l ∈ (framesLost s fe cause durNs).hear.lanes, l.2.fe = fe → laneHasFrame l.2 = false) ∧
      (framesLost s fe cause durNs).tick = s.tick ∧ (framesLost s fe cause durNs).pending = s.pending := by
  obtain ⟨fronts, -, -, clock, queue⟩ := (framesBlanked_onlyHearing s fe).rest
  obtain ⟨frontsE, hear, clockE, queueE⟩ :=
    rxBlanked_rest (framesBlanked s fe).1 fe cause (framesBlanked s fe).2 durNs
  refine ⟨fun j => (frontsE j).trans (fronts j), ?_, clockE.trans clock, queueE.trans queue⟩
  rw [framesLost, hear]
  exact framesBlanked_lanes s fe

theorem framesLost_get {g : Fld} (ovf : g.key ≠ Reg.SYS_EVENT_STATUS.OVF.key) (lost : g.key ≠ Reg.SYS_EVENT_LOST.LOST.key) :
    (framesLost s fe cause durNs).get g = s.get g := by
  obtain ⟨-, fields, -⟩ := (framesBlanked_onlyHearing s fe).rest
  rw [framesLost, rxBlanked_get _ _ _ _ _ ovf lost, State.get_congr fields]

theorem framesLost_flag {g : Fld} (ovf : g.key ≠ Reg.SYS_EVENT_STATUS.OVF.key) (lost : g.key ≠ Reg.SYS_EVENT_LOST.LOST.key) :
    (framesLost s fe cause durNs).flag g = s.flag g := by
  rw [State.flag, State.flag, framesLost_get _ _ _ _ ovf lost]

/-- RX_BLANKED is counted where a lane of the front end had a frame, and only there. -/
theorem framesLost_counted :
    ((∃ l ∈ s.hear.lanes, l.2.fe = fe ∧ laneHasFrame l.2 = true) → countedOnce s (framesLost s fe cause durNs) Ev.RX_BLANKED) ∧
    ((∀ l ∈ s.hear.lanes, l.2.fe = fe → laneHasFrame l.2 = false) →
      Cells.get (framesLost s fe cause durNs).counters Ev.RX_BLANKED 0 = Cells.get s.counters Ev.RX_BLANKED 0) := by
  obtain ⟨-, -, counters, -⟩ := (framesBlanked_onlyHearing s fe).rest
  have count := framesBlanked_count s fe
  unfold framesLost
  generalize framesBlanked s fe = r at count counters
  refine ⟨fun frame => ?_, fun quiet => ?_⟩
  · exact countedOnce_congr (rxBlanked_counted r.1 fe cause r.2 durNs (count.2 frame)) counters
  · have none : r.2 = 0 := by
      by_contra some
      obtain ⟨l, stands, here, frame⟩ := count.1 some
      exact absurd frame (Bool.eq_false_iff.1 (quiet l stands here))
    rw [rxBlanked_of_none _ _ _ _ _ none, counters]

end Lost

theorem blankedFor_shows (s : State) (fe : Fin 3) (emitter : Nat) :
    (blankedFor s fe emitter).flag (Reg.FE_STATUS.BLANKED fe) = true ∧
      emitter ∈ ((blankedFor s fe emitter).fe fe).blankedBy ∧ (blankedFor s fe emitter).hear = s.hear ∧
        (blankedFor s fe emitter).counters = s.counters ∧ (blankedFor s fe emitter).tick = s.tick ∧
          (blankedFor s fe emitter).pending = s.pending := by
  obtain ⟨-, counters, -, -, -, -, hear, clock, queue⟩ :=
    State.setFe_frame s fe { s.fe fe with blankedBy := (s.fe fe).blankedBy ++ [emitter] }
  refine ⟨State.flag_setFlag_self .., ?_, hear, counters, clock, queue⟩
  rw [blankedFor, State.setFlag_fe, State.fe_setFe_self]
  exact List.mem_append_right _ (List.mem_singleton_self _)

theorem blankingStart_begins {s : State} {dt : Nat} {fe emitter : Fin 3} {e : Emission}
    (window : blankingFor (s.advance dt) emitter = some e) (named : blanks s emitter fe = true)
    (fresh : emitter.val ∉ (s.fe fe).blankedBy) : completes (.blankingStart dt fe emitter) s fun t =>
      ∃ cause durNs, t = framesLost (blankedFor (s.advance dt) fe emitter) fe cause durNs := by
  have acts : (blanks (s.advance dt) emitter fe && !((s.advance dt).fe fe).blankedBy.contains emitter.val) = true := by
    rw [show blanks (s.advance dt) emitter fe = true from named, State.advance_fe,
      Bool.eq_false_iff.2 fun blanked => fresh (List.contains_iff_mem.1 blanked)]
    rfl
  obtain ⟨-, -, -, -, clock, queue⟩ := blankedFor_shows (s.advance dt) fe emitter
  obtain ⟨-, -, clockL, queueL⟩ := framesLost_rest (blankedFor (s.advance dt) fe emitter) fe (if emitter = fe then 0 else 1)
    (blankLeadNs (blankedFor (s.advance dt) fe emitter) emitter + e.airNs + 15000)
  refine completes_of_effect (dt := dt) (by unfold exec execBlankingStart; rfl) ?_ (clockL.trans clock) (queueL.trans queue)
    ⟨_, _, rfl⟩
  rw [window]
  exact State.onlyIf_of acts rfl

theorem blankingStart_completes {s : State} {dt : Nat} {fe emitter : Fin 3} {e : Emission}
    (window : blankingFor (s.advance dt) emitter = some e) (named : blanks s emitter fe = true)
    (fresh : emitter.val ∉ (s.fe fe).blankedBy) : completes (.blankingStart dt fe emitter) s fun t =>
      t.flag (Reg.FE_STATUS.BLANKED fe) = true ∧ emitter.val ∈ (t.fe fe).blankedBy ∧
        (∀ l ∈ t.hear.lanes, l.2.fe = fe.val → laneHasFrame l.2 = false) ∧
        ((∃ l ∈ s.hear.lanes, l.2.fe = fe.val ∧ laneHasFrame l.2 = true) → countedOnce s t Ev.RX_BLANKED) ∧
        ((∀ l ∈ s.hear.lanes, l.2.fe = fe.val → laneHasFrame l.2 = false) →
          Cells.get t.counters Ev.RX_BLANKED 0 = Cells.get s.counters Ev.RX_BLANKED 0) := by
  refine completes_mono (blankingStart_begins window named fresh) ?_
  rintro t ⟨cause, durNs, begun⟩
  have apart : ∀ fe : Fin 3, (Reg.FE_STATUS.BLANKED fe).key ≠ Reg.SYS_EVENT_STATUS.OVF.key ∧
      (Reg.FE_STATUS.BLANKED fe).key ≠ Reg.SYS_EVENT_LOST.LOST.key := by decide
  obtain ⟨blanked, emits, hear, counters, -, -⟩ := blankedFor_shows (s.advance dt) fe emitter
  obtain ⟨fronts, lanes, -⟩ := framesLost_rest (blankedFor (s.advance dt) fe emitter) fe cause durNs
  obtain ⟨counted, uncounted⟩ := framesLost_counted (blankedFor (s.advance dt) fe emitter) fe cause durNs
  rw [hear] at counted uncounted
  rw [counters] at uncounted
  rw [begun, framesLost_flag _ _ _ _ (apart fe).1 (apart fe).2, fronts]
  exact ⟨blanked, emits, lanes, fun frame => countedOnce_congr (counted frame) counters, uncounted⟩

theorem resuming_onlyFe {s : State} {fe : Nat} {k : State → State} {fs : List Fld} (h : onlyFe s (k s) fe fs) :
    onlyFe s (s.resuming fe k) fe fs := by
  unfold State.resuming
  dsimp only
  split
  · exact onlyFe_trans h (State.setFe_onlyFe ..)
  · exact h

/-- Detectors that run again change nothing else of their front end. -/
theorem resuming_fe (s : State) (fe : Nat) (k : State → State) :
    ∃ ns, (s.resuming fe k).fe fe = { (k s).fe fe with detectNs := ns } := by
  unfold State.resuming
  dsimp only
  split
  · exact ⟨_, State.fe_setFe_self ..⟩
  · exact ⟨_, rfl⟩

/-- A front end is blanked by those that are left. -/
def blankedStill (s : State) (fe : Nat) (left : List Nat) : State :=
  (s.setFe fe { s.fe fe with blankedBy := left }).setFlag (Reg.FE_STATUS.BLANKED fe) (!left.isEmpty)

theorem blankedStill_onlyFe (s : State) (fe : Nat) (left : List Nat) :
    onlyFe s (blankedStill s fe left) fe [Reg.FE_STATUS.BLANKED fe] :=
  onlyFe_trans (State.setFe_onlyFe s fe _ _) (State.setFlag_onlyFe _ (List.mem_singleton_self _) _ _)

theorem blankedStill_flag (s : State) (fe : Nat) (left : List Nat) :
    (blankedStill s fe left).flag (Reg.FE_STATUS.BLANKED fe) = !left.isEmpty := State.flag_setFlag_self ..

theorem blankedStill_fe (s : State) (fe : Nat) (left : List Nat) :
    (blankedStill s fe left).fe fe = { s.fe fe with blankedBy := left } := by
  rw [blankedStill, State.setFlag_fe, State.fe_setFe_self]

theorem blankingEnd_completes {s : State} {dt : Nat} {fe emitter : Fin 3} (alone : (s.fe fe).blankedBy = [emitter.val])
    (silent : emitting s emitter = none) (quiet : blankingFor (s.advance dt) emitter = none)
    (rested : (s.fe emitter).lastChipNs + 15000 ≤ (s.advance dt).time.ns) : completes (.blankingEnd dt fe emitter) s fun t =>
      t.flag (Reg.FE_STATUS.BLANKED fe) = false ∧ (t.fe fe).blankedBy = [] ∧
        onlyFe (s.advance dt) t fe [Reg.FE_STATUS.BLANKED fe] := by
  have left : (((s.advance dt).fe fe).blankedBy.filter fun x => decide (x ≠ emitter.val)) = [] := by
    rw [State.advance_fe, alone]
    simp
  have acts : (((s.advance dt).fe fe).blankedBy.contains emitter.val && (emitting (s.advance dt) emitter).isNone &&
      (blankingFor (s.advance dt) emitter).isNone &&
      decide (((s.advance dt).fe emitter).lastChipNs + 15000 ≤ (s.advance dt).time.ns)) = true := by
    rw [quiet, show emitting (s.advance dt) emitter = none from silent, State.advance_fe, State.advance_fe, alone,
      decide_eq_true rested]
    simp
  have only := resuming_onlyFe (k := fun s => blankedStill s fe []) (blankedStill_onlyFe (s.advance dt) fe [])
  obtain ⟨ns, front⟩ := resuming_fe (s.advance dt) fe fun s => blankedStill s fe []
  refine completes_of_whenever_onlyFe (dt := dt) (by unfold exec execBlankingEnd; rfl) acts ?_ only
    ⟨(resuming_flag (s.advance dt) fe (fun s => blankedStill s fe []) _).trans (blankedStill_flag ..), ?_, only⟩
  · dsimp only
    rw [left]
    rfl
  · rw [front, blankedStill_fe]

/-! The statement. -/

/-- Settles O25: each command's effect is written out as changes of one front end, of the traffic behind it or of its lanes, and what
it has reported is kept by all of them. -/
theorem lockLossMaskAndBlanking : Obligations.LockLossMaskAndBlanking :=
  ⟨fun _ dt _ _ _ excess => ⟨lockLost_completes dt, fun leaves early => maskWindow_waits _ leaves early,
    fun live leaves due h enabled => maskWindow_completes excess live leaves due h enabled, maskResume_completes dt⟩,
    fun _ _ _ _ _ => ⟨blankingStart_completes, blankingEnd_completes⟩⟩


end Sys2Proof.Machine
end

section
/-!
SUPPORT. Calibration requests (R138 to R140, R740): what a request of each kind does while BUSY is clear, and how each one ends. Then
the statement about them.
-/

namespace Sys2Proof.Machine

/-- What drives the bus is not a front end's. -/
theorem onlyFe_bus {a t : State} {n : Nat} {fs : List Fld} (h : onlyFe a t n fs) : { t with bus := a.bus } = t := by
  have bus := congrArg State.bus h.1
  have frame : (t.setFe n (a.fe n)).bus = t.bus := by
    unfold State.setFe
    split_ifs <;> rfl
  rw [← frame.symm.trans bus]

/-! A request as it starts (R138, R740). -/

/-- The fields that the start of a request writes. -/
def requestFields (fe : Nat) : List Fld := [Reg.FE_CAL_STATUS.BUSY fe, Reg.FE_CAL_STATUS.KIND fe, Reg.FE_CAL_STATUS.ENTRY fe]

theorem requestFields_apart : ∀ fe : Fin 3, (Reg.FE_CAL_STATUS.KIND fe).key ≠ (Reg.FE_CAL_STATUS.ENTRY fe).key ∧
    (Reg.FE_CAL_STATUS.KIND fe).key ≠ (Reg.FE_CAL_STATUS.BUSY fe).key ∧
      (Reg.FE_CAL_STATUS.ENTRY fe).key ≠ (Reg.FE_CAL_STATUS.BUSY fe).key := by decide

section Begin
variable (s : State) (fe : Fin 3) {kind : Nat} (entry : Nat)

theorem calNote_onlyRegs (kind : Nat) : onlyRegs s (calNote s fe kind entry) (requestFields fe) := by
  have noted : onlyRegs s (s.set (Reg.FE_CAL_STATUS.KIND fe) kind) (requestFields fe) :=
    State.set_onlyRegs s (by simp [requestFields]) kind
  exact State.onlyIf_keeps (P := fun t => onlyRegs s t _) _ _ _ noted fun h =>
    onlyRegs_trans h (State.set_onlyRegs _ (by simp [requestFields]) entry)

theorem calNote_kind (h : kind < 16) : (calNote s fe kind entry).get (Reg.FE_CAL_STATUS.KIND fe) = kind := by
  have noted : (s.set (Reg.FE_CAL_STATUS.KIND fe) kind).get (Reg.FE_CAL_STATUS.KIND fe) = kind :=
    State.get_set_of_lt s _ (show kind < 2 ^ 4 from h)
  exact State.onlyIf_keeps (P := fun t => t.get (Reg.FE_CAL_STATUS.KIND fe) = kind) _ _ _ noted fun h =>
    (State.get_set_other _ _ _ _ (requestFields_apart fe).1).trans h

theorem calNote_entry (h : entry < 512) : (calNote s fe 4 entry).get (Reg.FE_CAL_STATUS.ENTRY fe) = entry :=
  State.get_set_of_lt _ _ (show entry < 2 ^ 9 from h)

theorem calBegin_onlyFe (kind : Nat) (entries : List Nat) :
    onlyFe s (calBegin s fe kind entry entries) fe (requestFields fe) :=
  onlyFe_trans (onlyFe_trans (onlyFe_of_onlyRegs (calNote_onlyRegs s fe entry kind) fe)
    (State.setFlag_onlyFe _ (by simp [requestFields]) true fe)) (State.setFe_onlyFe ..)

theorem calBegin_shows (h : kind < 16) (entries : List Nat) :
    (calBegin s fe kind entry entries).flag (Reg.FE_CAL_STATUS.BUSY fe) = true ∧
      (calBegin s fe kind entry entries).get (Reg.FE_CAL_STATUS.KIND fe) = kind ∧
        ((calBegin s fe kind entry entries).fe fe).request = some { kind := kind, entries := entries } := by
  refine ⟨(setFe_flag ..).trans (State.flag_setFlag_self ..), ?_, ?_⟩
  · exact ((State.setFe_get ..).trans (State.setFlag_get_other _ _ _ _ (requestFields_apart fe).2.1)).trans
      (calNote_kind s fe entry h)
  · rw [calBegin, State.fe_setFe_self]

theorem calBegin_entry (h : entry < 512) (entries : List Nat) :
    (calBegin s fe 4 entry entries).get (Reg.FE_CAL_STATUS.ENTRY fe) = entry :=
  ((State.setFe_get ..).trans (State.setFlag_get_other _ _ _ _ (requestFields_apart fe).2.2)).trans (calNote_entry s fe entry h)

end Begin

/-! What a request of each kind does (R139, R740). -/

section Kinds
variable {s : State} {fe : Fin 3} {entry : Nat}

theorem calRequest_of_busy (kind entry : Nat) (busy : s.flag (Reg.FE_CAL_STATUS.BUSY fe) = true) :
    calRequest s fe kind entry = s := if_pos busy

/-- While BUSY is clear a request does what its kind asks for. -/
theorem calRequest_of_free (kind entry : Nat) (free : s.flag (Reg.FE_CAL_STATUS.BUSY fe) = false) :
    calRequest s fe kind entry = match kind with
      | 1 | 2 | 3 => calReceive s fe kind
      | 4 => if tableSize fe ≤ entry ∨ (s.fe fe).used ≤ entry then calReject s fe 4 entry else calBegin s fe 4 entry [entry]
      | 5 => if (s.fe fe).used = 0 then (calNote s fe 5 0).setFlag (Reg.FE_CAL_STATUS.DONE fe) true
        else calBegin s fe 5 0 (List.range (s.fe fe).used)
      | 6 => if fe.val = 2 then calReject s fe 6 entry else calDpd s fe
      | _ => s := by
  unfold calRequest
  exact if_neg (Bool.eq_false_iff.1 free)

/-- A request for a receiver takes it out of service, and its frames with it. -/
theorem calReceive_shows (s : State) (fe : Fin 3) {kind : Nat} (h : kind < 16) :
    (calReceive s fe kind).flag (Reg.FE_CAL_STATUS.BUSY fe) = true ∧
      (calReceive s fe kind).get (Reg.FE_CAL_STATUS.KIND fe) = kind ∧
      (calReceive s fe kind).flag (Reg.FE_STATUS.RX_IN_SERVICE fe) = false ∧
      ((calReceive s fe kind).fe fe).request = some { kind := kind, entries := [] } ∧
      (∀ l ∈ (calReceive s fe kind).hear.lanes, l.2.fe = fe.val → laneHasFrame l.2 = false) ∧
      (calReceive s fe kind).tick = s.tick ∧ (calReceive s fe kind).pending = s.pending := by
  have apart : ∀ fe : Fin 3, ∀ f ∈ [Reg.FE_CAL_STATUS.BUSY fe, Reg.FE_CAL_STATUS.KIND fe, Reg.FE_STATUS.RX_IN_SERVICE fe],
      f.key ≠ Reg.SYS_EVENT_STATUS.OVF.key ∧ f.key ≠ Reg.SYS_EVENT_LOST.LOST.key := by decide
  have service : ∀ fe : Fin 3, (Reg.FE_CAL_STATUS.BUSY fe).key ≠ (Reg.FE_STATUS.RX_IN_SERVICE fe).key ∧
      (Reg.FE_CAL_STATUS.KIND fe).key ≠ (Reg.FE_STATUS.RX_IN_SERVICE fe).key := by decide
  obtain ⟨busy, shown, request⟩ := calBegin_shows s fe 0 h []
  obtain ⟨clock, queue⟩ := onlyFe_clock (calBegin_onlyFe s fe 0 kind [])
  rw [show calReceive s fe kind =
    framesLost ((calBegin s fe kind 0 []).setFlag (Reg.FE_STATUS.RX_IN_SERVICE fe) false) fe 2 20000000 from rfl]
  obtain ⟨fronts, lanes, clockL, queueL⟩ :=
    framesLost_rest ((calBegin s fe kind 0 []).setFlag (Reg.FE_STATUS.RX_IN_SERVICE fe) false) fe 2 20000000
  have get (f : Fld) (hf : f ∈ [Reg.FE_CAL_STATUS.BUSY fe, Reg.FE_CAL_STATUS.KIND fe, Reg.FE_STATUS.RX_IN_SERVICE fe]) :=
    framesLost_get ((calBegin s fe kind 0 []).setFlag (Reg.FE_STATUS.RX_IN_SERVICE fe) false) fe 2 20000000
      (apart fe f hf).1 (apart fe f hf).2
  refine ⟨?_, ?_, ?_, ?_, lanes, clockL.trans clock, queueL.trans queue⟩
  · rw [State.flag, get _ (by simp), State.setFlag_get_other _ _ _ _ (service fe).1]
    exact busy
  · rw [get _ (by simp), State.setFlag_get_other _ _ _ _ (service fe).2, shown]
  · rw [State.flag, get _ (by simp)]
    exact State.flag_setFlag_self ..
  · rw [fronts, State.setFlag_fe, request]

theorem calReject_onlyRegs (s : State) (fe kind entry : Nat) : onlyRegs s (calReject s fe kind entry)
    [Reg.FE_CAL_STATUS.KIND fe, Reg.FE_CAL_STATUS.ENTRY fe, Reg.FE_CAL_STATUS.DONE fe, Reg.FE_CAL_STATUS.REJECTED fe] :=
  onlyRegs_trans (onlyRegs_trans (onlyRegs_trans (State.set_onlyRegs s (by simp) kind) (State.set_onlyRegs _ (by simp) entry))
    (State.set_onlyRegs _ (by simp) _)) (State.set_onlyRegs _ (by simp) _)

theorem calReject_shows (s : State) (fe : Fin 3) (kind entry : Nat) :
    (calReject s fe kind entry).flag (Reg.FE_CAL_STATUS.REJECTED fe) = true ∧
      (calReject s fe kind entry).flag (Reg.FE_CAL_STATUS.BUSY fe) = s.flag (Reg.FE_CAL_STATUS.BUSY fe) := by
  have apart : ∀ fe : Fin 3, ∀ f ∈ [Reg.FE_CAL_STATUS.KIND fe, Reg.FE_CAL_STATUS.ENTRY fe, Reg.FE_CAL_STATUS.DONE fe,
      Reg.FE_CAL_STATUS.REJECTED fe], (Reg.FE_CAL_STATUS.BUSY fe).key ≠ f.key := by decide
  refine ⟨State.flag_setFlag_self .., ?_⟩
  rw [State.flag, State.flag, (calReject_onlyRegs s fe kind entry).2 _ (apart fe)]

/-- A request for the entries of a table without one is done at once. -/
theorem tableDone_shows (s : State) (fe : Fin 3) :
    ((calNote s fe 5 0).setFlag (Reg.FE_CAL_STATUS.DONE fe) true).get (Reg.FE_CAL_STATUS.KIND fe) = 5 ∧
    ((calNote s fe 5 0).setFlag (Reg.FE_CAL_STATUS.DONE fe) true).flag (Reg.FE_CAL_STATUS.DONE fe) = true ∧
    ((calNote s fe 5 0).setFlag (Reg.FE_CAL_STATUS.DONE fe) true).flag (Reg.FE_CAL_STATUS.BUSY fe) =
      s.flag (Reg.FE_CAL_STATUS.BUSY fe) ∧
    ((calNote s fe 5 0).setFlag (Reg.FE_CAL_STATUS.DONE fe) true).tick = s.tick ∧
    ((calNote s fe 5 0).setFlag (Reg.FE_CAL_STATUS.DONE fe) true).pending = s.pending := by
  have apart : ∀ fe : Fin 3, (Reg.FE_CAL_STATUS.KIND fe).key ≠ (Reg.FE_CAL_STATUS.DONE fe).key ∧
      (Reg.FE_CAL_STATUS.BUSY fe).key ≠ (Reg.FE_CAL_STATUS.DONE fe).key ∧
        (Reg.FE_CAL_STATUS.BUSY fe).key ≠ (Reg.FE_CAL_STATUS.KIND fe).key := by decide
  obtain ⟨kind, busy, busyKind⟩ := apart fe
  exact ⟨(State.setFlag_get_other _ _ _ _ kind).trans (calNote_kind s fe 0 (by decide)), State.flag_setFlag_self ..,
    (State.flag_setFlag_other _ _ _ _ busy).trans (State.flag_set_other _ _ _ _ busyKind), rfl, rfl⟩

theorem calDpd_shows (s : State) (fe : Fin 3) : (calDpd s fe).flag (Reg.FE_CAL_STATUS.BUSY fe) = true ∧
    ((calDpd s fe).fe fe).request = some { kind := 6, entries := [] } ∧ onlyFe s (calDpd s fe) fe (requestFields fe) := by
  obtain ⟨busy, -, request⟩ := calBegin_shows s fe 0 (kind := 6) (by decide) []
  refine ⟨(setFe_flag ..).trans busy, ?_, onlyFe_trans (calBegin_onlyFe s fe 0 6 []) (State.setFe_onlyFe ..)⟩
  rw [calDpd, State.fe_setFe_self]
  exact request

end Kinds

/-! The commands (R138). -/

/-- A command writes a request of a kind for an entry. -/
def writesRequest (c : Instr) (dt : Nat) (fe : Fin 3) (kind entry : Nat) : Prop :=
  ∀ s, exec c s = step' dt s fun s => (calRequest s fe kind entry).answer 0

/-- The commands for the receiver write requests of KIND 1 to 3. -/
theorem writesRequest_receive {c : Instr} {kind dt : Nat} {fe : Fin 3}
    (h : (c, kind) ∈ [(Instr.calReqAdc dt fe, 1), (.calReqIq dt fe, 2), (.calReqLoLeakage dt fe, 3)]) :
    writesRequest c dt fe kind 0 ∧ (kind = 1 ∨ kind = 2 ∨ kind = 3) := by
  simp only [List.mem_cons, Prod.mk.injEq, List.not_mem_nil, or_false] at h
  rcases h with ⟨rfl, rfl⟩ | ⟨rfl, rfl⟩ | ⟨rfl, rfl⟩
  · exact ⟨fun s => by unfold exec execCalReqAdc; rfl, by decide⟩
  · exact ⟨fun s => by unfold exec execCalReqIq; rfl, by decide⟩
  · exact ⟨fun s => by unfold exec execCalReqLoLeakage; rfl, by decide⟩

theorem writesRequest_txEntry (dt : Nat) (fe : Fin 3) (entry : Nat) :
    writesRequest (.calReqTxEntry dt fe entry) dt fe 4 (entry % 512) := fun s => by unfold exec execCalReqTxEntry; rfl

theorem writesRequest_txTable (dt : Nat) (fe : Fin 3) : writesRequest (.calReqTxTable dt fe) dt fe 5 0 := fun s => by
  unfold exec execCalReqTxTable
  rfl

theorem writesRequest_dpd (dt : Nat) (fe : Fin 3) : writesRequest (.calReqDpd dt fe) dt fe 6 0 := fun s => by
  unfold exec execCalReqDpd
  rfl

/-- A write of a request completes with its effect and an answer on the bus. -/
theorem completes_of_request {c : Instr} {s r : State} {dt kind entry : Nat} {fe : Fin 3} {post : State → Prop}
    (writes : writesRequest c dt fe kind entry) (effect : calRequest (s.advance dt) fe kind entry = r)
    (clock : r.tick = s.tick + dt) (queue : r.pending = s.pending) (hp : post (r.answer 0)) : completes c s post :=
  completes_of_effect (writes s) (congrArg (State.answer · 0) effect) clock queue hp

section Requests
variable {s : State} {dt : Nat} {fe : Fin 3} {c : Instr} {kind entry : Nat}

theorem request_ignored (writes : writesRequest c dt fe kind entry) (busy : s.flag (Reg.FE_CAL_STATUS.BUSY fe) = true) :
    completes c s fun t => onlyRegsAnswered (s.advance dt) t [] :=
  completes_of_request writes (calRequest_of_busy kind entry busy) rfl rfl (onlyRegsAnswered_answer ..)

variable (free : s.flag (Reg.FE_CAL_STATUS.BUSY fe) = false)
include free

theorem receive_requested (writes : writesRequest c dt fe kind 0) (receive : kind = 1 ∨ kind = 2 ∨ kind = 3) :
    completes c s fun t => t.flag (Reg.FE_CAL_STATUS.BUSY fe) = true ∧ t.get (Reg.FE_CAL_STATUS.KIND fe) = kind ∧
      t.flag (Reg.FE_STATUS.RX_IN_SERVICE fe) = false ∧ (t.fe fe).request = some { kind := kind, entries := [] } ∧
      ∀ l ∈ t.hear.lanes, l.2.fe = fe.val → laneHasFrame l.2 = false := by
  have effect : calRequest (s.advance dt) fe kind 0 = calReceive (s.advance dt) fe kind := by
    rw [calRequest_of_free (s := s.advance dt) kind 0 free]
    rcases receive with rfl | rfl | rfl <;> rfl
  obtain ⟨busy, shown, out, request, lanes, clock, queue⟩ := calReceive_shows (s.advance dt) fe (kind := kind) (by omega)
  generalize calReceive (s.advance dt) fe kind = r at effect busy shown out request lanes clock queue
  exact completes_of_request writes effect clock queue ⟨busy, shown, out, request, lanes⟩

theorem txEntry_requested (lt : entry < 512) (used : entry < (s.fe fe).used) (inTable : entry < tableSize fe) :
    completes (.calReqTxEntry dt fe entry) s fun t => t.flag (Reg.FE_CAL_STATUS.BUSY fe) = true ∧
      t.get (Reg.FE_CAL_STATUS.ENTRY fe) = entry ∧ (t.fe fe).request = some { kind := 4, entries := [entry] } ∧
        onlyFe (s.advance dt) { t with bus := s.bus } fe (requestFields fe) := by
  have effect : calRequest (s.advance dt) fe 4 (entry % 512) = calBegin (s.advance dt) fe 4 entry [entry] := by
    rw [Nat.mod_eq_of_lt lt, calRequest_of_free (s := s.advance dt) 4 entry free]
    exact if_neg (not_or.2 ⟨Nat.not_le.2 inTable, Nat.not_le.2 used⟩)
  have only := calBegin_onlyFe (s.advance dt) fe entry 4 [entry]
  obtain ⟨busy, -, request⟩ := calBegin_shows (s.advance dt) fe entry (kind := 4) (by decide) [entry]
  have shown := calBegin_entry (s.advance dt) fe entry lt [entry]
  obtain ⟨clock, queue⟩ := onlyFe_clock only
  generalize calBegin (s.advance dt) fe 4 entry [entry] = r at effect only busy request shown clock queue
  refine completes_of_request (writesRequest_txEntry dt fe entry) effect clock queue ⟨busy, shown, request, ?_⟩
  rw [show { r.answer 0 with bus := s.bus } = r from onlyFe_bus only]
  exact only

theorem txEntry_rejected (lt : entry < 512) (unused : (s.fe fe).used ≤ entry) :
    completes (.calReqTxEntry dt fe entry) s fun t => t.flag (Reg.FE_CAL_STATUS.REJECTED fe) = true ∧
      t.flag (Reg.FE_CAL_STATUS.BUSY fe) = false ∧ t.fe fe = s.fe fe := by
  have effect : calRequest (s.advance dt) fe 4 (entry % 512) = calReject (s.advance dt) fe 4 entry := by
    rw [Nat.mod_eq_of_lt lt, calRequest_of_free (s := s.advance dt) 4 entry free]
    exact if_pos (.inr unused)
  obtain ⟨rejected, busy⟩ := calReject_shows (s.advance dt) fe 4 entry
  obtain ⟨clock, queue, -⟩ := onlyRegs_frame (calReject_onlyRegs (s.advance dt) fe 4 entry)
  exact completes_of_request (writesRequest_txEntry dt fe entry) effect rfl rfl ⟨rejected, busy.trans free, rfl⟩

theorem txTable_requested : completes (.calReqTxTable dt fe) s fun t => t.get (Reg.FE_CAL_STATUS.KIND fe) = 5 ∧
    if (s.fe fe).used = 0 then t.flag (Reg.FE_CAL_STATUS.DONE fe) = true ∧ t.flag (Reg.FE_CAL_STATUS.BUSY fe) = false
    else t.flag (Reg.FE_CAL_STATUS.BUSY fe) = true ∧
      (t.fe fe).request = some { kind := 5, entries := List.range (s.fe fe).used } := by
  have effect := calRequest_of_free (s := s.advance dt) (fe := fe) 5 0 free
  by_cases none : (s.fe fe).used = 0
  · have effect := effect.trans (if_pos none)
    obtain ⟨kind, done, busy, clock, queue⟩ := tableDone_shows (s.advance dt) fe
    replace busy := busy.trans free
    generalize (calNote (s.advance dt) fe 5 0).setFlag (Reg.FE_CAL_STATUS.DONE fe) true = r at effect kind done busy clock queue
    refine completes_of_request (writesRequest_txTable dt fe) effect clock queue ⟨kind, ?_⟩
    rw [if_pos none]
    exact ⟨done, busy⟩
  · have effect := effect.trans (if_neg none)
    rw [State.advance_fe] at effect
    obtain ⟨busy, kind, request⟩ := calBegin_shows (s.advance dt) fe 0 (kind := 5) (by decide) (List.range (s.fe fe).used)
    obtain ⟨clock, queue⟩ := onlyFe_clock (calBegin_onlyFe (s.advance dt) fe 0 5 (List.range (s.fe fe).used))
    generalize calBegin (s.advance dt) fe 5 0 (List.range (s.fe fe).used) = r at effect busy kind request clock queue
    refine completes_of_request (writesRequest_txTable dt fe) effect clock queue ⟨kind, ?_⟩
    rw [if_neg none]
    exact ⟨busy, request⟩

theorem dpd_requested : completes (.calReqDpd dt fe) s fun t => if fe = 2 then t.flag (Reg.FE_CAL_STATUS.REJECTED fe) = true
    else t.flag (Reg.FE_CAL_STATUS.BUSY fe) = true ∧ (t.fe fe).request = some { kind := 6, entries := [] } := by
  have effect := calRequest_of_free (s := s.advance dt) (fe := fe) 6 0 free
  by_cases two : fe = 2
  · have effect := effect.trans (if_pos (congrArg Fin.val two))
    obtain ⟨rejected, -⟩ := calReject_shows (s.advance dt) fe 6 0
    obtain ⟨clock, queue, -⟩ := onlyRegs_frame (calReject_onlyRegs (s.advance dt) fe 6 0)
    generalize calReject (s.advance dt) fe 6 0 = r at effect rejected clock queue
    refine completes_of_request (writesRequest_dpd dt fe) effect clock queue ?_
    rw [if_pos two]
    exact rejected
  · have effect := effect.trans (if_neg fun v => two (Fin.ext v))
    obtain ⟨busy, request, only⟩ := calDpd_shows (s.advance dt) fe
    obtain ⟨clock, queue⟩ := onlyFe_clock only
    generalize calDpd (s.advance dt) fe = r at effect busy request clock queue
    refine completes_of_request (writesRequest_dpd dt fe) effect clock queue ?_
    rw [if_neg two]
    exact ⟨busy, request⟩

end Requests

/-! A request as it ends (R140). -/

/-- A request has ended, and whether it failed. -/
def requestEnded (s : State) (fe : Nat) (failed : Bool) : State :=
  State.onlyIf (((s.setFe fe { s.fe fe with request := none }).setFlag (Reg.FE_CAL_STATUS.BUSY fe) false).setFlag
    (Reg.FE_CAL_STATUS.DONE fe) true) failed fun s => s.setFlag (Reg.FE_CAL_STATUS.FAIL fe) true

/-- The fields that the end of a request writes. -/
def endFields (fe : Nat) : List Fld := [Reg.FE_CAL_STATUS.BUSY fe, Reg.FE_CAL_STATUS.DONE fe, Reg.FE_CAL_STATUS.FAIL fe]

section Ended
variable (s : State) (fe : Fin 3) (failed : Bool)

theorem requestEnded_onlyFe : onlyFe s (requestEnded s fe failed) fe (endFields fe) := by
  refine State.onlyIf_keeps (P := fun t => onlyFe s t fe (endFields fe)) _ _ _ ?_ fun h =>
    onlyFe_trans h (State.setFlag_onlyFe _ (by simp [endFields]) true fe)
  exact onlyFe_trans (onlyFe_trans (State.setFe_onlyFe ..) (State.setFlag_onlyFe _ (by simp [endFields]) false fe))
    (State.setFlag_onlyFe _ (by simp [endFields]) true fe)

theorem requestEnded_shows : (requestEnded s fe failed).flag (Reg.FE_CAL_STATUS.BUSY fe) = false ∧
    (requestEnded s fe failed).flag (Reg.FE_CAL_STATUS.DONE fe) = true ∧ ((requestEnded s fe failed).fe fe).request = none := by
  have apart : ∀ fe : Fin 3, (Reg.FE_CAL_STATUS.BUSY fe).key ≠ (Reg.FE_CAL_STATUS.DONE fe).key ∧
      (Reg.FE_CAL_STATUS.BUSY fe).key ≠ (Reg.FE_CAL_STATUS.FAIL fe).key ∧
        (Reg.FE_CAL_STATUS.DONE fe).key ≠ (Reg.FE_CAL_STATUS.FAIL fe).key := by decide
  obtain ⟨busyDone, busyFail, doneFail⟩ := apart fe
  refine State.onlyIf_keeps (P := fun t => t.flag (Reg.FE_CAL_STATUS.BUSY fe) = false ∧
    t.flag (Reg.FE_CAL_STATUS.DONE fe) = true ∧ (t.fe fe).request = none) _ _ _ ?_ fun ⟨busy, done, request⟩ => ?_
  · refine ⟨(State.flag_setFlag_other _ _ _ _ busyDone).trans (State.flag_setFlag_self ..), State.flag_setFlag_self .., ?_⟩
    rw [State.setFlag_fe, State.setFlag_fe, State.fe_setFe_self]
  · exact ⟨(State.flag_setFlag_other _ _ _ _ busyFail).trans busy, (State.flag_setFlag_other _ _ _ _ doneFail).trans done, request⟩

theorem requestEnded_failed : (requestEnded s fe true).flag (Reg.FE_CAL_STATUS.FAIL fe) = true := State.flag_setFlag_self ..

end Ended

/-! What a calibration that fails reports (R141). -/

theorem bits_at'_calKind (fe kind phase index : Nat) (h : kind < 16) :
    bits ((at' fe 2 46 + at' kind 4 42 + at' phase 1 41 + at' index 16 0) % 2 ^ 48) 45 42 = kind := by
  unfold bits at'
  omega

theorem calFail_reports (s : State) (fe index : Nat) {kind : Nat} (h : kind < 16) :
    reports s (calFail s fe kind index) Ev.CAL_FAIL fun arg => bits arg 45 42 = kind :=
  State.event_reports s _ _ _ (bits_at'_calKind _ _ _ _ h)

theorem feOut_onlyFe (s : State) (fe : Fin 3) :
    onlyFe s (feOut s fe) fe [Reg.FE_STATUS.RX_IN_SERVICE fe, Reg.FE_STATUS.TX_IN_SERVICE fe] :=
  onlyFe_trans (State.setFlag_onlyFe s (by simp) false fe) (State.setFlag_onlyFe _ (by simp) false fe)

theorem feOut_rx (s : State) (fe : Fin 3) : (feOut s fe).flag (Reg.FE_STATUS.RX_IN_SERVICE fe) = false := by
  have apart : ∀ fe : Fin 3, (Reg.FE_STATUS.RX_IN_SERVICE fe).key ≠ (Reg.FE_STATUS.TX_IN_SERVICE fe).key := by decide
  exact (State.flag_setFlag_other _ _ _ _ (apart fe)).trans (State.flag_setFlag_self ..)

theorem dpdFail_onlyFe (s : State) (fe : Fin 3) : onlyFe s (dpdFail s fe) fe [Reg.FE_TX_CTRL.MAX_CARRIERS fe] :=
  onlyFe_trans (State.setFe_onlyFe ..) (State.set_onlyFe _ (List.mem_singleton_self _) 1 fe)

theorem dpdFail_carriers (s : State) (fe : Nat) : (dpdFail s fe).get (Reg.FE_TX_CTRL.MAX_CARRIERS fe) = 1 :=
  State.get_set_of_lt _ _ (show 1 < 2 ^ (Reg.FE_TX_CTRL.MAX_CARRIERS 0).width by decide)

/-! The ends of each kind (R118, R139, R140). -/

section Service
variable (s : State) (fe : Fin 3)

/-- The receiver is back in service. -/
def rxBack (s : State) (fe : Nat) : State := s.resuming fe fun s => s.setFlag (Reg.FE_STATUS.RX_IN_SERVICE fe) true

theorem rxBack_onlyFe : onlyFe s (rxBack s fe) fe [Reg.FE_STATUS.RX_IN_SERVICE fe] :=
  resuming_onlyFe (State.setFlag_onlyFe s (List.mem_singleton_self _) true fe)

theorem rxBack_rx : (rxBack s fe).flag (Reg.FE_STATUS.RX_IN_SERVICE fe) = true :=
  (resuming_flag s fe (fun s => s.setFlag (Reg.FE_STATUS.RX_IN_SERVICE fe) true) _).trans (State.flag_setFlag_self ..)

variable (failed : Bool)

/-- The end of a request leaves the receiver's service and the limit on the carriers as they were. -/
theorem requestEnded_kept :
    (requestEnded s fe failed).flag (Reg.FE_STATUS.RX_IN_SERVICE fe) = s.flag (Reg.FE_STATUS.RX_IN_SERVICE fe) ∧
      (requestEnded s fe failed).get (Reg.FE_TX_CTRL.MAX_CARRIERS fe) = s.get (Reg.FE_TX_CTRL.MAX_CARRIERS fe) := by
  have apart : ∀ fe : Fin 3, ∀ f ∈ endFields fe, (Reg.FE_STATUS.RX_IN_SERVICE fe).key ≠ f.key ∧
      (Reg.FE_TX_CTRL.MAX_CARRIERS fe).key ≠ f.key := by decide
  have only := requestEnded_onlyFe s fe failed
  refine ⟨?_, onlyFe_get only fun f hf => (apart fe f hf).2⟩
  rw [State.flag, State.flag, onlyFe_get only fun f hf => (apart fe f hf).1]

end Service

/-- What the end of a requested calibration does. -/
def calEnds (s : State) (fe : Fin 3) (ok : Bool) (r : CalRequest) : State :=
  if r.kind = 4 ∨ r.kind = 5 then
    if r.entries.isEmpty then requestEnded s fe r.failed else s
  else if r.kind = 6 then
    s.onlyIf (!ok || decide (0 < (s.fe fe).dpdUs)) fun s =>
      requestEnded (s.onlyIf (!ok) fun s => dpdFail (calFail s fe 5 0) fe) fe (!ok)
  else requestEnded (if ok then rxBack s fe else feOut (calFail s fe r.kind 0) fe) fe (!ok)

/-- The end of a requested calibration completes with its effect. -/
theorem reqCalDone_completes {s t : State} {dt : Nat} {fe : Fin 3} {ok : Bool} {r : CalRequest} {post : State → Prop}
    (asked : (s.fe fe).request = some r) (effect : calEnds (s.advance dt) fe ok r = t) (clock : t.tick = s.tick + dt)
    (queue : t.pending = s.pending) (hp : post t) : completes (.reqCalDone dt fe ok) s post := by
  refine completes_of_effect (dt := dt) (by unfold exec execReqCalDone; rfl) ?_ clock queue hp
  rw [show ((s.advance dt).fe fe).request = some r from asked]
  exact effect

section Receive
variable {s : State} {fe : Fin 3} {r : CalRequest} (dt : Nat) (asked : (s.fe fe).request = some r)
  (receive : r.kind = 1 ∨ r.kind = 2 ∨ r.kind = 3)
include receive

theorem calEnds_receive (ok : Bool) : calEnds s fe ok r =
    requestEnded (if ok then rxBack s fe else feOut (calFail s fe r.kind 0) fe) fe (!ok) :=
  (if_neg (by omega)).trans (if_neg (by omega))

include asked

theorem receive_succeeds : completes (.reqCalDone dt fe true) s fun t => t.flag (Reg.FE_STATUS.RX_IN_SERVICE fe) = true ∧
    t.flag (Reg.FE_CAL_STATUS.BUSY fe) = false ∧ t.flag (Reg.FE_CAL_STATUS.DONE fe) = true ∧ (t.fe fe).request = none := by
  obtain ⟨busy, done, request⟩ := requestEnded_shows (rxBack (s.advance dt) fe) fe false
  obtain ⟨clock, queue⟩ := onlyFe_clock (rxBack_onlyFe (s.advance dt) fe)
  obtain ⟨clockE, queueE⟩ := onlyFe_clock (requestEnded_onlyFe (rxBack (s.advance dt) fe) fe false)
  exact reqCalDone_completes asked (calEnds_receive receive true) (clockE.trans clock) (queueE.trans queue)
    ⟨(requestEnded_kept ..).1.trans (rxBack_rx ..), busy, done, request⟩

theorem receive_fails : completes (.reqCalDone dt fe false) s fun t => t.flag (Reg.FE_CAL_STATUS.FAIL fe) = true ∧
    t.flag (Reg.FE_STATUS.RX_IN_SERVICE fe) = false ∧
      reports (s.advance dt) t Ev.CAL_FAIL fun arg => bits arg 45 42 = r.kind := by
  obtain ⟨-, clock, queue⟩ := calFail_frame (s.advance dt) fe r.kind 0
  have kept : recordKept Ev.CAL_FAIL (calFail (s.advance dt) fe r.kind 0)
      (requestEnded (feOut (calFail (s.advance dt) fe r.kind 0) fe) fe true) :=
    (recordKept.of_onlyFe (feOut_onlyFe _ fe)).trans (.of_onlyFe (requestEnded_onlyFe _ fe true))
  exact reqCalDone_completes asked (calEnds_receive receive false) (kept.clock.1.trans clock) (kept.clock.2.trans queue)
    ⟨requestEnded_failed .., (requestEnded_kept ..).1.trans (feOut_rx ..),
      kept.reports (calFail_reports (s.advance dt) fe 0 (by omega))⟩

end Receive

section Entries
variable {s : State} {dt : Nat} {fe : Fin 3} {r : CalRequest} (asked : (s.fe fe).request = some r)
include asked

theorem entries_end (kind : r.kind = 4 ∨ r.kind = 5) (ok : Bool) : completes (.reqCalDone dt fe ok) s fun t =>
    if r.entries = [] then t.flag (Reg.FE_CAL_STATUS.BUSY fe) = false ∧ t.flag (Reg.FE_CAL_STATUS.DONE fe) = true ∧
      (t.fe fe).request = none ∧ (r.failed = true → t.flag (Reg.FE_CAL_STATUS.FAIL fe) = true) else t = s.advance dt := by
  by_cases none : r.entries = []
  · have effect : calEnds (s.advance dt) fe ok r = requestEnded (s.advance dt) fe r.failed :=
      (if_pos kind).trans (if_pos (List.isEmpty_iff.2 none))
    obtain ⟨busy, done, request⟩ := requestEnded_shows (s.advance dt) fe r.failed
    obtain ⟨clock, queue⟩ := onlyFe_clock (requestEnded_onlyFe (s.advance dt) fe r.failed)
    refine reqCalDone_completes asked effect clock queue ?_
    rw [if_pos none]
    refine ⟨busy, done, request, fun failed => ?_⟩
    rw [failed]
    exact requestEnded_failed ..
  · have effect : calEnds (s.advance dt) fe ok r = s.advance dt :=
      (if_pos kind).trans (if_neg (mt List.isEmpty_iff.1 none))
    refine reqCalDone_completes asked effect rfl rfl ?_
    rw [if_neg none]

variable (kind : r.kind = 6)

omit asked in
include kind in
theorem calEnds_dpd (ok : Bool) : calEnds s fe ok r = s.onlyIf (!ok || decide (0 < (s.fe fe).dpdUs)) fun s =>
    requestEnded (s.onlyIf (!ok) fun s => dpdFail (calFail s fe 5 0) fe) fe (!ok) :=
  (if_neg (by omega)).trans (if_pos kind)

include kind

theorem dpd_succeeds (rebuilt : 0 < (s.fe fe).dpdUs) : completes (.reqCalDone dt fe true) s fun t =>
    t.flag (Reg.FE_CAL_STATUS.BUSY fe) = false ∧ t.flag (Reg.FE_CAL_STATUS.DONE fe) = true ∧ (t.fe fe).request = none := by
  obtain ⟨clock, queue⟩ := onlyFe_clock (requestEnded_onlyFe (s.advance dt) fe false)
  exact reqCalDone_completes asked ((calEnds_dpd kind true).trans (State.onlyIf_of (decide_eq_true rebuilt) rfl)) clock queue
    (requestEnded_shows (s.advance dt) fe false)

theorem dpd_waits (unbuilt : (s.fe fe).dpdUs = 0) : completes (.reqCalDone dt fe true) s fun t => t = s.advance dt := by
  refine reqCalDone_completes (t := s.advance dt) asked ((calEnds_dpd kind true).trans ?_) rfl rfl rfl
  rw [State.advance_fe, unbuilt]
  rfl

theorem dpd_fails : completes (.reqCalDone dt fe false) s fun t => t.flag (Reg.FE_CAL_STATUS.FAIL fe) = true ∧
    (t.fe fe).request = none ∧ t.get (Reg.FE_TX_CTRL.MAX_CARRIERS fe) = 1 ∧
      reports (s.advance dt) t Ev.CAL_FAIL fun arg => bits arg 45 42 = 5 := by
  obtain ⟨-, clock, queue⟩ := calFail_frame (s.advance dt) fe 5 0
  obtain ⟨-, -, request⟩ := requestEnded_shows (dpdFail (calFail (s.advance dt) fe 5 0) fe) fe true
  have kept : recordKept Ev.CAL_FAIL (calFail (s.advance dt) fe 5 0)
      (requestEnded (dpdFail (calFail (s.advance dt) fe 5 0) fe) fe true) :=
    (recordKept.of_onlyFe (dpdFail_onlyFe _ fe)).trans (.of_onlyFe (requestEnded_onlyFe _ fe true))
  exact reqCalDone_completes asked ((calEnds_dpd kind false).trans (State.onlyIf_of rfl rfl)) (kept.clock.1.trans clock)
    (kept.clock.2.trans queue) ⟨requestEnded_failed .., request, (requestEnded_kept ..).2.trans (dpdFail_carriers ..),
      kept.reports (calFail_reports (s.advance dt) fe 0 (by decide))⟩

end Entries

/-! The statement. -/

/-- Settles O26: a request is what its kind does to a front end with BUSY clear, and its end what its kind leaves. -/
theorem calibrationRequests : Obligations.CalibrationRequests := by
  intro s dt fe entry c kind command
  obtain ⟨writes, receive⟩ := writesRequest_receive command
  refine ⟨fun free => ⟨receive_requested free writes receive, txEntry_requested free, txEntry_rejected free,
    txTable_requested free, dpd_requested free⟩, fun asked => ⟨receive_succeeds dt asked receive, receive_fails dt asked receive⟩,
    fun _ asked kind ok => entries_end asked kind ok, fun _ asked kind => ⟨dpd_succeeds asked kind, dpd_waits asked kind,
      dpd_fails asked kind⟩, fun busy c' requested => ?_⟩
  simp only [List.mem_cons, List.not_mem_nil, or_false] at requested
  rcases requested with rfl | rfl | rfl | rfl
  · exact request_ignored writes busy
  · exact request_ignored (writesRequest_txEntry dt fe entry) busy
  · exact request_ignored (writesRequest_txTable dt fe) busy
  · exact request_ignored (writesRequest_dpd dt fe) busy


end Sys2Proof.Machine
end

section
/-!
SUPPORT. Octets put in place of others in LP4X. Then how a capture context closes and is taken (R217, R223, R225), and what the end of
a canceller's layer does (R226, R227).
-/

namespace Sys2Proof.Machine

/-! Octets that stand in place of others. -/

section Replace
variable {α : Type}

theorem Cells.get_absent (m : List (Nat × α)) {k : Nat} (d : α) (absent : ∀ e ∈ m, e.1 ≠ k) : Cells.get m k d = d := by
  induction m with
  | nil => rfl
  | cons e m ih =>
    obtain ⟨here, rest⟩ := List.forall_mem_cons.1 absent
    rw [Cells.get, if_neg here, ih rest]

theorem Cells.get_append_left (m l : List (Nat × α)) {k : Nat} (d : α) (absent : ∀ e ∈ l, e.1 ≠ k) :
    Cells.get (m ++ l) k d = Cells.get m k d := by
  induction m with
  | nil => exact Cells.get_absent l d absent
  | cons e m ih => rw [List.cons_append, Cells.get, Cells.get, ih]

theorem Cells.get_append_right (m l : List (Nat × α)) {k : Nat} (d : α) (absent : ∀ e ∈ m, e.1 ≠ k) :
    Cells.get (m ++ l) k d = Cells.get l k d := by
  induction m with
  | nil => rfl
  | cons e m ih =>
    obtain ⟨here, rest⟩ := List.forall_mem_cons.1 absent
    rw [List.cons_append, Cells.get, if_neg here, ih rest]

variable [DecidableEq α]

/-- The entries that stand for values put at the addresses from `k` on. -/
def Cells.placed (vs : List α) (k : Nat) (d : α) : List (Nat × α) :=
  ((vs.zipIdx k).filter fun e => decide (e.1 ≠ d)).map fun e => (e.2, e.1)

theorem Cells.placed_cons (v : α) (vs : List α) (k : Nat) (d : α) :
    Cells.placed (v :: vs) k d = if v = d then Cells.placed vs (k + 1) d else (k, v) :: Cells.placed vs (k + 1) d := by
  unfold Cells.placed
  rw [List.zipIdx_cons, List.filter_cons]
  by_cases h : v = d <;> simp [h]

theorem Cells.placed_range {vs : List α} {k : Nat} {d : α} {e : Nat × α} (h : e ∈ Cells.placed vs k d) :
    k ≤ e.1 ∧ e.1 < k + vs.length := by
  obtain ⟨x, mem, rfl⟩ := List.mem_map.1 h
  have mem := List.mem_of_mem_filter mem
  exact ⟨List.le_snd_of_mem_zipIdx mem, by simpa [Nat.add_comm] using List.snd_lt_add_of_mem_zipIdx mem⟩

theorem Cells.get_placed (vs : List α) (k : Nat) (d : α) {i : Nat} (h : i < vs.length) :
    Cells.get (Cells.placed vs k d) (k + i) d = vs[i] := by
  induction vs generalizing k i with
  | nil => exact absurd h (by simp)
  | cons v vs ih =>
    rw [Cells.placed_cons]
    cases i with
    | zero =>
      split
      · next isDefault =>
        rw [Cells.get_absent _ _ fun e he => by have := Cells.placed_range he; omega]
        exact isDefault.symm
      · simp [Cells.get]
    | succ i =>
      have later := ih (k + 1) (Nat.lt_of_succ_lt_succ h)
      rw [Nat.add_right_comm, Nat.add_assoc] at later
      split
      · exact later
      · rw [Cells.get, if_neg (by omega)]
        exact later

variable (m : List (Nat × α)) (k : Nat) (vs : List α) (d : α)

theorem Cells.get_replace_self {i : Nat} (h : i < vs.length) : Cells.get (Cells.replace m k vs d) (k + i) d = vs[i] := by
  show Cells.get (_ ++ Cells.placed vs k d ++ _) _ _ = _
  rw [Cells.get_append_left, Cells.get_append_right, Cells.get_placed _ _ _ h]
  · intro e he
    have := of_decide_eq_true (List.mem_filter.1 he).2
    omega
  · intro e he
    have := of_decide_eq_true (List.mem_filter.1 he).2
    omega

theorem Cells.get_replace_other {x : Nat} (h : x < k ∨ k + vs.length ≤ x) :
    Cells.get (Cells.replace m k vs d) x d = Cells.get m x d := by
  show Cells.get ((m.filter fun e => decide (e.1 < k)) ++ Cells.placed vs k d ++
    m.filter fun e => decide (k + vs.length ≤ e.1)) x d = _
  have placed : ∀ e ∈ Cells.placed vs k d, e.1 ≠ x := fun e he => by
    have := Cells.placed_range he
    omega
  rcases h with below | beyond
  · rw [Cells.get_append_left, Cells.get_append_left _ _ _ placed, Cells.get_filter m (fun y => decide (y < k)),
      if_pos (decide_eq_true below)]
    intro e he
    have := of_decide_eq_true (List.mem_filter.1 he).2
    omega
  · rw [Cells.get_append_right, Cells.get_filter m (fun y => decide (k + vs.length ≤ y)), if_pos (decide_eq_true beyond)]
    intro e he
    rcases List.mem_append.1 he with he | he
    · have := of_decide_eq_true (List.mem_filter.1 he).2
      omega
    · exact placed e he

end Replace

theorem readBytes_eq_of_get {m : List Host.Cell} {d : Byte} {a : Nat} {bs : List Byte}
    (h : ∀ i (lt : i < bs.length), Cells.get m (a + i) d = bs[i]) : readBytes m d a bs.length = bs := by
  induction bs generalizing a with
  | nil => rfl
  | cons b bs ih =>
    have first : Cells.get m a d = b := h 0 (Nat.zero_lt_succ _)
    have rest : readBytes m d (a + 1) bs.length = bs := ih fun i lt => by
      have := h (i + 1) (Nat.succ_lt_succ lt)
      rwa [← Nat.add_assoc, Nat.add_right_comm] at this
    rw [List.length_cons, readBytes, first, rest]

section DdrReplace
variable (s : State) (a : Nat) (bs : List Byte)

theorem ddr_ddrReplace_self : (s.ddrReplace a bs).ddr a bs.length = bs :=
  readBytes_eq_of_get fun _ lt => Cells.get_replace_self s.mem.lp4x a bs 0 lt

theorem ddr_ddrReplace_other {x : Nat} (h : x < a ∨ a + bs.length ≤ x) : (s.ddrReplace a bs).ddr x 1 = s.ddr x 1 :=
  congrArg (· :: []) (Cells.get_replace_other s.mem.lp4x a bs 0 h)

end DdrReplace

theorem ddr_congr {s t : State} (h : t.mem = s.mem) (x n : Nat) : t.ddr x n = s.ddr x n := by
  rw [State.ddr, State.ddr, h]

/-! A context and its region (R216, R217, R223, R225). -/

/-- The region of a context takes 256 KiB; what lies elsewhere in LP4X is kept. -/
theorem ddr_ctxScramble_other (s : State) (n : Nat) {x : Nat} (h : x < ctxBase s n ∨ ctxBase s n + 0x40000 ≤ x) :
    (ctxScramble s n).ddr x 1 = s.ddr x 1 :=
  ddr_ddrReplace_other s.drawn _ _ (by simpa only [octetsOf, List.length_map, List.length_range] using h)

/-- The octets of samples, 16-bit I then 16-bit Q (R217). -/
def sampleOctets (l : List (BitVec 16 × BitVec 16)) : List Byte := l.flatMap fun x => leBytes 2 x.1.toNat ++ leBytes 2 x.2.toNat

theorem sampleOctets_length (l : List (BitVec 16 × BitVec 16)) : (sampleOctets l).length = 4 * l.length := by
  simp [sampleOctets, List.length_flatMap, leBytes_length, Nat.mul_comm]

section Samples
variable (s : State) (n : Nat) (l : List (BitVec 16 × BitVec 16))

theorem ddr_ctxSamples_self : (ctxSamples s n l).ddr (ctxBase s n + 0x100) (4 * l.length) = sampleOctets l := by
  rw [← sampleOctets_length]
  exact ddr_ddrReplace_self s _ (sampleOctets l)

theorem ddr_ctxSamples_other {x : Nat} (h : x < ctxBase s n + 0x100 ∨ ctxBase s n + 0x100 + 4 * l.length ≤ x) :
    (ctxSamples s n l).ddr x 1 = s.ddr x 1 := by
  rw [← sampleOctets_length] at h
  exact ddr_ddrReplace_other s _ (sampleOctets l) h

end Samples

/-- What a context that closes becomes (R223). -/
def closedCtx (s : State) (c : Context) : Context :=
  { c with stage := .queued, armed := [], endNs := min (antennaNs s c.fe) (c.startNs + 64000000) }

/-- The state after context `n` has closed: it stands last among those that wait. -/
def ctxClosed (s : State) (n : Nat) : State :=
  let t := setCtx s n (closedCtx s (ctxAt s n))
  { t with ox := { t.ox with queue := t.ox.queue ++ [n] } }

theorem closeCtx_of_recording {s : State} {n : Nat} (h : (ctxAt s n).stage = .recording) : closeCtx s n = ctxClosed s n := if_pos h

theorem ctxAt_ctxClosed_self (s : State) (n : Nat) : ctxAt (ctxClosed s n) n = closedCtx s (ctxAt s n) :=
  ctxAt_setCtx_self s n (closedCtx s (ctxAt s n))

theorem ctxAt_ctxClosed_other (s : State) {n m : Nat} (h : m ≠ n) : ctxAt (ctxClosed s n) m = ctxAt s m :=
  ctxAt_setCtx_other s (closedCtx s (ctxAt s n)) h

theorem recording_of_due {s : State} {n : Nat} (h : ctxDue s n = true) : (ctxAt s n).stage = .recording :=
  of_decide_eq_true (Bool.and_eq_true_iff.1 h).1

section Commands
variable {s : State} (dt : Nat)

theorem contextClose_waits {k : Fin 32} (h : ctxDue (s.advance dt) k = false) (samples : List (BitVec 16 × BitVec 16)) :
    completes (.contextClose dt k samples) s fun t => t = s.advance dt :=
  completes_of_whenever_idle (by unfold exec execContextClose; rfl) h

theorem contextClose_closes {k : Fin 32} {c : Context} {samples kept : List (BitVec 16 × BitVec 16)} (place : ctxAt s k = c)
    (keeps : kept = samples.take (ctxCountNow (s.advance dt) c)) (due : ctxDue (s.advance dt) k = true) (x : Nat) :
    completes (.contextClose dt k samples) s fun t => ctxAt t k = closedCtx (s.advance dt) c ∧ t.ox.queue = s.ox.queue ++ [k.val] ∧
      (∀ i, i ≠ k.val → ctxAt t i = ctxAt s i) ∧ { t with ox := s.ox, mem := s.mem } = s.advance dt ∧
      t.ddr (ctxBase s k + 0x100) (4 * kept.length) = sampleOctets kept ∧
      (x < ctxBase s k + 0x100 ∨ ctxBase s k + 0x100 + 4 * kept.length ≤ x → t.ddr x 1 = s.ddr x 1) := by
  subst place keeps
  set b := ctxSamples (s.advance dt) k (samples.take (ctxCountNow (s.advance dt) (ctxAt s k))) with hb
  have records : (ctxAt b k).stage = .recording := recording_of_due due
  have closes := closeCtx_of_recording records
  exact completes_of_whenever (r := ctxClosed b k) (by unfold exec execContextClose; rfl) due closes rfl rfl
    ⟨ctxAt_ctxClosed_self b k, rfl, fun i other => ctxAt_ctxClosed_other b other, rfl, ddr_ctxSamples_self (s.advance dt) k _,
      ddr_ctxSamples_other (s.advance dt) k _⟩

/-- The state after a canceller has taken context `n`, with the rest still waiting. -/
def ctxTaken (s : State) (n : Nat) (rest : List Nat) : State :=
  let t := setCtx s n { ctxAt s n with stage := .processing }
  { t with ox := { t.ox with queue := rest } }

theorem ctxAt_ctxTaken_self (s : State) (n : Nat) (rest : List Nat) :
    ctxAt (ctxTaken s n rest) n = { ctxAt s n with stage := .processing } :=
  ctxAt_setCtx_self s n { ctxAt s n with stage := .processing }

theorem cancellerTake_takes {n : Nat} {rest : List Nat} (free : ctxCount s .processing < 8) (queue : s.ox.queue = n :: rest) :
    completes (.cancellerTake dt) s fun t =>
      ctxAt t n = { ctxAt s n with stage := .processing } ∧ t.ox.queue = rest ∧ { t with ox := s.ox } = s.advance dt := by
  refine completes_of_whenever (r := ctxTaken (s.advance dt) n rest) (by unfold exec execCancellerTake; rfl) (decide_eq_true free)
    ?_ rfl rfl ⟨ctxAt_ctxTaken_self .., rfl, rfl⟩
  rw [show (s.advance dt).ox.queue = n :: rest from queue]
  rfl

end Commands

/-! A layer of a canceller (R226, R227). -/

/-- A context in its next layer. -/
def nextLayer (c : Context) : Context := { c with layer := c.layer + 1 }

/-- A context whose layer has run: the next one follows unless LAYER_MAX have run. -/
def afterLayer (c : Context) : Context := if c.layer < c.layerMax then c else {}

/-- The frame of a lane that a layer takes for its reference: only the first layer has one. -/
def layerReference (s : State) (c : Context) : Option Heard := if c.layer = 1 then laneReference s c else none

theorem layerReference_first (s : State) {c : Context} (first : c.layer = 0) : layerReference s (nextLayer c) = laneReference s c :=
  if_pos (congrArg (· + 1) first)

theorem layerReference_none {s : State} {c : Context} (h : c.layer ≠ 0 ∨ laneReference s c = none) :
    layerReference s (nextLayer c) = none := by
  by_cases first : c.layer = 0
  · rw [layerReference_first s first]
    exact h.resolve_left (not_not_intro first)
  · exact if_neg fun one => first (Nat.succ_injective one)

/-- A layer met an uncorrectable word: its context is given up. -/
def layerAborted (s : State) (n : Nat) : State := freeCtx ((s.drawn.ddrUncorr s.free).count Ctr.CAP_ABORT) n

/-- What a layer of context `n` ends with. -/
def layerEnded (s : State) (n : Nat) (c : Context) : LayerIn → Option Heard → State
  | .uncorrectable, _ => layerAborted s n
  | _, some h => if isFD h.mode then layerRan s n c else freeCtx s n
  | .nothing, none => freeCtx s n
  | .found f, none => if layerFits s c f (f.m.syncAt - preambleNs f.mode) then layerDecode s n c f else freeCtx s n

theorem execCancelLayerDone_eq (dt : Nat) (k : Fin 32) (e : LayerIn) (s : State) : exec (.cancelLayerDone dt k e) s =
    whenever dt s (fun s => decide ((ctxAt s k).stage = .processing)) fun s =>
      layerEnded s k (nextLayer (ctxAt s k)) e (layerReference s (nextLayer (ctxAt s k))) := by
  unfold exec execCancelLayerDone
  cases e <;> rfl

section Ran
variable (s : State) (n : Nat) (c : Context)

theorem layerRan_eq : layerRan s n c = setCtx (ctxScramble s n) n (afterLayer c) := by
  unfold layerRan afterLayer freeCtx
  dsimp only
  split <;> rfl

theorem ctxAt_layerRan : ctxAt (layerRan s n c) n = afterLayer c := by rw [layerRan_eq, ctxAt_setCtx_self]

theorem layerRan_frame : (layerRan s n c).tick = s.tick ∧ (layerRan s n c).pending = s.pending ∧ (layerRan s n c).up = s.up := by
  rw [layerRan_eq]
  exact ⟨rfl, rfl, rfl⟩

theorem ddr_layerRan_other {x : Nat} (h : x < ctxBase s n ∨ ctxBase s n + 0x40000 ≤ x) : (layerRan s n c).ddr x 1 = s.ddr x 1 := by
  rw [layerRan_eq]
  exact ddr_ctxScramble_other s n h

end Ran

/-- A detection in a residual lies on the bin of its context. -/
theorem layerJob_place {s : State} {c : Context} {f : LayerFrame} {j : DecodeJob} (job : layerJob s c f = some j) :
    j.fe = c.fe ∧ j.bin = c.bin := by
  unfold layerJob at job
  dsimp only at job
  split at job
  · exact absurd job (by simp)
  · obtain ⟨h, -, rfl⟩ := Option.map_eq_some_iff.1 job
    exact ⟨rfl, rfl⟩

section Decode
variable {s : State} {n : Nat} {c : Context} {f : LayerFrame} {j : DecodeJob} {r : Nat × Option (List Byte)} {o : List Byte}
  (job : layerJob s c f = some j)
  (decoded : r = decodeAll (iterCap s) (alphaActs (s.get Reg.OX_DEC_CTRL.ALPHA)) s.free (codewords j.len j.z) j f.soft)
include job decoded

theorem layerDecode_fails (none : r.2 = none) : layerDecode s n c f = freeCtx ((peakIter s.drawn r.1).count Ctr.LAYER_FAIL) n := by
  unfold layerDecode
  simp only [job, ← decoded, none]

theorem layerDecode_known (octets : r.2 = some o) (crc : psduCrcOk (whitened o) = true) (passed : alreadyPassed s j = true) :
    layerDecode s n c f = layerRan (peakIter s.drawn r.1) n c := by
  have passed : alreadyPassed (peakIter s.drawn r.1) j = true := passed
  unfold layerDecode
  simp only [job, ← decoded, octets, crc, passed, Bool.not_true, Bool.false_eq_true, if_false, if_true]

theorem layerDecode_new (octets : r.2 = some o) (crc : psduCrcOk (whitened o) = true) (passed : alreadyPassed s j = false) :
    layerDecode s n c f =
      layerRan (enterUp (peakIter s.drawn r.1) none true j (whitened o)) n { c with recovered := c.recovered + 1 } := by
  have passed : alreadyPassed (peakIter s.drawn r.1) j = false := passed
  unfold layerDecode
  simp only [job, ← decoded, octets, crc, passed, Bool.not_true, Bool.false_eq_true, if_false]

end Decode

theorem State.flag_congr {s t : State} (h : t.fields = s.fields) (g : Fld) : t.flag g = s.flag g := by
  rw [State.flag, State.get_congr h, State.flag]

theorem State.ddrUncorr_flag (s : State) (x : Nat) : (s.ddrUncorr x).flag Reg.DDRC_ECC.UNCORR = true := by
  rw [State.ddrUncorr, State.flag_setFlag_other _ _ _ _ (by decide), State.flag_set_other _ _ _ _ (by decide),
    State.flag_setFlag_self]

theorem layerAborted_uncorr (s : State) (n : Nat) : (layerAborted s n).flag Reg.DDRC_ECC.UNCORR = true := by
  have fields : (layerAborted s n).fields = (s.drawn.ddrUncorr s.free).fields := rfl
  rw [State.flag_congr fields, State.ddrUncorr_flag]

section Layer
variable {s : State} {dt : Nat} {k : Fin 32} {c : Context} (place : ctxAt s k = c) (works : c.stage = .processing)
include place works

theorem cancelLayerDone_completes {r : State} {e : LayerIn} {post : State → Prop}
    (effect : layerEnded (s.advance dt) k (nextLayer c) e (layerReference s (nextLayer c)) = r) (clock : r.tick = s.tick + dt)
    (queue : r.pending = s.pending) (hp : post r) : completes (.cancelLayerDone dt k e) s post := by
  subst place
  exact completes_of_whenever (execCancelLayerDone_eq dt k e s) (decide_eq_true works) effect clock queue hp

theorem cancelLayerDone_aborts : completes (.cancelLayerDone dt k .uncorrectable) s fun t => ctxAt t k = {} ∧
    countedOnce s t Ctr.CAP_ABORT ∧ t.flag Reg.DDRC_ECC.UNCORR = true ∧ t.mem = s.mem :=
  cancelLayerDone_completes place works (r := layerAborted (s.advance dt) k) rfl rfl rfl
    ⟨ctxAt_setCtx_self .., rfl, layerAborted_uncorr .., rfl⟩

theorem cancelLayerDone_reference {h : Heard} (first : c.layer = 0) (reference : laneReference s c = some h)
    (fd : isFD h.mode = true) (x : Nat) : completes (.cancelLayerDone dt k .nothing) s fun t =>
      ctxAt t k = afterLayer (nextLayer c) ∧ t.up = s.up ∧ (x < ctxBase s k ∨ ctxBase s k + 0x40000 ≤ x → t.ddr x 1 = s.ddr x 1) := by
  obtain ⟨clock, queue, up⟩ := layerRan_frame (s.advance dt) k (nextLayer c)
  refine cancelLayerDone_completes place works (r := layerRan (s.advance dt) k (nextLayer c)) ?_ clock queue
    ⟨ctxAt_layerRan .., up, ddr_layerRan_other (s.advance dt) k _⟩
  rw [layerReference_first s first, reference]
  exact if_pos fd

section Residual
variable (residual : c.layer ≠ 0 ∨ laneReference s c = none)
include residual

theorem cancelLayerDone_nothing : completes (.cancelLayerDone dt k .nothing) s fun t => ctxAt t k = {} ∧
    { t with ox := s.ox } = s.advance dt := by
  refine cancelLayerDone_completes place works (r := freeCtx (s.advance dt) k) ?_ rfl rfl ⟨ctxAt_setCtx_self .., rfl⟩
  rw [layerReference_none residual]
  rfl

variable {f : LayerFrame}

theorem cancelLayerDone_unfit (unfit : layerFits s c f (f.m.syncAt - preambleNs f.mode) = false) :
    completes (.cancelLayerDone dt k (.found f)) s fun t => ctxAt t k = {} ∧ { t with ox := s.ox } = s.advance dt := by
  refine cancelLayerDone_completes place works (r := freeCtx (s.advance dt) k) ?_ rfl rfl ⟨ctxAt_setCtx_self .., rfl⟩
  rw [layerReference_none residual]
  exact if_neg (Bool.eq_false_iff.1 unfit)

variable {j : DecodeJob} {r : Nat × Option (List Byte)} {o : List Byte}
  (fits : layerFits s c f (f.m.syncAt - preambleNs f.mode) = true)
include fits

theorem cancelLayerDone_found {t : State} {post : State → Prop} (effect : layerDecode (s.advance dt) k (nextLayer c) f = t)
    (clock : t.tick = s.tick + dt) (queue : t.pending = s.pending) (hp : post t) :
    completes (.cancelLayerDone dt k (.found f)) s post := by
  refine cancelLayerDone_completes place works ?_ clock queue hp
  rw [layerReference_none residual, ← effect]
  exact if_pos fits

variable (job : layerJob s c f = some j)
  (decoded : r = decodeAll (iterCap s) (alphaActs (s.get Reg.OX_DEC_CTRL.ALPHA)) s.free (codewords j.len j.z) j f.soft)
include job decoded

theorem cancelLayerDone_fails (none : r.2 = none) : completes (.cancelLayerDone dt k (.found f)) s fun t =>
    ctxAt t k = {} ∧ countedOnce s t Ctr.LAYER_FAIL ∧ t.up = s.up ∧ t.mem = s.mem :=
  cancelLayerDone_found place works residual fits
    (layerDecode_fails (s := s.advance dt) (c := nextLayer c) job decoded none) rfl rfl ⟨ctxAt_setCtx_self .., rfl, rfl, rfl⟩

theorem cancelLayerDone_known (octets : r.2 = some o) (crc : psduCrcOk (whitened o) = true) (passed : alreadyPassed s j = true) :
    completes (.cancelLayerDone dt k (.found f)) s fun t => ctxAt t k = afterLayer (nextLayer c) ∧ t.up = s.up := by
  obtain ⟨clock, queue, up⟩ := layerRan_frame (peakIter (s.advance dt).drawn r.1) k (nextLayer c)
  exact cancelLayerDone_found place works residual fits
    (layerDecode_known (s := s.advance dt) (c := nextLayer c) job decoded octets crc passed) clock queue ⟨ctxAt_layerRan .., up⟩

theorem cancelLayerDone_new (octets : r.2 = some o) (crc : psduCrcOk (whitened o) = true) (passed : alreadyPassed s j = false) :
    completes (.cancelLayerDone dt k (.found f)) s fun t =>
      ctxAt t k = afterLayer { nextLayer c with recovered := c.recovered + 1 } ∧
        ∃ u, t.up = s.up ++ [u] ∧ u.recovered = true ∧ u.fe = c.fe ∧ u.bin = c.bin ∧ u.lane = none ∧ u.stage = .fetch ∧
          u.frame = frameOf ((whitened o).take ((whitened o).length - if j.fcs2 then 2 else 4)) := by
  obtain ⟨fe, bin⟩ := layerJob_place job
  obtain ⟨clock, queue, up⟩ := layerRan_frame (enterUp (peakIter (s.advance dt).drawn r.1) none true j (whitened o)) k
    { nextLayer c with recovered := c.recovered + 1 }
  exact cancelLayerDone_found place works residual fits
    (layerDecode_new (s := s.advance dt) (c := nextLayer c) job decoded octets crc passed) clock queue
    ⟨ctxAt_layerRan .., _, up, rfl, fe, bin, rfl, rfl, rfl⟩

end Residual
end Layer

end Sys2Proof.Machine
end

section
/-!
SUPPORT. A change of the hearing mode, and a sample of occupancy (R170 to R173). Then the statement about the hearing modes and the
canceller.
-/

namespace Sys2Proof.Machine

/-! A change of the hearing mode (R168, R174, R236). -/

theorem onlyHearing.kept {a t : State} (h : onlyHearing a t) : t.events = a.events ∧ t.mem = a.mem := by
  have events := congrArg State.events h
  have mem := congrArg State.mem h
  exact ⟨events, mem⟩

theorem recoveryOff_onlyHearing (s : State) : onlyHearing s (recoveryOff s) := by
  refine .foldl (fun s n => ?_) _ s
  dsimp only
  split_ifs
  · exact .closeCtx s n
  · exact .setCtx s n _
  · exact .refl s

theorem newSettings_onlyHearing (s : State) (k : State → State) : onlyHearing (k s) (newSettings s k) := by
  unfold newSettings
  dsimp only
  split
  · exact .refl _
  · exact Eq.refl (k s)

/-- What a change of the hearing mode does beyond its own effect is done to the lanes, the decoders and the contexts alone. -/
theorem rehear_onlyHearing (s : State) (k : State → State) : onlyHearing (k s) (rehear s k) := by
  have drained : onlyHearing (newSettings s k) (refreshDrain (newSettings s k)) := Eq.refl (newSettings s k)
  exact State.onlyIf_keeps (P := onlyHearing (k s)) _ _ _ ((newSettings_onlyHearing s k).trans drained) fun h =>
    h.trans (recoveryOff_onlyHearing _)

/-- An event reports that STORM begins or ends, STORM_AUTO shows who began it, and the counts of occupancy start afresh. -/
def stormMoved (s : State) (auto : Bool) (code arg : Nat) : State :=
  (((s.event code Block.CHAN arg).setFlag Reg.CHAN_STATUS.STORM_AUTO auto).set Reg.CHAN_OCC_STATUS.BELOW_MS 0).set
    Reg.CHAN_OCC_STATUS.ABOVE_MS 0

section StormMoved
variable {s b : State} {auto : Bool} {code arg : Nat} (h : onlyHearing (stormMoved s auto code arg) b) (mode : Nat)
include h

theorem stormMoved_shows : (rehear b fun s => s.set Reg.CHAN_STATUS.MODE mode).get Reg.CHAN_STATUS.MODE = mode % 4 ∧
    (rehear b fun s => s.set Reg.CHAN_STATUS.MODE mode).flag Reg.CHAN_STATUS.STORM_AUTO = auto := by
  obtain ⟨-, fields, -⟩ := (rehear_onlyHearing b fun s => s.set Reg.CHAN_STATUS.MODE mode).rest
  obtain ⟨-, moved, -⟩ := h.rest
  constructor
  · rw [State.get_congr fields, State.get_set_self]
    rfl
  · rw [State.flag_congr fields, State.flag_set_other _ _ _ _ (by decide), State.flag_congr moved, stormMoved,
      State.flag_set_other _ _ _ _ (by decide), State.flag_set_other _ _ _ _ (by decide), State.flag_setFlag_self]

theorem stormMoved_frame : (rehear b fun s => s.set Reg.CHAN_STATUS.MODE mode).tick = s.tick ∧
    (rehear b fun s => s.set Reg.CHAN_STATUS.MODE mode).pending = s.pending ∧
      (rehear b fun s => s.set Reg.CHAN_STATUS.MODE mode).mem = s.mem := by
  have heard := rehear_onlyHearing b fun s => s.set Reg.CHAN_STATUS.MODE mode
  obtain ⟨-, -, -, clock, queue⟩ := heard.rest
  obtain ⟨-, -, -, clockB, queueB⟩ := h.rest
  obtain ⟨-, -, -, -, clockE, queueE⟩ := State.event_rest s code Block.CHAN arg
  exact ⟨clock.trans (clockB.trans clockE), queue.trans (queueB.trans queueE),
    heard.kept.2.trans (h.kept.2.trans (State.event_mem ..))⟩

theorem stormMoved_reports {p : Nat → Prop} (shown : p (arg % 2 ^ 48)) :
    reports s (rehear b fun s => s.set Reg.CHAN_STATUS.MODE mode) code p := by
  have heard := rehear_onlyHearing b fun s => s.set Reg.CHAN_STATUS.MODE mode
  obtain ⟨-, -, counters, -⟩ := heard.rest
  obtain ⟨-, -, countersB, -⟩ := h.rest
  have events := heard.kept.1.trans h.kept.1
  exact reports_of_kept (State.event_reports s code Block.CHAN arg shown) (congrArg (Cells.get · code 0) (counters.trans countersB))
    fun _ hr => events ▸ hr

end StormMoved

/-- The argument of STORM_ENTER, and of STORM_EXIT (R176). -/
def stormEnterArg (s : State) (forced : Bool) (pct : Nat) : Nat :=
  at' (s.get Reg.CHAN_HEAR_CTRL.BASE) 2 46 + at' (b2n forced) 1 45 + at' (min pct 255) 8 24
def stormExitArg (s : State) (mode : Nat) : Nat :=
  at' mode 2 46 + at' (min ((s.time.ns - s.hear.stormNs) / 1000000) (2 ^ 32 - 1)) 32 0

theorem stormEnterArg_forced (s : State) (forced : Bool) (pct : Nat) :
    bits (stormEnterArg s forced pct % 2 ^ 48) 45 45 = b2n forced := by
  have : b2n forced < 2 := by cases forced <;> decide
  unfold stormEnterArg bits at'
  omega

theorem stormExitArg_mode (s : State) (mode : Nat) : bits (stormExitArg s mode % 2 ^ 48) 47 46 = mode % 4 := by
  unfold stormExitArg bits at'
  omega

theorem enterStorm_moved (s : State) (forced : Bool) (pct : Nat) :
    ∃ b, onlyHearing (stormMoved s (!forced) Ev.STORM_ENTER (stormEnterArg s forced pct)) b ∧
      enterStorm s forced pct = rehear b fun s => s.set Reg.CHAN_STATUS.MODE modeSTORM := by
  let t := stormMoved s (!forced) Ev.STORM_ENTER (stormEnterArg s forced pct)
  exact ⟨{ t with hear := { t.hear with stormNs := t.time.ns } }, Eq.refl t, rfl⟩

theorem leaveStorm_moved (s : State) (mode : Nat) : leaveStorm s mode =
    rehear (stormMoved s false Ev.STORM_EXIT (stormExitArg s mode)) fun s => s.set Reg.CHAN_STATUS.MODE mode := rfl

/-! The enabled set (R152, R168). -/

/-- The enabled set follows from which lanes are excluded and which are kept, and from the profile and throttle step 3. -/
theorem enabledIn_congr {s t : State} (excluded : ∀ n, laneExcluded t n = laneExcluded s n)
    (kept : ∀ n, (laneAt t n).kept = (laneAt s n).kept)
    (profile : t.get Reg.HEALTH_STATUS.PROFILE = s.get Reg.HEALTH_STATUS.PROFILE) (steps : throttled t 3 = throttled s 3)
    (mode : Nat) (wide : Bool) : enabledIn t mode wide = enabledIn s mode wide := by
  have usable : usableLanes t wide = usableLanes s wide := by simp only [usableLanes, excluded]
  unfold enabledIn
  simp only [usable, kept, profile, steps]

/-- What is reported from one state is reported from another with its counts, records and time, in which the code is enabled alike. -/
theorem reports_of_enabled {a b t : State} {code : Nat} {p : Nat → Prop} (h : reports b t code p)
    (enabled : b.eventEnabled code = a.eventEnabled code) (counters : b.counters = a.counters) (events : b.events = a.events)
    (time : b.time = a.time) : reports a t code p := by
  unfold reports countedOnce State.count at h ⊢
  rwa [counters, events, time, enabled] at h

/-! A sample of occupancy (R170 to R173). -/

/-- The fields of CHAN_OCC_STATUS that a sample writes. -/
def occFields : List Fld := [Reg.CHAN_OCC_STATUS.OCC_PCT, Reg.CHAN_OCC_STATUS.PEAK_PCT, Reg.CHAN_OCC_STATUS.ABOVE_MS,
  Reg.CHAN_OCC_STATUS.BELOW_MS]

/-- `t` is `a` but for fields of CHAN_OCC_STATUS and the hearing's own state, with every lane as it was. -/
structure occKept (a t : State) : Prop where
  regs : onlyRegs a { t with hear := a.hear } occFields
  lanes : t.hear.lanes = a.hear.lanes

namespace occKept
variable {a b t : State}

theorem trans (h : occKept a b) (k : occKept b t) : occKept a t where
  regs := by
    obtain ⟨rest, fields⟩ := k.regs
    have rest := congrArg (fun u : State => { u with hear := a.hear }) rest
    exact onlyRegs_trans h.regs ⟨rest, fields⟩
  lanes := k.lanes.trans h.lanes

theorem of_onlyRegs (h : onlyRegs a t occFields) : occKept a t := by
  have hear := congrArg State.hear h.1
  have hear : t.hear = a.hear := hear
  exact ⟨by rwa [← hear], by rw [hear]⟩

theorem set (s : State) {f : Fld} (hf : f ∈ occFields) (v : Nat) : occKept s (s.set f v) := of_onlyRegs (State.set_onlyRegs s hf v)

section
variable (h : occKept a t)
include h

theorem get_eq {g : Fld} (other : ∀ f ∈ occFields, g.key ≠ f.key) : t.get g = a.get g := h.regs.2 g other

theorem flag_eq {g : Fld} (other : ∀ f ∈ occFields, g.key ≠ f.key) : t.flag g = a.flag g := by
  rw [State.flag, h.get_eq other, State.flag]

theorem frame : t.tick = a.tick ∧ t.pending = a.pending ∧ t.mem = a.mem := by
  obtain ⟨clock, queue, mem, -⟩ := onlyRegs_frame h.regs
  exact ⟨clock, queue, mem⟩

theorem enabledBoth_eq (mode : Nat) : enabledBoth t mode = enabledBoth a mode := by
  have excl (i : Nat) : t.get (Reg.CHAN_LANE_EXCL.EXCL i) = a.get (Reg.CHAN_LANE_EXCL.EXCL i) := h.get_eq fun f hf => by
    have : f.key < 0x80040 * 64 := by revert f; decide
    simp only [Fld.key, Reg.CHAN_LANE_EXCL.EXCL] at this ⊢
    omega
  have profile : t.get Reg.HEALTH_STATUS.PROFILE = a.get Reg.HEALTH_STATUS.PROFILE := h.get_eq (by decide)
  have steps : t.get Reg.HEALTH_STATUS.STEPS = a.get Reg.HEALTH_STATUS.STEPS := h.get_eq (by decide)
  have same := enabledIn_congr (fun n => by rw [laneExcluded, excl, laneExcluded]) (fun n => by rw [laneAt, h.lanes, laneAt])
    profile (by rw [throttled, steps, throttled]) mode
  rw [enabledBoth, enabledCount, enabledCount, same, same, enabledBoth, enabledCount, enabledCount]

theorem baseMode_eq : baseMode t = baseMode a := by
  rw [baseMode, h.get_eq (by decide), h.get_eq (by decide), baseMode]

theorem reports_of {u : State} {code : Nat} {p : Nat → Prop} (reported : reports t u code p)
    (other : ∀ f ∈ occFields, (Reg.SYS_EVENT_EN.EN (code / 64)).key ≠ f.key) : reports a u code p := by
  have counters := congrArg State.counters h.regs.1
  have events := congrArg State.events h.regs.1
  have time := congrArg State.time h.regs.1
  have enabled : t.eventEnabled code = a.eventEnabled code := by rw [State.eventEnabled, h.get_eq other, State.eventEnabled]
  exact reports_of_enabled reported enabled counters events time

end
end occKept

/-- The state once a sample has taken the floors and noted its millisecond. -/
def occNoted (s : State) (powers : List BinPower) : State :=
  noteFloors { s with hear := { s.hear with sampledMs := some s.msNow } } powers

/-- The percentage of the enabled lanes that are occupied. -/
def occPct (s : State) : Nat :=
  if enabledBoth s (s.get Reg.CHAN_STATUS.MODE) = 0 then 0
  else 100 * occupiedLanes s / enabledBoth s (s.get Reg.CHAN_STATUS.MODE)

/-- The state once a sample has shown the occupancy. -/
def occShown (s : State) (powers : List BinPower) : State :=
  let t := (occNoted s powers).set Reg.CHAN_OCC_STATUS.OCC_PCT (min (occPct (occNoted s powers)) 255)
  t.set Reg.CHAN_OCC_STATUS.PEAK_PCT (max (min (occPct (occNoted s powers)) 255) (t.get Reg.CHAN_OCC_STATUS.PEAK_PCT))

/-- A sample outside STORM counts the time above 90 %. -/
def occAbove (s : State) (powers : List BinPower) : State :=
  if enabledBoth (occNoted s powers) (s.get Reg.CHAN_STATUS.MODE) * 9 < occupiedLanes s * 10 then
    (occShown s powers).bump Reg.CHAN_OCC_STATUS.ABOVE_MS
  else (occShown s powers).set Reg.CHAN_OCC_STATUS.ABOVE_MS 0

/-- A sample in STORM below half of the base mode's lanes counts the time below. -/
def occBelow (s : State) (powers : List BinPower) : State := (occShown s powers).bump Reg.CHAN_OCC_STATUS.BELOW_MS

/-- Do PERMIT and the profile allow STORM (R173)? -/
def stormAllowed (s : State) : Bool :=
  bit (s.get Reg.CHAN_HEAR_CTRL.PERMIT) 2 && decide (s.get Reg.HEALTH_STATUS.PROFILE ≠ 3)

section Sample
variable (s : State) (powers : List BinPower)

theorem occNoted_occKept : occKept s (occNoted s powers) := ⟨onlyRegs_refl s occFields, rfl⟩

theorem occShown_occKept : occKept s (occShown s powers) :=
  (occNoted_occKept s powers).trans ((occKept.set _ (by decide) _).trans (.set _ (by decide) _))

theorem occAbove_occKept : occKept s (occAbove s powers) := by
  unfold occAbove
  split
  · exact (occShown_occKept s powers).trans (.set _ (by decide) _)
  · exact (occShown_occKept s powers).trans (.set _ (by decide) _)

theorem occBelow_occKept : occKept s (occBelow s powers) := (occShown_occKept s powers).trans (.set _ (by decide) _)

theorem occShown_get {g : Fld} (pct : g.key ≠ Reg.CHAN_OCC_STATUS.OCC_PCT.key) (peak : g.key ≠ Reg.CHAN_OCC_STATUS.PEAK_PCT.key) :
    (occShown s powers).get g = s.get g := by
  rw [occShown, State.get_set_other _ _ _ _ peak, State.get_set_other _ _ _ _ pct]
  rfl

theorem occShown_flag {g : Fld} (pct : g.key ≠ Reg.CHAN_OCC_STATUS.OCC_PCT.key) (peak : g.key ≠ Reg.CHAN_OCC_STATUS.PEAK_PCT.key) :
    (occShown s powers).flag g = s.flag g := by
  rw [State.flag, occShown_get s powers pct peak, State.flag]

theorem occShown_allowed : stormAllowed (occShown s powers) = stormAllowed s := by
  rw [stormAllowed, occShown_get _ _ (by decide) (by decide), occShown_get _ _ (by decide) (by decide), stormAllowed]

theorem occShown_forced : (stormAllowed (occShown s powers) && (occShown s powers).flag Reg.CHAN_HEAR_CTRL.FORCE_STORM) =
    (stormAllowed s && s.flag Reg.CHAN_HEAR_CTRL.FORCE_STORM) := by
  rw [occShown_allowed, occShown_flag _ _ (by decide) (by decide)]

theorem occAbove_counts (above : 9 * enabledBoth s (s.get Reg.CHAN_STATUS.MODE) < 10 * occupiedLanes s)
    (long : 199 ≤ s.get Reg.CHAN_OCC_STATUS.ABOVE_MS) : 200 ≤ (occAbove s powers).get Reg.CHAN_OCC_STATUS.ABOVE_MS := by
  have many : enabledBoth (occNoted s powers) (s.get Reg.CHAN_STATUS.MODE) * 9 < occupiedLanes s * 10 := by
    rw [(occNoted_occKept s powers).enabledBoth_eq]
    omega
  rw [occAbove, if_pos many, State.get_bump_self, occShown_get s powers (by decide) (by decide)]
  exact le_min (Nat.succ_le_succ long) (by decide)

theorem occBelow_counts (long : 1999 ≤ s.get Reg.CHAN_OCC_STATUS.BELOW_MS) :
    2000 ≤ (occBelow s powers).get Reg.CHAN_OCC_STATUS.BELOW_MS := by
  rw [occBelow, State.get_bump_self, occShown_get s powers (by decide) (by decide)]
  exact le_min (Nat.succ_le_succ long) (by decide)

end Sample

/-! Entry to STORM and exit from it after a sample. -/

section Moves
variable {a v : State} (kept : occKept a v)
include kept

theorem enterStorm_shows (forced : Bool) (pct : Nat) : (enterStorm v forced pct).get Reg.CHAN_STATUS.MODE = modeSTORM ∧
    (enterStorm v forced pct).flag Reg.CHAN_STATUS.STORM_AUTO = (!forced) ∧ (enterStorm v forced pct).mem = a.mem ∧
      reports a (enterStorm v forced pct) Ev.STORM_ENTER fun arg => bits arg 45 45 = b2n forced := by
  obtain ⟨b, moved, effect⟩ := enterStorm_moved v forced pct
  rw [effect]
  obtain ⟨mode, auto⟩ := stormMoved_shows moved modeSTORM
  obtain ⟨-, -, mem⟩ := stormMoved_frame moved modeSTORM
  exact ⟨mode, auto, mem.trans kept.frame.2.2,
    kept.reports_of (stormMoved_reports moved modeSTORM (stormEnterArg_forced v forced pct)) (by decide)⟩

theorem enterStorm_clock (forced : Bool) (pct : Nat) : (enterStorm v forced pct).tick = a.tick ∧
    (enterStorm v forced pct).pending = a.pending := by
  obtain ⟨b, moved, effect⟩ := enterStorm_moved v forced pct
  obtain ⟨clock, queue, -⟩ := stormMoved_frame moved modeSTORM
  rw [effect]
  exact ⟨clock.trans kept.frame.1, queue.trans kept.frame.2.1⟩

theorem leaveStorm_shows (mode : Nat) : (leaveStorm v mode).get Reg.CHAN_STATUS.MODE = mode % 4 ∧
    (leaveStorm v mode).flag Reg.CHAN_STATUS.STORM_AUTO = false ∧
      reports a (leaveStorm v mode) Ev.STORM_EXIT fun arg => bits arg 47 46 = mode % 4 := by
  rw [leaveStorm_moved]
  have moved := onlyHearing.refl (stormMoved v false Ev.STORM_EXIT (stormExitArg v mode))
  obtain ⟨shown, auto⟩ := stormMoved_shows moved mode
  exact ⟨shown, auto, kept.reports_of (stormMoved_reports moved mode (stormExitArg_mode v mode)) (by decide)⟩

theorem leaveStorm_clock (mode : Nat) : (leaveStorm v mode).tick = a.tick ∧ (leaveStorm v mode).pending = a.pending := by
  rw [leaveStorm_moved]
  obtain ⟨clock, queue, -⟩ := stormMoved_frame (.refl (stormMoved v false Ev.STORM_EXIT (stormExitArg v mode))) mode
  exact ⟨clock.trans kept.frame.1, queue.trans kept.frame.2.1⟩

end Moves

section OccSample
variable {s : State} (dt : Nat) (powers : List BinPower)

theorem occSample_idle (idle : s.inRun = false ∨ sampleDue (s.advance dt) = false) :
    completes (.occSample dt powers) s fun t => t = s.advance dt :=
  completes_of_whenever_idle (by unfold exec execOccSample; rfl) (Bool.and_eq_false_iff.2 idle)

variable (run : s.inRun = true) (due : sampleDue (s.advance dt) = true)
include run due

section Enter
variable (allowed : stormAllowed s = true) (outside : s.get Reg.CHAN_STATUS.MODE ≠ modeSTORM)
include allowed outside

theorem occSample_forced (forced : s.flag Reg.CHAN_HEAR_CTRL.FORCE_STORM = true) : completes (.occSample dt powers) s fun t =>
    t.get Reg.CHAN_STATUS.MODE = modeSTORM ∧ t.flag Reg.CHAN_STATUS.STORM_AUTO = false ∧ t.mem = s.mem ∧
      reports (s.advance dt) t Ev.STORM_ENTER fun arg => bits arg 45 45 = 1 := by
  have kept := occAbove_occKept (s.advance dt) powers
  obtain ⟨clock, queue⟩ := enterStorm_clock kept true (occPct (occNoted (s.advance dt) powers))
  refine completes_of_whenever (r := enterStorm (occAbove (s.advance dt) powers) true (occPct (occNoted (s.advance dt) powers)))
    (by unfold exec execOccSample; rfl) (Bool.and_eq_true_iff.2 ⟨run, due⟩) ?_ clock queue (enterStorm_shows kept true _)
  have force := (occShown_forced (s.advance dt) powers).trans (Bool.and_eq_true_iff.2 ⟨allowed, forced⟩)
  exact (if_neg outside).trans (if_pos force)

theorem occSample_auto (free : s.flag Reg.CHAN_HEAR_CTRL.FORCE_STORM = false) (auto : s.flag Reg.CHAN_HEAR_CTRL.AUTO_STORM = true)
    (above : 9 * enabledBoth s (s.get Reg.CHAN_STATUS.MODE) < 10 * occupiedLanes s)
    (long : 199 ≤ s.get Reg.CHAN_OCC_STATUS.ABOVE_MS) : completes (.occSample dt powers) s fun t =>
      t.get Reg.CHAN_STATUS.MODE = modeSTORM ∧ t.flag Reg.CHAN_STATUS.STORM_AUTO = true ∧
        reports (s.advance dt) t Ev.STORM_ENTER fun arg => bits arg 45 45 = 0 := by
  have kept := occAbove_occKept (s.advance dt) powers
  obtain ⟨clock, queue⟩ := enterStorm_clock kept false (occPct (occNoted (s.advance dt) powers))
  obtain ⟨mode, byItself, -, reported⟩ := enterStorm_shows kept false (occPct (occNoted (s.advance dt) powers))
  refine completes_of_whenever (r := enterStorm (occAbove (s.advance dt) powers) false (occPct (occNoted (s.advance dt) powers)))
    (by unfold exec execOccSample; rfl) (Bool.and_eq_true_iff.2 ⟨run, due⟩) ?_ clock queue ⟨mode, byItself, reported⟩
  have unforced : (stormAllowed (occShown (s.advance dt) powers) &&
      (occShown (s.advance dt) powers).flag Reg.CHAN_HEAR_CTRL.FORCE_STORM) = false :=
    (occShown_forced (s.advance dt) powers).trans (Bool.and_eq_false_iff.2 (.inr free))
  have enters : (stormAllowed (occShown (s.advance dt) powers) &&
      (occAbove (s.advance dt) powers).flag Reg.CHAN_HEAR_CTRL.AUTO_STORM &&
        decide (200 ≤ (occAbove (s.advance dt) powers).get Reg.CHAN_OCC_STATUS.ABOVE_MS)) = true := by
    rw [occShown_allowed, kept.flag_eq (by decide), decide_eq_true (occAbove_counts (s.advance dt) powers above long)]
    exact Bool.and_eq_true_iff.2 ⟨Bool.and_eq_true_iff.2 ⟨allowed, auto⟩, rfl⟩
  exact (if_neg outside).trans ((if_neg (Bool.eq_false_iff.1 unforced)).trans (if_pos enters))

end Enter

theorem occSample_leaves (inside : s.get Reg.CHAN_STATUS.MODE = modeSTORM) (free : s.flag Reg.CHAN_HEAR_CTRL.FORCE_STORM = false)
    (below : 2 * occupiedLanes s < enabledBoth s (baseMode s)) (long : 1999 ≤ s.get Reg.CHAN_OCC_STATUS.BELOW_MS) :
    completes (.occSample dt powers) s fun t => t.get Reg.CHAN_STATUS.MODE = baseMode s % 4 ∧
      t.flag Reg.CHAN_STATUS.STORM_AUTO = false ∧
        reports (s.advance dt) t Ev.STORM_EXIT fun arg => bits arg 47 46 = baseMode s % 4 := by
  have kept := occBelow_occKept (s.advance dt) powers
  have shown := occShown_occKept (s.advance dt) powers
  have base : baseMode (occBelow (s.advance dt) powers) = baseMode s := kept.baseMode_eq
  obtain ⟨clock, queue⟩ := leaveStorm_clock kept (baseMode s)
  refine completes_of_whenever (r := leaveStorm (occBelow (s.advance dt) powers) (baseMode s))
    (by unfold exec execOccSample; rfl) (Bool.and_eq_true_iff.2 ⟨run, due⟩) ?_ clock queue (leaveStorm_shows kept (baseMode s))
  have few : occupiedLanes s * 2 < enabledBoth (occShown (s.advance dt) powers) (baseMode (occShown (s.advance dt) powers)) := by
    rw [shown.enabledBoth_eq, shown.baseMode_eq, Nat.mul_comm]
    exact below
  have unforced : (stormAllowed (occShown (s.advance dt) powers) &&
      (occShown (s.advance dt) powers).flag Reg.CHAN_HEAR_CTRL.FORCE_STORM) = false :=
    (occShown_forced (s.advance dt) powers).trans (Bool.and_eq_false_iff.2 (.inr free))
  have leaves : (!(stormAllowed (occShown (s.advance dt) powers) &&
      (occShown (s.advance dt) powers).flag Reg.CHAN_HEAR_CTRL.FORCE_STORM) &&
        (decide (2000 ≤ (occBelow (s.advance dt) powers).get Reg.CHAN_OCC_STATUS.BELOW_MS) ||
          !stormAllowed (occShown (s.advance dt) powers))) = true := by
    rw [unforced, decide_eq_true (occBelow_counts (s.advance dt) powers long)]
    rfl
  rw [← base]
  exact (if_pos inside).trans ((if_pos few).trans (if_pos leaves))

end OccSample

/-! A write of CHAN_HEAR_CTRL (R172, R173). -/

theorem State.get_onlyIf_set_self (s : State) (c : Bool) (f : Fld) (v : Nat) :
    (s.onlyIf c fun s => s.set f v).get f = if c then v % 2 ^ f.width else s.get f := by
  cases c
  · rfl
  · exact State.get_set_self s f v

theorem State.get_onlyIf_set_other (s : State) (c : Bool) {f g : Fld} (v : Nat) (h : g.key ≠ f.key) :
    (s.onlyIf c fun s => s.set f v).get g = s.get g := by
  cases c
  · rfl
  · exact State.get_set_other s f g v h

theorem State.onlyIf_set_onlyRegs (s : State) (c : Bool) {f : Fld} {fs : List Fld} (hf : f ∈ fs) (v : Nat) :
    onlyRegs s (s.onlyIf c fun s => s.set f v) fs :=
  State.onlyIf_keeps (P := fun t => onlyRegs s t fs) _ _ _ (onlyRegs_refl s fs) fun _ => State.set_onlyRegs s hf v

/-- PERMIT takes what is written before the lock. -/
def hearPermitted (s : State) (v : Nat) : State :=
  s.onlyIf (!s.flag (Reg.LOCK Block.CHAN)) fun s => s.set Reg.CHAN_HEAR_CTRL.PERMIT (bits v 55 53)

/-- BASE takes a mode that is permitted. -/
def hearBased (s : State) (v : Nat) : State :=
  (hearPermitted s v).onlyIf (decide (bits v 63 62 ≤ 1) && bit ((hearPermitted s v).get Reg.CHAN_HEAR_CTRL.PERMIT) (bits v 63 62))
    fun s => s.set Reg.CHAN_HEAR_CTRL.BASE (bits v 63 62)

/-- Clearing FORCE_STORM starts the exit count afresh. -/
def hearRestarted (s : State) (v : Nat) : State :=
  (hearBased s v).onlyIf ((hearBased s v).flag Reg.CHAN_HEAR_CTRL.FORCE_STORM && !bit v 60) fun s =>
    s.set Reg.CHAN_OCC_STATUS.BELOW_MS 0

/-- The fields that a write of CHAN_HEAR_CTRL may change. -/
def hearFields : List Fld := [Reg.CHAN_HEAR_CTRL.BASE, Reg.CHAN_HEAR_CTRL.AUTO_STORM, Reg.CHAN_HEAR_CTRL.FORCE_STORM,
  Reg.CHAN_HEAR_CTRL.PERMIT, Reg.CHAN_OCC_STATUS.BELOW_MS]

section HearCtrl
variable (s : State) (v : Nat)

theorem writeHearCtrl_eq : writeHearCtrl s v =
    ((hearRestarted s v).setFlag Reg.CHAN_HEAR_CTRL.AUTO_STORM (bit v 61)).setFlag Reg.CHAN_HEAR_CTRL.FORCE_STORM (bit v 60) := rfl

theorem hearPermitted_permit : (hearPermitted s v).get Reg.CHAN_HEAR_CTRL.PERMIT =
    if s.flag (Reg.LOCK Block.CHAN) then s.get Reg.CHAN_HEAR_CTRL.PERMIT else bits v 55 53 := by
  have cut : bits v 55 53 % 2 ^ Reg.CHAN_HEAR_CTRL.PERMIT.width = bits v 55 53 := Nat.mod_mod ..
  rw [hearPermitted, State.get_onlyIf_set_self, cut]
  cases s.flag (Reg.LOCK Block.CHAN) <;> rfl

theorem writeHearCtrl_permit : (writeHearCtrl s v).get Reg.CHAN_HEAR_CTRL.PERMIT =
    if s.flag (Reg.LOCK Block.CHAN) then s.get Reg.CHAN_HEAR_CTRL.PERMIT else bits v 55 53 := by
  rw [writeHearCtrl_eq, State.setFlag_get_other _ _ _ _ (by decide), State.setFlag_get_other _ _ _ _ (by decide), hearRestarted,
    State.get_onlyIf_set_other _ _ _ (by decide), hearBased, State.get_onlyIf_set_other _ _ _ (by decide), hearPermitted_permit]

theorem writeHearCtrl_base {permit : Nat} (h : (hearPermitted s v).get Reg.CHAN_HEAR_CTRL.PERMIT = permit) :
    (writeHearCtrl s v).get Reg.CHAN_HEAR_CTRL.BASE =
      if bits v 63 62 ≤ 1 ∧ bit permit (bits v 63 62) then bits v 63 62 else s.get Reg.CHAN_HEAR_CTRL.BASE := by
  have cut : bits v 63 62 % 2 ^ Reg.CHAN_HEAR_CTRL.BASE.width = bits v 63 62 := Nat.mod_mod ..
  have before : (hearPermitted s v).get Reg.CHAN_HEAR_CTRL.BASE = s.get Reg.CHAN_HEAR_CTRL.BASE :=
    State.get_onlyIf_set_other _ _ _ (by decide)
  rw [writeHearCtrl_eq, State.setFlag_get_other _ _ _ _ (by decide), State.setFlag_get_other _ _ _ _ (by decide), hearRestarted,
    State.get_onlyIf_set_other _ _ _ (by decide), hearBased, State.get_onlyIf_set_self, h, cut, before]
  simp only [Bool.and_eq_true, decide_eq_true_eq]

theorem writeHearCtrl_flags : (writeHearCtrl s v).flag Reg.CHAN_HEAR_CTRL.AUTO_STORM = bit v 61 ∧
    (writeHearCtrl s v).flag Reg.CHAN_HEAR_CTRL.FORCE_STORM = bit v 60 := by
  rw [writeHearCtrl_eq, State.flag_setFlag_other _ _ _ _ (by decide)]
  exact ⟨State.flag_setFlag_self .., State.flag_setFlag_self ..⟩

theorem writeHearCtrl_onlyRegs : onlyRegs s (writeHearCtrl s v) hearFields := by
  have permitted : onlyRegs s (hearPermitted s v) hearFields := State.onlyIf_set_onlyRegs s _ (by simp [hearFields]) _
  have based : onlyRegs (hearPermitted s v) (hearBased s v) hearFields := State.onlyIf_set_onlyRegs _ _ (by simp [hearFields]) _
  have restarted : onlyRegs (hearBased s v) (hearRestarted s v) hearFields := State.onlyIf_set_onlyRegs _ _ (by simp [hearFields]) _
  have flags : onlyRegs (hearRestarted s v) (writeHearCtrl s v) hearFields :=
    onlyRegs_trans (State.set_onlyRegs _ (by simp [hearFields]) _) (State.set_onlyRegs _ (by simp [hearFields]) _)
  exact onlyRegs_trans (onlyRegs_trans permitted based) (onlyRegs_trans restarted flags)

end HearCtrl

theorem hearCtrlWrite_completes (s : State) (dt : Nat) {permit : Nat} {v : Word}
    (h : permit = if s.flag (Reg.LOCK Block.CHAN) then s.get Reg.CHAN_HEAR_CTRL.PERMIT else bits v.toNat 55 53) :
    completes (.hearCtrlWrite dt v) s fun t => t.get Reg.CHAN_HEAR_CTRL.PERMIT = permit ∧
      t.get Reg.CHAN_HEAR_CTRL.BASE = (if bits v.toNat 63 62 ≤ 1 ∧ bit permit (bits v.toNat 63 62)
        then bits v.toNat 63 62 else s.get Reg.CHAN_HEAR_CTRL.BASE) ∧
      t.flag Reg.CHAN_HEAR_CTRL.AUTO_STORM = v.getLsbD 61 ∧ t.flag Reg.CHAN_HEAR_CTRL.FORCE_STORM = v.getLsbD 60 ∧
      onlyRegsAnswered (s.advance dt) t hearFields := by
  have only := writeHearCtrl_onlyRegs (s.advance dt) v.toNat
  obtain ⟨clock, queue, -⟩ := onlyRegs_frame only
  obtain ⟨auto, force⟩ := writeHearCtrl_flags (s.advance dt) v.toNat
  rw [bit_toNat] at auto force
  exact completes_of_effect (r := (writeHearCtrl (s.advance dt) v.toNat).answer 0) (by unfold exec execHearCtrlWrite; rfl) rfl clock
    queue ⟨(writeHearCtrl_permit ..).trans h.symm, writeHearCtrl_base _ _ ((hearPermitted_permit ..).trans h.symm), auto, force,
      onlyRegsAnswered_of_onlyRegs only 0⟩

/-! The statement. -/

/-- Settles O29: the hearing mode by its samples and writes, a context by its stage, and a layer by what it finds. -/
theorem hearingAndCapture : Obligations.HearingAndCapture := by
  refine ⟨fun s a dt permit v powers now written => ?_,
    fun s a dt x k c next n rest f samples kept href j r o now place keeps after => ?_⟩
  · subst now
    refine ⟨fun run due outside permitted profile => ?_, occSample_leaves dt powers, occSample_idle dt powers,
      hearCtrlWrite_completes s dt written⟩
    have allowed : stormAllowed s = true := Bool.and_eq_true_iff.2 ⟨permitted, decide_eq_true profile⟩
    exact ⟨occSample_forced dt powers run due allowed outside, occSample_auto dt powers run due allowed outside⟩
  · subst now after
    refine ⟨fun due => contextClose_closes dt place keeps due x, fun waits => contextClose_waits dt waits samples,
      cancellerTake_takes dt, fun works => ⟨cancelLayerDone_aborts place works,
        fun first reference fd => cancelLayerDone_reference place works first reference fd x, fun residual =>
          ⟨cancelLayerDone_nothing place works residual, cancelLayerDone_unfit place works residual, fun fits job decoded =>
            ⟨cancelLayerDone_fails place works residual fits job decoded, cancelLayerDone_new place works residual fits job decoded,
              cancelLayerDone_known place works residual fits job decoded⟩⟩⟩⟩

end Sys2Proof.Machine
end

section
/-!
SUPPORT. What serving a detection leaves as it was, and which lane it takes (R150 to R156, R221, R222).
-/

namespace Sys2Proof.Machine

/-! Marking OVERLAP (R151). -/

theorem Cells.get_map {α : Type} (m : List (Nat × α)) {f : α → α} {d : α} (default : f d = d) (k : Nat) :
    Cells.get (m.map fun e => (e.1, f e.2)) k d = f (Cells.get m k d) := by
  induction m with
  | nil => exact default.symm
  | cons e m ih =>
    rw [List.map_cons, Cells.get, Cells.get, ih]
    split <;> rfl

/-- A change of lanes that no more than marks OVERLAP, and none that is FREE. -/
structure marksOverlap (f : Lane → Lane) : Prop where
  only : ∀ l o, { f l with overlap := o } = { l with overlap := o }
  free : ∀ l, l.stage = .free → f l = l

namespace marksOverlap
variable {f : Lane → Lane} (marks : marksOverlap f) (l : Lane)
include marks

theorem lane_eq : (f l).stage = l.stage ∧ (f l).reserved = l.reserved ∧ (f l).fe = l.fe ∧ (f l).bin = l.bin ∧ (f l).mode = l.mode ∧
    (f l).timingNs = l.timingNs ∧ (f l).windowFrom = l.windowFrom ∧ (f l).windowTo = l.windowTo := by
  have same := marks.only l true
  have stage := congrArg Lane.stage same
  have reserved := congrArg Lane.reserved same
  have fe := congrArg Lane.fe same
  have bin := congrArg Lane.bin same
  have mode := congrArg Lane.mode same
  have timing := congrArg Lane.timingNs same
  have start := congrArg Lane.windowFrom same
  have stop := congrArg Lane.windowTo same
  exact ⟨stage, reserved, fe, bin, mode, timing, start, stop⟩

theorem hasFrame_eq : laneHasFrame (f l) = laneHasFrame l := by rw [laneHasFrame, (marks.lane_eq l).1, laneHasFrame]

theorem eq_free_iff : f l = {} ↔ l = {} := by
  constructor
  · intro h
    have stage : l.stage = .free := by rw [← (marks.lane_eq l).1, h]
    rw [← marks.free l stage, h]
  · rintro rfl
    exact marks.free {} rfl

end marksOverlap

/-- `b` is `a` but for OVERLAP of the frames that lanes and decoders hold. -/
structure onlyOverlap (a b : State) : Prop where
  rest : { b with hear := { b.hear with lanes := a.hear.lanes }, ox := { b.ox with jobs := a.ox.jobs } } = a
  lanes : ∃ f, marksOverlap f ∧ b.hear.lanes = a.hear.lanes.map fun e => (e.1, f e.2)

theorem onlyOverlap_refl (a : State) : onlyOverlap a a := ⟨rfl, id, ⟨fun _ _ => rfl, fun _ _ => rfl⟩, (List.map_id _).symm⟩

theorem markOverlap_onlyOverlap (s : State) (fe bin : Nat) : onlyOverlap s (markOverlap s fe bin) := by
  refine ⟨rfl, fun l => if laneHasFrame l ∧ l.fe = fe ∧ l.bin = bin then { l with overlap := true } else l, ⟨fun l o => ?_,
    fun l free => if_neg ?_⟩, rfl⟩
  · split <;> rfl
  · simp [laneHasFrame, free]

namespace onlyOverlap
variable {a b : State} (h : onlyOverlap a b)
include h

theorem laneAt_eq (n : Nat) : { laneAt b n with overlap := (laneAt a n).overlap } = laneAt a n := by
  obtain ⟨f, marks, lanes⟩ := h.lanes
  rw [laneAt, lanes, Cells.get_map _ (marks.free {} rfl)]
  exact marks.only ..

theorem fields_eq : b.fields = a.fields := by
  have fields := congrArg State.fields h.rest
  exact fields

theorem antennaNs_eq (fe : Nat) : antennaNs b fe = antennaNs a fe := by
  have time := congrArg State.time h.rest
  have time : b.time = a.time := time
  rw [antennaNs, time, antennaNs]

theorem divSuppressed_eq (d : Detect) : divSuppressed b d = divSuppressed a d := by
  obtain ⟨f, marks, lanes⟩ := h.lanes
  have khz (fe bin mode : Nat) : modeKhz b fe bin mode = modeKhz a fe bin mode := by
    simp only [modeKhz, binKhz, State.get_congr h.fields_eq]
  simp only [divSuppressed, lanes, List.any_map, Function.comp_def, marks.hasFrame_eq, khz, marks.lane_eq]

theorem matchingReservation_eq (fe bin : Nat) : matchingReservation b fe bin = matchingReservation a fe bin := by
  obtain ⟨f, marks, lanes⟩ := h.lanes
  simp only [matchingReservation, lanes, List.find?_map, Function.comp_def, marks.lane_eq, h.antennaNs_eq, Option.map_map]

theorem freeLanes_eq (wide : Bool) : freeLanes b wide = freeLanes a wide := by
  obtain ⟨f, marks, lanes⟩ := h.lanes
  have lane (n : Nat) : laneAt b n = f (laneAt a n) := by
    rw [laneAt, lanes, Cells.get_map _ (marks.free {} rfl), laneAt]
  have get := State.get_congr h.fields_eq
  have enabled : enabledLanes b wide = enabledLanes a wide := by
    rw [enabledLanes, get, enabledLanes]
    exact enabledIn_congr (fun n => by rw [laneExcluded, get, laneExcluded])
      (fun n => by rw [lane, Lane.kept, (marks.lane_eq _).1, (marks.lane_eq _).2.1, Lane.kept]) (get _)
      (by rw [throttled, get, throttled]) _ wide
  simp only [freeLanes, enabled, lane, marks.eq_free_iff]

theorem laneForDetection_eq (wide : Bool) : laneForDetection b wide = laneForDetection a wide := by
  have pending := congrArg (fun s : State => s.hear.pendingRsv) h.rest
  have pending : b.hear.pendingRsv = a.hear.pendingRsv := pending
  simp only [laneForDetection, openLanes, h.freeLanes_eq, pendingOf, pending, h.antennaNs_eq]

end onlyOverlap

/-! What the triggers of a detection leave (R221, R222, R235). -/

/-- `t` is `a` but for collision recovery and its region of LP4X, the hearing's own state, free values, reports of events, and the
counters of `K`. -/
structure onlyServes (K : List Nat) (a t : State) : Prop where
  rest : { t with fields := a.fields, counters := a.counters, events := a.events, hear := a.hear, ox := a.ox, freeCtr := a.freeCtr
                  mem := a.mem } = a
  get_eq : ∀ g : Fld, g.key ≠ Reg.SYS_EVENT_STATUS.OVF.key → g.key ≠ Reg.SYS_EVENT_LOST.LOST.key → t.get g = a.get g
  counter_eq : ∀ c ∉ K, Cells.get t.counters c 0 = Cells.get a.counters c 0
  ddr_eq : ∀ x, x < ctxBase a 0 ∨ ctxBase a 32 ≤ x → t.ddr x 1 = a.ddr x 1

namespace onlyServes
variable {K : List Nat} {a b t : State}

theorem of_rest (fields : t.fields = a.fields) (counters : t.counters = a.counters) (mem : t.mem = a.mem)
    (rest : { t with fields := a.fields, counters := a.counters, events := a.events, hear := a.hear, ox := a.ox
                     freeCtr := a.freeCtr, mem := a.mem } = a) : onlyServes K a t where
  rest := rest
  get_eq g _ _ := State.get_congr fields g
  counter_eq c _ := congrArg (Cells.get · c 0) counters
  ddr_eq x _ := ddr_congr mem x 1

theorem refl (a : State) : onlyServes K a a := of_rest rfl rfl rfl rfl

theorem ctxBase_eq (h : onlyServes K a t) (n : Nat) : ctxBase t n = ctxBase a n := by
  rw [ctxBase, h.get_eq _ (by decide) (by decide), ctxBase]

theorem trans (h : onlyServes K a b) (k : onlyServes K b t) : onlyServes K a t where
  rest := by
    have first := h.rest
    rw [← k.rest] at first
    exact first
  get_eq g ovf lost := (k.get_eq g ovf lost).trans (h.get_eq g ovf lost)
  counter_eq c other := (k.counter_eq c other).trans (h.counter_eq c other)
  ddr_eq x outside := (k.ddr_eq x (by rwa [h.ctxBase_eq, h.ctxBase_eq])).trans (h.ddr_eq x outside)

theorem mono {L : List Nat} (h : onlyServes K a t) (sub : K ⊆ L) : onlyServes L a t :=
  { h with counter_eq := fun c other => h.counter_eq c fun mem => other (sub mem) }

theorem count (s : State) {c : Nat} (mem : c ∈ K) : onlyServes K s (s.count c) where
  rest := by simp only [State.count_frame]
  get_eq g _ _ := State.count_get ..
  counter_eq d other := Cells.get_set_other _ _ _ _ fun e => other (e ▸ mem)
  ddr_eq x _ := ddr_congr (by simp only [State.count_frame]) x 1

theorem event (s : State) {code : Nat} (source arg : Nat) (mem : code ∈ K) : onlyServes K s (s.event code source arg) where
  rest := by
    have frame := State.event_frame s code source arg
    generalize s.event code source arg = t at frame
    rw [← frame]
  get_eq g ovf lost := State.event_get_other s code source arg ovf lost
  counter_eq c other := by
    rw [State.event_counters]
    exact (count s mem).counter_eq c other
  ddr_eq x _ := ddr_congr (State.event_mem ..) x 1

theorem up_eq (h : onlyServes K a t) : t.up = a.up := by
  have up := congrArg State.up h.rest
  exact up

theorem clock_eq (h : onlyServes K a t) : t.tick = a.tick ∧ t.pending = a.pending := by
  have clock := congrArg State.tick h.rest
  have queue := congrArg State.pending h.rest
  exact ⟨clock, queue⟩

end onlyServes

/-- The region of each of the 32 contexts lies in the capture region. -/
theorem ctxBase_range (s : State) {n : Nat} (lt : n < 32) : ctxBase s 0 ≤ ctxBase s n ∧ ctxBase s n + 0x40000 ≤ ctxBase s 32 := by
  unfold ctxBase
  omega

/-- The counters that a trigger may raise. -/
def captureCounters : List Nat := [Ctr.ARM_SKIP, Ev.CAPTURE_MISS, Ctr.NOT_CAPTURABLE]

/-- `t` is `a` but for what triggers change: every lane is as it was. -/
structure onlyCaptures (a t : State) : Prop where
  serves : onlyServes captureCounters a t
  hear : t.hear = a.hear

namespace onlyCaptures
variable {a b t : State}

theorem refl (a : State) : onlyCaptures a a := ⟨.refl a, rfl⟩

theorem trans (h : onlyCaptures a b) (k : onlyCaptures b t) : onlyCaptures a t := ⟨h.serves.trans k.serves, k.hear.trans h.hear⟩

theorem setOx (s : State) (x : OxState) : onlyCaptures s { s with ox := x } := ⟨.of_rest rfl rfl rfl rfl, rfl⟩

theorem setCtx (s : State) (n : Nat) (c : Context) : onlyCaptures s (setCtx s n c) := setOx s _

theorem count (s : State) {c : Nat} (mem : c ∈ captureCounters) : onlyCaptures s (s.count c) :=
  ⟨.count s mem, by simp only [State.count_frame]⟩

theorem event (s : State) {code : Nat} (source arg : Nat) (mem : code ∈ captureCounters) :
    onlyCaptures s (s.event code source arg) := ⟨.event s source arg mem, (State.event_rest ..).2.1⟩

theorem ctxScramble (s : State) {n : Nat} (lt : n < 32) : onlyCaptures s (ctxScramble s n) where
  serves := {
    rest := rfl
    get_eq := fun g _ _ => State.get_congr rfl g
    counter_eq := fun _ _ => rfl
    ddr_eq := fun x outside => ddr_ctxScramble_other s n (by have := ctxBase_range s lt; omega) }
  hear := rfl

theorem openCtx (s : State) {n : Nat} (lt : n < 32) (c : Context) : onlyCaptures s (openCtx s n c) :=
  (setCtx s n c).trans (ctxScramble _ lt)

theorem captureMiss (s : State) (fe bin cause : Nat) : onlyCaptures s (captureMiss s fe bin cause) := by
  unfold Machine.captureMiss
  dsimp only
  split
  · exact (setOx s _).trans (event _ _ _ (by decide))
  · exact (setOx s _).trans (count _ (by decide))

theorem recordCtx (s : State) (n trigger : Nat) : onlyCaptures s (recordCtx s n trigger) := by
  unfold Machine.recordCtx
  dsimp only
  split
  · exact setCtx s n _
  · exact refl s

end onlyCaptures

/-- A context that is found FREE is one of the 32. -/
theorem freeCtxNo_lt {s : State} {n : Nat} (h : freeCtxNo s = some n) : n < 32 := by
  unfold freeCtxNo at h
  split at h
  · exact List.mem_range.1 (List.mem_of_find?_eq_some h)
  · exact absurd h (by simp)

theorem binTrigger_onlyCaptures (fe bin : Nat) (s : State) (cause : Nat) : onlyCaptures s (binTrigger fe bin s cause) := by
  unfold binTrigger
  split
  · exact .recordCtx s _ cause
  · split
    · next n found => exact .openCtx s (freeCtxNo_lt found) _
    · exact .captureMiss s fe bin cause

theorem captureDetection_onlyCaptures (s : State) (d : Detect) (causes : List Nat) :
    onlyCaptures s (captureDetection s d causes) := by
  unfold captureDetection
  split_ifs
  · exact .refl s
  · exact .count s (by decide)
  · exact List.foldlRecOn (motive := onlyCaptures s) causes _ (.refl s) fun t kept cause _ =>
      kept.trans (binTrigger_onlyCaptures d.fe d.bin t cause)

/-- Arming a lane is collision recovery's alone, but that the lane may take the number of a context. -/
theorem armLane_cases (s : State) (lane : Nat) (d : Detect) : ∃ b, onlyCaptures s b ∧
    (armLane s lane d = b ∨ ∃ n, armLane s lane d = armLaneOn b lane n) := by
  unfold armLane
  dsimp only
  split
  · exact ⟨s, .refl s, .inl rfl⟩
  split
  · exact ⟨s, .refl s, .inl rfl⟩
  split
  · exact ⟨_, .setCtx s _ _, .inr ⟨_, rfl⟩⟩
  split
  · exact ⟨_, .count s (by decide), .inl rfl⟩
  split
  · next n found => exact ⟨_, .openCtx s (freeCtxNo_lt found) _, .inr ⟨n, rfl⟩⟩
  · exact ⟨_, .captureMiss s _ _ _, .inl rfl⟩

/-! A detection that is served. -/

theorem laneAt_congr {s t : State} (h : t.hear.lanes = s.hear.lanes) (n : Nat) : laneAt t n = laneAt s n := by
  rw [laneAt, h, laneAt]

/-- The counters that serving a detection may raise. -/
def servedCounters : List Nat := Ctr.DIV_SUPPRESS :: Ev.LANE_MISS :: captureCounters

section Take
variable (s : State) (n : Nat) (d : Detect) (overlap reserved : Bool)

theorem allocate_lanes : (∃ l, laneAt (allocate s n d overlap reserved) n = l ∧ l.stage = .acquire ∧ l.fe = d.fe ∧ l.bin = d.bin ∧
    l.mode = d.mode ∧ l.overlap = overlap ∧ l.timingNs = d.timing) ∧
      ∀ m, m ≠ n → laneAt (allocate s n d overlap reserved) m = laneAt s m :=
  ⟨⟨_, laneAt_setLane_self .., rfl, rfl, rfl, rfl, rfl, rfl⟩, fun _ other => laneAt_setLane_other _ _ other⟩

theorem armLane_lanes : (∃ ctx, laneAt (armLane s n d) n = { laneAt s n with context := ctx }) ∧
    ∀ m, m ≠ n → laneAt (armLane s n d) m = laneAt s m := by
  obtain ⟨b, captures, rfl | ⟨ctx, armed⟩⟩ := armLane_cases s n d
  · have same := laneAt_congr (congrArg Hearing.lanes captures.hear)
    exact ⟨⟨_, same n⟩, fun m _ => same m⟩
  · have same := laneAt_congr (congrArg Hearing.lanes captures.hear)
    rw [armed]
    refine ⟨⟨some ctx, ?_⟩, fun m other => (laneAt_setLane_other b _ other).trans (same m)⟩
    rw [← same]
    exact laneAt_setLane_self ..

theorem armLane_onlyServes : onlyServes captureCounters s (armLane s n d) := by
  obtain ⟨b, captures, armed | ⟨ctx, armed⟩⟩ := armLane_cases s n d
  · exact armed ▸ captures.serves
  · rw [armed]
    exact captures.serves.trans (.of_rest rfl rfl rfl rfl)

/-- A lane that a detection takes, once it may have been armed. -/
def laneTaken : State := (allocate s n d overlap reserved).onlyIf (decide (n < 256)) fun s => armLane s n d

theorem laneTaken_lanes : (∃ l, laneAt (laneTaken s n d overlap reserved) n = l ∧ l.stage = .acquire ∧ l.fe = d.fe ∧
    l.bin = d.bin ∧ l.mode = d.mode ∧ l.overlap = overlap ∧ l.timingNs = d.timing) ∧
      ∀ m, m ≠ n → laneAt (laneTaken s n d overlap reserved) m = laneAt s m := by
  obtain ⟨⟨l, taken, shown⟩, others⟩ := allocate_lanes s n d overlap reserved
  unfold laneTaken State.onlyIf
  split
  · obtain ⟨⟨ctx, armed⟩, kept⟩ := armLane_lanes (allocate s n d overlap reserved) n d
    rw [taken] at armed
    exact ⟨⟨_, armed, shown⟩, fun m other => (kept m other).trans (others m other)⟩
  · exact ⟨⟨l, taken, shown⟩, others⟩

theorem laneTaken_onlyServes : onlyServes captureCounters s (laneTaken s n d overlap reserved) := by
  have allocated : onlyServes captureCounters s (allocate s n d overlap reserved) := .of_rest rfl rfl rfl rfl
  unfold laneTaken State.onlyIf
  split
  · exact allocated.trans (armLane_onlyServes ..)
  · exact allocated

end Take

section Missed
variable (s : State) (d : Detect)

theorem noLane_frame : onlyServes servedCounters s (noLane s d) ∧ (noLane s d).counters = s.counters ∧
    (noLane s d).hear.lanes = s.hear.lanes := ⟨.of_rest rfl rfl rfl rfl, rfl, rfl⟩

/-- A detection of a copy that is suppressed is counted, and still suppresses its detector (R151, R155). -/
def copySuppressed : State := noLane (s.count Ctr.DIV_SUPPRESS) d

theorem copySuppressed_shows : onlyServes servedCounters s (copySuppressed s d) ∧
    countedOnce s (copySuppressed s d) Ctr.DIV_SUPPRESS ∧ (copySuppressed s d).hear.lanes = s.hear.lanes := by
  obtain ⟨serves, counters, lanes⟩ := noLane_frame (s.count Ctr.DIV_SUPPRESS) d
  exact ⟨(onlyServes.count s (by decide)).trans serves, congrArg (Cells.get · Ctr.DIV_SUPPRESS 0) counters,
    lanes.trans (by simp only [State.count_frame])⟩

/-- The window of LANE_MISS that a miss falls in, and whether it is the window's first. -/
def missWindowOf : MsWindow × Bool := (Cells.get s.hear.missWindow d.fe {}).add s.msNow

/-- A detection that no lane takes enters the window of LANE_MISS, and still suppresses its detector (R151, R176). -/
def missNoted : State :=
  noLane { s with hear := { s.hear with missWindow := Cells.set s.hear.missWindow d.fe (missWindowOf s d).1 {} } } d

theorem missNoted_frame : onlyServes servedCounters s (missNoted s d) ∧ (missNoted s d).counters = s.counters ∧
    (missNoted s d).hear.lanes = s.hear.lanes := ⟨.of_rest rfl rfl rfl rfl, rfl, rfl⟩

/-- A miss is counted, and the first of a window is reported (R156, R176). -/
def missReported : State :=
  if (missWindowOf s d).2 then (missNoted s d).event Ev.LANE_MISS Block.CHAN (at' d.fe 2 46 + at' d.bin 8 38 +
    at' (b2n (recoveryOn (missNoted s d))) 1 37 + at' (min (missWindowOf s d).1.previous 65535) 16 16)
  else (missNoted s d).count Ev.LANE_MISS

theorem laneMiss_eq (overlap : Bool) : laneMiss s d overlap =
    captureDetection (missReported s d) d (overlapCause overlap ++ [2]) := rfl

theorem missReported_shows : onlyServes servedCounters s (missReported s d) ∧ countedOnce s (missReported s d) Ev.LANE_MISS ∧
    (missReported s d).hear.lanes = s.hear.lanes := by
  obtain ⟨serves, counters, lanes⟩ := missNoted_frame s d
  unfold missReported
  split
  · exact ⟨serves.trans (.event _ _ _ (by decide)), countedOnce_congr (State.event_countedOnce ..) counters,
      (congrArg Hearing.lanes (State.event_rest ..).2.1).trans lanes⟩
  · have counted : countedOnce (missNoted s d) ((missNoted s d).count Ev.LANE_MISS) Ev.LANE_MISS := Eq.refl _
    exact ⟨serves.trans (.count _ (by decide)), countedOnce_congr counted counters,
      Eq.trans (by simp only [State.count_frame]) lanes⟩

end Missed

/-- The state in which a detection is served: OVERLAP is marked where another frame stands at its detector. -/
def overlapMarked (s : State) (d : Detect) : State := s.onlyIf (overlaps s d) fun s => markOverlap s d.fe d.bin

section Serve
variable {s : State} {d : Detect}

theorem overlapMarked_onlyOverlap : onlyOverlap s (overlapMarked s d) :=
  State.onlyIf_keeps (P := onlyOverlap s) _ _ _ (onlyOverlap_refl s) fun _ => markOverlap_onlyOverlap s d.fe d.bin

theorem overlapMarked_onlyServes : onlyServes servedCounters s (overlapMarked s d) :=
  State.onlyIf_keeps (P := onlyServes servedCounters s) _ _ _ (.refl s) fun _ => .of_rest rfl rfl rfl rfl

theorem serveDetection_eq : serveDetection s d =
    if divSuppressed s d then captureDetection (copySuppressed (overlapMarked s d) d) d (overlapCause (overlaps s d))
    else match matchingReservation s d.fe d.bin with
      | some n => takeLane (overlapMarked s d) n d (overlaps s d) true
      | none => match laneForDetection s (isWide d.fe) with
        | some n => takeLane (overlapMarked s d) n d (overlaps s d) false
        | none => laneMiss (overlapMarked s d) d (overlaps s d) := by
  have marked := overlapMarked_onlyOverlap (s := s) (d := d)
  rw [← marked.divSuppressed_eq, ← marked.matchingReservation_eq, ← marked.laneForDetection_eq]
  rfl

theorem captureDetection_served (s : State) (d : Detect) (causes : List Nat) :
    onlyServes servedCounters s (captureDetection s d causes) :=
  (captureDetection_onlyCaptures s d causes).serves.mono (by decide)

theorem takeLane_onlyServes (s : State) (n : Nat) (d : Detect) (overlap reserved : Bool) :
    onlyServes servedCounters s (takeLane s n d overlap reserved) :=
  ((laneTaken_onlyServes s n d overlap reserved).mono (by decide)).trans (captureDetection_served ..)

/-- Whatever comes of a detection, the frames that have passed step 5 and LP4X outside the capture region are kept. -/
theorem serveDetection_onlyServes : onlyServes servedCounters s (serveDetection s d) := by
  rw [serveDetection_eq]
  refine (overlapMarked_onlyServes (d := d)).trans ?_
  split
  · exact (copySuppressed_shows ..).1.trans (captureDetection_served ..)
  split
  · exact takeLane_onlyServes ..
  split
  · exact takeLane_onlyServes ..
  · rw [laneMiss_eq]
    exact (missReported_shows ..).1.trans (captureDetection_served ..)

/-- A lane of a state reached from the marked one without a change of lanes is the lane before but for OVERLAP. -/
theorem laneAt_of_marked {t : State} {m : Nat} (h : laneAt t m = laneAt (overlapMarked s d) m) :
    { laneAt t m with overlap := (laneAt s m).overlap } = laneAt s m := by
  rw [h]
  exact overlapMarked_onlyOverlap.laneAt_eq m

theorem laneAt_captureDetection (s : State) (d : Detect) (causes : List Nat) (m : Nat) :
    laneAt (captureDetection s d causes) m = laneAt s m :=
  laneAt_congr (congrArg Hearing.lanes (captureDetection_onlyCaptures s d causes).hear) m

theorem countedOnce_captureDetection {a b : State} {c : Nat} (h : countedOnce b a c) (other : c ∉ captureCounters) (d : Detect)
    (causes : List Nat) : countedOnce b (captureDetection a d causes) c :=
  ((captureDetection_onlyCaptures a d causes).serves.counter_eq c other).trans h

theorem overlapMarked_counters : (overlapMarked s d).counters = s.counters :=
  State.onlyIf_keeps (P := fun t => t.counters = s.counters) _ _ _ rfl fun _ => rfl

theorem serveDetection_suppressed (copy : divSuppressed s d = true) : countedOnce s (serveDetection s d) Ctr.DIV_SUPPRESS ∧
    ∀ m, { laneAt (serveDetection s d) m with overlap := (laneAt s m).overlap } = laneAt s m := by
  obtain ⟨-, counted, lanes⟩ := copySuppressed_shows (overlapMarked s d) d
  rw [serveDetection_eq, if_pos copy]
  exact ⟨countedOnce_captureDetection (countedOnce_congr counted overlapMarked_counters) (by decide) d _,
    fun m => laneAt_of_marked ((laneAt_captureDetection ..).trans (laneAt_congr lanes m))⟩

variable (single : divSuppressed s d = false)
include single

theorem serveDetection_taken {n : Nat} (lane : matchingReservation s d.fe d.bin = some n ∨
      matchingReservation s d.fe d.bin = none ∧ laneForDetection s (isWide d.fe) = some n) :
    (∃ l, laneAt (serveDetection s d) n = l ∧ l.stage = .acquire ∧ l.fe = d.fe ∧ l.bin = d.bin ∧ l.mode = d.mode ∧
      l.overlap = overlaps s d ∧ l.timingNs = d.timing) ∧
    ∀ m, m ≠ n → { laneAt (serveDetection s d) m with overlap := (laneAt s m).overlap } = laneAt s m := by
  obtain ⟨reserved, taken⟩ : ∃ reserved, serveDetection s d =
      captureDetection (laneTaken (overlapMarked s d) n d (overlaps s d) reserved) d (overlapCause (overlaps s d)) := by
    rw [serveDetection_eq, if_neg (Bool.eq_false_iff.1 single)]
    rcases lane with held | ⟨none, lowest⟩
    · exact ⟨true, by rw [held]; rfl⟩
    · exact ⟨false, by rw [none, lowest]; rfl⟩
  obtain ⟨⟨l, own, shown⟩, others⟩ := laneTaken_lanes (overlapMarked s d) n d (overlaps s d) reserved
  rw [taken]
  exact ⟨⟨l, (laneAt_captureDetection ..).trans own, shown⟩,
    fun m other => laneAt_of_marked ((laneAt_captureDetection ..).trans (others m other))⟩

theorem serveDetection_missed (unreserved : matchingReservation s d.fe d.bin = none)
    (full : laneForDetection s (isWide d.fe) = none) : countedOnce s (serveDetection s d) Ev.LANE_MISS ∧
      ∀ m, { laneAt (serveDetection s d) m with overlap := (laneAt s m).overlap } = laneAt s m := by
  obtain ⟨-, counted, lanes⟩ := missReported_shows (overlapMarked s d) d
  have missed : serveDetection s d =
      captureDetection (missReported (overlapMarked s d) d) d (overlapCause (overlaps s d) ++ [2]) := by
    rw [serveDetection_eq, if_neg (Bool.eq_false_iff.1 single), unreserved, full, ← laneMiss_eq]
  rw [missed]
  exact ⟨countedOnce_captureDetection (countedOnce_congr counted overlapMarked_counters) (by decide) d _,
    fun m => laneAt_of_marked ((laneAt_captureDetection ..).trans (laneAt_congr lanes m))⟩

end Serve

/-! Detections of one cycle (R150, R154). -/

section Detections
variable (s : State) (dt : Nat)

theorem detection_eq (ds : List Detect) : exec (.detection dt ds) s = step' dt s fun s =>
    (sortBy sooner ds).foldl (fun s d => s.onlyIf (declares s d) fun s => serveDetection s d) s := by
  unfold exec execDetection
  rfl

theorem detection_none : completes (.detection dt []) s fun t => t = s.advance dt :=
  completes_of_effect (r := s.advance dt) (detection_eq s dt []) rfl rfl rfl rfl

theorem detection_one (d : Detect) : exec (.detection dt [d]) s =
    step' dt s fun s => s.onlyIf (declares s d) fun s => serveDetection s d := detection_eq s dt [d]

theorem detection_undeclared {d : Detect} (silent : declares (s.advance dt) d = false) :
    completes (.detection dt [d]) s fun t => t = s.advance dt :=
  completes_of_effect (r := s.advance dt) (detection_one s dt d) (by rw [silent, State.onlyIf_false]) rfl rfl rfl

theorem detection_served {d : Detect} {post : State → Prop} (declared : declares (s.advance dt) d = true)
    (hp : post (serveDetection (s.advance dt) d)) : completes (.detection dt [d]) s post := by
  obtain ⟨clock, queue⟩ := (serveDetection_onlyServes (s := s.advance dt) (d := d)).clock_eq
  exact completes_of_effect (detection_one s dt d) (State.onlyIf_of declared rfl) clock queue hp

/-- The sooner of two detections is served first, whichever is given first. -/
theorem detection_order {d e : Detect} (first : sooner e d = true) (later : sooner d e = false) :
    exec (.detection dt [d, e]) s = exec (.detection dt [e, d]) s := by
  have sorted : sortBy sooner [d, e] = sortBy sooner [e, d] := by simp [sortBy, insertBy, first, later]
  rw [detection_eq, detection_eq, sorted]

end Detections

end Sys2Proof.Machine
end

section
/-!
SUPPORT. Reservations of lanes and the states of a lane from ACQUIRE to PAYLOAD (R152, R153, R157 to R164, R192). Then the statement
about detections and lanes.
-/

namespace Sys2Proof.Machine

/-! A lane takes a new value. -/

theorem onlyLane_of_lanes {a t : State} {n : Nat} {l : Lane} (lanes : t.hear.lanes = Cells.set a.hear.lanes n l {})
    (rest : { t with hear := { t.hear with lanes := a.hear.lanes } } = a) : onlyLane a t n l :=
  ⟨by rw [laneAt, lanes, Cells.get_set_self], fun m other => by rw [laneAt, lanes, Cells.get_set_other _ _ _ _ other, laneAt], rest⟩

theorem onlyLane_setLane (a : State) (n : Nat) (l : Lane) : onlyLane a (setLane a n l) n l := onlyLane_of_lanes rfl rfl

theorem setLane_completes {i : Instr} {s : State} {dt n : Nat} {l : Lane} {c : State → Bool} {k : State → State}
    (h : exec i s = whenever dt s c k) (acts : c (s.advance dt) = true) (effect : k (s.advance dt) = setLane (s.advance dt) n l) :
    completes i s fun t => onlyLane (s.advance dt) t n l :=
  completes_of_whenever h acts effect rfl rfl (onlyLane_setLane ..)

/-! Reservations (R153). -/

/-- The reservations of `cell` whose windows have ended are gone, whether a lane held them or they were pending. -/
def windowsEnded (s : State) (cell : Nat) : State :=
  { s with hear := { s.hear with
    lanes := s.hear.lanes.filter fun e =>
      !(decide (e.2.stage = LaneStage.reserved ∧ e.2.cell = cell) && decide (e.2.windowTo ≤ antennaNs s e.2.fe)),
    pendingRsv := s.hear.pendingRsv.filter fun p => !(decide (p.cell = cell) && decide (p.windowTo ≤ antennaNs s p.fe)) } }

/-- How many pending reservations of `cell` end with their windows. -/
def windowsMissed (s : State) (cell : Nat) : Nat :=
  (s.hear.pendingRsv.filter fun p => decide (p.cell = cell) && decide (p.windowTo ≤ antennaNs s p.fe)).length

theorem windowsEnded_lanes {s : State} {cell : Nat} {e : Nat × Lane} (mem : e ∈ (windowsEnded s cell).hear.lanes)
    (stage : e.2.stage = .reserved) (held : e.2.cell = cell) : antennaNs s e.2.fe < e.2.windowTo := by
  have kept := (List.mem_filter.1 mem).2
  simpa [stage, held] using kept

theorem execRsvWindowEnd_eq (s : State) (dt cell : Nat) : exec (.rsvWindowEnd dt cell) s = step' dt s fun s =>
    (windowsEnded s cell).onlyIf (windowsMissed s cell ≠ 0) fun t => t.count Ctr.RSV_MISS (windowsMissed s cell) := by
  unfold exec execRsvWindowEnd
  rfl

section Reservation
variable {s : State} (dt : Nat) {p : PendingRsv} (alone : s.hear.pendingRsv = [p])
include alone

theorem windowsMissed_alone (ended : p.windowTo ≤ antennaNs s p.fe) : windowsMissed s p.cell = 1 := by
  simp [windowsMissed, alone, ended]

theorem windowsEnded_alone (ended : p.windowTo ≤ antennaNs s p.fe) : (windowsEnded s p.cell).hear.pendingRsv = [] := by
  simp [windowsEnded, alone, ended]

/-- The pending reservation whose window has ended is dropped, with the lanes its cell still holds past their windows. -/
theorem rsvWindowEnd_drops (ended : p.windowTo ≤ antennaNs (s.advance dt) p.fe) : completes (.rsvWindowEnd dt p.cell) s fun t =>
    t.hear.pendingRsv = [] ∧ countedOnce s t Ctr.RSV_MISS ∧ ∀ e ∈ t.hear.lanes, e.2.stage = .reserved →
      e.2.cell = p.cell → antennaNs (s.advance dt) e.2.fe < e.2.windowTo := by
  have hear : ((windowsEnded (s.advance dt) p.cell).count Ctr.RSV_MISS).hear = (windowsEnded (s.advance dt) p.cell).hear := by
    simp only [State.count_frame]
  have counted : countedOnce (windowsEnded (s.advance dt) p.cell) ((windowsEnded (s.advance dt) p.cell).count Ctr.RSV_MISS)
    Ctr.RSV_MISS := Eq.refl _
  have pending : (s.advance dt).hear.pendingRsv = [p] := alone
  refine completes_of_effect (execRsvWindowEnd_eq ..)
    (r := (windowsEnded (s.advance dt) p.cell).count Ctr.RSV_MISS) ?_
    (by simp only [State.count_frame]; rfl) (by simp only [State.count_frame]; rfl)
    ⟨?_, countedOnce_congr counted rfl, fun e mem => ?_⟩
  · rw [windowsMissed_alone pending ended]
    rfl
  · rw [hear, windowsEnded_alone pending ended]
  · rw [hear] at mem
    exact windowsEnded_lanes mem

theorem pendingOf_alone : pendingOf s false ++ pendingOf s true = if antennaNs s p.fe < p.windowTo then [p] else [] := by
  unfold pendingOf
  rw [alone]
  by_cases runs : antennaNs s p.fe < p.windowTo <;> cases wide : isWide p.fe <;> simp [List.filter, runs, wide, sortBy, insertBy]

/-- A pending reservation that a free lane takes. -/
def reservationServed (s : State) (n : Nat) (p : PendingRsv) : State :=
  grantReservation { s with hear := { s.hear with pendingRsv := s.hear.pendingRsv.filter (· ≠ p) } } n p

theorem pendingReservationServed_waits (ended : p.windowTo ≤ antennaNs (s.advance dt) p.fe) :
    completes (.pendingReservationServed dt) s fun t => t = s.advance dt := by
  have none := (pendingOf_alone (s := s.advance dt) alone).trans (if_neg (Nat.not_lt.2 ended))
  refine completes_of_effect (r := s.advance dt) (by unfold exec execPendingReservationServed; rfl) ?_ rfl rfl rfl
  rw [none]
  rfl

theorem pendingReservationServed_serves (runs : antennaNs (s.advance dt) p.fe < p.windowTo) {n : Nat}
    (lane : (freeLanes s (isWide p.fe)).head? = some n) : completes (.pendingReservationServed dt) s fun t =>
      t.hear.pendingRsv = [] ∧ onlyLane (s.advance dt) { t with hear := { t.hear with pendingRsv := [p] } } n
        { stage := .reserved, fe := p.fe, bin := p.bin, cell := p.cell, windowFrom := p.windowFrom, windowTo := p.windowTo } := by
  have waits := (pendingOf_alone (s := s.advance dt) alone).trans (if_pos runs)
  have lane : (freeLanes (s.advance dt) (isWide p.fe)).head? = some n := lane
  have unfilled : (!(freeLanes (s.advance dt) (isWide p.fe)).isEmpty) = true := by
    obtain ⟨rest, lanes⟩ := List.head?_eq_some_iff.1 lane
    rw [lanes]
    rfl
  refine completes_of_effect (r := reservationServed (s.advance dt) n p) (by unfold exec execPendingReservationServed; rfl) ?_ rfl
    rfl ⟨?_, onlyLane_of_lanes rfl ?_⟩
  · simp only [waits, List.find?_cons, unfilled, lane]
    rfl
  · show s.hear.pendingRsv.filter (· ≠ p) = []
    simp [alone]
  · rw [← alone]
    rfl

end Reservation

/-! From ACQUIRE to HEADER (R157, R159, R162, R163). -/

/-- May a sync word that began at `began` at the pins end a lane's acquisition? -/
def syncAccepts (s : State) (l : Lane) (sync began : Nat) : Bool :=
  decide (l.stage = .acquire ∨ l.stage = .syncSearch) && syncAccepted s l sync && decide (pipeNs l.fe ≤ began) &&
    syncTimely s l (began - pipeNs l.fe)

/-- A lane whose sync word is accepted: the frequency estimate and the RSSI of the sixteen symbols, once taken, are held. -/
def syncedLane (s : State) (l : Lane) (m : LaneMeasure) (steps : List EqStep) : Lane :=
  { l with stage := .header, afc := if l.stage = .acquire then afcOf l.fe m.afc else l.afc
           rssi := if l.stage = .acquire then atAntenna s l.fe m.power else l.rssi, lq := lqOf m.snr
           syncNs := m.syncAt - pipeNs l.fe, eq := { steps.foldl eqStep l.eq with tracking := true } }

theorem execSyncFound_eq (s : State) (dt n sync : Nat) (m : LaneMeasure) (steps : List EqStep) :
    exec (.syncFound dt n sync m steps) s = whenever dt s (fun s => syncAccepts s (laneAt s n) sync m.syncAt) fun s =>
      setLane s n (syncedLane s (laneAt s n) m steps) := by
  unfold exec execSyncFound syncedLane
  simp only [decide_eq_true_eq]
  rfl

section Lanes
variable {s : State} {dt n : Nat} {l : Lane} (place : laneAt s n = l)
include place

section Sync
variable {sync : Nat} {m : LaneMeasure} (steps : List EqStep)

theorem syncFound_refused (refused : syncAccepted s l sync = false) :
    completes (.syncFound dt n sync m steps) s fun t => t = s.advance dt := by
  subst place
  refine completes_of_whenever_idle (execSyncFound_eq ..) ?_
  rw [syncAccepts, show syncAccepted (s.advance dt) (laneAt (s.advance dt) n) sync = false from refused]
  simp only [Bool.and_false, Bool.false_and]

variable (accepted : syncAccepted s l sync = true) (began : pipeNs l.fe ≤ m.syncAt)
  (timely : syncTimely (s.advance dt) l (m.syncAt - pipeNs l.fe) = true)
include accepted began timely

theorem syncFound_completes (stage : l.stage = .acquire ∨ l.stage = .syncSearch) :
    completes (.syncFound dt n sync m steps) s fun t => onlyLane (s.advance dt) t n (syncedLane s l m steps) := by
  have accepts : syncAccepts (s.advance dt) l sync m.syncAt = true :=
    Bool.and_eq_true_iff.2 ⟨Bool.and_eq_true_iff.2 ⟨Bool.and_eq_true_iff.2 ⟨decide_eq_true stage, accepted⟩, decide_eq_true began⟩,
      timely⟩
  subst place
  exact setLane_completes (execSyncFound_eq ..) accepts rfl

theorem syncFound_acquired (stage : l.stage = .acquire) : completes (.syncFound dt n sync m steps) s fun t =>
    onlyLane (s.advance dt) t n
      { l with stage := .header, afc := afcOf l.fe m.afc, rssi := atAntenna s l.fe m.power, lq := lqOf m.snr
               syncNs := m.syncAt - pipeNs l.fe, eq := { steps.foldl eqStep l.eq with tracking := true } } := by
  have completed := syncFound_completes place steps accepted began timely (.inl stage)
  rwa [syncedLane, if_pos stage, if_pos stage] at completed

theorem syncFound_searched (stage : l.stage = .syncSearch) : completes (.syncFound dt n sync m steps) s fun t =>
    onlyLane (s.advance dt) t n { l with stage := .header, lq := lqOf m.snr, syncNs := m.syncAt - pipeNs l.fe
                                         eq := { steps.foldl eqStep l.eq with tracking := true } } := by
  have completed := syncFound_completes place steps accepted began timely (.inr stage)
  have searching : l.stage ≠ .acquire := by rw [stage]; decide
  rwa [syncedLane, if_neg searching, if_neg searching] at completed

end Sync

theorem acquireEnd_completes (stage : l.stage = .acquire) (ended : l.allocNs + symbolsNs l.mode 16 ≤ antennaNs (s.advance dt) l.fe)
    (afc power : Int) (steps : List EqStep) : completes (.acquireEnd dt n afc power steps) s fun t => onlyLane (s.advance dt) t n
      { l with stage := .syncSearch, afc := afcOf l.fe afc, rssi := atAntenna s l.fe power, eq := steps.foldl eqStep l.eq } := by
  subst place
  refine setLane_completes (by unfold exec execAcquireEnd; rfl) ?_ ?_
  · exact decide_eq_true ⟨stage, ended⟩
  · rfl

end Lanes

/-! What the end of a frame leaves of the contexts it was armed on (R219, R222, R736). -/

/-- `t` is `a` but for the capture contexts. -/
def onlyContexts (a t : State) : Prop := { t with ox := { t.ox with contexts := a.ox.contexts } } = a

namespace onlyContexts
variable {a b t : State}

theorem refl (a : State) : onlyContexts a a := Eq.refl a

theorem trans (h : onlyContexts a b) (k : onlyContexts b t) : onlyContexts a t := by
  unfold onlyContexts at h k ⊢
  rw [← k] at h
  exact h

theorem setCtx (s : State) (n : Nat) (c : Context) : onlyContexts s (setCtx s n c) := Eq.refl s

theorem recordCtx (s : State) (n trigger : Nat) : onlyContexts s (recordCtx s n trigger) := by
  unfold Machine.recordCtx
  dsimp only
  split
  · exact setCtx s n _
  · exact refl s

theorem laneTrigger (s : State) (ctx : Option Nat) (claim cause : Nat) : onlyContexts s (laneTrigger s ctx claim cause) := by
  unfold Machine.laneTrigger
  split
  · exact refl s
  · exact State.onlyIf_keeps (P := onlyContexts s) _ _ _ (refl s) fun _ => recordCtx ..

theorem disarm (s : State) (ctx : Option Nat) (claim : Nat) : onlyContexts s (disarm s ctx claim) := by
  unfold Machine.disarm
  split
  · exact refl s
  · dsimp only
    split
    · exact setCtx ..
    · exact setCtx ..

theorem rest (h : onlyContexts a t) : t.hear = a.hear ∧ t.ox.jobs = a.ox.jobs ∧ t.counters = a.counters ∧ t.tick = a.tick ∧
    t.pending = a.pending := by
  have hear := congrArg State.hear h
  have jobs := congrArg (fun s : State => s.ox.jobs) h
  have counters := congrArg State.counters h
  have clock := congrArg State.tick h
  have queue := congrArg State.pending h
  exact ⟨hear, jobs, counters, clock, queue⟩

end onlyContexts

/-! A timeout (R157). -/

section Timeout
variable {s : State} {dt n : Nat} {l : Lane} (place : laneAt s n = l)
include place

theorem syncTimeout_completes (stage : l.stage = .acquire ∨ l.stage = .syncSearch)
    (ended : l.allocNs + symbolsNs l.mode l.syncWait ≤ antennaNs (s.advance dt) l.fe) :
    completes (.syncTimeout dt n) s fun t => countedOnce s t Ctr.SYNC_MISS ∧
      onlyLane (s.advance dt) { t with counters := s.counters, ox := s.ox } n {} := by
  subst place
  let u := disarm (freeLane (s.advance dt) n) (laneAt s n).context (laneAt s n).claim
  have contexts : onlyContexts (freeLane (s.advance dt) n) u := .disarm ..
  obtain ⟨-, -, counters, clock, queue⟩ := contexts.rest
  have counted : countedOnce u (u.count Ctr.SYNC_MISS) Ctr.SYNC_MISS := Eq.refl _
  have freed : { u.count Ctr.SYNC_MISS with counters := s.counters, ox := s.ox } = freeLane (s.advance dt) n := by
    simp only [State.count_frame]
    exact congrArg (fun t : State => { t with counters := s.counters, ox := s.ox }) contexts
  refine completes_of_whenever (r := u.count Ctr.SYNC_MISS) (by unfold exec execSyncTimeout; rfl) ?_ rfl ?_ ?_
    ⟨countedOnce_congr counted counters, ?_⟩
  · exact decide_eq_true ⟨stage, ended⟩
  · simp only [State.count_frame]
    exact clock
  · simp only [State.count_frame]
    exact queue
  · rw [freed]
    exact onlyLane_setLane ..

end Timeout

/-! The header (R164, R165, R191, R192). -/

theorem Cells.mem_insert {α : Type} (m : List (Nat × α)) (k : Nat) (v : α) : (k, v) ∈ Cells.insert m k v := by
  induction m with
  | nil => exact List.mem_singleton_self _
  | cons e m ih =>
    rw [Cells.insert]
    split_ifs
    · exact List.mem_cons_self ..
    · exact List.mem_cons_self ..
    · exact List.mem_cons_of_mem _ ih

/-- The frame of an accepted header at the lane's decoder, with its descriptor (R165). -/
def headerJob (l : Lane) (h : Accepted) : DecodeJob :=
  { claim := l.claim, fe := l.fe, bin := l.bin, mode := l.mode, seq := h.seq, cr := h.cr, z := h.z, len := h.len
    fcs2 := h.fcs2, afc := l.afc, rssi := l.rssi, lq := l.lq, overlap := l.overlap, syncNs := l.syncNs
    endNs := l.syncNs - preambleNs l.mode + h.air256 * 1000 / 256, context := l.context }

/-- A lane that receives the payload of an accepted header. -/
def payloadLane (l : Lane) (h : Accepted) (steps : List EqStep) : Lane :=
  { l with stage := .payload, endNs := l.syncNs - preambleNs l.mode + h.air256 * 1000 / 256, eq := steps.foldl eqStep l.eq }

theorem noteHeader_rest (s : State) (h : Heard) : { noteHeader s h with ox := s.ox } = s ∧
    (noteHeader s h).ox.jobs = s.ox.jobs := by
  unfold noteHeader
  dsimp only
  split <;> exact ⟨rfl, rfl⟩

section HeaderPass
variable (s : State) (n : Nat) (l : Lane) (h : Accepted) (steps : List EqStep)

theorem headerPass_shows : (headerPass s n l h steps).ox.jobs = Cells.insert s.ox.jobs n (headerJob l h) ∧
    { headerPass s n l h steps with ox := s.ox } = setLane s n (payloadLane l h steps) := by
  unfold headerPass State.onlyIf
  dsimp only
  split
  · obtain ⟨rest, jobs⟩ := noteHeader_rest
      { setLane s n (payloadLane l h steps) with ox := { s.ox with jobs := Cells.insert s.ox.jobs n (headerJob l h) } }
      { claim := l.claim, fe := l.fe, bin := l.bin, mode := l.mode, firstNs := l.syncNs - preambleNs l.mode
        endNs := l.syncNs - preambleNs l.mode + h.air256 * 1000 / 256, syncNs := l.syncNs, rssi := l.rssi }
    have rest := congrArg (fun t : State => { t with ox := s.ox }) rest
    exact ⟨jobs, rest⟩
  · exact ⟨rfl, rfl⟩

end HeaderPass

section HeaderFail
variable (s : State) (n : Nat) (l : Lane)

theorem headerFail_shows : laneAt (headerFail s n l) n = {} ∧ (headerFail s n l).ox.jobs = s.ox.jobs ∧
    countedOnce s (headerFail s n l) Ctr.HDR_FAIL ∧ (headerFail s n l).tick = s.tick ∧ (headerFail s n l).pending = s.pending := by
  have contexts := (onlyContexts.laneTrigger (freeLane s n) l.context l.claim 3).trans (.disarm _ l.context l.claim)
  obtain ⟨hear, jobs, counters, clock, queue⟩ := contexts.rest
  have lanes : (headerFail s n l).hear.lanes = (freeLane s n).hear.lanes := by
    unfold headerFail
    simp only [State.count_frame, hear]
  refine ⟨(laneAt_congr lanes n).trans (laneAt_setLane_self ..), ?_⟩
  unfold headerFail
  simp only [State.count_frame]
  exact ⟨jobs, countedOnce_congr (Eq.refl _) counters, clock, queue⟩

end HeaderFail

/-- What the end of a lane's header leads to. -/
def headerEnded (s : State) (n : Nat) (l : Lane) (steps : List EqStep) : Option Accepted → State
  | none => headerFail s n l
  | some x => headerPass s n l x steps

theorem execHeaderDecoded_eq (s : State) (dt n : Nat) (h : PhyHeader) (steps : List EqStep) :
    exec (.headerDecoded dt n h steps) s = whenever dt s
      (fun s => decide ((laneAt s n).stage = .header ∧ (laneAt s n).syncNs + syncNsOf (laneAt s n).mode +
        headerNsOf (laneAt s n).mode ≤ antennaNs s (laneAt s n).fe) && (s.ox.jobs.all fun e => decide (e.1 ≠ n)))
      fun s => headerEnded s.drawn n (laneAt s n) steps
        (headerAccept s (laneAt s n).fe (laneAt s n).bin (laneAt s n).mode (laneAt s n).maxAirtime s.free h) := by
  unfold exec execHeaderDecoded headerEnded
  rfl

section Header
variable {s : State} {dt n : Nat} {l : Lane} {h : PhyHeader} (steps : List EqStep) (place : laneAt s n = l)
  (stage : l.stage = .header)
  (ended : l.syncNs + syncNsOf l.mode + headerNsOf l.mode ≤ antennaNs (s.advance dt) l.fe) (idle : ∀ e ∈ s.ox.jobs, e.1 ≠ n)
include place stage ended idle

theorem headerDecoded_completes {r : State} {post : State → Prop} (effect : headerEnded (s.advance dt).drawn n l steps
      (headerAccept s l.fe l.bin l.mode l.maxAirtime s.free h) = r) (clock : r.tick = s.tick + dt) (queue : r.pending = s.pending)
    (hp : post r) : completes (.headerDecoded dt n h steps) s post := by
  subst place
  refine completes_of_whenever (execHeaderDecoded_eq ..) ?_ effect clock queue hp
  exact Bool.and_eq_true_iff.2 ⟨decide_eq_true ⟨stage, ended⟩, List.all_eq_true.2 fun e he => decide_eq_true (idle e he)⟩

theorem headerDecoded_passes {x : Accepted} (accepted : headerAccept s l.fe l.bin l.mode l.maxAirtime s.free h = some x) :
    completes (.headerDecoded dt n h steps) s fun t => (n, headerJob l x) ∈ t.ox.jobs ∧
      onlyLane (s.advance dt) { t with ox := s.ox, freeCtr := s.freeCtr } n (payloadLane l x steps) := by
  obtain ⟨jobs, rest⟩ := headerPass_shows (s.advance dt).drawn n l x steps
  have clock := congrArg State.tick rest
  have queue := congrArg State.pending rest
  have passed : { headerPass (s.advance dt).drawn n l x steps with ox := s.ox, freeCtr := s.freeCtr } =
      setLane (s.advance dt) n (payloadLane l x steps) := congrArg (fun t : State => { t with freeCtr := s.freeCtr }) rest
  refine headerDecoded_completes steps place stage ended idle (r := headerPass (s.advance dt).drawn n l x steps)
    (by rw [accepted]; rfl) clock queue ⟨jobs ▸ Cells.mem_insert .., ?_⟩
  rw [passed]
  exact onlyLane_setLane ..

theorem headerDecoded_fails (refused : headerAccept s l.fe l.bin l.mode l.maxAirtime s.free h = none) :
    completes (.headerDecoded dt n h steps) s fun t =>
      countedOnce s t Ctr.HDR_FAIL ∧ t.ox.jobs = s.ox.jobs ∧ laneAt t n = {} := by
  obtain ⟨lane, jobs, counted, clock, queue⟩ := headerFail_shows (s.advance dt).drawn n l
  exact headerDecoded_completes steps place stage ended idle (by rw [refused]; rfl) clock queue
    ⟨countedOnce_congr counted rfl, jobs, lane⟩

end Header

/-! The end of a frame (R157, R735). -/

section PayloadEnd
variable {s : State} {dt n : Nat} {l : Lane} (place : laneAt s n = l)
include place

theorem lanePayloadEnd_frees (stage : l.stage = .payload) (ended : l.endNs + feNs l.fe ≤ (s.advance dt).time.ns) :
    completes (.lanePayloadEnd dt n) s fun t => onlyLane (s.advance dt) t n {} := by
  subst place
  refine setLane_completes (by unfold exec execLanePayloadEnd; rfl) ?_ ?_
  · exact decide_eq_true ⟨stage, ended⟩
  · rfl

theorem lanePayloadEnd_waits (early : (s.advance dt).time.ns < l.endNs + feNs l.fe) :
    completes (.lanePayloadEnd dt n) s fun t => t = s.advance dt := by
  subst place
  refine completes_of_whenever_idle (by unfold exec execLanePayloadEnd; rfl) ?_
  exact decide_eq_false fun due => absurd due.2 (Nat.not_le.2 early)

end PayloadEnd

/-! An injection (R82, R157, R158). -/

theorem laneInjectStart_takes {s : State} {dt k : Nat}
    (lowest : (openLanes (s.advance dt) false ++ openLanes (s.advance dt) true).head? = some k) :
    completes (.laneInjectStart dt) s fun t => onlyLane (s.advance dt) t k { stage := .inject } := by
  refine completes_of_effect (r := setLane (s.advance dt) k { stage := .inject }) (by unfold exec execLaneInjectStart; rfl) ?_ rfl
    rfl (onlyLane_setLane ..)
  rw [lowest]

theorem bit_setBit (x : Nat) {i w : Nat} (lt : i < w) : bit ((x ||| 2 ^ i) % 2 ^ w) i = true := by
  rw [bit, ← Nat.testBit_eq_decide_div_mod_eq, Nat.testBit_mod_two_pow, Nat.testBit_or, Nat.testBit_two_pow_self]
  simp [lt]

/-- The masks of excluded lanes lie above the fields of the EVENT FIFO. -/
theorem laneExcl_apart (i : Nat) {f : Fld} (low : f.key < 0x80040 * 64) : (Reg.CHAN_LANE_EXCL.EXCL i).key ≠ f.key := by
  simp only [Fld.key, Reg.CHAN_LANE_EXCL.EXCL] at low ⊢
  omega

/-- The argument of CAL_FAIL for a lane (R141). -/
theorem bits_at'_calIndex (fe kind phase index : Nat) :
    bits ((at' fe 2 46 + at' kind 4 42 + at' phase 1 41 + at' index 16 0) % 2 ^ 48) 15 0 = index % 65536 := by
  unfold bits at'
  omega

section ExcludeLane
variable (s : State) (n : Nat)

theorem excludeLane_excluded : laneExcluded (excludeLane s n) n = true := by
  rw [laneExcluded, excludeLane, State.setBit, State.get_set_self]
  exact bit_setBit _ (Nat.mod_lt n (by decide))

theorem excludeLane_frame : (excludeLane s n).counters = s.counters ∧ (excludeLane s n).events = s.events ∧
    (excludeLane s n).time = s.time ∧ laneAt (excludeLane s n) n = {} := ⟨rfl, rfl, rfl, laneAt_setLane_self ..⟩

theorem excludeLane_eventEnabled : (excludeLane s n).eventEnabled Ev.CAL_FAIL = s.eventEnabled Ev.CAL_FAIL := by
  have apart := laneExcl_apart (n / 64) (f := Reg.SYS_EVENT_EN.EN (Ev.CAL_FAIL / 64)) (by decide)
  rw [State.eventEnabled, excludeLane, State.setBit, State.get_set_other _ _ _ _ apart.symm]
  rfl

theorem calFail_lanes (fe kind index : Nat) : laneExcluded (calFail s fe kind index) n = laneExcluded s n ∧
    laneAt (calFail s fe kind index) n = laneAt s n := by
  obtain ⟨source, arg, event⟩ : ∃ source arg, calFail s fe kind index = s.event Ev.CAL_FAIL source arg := ⟨_, _, rfl⟩
  obtain ⟨-, hear, -⟩ := State.event_rest s Ev.CAL_FAIL source arg
  rw [event]
  refine ⟨?_, laneAt_congr (congrArg Hearing.lanes hear) n⟩
  rw [laneExcluded, State.event_get_other _ _ _ _ (laneExcl_apart _ (by decide)) (laneExcl_apart _ (by decide)), laneExcluded]

theorem calFail_lane_reports : reports s (calFail (excludeLane s n) 3 8 n) Ev.CAL_FAIL fun arg =>
    bits arg 45 42 = 8 ∧ bits arg 15 0 = n % 65536 := by
  obtain ⟨counters, events, time, -⟩ := excludeLane_frame s n
  exact reports_of_enabled (State.event_reports _ _ _ _ ⟨bits_at'_calKind _ _ _ _ (by decide), bits_at'_calIndex ..⟩)
    (excludeLane_eventEnabled s n) counters events time

end ExcludeLane

section InjectEnd
variable {s : State} {n : Nat} {l : Lane} (dt : Nat) (place : laneAt s n = l) (stage : l.stage = .inject)
include place stage

theorem laneInjectEnd_frees : completes (.laneInjectEnd dt n true) s fun t => onlyLane (s.advance dt) t n {} := by
  subst place
  refine setLane_completes (by unfold exec execLaneInjectEnd; rfl) ?_ ?_
  · exact decide_eq_true stage
  · rfl

theorem laneInjectEnd_excludes : completes (.laneInjectEnd dt n false) s fun t => laneExcluded t n = true ∧ laneAt t n = {} ∧
    reports (s.advance dt) t Ev.CAL_FAIL fun arg => bits arg 45 42 = 8 ∧ bits arg 15 0 = n % 65536 := by
  subst place
  obtain ⟨excluded, lane⟩ := calFail_lanes (excludeLane (s.advance dt) n) n 3 8 n
  obtain ⟨-, clock, queue⟩ := calFail_frame (excludeLane (s.advance dt) n) 3 8 n
  refine completes_of_whenever (r := calFail (excludeLane (s.advance dt) n) 3 8 n) (by unfold exec execLaneInjectEnd; rfl) ?_ rfl
    clock queue ⟨excluded.trans (excludeLane_excluded ..), lane.trans (excludeLane_frame ..).2.2.2, calFail_lane_reports ..⟩
  exact decide_eq_true stage

end InjectEnd

/-! The statement. -/

/-- Settles O27: detections by what is found of lanes and reservations, and a lane by its state. -/
theorem detectionsAndLanes : Obligations.DetectionsAndLanes := by
  refine ⟨fun s a dt x d e n p other now same => ?_, fun s a dt n sync m h l afc power steps now place => ?_⟩
  · subst now same
    have serves := serveDetection_onlyServes (s := s.advance dt) (d := d)
    refine ⟨detection_none s dt, detection_undeclared s dt, detection_order s dt,
      fun declared => ⟨fun copy => ?_, fun single lane => ?_, fun single unreserved full => ?_⟩,
      rsvWindowEnd_drops dt, fun alone runs lane => pendingReservationServed_serves dt alone runs lane,
      pendingReservationServed_waits dt⟩
    · obtain ⟨counted, lanes⟩ := serveDetection_suppressed copy
      exact detection_served s dt declared ⟨countedOnce_congr counted rfl, lanes, serves.up_eq, serves.ddr_eq x⟩
    · obtain ⟨⟨_, rfl, stage, fe, bin, mode, overlap, timing⟩, lanes⟩ := serveDetection_taken single lane
      exact detection_served s dt declared ⟨stage, fe, bin, mode, overlap, timing, lanes, serves.up_eq, serves.ddr_eq x⟩
    · obtain ⟨counted, lanes⟩ := serveDetection_missed single unreserved full
      exact detection_served s dt declared ⟨countedOnce_congr counted rfl, lanes, serves.up_eq, serves.ddr_eq x⟩
  · subst now
    refine ⟨fun stage accepted began timely => syncFound_acquired place steps accepted began timely stage,
      fun stage accepted began timely => syncFound_searched place steps accepted began timely stage, syncFound_refused place steps,
      fun stage ended => acquireEnd_completes place stage ended afc power steps, syncTimeout_completes place,
      fun stage ended idle => ⟨fun x accepted => ?_, headerDecoded_fails steps place stage ended idle⟩, lanePayloadEnd_frees place,
      fun _ => lanePayloadEnd_waits place, fun k => laneInjectStart_takes, fun stage =>
        ⟨laneInjectEnd_frees dt place stage, laneInjectEnd_excludes dt place stage⟩⟩
    refine completes_mono (headerDecoded_passes steps place stage ended idle accepted) fun t ⟨job, lane⟩ => ?_
    exact ⟨⟨headerJob l x, job, rfl, rfl, rfl, rfl, rfl, rfl, rfl, rfl, rfl, rfl⟩, lane⟩

end Sys2Proof.Machine
end

section
/-!
SUPPORT. PEAK_ITER has eight bits (R214), and a codeword that stops keeps all of them. Then the refutation of the statement about
codewords, which keeps seven.
-/

namespace Sys2Proof.Machine

/-- A frame of two codewords at Z = 8, of which none has been decoded. -/
def twoCodewords : DecodeJob :=
  { claim := 1, fe := 0, bin := 0, mode := 0, seq := 0, cr := 0, z := 8, len := 12, afc := 0, rssi := 0, lq := 0, overlap := false
    syncNs := 0, endNs := 0 }

/-- The machine at reset with this frame at the decoder of lane 0, long after its soft values have come, but that PEAK_ITER
already shows 128 and ALPHA halves the messages. -/
def peakAt128 : State :=
  let s := (State.reset.set Reg.OX_DEC_CTRL.ALPHA 8).set Reg.OX_DEC_STATUS.PEAK_ITER 128
  { s with time := { s.time with ns := 90000000 }, ox := { s.ox with jobs := [(0, twoCodewords)] } }

/-- The soft values of the codeword of zeros, column by column, at magnitudes of which every message is a whole number. -/
def zerosSoft : List Int :=
  ([16, 8, 16, 24, 16, 8, 16, 8, 24, 24, 24, 24, 8, 8, 8, 8] : List Int).flatMap (List.replicate 8)

/-- One iteration meets every check. -/
theorem decodeCodeword_zerosSoft :
    decodeCodeword twoCodewords.z twoCodewords.cr twoCodewords.octetsNow (decSetting (peakAt128.advance 0) twoCodewords).1
      (alphaActs (decSetting (peakAt128.advance 0) twoCodewords).2) peakAt128.free zerosSoft = (1, some (List.replicate 8 0)) := by
  decide +kernel

/-- The greater of 1 and 128 stands in PEAK_ITER afterwards. -/
theorem codewordDecoded_keeps_peakAt128 : ∃ t, exec (.codewordDecoded 0 0 (.soft zerosSoft)) peakAt128 = .next t ∧
    t.get Reg.OX_DEC_STATUS.PEAK_ITER = 128 :=
  ⟨_, rfl, by decide +kernel⟩

/-- Refutes O28: where PEAK_ITER, a field of eight bits, shows 128, a codeword that takes one iteration leaves 128 there, and
not 0, its value modulo 128. -/
theorem not_codewords : ¬ Obligations.Codewords := by
  intro h
  obtain ⟨fostaic, -, -⟩ := h peakAt128 _ 0 0 twoCodewords zerosSoft (List.replicate 8 0) _ rfl rfl rfl
  rw [decodeCodeword_zerosSoft] at fostaic
  obtain ⟨-, continues, -⟩ := fostaic (by decide) (by decide +kernel)
  obtain ⟨t, run, -, -, -, -, peak⟩ := continues rfl (by decide)
  obtain ⟨t', run', kept⟩ := codewordDecoded_keeps_peakAt128
  obtain rfl : t = t' := Host.Outcome.next.inj (run.symm.trans run')
  exact absurd (kept.symm.trans peak) (by decide)

end Sys2Proof.Machine
end

section
/-!
SUPPORT. What the scheduler's own work leaves as it was (R387, R402, R405 to R421): its accounts, the drops at a queue's head and the
duty shapers' holds; then the free-run channels that take up waiting packets (R255).
-/

namespace Sys2Proof.Machine

/-! Fields of the control blocks and of the windows above them. -/

theorem windowOff_window (w i : Nat) : 0x200000 ≤ windowOff w i := by
  unfold windowOff
  omega

theorem window_apart {f g : Fld} (window : 0x200000 ≤ f.off) (low : g.key < 0x200000 * 64) : g.key ≠ f.key := by
  unfold Fld.key at low ⊢
  omega

/-- The field lies in a control block, and is not one that an event writes when the EVENT FIFO is full (R44). -/
def keptField (g : Fld) : Bool :=
  decide (g.key < 0x200000 * 64 ∧ g.key ≠ Reg.SYS_EVENT_STATUS.OVF.key ∧ g.key ≠ Reg.SYS_EVENT_LOST.LOST.key)

theorem keptField_iff {g : Fld} : keptField g = true ↔
    g.key < 0x200000 * 64 ∧ g.key ≠ Reg.SYS_EVENT_STATUS.OVF.key ∧ g.key ≠ Reg.SYS_EVENT_LOST.LOST.key := decide_eq_true_iff

/-! The scheduler's accounts. -/

/-- `t` is `a` but for what the scheduler holds outside the retry store, and for the windows of register fields: all that a debit, a
return or a turn changes (R409, R413 to R421). -/
structure onlyAccounts (a t : State) : Prop where
  rest : { t with fields := a.fields, sched := a.sched } = a
  get_eq : ∀ g : Fld, g.key < 0x200000 * 64 → t.get g = a.get g
  retry_eq : t.sched.retry = a.sched.retry

namespace onlyAccounts
variable {a b t : State}

theorem refl (a : State) : onlyAccounts a a := ⟨rfl, fun _ _ => rfl, rfl⟩

theorem trans (h : onlyAccounts a b) (k : onlyAccounts b t) : onlyAccounts a t where
  rest := by
    have rest := h.rest
    rw [← k.rest] at rest
    exact rest
  get_eq g low := (k.get_eq g low).trans (h.get_eq g low)
  retry_eq := k.retry_eq.trans h.retry_eq

theorem frame (h : onlyAccounts a t) : t.q = a.q ∧ t.counters = a.counters ∧ t.events = a.events ∧ t.mac = a.mac ∧ t.mem = a.mem ∧
    t.tick = a.tick ∧ t.pending = a.pending := by
  have q := congrArg State.q h.rest
  have counters := congrArg State.counters h.rest
  have events := congrArg State.events h.rest
  have mac := congrArg State.mac h.rest
  have mem := congrArg State.mem h.rest
  have tick := congrArg State.tick h.rest
  have pending := congrArg State.pending h.rest
  exact ⟨q, counters, events, mac, mem, tick, pending⟩

theorem onlyIf (s : State) (c : Bool) {k : State → State} (h : ∀ s, onlyAccounts s (k s)) : onlyAccounts s (s.onlyIf c k) :=
  State.onlyIf_keeps (P := onlyAccounts s) s c k (refl s) fun _ => h s

theorem foldl {β : Type} {f : State → β → State} (h : ∀ s e, onlyAccounts s (f s e)) (l : List β) (s : State) :
    onlyAccounts s (l.foldl f s) :=
  List.foldlRecOn (motive := onlyAccounts s) l f (refl s) fun _ ht e _ => ht.trans (h _ e)

theorem setSched (s : State) (x : SchedState) (h : x.retry = s.sched.retry := by rfl) : onlyAccounts s (s.setSched x) :=
  ⟨rfl, fun _ _ => rfl, h⟩

theorem set (s : State) {f : Fld} (window : 0x200000 ≤ f.off) (v : Nat) : onlyAccounts s (s.set f v) :=
  ⟨rfl, fun g low => State.get_set_other s f g v (window_apart window low), rfl⟩

end onlyAccounts

section Accounts
variable (s : State)

theorem credit_onlyAccounts (b cost : Nat) : onlyAccounts s (credit s b cost) := by
  unfold credit
  split
  · exact .refl s
  · exact (onlyAccounts.setSched s _).trans (.onlyIf _ _ fun s => .setSched s _)

theorem debit_onlyAccounts (b cost : Nat) : onlyAccounts s (debit s b cost) := by
  unfold debit
  dsimp only
  split
  · exact .refl s
  · split
    · exact (onlyAccounts.setSched s _).trans (.setSched _ _)
    · exact .setSched s _

theorem setDuty_onlyAccounts (sb : Nat) (d : Duty) : onlyAccounts s (setDuty s sb d) :=
  (onlyAccounts.setSched s _).trans (.set _ (windowOff_window ..) _)

theorem dutySecondBegins_onlyAccounts (k : Nat) : onlyAccounts s (dutySecondBegins s k) :=
  .foldl (fun s sb => (setDuty_onlyAccounts s sb _).trans (.onlyIf _ _ fun s => .set s (windowOff_window ..) _)) _ s

theorem dutyTurn_onlyAccounts : onlyAccounts s (dutyTurn s) := by
  unfold dutyTurn
  dsimp only
  split
  · exact .refl s
  · exact (onlyAccounts.foldl (fun s i => dutySecondBegins_onlyAccounts s _) _ s).trans (.setSched _ _)

theorem dutyDebit_onlyAccounts (sb us : Nat) : onlyAccounts s (dutyDebit s sb us) :=
  (dutyTurn_onlyAccounts s).trans (setDuty_onlyAccounts ..)

theorem refund_onlyAccounts (d : Debit) : onlyAccounts s (refund s d) := by
  have deficits (s : State) (k v k' v' : Nat) : onlyAccounts s (setClassDeficit (setDeficit s k v) k' v') :=
    (onlyAccounts.setSched s _).trans (.setSched _ _)
  exact ((((onlyAccounts.onlyIf s _ fun s => credit_onlyAccounts s ..).trans (.onlyIf _ _ fun s => credit_onlyAccounts s ..)).trans
    (.onlyIf _ _ fun s => credit_onlyAccounts s ..)).trans (.onlyIf _ _ fun s => deficits s ..)).trans
      (.onlyIf _ _ fun s => setDuty_onlyAccounts s ..)

theorem charge_onlyAccounts (port : Nat) (o : Offer) (isWeighted excess : Bool) (sub : Nat) :
    onlyAccounts s (charge s port o isWeighted excess sub).1 :=
  (((onlyAccounts.onlyIf s _ fun s => debit_onlyAccounts s ..).trans (debit_onlyAccounts ..)).trans
    (.onlyIf _ _ fun s => debit_onlyAccounts s ..)).trans (.onlyIf _ _ fun s => dutyDebit_onlyAccounts s ..)

theorem pickClass_onlyAccounts (offers : List Offer) (port : Nat) (excess : Bool) (t n : Nat) :
    onlyAccounts s (pickClass offers port excess t n s).2 := by
  induction n generalizing s with
  | zero => exact .refl s
  | succ n ih =>
    unfold pickClass
    dsimp only
    split
    · split
      · exact .refl s
      · exact ((onlyAccounts.setSched s _).trans (.setSched _ _)).trans (ih _)
    · exact ((onlyAccounts.onlyIf s _ fun s => .setSched s _).trans (.setSched _ _)).trans (ih _)

theorem weighted_onlyAccounts (offers : List Offer) (port : Nat) (excess : Bool) (n : Nat) :
    onlyAccounts s (weighted offers port excess n s).2 := by
  induction n generalizing s with
  | zero => exact .refl s
  | succ n ih =>
    unfold weighted
    dsimp only
    generalize hr : (if List.isEmpty _ = true then ((none : Option Offer), s) else _) = r
    have picked : onlyAccounts s r.2 := by
      rw [← hr]
      split
      · exact .refl s
      · exact pickClass_onlyAccounts ..
    split
    · split
      · exact (picked.trans (.setSched _ _)).trans (.setSched _ _)
      · refine picked.trans (.trans ?_ (ih _))
        split
        · exact (onlyAccounts.setSched _ _).trans (.setSched _ _)
        · exact (onlyAccounts.setSched _ _).trans (.setSched _ _)
    · exact ((picked.trans (.onlyIf _ _ fun s => .setSched s _)).trans (.setSched _ _)).trans (ih _)

theorem choose_onlyAccounts (port sub : Nat) (offers : List Offer) : onlyAccounts s (choose s port sub offers).1 := by
  have served (o : Offer) (k v : Nat) :
      onlyAccounts s (charge (s.setSched { s.sched with served := Cells.set s.sched.served k v 255 }) port o false false sub).1 :=
    (onlyAccounts.setSched s _).trans (charge_onlyAccounts ..)
  unfold choose
  dsimp only
  split
  · exact served ..
  · split
    · exact served ..
    · split
      · split
        · exact (weighted_onlyAccounts ..).trans (charge_onlyAccounts ..)
        · exact weighted_onlyAccounts ..
      · split
        · split
          · exact (weighted_onlyAccounts ..).trans (charge_onlyAccounts ..)
          · exact weighted_onlyAccounts ..
        · exact .refl s

end Accounts

/-! Drops and holds. -/

/-- `t` is `a` but for the queues, the scheduler's accounts, what has been reported and the windows of register fields: all that the
drops at a queue's head and a hold of a duty shaper change. They count QUEUE_DROP and DUTY_HOLD alone. -/
structure onlySchedules (a t : State) : Prop where
  rest : { t with fields := a.fields, counters := a.counters, events := a.events, sched := a.sched, q := a.q } = a
  get_eq : ∀ g : Fld, keptField g = true → t.get g = a.get g
  counter_eq : ∀ c, c ≠ Ev.QUEUE_DROP → c ≠ Ev.DUTY_HOLD → Cells.get t.counters c 0 = Cells.get a.counters c 0
  retry_eq : t.sched.retry = a.sched.retry

theorem onlyAccounts.schedules {a t : State} (h : onlyAccounts a t) : onlySchedules a t where
  rest := by
    obtain ⟨q, counters, events, -⟩ := h.frame
    rw [← events, ← counters, ← q]
    exact h.rest
  get_eq g kept := h.get_eq g (keptField_iff.1 kept).1
  counter_eq c _ _ := congrArg (Cells.get · c 0) h.frame.2.1
  retry_eq := h.retry_eq

namespace onlySchedules
variable {a b t : State}

theorem refl (a : State) : onlySchedules a a := ⟨rfl, fun _ _ => rfl, fun _ _ _ => rfl, rfl⟩

theorem trans (h : onlySchedules a b) (k : onlySchedules b t) : onlySchedules a t where
  rest := by
    have rest := h.rest
    rw [← k.rest] at rest
    exact rest
  get_eq g kept := (k.get_eq g kept).trans (h.get_eq g kept)
  counter_eq c drop hold := (k.counter_eq c drop hold).trans (h.counter_eq c drop hold)
  retry_eq := k.retry_eq.trans h.retry_eq

theorem onlyIf (s : State) (c : Bool) {k : State → State} (h : ∀ s, onlySchedules s (k s)) : onlySchedules s (s.onlyIf c k) :=
  State.onlyIf_keeps (P := onlySchedules s) s c k (refl s) fun _ => h s

theorem foldl {β : Type} {f : State → β → State} (h : ∀ s e, onlySchedules s (f s e)) (l : List β) (s : State) :
    onlySchedules s (l.foldl f s) :=
  List.foldlRecOn (motive := onlySchedules s) l f (refl s) fun _ ht e _ => ht.trans (h _ e)

theorem setQ (s : State) (x : QueueState) : onlySchedules s (s.setQ x) := ⟨rfl, fun _ _ => rfl, fun _ _ _ => rfl, rfl⟩

theorem count (s : State) {c : Nat} (hc : c = Ev.QUEUE_DROP ∨ c = Ev.DUTY_HOLD) : onlySchedules s (s.count c) where
  rest := by simp only [State.count_frame]
  get_eq g _ := State.count_get ..
  counter_eq _ drop hold := Cells.get_set_other _ _ _ _ fun e => hc.elim (fun h => drop (e.trans h)) fun h => hold (e.trans h)
  retry_eq := by simp only [State.count_frame]

theorem event (s : State) {c : Nat} (hc : c = Ev.QUEUE_DROP ∨ c = Ev.DUTY_HOLD) (source arg : Nat) :
    onlySchedules s (s.event c source arg) where
  rest := by
    have rest := State.event_frame s c source arg
    have sched := congrArg State.sched rest
    have q := congrArg State.q rest
    change (s.event c source arg).sched = s.sched at sched
    change (s.event c source arg).q = s.q at q
    rw [← sched, ← q]
    exact rest
  get_eq g kept := by
    obtain ⟨-, ovf, lost⟩ := keptField_iff.1 kept
    exact State.event_get_other s c source arg ovf lost
  counter_eq k drop hold := by
    rw [State.event_counters]
    exact (count s hc).counter_eq k drop hold
  retry_eq := by
    have sched := congrArg State.sched (State.event_frame s c source arg)
    exact congrArg SchedState.retry sched

theorem mac_eq (h : onlySchedules a t) : t.mac = a.mac := by
  have mac := congrArg State.mac h.rest
  exact mac

end onlySchedules

section Drops
variable (s : State)

theorem queueDrop_onlySchedules (q cause : Nat) : onlySchedules s (queueDrop s q cause) := by
  unfold queueDrop
  dsimp only
  split
  · exact (onlySchedules.setQ s _).trans (.event _ (.inl rfl) ..)
  · exact (onlySchedules.setQ s _).trans (.count _ (.inl rfl))

theorem dropStale_onlySchedules (q : Nat) : onlySchedules s (dropStale s q) :=
  (onlySchedules.onlyIf s _ fun s => .setQ s _).trans (.foldl (fun s _ => queueDrop_onlySchedules s ..) _ _)

theorem dutyHold_onlySchedules (sb : Nat) (low : Bool) : onlySchedules s (dutyHold s sb low) := by
  have turned := (dutyTurn_onlyAccounts s).schedules
  unfold dutyHold
  dsimp only
  generalize (if low = true then 1 else 2 : Nat) = level
  split
  · exact (turned.trans ((setDuty_onlyAccounts ..).trans (.set _ (windowOff_window ..) _)).schedules).trans (.event _ (.inr rfl) ..)
  · exact turned

end Drops

/-! The emissions of the front ends. -/

theorem mem_insertBy {α : Type} (le : α → α → Bool) (x y : α) (l : List α) : y ∈ insertBy le x l ↔ y = x ∨ y ∈ l := by
  induction l with
  | nil => simp [insertBy]
  | cons z l ih =>
    unfold insertBy
    split
    · simp
    · simp only [List.mem_cons, ih]
      tauto

theorem mem_sortBy {α : Type} (le : α → α → Bool) (y : α) (l : List α) : y ∈ sortBy le l ↔ y ∈ l := by
  induction l with
  | nil => simp [sortBy]
  | cons z l ih => rw [sortBy, List.foldr_cons, mem_insertBy, ← sortBy, ih, List.mem_cons]

section Emissions
variable (s : State) (fe n : Nat)

/-- A front end holds what was put there, or what it held. -/
theorem State.fe_setFe (x : FrontEnd) : (s.setFe fe x).fe n = x ∧ s.fe n = s.fe fe ∨ (s.setFe fe x).fe n = s.fe n := by
  unfold State.fe State.setFe
  split_ifs <;> simp

theorem State.setFe_rest (x : FrontEnd) : { s.setFe fe x with fe0 := s.fe0, fe1 := s.fe1, fe2 := s.fe2 } = s := by
  unfold State.setFe
  split_ifs <;> rfl

theorem addEmission_rest (e : Emission) :
    { addEmission s fe e with fe0 := s.fe0, fe1 := s.fe1, fe2 := s.fe2, nextFrame := s.nextFrame } = s := by
  unfold addEmission State.setFe
  split_ifs <;> rfl

/-- A new emission joins those of its chain. -/
theorem mem_addEmission_self (e : Emission) : { e with id := s.nextFrame } ∈ ((addEmission s fe e).fe fe).emissions := by
  have put := congrArg FrontEnd.emissions (State.fe_setFe_self s fe { s.fe fe with
    emissions := sortBy (fun a b => decide (a.nominalNs ≤ b.nominalNs)) ((s.fe fe).emissions ++ [{ e with id := s.nextFrame }]) })
  change ((addEmission s fe e).fe fe).emissions = _ at put
  rw [put, mem_sortBy]
  exact List.mem_append_right _ (List.mem_singleton_self _)

/-- What stands among a chain's emissions after one was added stood there, or is the new one. -/
theorem mem_of_addEmission {e x : Emission} (h : x ∈ ((addEmission s fe e).fe n).emissions) :
    x ∈ (s.fe n).emissions ∨ x = { e with id := s.nextFrame } := by
  obtain ⟨put, same⟩ | kept := State.fe_setFe s fe n { s.fe fe with
    emissions := sortBy (fun a b => decide (a.nominalNs ≤ b.nominalNs)) ((s.fe fe).emissions ++ [{ e with id := s.nextFrame }]) }
  · change (addEmission s fe e).fe n = _ at put
    rw [put, mem_sortBy] at h
    rw [same]
    simpa using h
  · change (addEmission s fe e).fe n = _ at kept
    exact .inl (kept ▸ h)

/-- A new emission takes no other one's place. -/
theorem mem_addEmission_of_mem {e x : Emission} (h : x ∈ (s.fe n).emissions) : x ∈ ((addEmission s fe e).fe n).emissions := by
  obtain ⟨put, same⟩ | kept := State.fe_setFe s fe n { s.fe fe with
    emissions := sortBy (fun a b => decide (a.nominalNs ≤ b.nominalNs)) ((s.fe fe).emissions ++ [{ e with id := s.nextFrame }]) }
  · change (addEmission s fe e).fe n = _ at put
    rw [put, mem_sortBy, ← same]
    exact List.mem_append_left _ h
  · change (addEmission s fe e).fe n = _ at kept
    exact kept ▸ h

end Emissions

/-! The free-run channels (R255). -/

/-- The entry that a write puts at an address is the first one found there. -/
theorem Cells.find?_insert_self (l : List (Nat × FreeRun)) (f : Nat) (r : FreeRun) :
    ((Cells.insert l f r).find? fun e => decide (e.1 = f)) = some (f, r) := by
  induction l with
  | nil => simp [Cells.insert]
  | cons e l ih =>
    obtain ⟨a, v⟩ := e
    unfold Cells.insert
    split_ifs with less same
    · simp
    · simp
    · rw [List.find?_cons_of_neg (by simpa using fun c : a = f => same c.symm), ih]

theorem Cells.find?_insert_other (l : List (Nat × FreeRun)) {f k : Nat} (r : FreeRun) (h : k ≠ f) :
    ((Cells.insert l f r).find? fun e => decide (e.1 = k)) = l.find? fun e => decide (e.1 = k) := by
  induction l with
  | nil => simp [Cells.insert, h.symm]
  | cons e l ih =>
    obtain ⟨a, v⟩ := e
    unfold Cells.insert
    split_ifs with less same
    · rw [List.find?_cons_of_neg (by simpa using h.symm)]
    · subst same
      rw [List.find?_cons_of_neg (by simpa using h.symm), List.find?_cons_of_neg (by simpa using h.symm)]
    · simp only [List.find?_cons, ih]

@[simp] theorem runOf_setRun_self (s : State) (f : Nat) (r : FreeRun) : runOf (setRun s f r) f = some r := by
  rw [runOf, setRun, State.setMac_self, Cells.find?_insert_self, Option.map_some]

theorem runOf_setRun_other (s : State) {f k : Nat} (r : FreeRun) (h : k ≠ f) : runOf (setRun s f r) k = runOf s k := by
  rw [runOf, setRun, State.setMac_self, Cells.find?_insert_other _ _ h, runOf]

/-- `t` is `a` but for what `onlySchedules` names and for runs and emissions of free-run channels that have begun: all that the
free-run channels change when they take up waiting packets. -/
structure onlyRuns (a t : State) : Prop where
  rest : { t with fields := a.fields, counters := a.counters, events := a.events, sched := a.sched, q := a.q, mac := a.mac
                  fe0 := a.fe0, fe1 := a.fe1, fe2 := a.fe2, nextFrame := a.nextFrame, freeCtr := a.freeCtr } = a
  get_eq : ∀ g : Fld, keptField g = true → t.get g = a.get g
  counter_eq : ∀ c, c ≠ Ev.QUEUE_DROP → c ≠ Ev.DUTY_HOLD → Cells.get t.counters c 0 = Cells.get a.counters c 0
  retry_eq : t.sched.retry = a.sched.retry
  mac_eq : { t.mac with freeRuns := a.mac.freeRuns } = a.mac
  runOf_eq : ∀ f r, runOf a f = some r → runOf t f = some r
  emissions : ∀ fe x, x ∈ (t.fe fe).emissions → x ∈ (a.fe fe).emissions ∨ x.freeRun.isSome = true
  emissions_stay : ∀ fe x, x ∈ (a.fe fe).emissions → x ∈ (t.fe fe).emissions

theorem onlySchedules.runs {a t : State} (h : onlySchedules a t) : onlyRuns a t where
  rest := by
    have rest := congrArg (fun u : State => { u with mac := a.mac, fe0 := a.fe0, fe1 := a.fe1, fe2 := a.fe2, nextFrame := a.nextFrame
                                                     freeCtr := a.freeCtr }) h.rest
    exact rest
  get_eq := h.get_eq
  counter_eq := h.counter_eq
  retry_eq := h.retry_eq
  mac_eq := by rw [h.mac_eq]
  runOf_eq f r run := by rwa [runOf, h.mac_eq]
  emissions fe x hx := by
    have fronts := congrArg (fun u : State => u.fe fe) h.rest
    change t.fe fe = a.fe fe at fronts
    exact .inl (fronts ▸ hx)
  emissions_stay fe x hx := by
    have fronts := congrArg (fun u : State => u.fe fe) h.rest
    change t.fe fe = a.fe fe at fronts
    exact fronts ▸ hx

namespace onlyRuns
variable {a b t : State}

theorem refl (a : State) : onlyRuns a a := (onlySchedules.refl a).runs

theorem trans (h : onlyRuns a b) (k : onlyRuns b t) : onlyRuns a t where
  rest := by
    have rest := h.rest
    rw [← k.rest] at rest
    exact rest
  get_eq g kept := (k.get_eq g kept).trans (h.get_eq g kept)
  counter_eq c drop hold := (k.counter_eq c drop hold).trans (h.counter_eq c drop hold)
  retry_eq := k.retry_eq.trans h.retry_eq
  mac_eq := by
    have mac := h.mac_eq
    rw [← k.mac_eq] at mac
    exact mac
  runOf_eq f r run := k.runOf_eq f r (h.runOf_eq f r run)
  emissions fe x hx := (k.emissions fe x hx).elim (h.emissions fe x) .inr
  emissions_stay fe x hx := k.emissions_stay fe x (h.emissions_stay fe x hx)

theorem clock_eq (h : onlyRuns a t) : t.tick = a.tick ∧ t.pending = a.pending := by
  have clock := congrArg State.tick h.rest
  have queue := congrArg State.pending h.rest
  exact ⟨clock, queue⟩

theorem retryOf_eq (h : onlyRuns a t) (record : Nat) : retryOf t record = retryOf a record := by
  rw [retryOf, retryOf, h.retry_eq]

end onlyRuns

/-- A run that begins on an idle channel, with its emission. -/
theorem startRun_onlyRuns (s : State) {f : Nat} (idle : runOf s f = none) (l : Load) (duty : Option (Nat × Nat)) :
    onlyRuns s (startRun s f l duty) := by
  unfold startRun
  dsimp only [listenNs]
  generalize hr : ({ be := _, untilNs := _, load := l } : FreeRun) = r
  generalize he : withLo _ _ _ = e
  have onRun : e.freeRun = some f := by
    rw [← he]
    unfold withLo
    dsimp only
    split <;> rfl
  have added := addEmission_rest (setRun s.drawn f r) (frFe s.drawn f) e
  generalize ht : addEmission (setRun s.drawn f r) (frFe s.drawn f) e = t at added ⊢
  have fields := congrArg State.fields added
  have counters := congrArg State.counters added
  have sched := congrArg State.sched added
  have mac := congrArg State.mac added
  change t.mac = (setRun s.drawn f r).mac at mac
  refine ⟨?_, fun g _ => State.get_congr fields g, fun c _ _ => congrArg (Cells.get · c 0) counters,
    congrArg SchedState.retry sched, ?_, fun k r' run => ?_, fun fe x hx => ?_, fun fe x hx => ?_⟩
  · have rest := congrArg (fun u : State => { u with fields := s.fields, counters := s.counters, events := s.events, sched := s.sched
                                                     q := s.q, mac := s.mac, freeCtr := s.freeCtr, nextFrame := s.nextFrame }) added
    exact rest
  · rw [mac]
    rfl
  · have other : k ≠ f := by
      rintro rfl
      rw [idle] at run
      cases run
    rw [runOf, mac, ← runOf, runOf_setRun_other _ _ other]
    exact run
  · rw [← ht] at hx
    obtain old | new := mem_of_addEmission _ _ _ hx
    · exact .inl old
    · exact .inr (by rw [new]; simp only [onRun, Option.isSome_some])
  · rw [← ht]
    exact mem_addEmission_of_mem _ _ _ hx

/-- The idle channels that take up packets leave all that `onlyRuns` keeps. -/
theorem startFreeRuns_onlyRuns (s : State) : onlyRuns s (startFreeRuns s) := by
  refine List.foldlRecOn (motive := onlyRuns s) _ _ (.refl s) fun b hb f _ => hb.trans ?_
  dsimp only
  split
  · exact .refl b
  next open' =>
    have idle : runOf b f = none := by
      simp only [Bool.or_eq_true, not_or, Bool.not_eq_true, Option.isSome_eq_false_iff, Option.isNone_iff_eq_none] at open'
      exact open'.2
    have dropped := onlySchedules.foldl (fun s q => dropStale_onlySchedules s q) (b.q.queues.map (·.1)) b
    split
    · exact dropped.runs
    · split
      · have debited (sb us : Nat) := dropped.trans (dutyDebit_onlyAccounts _ sb us).schedules
        exact (debited ..).runs.trans (startRun_onlyRuns _ (by rw [runOf, (debited ..).mac_eq]; exact idle) _ _)
      · exact (dropped.trans (dutyHold_onlySchedules ..)).runs

end Sys2Proof.Machine
end

section
/-!
SUPPORT. The commit point of an emission (R251): what becomes of a unicast packet, of an emission that clashes and of one that carries
nothing any more. Then the statement about commits.
-/

namespace Sys2Proof.Machine

/-! The emission that commits next. -/

/-- The emission that commits next is one of its chain. -/
theorem mem_of_nextPlanned {s : State} {fe : Nat} {e : Emission} (h : nextPlanned s fe = some e) : e ∈ (s.fe fe).emissions := by
  unfold nextPlanned at h
  dsimp only at h
  refine List.foldlRecOn (motive := fun b => b = some e → e ∈ (s.fe fe).emissions) _ _ (b := none) (fun h => by cases h)
    (fun b hb y hy hx => ?_) h
  have old := List.mem_of_mem_filter hy
  cases b with
  | none => exact Option.some.inj hx ▸ old
  | some o =>
    dsimp only at hx
    split at hx
    · exact Option.some.inj hx ▸ old
    · exact hb hx

/-! What a commit leaves. -/

/-- An emission for a cell uses no frame counter of the device's own (R265). -/
theorem counters_of_cell {e : Emission} (cell : e.freeRun = none) : counters e = 0 := by simp [counters, cell]

/-- A free-run channel that an emission does not lie on is not done with it. -/
theorem freeChannel_of_cell {e : Emission} (s : State) (cell : e.freeRun = none) : freeChannel s e = s := by
  unfold freeChannel
  rw [cell]

/-- The emission that commits with these carriers. -/
def committedWith (s : State) (fe : Nat) (e : Emission) (l : List Carrier) : Emission :=
  withLo s fe { e with counter := 0, kind := kindOf l, carriers := l, phase := .committed, commitNs := s.time.ns }

theorem committedWith_shows (s : State) (fe : Nat) (e : Emission) (l : List Carrier) :
    (committedWith s fe e l).phase = .committed ∧ (committedWith s fe e l).commitNs = s.time.ns ∧
      (committedWith s fe e l).nominalNs = e.nominalNs ∧ (committedWith s fe e l).carriers = l ∧
        (committedWith s fe e l).freeRun = e.freeRun ∧ (committedWith s fe e l).loKhz = spanMid l := by
  unfold committedWith withLo
  dsimp only
  split <;> exact ⟨rfl, rfl, rfl, rfl, rfl, rfl⟩

/-- The span of one carrier has its frequency in the middle. -/
theorem spanMid_singleton (c : Carrier) : spanMid [c] = c.freqKhz := by
  change (c.freqKhz + c.freqKhz) / 2 = c.freqKhz
  omega

section Commit
variable {s : State} {fe : Nat} {e : Emission} (ok : Bool)

theorem commit_of_clash (clash : ∃ x ∈ (s.fe fe).emissions, x.committed = true ∧ clashes s fe x e = true) :
    commit s fe e ok = displace s fe e := by
  unfold commit
  refine if_pos (List.any_eq_true.2 ?_)
  obtain ⟨x, mem, committed, overlap⟩ := clash
  exact ⟨x, mem, by rw [committed, overlap, Bool.and_self]⟩

variable (clear : ∀ x ∈ (s.fe fe).emissions, x.committed = false) (cell : e.freeRun = none) {c : Carrier} (one : e.carriers = [c])
include clear cell one

/-- Where nothing is committed yet, an emission of one carrier commits by that carrier. -/
theorem commit_of_one : commit s fe e ok =
    let r := commitCarrier fe { e with counter := 0 } ok (s, []) c
    if r.2.isEmpty then freeChannel (dropEmission r.1 fe e) { e with counter := 0 }
    else
      let e' := committedWith r.1 fe e r.2
      let t := commitJobs (putEmission r.1 fe e e') fe e'
      if !loOk fe e' then untunable t fe e'
      else if !t.flag (Reg.FE_STATUS.TX_IN_SERVICE fe) then abandon t fe e' Late.FE_OUT
      else if t.flag (Reg.FE_STATUS.MASK_STOPPED fe) then abandon t fe e' Late.MASK_STOP
      else calMeets t fe e' := by
  have free : ¬ ((s.fe fe).emissions.any fun x => x.committed && clashes s fe x e) = true := by
    rw [List.any_eq_true]
    rintro ⟨x, mem, both⟩
    rw [clear x mem] at both
    cases both
  have unused : counters e = 0 := counters_of_cell cell
  have unusedBy (l : List Carrier) : counters { e with counter := 0, carriers := l } = 0 := counters_of_cell cell
  unfold commit
  dsimp only
  rw [if_neg free, unused, if_pos rfl]
  simp only [one, unusedBy, ne_eq, not_true_eq_false, decide_false, Bool.false_and, Bool.false_eq_true, if_false]
  rfl

end Commit

/-! One carrier with a packet. -/

/-- A unicast packet leaves its queue for the retry store (R411). -/
def unicastTaken (s : State) (p : Packet) : State := retryAdd (unqueue s p) p

section Data
variable (s : State) (fe : Nat) (e : Emission) {c : Carrier} {p : Packet} {d : Debit} (ok : Bool) (load : c.load = .data p d false)

/-- In the safe state a class 0 packet is not emitted, and its debits return (R659). -/
theorem commitData_of_safe (safety : p.cls = 0) (safe : s.safeNow = true) (retry : Bool) :
    commitData s fe e c p d retry ok = (refund s d, none) := if_pos (by simp [safety, safe])

include load

/-- A unicast packet of another class commits: it moves to the retry store, and a lane is reserved for its acknowledgement. -/
theorem commitData_of_unicast (cls : p.cls ≠ 0) (unicast : p.record ≠ broadcast) (plain : p.flood = none) :
    ∃ t, commitData s fe e c p d false ok = (t, some c) ∧ onlyHearing (unicastTaken s p) t := by
  have carrier : ({ c with load := .data p d false } : Carrier) = c := by rw [← load]
  have keyed : groupKeyOk s p = true := by simp [groupKeyOk, unicast]
  unfold commitData
  simp only [cls, unicast, plain, keyed, carrier, decide_false, Bool.false_and, Bool.false_eq_true, if_false, Bool.not_true, or_self,
    ne_eq, not_false_eq_true, decide_true, State.onlyIf_true, State.onlyIf_false]
  refine ⟨_, rfl, ?_⟩
  split
  · exact .refl _
  · exact Eq.refl (unicastTaken s p)

theorem commitCarrier_of_data (acc : State × List Carrier) : commitCarrier fe e ok acc c =
    match commitData acc.1 fe e c p d false ok with
    | (t, none) => (t, acc.2)
    | (t, some c') => (t, acc.2 ++ [c']) := by
  unfold commitCarrier
  rw [load]
  dsimp only
  rcases commitData acc.1 fe e c p d false ok with ⟨t, _ | c'⟩ <;> rfl

end Data

section UnicastTaken
variable (s : State) (p : Packet)

theorem not_mem_queue_unqueue : p ∉ queueAt (unqueue s p) p.queue := by
  rw [unqueue, queueAt_setQueue_self]
  simp

/-- The packet as the retry store takes it, with the settings that apply to it from then on. -/
def retryTaken (s : State) (p : Packet) : Packet :=
  { p with be := s.get Reg.MAC_CSMA_CTRL.MIN_BE, backoff := 0, tries := 0, beMax := min 8 (s.get Reg.MAC_CSMA_CTRL.MAX_BE)
           retryMax := s.get Reg.MAC_CSMA_CTRL.MAX_RETRIES }

theorem unicastTaken_retry : (unicastTaken s p).sched.retry = s.sched.retry ++ [retryTaken s p] := rfl

end UnicastTaken

/-! An emission that is displaced (R251). -/

theorem displace_of_data {s : State} {fe : Nat} {e : Emission} {c : Carrier} {p : Packet} {d : Debit} {retry : Bool}
    (one : e.carriers = [c]) (cell : e.freeRun = none) (load : c.load = .data p d retry) :
    displace s fe e = (refund (dropEmission s fe e) d).count Ctr.TX_DISPLACED := by
  unfold displace
  rw [freeChannel_of_cell _ cell, one, List.foldl_cons, List.foldl_nil, load]

/-- Taking an emission away leaves the queues, the scheduler, what was counted and the clock. -/
theorem dropEmission_rest (s : State) (fe : Nat) (e : Emission) :
    (dropEmission s fe e).q = s.q ∧ (dropEmission s fe e).sched = s.sched ∧ (dropEmission s fe e).counters = s.counters ∧
      (dropEmission s fe e).tick = s.tick ∧ (dropEmission s fe e).pending = s.pending := by
  unfold dropEmission State.setFe
  split_ifs <;> exact ⟨rfl, rfl, rfl, rfl, rfl⟩

section Refunded
variable (s : State) (fe : Nat) (e : Emission) (d : Debit)

/-- The debits of an emission that is taken away return to the accounts, and the chain has lost the emission. -/
theorem refund_dropEmission_frame : e ∉ ((refund (dropEmission s fe e) d).fe fe).emissions ∧
    (refund (dropEmission s fe e) d).sched.retry = s.sched.retry ∧ (refund (dropEmission s fe e) d).q = s.q ∧
      (refund (dropEmission s fe e) d).counters = s.counters ∧ (refund (dropEmission s fe e) d).tick = s.tick ∧
        (refund (dropEmission s fe e) d).pending = s.pending := by
  have accounts := refund_onlyAccounts (dropEmission s fe e) d
  obtain ⟨q, counters, -, -, -, clock, queue⟩ := accounts.frame
  obtain ⟨q', sched, counters', clock', queue'⟩ := dropEmission_rest s fe e
  refine ⟨?_, accounts.retry_eq.trans (congrArg SchedState.retry sched), q.trans q', counters.trans counters', clock.trans clock',
    queue.trans queue'⟩
  rw [(refund_onlyTraffic ..).fe_eq]
  exact not_mem_dropEmission s fe e

end Refunded

/-! The command. -/

section Command
variable {s : State} {dt : Nat} {fe : Fin 3} {ok : Bool} {e : Emission} {c : Carrier} {p : Packet} {d : Debit}
  (next : nextPlanned (s.advance dt) fe = some e)
include next

theorem emissionCommit_completes {r : State} {post : State → Prop} (effect : commit (s.advance dt) fe e ok = r)
    (clock : r.tick = s.tick + dt) (queue : r.pending = s.pending) (hp : post r) : completes (.emissionCommit dt fe ok) s post := by
  refine completes_of_effect (dt := dt) (by unfold exec execEmissionCommit; rfl) ?_ clock queue hp
  rw [next]
  exact effect

variable (one : e.carriers = [c]) (cell : e.freeRun = none) (load : c.load = .data p d false)
include one cell load

theorem emissionCommit_displaces
    (clash : ∃ x ∈ (s.fe fe).emissions, x.committed = true ∧ clashes (s.advance dt) fe x e = true) :
    completes (.emissionCommit dt fe ok) s fun t => countedOnce s t Ctr.TX_DISPLACED ∧ e ∉ (t.fe fe).emissions ∧
      t.sched.retry = s.sched.retry ∧ t.q.queues = s.q.queues := by
  obtain ⟨gone, retry, q, counters, clock, queue⟩ := refund_dropEmission_frame (s.advance dt) fe e d
  refine emissionCommit_completes next ((commit_of_clash (s := s.advance dt) ok clash).trans (displace_of_data one cell load))
    ?_ ?_ ⟨?_, ?_, ?_, ?_⟩
  · exact (State.count_frame ..).1.trans clock
  · simp only [State.count_frame, queue, State.advance_frame]
  · rw [countedOnce, State.count, counters]
    rfl
  · rwa [State.count_fe]
  · simp only [State.count_frame, retry, State.advance_frame]
  · simp only [State.count_frame, q, State.advance_frame]

variable (clear : ∀ x ∈ (s.fe fe).emissions, x.committed = false)
include clear

theorem emissionCommit_withholds (safety : p.cls = 0) (safe : s.safeNow = true) :
    completes (.emissionCommit dt fe ok) s fun t => e ∉ (t.fe fe).emissions ∧ t.sched.retry = s.sched.retry := by
  have accounts := refund_onlyAccounts (s.advance dt) d
  obtain ⟨-, -, -, -, -, clock, queue⟩ := accounts.frame
  obtain ⟨-, sched, -, clock', queue'⟩ := dropEmission_rest (refund (s.advance dt) d) fe e
  have withheld : commit (s.advance dt) fe e ok = dropEmission (refund (s.advance dt) d) fe e := by
    have safeNow : (s.advance dt).safeNow = true := safe
    rw [commit_of_one (s := s.advance dt) ok clear cell one, commitCarrier_of_data _ _ _ load, commitData_of_safe _ _ _ _ safety safeNow]
    exact freeChannel_of_cell _ cell
  exact emissionCommit_completes next withheld (clock'.trans clock) (queue'.trans queue)
    ⟨not_mem_dropEmission _ _ _, (congrArg SchedState.retry sched).trans accounts.retry_eq⟩

theorem emissionCommit_commits (cls : p.cls ≠ 0) (unicast : p.record ≠ broadcast) (plain : p.flood = none)
    (service : s.flag (Reg.FE_STATUS.TX_IN_SERVICE fe) = true) (running : s.flag (Reg.FE_STATUS.MASK_STOPPED fe) = false)
    (idle : (s.fe fe).cal = none) (tunable : fe.val = 2 ∨ (779000 ≤ c.freqKhz ∧ c.freqKhz ≤ 960000)) :
    completes (.emissionCommit dt fe ok) s fun t =>
      (∃ e' ∈ (t.fe fe).emissions, e'.phase = .committed ∧ e'.commitNs = (s.advance dt).time.ns ∧ e'.nominalNs = e.nominalNs ∧
        e'.carriers = [c]) ∧ p ∉ queueAt t p.queue ∧
      ∃ p', t.sched.retry = s.sched.retry ++ [p'] ∧ p'.id = p.id ∧ p'.tries = 0 ∧
        p'.retryMax = s.get Reg.MAC_CSMA_CTRL.MAX_RETRIES := by
  obtain ⟨r, data, heard⟩ := commitData_of_unicast (s.advance dt) fe { e with counter := 0 } ok load cls unicast plain
  obtain ⟨fronts, fields, -, clock, queue⟩ := heard.rest
  have time := congrArg State.time heard
  have sched := congrArg State.sched heard
  have q := congrArg State.q heard
  change r.time = (s.advance dt).time at time
  change r.sched = (unicastTaken (s.advance dt) p).sched at sched
  change r.q = (unicastTaken (s.advance dt) p).q at q
  obtain ⟨phase, commitNs, nominal, carriers, run, lo⟩ := committedWith_shows r fe e [c]
  have tuned : loOk fe (committedWith r fe e [c]) = true := by
    rw [loOk, lo, spanMid_singleton, within, Bool.or_eq_true, decide_eq_true_iff, decide_eq_true_iff]
    exact tunable
  have put := State.setFe_rest r fe { r.fe fe with
    emissions := (r.fe fe).emissions.map fun x => if x = e then committedWith r fe e [c] else x }
  have jobs : commitJobs (putEmission r fe e (committedWith r fe e [c])) fe (committedWith r fe e [c]) =
      putEmission r fe e (committedWith r fe e [c]) := by
    rw [commitJobs, carriers, List.foldl_cons, List.foldl_nil, load, run, cell]
    rfl
  have flags (g : Fld) : (putEmission r fe e (committedWith r fe e [c])).flag g = s.flag g :=
    (setFe_flag ..).trans (State.flag_congr fields g)
  have settled : calMeets (putEmission r fe e (committedWith r fe e [c])) fe (committedWith r fe e [c]) =
      putEmission r fe e (committedWith r fe e [c]) := by
    have cal : ((putEmission r fe e (committedWith r fe e [c])).fe fe).cal = none := by
      rw [putEmission_fe, fronts]
      exact idle
    rw [calMeets, cal]
  have committed : commit (s.advance dt) fe e ok = putEmission r fe e (committedWith r fe e [c]) := by
    rw [commit_of_one (s := s.advance dt) ok clear cell one, commitCarrier_of_data _ _ _ load, data]
    dsimp only [List.nil_append, List.isEmpty_cons]
    rw [if_neg Bool.false_ne_true, jobs, tuned, flags, service, flags, running, settled]
    rfl
  refine emissionCommit_completes next committed ((congrArg State.tick put).trans clock) ((congrArg State.pending put).trans queue)
    ⟨⟨_, mem_putEmission r fe ?_ _, phase, ?_, nominal, carriers⟩, ?_, retryTaken s p, ?_, rfl, rfl, rfl⟩
  · rw [fronts]
    exact mem_of_nextPlanned next
  · rw [commitNs, time]
  · have queues : queueAt (putEmission r fe e (committedWith r fe e [c])) p.queue = queueAt (unqueue (s.advance dt) p) p.queue :=
      congrArg (fun x : QueueState => Cells.get x.queues p.queue []) ((congrArg State.q put).trans q)
    rw [queues]
    exact not_mem_queue_unqueue _ _
  · exact (congrArg (fun u : State => u.sched.retry) put).trans (congrArg SchedState.retry sched)

end Command

/-- Settles O31: the emission that is due is displaced where it clashes, and else commits by its one carrier. -/
theorem commits : Obligations.Commits := by
  rintro s _ dt fe ok e c p d rfl next one cell load
  exact ⟨fun clear cls unicast plain service running idle tunable =>
      emissionCommit_commits next one cell load clear cls unicast plain service running idle tunable,
    emissionCommit_displaces next one cell load, fun clear => emissionCommit_withholds next one cell load clear⟩

end Sys2Proof.Machine
end

section
/-!
SUPPORT. Contention (R252 to R255): what a failed attempt leaves of its packet, and what a busy channel, a missing acknowledgement and
a busy listen make of an emission. Then the statement about failed attempts.
-/

namespace Sys2Proof.Machine

/-! A failed attempt (R253, R254). -/

/-- What a failed attempt makes of the packet that the retry store holds for a link record: after its last retry it is dropped as
TX_FAIL, and otherwise its tries grow and, in a shared cell, its backoff is drawn anew. -/
def attemptFailed (s : State) (record : Nat) (shared : Bool) (q : Packet) (t : State) : Prop :=
  if q.retryMax < q.tries + 1 then countedOnce s t Ctr.TX_FAIL ∧ retryOf t record = none
  else ∃ q', retryOf t record = some q' ∧ q'.tries = q.tries + 1 ∧
    (shared = true → q'.be = min (q.be + 1) q.beMax ∧ q'.backoff < 2 ^ q'.be) ∧
    (shared = false → q'.be = q.be ∧ q'.backoff = q.backoff)

/-- A failed attempt is told by the retry store and the number of failures. -/
theorem attemptFailed_congr {a b t u : State} {record : Nat} {shared : Bool} {q : Packet} (h : attemptFailed b record shared q u)
    (before : b.counters = a.counters) (after : Cells.get t.counters Ctr.TX_FAIL 0 = Cells.get u.counters Ctr.TX_FAIL 0)
    (retry : retryOf t record = retryOf u record) : attemptFailed a record shared q t := by
  unfold attemptFailed countedOnce State.count at h ⊢
  rwa [retry, after, ← before]

theorem retryOf_retryDrop (s : State) (record : Nat) : retryOf (retryDrop s record) record = none :=
  List.find?_eq_none.2 fun x hx => by simpa using (List.mem_filter.1 hx).2

/-- A packet that takes the place of its link record's in the retry store is found there. -/
theorem find?_map_replace {l : List Packet} {record : Nat} {q q' : Packet} (found : l.find? (fun p => decide (p.record = record)) = some q)
    (same : q'.record = record) :
    (l.map fun x => if x.record = record then q' else x).find? (fun p => decide (p.record = record)) = some q' := by
  have keeps : ((fun p : Packet => decide (p.record = record)) ∘ fun x => if x.record = record then q' else x) =
      fun p => decide (p.record = record) := by
    funext x
    by_cases h : x.record = record <;> simp [h, same]
  have held : q.record = record := by simpa using List.find?_some found
  rw [List.find?_map, keeps, found, Option.map_some, if_pos held]

theorem failAttempt_fails {s : State} {record : Nat} {q : Packet} (held : retryOf s record = some q) (shared : Bool) :
    attemptFailed s record shared q (failAttempt s record shared) := by
  have owner : q.record = record := by simpa using List.find?_some held
  unfold attemptFailed failAttempt
  rw [held]
  dsimp only
  split
  · refine ⟨rfl, ?_⟩
    have kept : (State.count (retryDrop s record) Ctr.TX_FAIL).sched = (retryDrop s record).sched := by simp only [State.count_frame]
    rw [retryOf, kept]
    exact retryOf_retryDrop s record
  · cases shared with
    | true =>
      exact ⟨_, find?_map_replace held owner, rfl, fun _ => ⟨rfl, Nat.mod_lt _ (Nat.two_pow_pos _)⟩, nofun⟩
    | false => exact ⟨_, find?_map_replace held owner, rfl, nofun, fun _ => ⟨rfl, rfl⟩⟩

theorem failAttempt_q (s : State) (record : Nat) (shared : Bool) : (failAttempt s record shared).q = s.q := by
  unfold failAttempt
  split
  · rfl
  · dsimp only
    split
    · simp only [State.count_frame]
      rfl
    · cases shared <;> rfl

/-! The assessment of a shared cell (R252). -/

/-- The only emission of a chain, when it is taken away. -/
theorem dropEmission_only {s : State} {fe : Nat} {e : Emission} (only : (s.fe fe).emissions = [e]) :
    ((dropEmission s fe e).fe fe).emissions = [] := by
  rw [dropEmission, State.fe_setFe_self, only]
  simp

theorem removeCarrier_only (s : State) (fe : Nat) {e : Emission} {c : Carrier} (one : e.carriers = [c]) :
    removeCarrier s fe e c = dropEmission s fe e := by
  unfold removeCarrier
  simp [one]

section Busy
variable (s : State) (fe : Nat) (e : Emission) (p : Packet) (d : Debit) (watched : Bool)

/-- An emission on a busy channel is taken away, and what it was debited returns. -/
def givenUp : State := (refund (dropEmission s fe e) d).onlyIf watched fun s => unwatch s fe e.asn

theorem givenUp_traffic : onlyTraffic (dropEmission s fe e) (givenUp s fe e d watched) :=
  (refund_onlyTraffic ..).trans (.onlyIf _ _ fun s => unwatch_onlyTraffic s ..)

theorem givenUp_frame : (givenUp s fe e d watched).sched.retry = s.sched.retry ∧ (givenUp s fe e d watched).counters = s.counters ∧
    (givenUp s fe e d watched).tick = s.tick ∧ (givenUp s fe e d watched).pending = s.pending := by
  obtain ⟨-, retry, -, counters, clock, queue⟩ := refund_dropEmission_frame s fe e d
  exact State.onlyIf_keeps (P := fun t => t.sched.retry = s.sched.retry ∧ t.counters = s.counters ∧ t.tick = s.tick ∧
    t.pending = s.pending) _ _ _ ⟨retry, counters, clock, queue⟩ fun _ => ⟨retry, counters, clock, queue⟩

theorem givenUp_get {g : Fld} (low : g.key < 0x200000 * 64) : (givenUp s fe e d watched).get g = s.get g := by
  have kept : (refund (dropEmission s fe e) d).get g = s.get g :=
    ((refund_onlyAccounts _ d).get_eq g low).trans (State.setFe_get ..)
  exact State.onlyIf_keeps (P := fun t => t.get g = s.get g) _ _ _ kept fun _ => kept

variable {s fe e} in
theorem givenUp_emissions (only : (s.fe fe).emissions = [e]) : ((givenUp s fe e d watched).fe fe).emissions = [] := by
  rw [(givenUp_traffic s fe e d watched).fe_eq]
  exact dropEmission_only only

end Busy

section Assessed
variable {s : State} {dt start : Nat} {fe : Fin 3} {peak peak2 : Int} {e : Emission} {c : Carrier} {p : Packet} {d : Debit} {b : Bool}

/-- Is the channel of a carrier busy during the assessment (R252)? -/
def channelBusy (s : State) (fe start : Nat) (peak peak2 : Int) (c : Carrier) : Bool :=
  louder s fe peak (s.get Reg.MAC_CSMA_CTRL.CCA_THRESH) ||
    (isFDW c.mode && louder s fe peak2 (s.get Reg.MAC_CSMA_CTRL.CCA_THRESH)) || ccaBlanked s fe start

/-- What the end of an assessment makes of an emission with a packet as its only carrier. -/
def assessed (s : State) (fe : Nat) (e : Emission) (c : Carrier) (p : Packet) (d : Debit) (retried busy : Bool) : State :=
  if !busy then putEmission s fe e { e with carriers := [{ c with assessed := true }] }
  else
    failAttempt ((givenUp s fe e d (decide (p.cls = 0) && e.committed)).onlyIf (!e.committed && !retried) fun s =>
      if p.record = broadcast then unqueue s p else unicastTaken s p) p.record true

theorem assessed_retried (s : State) (fe : Nat) (e : Emission) (c : Carrier) (p : Packet) (d : Debit) {b : Bool}
    (taken : e.committed = true ∨ b = true) : assessed s fe e c p d b true =
      failAttempt (givenUp s fe e d (decide (p.cls = 0) && e.committed)) p.record true := by
  have again : (!e.committed && !b) = false := by rcases taken with h | h <;> simp [h]
  rw [assessed, again, Bool.not_true, if_neg Bool.false_ne_true, State.onlyIf_false]

theorem assessed_first (s : State) (fe : Nat) {e : Emission} (c : Carrier) {p : Packet} (d : Debit) (planned : e.committed = false)
    (unicast : p.record ≠ broadcast) :
    assessed s fe e c p d false true = failAttempt (unicastTaken (givenUp s fe e d false) p) p.record true := by
  rw [assessed, planned, Bool.and_false, Bool.not_true, if_neg Bool.false_ne_true, Bool.not_false, Bool.and_self,
    State.onlyIf_true, if_neg unicast]

variable (only : (s.fe fe).emissions = [e]) (waits : e.phase ≠ .emitting) (kind : e.kind = 0) (cell : e.freeRun = none)
  (one : e.carriers = [c]) (shared : c.shared = true) (fresh : c.assessed = false)
include only waits kind cell one shared fresh

theorem sharedCarrier_of_only : sharedCarrier s fe c.bin = some (e, c) := by
  unfold sharedCarrier
  simp [only, waits, kind, cell, one, shared, fresh]

variable (load : c.load = .data p d b)
  (hstart : start = e.nominalNs - s.get Reg.MAC_SLOT_0.TX_OFFSET * 1000 + s.get Reg.MAC_SLOT_1.CCA_OFFSET * 1000)
  (ended : start + s.get Reg.MAC_SLOT_1.CCA_LEN * 1000 ≤ (s.advance dt).time.ns)
include load hstart ended

theorem ccaDone_completes {r : State} {post : State → Prop}
    (effect : assessed (s.advance dt) fe e c p d b (channelBusy s fe start peak peak2 c) = r) (clock : r.tick = s.tick + dt)
    (queue : r.pending = s.pending) (hp : post r) : completes (.ccaDone dt fe c.bin peak peak2) s post := by
  subst hstart
  refine completes_of_effect (dt := dt) (by unfold exec execCcaDone; rfl) ?_ clock queue hp
  have carrier : sharedCarrier (s.advance dt) fe c.bin = some (e, c) :=
    sharedCarrier_of_only (s := s.advance dt) only waits kind cell one shared fresh
  rw [carrier, ← effect]
  dsimp only
  refine (if_pos (decide_eq_true ended)).trans ?_
  unfold assessed
  dsimp only
  rw [removeCarrier_only _ _ one, load]
  simp only [one, List.map_cons, List.map_nil, if_true]
  rfl

theorem ccaDone_free (free : channelBusy s fe start peak peak2 c = false) :
    completes (.ccaDone dt fe c.bin peak peak2) s fun t =>
      (t.fe fe).emissions = [{ e with carriers := [{ c with assessed := true }] }] ∧ t.setFe fe ((s.advance dt).fe fe) = s.advance dt := by
  refine ccaDone_completes only waits kind cell one shared fresh load hstart ended
    (r := putEmission (s.advance dt) fe e { e with carriers := [{ c with assessed := true }] }) ?_ ?_ ?_ ⟨?_, ?_⟩
  · rw [free]
    rfl
  · simp only [putEmission, State.setFe_frame]
    rfl
  · simp only [putEmission, State.setFe_frame, State.advance_frame]
  · rw [putEmission_fe, State.advance_fe, only]
    simp
  · rw [putEmission, State.setFe_setFe, State.setFe_fe_self]

variable (busy : channelBusy s fe start peak peak2 c = true)
include busy

/-- An attempt of a packet that has been emitted before fails on a busy channel. -/
theorem ccaDone_retried (taken : e.committed = true ∨ b = true) {q : Packet} (held : retryOf s p.record = some q) :
    completes (.ccaDone dt fe c.bin peak peak2) s fun t =>
      (t.fe fe).emissions = [] ∧ attemptFailed s p.record true q t := by
  have gone := givenUp_emissions (s := s.advance dt) d (decide (p.cls = 0) && e.committed) only
  obtain ⟨retry, counters, clock, queue⟩ := givenUp_frame (s.advance dt) fe e d (decide (p.cls = 0) && e.committed)
  have effect := assessed_retried (s.advance dt) fe e c p d taken
  generalize givenUp (s.advance dt) fe e d (decide (p.cls = 0) && e.committed) = g at gone retry counters clock queue effect
  have found : retryOf g p.record = some q := by
    rw [retryOf, retry]
    exact held
  have traffic := failAttempt_onlyTraffic g p.record true
  refine ccaDone_completes only waits kind cell one shared fresh load hstart ended (r := failAttempt g p.record true) ?_
    (traffic.clock_eq.1.trans clock) (traffic.clock_eq.2.trans queue) ⟨?_, ?_⟩
  · rw [busy, effect]
  · rwa [traffic.fe_eq]
  · exact attemptFailed_congr (failAttempt_fails found true) counters rfl rfl

/-- The first attempt of a unicast packet fails on a busy channel: the packet is in the retry store from then on. -/
theorem ccaDone_first (planned : e.committed = false) (first : b = false) (unicast : p.record ≠ broadcast)
    (new : retryOf s p.record = none) (retries : s.get Reg.MAC_CSMA_CTRL.MAX_RETRIES ≠ 0) :
    completes (.ccaDone dt fe c.bin peak peak2) s fun t =>
      (t.fe fe).emissions = [] ∧ p ∉ queueAt t p.queue ∧ ∃ q', retryOf t p.record = some q' ∧ q'.tries = 1 := by
  have gone := givenUp_emissions (s := s.advance dt) d false only
  obtain ⟨retry, -, clock, queue⟩ := givenUp_frame (s.advance dt) fe e d false
  have maxRetries : (givenUp (s.advance dt) fe e d false).get Reg.MAC_CSMA_CTRL.MAX_RETRIES ≠ 0 := by
    rw [givenUp_get _ _ _ _ _ (by decide)]
    exact retries
  have effect := assessed_first (s.advance dt) fe c d planned unicast
  generalize givenUp (s.advance dt) fe e d false = g at gone retry clock queue maxRetries effect
  have stored : retryOf (unicastTaken g p) p.record = some (retryTaken g p) := by
    have absent : g.sched.retry.find? (fun x => decide (x.record = p.record)) = none := by
      rw [retry]
      exact new
    rw [retryOf, unicastTaken_retry, List.find?_append, absent, Option.none_or]
    exact List.find?_cons_of_pos (by simp [retryTaken])
  have traffic := failAttempt_onlyTraffic (unicastTaken g p) p.record true
  have failed := failAttempt_fails stored true
  rw [attemptFailed, if_neg (by simp only [retryTaken]; omega)] at failed
  obtain ⟨q', held, tries, -, -⟩ := failed
  refine ccaDone_completes only waits kind cell one shared fresh load hstart ended
    (r := failAttempt (unicastTaken g p) p.record true) ?_ (traffic.clock_eq.1.trans clock) (traffic.clock_eq.2.trans queue)
    ⟨?_, ?_, q', held, tries⟩
  · rw [busy, first, effect]
  · rw [traffic.fe_eq]
    exact gone
  · rw [queueAt, failAttempt_q]
    exact not_mem_queue_unqueue g p

end Assessed

/-! An acknowledgement window without an acknowledgement (R254). -/

theorem ackWaitEnd_fails {s : State} {dt : Nat} {fe : Fin 3} {record : Nat} {q : Packet} {w : AckWait} (only : s.mac.ackWaits = [w])
    (front : w.fe = fe.val) (owner : w.record = record) (ended : w.toNs ≤ antennaNs (s.advance dt) fe)
    (held : retryOf s record = some q) (none' : ackInFlight s w = false) :
    completes (.ackWaitEnd dt fe record) s (attemptFailed s record w.shared q) := by
  have found : (s.advance dt).mac.ackWaits.find? (fun w => decide (w.fe = fe.val ∧ w.record = record)) = some w := by
    change s.mac.ackWaits.find? _ = some w
    rw [only]
    exact List.find?_cons_of_pos (decide_eq_true ⟨front, owner⟩)
  have late : (decide (w.toNs ≤ antennaNs (s.advance dt) fe) && !ackInFlight (s.advance dt) w) = true := by
    rw [decide_eq_true ended, show ackInFlight (s.advance dt) w = false from none']
    rfl
  let m : State := (s.advance dt).setMac
    { s.mac with ackWaits := s.mac.ackWaits.filter fun x => decide (x ≠ w) }
  have fails : attemptFailed m record w.shared q (failAttempt m record w.shared) := failAttempt_fails (s := m) held w.shared
  have traffic := failAttempt_onlyTraffic m record w.shared
  have runs := startFreeRuns_onlyRuns (failAttempt m record w.shared)
  refine completes_of_effect (dt := dt) (by unfold exec execAckWaitEnd; rfl) ?_ (runs.clock_eq.1.trans traffic.clock_eq.1)
    (runs.clock_eq.2.trans traffic.clock_eq.2)
    (attemptFailed_congr fails rfl (runs.counter_eq _ (by decide) (by decide)) (runs.retryOf_eq record))
  rw [found]
  dsimp only
  rw [State.onlyIf, if_pos late]
  rfl

/-! The end of a listen (R255). -/

section Listen
variable {s : State} {dt : Nat} {fr : Fin 4} {peak : Int} {e : Emission} {r : FreeRun}

/-- The free-run channels do not lie in a front end. -/
theorem runOf_putEmission (s : State) (fe : Nat) (old new : Emission) (f : Nat) : runOf (putEmission s fe old new) f = runOf s f := by
  have mac := congrArg State.mac (State.setFe_rest s fe { s.fe fe with
    emissions := (s.fe fe).emissions.map fun x => if x = old then new else x })
  exact congrArg (fun m : MacState => (m.freeRuns.find? fun e => decide (e.1 = f)).map (·.2)) mac

/-- A busy listen after which the channel listens no more. -/
theorem busyListen_gives_up (f : Nat) (fe : Nat) (last : s.get (Reg.MAC_FR.MAX_TRIES f) ≤ r.busy + 1) :
    onlyTraffic ((endRun (dropEmission s fe e) f).count Ctr.LBT_FAIL) (busyListen s f r fe e) := by
  unfold busyListen
  rw [if_pos last]
  refine .foldl (fun s c => ?_) _ _
  split
  · exact ((refund_onlyTraffic ..).trans (.setSched ..)).trans (.setQ ..)
  · exact (dutyBack_onlyTraffic ..).trans (wakeEnd_onlyTraffic ..)
  · exact .refl _

theorem busyListen_listens_again (f : Nat) (fe : Nat) (more : ¬ s.get (Reg.MAC_FR.MAX_TRIES f) ≤ r.busy + 1) :
    (∃ r', runOf (busyListen s f r fe e) f = some r' ∧ r'.busy = r.busy + 1 ∧
        r'.be = min (r.be + 1) (s.get (Reg.MAC_FR.MAX_BE f))) ∧
      (busyListen s f r fe e).tick = s.tick ∧ (busyListen s f r fe e).pending = s.pending := by
  unfold busyListen
  rw [if_neg more]
  refine ⟨⟨_, (runOf_putEmission ..).trans (runOf_setRun_self ..), rfl, rfl⟩, ?_, ?_⟩
  · simp only [putEmission, State.setFe_frame]
    rfl
  · simp only [putEmission, State.setFe_frame]
    rfl

variable (run : runOf s fr = some r) (listening : r.listening = true) (only : (s.fe (frFe s fr)).emissions = [e])
  (own : e.freeRun = some fr.val) (kind : e.kind ≠ 1)
include run listening only own kind

theorem lbtListenEnd_completes {t : State} {post : State → Prop}
    (effect : (if decide (4 * toSigned 8 (s.get (Reg.MAC_FR.THRESH fr)) ≤ atAntenna s (frFe s fr) peak) then
      startFreeRuns (busyListen (s.advance dt) fr r (frFe s fr) e)
      else (s.advance dt).onlyIf (decide (r.untilNs ≤ (s.advance dt).time.ns)) fun s => setRun s fr { r with listening := false }) = t)
    (clock : t.tick = s.tick + dt) (queue : t.pending = s.pending) (hp : post t) : completes (.lbtListenEnd dt fr peak) s post := by
  refine completes_of_effect (dt := dt) (by unfold exec execLbtListenEnd; rfl) ?_ clock queue hp
  have found : (((s.advance dt).fe (frFe (s.advance dt) fr)).emissions.find? fun e => decide (e.freeRun = some fr.val ∧ e.kind ≠ 1)) =
      some e := by
    change ((s.fe (frFe s fr)).emissions.find? _) = some e
    rw [only]
    exact List.find?_cons_of_pos (decide_eq_true ⟨own, kind⟩)
  have run' : runOf (s.advance dt) fr = some r := run
  dsimp only
  rw [found, run', ← effect]
  dsimp only
  rw [listening]
  rfl

theorem lbtListenEnd_busy (loud : 4 * toSigned 8 (s.get (Reg.MAC_FR.THRESH fr)) ≤ atAntenna s (frFe s fr) peak) :
    completes (.lbtListenEnd dt fr peak) s fun t =>
      if s.get (Reg.MAC_FR.MAX_TRIES fr) ≤ r.busy + 1 then countedOnce s t Ctr.LBT_FAIL
      else ∃ r', runOf t fr = some r' ∧ r'.busy = r.busy + 1 ∧ r'.be = min (r.be + 1) (s.get (Reg.MAC_FR.MAX_BE fr)) := by
  have runs := startFreeRuns_onlyRuns (busyListen (s.advance dt) fr r (frFe s fr) e)
  obtain ⟨clock, queue⟩ := runs.clock_eq
  by_cases last : s.get (Reg.MAC_FR.MAX_TRIES fr) ≤ r.busy + 1
  · have traffic := busyListen_gives_up (s := s.advance dt) (e := e) fr (frFe s fr) last
    obtain ⟨-, -, counters, clock', queue'⟩ := dropEmission_rest (s.advance dt) (frFe s fr) e
    have counted : ((endRun (dropEmission (s.advance dt) (frFe s fr) e) fr).count Ctr.LBT_FAIL).tick = s.tick + dt ∧
        ((endRun (dropEmission (s.advance dt) (frFe s fr) e) fr).count Ctr.LBT_FAIL).pending = s.pending := by
      simp only [State.count_frame]
      exact ⟨clock', queue'⟩
    refine lbtListenEnd_completes run listening only own kind (by rw [if_pos (decide_eq_true loud)])
      ((clock.trans traffic.clock_eq.1).trans counted.1) ((queue.trans traffic.clock_eq.2).trans counted.2) ?_
    rw [if_pos last, countedOnce, runs.counter_eq _ (by decide) (by decide), traffic.counter_eq _ (by decide)]
    change Cells.get (State.count { s with counters := (dropEmission (s.advance dt) (frFe s fr) e).counters } Ctr.LBT_FAIL).counters _ _ = _
    rw [counters]
    rfl
  · obtain ⟨⟨r', again, tries, be⟩, clock', queue'⟩ := busyListen_listens_again (s := s.advance dt) (r := r) (e := e) fr (frFe s fr) last
    refine lbtListenEnd_completes run listening only own kind (by rw [if_pos (decide_eq_true loud)]) (clock.trans clock')
      (queue.trans queue') ?_
    rw [if_neg last]
    exact ⟨r', runs.runOf_eq _ _ again, tries, be⟩

theorem lbtListenEnd_quiet (quiet : atAntenna s (frFe s fr) peak < 4 * toSigned 8 (s.get (Reg.MAC_FR.THRESH fr)))
    (ended : r.untilNs ≤ (s.advance dt).time.ns) :
    completes (.lbtListenEnd dt fr peak) s fun t =>
      runOf t fr = some { r with listening := false } ∧ { t with mac := s.mac } = s.advance dt := by
  refine lbtListenEnd_completes (t := setRun (s.advance dt) fr { r with listening := false }) run listening only own kind ?_ rfl rfl
    ⟨runOf_setRun_self _ _ _, rfl⟩
  rw [if_neg (by simpa using quiet), State.onlyIf, if_pos (decide_eq_true ended)]

end Listen

/-- Settles O32: a busy channel, a missing acknowledgement and a busy listen are failed attempts, and a free channel is none. -/
theorem failedAttempts : Obligations.FailedAttempts := by
  rintro s _ dt start fe fr peak peak2 e c p q d w r b shared busy _ rfl rfl
  refine ⟨fun only waits kind cell one sharedCell fresh load hstart ended hbusy => ⟨?_, ?_, ?_⟩, ?_, ?_⟩
  · rintro isBusy taken held rfl
    exact ccaDone_retried only waits kind cell one sharedCell fresh load hstart ended (hbusy.symm.trans isBusy) taken held
  · exact fun isBusy => ccaDone_first only waits kind cell one sharedCell fresh load hstart ended (hbusy.symm.trans isBusy)
  · exact fun isFree => ccaDone_free only waits kind cell one sharedCell fresh load hstart ended (hbusy.symm.trans isFree)
  · rintro waiting front owner rfl ended held none'
    exact ackWaitEnd_fails waiting front owner ended held none'
  · exact fun run listening only own kind =>
      ⟨lbtListenEnd_busy run listening only own kind, lbtListenEnd_quiet run listening only own kind⟩

end Sys2Proof.Machine
end

section
/-!
SUPPORT. What an enqueue leaves as it was (R384, R385); then the seen cache, own floods and wake-up requests (R278, R280, R283, R284),
and the statement about them.
-/

namespace Sys2Proof.Machine

/-! An enqueue. -/

/-- `t` is `a` but for the queues, the memories, free values, what has been reported and the windows of register fields: all that an
enqueue changes. -/
structure onlyEnqueues (a t : State) : Prop where
  rest : { t with fields := a.fields, counters := a.counters, events := a.events, q := a.q, mem := a.mem, freeCtr := a.freeCtr } = a
  get_eq : ∀ g : Fld, keptField g = true → t.get g = a.get g
  counter_eq : ∀ c, c ≠ Ev.QUEUE_DROP → Cells.get t.counters c 0 = Cells.get a.counters c 0

namespace onlyEnqueues
variable {a b t : State}

theorem refl (a : State) : onlyEnqueues a a := ⟨rfl, fun _ _ => rfl, fun _ _ => rfl⟩

theorem trans (h : onlyEnqueues a b) (k : onlyEnqueues b t) : onlyEnqueues a t where
  rest := by
    have rest := h.rest
    rw [← k.rest] at rest
    exact rest
  get_eq g kept := (k.get_eq g kept).trans (h.get_eq g kept)
  counter_eq c other := (k.counter_eq c other).trans (h.counter_eq c other)

theorem onlyIf (s : State) (c : Bool) {k : State → State} (h : ∀ s, onlyEnqueues s (k s)) : onlyEnqueues s (s.onlyIf c k) :=
  State.onlyIf_keeps (P := onlyEnqueues s) s c k (refl s) fun _ => h s

theorem setQ (s : State) (x : QueueState) : onlyEnqueues s (s.setQ x) := ⟨rfl, fun _ _ => rfl, fun _ _ => rfl⟩
theorem drawn (s : State) : onlyEnqueues s s.drawn := ⟨rfl, fun _ _ => rfl, fun _ _ => rfl⟩
theorem ddrReplace (s : State) (x : Nat) (bs : List Byte) : onlyEnqueues s (s.ddrReplace x bs) := ⟨rfl, fun _ _ => rfl, fun _ _ => rfl⟩

theorem frame (h : onlyEnqueues a t) : t.mac = a.mac ∧ t.nv = a.nv ∧ t.tick = a.tick ∧ t.pending = a.pending := by
  have mac := congrArg State.mac h.rest
  have nv := congrArg State.nv h.rest
  have tick := congrArg State.tick h.rest
  have pending := congrArg State.pending h.rest
  exact ⟨mac, nv, tick, pending⟩

end onlyEnqueues

section Enqueue
variable (s : State) (q : Nat)

theorem queueDrop_onlyEnqueues (cause : Nat) : onlyEnqueues s (queueDrop s q cause) := by
  have counted (x : QueueState) (c : Nat) (other : c ≠ Ev.QUEUE_DROP) :
      Cells.get ((s.setQ x).count Ev.QUEUE_DROP).counters c 0 = Cells.get s.counters c 0 := Cells.get_set_other _ _ _ _ other
  refine ⟨?_, (queueDrop_onlySchedules s q cause).get_eq, fun c other => ?_⟩
  · unfold queueDrop
    dsimp only
    split
    · have rest := fun x c source arg => congrArg (fun u : State => { u with q := s.q, mem := s.mem, freeCtr := s.freeCtr })
        (State.event_frame (s.setQ x) c source arg)
      exact rest ..
    · simp only [State.count_frame]
      rfl
  · unfold queueDrop
    dsimp only
    split
    · rw [State.event_counters]
      exact counted _ c other
    · exact counted _ c other

theorem takeCells_onlyEnqueues (n : Nat) (got : List Nat) : onlyEnqueues s (takeCells s n got).2 := by
  induction n generalizing s got with
  | zero => exact .refl s
  | succ n ih => exact (onlyEnqueues.drawn s).trans (ih ..)

theorem writeCells_onlyEnqueues (cells : List Nat) (bs : List Byte) : onlyEnqueues s (writeCells s cells bs) := by
  induction cells generalizing s bs with
  | nil => exact .refl s
  | cons c cs ih => exact (((onlyEnqueues.ddrReplace s _ _).trans (.ddrReplace _ _ _)).trans (.drawn _)).trans (ih ..)

theorem writePktDesc_onlyEnqueues (p : Packet) (next : Nat) : onlyEnqueues s (writePktDesc s p next) := .ddrReplace ..

theorem spill_onlyEnqueues (p : Packet) : onlyEnqueues s (spill s p).2 :=
  ((((takeCells_onlyEnqueues ..).trans (.drawn _)).trans (.drawn _)).trans (writeCells_onlyEnqueues ..)).trans
    ((onlyEnqueues.drawn _).trans (writePktDesc_onlyEnqueues ..))

theorem linkLast_onlyEnqueues (p : Packet) : onlyEnqueues s (linkLast s q p) := by
  unfold linkLast
  split
  · exact .refl s
  · refine .onlyIf s _ fun s => ?_
    split
    · exact (onlyEnqueues.drawn s).trans (writePktDesc_onlyEnqueues ..)
    · exact writePktDesc_onlyEnqueues ..

variable (p : Packet)

/-- The packet that an enqueue appends, and the state with its cells written. -/
def placed : Packet × State :=
  let p := { p with queue := q, enqUs := s.nowUs, onchip := goesOnchip s q p }
  if p.onchip then (p, s) else spill s p

theorem placed_onlyEnqueues : onlyEnqueues s (placed s q p).2 := by
  unfold placed
  dsimp only
  split
  · exact .refl s
  · exact spill_onlyEnqueues ..

/-- A packet is appended with its payload and its flood header. -/
theorem placed_shows : (placed s q p).1.flood = p.flood ∧ (placed s q p).1.data = p.data := by
  unfold placed
  dsimp only
  split <;> exact ⟨rfl, rfl⟩

variable {s q p} in
theorem enqueue_of_refused {c : Nat} (refused : enqueueCause s q p = some c) : enqueue s q p = (queueDrop s q c, false) := by
  unfold enqueue
  rw [refused]

variable {s q p} in
theorem enqueue_of_accepted (accepted : enqueueCause s q p = none) :
    enqueue s q p = (setQueue (linkLast (placed s q p).2 q (placed s q p).1) q (queueAt s q ++ [(placed s q p).1]), true) := by
  unfold enqueue
  rw [accepted]
  rfl

theorem enqueue_onlyEnqueues : onlyEnqueues s (enqueue s q p).1 := by
  cases h : enqueueCause s q p with
  | some c =>
    rw [enqueue_of_refused h]
    exact queueDrop_onlyEnqueues ..
  | none =>
    rw [enqueue_of_accepted h]
    exact ((placed_onlyEnqueues ..).trans (linkLast_onlyEnqueues ..)).trans (.setQ _ _)

variable {s q p} in
/-- An accepted packet stands at the end of its queue. -/
theorem mem_queueAt_enqueue (accepted : enqueueCause s q p = none) :
    ∃ p' ∈ queueAt (enqueue s q p).1 q, p'.flood = p.flood ∧ p'.data = p.data := by
  refine ⟨(placed s q p).1, ?_, placed_shows s q p⟩
  rw [enqueue_of_accepted accepted, queueAt_setQueue_self]
  exact List.mem_append_right _ (List.mem_singleton_self _)

end Enqueue

/-! The seen cache (R278). -/

/-- Has the LIFE of an entry passed? -/
def lifePassed (s : State) (w : Nat) : Bool :=
  bit w 63 && decide (((seenLifeMs s : Nat) : Int) ≤ diffN 30 (s.time.ns / 1000000 % 2 ^ 30) (w % 2 ^ 30))

/-- The seen cache after a visit. -/
def seenLeft (s : State) : List (Nat × Nat) := s.tables.seen.filterMap fun e =>
  let w := if lifePassed s e.2 then e.2 - 2 ^ 63 else e.2
  if w = 0 then none else some (e.1, w)

/-- What is left of the cache is not past its LIFE where it is VALID. -/
theorem seenLeft_fresh (s : State) {x : Nat × Nat} (mem : x ∈ seenLeft s) (valid : bit x.2 63 = true) :
    diffN 30 (s.time.ns / 1000000 % 2 ^ 30) (x.2 % 2 ^ 30) < (seenLifeMs s : Int) := by
  obtain ⟨e, -, he⟩ := List.mem_filterMap.1 mem
  cases past : lifePassed s e.2 with
  | true =>
    have was : bit e.2 63 = true := (Bool.and_eq_true _ _ ▸ past : _ ∧ _).1
    simp only [past, if_true, Option.ite_none_left_eq_some, Option.some.injEq] at he
    rw [← he.2] at valid
    simp only [bit, decide_eq_true_eq] at was valid
    omega
  | false =>
    simp only [past, Bool.false_eq_true, if_false, Option.ite_none_left_eq_some, Option.some.injEq] at he
    rw [← he.2] at valid ⊢
    simpa only [lifePassed, valid, Bool.true_and, decide_eq_false_iff_not, not_le] using past

/-- An entry that is not past its LIFE is left. -/
theorem mem_seenLeft (s : State) {x : Nat × Nat} (mem : x ∈ s.tables.seen) (used : x.2 ≠ 0)
    (fresh : diffN 30 (s.time.ns / 1000000 % 2 ^ 30) (x.2 % 2 ^ 30) < (seenLifeMs s : Int)) : x ∈ seenLeft s := by
  have stays : lifePassed s x.2 = false := by
    rw [lifePassed, decide_eq_false (not_le.2 fresh), Bool.and_false]
  exact List.mem_filterMap.2 ⟨x, mem, by simp only [stays, Bool.false_eq_true, if_false, if_neg used]⟩

theorem seenCacheVisit_leaves (s : State) (dt : Nat) : completes (.seenCacheVisit dt) s fun t =>
    t = (s.advance dt).setTables { s.tables with seen := seenLeft (s.advance dt) } :=
  completes_of_effect (r := (s.advance dt).setTables { s.tables with seen := seenLeft (s.advance dt) }) (dt := dt)
    (by unfold exec execSeenCacheVisit; rfl) (by unfold seenLeft lifePassed; rfl) rfl rfl rfl

/-! Own floods (R280). -/

section Flood
variable (s : State)

theorem drawSeqNo_onlyEnqueues : onlyEnqueues s (drawSeqNo s).1 := by
  unfold drawSeqNo
  split
  · exact .drawn s
  · exact .refl s

theorem floodEnqueue_onlyEnqueues (w : FloodWait) (seq : Nat) : onlyEnqueues s (floodEnqueue s w seq).1 :=
  List.foldlRecOn (motive := fun acc : State × Bool => onlyEnqueues s acc.1) _ _ (.refl s) fun _ kept _ _ =>
    (kept.trans (drawSeqNo_onlyEnqueues _)).trans (enqueue_onlyEnqueues ..)

/-- The counter moves on by one. -/
theorem nvValue_nvTake (kind : Nat) : nvValue (nvTake s kind).2 kind = nvValue s kind + 1 := by
  unfold nvTake nvValue
  dsimp only
  split <;> simp only [Cells.get_set_self]

/-- The packet that a flood puts into a queue. -/
def floodPacket (s : State) (w : FloodWait) (f : Flood) : Packet :=
  sized s { w.pkt with flood := some f, seqNo := (drawSeqNo s).2 }

/-- What a window and the counter's move change does not count for the packet, nor for whether a queue takes it. -/
theorem enqueueCause_floodPacket {a : State} (m : MacState) (n : NvState) (w : FloodWait) (f : Flood) (q : Nat) :
    enqueueCause (drawSeqNo { a with mac := m, nv := n }).1 q
      (sized (drawSeqNo { a with mac := m, nv := n }).1 { w.pkt with flood := some f, seqNo := (drawSeqNo { a with mac := m, nv := n }).2 }) =
      enqueueCause a q (floodPacket a w f) := by
  unfold floodPacket drawSeqNo
  split <;> rfl

/-- The machine once a flood has taken a window and its sequence number. -/
def windowTaken (s : State) (floods : List FloodWait) : State :=
  (nvTake (s.setMac { s.mac with floodWindow := some (s.time.ns / 20000000), floods := floods }) NvKind.FSEQ).2

/-- The header of an own flood. -/
def floodHeader (s : State) : Flood :=
  { seed := s.get Reg.MAC_FLOOD_CTRL.SEED_ID, seq := nvValue s NvKind.FSEQ % 65536, hops := max 1 (s.get Reg.MAC_FLOOD_CTRL.HOPS) }

variable {s} {dt q : Nat} {w : FloodWait}

/-- A flood of one queue stands there with its header, if the queue takes it. -/
theorem mem_floodEnqueue (one : w.queues = [q])
    (accepted : enqueueCause s q (floodPacket s w (floodHeader s)) = none) :
    ∃ p ∈ queueAt (floodEnqueue (windowTaken s []) w (nvValue s NvKind.FSEQ)).1 q, p.flood = some (floodHeader s) ∧ p.data = w.pkt.data := by
  unfold floodEnqueue
  rw [one, List.foldl_cons, List.foldl_nil]
  exact mem_queueAt_enqueue ((enqueueCause_floodPacket (a := s) ..).trans accepted)

/-- A window lets the only flood that waits take the next SEQ. -/
theorem floodWindow_completes {post : State → Prop} (waits : s.mac.floods = [w]) (own : w.flock = none)
    (new : s.mac.floodWindow ≠ some ((s.advance dt).time.ns / 20000000)) (ready : nvReady s NvKind.FSEQ = true)
    (hp : post (floodEnqueue (windowTaken (s.advance dt) []) w (nvValue s NvKind.FSEQ)).1) : completes (.floodWindow dt) s post := by
  obtain ⟨-, -, clock, queue⟩ := (floodEnqueue_onlyEnqueues (windowTaken (s.advance dt) []) w (nvValue s NvKind.FSEQ)).frame
  refine completes_of_whenever (by unfold exec execFloodWindow; rfl) ?_ ?_ clock queue hp
  · exact Bool.and_eq_true_iff.2 ⟨decide_eq_true new, ready⟩
  · have next : floodNext (s.advance dt) = some w := by
      have first : s.mac.floods.find? (fun w => w.flock.isNone) = some w := by
        rw [waits]
        exact List.find?_cons_of_pos (by rw [own]; rfl)
      unfold floodNext
      rw [show (s.advance dt).mac.floods.find? (fun w => w.flock.isNone) = some w from first]
    have left : (s.advance dt).mac.floods.takeWhile (· ≠ w) ++ ((s.advance dt).mac.floods.dropWhile (· ≠ w)).drop 1 = [] := by
      change s.mac.floods.takeWhile (· ≠ w) ++ (s.mac.floods.dropWhile (· ≠ w)).drop 1 = []
      rw [waits]
      simp
    dsimp only
    rw [next]
    dsimp only
    rw [left, own]
    rfl

theorem floodWindow_takes (waits : s.mac.floods = [w]) (own : w.flock = none)
    (new : s.mac.floodWindow ≠ some ((s.advance dt).time.ns / 20000000)) (ready : nvReady s NvKind.FSEQ = true) :
    completes (.floodWindow dt) s fun t => t.mac.floods = [] ∧ t.mac.floodWindow = some ((s.advance dt).time.ns / 20000000) ∧
      nvValue t NvKind.FSEQ = nvValue s NvKind.FSEQ + 1 ∧
      (w.queues = [q] → enqueueCause (s.advance dt) q (floodPacket (s.advance dt) w (floodHeader s)) = none →
        ∃ p ∈ queueAt t q, p.flood = some (floodHeader s) ∧ p.data = w.pkt.data) := by
  obtain ⟨mac, nv, -, -⟩ := (floodEnqueue_onlyEnqueues (windowTaken (s.advance dt) []) w (nvValue s NvKind.FSEQ)).frame
  refine floodWindow_completes waits own new ready ⟨?_, ?_, ?_, fun one accepted => mem_floodEnqueue (s := s.advance dt) one accepted⟩
  · rw [mac]
    rfl
  · rw [mac]
    rfl
  · rw [nvValue, nv]
    exact nvValue_nvTake ((s.advance dt).setMac _) NvKind.FSEQ

end Flood

/-! Wake-up requests (R283, R284). -/

section Wake
variable {s : State} {dt : Nat} {v : Word}

theorem wakeRequest_completes {r : State} {post : State → Prop} (effect : writeWakeReq (s.advance dt) v.toNat = r)
    (clock : r.tick = s.tick + dt) (queue : r.pending = s.pending) (hp : post (r.answer 0)) : completes (.wakeRequest dt v) s post :=
  completes_of_effect (dt := dt) (r := r.answer 0) (by unfold exec execWakeRequest; rfl) (congrArg (State.answer · 0) effect) clock
    queue hp

/-- A refusal shows its cause and changes nothing but the status. -/
theorem wakeRefuse_shows (s : State) {cause : Nat} (small : cause < 2 ^ Reg.MAC_WAKE_STATUS.CAUSE.width) :
    (wakeRefuse s cause).flag Reg.MAC_WAKE_STATUS.REFUSED = true ∧ (wakeRefuse s cause).get Reg.MAC_WAKE_STATUS.CAUSE = cause ∧
      (wakeRefuse s cause).mac = s.mac ∧ (wakeRefuse s cause).outs = s.outs := by
  refine ⟨?_, State.get_set_of_lt _ _ small, rfl, rfl⟩
  have other : Reg.MAC_WAKE_STATUS.REFUSED.key ≠ Reg.MAC_WAKE_STATUS.CAUSE.key := by decide
  rw [wakeRefuse, State.flag, State.get_set_other _ _ _ _ other, ← State.flag]
  exact State.flag_setFlag_self ..

/-- A request while BUSY is set is ignored. -/
theorem wakeRequest_ignored (busy : s.flag Reg.MAC_WAKE_STATUS.BUSY = true) :
    completes (.wakeRequest dt v) s fun t => onlyRegsAnswered (s.advance dt) t [] := by
  refine wakeRequest_completes (r := s.advance dt) ?_ rfl rfl (onlyRegsAnswered_of_onlyRegs (onlyRegs_refl ..) 0)
  unfold writeWakeReq
  exact if_pos (by rw [State.advance_flag, busy, Bool.or_true])

theorem wakeRequest_refused {cause : Nat} (small : cause < 2 ^ Reg.MAC_WAKE_STATUS.CAUSE.width)
    (effect : writeWakeReq (s.advance dt) v.toNat = wakeRefuse (s.advance dt) cause) :
    completes (.wakeRequest dt v) s fun t => t.flag Reg.MAC_WAKE_STATUS.REFUSED = true ∧
      t.get Reg.MAC_WAKE_STATUS.CAUSE = cause ∧ t.mac = s.mac ∧ t.outs = s.outs :=
  wakeRequest_completes effect rfl rfl (wakeRefuse_shows (s.advance dt) small)

/-- The pattern that a request asks for. -/
def wakeAsked (v : Word) : Wake :=
  { addr := bits v.toNat 31 0, reps := max 1 (bits v.toNat 39 32), fr := bits v.toNat 41 40 }

/-- The machine with a pattern that waits. -/
def wakeWaits (s : State) (w : Wake) : State :=
  (s.setFlag Reg.MAC_WAKE_STATUS.BUSY true).setMac { s.mac with wake := some w }

section Request
variable (go : v.getLsbD 63 = true) (idle : s.flag Reg.MAC_WAKE_STATUS.BUSY = false)
include go idle

/-- What an idle device makes of a request: the address is looked at first, and then the channel. -/
theorem writeWakeReq_of_idle : writeWakeReq s v.toNat =
    if wakeAddrOk (bits v.toNat 31 0) = false then wakeRefuse s 1
    else if s.flag (Reg.MAC_FR.EN (bits v.toNat 41 40)) = true ∧ frFe s (bits v.toNat 41 40) ≠ 2 then wakeWaits s (wakeAsked v)
    else wakeRefuse s 2 := by
  have asks : (!bit v.toNat 63 || s.flag Reg.MAC_WAKE_STATUS.BUSY) = false := by
    rw [bit_toNat, go, idle]
    rfl
  unfold writeWakeReq
  dsimp only
  rw [asks, if_neg Bool.false_ne_true]
  cases legal : wakeAddrOk (bits v.toNat 31 0) with
  | false => rfl
  | true =>
    rw [Bool.not_true, if_neg Bool.false_ne_true, if_neg Bool.true_eq_false_eq_False]
    by_cases open' : s.flag (Reg.MAC_FR.EN (bits v.toNat 41 40)) = true ∧ frFe s (bits v.toNat 41 40) ≠ 2
    · rw [if_pos open', if_neg (by simpa using open')]
      rfl
    · rw [if_neg open', if_pos (by simpa [or_iff_not_imp_left] using open')]

end Request

theorem wakeRequest_answered (go : v.getLsbD 63 = true) (idle : s.flag Reg.MAC_WAKE_STATUS.BUSY = false) :
    completes (.wakeRequest dt v) s fun t =>
      if wakeAddrOk (bits v.toNat 31 0) = false then t.flag Reg.MAC_WAKE_STATUS.REFUSED = true ∧
        t.get Reg.MAC_WAKE_STATUS.CAUSE = 1 ∧ t.mac = s.mac ∧ t.outs = s.outs
      else if s.flag (Reg.MAC_FR.EN (bits v.toNat 41 40)) = true ∧ frFe s (bits v.toNat 41 40) ≠ 2 then
        t.flag Reg.MAC_WAKE_STATUS.BUSY = true ∧ { t.mac with wake := s.mac.wake } = s.mac ∧ t.mac.wake = some (wakeAsked v) ∧
        onlyRegsAnswered (s.advance dt) { t with mac := s.mac } [Reg.MAC_WAKE_STATUS.BUSY]
      else t.flag Reg.MAC_WAKE_STATUS.REFUSED = true ∧ t.get Reg.MAC_WAKE_STATUS.CAUSE = 2 ∧ t.mac = s.mac ∧ t.outs = s.outs := by
  have effect := writeWakeReq_of_idle (s := s.advance dt) go idle
  by_cases illegal : wakeAddrOk (bits v.toNat 31 0) = false
  · simp only [if_pos illegal] at effect ⊢
    exact wakeRequest_refused (by decide) effect
  · by_cases open' : s.flag (Reg.MAC_FR.EN (bits v.toNat 41 40)) = true ∧ frFe s (bits v.toNat 41 40) ≠ 2
    · simp only [if_neg illegal, if_pos open'] at effect ⊢
      have waits := effect.trans (if_pos open')
      have only := State.set_onlyRegs (s.advance dt) (List.mem_singleton_self Reg.MAC_WAKE_STATUS.BUSY) (b2n true)
      have busy : (wakeWaits (s.advance dt) (wakeAsked v)).flag Reg.MAC_WAKE_STATUS.BUSY = true :=
        State.flag_setFlag_self (s.advance dt) Reg.MAC_WAKE_STATUS.BUSY true
      exact wakeRequest_completes waits rfl rfl
        ⟨busy, rfl, rfl, onlyRegsAnswered_of_onlyRegs only 0⟩
    · simp only [if_neg illegal, if_neg open'] at effect ⊢
      exact wakeRequest_refused (by decide) (effect.trans (if_neg open'))

/-! Admission (R284). -/

/-- The channel of a run that begins listens. -/
theorem startRun_listens (s : State) (f : Nat) (l : Load) (duty : Option (Nat × Nat)) :
    (∃ r, runOf (startRun s f l duty) f = some r ∧ r.listening = true ∧ r.load = l ∧ s.time.ns ≤ r.untilNs) ∧
      { (startRun s f l duty).mac with freeRuns := s.mac.freeRuns } = s.mac := by
  unfold startRun
  dsimp only [listenNs]
  generalize withLo _ _ _ = e
  have mac (r : FreeRun) : (addEmission (setRun s.drawn f r) (frFe s.drawn f) e).mac = (setRun s.drawn f r).mac := by
    have added := congrArg State.mac (addEmission_rest (setRun s.drawn f r) (frFe s.drawn f) e)
    exact added
  have run (r : FreeRun) : runOf (addEmission (setRun s.drawn f r) (frFe s.drawn f) e) f = some r := by
    rw [runOf, mac, ← runOf, runOf_setRun_self]
  refine ⟨⟨_, run _, rfl, rfl, Nat.le_add_right _ _⟩, ?_⟩
  rw [mac]
  rfl

theorem wakeAdmit_listens {w : Wake} (waits : s.mac.wake = some w) (fresh : w.admitted = false) (held : holder s = true)
    (idle : runOf s w.fr = none)
    (admits : dutyAdmits (s.advance dt) (frSub s w.fr) (wakeAirtimeUs w.reps) true = true) :
    completes (.wakeAdmit dt) s fun t => t.mac.wake = some { w with admitted := true } ∧
      ∃ r, runOf t w.fr = some r ∧ r.listening = true ∧ r.load = .wake w.addr w.reps ∧ (s.advance dt).time.ns ≤ r.untilNs := by
  let m : State := (s.advance dt).setMac { s.mac with wake := some { w with admitted := true } }
  have debited := dutyDebit_onlyAccounts m (frSub s w.fr) (wakeAirtimeUs w.reps)
  obtain ⟨-, -, -, mac, -, clock, queue⟩ := debited.frame
  have time := congrArg State.time debited.rest
  change (dutyDebit m (frSub s w.fr) (wakeAirtimeUs w.reps)).time = (s.advance dt).time at time
  generalize hd : dutyDebit m (frSub s w.fr) (wakeAirtimeUs w.reps) = d at mac clock queue time
  have free : runOf d w.fr = none := by
    rw [runOf, mac]
    exact idle
  obtain ⟨⟨r, run, listens, load, til⟩, rest⟩ := startRun_listens d w.fr (.wake w.addr w.reps) (some (frSub s w.fr, dutySecond m))
  obtain ⟨clock', queue'⟩ := (startRun_onlyRuns d free (.wake w.addr w.reps) (some (frSub s w.fr, dutySecond m))).clock_eq
  refine completes_of_effect (dt := dt) (r := startRun d w.fr (.wake w.addr w.reps) (some (frSub s w.fr, dutySecond m)))
    (by unfold exec execWakeAdmit; rfl) ?_ (clock'.trans clock) (queue'.trans queue) ⟨?_, r, run, listens, load, time ▸ til⟩
  · have stays : (w.admitted || !holder (s.advance dt) || (runOf (s.advance dt) w.fr).isSome) = false := by
      rw [fresh, show holder (s.advance dt) = true from held, show runOf (s.advance dt) w.fr = none from idle]
      rfl
    rw [show (s.advance dt).mac.wake = some w from waits]
    dsimp only
    rw [stays, if_neg Bool.false_ne_true]
    refine (if_pos admits).trans ?_
    rw [← hd]
    rfl
  · have wake := congrArg MacState.wake rest
    exact wake.trans (congrArg MacState.wake mac)

end Wake

/-- Settles O33: the seen cache, the window of own floods, and wake-up requests with their admission. -/
theorem floodsAndWakePatterns : Obligations.FloodsAndWakePatterns := by
  refine ⟨?_, ?_⟩
  · rintro s _ dt q w f rfl
    refine ⟨?_, fun waits own new ready => ?_⟩
    · refine completes_mono (seenCacheVisit_leaves s dt) ?_
      rintro _ rfl
      exact ⟨fun x mem valid => seenLeft_fresh (s.advance dt) mem valid,
        fun x mem used fresh => mem_seenLeft (s.advance dt) mem used fresh, rfl⟩
    · refine completes_mono (floodWindow_takes (q := q) waits own new ready) ?_
      rintro t ⟨floods, window, value, enqueued⟩
      refine ⟨floods, window, value, ?_⟩
      rintro one rfl
      exact enqueued one
  · rintro s _ dt v w rfl
    exact ⟨fun _ => wakeRequest_ignored, wakeRequest_answered, wakeAdmit_listens⟩

end Sys2Proof.Machine
end

section
/-!
SUPPORT. What the work at a timeslot boundary leaves as it was, and which emissions it adds (R89, R249, R250, R515); then the beacon
time source (R273, R274, R449), and the statement about both.
-/

namespace Sys2Proof.Machine

/-! What is kept at a boundary. -/

/-- The last timeslot built, the change list that waits, the schedule, the clock and the queue of commands. -/
def slotRest (s : State) : Option Nat × SauState × List (Nat × Nat) × Nat × List Instr :=
  (s.mac.lastAsn, s.sau, s.tables.cells, s.tick, s.pending)

/-- The fields that say where a timeslot lies, and that a change list has taken effect. -/
def slotFields : List Fld :=
  [Reg.MAC_SAU_STATUS.APPLIED, Reg.MAC_ASN_EPOCH.EPOCH_NS, Reg.MAC_SLOT_0.SLOT_LEN, Reg.MAC_SLOT_0.TX_OFFSET]

/-- The instant at which the first chip of a timeslot's emissions is due (R249). -/
def slotFirst (s : State) (asn : Nat) : Nat := slotStart s asn + s.get Reg.MAC_SLOT_0.TX_OFFSET * 1000

/-- `t` is `a` in all that a boundary's work keeps, and holds no emissions but those of `a` and new ones. -/
structure slotKept (new : Emission → Prop) (a t : State) : Prop where
  rest : slotRest t = slotRest a
  get_eq : ∀ g ∈ slotFields, t.get g = a.get g
  emissions : ∀ fe x, x ∈ (t.fe fe).emissions → x ∈ (a.fe fe).emissions ∨ new x

theorem slotFields_kept : ∀ g ∈ slotFields, keptField g = true := by decide

namespace slotKept
variable {new : Emission → Prop} {a b t : State}

theorem refl (a : State) : slotKept new a a := ⟨rfl, fun _ _ => rfl, fun _ _ h => .inl h⟩

theorem trans (h : slotKept new a b) (k : slotKept new b t) : slotKept new a t where
  rest := k.rest.trans h.rest
  get_eq g hg := (k.get_eq g hg).trans (h.get_eq g hg)
  emissions fe x hx := (k.emissions fe x hx).elim (h.emissions fe x) .inr

theorem onlyIf (s : State) (c : Bool) {k : State → State} (h : ∀ s, slotKept new s (k s)) : slotKept new s (s.onlyIf c k) :=
  State.onlyIf_keeps (P := slotKept new s) s c k (refl s) fun _ => h s

theorem foldl {β : Type} {f : State → β → State} (h : ∀ s e, slotKept new s (f s e)) (l : List β) (s : State) :
    slotKept new s (l.foldl f s) :=
  List.foldlRecOn (motive := slotKept new s) l f (refl s) fun _ ht e _ => ht.trans (h _ e)

/-- A change of nothing that is kept. -/
theorem of_rest (rest : slotRest t = slotRest a) (fields : t.fields = a.fields) (fronts : ∀ fe, t.fe fe = a.fe fe) :
    slotKept new a t :=
  ⟨rest, fun g _ => State.get_congr fields g, fun fe _ hx => .inl (fronts fe ▸ hx)⟩

theorem set (s : State) {f : Fld} (apart : ∀ g ∈ slotFields, g.key ≠ f.key) (v : Nat) : slotKept new s (s.set f v) :=
  ⟨rfl, fun g hg => State.get_set_other s f g v (apart g hg), fun _ _ hx => .inl hx⟩

theorem setFlag (s : State) {f : Fld} (apart : ∀ g ∈ slotFields, g.key ≠ f.key) (b : Bool) : slotKept new s (s.setFlag f b) :=
  set s apart _

theorem count (s : State) (c n : Nat) : slotKept new s (s.count c n) :=
  of_rest (by simp only [slotRest, State.count_frame]) (by simp only [State.count_frame]) fun fe => by rw [State.count_fe]

theorem of_reports (h : onlyReports a t) (get_eq : ∀ g ∈ slotFields, t.get g = a.get g) : slotKept new a t where
  rest := by
    unfold onlyReports at h
    have rest := congrArg slotRest h
    exact rest
  get_eq := get_eq
  emissions fe x hx := by
    unfold onlyReports at h
    have fronts := congrArg (fun u : State => (u.fe fe).emissions) h
    change (t.fe fe).emissions = _ at fronts
    exact .inl (fronts ▸ hx)

theorem event (s : State) (code source arg : Nat) : slotKept new s (s.event code source arg) :=
  of_reports (State.event_onlyReports ..) fun g hg => by
    obtain ⟨-, ovf, lost⟩ := keptField_iff.1 (slotFields_kept g hg)
    exact State.event_get_other s code source arg ovf lost

theorem of_schedules (h : onlySchedules a t) : slotKept new a t where
  rest := by
    have rest := congrArg slotRest h.rest
    exact rest
  get_eq g hg := h.get_eq g (slotFields_kept g hg)
  emissions fe x hx := by
    have fronts := congrArg (fun u : State => (u.fe fe).emissions) h.rest
    change (t.fe fe).emissions = _ at fronts
    exact .inl (fronts ▸ hx)

theorem of_accounts (h : onlyAccounts a t) : slotKept new a t := of_schedules h.schedules

theorem emit (s : State) (o : Out) : slotKept new s (s.emit o) := by
  unfold State.emit
  dsimp only
  split
  · split <;> exact of_rest rfl rfl fun _ => rfl
  · exact of_rest rfl rfl fun _ => rfl
  · exact of_rest rfl rfl fun _ => rfl

theorem setLease (s : State) (x : LeaseState) : slotKept new s { s with lease := x } := of_rest rfl rfl fun _ => rfl
theorem setHear (s : State) (x : Hearing) : slotKept new s { s with hear := x } := of_rest rfl rfl fun _ => rfl
theorem setSafe (s : State) (x : SafeState) : slotKept new s { s with safe := x } := of_rest rfl rfl fun _ => rfl
theorem setQ (s : State) (x : QueueState) : slotKept new s (s.setQ x) := of_rest rfl rfl fun _ => rfl
theorem setSched (s : State) (x : SchedState) : slotKept new s (s.setSched x) := of_rest rfl rfl fun _ => rfl
theorem setHealth (s : State) (x : HealthState) : slotKept new s { s with health := x } := of_rest rfl rfl fun _ => rfl
theorem setCrypto (s : State) (x : CryptoState) : slotKept new s (s.setCrypto x) := of_rest rfl rfl fun _ => rfl
theorem drawn (s : State) : slotKept new s s.drawn := of_rest rfl rfl fun _ => rfl

theorem slotFirst_eq (h : slotKept new a t) (asn : Nat) : slotFirst t asn = slotFirst a asn := by
  have epoch := h.get_eq Reg.MAC_ASN_EPOCH.EPOCH_NS (by decide)
  have length := h.get_eq Reg.MAC_SLOT_0.SLOT_LEN (by decide)
  have offset := h.get_eq Reg.MAC_SLOT_0.TX_OFFSET (by decide)
  simp only [slotFirst, slotStart, slotNs, epoch, length, offset]

end slotKept

/-! The lease switches (R503, R514, R515). -/

section Lease
variable {new : Emission → Prop} (s : State)

theorem herdSend_slotKept (f : HerdFrame) : slotKept new s (herdSend s f) := by
  unfold herdSend
  split
  · exact .emit ..
  · exact .refl s

theorem sendPair_slotKept (type : Nat) (payload : List Byte) : slotKept new s (sendPair s type payload) := by
  unfold sendPair
  split
  · exact herdSend_slotKept ..
  · exact .foldl (fun s n => .onlyIf s _ fun s => .emit ..) _ s

theorem sendLease_slotKept (type act : Nat) : slotKept new s (sendLease s type act) := by
  unfold sendLease
  split
  · exact .refl s
  · exact (sendPair_slotKept ..).trans (.setLease _ _)

theorem sendRenew_slotKept : slotKept new s (sendRenew s) := (sendLease_slotKept ..).trans (.setLease _ _)

theorem loseLease_slotKept (cause epoch : Nat) : slotKept new s (loseLease s cause epoch) :=
  ((slotKept.set s (f := Reg.ETH_PAIR_STATUS.ROLE) (by decide) 1).trans (.setLease _ _)).trans (.event ..)

theorem takeLease_slotKept (cause : Nat) : slotKept new s (takeLease s cause) :=
  ((slotKept.set s (f := Reg.ETH_PAIR_STATUS.ROLE) (by decide) 2).trans (.event ..)).trans (sendRenew_slotKept _)

theorem drillSwitch_slotKept (asn : Nat) : slotKept new s (drillSwitch s asn) := by
  have switched (s : State) (d : Option Drill) (x : LeaseState) : slotKept new s { setDrill s d with lease := x } :=
    (slotKept.setFlag s (f := Reg.ETH_PAIR_STATUS.DRILL_PEND) (by decide) d.isSome).trans (.setLease _ _)
  have epoch (s : State) (v : Nat) : slotKept new s (s.set Reg.ETH_PAIR_STATUS.EPOCH v) := .set s (by decide) v
  unfold drillSwitch
  split
  · exact .refl s
  · split
    · exact .refl s
    · dsimp only
      split
      · exact (switched ..).trans (.onlyIf _ _ fun s => (epoch ..).trans (loseLease_slotKept ..))
      · exact (switched ..).trans (.onlyIf _ _ fun s => (epoch ..).trans (takeLease_slotKept ..))

end Lease

/-! The reservations of a timeslot (R250). -/

theorem reserveSlot_slotKept {new : Emission → Prop} (s : State) (asn : Nat) : slotKept new s (reserveSlot s asn) := by
  refine .foldl (fun s c => ?_) _ s
  dsimp only
  generalize ({ cell := _, fe := _, bin := _, windowFrom := _, windowTo := _ } : PendingRsv) = p
  unfold reserveLane
  split
  · exact .setHear s _
  · exact .setHear s _

/-! The words that a release reads (R388, R393). -/

section Release
variable {new : Emission → Prop} (s : State)

theorem chainOff_slotKept {fe : Nat} (front : fe < 3) : slotKept new s (chainOff s fe) := by
  have regs : slotKept new (s.setFe fe { s.fe fe with
      emissions := (s.fe fe).emissions.filter fun e => decide (e.phase ≠ .emitting), lastChipNs := s.time.ns }) (chainOff s fe) := by
    refine (slotKept.setFlag _ ?_ false).trans (.set _ ?_ 0)
    · interval_cases fe <;> decide
    · interval_cases fe <;> decide
  refine slotKept.trans ⟨?_, fun g _ => State.setFe_get .., fun n x hx => .inl ?_⟩ regs
  · unfold State.setFe
    split_ifs <;> rfl
  · obtain ⟨put, same⟩ | kept := State.fe_setFe s fe n { s.fe fe with
      emissions := (s.fe fe).emissions.filter fun e => decide (e.phase ≠ .emitting), lastChipNs := s.time.ns }
    · rw [put] at hx
      rw [same]
      exact List.mem_of_mem_filter hx
    · rwa [kept] at hx

theorem rampSafety_slotKept {fe : Nat} (front : fe < 3) : slotKept new s (rampSafety s fe) := by
  unfold rampSafety
  split
  · exact .refl s
  · exact .onlyIf s _ fun s => (chainOff_slotKept s front).trans (.emit ..)

theorem safeRename_slotKept (mech source detail : Nat) : slotKept new s (safeRename s mech source detail) := by
  unfold safeRename
  split
  · exact ((slotKept.set s (f := Reg.SAFE_STATUS.MECH) (by decide) mech).trans
      (.set _ (f := Reg.SAFE_STATUS.DETAIL) (by decide) detail)).trans (.of_rest rfl rfl fun _ => rfl)
  · exact .refl s

theorem enterSafe_slotKept (mech source detail : Nat) : slotKept new s (enterSafe s mech source detail) := by
  have mon := slotKept.set (new := new) s (f := Reg.SAFE_MON_STATUS.MON) (by decide) (s.get Reg.SAFE_MON_STATUS.MON ||| 2 ^ (mech - 1))
  have shown (s : State) : slotKept new s ((((safePin (safeEvent s mech source detail) false).setFlag Reg.SAFE_STATUS.SAFE true).set
      Reg.SAFE_STATUS.MECH mech).set Reg.SAFE_STATUS.DETAIL detail) :=
    ((((slotKept.event s _ _ _).trans (.emit _ _)).trans (.setFlag _ (by decide) true)).trans (.set _ (by decide) mech)).trans
      (.set _ (by decide) detail)
  unfold enterSafe
  dsimp only
  split
  · exact mon.trans (safeRename_slotKept ..)
  · split
    · exact ((((mon.trans (shown _)).trans (rampSafety_slotKept _ (by decide))).trans (rampSafety_slotKept _ (by decide))).trans
        (rampSafety_slotKept _ (by decide))).trans (.setSafe _ _)
    · exact (mon.trans (shown _)).trans (.set _ (f := Reg.SYS_BOOT_STATUS.STATE) (by decide) _)

theorem fifoRead_txReq_slotKept (block : Nat) (hw safety : Bool) (e : Ecc) :
    slotKept new s (fifoRead s Fifo.TX_REQ block hw safety e) := by
  unfold fifoRead
  split
  · exact .refl s
  · exact .set s (f := Reg.QMGR_FIFO_PROT.CORR_CNT Fifo.TX_REQ) (by decide) _
  · have noted := slotKept.setFlag (new := new) s (f := Reg.QMGR_FIFO_PROT.UNCORR Fifo.TX_REQ) (by decide) true
    have lost (s : State) : slotKept new s (fifoUncorr s Fifo.TX_REQ block hw) :=
      .of_reports (fifoUncorr_onlyReports ..) fun g hg => by
        obtain ⟨-, ovf, lost⟩ := keptField_iff.1 (slotFields_kept g hg)
        exact fifoUncorr_get_other s _ _ _ ovf lost
    have counted := (noted.trans (lost _)).trans (.onlyIf _ hw fun s => .count s Ctr.HW_FIFO_DROP 1)
    dsimp only
    split
    · exact counted.trans (enterSafe_slotKept ..)
    · exact counted.trans (.setFlag _ (f := Reg.SAFE_MON_STATUS.FIFO_REPORT) (by decide) true)

theorem queueDrop_slotKept (q cause : Nat) : slotKept new s (queueDrop s q cause) := .of_schedules (queueDrop_onlySchedules ..)

theorem dequeue_slotKept (q : Nat) (err : MemErr) : slotKept new s (dequeue s q err).1 := by
  unfold dequeue
  split
  · exact .refl s
  next p rest _ =>
    have read : slotKept new s (s.onlyIf (decide ((if p.onchip = true then MemErr.none else err) = .packet ∨
        (if p.onchip = true then MemErr.none else err) = .link)) fun s => s.drawn.ddrUncorr s.free) :=
      .onlyIf s _ fun s => (((slotKept.drawn s).trans (.setFlag _ (f := Reg.DDRC_ECC.UNCORR) (by decide) true)).trans
        (.set _ (f := Reg.DDRC_ECC.ADDR) (by decide) _)).trans (.setFlag _ (f := Reg.SAFE_MON_STATUS.ECC_REPORT) (by decide) true)
    dsimp only
    split
    · exact read.trans (.setQ _ _)
    · exact ((read.trans (.set _ (f := Reg.DDRC_ECC.CORR) (by decide) _)).trans (.setHealth _ _)).trans (.setQ _ _)
    · exact (read.trans (.setQ _ _)).trans (queueDrop_slotKept ..)
    · exact (((read.trans (queueDrop_slotKept ..)).trans (.foldl (fun s _ => queueDrop_slotKept s q 6) rest _)).trans
        (.setQ _ _)).trans (.setQ _ _)

theorem refund_slotKept (d : Debit) : slotKept new s (refund s d) := .of_accounts (refund_onlyAccounts ..)

theorem passRelease_slotKept (env : SlotEnv) (c : Cell) (o : Offer) (d : Debit) : slotKept new s (passRelease s env c o d).1 := by
  unfold passRelease
  dsimp only
  split
  · exact (refund_slotKept s d).trans (dequeue_slotKept ..)
  · split
    · exact (fifoRead_txReq_slotKept ..).trans (refund_slotKept ..)
    · exact fifoRead_txReq_slotKept ..

theorem releaseCell_slotKept (c : CellSpot) (taken : List Packet) : slotKept new s (releaseCell s c taken).1 :=
  ((((slotKept.foldl (fun s q => .of_schedules (dropStale_onlySchedules s q)) _ s).trans
    (.onlyIf _ _ fun s => .count s Ctr.RETRY_FULL _)).trans (.setSched _ _)).trans
      (.foldl (fun s _ => .of_schedules (dutyHold_onlySchedules s ..)) _ _)).trans (.of_accounts (choose_onlyAccounts ..))

end Release

/-! The emissions of a timeslot (R249). -/

section Build
variable {new : Emission → Prop} (env : SlotEnv) (asn fe : Nat)

theorem offerCell_slotKept (acc : State × List Carrier) (c : Cell) : slotKept new acc.1 (offerCell env asn fe acc c).1 := by
  have skipped (s : State) : slotKept new s (s.count Ctr.CELL_SKIP) := .count ..
  unfold offerCell
  dsimp only
  split
  · exact .refl _
  · split
    · split
      · split
        · exact .refl _
        · exact skipped _
      · exact .refl _
    · have released := fun taken spot => releaseCell_slotKept (new := new) acc.1 spot taken
      split
      · exact released ..
      · have passed := fun o d taken spot => (released spot taken).trans (passRelease_slotKept _ env c o d)
        split
        · split
          · exact passed ..
          · exact (passed ..).trans ((refund_slotKept ..).trans (skipped _))
        · exact passed ..

/-- An emission lies on a free-run channel, or is planned with its first chip at the timeslot's instant. -/
def slotNew (asn first : Nat) (x : Emission) : Prop :=
  x.freeRun.isSome = true ∨ (x.phase = .planned ∧ x.asn = asn ∧ x.nominalNs = first)

theorem withLo_shows (s : State) (fe : Nat) (e : Emission) : (withLo s fe e).phase = e.phase ∧ (withLo s fe e).asn = e.asn ∧
    (withLo s fe e).nominalNs = e.nominalNs := by
  unfold withLo
  dsimp only
  split <;> exact ⟨rfl, rfl, rfl⟩

theorem addEmission_slotKept (s : State) {e : Emission} (h : new { e with id := s.nextFrame }) : slotKept new s (addEmission s fe e) := by
  have added := addEmission_rest s fe e
  refine ⟨?_, fun g _ => ?_, fun n x hx => ?_⟩
  · have rest := congrArg slotRest added
    exact rest
  · have fields := congrArg State.fields added
    exact State.get_congr fields g
  · obtain old | rfl := mem_of_addEmission s fe n hx
    · exact .inl old
    · exact .inr h

theorem buildSlot_slotKept (s : State) : slotKept (slotNew asn (slotFirst s asn)) s (buildSlot env asn s fe) := by
  have offered : slotKept (slotNew asn (slotFirst s asn)) s ((txCells s asn fe).foldl (offerCell env asn fe) (s, [])).1 :=
    List.foldlRecOn (motive := fun acc : State × List Carrier => slotKept (slotNew asn (slotFirst s asn)) s acc.1) _ _ (.refl s)
      fun _ kept c _ => kept.trans (offerCell_slotKept ..)
  have first := offered.slotFirst_eq asn
  unfold buildSlot
  dsimp only
  split
  · exact offered
  · refine (offered.trans (addEmission_slotKept _ _ (.inr ?_))).trans (.foldl (fun s c => .setCrypto ..) _ _)
    obtain ⟨phase, inSlot, nominal⟩ := withLo_shows ((txCells s asn fe).foldl (offerCell env asn fe) (s, [])).1 fe _
    exact ⟨phase, inSlot, nominal.trans first⟩

theorem startFreeRuns_slotKept (s : State) {first : Nat} : slotKept (slotNew asn first) s (startFreeRuns s) := by
  have runs := startFreeRuns_onlyRuns s
  refine ⟨?_, fun g hg => runs.get_eq g (slotFields_kept g hg), fun n x hx => (runs.emissions n x hx).imp_right .inl⟩
  have rest := congrArg (fun u : State => (u.sau, u.tables.cells, u.tick, u.pending)) runs.rest
  have last := congrArg MacState.lastAsn runs.mac_eq
  exact Prod.ext last rest

/-- All that follows the activation of a change list at a boundary. -/
def slotBuilt (env : SlotEnv) (asn : Nat) (s : State) : State :=
  startFreeRuns (([0, 1, 2] : List Nat).foldl (buildSlot env asn) (reserveSlot (drillSwitch s asn) asn))

theorem slotBuilt_slotKept (s : State) : slotKept (slotNew asn (slotFirst s asn)) s (slotBuilt env asn s) := by
  have reserved : slotKept (slotNew asn (slotFirst s asn)) s (reserveSlot (drillSwitch s asn) asn) :=
    (drillSwitch_slotKept s asn).trans (reserveSlot_slotKept ..)
  refine (List.foldlRecOn (motive := slotKept (slotNew asn (slotFirst s asn)) s) _ _ reserved fun t kept fe _ => ?_).trans
    (startFreeRuns_slotKept ..)
  have built := buildSlot_slotKept env asn fe t
  rw [kept.slotFirst_eq] at built
  exact kept.trans built

end Build

/-! A change list takes effect (R89). -/

/-- The fields that say where a timeslot lies. -/
def slotTiming : List Fld := [Reg.MAC_ASN_EPOCH.EPOCH_NS, Reg.MAC_SLOT_0.SLOT_LEN, Reg.MAC_SLOT_0.TX_OFFSET]

/-- `t` is `a` but for the schedule, the list that waits for its timeslot, and register fields apart from those of a timeslot's place. -/
structure onlySchedule (a t : State) : Prop where
  rest : { t with fields := a.fields, tables := a.tables, sau := a.sau } = a
  get_eq : ∀ g ∈ slotTiming, t.get g = a.get g

namespace onlySchedule
variable {a b t : State}

theorem refl (a : State) : onlySchedule a a := ⟨rfl, fun _ _ => rfl⟩

theorem trans (h : onlySchedule a b) (k : onlySchedule b t) : onlySchedule a t where
  rest := by
    have rest := h.rest
    rw [← k.rest] at rest
    exact rest
  get_eq g hg := (k.get_eq g hg).trans (h.get_eq g hg)

theorem set (s : State) {f : Fld} (apart : ∀ g ∈ slotTiming, g.key ≠ f.key) (v : Nat) : onlySchedule s (s.set f v) :=
  ⟨rfl, fun g hg => State.get_set_other s f g v (apart g hg)⟩

theorem setCellWord (s : State) (i w : Nat) : onlySchedule s (setCellWord s i w) := ⟨rfl, fun _ _ => rfl⟩

theorem slotFirst_eq (h : onlySchedule a t) (asn : Nat) : slotFirst t asn = slotFirst a asn := by
  have epoch := h.get_eq Reg.MAC_ASN_EPOCH.EPOCH_NS (by decide)
  have length := h.get_eq Reg.MAC_SLOT_0.SLOT_LEN (by decide)
  have offset := h.get_eq Reg.MAC_SLOT_0.TX_OFFSET (by decide)
  simp only [slotFirst, slotStart, slotNs, epoch, length, offset]

theorem frame (h : onlySchedule a t) : t.mac = a.mac ∧ (∀ fe, t.fe fe = a.fe fe) ∧ t.tick = a.tick ∧ t.pending = a.pending := by
  have mac := congrArg State.mac h.rest
  have fronts (fe : Nat) := congrArg (fun u : State => u.fe fe) h.rest
  have tick := congrArg State.tick h.rest
  have pending := congrArg State.pending h.rest
  exact ⟨mac, fronts, tick, pending⟩

end onlySchedule

theorem sauApply_onlySchedule {s t : State} {e : Nat × Nat × Nat} (h : sauApply s e = some t) : onlySchedule s t := by
  obtain ⟨op, i, v⟩ := e
  unfold sauApply at h
  dsimp only at h
  split_ifs at h with _ _ _ _ _ _ small
  · exact Option.some.inj h ▸ .setCellWord ..
  · exact Option.some.inj h ▸ .setCellWord ..
  · exact Option.some.inj h ▸ .setCellWord ..
  · obtain ⟨-, low, -⟩ := small
    refine Option.some.inj h ▸ .set s ?_ _
    interval_cases i <;> decide

theorem sauApplyAll_onlySchedule {l : List (Nat × Nat × Nat)} {k : Nat} {s t : State} (h : sauApplyAll l k s = .ok t) :
    onlySchedule s t := by
  induction l generalizing k s with
  | nil => exact Except.ok.inj h ▸ .refl s
  | cons e rest ih =>
    unfold sauApplyAll at h
    split at h
    · cases h
    next s' applied => exact (sauApply_onlySchedule applied).trans (ih h)

section Activate
variable (s : State) (asn : Nat)

/-- The list has taken effect. -/
def sauApplied (s : State) : State :=
  { (s.setFlag Reg.MAC_SAU_STATUS.PENDING false).setFlag Reg.MAC_SAU_STATUS.APPLIED true with sau := { pending := none } }

theorem sauApplied_onlySchedule : onlySchedule s (sauApplied s) := by
  have flags := (onlySchedule.set s (f := Reg.MAC_SAU_STATUS.PENDING) (by decide) (b2n false)).trans
    (.set _ (f := Reg.MAC_SAU_STATUS.APPLIED) (by decide) (b2n true))
  refine ⟨?_, flags.get_eq⟩
  have rest := congrArg (fun u : State => { u with sau := s.sau }) flags.rest
  exact rest

theorem sauActivate_onlySchedule : onlySchedule s (sauActivate s asn) := by
  unfold sauActivate
  split
  · exact .refl s
  next act l _ =>
    split
    · exact .refl s
    · dsimp only
      split
      next after applied => exact (sauApplyAll_onlySchedule applied).trans (sauApplied_onlySchedule after)
      next => exact sauApplied_onlySchedule s

variable {s asn} in
/-- A list whose timeslot it is takes effect in full. -/
theorem sauActivate_of_due {l : List (Nat × Nat × Nat)} {after : State} (waits : s.sau.pending = some (asn, l))
    (applied : sauApplyAll l 0 s = .ok after) : sauActivate s asn = sauApplied after := by
  have due : ¬ diffN 40 asn asn < 0 := by
    unfold diffN toSigned
    simp
  unfold sauActivate
  rw [waits]
  dsimp only
  rw [if_neg due, applied]
  rfl

end Activate

/-! The commands of a boundary (R239, R240, R249). -/

section Boundary
variable {s : State} {dt : Nat}

theorem tschStart_starts (off : tschOn s = false) (run : s.inRun = true) (stepped : s.flag Reg.TIME_STATUS.STEP_USED = true)
    (schedule : 3 ∈ s.loaded) (boundary : atBoundary (s.advance dt) = true) :
    completes (.tschStart dt) s fun t => tschOn t = true ∧ onlyRegs (s.advance dt) t [Reg.MAC_STATUS.TSCH_ON] := by
  refine completes_of_whenever (r := (s.advance dt).setFlag Reg.MAC_STATUS.TSCH_ON true) (by unfold exec execTschStart; rfl) ?_ rfl rfl rfl
    ⟨State.flag_setFlag_self .., State.set_onlyRegs _ (List.mem_singleton_self _) _⟩
  have loaded : s.loaded.contains 3 = true := List.contains_iff_mem.2 schedule
  simp only [show tschOn (s.advance dt) = false from off, show (s.advance dt).inRun = true from run, State.advance_flag, stepped,
    show (s.advance dt).loaded.contains 3 = true from loaded, boundary, Bool.not_false, Bool.and_self]

/-- The machine at a boundary, whose timeslot counts as built from now on. -/
def slotBegun (s : State) : State := s.setMac { s.mac with lastAsn := some (asnAt s s.time.ns) }

/-- What a boundary leaves, and which emissions it adds. -/
theorem timeslotBoundary_builds (errs : List (Nat × MemErr)) (txReq : List (Nat × Ecc)) (on : tschOn s = true) (run : s.inRun = true)
    (boundary : atBoundary (s.advance dt) = true)
    (new : s.mac.lastAsn ≠ some (asnAt (s.advance dt) (s.advance dt).time.ns)) :
    completes (.timeslotBoundary dt errs txReq) s fun t =>
      slotKept (slotNew (asnNow (s.advance dt)) (slotFirst s (asnNow (s.advance dt))))
        (sauActivate (slotBegun (s.advance dt)) (asnNow (s.advance dt))) t := by
  have activated := sauActivate_onlySchedule (slotBegun (s.advance dt)) (asnNow (s.advance dt))
  obtain ⟨-, -, clock, queue⟩ := activated.frame
  have first : slotFirst (sauActivate (slotBegun (s.advance dt)) (asnNow (s.advance dt))) (asnNow (s.advance dt)) =
      slotFirst s (asnNow (s.advance dt)) := activated.slotFirst_eq _
  have built := slotBuilt_slotKept { errs := errs, txReq := txReq } (asnNow (s.advance dt))
    (sauActivate (slotBegun (s.advance dt)) (asnNow (s.advance dt)))
  rw [first] at built
  have rest := built.rest
  simp only [slotRest, Prod.mk.injEq] at rest
  obtain ⟨-, -, -, clock', queue'⟩ := rest
  refine completes_of_whenever (r := slotBuilt { errs := errs, txReq := txReq } (asnNow (s.advance dt))
      (sauActivate (slotBegun (s.advance dt)) (asnNow (s.advance dt))))
    (by unfold exec execTimeslotBoundary; rfl) ?_ (by unfold slotBuilt slotBegun; rfl) (clock'.trans clock) (queue'.trans queue) built
  simp only [show tschOn (s.advance dt) = true from on, show (s.advance dt).inRun = true from run, boundary, Bool.true_and,
    decide_eq_true_eq]
  exact new

theorem timeslotBoundary_shows (errs : List (Nat × MemErr)) (txReq : List (Nat × Ecc)) (on : tschOn s = true) (run : s.inRun = true)
    (boundary : atBoundary (s.advance dt) = true)
    (new : s.mac.lastAsn ≠ some (asnAt (s.advance dt) (s.advance dt).time.ns)) :
    completes (.timeslotBoundary dt errs txReq) s fun t =>
      t.mac.lastAsn = some (asnAt (s.advance dt) (s.advance dt).time.ns) ∧
      (∀ (l : List (Nat × Nat × Nat)) (after : State), s.sau.pending = some (asnNow (s.advance dt), l) →
        sauApplyAll l 0 (slotBegun (s.advance dt)) = .ok after → t.sau.pending = none ∧
          t.flag Reg.MAC_SAU_STATUS.APPLIED = true ∧ t.tables.cells = after.tables.cells) ∧
      ∀ fe : Fin 3, ∀ x ∈ (t.fe fe).emissions, x ∈ (s.fe fe).emissions ∨
        slotNew (asnNow (s.advance dt)) (slotFirst s (asnNow (s.advance dt))) x := by
  refine completes_mono (timeslotBoundary_builds errs txReq on run boundary new) fun t built => ?_
  obtain ⟨mac, fronts, -, -⟩ := (sauActivate_onlySchedule (slotBegun (s.advance dt)) (asnNow (s.advance dt))).frame
  have rest := built.rest
  simp only [slotRest, Prod.mk.injEq] at rest
  obtain ⟨last, sau, cells, -, -⟩ := rest
  refine ⟨last.trans (congrArg MacState.lastAsn mac), fun l after waits applied => ?_, fun fe x hx => ?_⟩
  · rw [sauActivate_of_due (s := slotBegun (s.advance dt)) waits applied] at sau cells built
    refine ⟨congrArg SauState.pending sau, ?_, cells⟩
    rw [State.flag, built.get_eq Reg.MAC_SAU_STATUS.APPLIED (by decide), ← State.flag]
    exact State.flag_setFlag_self ((after.setFlag Reg.MAC_SAU_STATUS.PENDING false)) Reg.MAC_SAU_STATUS.APPLIED true
  · exact (built.emissions fe x hx).imp_left fun old => by rwa [fronts fe] at old

end Boundary

/-! The beacon time source (R273, R274, R449). -/

/-- The fields that the loss of the beacon class writes. -/
def beaconLossFields : List Fld := [clsBit clsEB, Reg.TIME_STATUS.CHG, Reg.TIME_STATUS.HOLDOVER]

/-- The loss of the beacon class changes the time base alone. -/
theorem disqualify_clsEB (s : State) : { disqualify s clsEB with fields := s.fields, time := s.time } = s ∧
    ∀ g : Fld, (∀ f ∈ beaconLossFields, g.key ≠ f.key) → (disqualify s clsEB).get g = s.get g := by
  unfold disqualify
  split
  · exact ⟨rfl, fun _ _ => rfl⟩
  · refine State.onlyIf_keeps (P := fun t => { t with fields := s.fields, time := s.time } = s ∧
      ∀ g : Fld, (∀ f ∈ beaconLossFields, g.key ≠ f.key) → t.get g = s.get g) _ _ _ ⟨rfl, fun g apart => ?_⟩ fun ⟨rest, fields⟩ =>
        ⟨rest, fun g apart => ?_⟩
    · have cleared : (s.setFlag (clsBit clsEB) false).get g = s.get g := State.get_set_other s _ g _ (apart _ (by decide))
      exact (State.get_set_other _ _ g _ (apart Reg.TIME_STATUS.CHG (by decide))).trans cleared
    · have held (u : State) (v : Nat) : (u.set Reg.TIME_STATUS.HOLDOVER v).get g = u.get g :=
        State.get_set_other u _ g v (apart _ (by decide))
      exact (held _ (b2n true)).trans (fields g apart)

/-- A beacon that did not come is counted, and its instant passes. -/
def beaconMissed (s : State) : State :=
  (s.setMac { s.mac with tsrcNs := s.mac.tsrcNs + tsrcNs s }).set Reg.MAC_STATUS.MISSES (min 3 (s.get Reg.MAC_STATUS.MISSES + 1))

/-- The third miss, while the beacon source is followed. -/
def sourceLost (s : State) : State :=
  (s.event Ev.TIME_SRC_LOST Block.MAC (at' (s.get Reg.MAC_STATUS.SRC) 2 46 + at' (b2n s.mac.tsrcBad) 1 45
    + at' (asnNow s) 40 0)).setFlag Reg.MAC_STATUS.HOLDOVER true

/-- The third miss: the source is lost. -/
def thirdMiss (s : State) : State :=
  let t := s.onlyIf (s.flag Reg.MAC_STATUS.FOLLOW) sourceLost
  disqualify (t.setMac { t.mac with tsrcLost := some t.tick }) clsEB

theorem bits_at'_src (src bad asn : Nat) : bits ((at' src 2 46 + at' bad 1 45 + at' asn 40 0) % 2 ^ 48) 47 46 = src % 4 := by
  unfold at' bits
  omega

theorem sourceLost_reports (s : State) : reports s (sourceLost s) Ev.TIME_SRC_LOST fun arg => bits arg 47 46 = s.get Reg.MAC_STATUS.SRC % 4 :=
  reports_of_kept (State.event_reports s _ Block.MAC _ (bits_at'_src ..)) rfl fun _ hr => hr

/-- The report changes no field but HOLDOVER and what a full EVENT FIFO shows. -/
theorem sourceLost_frame (s : State) : (sourceLost s).mac = s.mac ∧ (sourceLost s).tick = s.tick ∧ (sourceLost s).pending = s.pending ∧
    (sourceLost s).get Reg.MAC_STATUS.MISSES = s.get Reg.MAC_STATUS.MISSES := by
  have rest := State.event_frame s Ev.TIME_SRC_LOST Block.MAC (at' (s.get Reg.MAC_STATUS.SRC) 2 46 + at' (b2n s.mac.tsrcBad) 1 45
    + at' (asnNow s) 40 0)
  have mac := congrArg State.mac rest
  have tick := congrArg State.tick rest
  have pending := congrArg State.pending rest
  have misses := State.event_get_other s Ev.TIME_SRC_LOST Block.MAC (at' (s.get Reg.MAC_STATUS.SRC) 2 46 + at' (b2n s.mac.tsrcBad) 1 45
    + at' (asnNow s) 40 0) (g := Reg.MAC_STATUS.MISSES) (by decide) (by decide)
  exact ⟨mac, tick, pending, (State.get_set_other _ Reg.MAC_STATUS.HOLDOVER Reg.MAC_STATUS.MISSES _ (by decide)).trans misses⟩

theorem thirdMiss_shows (s : State) : { (thirdMiss s).mac with tsrcLost := s.mac.tsrcLost } = s.mac ∧
    (thirdMiss s).mac.tsrcLost = some s.tick ∧ (thirdMiss s).tick = s.tick ∧ (thirdMiss s).pending = s.pending ∧
    (thirdMiss s).get Reg.MAC_STATUS.MISSES = s.get Reg.MAC_STATUS.MISSES := by
  have told := State.onlyIf_keeps (P := fun t => t.mac = s.mac ∧ t.tick = s.tick ∧ t.pending = s.pending ∧
    t.get Reg.MAC_STATUS.MISSES = s.get Reg.MAC_STATUS.MISSES) s (s.flag Reg.MAC_STATUS.FOLLOW) sourceLost ⟨rfl, rfl, rfl, rfl⟩
    fun _ => sourceLost_frame s
  unfold thirdMiss
  dsimp only
  generalize s.onlyIf (s.flag Reg.MAC_STATUS.FOLLOW) sourceLost = t at told ⊢
  obtain ⟨mac, tick, pending, misses⟩ := told
  obtain ⟨rest, fields⟩ := disqualify_clsEB (t.setMac { t.mac with tsrcLost := some t.tick })
  have mac' := congrArg State.mac rest
  have tick' := congrArg State.tick rest
  have pending' := congrArg State.pending rest
  change (disqualify _ _).mac = { t.mac with tsrcLost := some t.tick } at mac'
  refine ⟨?_, ?_, tick'.trans tick, pending'.trans pending, (fields Reg.MAC_STATUS.MISSES (by decide)).trans misses⟩
  · rw [mac', mac]
  · rw [mac', tick]

/-- While the beacon source is followed, the third miss raises TIME_SRC_LOST and sets HOLDOVER. -/
theorem thirdMiss_follows {s : State} (follows : s.flag Reg.MAC_STATUS.FOLLOW = true) :
    (thirdMiss s).flag Reg.MAC_STATUS.HOLDOVER = true ∧
      reports s (thirdMiss s) Ev.TIME_SRC_LOST fun arg => bits arg 47 46 = s.get Reg.MAC_STATUS.SRC % 4 := by
  have holds : (sourceLost s).flag Reg.MAC_STATUS.HOLDOVER = true := State.flag_setFlag_self ..
  have told := sourceLost_reports s
  unfold thirdMiss
  rw [follows, State.onlyIf_true]
  dsimp only
  generalize sourceLost s = t at holds told ⊢
  obtain ⟨rest, fields⟩ := disqualify_clsEB (t.setMac { t.mac with tsrcLost := some t.tick })
  have counters := congrArg State.counters rest
  have events := congrArg State.events rest
  change (disqualify _ _).events = t.events at events
  refine ⟨?_, reports_of_kept told (congrArg (Cells.get · Ev.TIME_SRC_LOST 0) counters) fun r hr => events ▸ hr⟩
  rw [State.flag, fields Reg.MAC_STATUS.HOLDOVER (by decide)]
  exact holds

section Beacon
variable {s : State} {dt : Nat}

theorem tsrcBeaconMiss_completes {post : State → Prop} (on : tschOn s = true) (enabled : tsrcOn s = true) (prio : clsPrio s clsEB ≠ 0)
    (late : s.mac.tsrcNs + tsrcNs s ≤ (s.advance dt).time.ns)
    (third : s.get Reg.MAC_STATUS.MISSES = 2 → post (thirdMiss (beaconMissed (s.advance dt))))
    (other : s.get Reg.MAC_STATUS.MISSES ≠ 2 → post (beaconMissed (s.advance dt))) : completes (.tsrcBeaconMiss dt) s post := by
  have shape : exec (.tsrcBeaconMiss dt) s = whenever dt s
      (fun s => tschOn s && tsrcOn s && decide (clsPrio s clsEB ≠ 0 ∧ s.mac.tsrcNs + tsrcNs s ≤ s.time.ns))
      fun s => (beaconMissed s).onlyIf (decide (s.get Reg.MAC_STATUS.MISSES = 2)) thirdMiss := by
    unfold exec execTsrcBeaconMiss beaconMissed thirdMiss
    rfl
  have acts : (tschOn (s.advance dt) && tsrcOn (s.advance dt) && decide (clsPrio (s.advance dt) clsEB ≠ 0 ∧
      (s.advance dt).mac.tsrcNs + tsrcNs (s.advance dt) ≤ (s.advance dt).time.ns)) = true := by
    simp only [Bool.and_eq_true, decide_eq_true_eq]
    exact ⟨⟨on, enabled⟩, prio, late⟩
  by_cases m : s.get Reg.MAC_STATUS.MISSES = 2
  · obtain ⟨-, -, clock, queue, -⟩ := thirdMiss_shows (beaconMissed (s.advance dt))
    exact completes_of_whenever shape acts (if_pos (decide_eq_true m)) clock queue (third m)
  · exact completes_of_whenever shape acts (if_neg fun h => m (of_decide_eq_true h)) rfl rfl (other m)

theorem tsrcBeaconMiss_counts (on : tschOn s = true) (enabled : tsrcOn s = true) (prio : clsPrio s clsEB ≠ 0)
    (late : s.mac.tsrcNs + tsrcNs s ≤ (s.advance dt).time.ns) :
    completes (.tsrcBeaconMiss dt) s fun t =>
      t.get Reg.MAC_STATUS.MISSES = min 3 (s.get Reg.MAC_STATUS.MISSES + 1) ∧ t.mac.tsrcNs = s.mac.tsrcNs + tsrcNs s ∧
        (s.get Reg.MAC_STATUS.MISSES = 2 → t.mac.tsrcLost = some (s.advance dt).tick ∧
          (s.flag Reg.MAC_STATUS.FOLLOW = true → t.flag Reg.MAC_STATUS.HOLDOVER = true ∧
            reports (s.advance dt) t Ev.TIME_SRC_LOST fun arg => bits arg 47 46 = s.get Reg.MAC_STATUS.SRC % 4)) ∧
        (s.get Reg.MAC_STATUS.MISSES ≠ 2 → onlyRegs (s.advance dt) { t with mac := s.mac } [Reg.MAC_STATUS.MISSES]) := by
  have misses : (beaconMissed (s.advance dt)).get Reg.MAC_STATUS.MISSES = min 3 (s.get Reg.MAC_STATUS.MISSES + 1) :=
    State.get_set_of_lt _ _ (Nat.lt_of_le_of_lt (Nat.min_le_left ..) (by decide))
  have kept (g : Fld) (other : g.key ≠ Reg.MAC_STATUS.MISSES.key) : (beaconMissed (s.advance dt)).get g = s.get g :=
    State.get_set_other _ _ g _ other
  refine tsrcBeaconMiss_completes on enabled prio late (fun third => ?_) fun other => ?_
  · obtain ⟨mac, lost, -, -, same⟩ := thirdMiss_shows (beaconMissed (s.advance dt))
    refine ⟨same.trans misses, ?_, fun _ => ⟨lost, fun follows => ?_⟩, fun n => absurd third n⟩
    · have ns := congrArg MacState.tsrcNs mac
      exact ns
    · have follows' : (beaconMissed (s.advance dt)).flag Reg.MAC_STATUS.FOLLOW = true := by
        rw [State.flag, kept _ (by decide)]
        exact follows
      have src := kept Reg.MAC_STATUS.SRC (by decide)
      obtain ⟨holds, told⟩ := thirdMiss_follows follows'
      rw [src] at told
      refine ⟨holds, told.1, fun room on => told.2 room ?_⟩
      rw [State.eventEnabled, kept _ ?_]
      · exact on
      · decide
  · exact ⟨misses, rfl, fun m => absurd m other, fun _ => State.set_onlyRegs (s.advance dt) (List.mem_singleton_self _) _⟩

/-- The next source is the one after the present one, where that is enabled. -/
theorem holdoverWaitExpiry_takes_next {t0 : Nat} (selected : s.flag Reg.TIME_STATUS.HOLDOVER = false) (lost : s.mac.tsrcLost = some t0)
    (unqualified : s.flag Reg.TIME_STATUS.EB_Q = false)
    (waited : (s.advance dt).elapsedSec t0 (s.get Reg.TIME_SRC_CTRL.HOLDOVER_WAIT) = true)
    (enabled : s.flag (Reg.MAC_TSRC_CFG.EN ((s.get Reg.MAC_STATUS.SRC + 1) % 4)) = true) :
    completes (.holdoverWaitExpiry dt) s fun t =>
      t.get Reg.MAC_STATUS.SRC = (s.get Reg.MAC_STATUS.SRC + 1) % 4 ∧ t.get Reg.MAC_STATUS.MISSES = 0 ∧
        onlyRegs (s.advance dt) { t with mac := s.mac } [Reg.MAC_STATUS.SRC, Reg.MAC_STATUS.MISSES] := by
  have next : (((List.range 4).map fun i => (s.get Reg.MAC_STATUS.SRC + 1 + i) % 4).find? fun i =>
      (s.advance dt).flag (Reg.MAC_TSRC_CFG.EN i)) = some ((s.get Reg.MAC_STATUS.SRC + 1) % 4) :=
    List.find?_cons_of_pos enabled
  let t : State := ((s.advance dt).set Reg.MAC_STATUS.SRC ((s.get Reg.MAC_STATUS.SRC + 1) % 4)).set Reg.MAC_STATUS.MISSES 0
  have src : t.get Reg.MAC_STATUS.SRC = (s.get Reg.MAC_STATUS.SRC + 1) % 4 := by
    refine (State.get_set_other _ _ _ _ (by decide)).trans (State.get_set_of_lt _ _ ?_)
    exact Nat.lt_of_lt_of_le (Nat.mod_lt _ (by decide)) (by decide)
  have misses : t.get Reg.MAC_STATUS.MISSES = 0 := State.get_set_of_lt _ _ (by decide)
  have regs : onlyRegs (s.advance dt) t [Reg.MAC_STATUS.SRC, Reg.MAC_STATUS.MISSES] :=
    onlyRegs_trans (State.set_onlyRegs _ (by decide) _) (State.set_onlyRegs _ (by decide) _)
  refine completes_of_effect (dt := dt) (r := t.setMac { s.mac with
    tsrcNs := (s.advance dt).time.ns, tsrcBad := false, tsrcLost := some (s.advance dt).tick })
    (by unfold exec execHoldoverWaitExpiry; rfl) ?_ rfl rfl ⟨src, misses, regs⟩
  have idle : ((s.advance dt).flag Reg.TIME_STATUS.HOLDOVER && (s.advance dt).time.selectAt.isNone &&
      (s.advance dt).elapsedSec (s.advance dt).time.holdAt ((s.advance dt).get Reg.TIME_SRC_CTRL.HOLDOVER_WAIT) &&
      !(s.advance dt).flag (clsBit ((s.advance dt).get Reg.TIME_STATUS.SEL))) = false := by
    rw [State.advance_flag, selected]
    rfl
  have expired : ((s.advance dt).elapsedSec t0 ((s.advance dt).get Reg.TIME_SRC_CTRL.HOLDOVER_WAIT) &&
      !(s.advance dt).flag Reg.TIME_STATUS.EB_Q) = true := by
    rw [State.advance_flag, unqualified, State.advance_get, waited]
    rfl
  dsimp only
  rw [show (s.advance dt).mac.tsrcLost = some t0 from lost, idle]
  dsimp only
  rw [expired, State.onlyIf_true, State.onlyIf_false]
  unfold tsrcNext
  dsimp only
  rw [State.advance_get, next]
  rfl

end Beacon

/-- Settles O30: TSCH starts at a boundary, a boundary's work adds only its timeslot's emissions, and the beacon source is lost with the
third miss. -/
theorem timeslotsAndBeaconSource : Obligations.TimeslotsAndBeaconSource := by
  refine ⟨?_, ?_⟩
  · rintro s _ b dt errs txReq rfl
    refine ⟨tschStart_starts, ?_⟩
    rintro on run boundary new rfl
    exact timeslotBoundary_shows errs txReq on run boundary new
  · rintro s _ dt t0 rfl
    exact ⟨tsrcBeaconMiss_counts, holdoverWaitExpiry_takes_next⟩

end Sys2Proof.Machine
end

section
/-!
SUPPORT. What the delivery of an accepted frame leaves as it was (R33, R37, R265, R267, R277): the frames on the path, the record, the
emissions that stand, and LP4X where no packet goes there.
-/

namespace Sys2Proof.Machine

/-! What is kept of a frame's verdict. -/

/-- The frames on the path, the clock and the queue of commands. -/
def pathRest (s : State) : List UpFrame × Nat × List Instr := (s.up, s.tick, s.pending)

/-- The fields that say where a record and a packet lie in LP4X. -/
def memoryFields : List Fld := [Reg.FWD_REC_BASE.ADDR, Reg.QMGR_BUF_BASE.EN]

/-- `t` is `a` in all that the way of an accepted frame keeps, and every emission of `a` stands in `t`. -/
structure frameKept (a t : State) : Prop where
  rest : pathRest t = pathRest a
  get_eq : ∀ g ∈ memoryFields, t.get g = a.get g
  counter_eq : Cells.get t.counters Ev.DUP_REACK 0 = Cells.get a.counters Ev.DUP_REACK 0
  emissions : ∀ fe x, x ∈ (a.fe fe).emissions → x ∈ (t.fe fe).emissions

/-- Besides, `t` holds the memories and the queues of `a`. -/
structure pathKept (a t : State) : Prop where
  kept : frameKept a t
  mem_eq : t.mem = a.mem
  queues_eq : t.q.queues = a.q.queues

/-- Besides what a frame's way keeps, `t` holds the memories of `a` where no packet goes to LP4X. -/
structure delivered (a t : State) : Prop where
  kept : frameKept a t
  mem_eq : onChipOnly a → t.mem = a.mem

theorem memoryFields_kept : ∀ g ∈ memoryFields, keptField g = true := by decide

theorem window_apart_memory {f : Fld} (window : 0x200000 ≤ f.off) : ∀ g ∈ memoryFields, g.key ≠ f.key := fun g hg =>
  window_apart window (keptField_iff.1 (memoryFields_kept g hg)).1

namespace frameKept
variable {a b t : State}

theorem refl (a : State) : frameKept a a := ⟨rfl, fun _ _ => rfl, rfl, fun _ _ h => h⟩

theorem trans (h : frameKept a b) (k : frameKept b t) : frameKept a t :=
  ⟨k.rest.trans h.rest, fun g hg => (k.get_eq g hg).trans (h.get_eq g hg), k.counter_eq.trans h.counter_eq,
    fun fe x hx => k.emissions fe x (h.emissions fe x hx)⟩

/-- A change of nothing that is kept. -/
theorem of_rest (rest : pathRest t = pathRest a) (fields : t.fields = a.fields) (counters : t.counters = a.counters)
    (fronts : ∀ fe, t.fe fe = a.fe fe) : frameKept a t :=
  ⟨rest, fun g _ => State.get_congr fields g, by rw [counters], fun fe _ hx => fronts fe ▸ hx⟩

theorem of_schedules (h : onlySchedules a t) : frameKept a t where
  rest := by
    have rest := congrArg pathRest h.rest
    exact rest
  get_eq g hg := h.get_eq g (memoryFields_kept g hg)
  counter_eq := h.counter_eq _ (by decide) (by decide)
  emissions fe x hx := by
    have fronts := congrArg (fun u : State => (u.fe fe).emissions) h.rest
    change (t.fe fe).emissions = _ at fronts
    exact fronts ▸ hx

theorem of_runs (h : onlyRuns a t) : frameKept a t where
  rest := by
    have rest := congrArg pathRest h.rest
    exact rest
  get_eq g hg := h.get_eq g (memoryFields_kept g hg)
  counter_eq := h.counter_eq _ (by decide) (by decide)
  emissions := h.emissions_stay

end frameKept

namespace pathKept
variable {a b t : State}

theorem refl (a : State) : pathKept a a := ⟨.refl a, rfl, rfl⟩

theorem trans (h : pathKept a b) (k : pathKept b t) : pathKept a t :=
  ⟨h.kept.trans k.kept, k.mem_eq.trans h.mem_eq, k.queues_eq.trans h.queues_eq⟩

theorem onlyIf (s : State) (c : Bool) {k : State → State} (h : ∀ s, pathKept s (k s)) : pathKept s (s.onlyIf c k) :=
  State.onlyIf_keeps (P := pathKept s) s c k (refl s) fun _ => h s

theorem foldl {β : Type} {f : State → β → State} (h : ∀ s e, pathKept s (f s e)) (l : List β) (s : State) :
    pathKept s (l.foldl f s) :=
  List.foldlRecOn (motive := pathKept s) l f (refl s) fun _ ht e _ => ht.trans (h _ e)

theorem set (s : State) {f : Fld} (apart : ∀ g ∈ memoryFields, g.key ≠ f.key) (v : Nat) : pathKept s (s.set f v) :=
  ⟨⟨rfl, fun g hg => State.get_set_other s f g v (apart g hg), rfl, fun _ _ hx => hx⟩, rfl, rfl⟩

theorem setFlag (s : State) {f : Fld} (apart : ∀ g ∈ memoryFields, g.key ≠ f.key) (b : Bool) : pathKept s (s.setFlag f b) :=
  set s apart _

theorem count (s : State) {c : Nat} (other : Ev.DUP_REACK ≠ c) : pathKept s (s.count c) where
  kept := ⟨by simp only [pathRest, State.count_frame], fun g _ => State.count_get .., Cells.get_set_other _ _ _ _ other,
    fun fe _ hx => by rwa [State.count_fe]⟩
  mem_eq := by simp only [State.count_frame]
  queues_eq := by simp only [State.count_frame]

theorem event (s : State) {code : Nat} (other : Ev.DUP_REACK ≠ code) (source arg : Nat) : pathKept s (s.event code source arg) := by
  have rest := State.event_frame s code source arg
  have path := congrArg pathRest rest
  have mem := congrArg State.mem rest
  have queues := congrArg (fun u : State => u.q.queues) rest
  refine ⟨⟨path, fun g hg => ?_, ?_, fun fe x hx => ?_⟩, mem, queues⟩
  · obtain ⟨-, ovf, lost⟩ := keptField_iff.1 (memoryFields_kept g hg)
    exact State.event_get_other s code source arg ovf lost
  · rw [State.event_counters]
    exact (count s other).kept.counter_eq
  · rwa [(State.event_rest ..).1]

theorem emit (s : State) (o : Out) : pathKept s (s.emit o) := by
  unfold State.emit
  dsimp only
  split
  · split <;> exact ⟨.of_rest rfl rfl rfl fun _ => rfl, rfl, rfl⟩
  · exact ⟨.of_rest rfl rfl rfl fun _ => rfl, rfl, rfl⟩
  · exact ⟨.of_rest rfl rfl rfl fun _ => rfl, rfl, rfl⟩

theorem setTables (s : State) (x : TableState) : pathKept s (s.setTables x) := ⟨.of_rest rfl rfl rfl fun _ => rfl, rfl, rfl⟩
theorem setSched (s : State) (x : SchedState) : pathKept s (s.setSched x) := ⟨.of_rest rfl rfl rfl fun _ => rfl, rfl, rfl⟩
theorem setCrypto (s : State) (x : CryptoState) : pathKept s (s.setCrypto x) := ⟨.of_rest rfl rfl rfl fun _ => rfl, rfl, rfl⟩
theorem drawn (s : State) : pathKept s s.drawn := ⟨.of_rest rfl rfl rfl fun _ => rfl, rfl, rfl⟩
theorem addDown (s : State) (d : DownPacket) : pathKept s (addDown s d) := ⟨.of_rest rfl rfl rfl fun _ => rfl, rfl, rfl⟩
theorem setWire (s : State) (x : WireState) : pathKept s { s with wire := x } := ⟨.of_rest rfl rfl rfl fun _ => rfl, rfl, rfl⟩

theorem delivered (h : pathKept a t) : delivered a t := ⟨h.kept, fun _ => h.mem_eq⟩

/-- What is delivered after a way that keeps the memories and the queues. -/
theorem andThen (h : pathKept a b) (k : Machine.delivered b t) : Machine.delivered a t where
  kept := h.kept.trans k.kept
  mem_eq quiet := by
    obtain ⟨empty, off⟩ := quiet
    have en := h.kept.get_eq Reg.QMGR_BUF_BASE.EN (by decide)
    refine (k.mem_eq ⟨h.queues_eq.trans empty, ?_⟩).trans h.mem_eq
    rw [State.flag, en]
    exact off

end pathKept

/-! A packet enters a queue on chip (R385). -/

section OnChip
variable {s : State} (quiet : onChipOnly s) (q : Nat) (p : Packet)
include quiet

theorem queueAt_of_onChipOnly : queueAt s q = [] := by
  rw [queueAt, quiet.1]
  rfl

/-- Where no packet lies in LP4X and none goes there, an accepted one goes on chip. -/
theorem goesOnchip_of_accepted (accepted : enqueueCause s q p = none) : goesOnchip s q p = true := by
  have held : heldPackets s = [] := by rw [heldPackets, quiet.1]; rfl
  have pool : freeCells s = 0 := by simp [freeCells, poolCells, quiet.2]
  unfold enqueueCause at accepted
  dsimp only at accepted
  generalize (if p.cls ≤ 1 then 0 else s.get Reg.QMGR_POOL_CFG.RESERVE) = reserve at accepted
  split_ifs at accepted with _ _ _ refused
  by_contra off
  refine refused ⟨?_, by simpa using off⟩
  have some' : pktCells p ≠ 0 := fun none' => off (by
    simp [goesOnchip, queueAt_of_onChipOnly quiet q, onchipOf, cellsOf, freeDesc, freeOnchip, held, none'])
  rw [pool]
  omega

theorem enqueue_mem_of_onChipOnly : (enqueue s q p).1.mem = s.mem := by
  cases h : enqueueCause s q p with
  | some c =>
    rw [enqueue_of_refused h]
    have mem := congrArg State.mem (queueDrop_onlySchedules s q c).rest
    exact mem
  | none =>
    have chip := goesOnchip_of_accepted quiet q p h
    have last (x : Packet) : linkLast s q x = s := by rw [linkLast, queueAt_of_onChipOnly quiet q]; rfl
    rw [enqueue_of_accepted h, placed]
    dsimp only
    rw [chip, if_pos rfl, last]
    rfl

end OnChip

theorem enqueue_delivered (s : State) (q : Nat) (p : Packet) : delivered s (enqueue s q p).1 where
  kept := by
    have only := enqueue_onlyEnqueues s q p
    have rest := congrArg pathRest only.rest
    refine ⟨rest, fun g hg => only.get_eq g (memoryFields_kept g hg), only.counter_eq _ (by decide), fun fe x hx => ?_⟩
    have fronts := congrArg (fun u : State => (u.fe fe).emissions) only.rest
    change ((enqueue s q p).1.fe fe).emissions = _ at fronts
    exact fronts ▸ hx
  mem_eq quiet := enqueue_mem_of_onChipOnly quiet q p

/-! The decision and what follows it (R37, R41, R372 to R377, R494). -/

section Route
variable (s : State) (p : Routed)

theorem toCore_delivered (core kind port cls tenant record : Nat) (unsecured : Bool) (form time : Nat) (data : List Byte) :
    delivered s (toCore s core kind port cls tenant record unsecured form time data) := enqueue_delivered ..

theorem routedToCore_delivered (core : Nat) : delivered s (routedToCore s core p) := by
  unfold routedToCore
  split
  · exact toCore_delivered ..
  · split
    · exact (pathKept.drawn s).andThen (toCore_delivered ..)
    · exact toCore_delivered ..

theorem forwarding_delivered {k : State → Routed → State} (h : ∀ s p, delivered s (k s p)) : delivered s (forwarding s p k) := by
  unfold forwarding
  split
  · exact h s p
  · split
    · exact (pathKept.count s (by decide)).delivered
    · exact h s _

theorem sendData_delivered (m w : Nat) : delivered s (sendData s m w p) := by
  unfold sendData
  split
  · exact (pathKept.refl s).delivered
  · exact (pathKept.onlyIf s _ .drawn).andThen (enqueue_delivered ..)

theorem toMember_delivered (w : Nat) : delivered s (toMember s w p) := by
  unfold toMember
  dsimp only
  split
  · exact (pathKept.count s (by decide)).andThen (routedToCore_delivered ..)
  · exact forwarding_delivered s p fun s p => sendData_delivered ..

theorem toBackhaul_delivered (w : Nat) : delivered s (toBackhaul s w p) := by
  unfold toBackhaul
  dsimp only
  split
  · exact forwarding_delivered s p fun s p => sendData_delivered ..
  · split
    · exact (pathKept.count s (by decide)).delivered
    · exact forwarding_delivered s p fun s p => enqueue_delivered ..

theorem seek_pathKept (key : Addr) : pathKept s (seek s key p) := by
  unfold seek
  dsimp only
  split_ifs
  · exact (pathKept.setWire s _).trans (.foldl (fun s i => .onlyIf s _ fun s => .emit ..) _ _)
  · exact (pathKept.setWire s _).trans (.emit ..)

theorem toMesh_delivered (t : Nat) : delivered s (toMesh s t p) := by
  unfold toMesh
  refine forwarding_delivered s p fun s p => pathKept.delivered ?_
  split
  · split
    · exact seek_pathKept ..
    · exact .count s (by decide)
  · split
    · exact .count s (by decide)
    · exact .addDown ..

theorem touch_pathKept (key : Nat) : pathKept s (touch s key) := by
  unfold touch
  split
  · split
    · exact .refl s
    · exact ((pathKept.setTables s _).trans (.setTables _ _)).trans (.onlyIf _ _ fun s => .count s (by decide))
  · exact .refl s

theorem exactly_delivered {k : State → State} (h : ∀ s, delivered s (k s)) : delivered s (exactly s p k) := by
  have waits : pathKept s (waitDown s p) := .addDown ..
  unfold exactly
  dsimp only
  split
  · exact waits.delivered
  · split
    · exact (waits.trans (.setTables _ _)).delivered
    · refine pathKept.andThen ?_ (h _)
      unfold downTouch
      split
      · exact touch_pathKept ..
      · exact .refl s

theorem prefixTouch_pathKept (hi : Nat) : pathKept s (prefixTouch s hi) :=
  .onlyIf s _ fun s => .set s (f := Reg.FWD_PIPE_STATUS.TRIE_ERR) (by decide) _

theorem decideRoute_delivered : delivered s (decideRoute s p) := by
  have touched := prefixTouch_pathKept s (dstHi p.datagram)
  unfold decideRoute
  dsimp only
  split
  · exact (touched.trans (.count _ (by decide))).delivered
  · refine touched.andThen ?_
    split
    · split
      · exact toMesh_delivered ..
      · split
        · exact (pathKept.count _ (by decide)).delivered
        · exact exactly_delivered _ p fun s => toMesh_delivered ..
    · exact toMember_delivered ..
    · exact toBackhaul_delivered ..
    · exact routedToCore_delivered ..

theorem route_delivered : delivered s (route s p) := by
  unfold route
  split
  · exact exactly_delivered s p fun s => decideRoute_delivered s p
  · exact decideRoute_delivered s p

end Route

/-! Delivery (R33, R232, R277, R393, R422). -/

section Deliver
variable (s : State) (u : UpFrame)

theorem police_pathKept (key : Nat) (d : List Byte) : pathKept s (police s key d).1 := by
  have window (s : State) {f : Fld} (h : 0x200000 ≤ f.off) (v : Nat) : pathKept s (s.set f v) := .set s (window_apart_memory h) v
  have dropped (s : State) : pathKept s (s.count Ctr.POLICE_DROP) := .count s (by decide)
  unfold police
  split
  · exact .refl s
  · dsimp only
    generalize meter _ _ _ (d.length * 65536) = r
    split
    · exact (pathKept.setSched s _).trans (window _ (windowOff_window ..) _)
    · have yellow := fun x n v => (pathKept.setSched s x).trans (window _ (f := Reg.SCHED_POL_STATUS.YELLOW n) (windowOff_window ..) v)
      split
      · exact yellow ..
      · exact yellow ..
      · exact (yellow ..).trans (dropped _)
    · have red := fun x n v => (pathKept.setSched s x).trans (window _ (f := Reg.SCHED_POL_STATUS.RED n) (windowOff_window ..) v)
      split
      · exact red ..
      · exact (red ..).trans (dropped _)

theorem deliverIp_delivered (cls : Nat) (d : List Byte) : delivered s (deliverIp s u cls d) := by
  unfold deliverIp
  dsimp only
  split
  · exact (pathKept.count s (by decide)).delivered
  · split
    · exact (police_pathKept ..).delivered
    · exact (police_pathKept ..).andThen (route_delivered ..)

theorem fifoUncorr_pathKept (fifo block : Nat) (hw : Bool) : pathKept s (fifoUncorr s fifo block hw) := by
  have window (x : List (Nat × MsWindow)) : pathKept s { s with q := { s.q with fifoWindow := x } } :=
    ⟨.of_rest rfl rfl rfl fun _ => rfl, rfl, rfl⟩
  unfold fifoUncorr
  dsimp only
  split
  · exact (window _).trans (.event _ (by decide) ..)
  · exact (window _).trans (.count _ (by decide))

theorem fifoRead_rxDeliver_pathKept (block : Nat) (e : Ecc) : pathKept s (fifoRead s Fifo.RX_DELIVER block true false e) := by
  unfold fifoRead
  split
  · exact .refl s
  · exact .set s (f := Reg.QMGR_FIFO_PROT.CORR_CNT Fifo.RX_DELIVER) (by decide) _
  · exact (((pathKept.setFlag s (f := Reg.QMGR_FIFO_PROT.UNCORR Fifo.RX_DELIVER) (by decide) true).trans (fifoUncorr_pathKept ..)).trans
      (.onlyIf _ _ fun s => .count s (by decide))).trans (.setFlag _ (f := Reg.SAFE_MON_STATUS.FIFO_REPORT) (by decide) true)

theorem deliver_delivered (v : Verdict) (payload : List Byte) : delivered s (deliver s u v payload) := by
  unfold deliver
  dsimp only
  split
  · exact (pathKept.set s (f := Reg.ETH_PAIR_COUNT.STANDBY_DROP) (by decide) _).delivered
  · have read := fifoRead_rxDeliver_pathKept s Block.FWD v.ecc
    split
    · exact read.delivered
    · refine read.andThen ?_
      split
      · exact deliverIp_delivered ..
      · exact (pathKept.count _ (by decide)).andThen (toCore_delivered ..)
      · exact (pathKept.count _ (by decide)).andThen (toCore_delivered ..)
      · exact (pathKept.count _ (by decide)).delivered

theorem setRa_pathKept (fe : Nat) (t : List RaEntry) : pathKept s (setRa s fe t) := by
  unfold setRa
  split_ifs <;> exact ⟨.of_rest rfl rfl rfl fun _ => rfl, rfl, rfl⟩

theorem announce_pathKept : pathKept s (announce s u) := by
  unfold announce
  split
  · exact .refl s
  · unfold raAdd
    dsimp only
    split
    · exact setRa_pathKept ..
    · split
      · exact setRa_pathKept ..
      · split
        · exact .refl s
        · split
          · exact ((setRa_pathKept ..).trans (.count _ (by decide))).trans (.set _ (f := Reg.OX_RA_STATUS.EVICT) (by decide) _)
          · exact setRa_pathKept ..

theorem seenCheck_pathKept (seed seq : Nat) : pathKept s (seenCheck s seed seq).2 := by
  have put (top win : Nat) : pathKept s (seenPut s seed top win) := .setTables ..
  unfold seenCheck
  dsimp only
  split_ifs
  · exact put ..
  · exact put ..
  · exact .refl s
  · exact .refl s
  · exact put ..
  · exact .refl s

theorem floodPasses_pathKept (f : Flood) : pathKept s (floodPasses s f).1 := by
  have checked := seenCheck_pathKept s f.seed f.seq
  unfold floodPasses
  dsimp only
  split
  · exact checked.trans (.count _ (by decide))
  · split
    · exact checked
    · exact checked.trans (.count _ (by decide))
    · exact checked.trans (.count _ (by decide))

/-- A node acknowledgement changes no memory. -/
theorem nodeAck_kept : frameKept s (nodeAck s u) ∧ (nodeAck s u).mem = s.mem := by
  have ended (m : MacState) : frameKept s (retryDrop (s.setMac m) u.record) := .of_rest rfl rfl rfl fun _ => rfl
  have mem (t : State) : (startFreeRuns t).mem = t.mem := by
    have mem := congrArg State.mem (startFreeRuns_onlyRuns t).rest
    exact mem
  unfold nodeAck
  split
  · exact ⟨.refl s, rfl⟩
  · split
    · exact ⟨(ended _).trans (.of_runs (startFreeRuns_onlyRuns _)), mem _⟩
    · exact ⟨.refl s, rfl⟩

theorem passUp_announces : pathKept s (s.onlyIf (u.recovered || (inStorm s && (onFreeRun s u).isSome)) fun s => announce s u) :=
  .onlyIf s _ fun s => announce_pathKept s u

theorem passUp_delivered (v : Verdict) (payload : List Byte) : delivered s (passUp s u v payload) := by
  have announced := passUp_announces s u
  unfold passUp
  dsimp only
  split
  · obtain ⟨kept, mem⟩ := nodeAck_kept (s.onlyIf (u.recovered || (inStorm s && (onFreeRun s u).isSome)) fun s => announce s u) u
    exact announced.andThen ⟨kept, fun _ => mem⟩
  · refine announced.andThen ?_
    split
    next => exact deliver_delivered ..
    next f _ =>
      refine (floodPasses_pathKept _ f).andThen ?_
      exact State.onlyIf_keeps (P := delivered _) _ _ _ (pathKept.refl _).delivered fun _ => deliver_delivered ..

/-- A verified acknowledgement changes no memory. -/
theorem passUp_mem_of_ack {u : UpFrame} (v : Verdict) (payload : List Byte) (ack : u.frame.ftype = 2) : (passUp s u v payload).mem = s.mem := by
  unfold passUp
  dsimp only
  rw [if_pos ack]
  exact (nodeAck_kept ..).2.trans (passUp_announces s u).mem_eq

end Deliver

/-! The acknowledgement (R38, R264 to R266). -/

section Acknowledge
variable (s : State) (u : UpFrame) (x : AuxSec)

theorem addEmission_pathKept (fe : Nat) (e : Emission) : pathKept s (addEmission s fe e) := by
  have added := addEmission_rest s fe e
  have path := congrArg pathRest added
  have fields := congrArg State.fields added
  have counters := congrArg State.counters added
  have mem := congrArg State.mem added
  have queues := congrArg (fun u : State => u.q.queues) added
  exact ⟨⟨path, fun g _ => State.get_congr fields g, congrArg (Cells.get · Ev.DUP_REACK 0) counters,
    fun n y hy => mem_addEmission_of_mem s fe n hy⟩, mem, queues⟩

theorem planAck_pathKept : pathKept s (planAck s u x) :=
  (addEmission_pathKept ..).trans (.onlyIf _ _ fun _ => .setCrypto ..)

theorem acknowledge_pathKept : pathKept s (acknowledge s u x).1 := by
  unfold acknowledge
  split
  · exact .refl s
  · split
    · exact .count s (by decide)
    · split
      · exact (pathKept.event s (by decide) _ _).trans (.onlyIf _ _ fun _ => announce_pathKept ..)
      · exact planAck_pathKept ..

/-- A planned acknowledgement's first chip is due TX_ACK_DELAY after the last chip of the frame. -/
theorem planAck_plans : ∃ e ∈ ((planAck s u x).fe u.fe).emissions, e.kind = 1 ∧
    e.nominalNs = u.endNs + s.get Reg.MAC_SLOT_1.TX_ACK_DELAY * 1000 := by
  have shows (e : Emission) : (withLo s u.fe e).kind = e.kind ∧ (withLo s u.fe e).nominalNs = e.nominalNs := by
    unfold withLo
    dsimp only
    split <;> exact ⟨rfl, rfl⟩
  unfold planAck
  dsimp only
  generalize he : ({ kind := _, commitNs := _, nominalNs := _, deferUs := _, loKhz := _, asn := _, freeRun := _, carriers := _ } : Emission) = e
  have due : e.kind = 1 ∧ e.nominalNs = u.endNs + s.get Reg.MAC_SLOT_1.TX_ACK_DELAY * 1000 := by
    rw [← he]
    exact ⟨rfl, rfl⟩
  obtain ⟨kind, nominal⟩ := shows e
  have job := (pathKept.onlyIf (addEmission s u.fe (withLo s u.fe e)) (!(onFreeRun s u).isSome)
    (k := fun t => addJob t (.ack u.fe s.nextFrame u.bin)) fun _ => .setCrypto ..).kept
  exact ⟨_, job.emissions _ _ (mem_addEmission_self ..), kind.trans due.1, nominal.trans due.2⟩

variable {s u} in
theorem acknowledge_of_due (wanted : ackWanted s u = true) (held : holderOf s (asnAt s u.firstNs) = true)
    (early : s.time.ns ≤ ackCommitNs s u) : acknowledge s u x = (planAck s u x, true) := by
  unfold acknowledge
  rw [wanted, held, Bool.not_true, if_neg Bool.false_ne_true, if_neg Bool.false_ne_true, if_neg (Nat.not_lt.2 early)]

end Acknowledge

end Sys2Proof.Machine
end

section
/-!
SUPPORT. Records in LP4X (R322, R325), the four ends of a frame under its node's key at step 9 (R260, R311), and the end of an
encryption (R193, R294). Then the statement about verdicts.
-/

namespace Sys2Proof.Machine

/-! Records. -/

/-- Octets that a write does not reach. -/
theorem readBytes_writeBytes_other (m : List Host.Cell) (d : Byte) (bs : List Byte) {a x n : Nat} (h : x + n ≤ a ∨ a + bs.length ≤ x) :
    readBytes (writeBytes m d a bs) d x n = readBytes m d x n := by
  induction n generalizing x with
  | zero => rfl
  | succ n ih => rw [readBytes, readBytes, get_writeBytes_other m d bs a x (by omega), ih (by omega)]

theorem leNat_leBytes (n v : Nat) : leNat (leBytes n v) = v % 2 ^ (8 * n) := by
  induction n generalizing v with
  | zero => rw [Nat.mul_zero, pow_zero, Nat.mod_one]; rfl
  | succ n ih =>
    have octet : (BitVec.ofNat 8 v).toNat = v % 256 := BitVec.toNat_ofNat v 8
    have power : 2 ^ (8 * (n + 1)) = 256 * 2 ^ (8 * n) := by ring
    rw [leBytes, leNat, octet, ih, power, Nat.mod_mul]

section Record
variable (s : State) (r : Nat)

variable {s} in
/-- A write of a record after other changes of the memories. -/
theorem setRec_eq {t : State} (h : ∃ m, t = { s with mem := m }) (off n v : Nat) : ∃ m, setRec t r off n v = { s with mem := m } := by
  obtain ⟨m, rfl⟩ := h
  exact ⟨_, rfl⟩

theorem rec'_setRec_self (off n v : Nat) : rec' (setRec s r off n v) r off n = v % 2 ^ (8 * n) :=
  (congrArg leNat (readBytes_writeBytes_leBytes ..)).trans (leNat_leBytes n v)

theorem rec'_setRec_other {off n x k : Nat} (v : Nat) (h : x + k ≤ off ∨ off + n ≤ x) :
    rec' (setRec s r off n v) r x k = rec' s r x k := by
  refine congrArg leNat (readBytes_writeBytes_other s.mem.lp4x 0 (leBytes n v) ?_)
  change recordBase s r + x + k ≤ recordBase s r + off ∨ recordBase s r + off + (leBytes n v).length ≤ recordBase s r + x
  rw [leBytes_length]
  omega

/-- A write behind LAST_FC leaves it. -/
theorem recLastFc_setRec_after {off : Nat} (h : 0x14 ≤ off) (n v : Nat) : recLastFc (setRec s r off n v) r = recLastFc s r :=
  rec'_setRec_other s r v (.inl h)

theorem recLastFc_bumpRec_after {off : Nat} (h : 0x14 ≤ off) (n : Nat) : recLastFc (bumpRec s r off n) r = recLastFc s r :=
  recLastFc_setRec_after s r h n _

/-- LAST_FC is told by LP4X and the base of the records. -/
theorem recLastFc_congr {a t : State} (mem : t.mem = a.mem) (base : t.get Reg.FWD_REC_BASE.ADDR = a.get Reg.FWD_REC_BASE.ADDR) :
    recLastFc t r = recLastFc a r := by
  simp only [recLastFc, rec', recordBase, State.ddrLE, State.ddr, mem, base]

end Record

/-- An accepted frame changes its record alone. -/
theorem acceptRecord_eq (s : State) (u : UpFrame) : ∃ m, acceptRecord s u = { s with mem := m } := by
  have written := setRec_eq u.record (setRec_eq u.record (setRec_eq (s := s) u.record ⟨s.mem, rfl⟩ 0x10 4 u.counter) 0x30 8 u.syncNs)
    0x38 2 (ofSigned 16 u.rssi)
  exact setRec_eq u.record (setRec_eq u.record (setRec_eq u.record written 0x3A 1 u.lq) 0x3B 1 u.bin) 0x88 4 _

/-- An accepted frame's counter is LAST_FC. -/
theorem recLastFc_acceptRecord (s : State) {u : UpFrame} (small : u.counter < 2 ^ 32) : recLastFc (acceptRecord s u) u.record = u.counter := by
  unfold acceptRecord
  dsimp only
  rw [recLastFc_bumpRec_after _ _ (by decide), recLastFc_setRec_after _ _ (by decide), recLastFc_setRec_after _ _ (by decide),
    recLastFc_setRec_after _ _ (by decide), recLastFc_setRec_after _ _ (by decide)]
  exact (rec'_setRec_self ..).trans (Nat.mod_eq_of_lt small)

theorem frameKept.base_eq {a t : State} (h : frameKept a t) : t.get Reg.FWD_REC_BASE.ADDR = a.get Reg.FWD_REC_BASE.ADDR :=
  h.get_eq _ (by decide)

theorem frameKept.up_eq {a t : State} (h : frameKept a t) : t.up = a.up := congrArg Prod.fst h.rest

theorem frameKept.clock_eq {a t : State} (h : frameKept a t) : t.tick = a.tick ∧ t.pending = a.pending :=
  Prod.ext_iff.1 (congrArg Prod.snd h.rest)

/-! The four ends of a frame under its node's key (R260, R285, R311, R325). -/

section Judged
variable (s : State) (u : UpFrame) (x : AuxSec)

theorem bits_at'_record (r fe by' : Nat) : bits ((at' r 18 30 + at' fe 2 28 + at' by' 28 0) % 2 ^ 48) 47 30 = r % 2 ^ 18 := by
  unfold at' bits
  omega

theorem replay_reports : reports s (replay s u) Ev.REPLAY fun arg => bits arg 47 30 = u.record % 2 ^ 18 :=
  State.event_reports (p := fun arg => bits arg 47 30 = u.record % 2 ^ 18) (bumpRec s u.record 0x8E 2) Ev.REPLAY Block.FWD _
    (bits_at'_record u.record u.fe (min (-(diffN 32 u.counter (recLastFc s u.record))).toNat 0xFFFFFFF))

theorem replay_frame : (replay s u).up = s.up ∧ (replay s u).tick = s.tick ∧ (replay s u).pending = s.pending := by
  have told := (pathKept.event (bumpRec s u.record 0x8E 2) (code := Ev.REPLAY) (by decide) Block.FWD (at' u.record 18 30 + at' u.fe 2 28 +
    at' (min (-(diffN 32 u.counter (recLastFc s u.record))).toNat 0xFFFFFFF) 28 0)).kept
  exact ⟨told.up_eq, told.clock_eq⟩

/-- A frame whose MIC fails is counted, and its record's LAST_FC stays. -/
theorem micFail_frame (r fe cause level : Nat) (group : Option Nat) :
    frameKept s (micFail s (some r) fe cause level group) ∧ countedOnce s (micFail s (some r) fe cause level group) Ev.MIC_FAIL ∧
      recLastFc (micFail s (some r) fe cause level group) r = recLastFc s r := by
  have noted (c : CryptoState) : frameKept s (bumpRec (s.setCrypto c) r 0x90 2) ∧
      (bumpRec (s.setCrypto c) r 0x90 2).counters = s.counters ∧ recLastFc (bumpRec (s.setCrypto c) r 0x90 2) r = recLastFc s r :=
    ⟨.of_rest rfl rfl rfl fun _ => rfl, rfl, recLastFc_bumpRec_after (s.setCrypto c) r (by decide) 2⟩
  unfold micFail
  dsimp only
  generalize hb : bumpRec (s.setCrypto _) r 0x90 2 = b
  obtain ⟨kept, counters, last⟩ := hb ▸ noted _
  split
  · have told := fun source arg => pathKept.event b (code := Ev.MIC_FAIL) (by decide) source arg
    exact ⟨kept.trans (told ..).kept, countedOnce_congr (State.event_countedOnce ..) counters,
      (recLastFc_congr r (told ..).mem_eq (told ..).kept.base_eq).trans last⟩
  · have told := pathKept.count b (c := Ev.MIC_FAIL) (by decide)
    exact ⟨kept.trans told.kept, countedOnce_congr (Eq.refl _) counters, (recLastFc_congr r told.mem_eq told.kept.base_eq).trans last⟩

/-- A repeated frame is counted once, and its record's LAST_FC stays, also where it is a node's acknowledgement. -/
theorem duplicate_frame (c : Bool) :
    pathRest ((duplicate s u x).onlyIf c fun s => nodeAck s u) = pathRest s ∧
      countedOnce s ((duplicate s u x).onlyIf c fun s => nodeAck s u) Ev.DUP_REACK ∧
      recLastFc ((duplicate s u x).onlyIf c fun s => nodeAck s u) u.record = recLastFc s u.record := by
  have acked := acknowledge_pathKept (bumpRec s u.record 0x8C 2) u x
  have last := recLastFc_bumpRec_after s u.record (off := 0x8C) (by decide) 2
  unfold duplicate
  dsimp only
  generalize acknowledge (bumpRec s u.record 0x8C 2) u x = r at acked ⊢
  generalize at' _ _ _ + at' _ _ _ + at' _ _ _ + at' _ _ _ + at' _ _ _ = arg
  have rest := State.event_frame r.1 Ev.DUP_REACK Block.FWD arg
  have counters := State.event_counters r.1 Ev.DUP_REACK Block.FWD arg
  have base := State.event_get_other r.1 Ev.DUP_REACK Block.FWD arg (g := Reg.FWD_REC_BASE.ADDR) (by decide) (by decide)
  have path := congrArg pathRest rest
  have mem := congrArg State.mem rest
  generalize r.1.event Ev.DUP_REACK Block.FWD arg = e at counters base path mem ⊢
  have announced := pathKept.onlyIf e u.recovered (k := fun s => announce s u) fun s => announce_pathKept s u
  have ended : frameKept (e.onlyIf u.recovered fun s => announce s u)
      ((e.onlyIf u.recovered fun s => announce s u).onlyIf c fun s => nodeAck s u) ∧
      ((e.onlyIf u.recovered fun s => announce s u).onlyIf c fun s => nodeAck s u).mem = (e.onlyIf u.recovered fun s => announce s u).mem :=
    State.onlyIf_keeps (P := fun t => frameKept (e.onlyIf u.recovered fun s => announce s u) t ∧
      t.mem = (e.onlyIf u.recovered fun s => announce s u).mem) _ _ _ ⟨.refl _, rfl⟩ fun _ => nodeAck_kept _ u
  obtain ⟨kept, mem'⟩ := ended
  have kept := announced.kept.trans kept
  refine ⟨kept.rest.trans (path.trans acked.kept.rest), ?_, ?_⟩
  · rw [countedOnce, kept.counter_eq, counters, State.count, State.count, Cells.get_set_self, Cells.get_set_self, acked.kept.counter_eq]
    rfl
  · refine (recLastFc_congr u.record ((mem'.trans announced.mem_eq).trans (mem.trans acked.mem_eq))
      (kept.base_eq.trans (base.trans acked.kept.base_eq))).trans last

/-- What an accepted frame leads to: its counter is LAST_FC, and its acknowledgement is planned if it is called for in time. -/
theorem accepted_frame (v : Verdict) (payload : List Byte) (small : u.counter < 2 ^ 32) :
    pathRest (passUp (acknowledge (acceptRecord s u) u x).1 u v payload) = pathRest s ∧
      (u.frame.ftype = 2 ∨ onChipOnly s →
        recLastFc (passUp (acknowledge (acceptRecord s u) u x).1 u v payload) u.record = u.counter) ∧
      (ackWanted s u = true → holderOf s (asnAt s u.firstNs) = true → s.time.ns ≤ ackCommitNs s u →
        ∃ e ∈ ((passUp (acknowledge (acceptRecord s u) u x).1 u v payload).fe u.fe).emissions, e.kind = 1 ∧
          e.nominalNs = u.endNs + s.get Reg.MAC_SLOT_1.TX_ACK_DELAY * 1000) := by
  obtain ⟨m, record⟩ := acceptRecord_eq s u
  have last := recLastFc_acceptRecord s small
  rw [record] at last ⊢
  have acked := acknowledge_pathKept { s with mem := m } u x
  have passed := passUp_delivered (acknowledge { s with mem := m } u x).1 u v payload
  have whole := acked.andThen passed
  refine ⟨whole.kept.rest, fun way => ?_, fun wanted held early => ?_⟩
  · have mem : (passUp (acknowledge { s with mem := m } u x).1 u v payload).mem = m := way.elim
      (fun ack => (passUp_mem_of_ack _ v payload ack).trans acked.mem_eq) whole.mem_eq
    exact (recLastFc_congr (a := { s with mem := m }) u.record mem whole.kept.base_eq).trans last
  · have due : acknowledge { s with mem := m } u x = (planAck { s with mem := m } u x, true) := acknowledge_of_due x wanted held early
    obtain ⟨e, mem, shown⟩ := planAck_plans { s with mem := m } u x
    refine ⟨e, passed.kept.emissions _ _ ?_, shown⟩
    rwa [due]

end Judged

/-! The job of a received frame ends (R294). -/

/-- The machine once a frame's job has ended and the frame has left the path. -/
def frameTaken (s : State) (engine : Nat) (id : Nat) : State := dropUp (endJob s engine) id

section Verified
variable {s : State} {dt : Nat} {engine : Fin 8} {j : CcmJob} {u : UpFrame} {x : AuxSec} {v : Verdict}
  (job : engineJob s engine = some j) (kind : j.kind = .verify u.id) (only : s.up = [u]) (secured : secOf u.frame = some x)
  (own : u.frame.ftype = 1 ∨ u.frame.ftype = 2) (node : x.keyMode ≠ 1)
include job kind only secured own node

theorem ccmJobDone_judges {r : State} {post : State → Prop}
    (effect : judgeOwn (frameTaken (s.advance dt) engine u.id) u x v (j.opened u.frame).2 (j.opened u.frame).1 = r)
    (path : pathRest r = pathRest (frameTaken (s.advance dt) engine u.id)) (hp : r.up = [] → post r) :
    completes (.ccmJobDone dt engine v) s post := by
  simp only [pathRest, Prod.mk.injEq] at path
  obtain ⟨up, clock, queue⟩ := path
  have empty : (frameTaken (s.advance dt) engine u.id).up = [] := by
    change s.up.filter _ = []
    rw [only]
    simp
  refine completes_of_effect (dt := dt) (by unfold exec execCcmJobDone; rfl) ?_ clock queue (hp (up.trans empty))
  have found : (endJob (s.advance dt) engine).up.find? (fun y => decide (y.id = u.id)) = some u := by
    change s.up.find? _ = some u
    rw [only]
    exact List.find?_cons_of_pos (decide_eq_true rfl)
  have ftype : u.frame.ftype ≠ 0 := by rcases own with h | h <;> rw [h] <;> decide
  rw [show engineJob (s.advance dt) engine = some j from job]
  dsimp only
  rw [kind]
  dsimp only
  rw [found]
  dsimp only
  unfold judge
  dsimp only
  rw [secured]
  dsimp only
  rw [if_neg ftype, if_neg node]
  exact effect

theorem ccmJobDone_replays (late : behind s u = true) : completes (.ccmJobDone dt engine v) s fun t =>
    t.up = [] ∧ reports (s.advance dt) t Ev.REPLAY fun arg => bits arg 47 30 = u.record % 2 ^ 18 := by
  obtain ⟨up, clock, queue⟩ := replay_frame (frameTaken (s.advance dt) engine u.id) u
  refine ccmJobDone_judges job kind only secured own node (r := replay (frameTaken (s.advance dt) engine u.id) u) (if_pos late)
    (Prod.ext up (Prod.ext clock queue)) fun empty => ⟨empty, ?_⟩
  exact replay_reports (frameTaken (s.advance dt) engine u.id) u

theorem ccmJobDone_fails (timely : behind s u = false) (bad : (j.opened u.frame).2 = false) :
    completes (.ccmJobDone dt engine v) s fun t =>
      t.up = [] ∧ countedOnce s t Ev.MIC_FAIL ∧ recLastFc t u.record = recLastFc s u.record := by
  obtain ⟨kept, counted, last⟩ := micFail_frame (frameTaken (s.advance dt) engine u.id) u.record u.fe 0 x.level none
  refine ccmJobDone_judges job kind only secured own node
    (r := micFail (frameTaken (s.advance dt) engine u.id) (some u.record) u.fe 0 x.level none) ?_ kept.rest
    fun empty => ⟨empty, counted, last⟩
  have timely' : behind (frameTaken (s.advance dt) engine u.id) u = false := timely
  rw [judgeOwn, timely', if_neg Bool.false_ne_true, bad, Bool.not_false, if_pos rfl]

theorem ccmJobDone_repeats (good : (j.opened u.frame).2 = true) (same : u.counter = recLastFc s u.record) :
    completes (.ccmJobDone dt engine v) s fun t =>
      t.up = [] ∧ countedOnce s t Ev.DUP_REACK ∧ recLastFc t u.record = recLastFc s u.record := by
  obtain ⟨rest, counted, last⟩ := duplicate_frame (frameTaken (s.advance dt) engine u.id) u x (decide (u.frame.ftype = 2))
  refine ccmJobDone_judges job kind only secured own node
    (r := (duplicate (frameTaken (s.advance dt) engine u.id) u x).onlyIf (decide (u.frame.ftype = 2)) fun s => nodeAck s u) ?_ rest
    fun empty => ⟨empty, counted, last⟩
  have same' : u.counter = recLastFc (frameTaken (s.advance dt) engine u.id) u.record := same
  have timely : behind (frameTaken (s.advance dt) engine u.id) u = false := by
    rw [behind, ← same', diffN]
    simp [toSigned]
  rw [judgeOwn, timely, if_neg Bool.false_ne_true, good, Bool.not_true, if_neg Bool.false_ne_true, if_pos same']

theorem ccmJobDone_accepts (timely : behind s u = false) (good : (j.opened u.frame).2 = true) (new : u.counter ≠ recLastFc s u.record)
    (small : u.counter < 2 ^ 32) : completes (.ccmJobDone dt engine v) s fun t => t.up = [] ∧
      (u.frame.ftype = 2 ∨ onChipOnly s → recLastFc t u.record = u.counter) ∧
      (ackWanted s u = true → holderOf s (asnAt s u.firstNs) = true → (s.advance dt).time.ns ≤ ackCommitNs s u →
        ∃ e ∈ (t.fe u.fe).emissions, e.kind = 1 ∧ e.nominalNs = u.endNs + s.get Reg.MAC_SLOT_1.TX_ACK_DELAY * 1000) := by
  obtain ⟨rest, last, plans⟩ := accepted_frame (frameTaken (s.advance dt) engine u.id) u x v (j.opened u.frame).1 small
  refine ccmJobDone_judges job kind only secured own node
    (r := passUp (acknowledge (acceptRecord (frameTaken (s.advance dt) engine u.id) u) u x).1 u v (j.opened u.frame).1) ?_ rest
    fun empty => ⟨empty, last, plans⟩
  have timely' : behind (frameTaken (s.advance dt) engine u.id) u = false := timely
  have new' : u.counter ≠ recLastFc (frameTaken (s.advance dt) engine u.id) u.record := new
  rw [judgeOwn, timely', if_neg Bool.false_ne_true, good, Bool.not_true, if_neg Bool.false_ne_true, if_neg new']

end Verified

/-! An encryption ends (R193, R294). -/

section Sealed
variable {s : State} {dt : Nat} {engine : Fin 8} {j : CcmJob} {v : Verdict} {e : Emission} {c : Carrier} {fe : Fin 3} {id bin : Nat}

/-- A carrier with its frame's MIC and FCS. -/
def withPsdu (j : CcmJob) (fe : Nat) (c : Carrier) : Carrier := { c with psdu := j.sealed ++ fcsOctets (decide (fe = 2)) j.sealed }

/-- An engine whose job has ended has none. -/
theorem engineJob_endJob (s : State) (engine : Nat) : engineJob (endJob s engine) engine = none :=
  List.find?_eq_none.2 fun j hj => by simpa using (List.mem_filter.1 hj).2

theorem sealDone_only (only : (s.fe fe).emissions = [e]) (named : e.id = id) (one : e.carriers = [c]) (lies : c.bin = bin) :
    sealDone s j fe id bin = s.setFe fe { s.fe fe with emissions := [{ e with carriers := [withPsdu j fe c] }] } := by
  have carrier : jobCarrier s fe id bin = some (e, c) := by
    unfold jobCarrier
    simp [only, named, one, lies]
  unfold sealDone
  rw [carrier]
  dsimp only
  simp only [putEmission, only, one, List.map_cons, List.map_nil, if_true]
  rfl

theorem ccmJobDone_seals (job : engineJob s engine = some j) (kind : ∃ nominal, j.kind = .ack fe id bin ∨ j.kind = .encrypt fe id bin nominal)
    (only : (s.fe fe).emissions = [e]) (named : e.id = id) (one : e.carriers = [c]) (lies : c.bin = bin) :
    completes (.ccmJobDone dt engine v) s fun t =>
      (t.fe fe).emissions = [{ e with carriers := [withPsdu j fe c] }] ∧ engineJob t engine = none ∧
        { t.setFe fe ((s.advance dt).fe fe) with crypto := s.crypto } = s.advance dt := by
  have ended : sealDone (endJob (s.advance dt) engine) j fe id bin = _ :=
    sealDone_only (s := endJob (s.advance dt) engine) only named one lies
  refine completes_of_effect (dt := dt) (r := (endJob (s.advance dt) engine).setFe fe
      { s.fe fe with emissions := [{ e with carriers := [withPsdu j fe c] }] }) (by unfold exec execCcmJobDone; rfl) ?_ ?_ ?_ ⟨?_, ?_, ?_⟩
  · rw [show engineJob (s.advance dt) engine = some j from job]
    obtain ⟨nominal, ack | encrypt⟩ := kind
    · dsimp only
      rw [ack]
      exact ended
    · dsimp only
      rw [encrypt]
      exact ended
  · simp only [State.setFe_frame]
    rfl
  · simp only [State.setFe_frame]
    rfl
  · rw [State.fe_setFe_self]
  · have crypto := congrArg State.crypto (State.setFe_rest (endJob (s.advance dt) engine) fe
      { s.fe fe with emissions := [{ e with carriers := [withPsdu j fe c] }] })
    exact (congrArg (fun c : CryptoState => c.jobs.find? fun j : CcmJob => decide (j.engine = some engine.val)) crypto).trans
      (engineJob_endJob (s.advance dt) engine)
  · rw [State.setFe_setFe]
    have back := State.setFe_fe_self (endJob (s.advance dt) engine) fe
    exact congrArg (fun t : State => { t with crypto := s.crypto }) back

end Sealed

/-- Settles O36: a frame under its node's key meets one of four ends at step 9, and an encryption gives its carrier MIC and FCS. -/
theorem verdicts : Obligations.Verdicts := by
  rintro s _ dt engine j u x v ok e c fe id bin nominal rfl job
  refine ⟨?_, fun kind only named one lies => ccmJobDone_seals job ⟨nominal, kind⟩ only named one lies⟩
  rintro kind only secured own node rfl
  exact ⟨ccmJobDone_replays job kind only secured own node, ccmJobDone_fails job kind only secured own node,
    ccmJobDone_repeats job kind only secured own node, ccmJobDone_accepts job kind only secured own node⟩

end Sys2Proof.Machine
end

section
/-!
SUPPORT. The group-key slots' commands (R307, R308), the FLUSH of the key cache (R299) and the index hash (R316): the fields that each
writes, and what is left of the rest. Then the statement of 08_frame_protection.md about them.
-/

namespace Sys2Proof.Machine

/-! The words that the slot commands write (R313). -/

/-- GO and OP leave the fields of a slot command. -/
theorem gkWord_fields (v : Word) (op : Nat) :
    bits (gkWord v op) 21 16 = bits v.toNat 21 16 ∧ bits (gkWord v op) 15 8 = bits v.toNat 15 8 ∧
      bits (gkWord v op) 7 0 = bits v.toNat 7 0 ∧ bit (gkWord v op) 24 = bit v.toNat 24 := by
  have := v.isLt
  refine ⟨?_, ?_, ?_, decide_eq_decide.2 ?_⟩ <;> unfold gkWord putBits bits <;> omega

theorem gkWord_op (v : Word) {op : Nat} (small : op < 4) : bit (gkWord v op) 63 = true ∧ bits (gkWord v op) 57 56 = op := by
  have := v.isLt
  refine ⟨decide_eq_true ?_, ?_⟩ <;> unfold gkWord putBits bits <;> omega

section Words
variable (s : State) (dt : Nat) (v : Word)

theorem writeGkCmd_load : writeGkCmd s (gkWord v 1) = gkLoad s v.toNat := by
  obtain ⟨slot, tenant, index, service⟩ := gkWord_fields v 1
  obtain ⟨go, op⟩ := gkWord_op v (op := 1) (by decide)
  simp only [writeGkCmd, go, op, gkLoad, slot, tenant, index, service, Bool.not_true, Bool.false_eq_true, if_false]

theorem writeGkCmd_clear : writeGkCmd s (gkWord v 2) = gkClear s v.toNat := by
  obtain ⟨slot, -, -, -⟩ := gkWord_fields v 2
  obtain ⟨go, op⟩ := gkWord_op v (op := 2) (by decide)
  simp only [writeGkCmd, go, op, gkClear, slot, Bool.not_true, Bool.false_eq_true, if_false]

theorem writeGkCmd_setTx : writeGkCmd s (gkWord v 3) = gkSetTx s v.toNat := by
  obtain ⟨slot, -, -, -⟩ := gkWord_fields v 3
  obtain ⟨go, op⟩ := gkWord_op v (op := 3) (by decide)
  simp only [writeGkCmd, go, op, gkSetTx, slot, Bool.not_true, Bool.false_eq_true, if_false]

theorem exec_gkLoad : exec (.gkLoad dt v) s = step' dt s fun s => (gkLoad s v.toNat).answer 0 := by
  simp only [← writeGkCmd_load]
  unfold exec execGkLoad
  rfl

theorem exec_gkClear : exec (.gkClear dt v) s = step' dt s fun s => (gkClear s v.toNat).answer 0 := by
  simp only [← writeGkCmd_clear]
  unfold exec execGkClear
  rfl

theorem exec_gkSetTx : exec (.gkSetTx dt v) s = step' dt s fun s => (gkSetTx s v.toNat).answer 0 := by
  simp only [← writeGkCmd_setTx]
  unfold exec execGkSetTx
  rfl

end Words

/-- A write of a register completes with its effect and an answer on the bus. -/
theorem completes_of_write {c : Instr} {s r : State} {dt : Nat} {k : State → State} {post : State → Prop}
    (h : exec c s = step' dt s fun s => (k s).answer 0) (effect : k (s.advance dt) = r) (clock : r.tick = s.tick + dt)
    (queue : r.pending = s.pending) (hp : post (r.answer 0)) : completes c s post :=
  completes_of_effect h (congrArg (State.answer · 0) effect) clock queue hp

/-! The fields that the slot commands write. -/

/-- What zeroises the WRAP registers. -/
def wrapWrites : List (Fld × Nat) := (List.range 3).map fun k => (Reg.CRYPTO_GK_WRAP.WRAP k, 0)

/-- What a LOAD or a CLEAR writes into the registers of its slot. -/
def slotWrites (i : Nat) (valid service : Bool) (tenant index : Nat) : List (Fld × Nat) :=
  [(Reg.CRYPTO_GK_CFG.VALID i, b2n valid), (Reg.CRYPTO_GK_CFG.TX_ACTIVE i, b2n false), (Reg.CRYPTO_GK_CFG.SERVICE i, b2n service),
    (Reg.CRYPTO_GK_CFG.TENANT i, tenant), (Reg.CRYPTO_GK_CFG.KEY_INDEX i, index)]

theorem zeroise_eq (s : State) : (List.range 3).foldl (fun s k => s.set (Reg.CRYPTO_GK_WRAP.WRAP k) 0) s = s.setAll wrapWrites := by
  rw [State.setAll, wrapWrites, List.foldl_map]

theorem gkPut_eq (s : State) (i tenant index : Nat) (service : Bool) (key : List Byte) :
    gkPut s i tenant index service key = (s.setAll (slotWrites i true service tenant index)).setCrypto
      { s.crypto with groupKeys := Cells.set s.crypto.groupKeys i key [] } := rfl

theorem gkEmpty_eq (s : State) (i : Nat) :
    gkEmpty s i = (s.setAll (slotWrites i false false 0 0)).setCrypto
      { s.crypto with groupKeys := Cells.erase s.crypto.groupKeys i } := rfl

theorem State.flag_setAll_written (s : State) {l : List (Fld × Nat)} {f : Fld} {b : Bool} (h : lastWritten l f = some (b2n b)) :
    (s.setAll l).flag f = b := by
  rw [State.flag, State.get_setAll_written s h, ← State.get_set_self s f]
  exact State.flag_setFlag_self s f b

/-- The registers of a slot after a LOAD or a CLEAR of it. -/
theorem lastWritten_slotWrites (i : Nat) (valid service : Bool) (tenant index : Nat) :
    lastWritten (slotWrites i valid service tenant index) (Reg.CRYPTO_GK_CFG.VALID i) = some (b2n valid) ∧
      lastWritten (slotWrites i valid service tenant index) (Reg.CRYPTO_GK_CFG.TX_ACTIVE i) = some (b2n false) ∧
      lastWritten (slotWrites i valid service tenant index) (Reg.CRYPTO_GK_CFG.TENANT i) = some tenant ∧
      lastWritten (slotWrites i valid service tenant index) (Reg.CRYPTO_GK_CFG.KEY_INDEX i) = some index := by
  simp [lastWritten, slotWrites, Fld.key, Reg.CRYPTO_GK_CFG.VALID, Reg.CRYPTO_GK_CFG.TX_ACTIVE, Reg.CRYPTO_GK_CFG.SERVICE,
    Reg.CRYPTO_GK_CFG.TENANT, Reg.CRYPTO_GK_CFG.KEY_INDEX, b2n]

/-- Writes to the control blocks leave the fields of the windows above them. -/
theorem onlyRegs_window {a t : State} {fs : List Fld} (h : onlyRegs a t fs) (low : ∀ f ∈ fs, f.key < 0x200000 * 64) {g : Fld}
    (window : 0x200000 ≤ g.off) : t.get g = a.get g :=
  h.2 g fun f hf => (window_apart window (low f hf)).symm

/-! A slot after a LOAD or a CLEAR. -/

/-- A slot that is valid or not and not TX_ACTIVE, with its tenant, its Key Index and its key. -/
def slotHolds (t : State) (i : Nat) (valid : Bool) (tenant index : Nat) (key : List Byte) : Prop :=
  t.flag (Reg.CRYPTO_GK_CFG.VALID i) = valid ∧ t.flag (Reg.CRYPTO_GK_CFG.TX_ACTIVE i) = false ∧
    t.get (Reg.CRYPTO_GK_CFG.TENANT i) = tenant ∧ t.get (Reg.CRYPTO_GK_CFG.KEY_INDEX i) = index ∧
    Cells.get t.crypto.groupKeys i [] = key

section Slot
variable (s : State) (i : Nat) {tenant index : Nat} (tenantFits : tenant < 256) (indexFits : index < 256)
include tenantFits indexFits

/-- A slot holds what is written into its registers and its place among the keys; the clock and the queue stay. -/
theorem slotHolds_written (valid service : Bool) {c : CryptoState} {key : List Byte} (held : Cells.get c.groupKeys i [] = key) :
    slotHolds ((s.setAll (slotWrites i valid service tenant index)).setCrypto c) i valid tenant index key ∧
      ((s.setAll (slotWrites i valid service tenant index)).setCrypto c).tick = s.tick ∧
      ((s.setAll (slotWrites i valid service tenant index)).setCrypto c).pending = s.pending := by
  obtain ⟨validIs, txIs, tenantIs, indexIs⟩ := lastWritten_slotWrites i valid service tenant index
  have validIs := s.flag_setAll_written validIs
  have txIs := s.flag_setAll_written txIs
  have tenantIs := (s.get_setAll_written tenantIs).trans (Nat.mod_eq_of_lt tenantFits)
  have indexIs := (s.get_setAll_written indexIs).trans (Nat.mod_eq_of_lt indexFits)
  obtain ⟨clock, queue, -, -⟩ := onlyRegs_frame (s.setAll_onlyRegs (slotWrites i valid service tenant index))
  generalize s.setAll _ = p at validIs txIs tenantIs indexIs clock queue
  exact ⟨⟨validIs, txIs, tenantIs, indexIs, held⟩, clock, queue⟩

theorem slotHolds_gkPut (service : Bool) (key : List Byte) : slotHolds (gkPut s i tenant index service key) i true tenant index key ∧
    (gkPut s i tenant index service key).tick = s.tick ∧ (gkPut s i tenant index service key).pending = s.pending := by
  rw [gkPut_eq]
  exact slotHolds_written s i tenantFits indexFits true service (Cells.get_set_self ..)

end Slot

theorem slotHolds_gkEmpty (s : State) (i : Nat) : slotHolds (gkEmpty s i) i false 0 0 [] ∧
    (gkEmpty s i).tick = s.tick ∧ (gkEmpty s i).pending = s.pending := by
  rw [gkEmpty_eq]
  exact slotHolds_written s i (by decide) (by decide) false false (Cells.get_erase_self ..)

/-- What leaves the windows above the control blocks and the CRYPTO block leaves a slot. -/
theorem slotHolds_congr {p t : State} {i tenant index : Nat} {valid : Bool} {key : List Byte} (h : slotHolds p i valid tenant index key)
    (kept : ∀ g : Fld, 0x200000 ≤ g.off → t.get g = p.get g) (crypto : t.crypto = p.crypto) : slotHolds t i valid tenant index key := by
  have window := windowOff_window 2 i
  simp only [slotHolds, State.flag] at h ⊢
  rwa [kept (Reg.CRYPTO_GK_CFG.VALID i) window, kept (Reg.CRYPTO_GK_CFG.TX_ACTIVE i) window, kept (Reg.CRYPTO_GK_CFG.TENANT i) window,
    kept (Reg.CRYPTO_GK_CFG.KEY_INDEX i) window, crypto]

/-! The end of a slot command (R308). -/

section Done
variable (s : State) (cause : Option Nat)

/-- What STATUS shows after a slot command. -/
theorem gkDone_status (small : cause.getD 0 < 8) :
    (gkDone s cause).flag Reg.CRYPTO_GK_STATUS.DONE = true ∧ (gkDone s cause).get Reg.CRYPTO_GK_STATUS.CAUSE = cause.getD 0 ∧
      (cause.isSome = true → (gkDone s cause).flag Reg.CRYPTO_GK_STATUS.FAIL = true) := by
  have done : ((s.setFlag Reg.CRYPTO_GK_STATUS.DONE true).set Reg.CRYPTO_GK_STATUS.CAUSE (cause.getD 0)).flag
      Reg.CRYPTO_GK_STATUS.DONE = true := (State.flag_set_other _ _ _ _ (by decide)).trans (State.flag_setFlag_self ..)
  have shown := State.get_set_of_lt (s.setFlag Reg.CRYPTO_GK_STATUS.DONE true) Reg.CRYPTO_GK_STATUS.CAUSE small
  cases cause with
  | none => exact ⟨done, shown, fun failed => nomatch failed⟩
  | some c =>
    exact ⟨(State.flag_set_other _ _ _ _ (by decide)).trans done, (State.get_set_other _ _ _ _ (by decide)).trans shown,
      fun _ => State.flag_setFlag_self ..⟩

/-- The end of a slot command touches STATUS alone. -/
theorem gkDone_onlyRegs : onlyRegs s (gkDone s cause)
    [Reg.CRYPTO_GK_STATUS.DONE, Reg.CRYPTO_GK_STATUS.CAUSE, Reg.CRYPTO_GK_STATUS.FAIL] :=
  onlyRegs_trans (onlyRegs_trans (State.set_onlyRegs s (by simp) _) (State.set_onlyRegs _ (by simp) _))
    (State.onlyIf_set_onlyRegs _ _ (by simp) _)

theorem gkDone_frame : (gkDone s cause).tick = s.tick ∧ (gkDone s cause).pending = s.pending ∧ (gkDone s cause).crypto = s.crypto := by
  have rest := (gkDone_onlyRegs s cause).1
  have clock := congrArg State.tick rest
  have queue := congrArg State.pending rest
  have crypto := congrArg State.crypto rest
  exact ⟨clock, queue, crypto⟩

theorem gkDone_window {g : Fld} (window : 0x200000 ≤ g.off) : (gkDone s cause).get g = s.get g :=
  onlyRegs_window (gkDone_onlyRegs s cause) (by decide) window

theorem gkDone_window_flag {g : Fld} (window : 0x200000 ≤ g.off) : (gkDone s cause).flag g = s.flag g := by
  rw [State.flag, gkDone_window s cause window, State.flag]

end Done

/-! LOAD (R307, R308, R313). -/

/-- The CAUSE of a LOAD that fails is one of R308's. -/
theorem gkLoadCause_range {s : State} {key : Option (List Byte)} {i tenant index c : Nat} {service : Bool}
    (failed : gkLoadCause s key i tenant index service = some c) : c < 8 := by
  unfold gkLoadCause at failed
  split_ifs at failed <;> cases failed <;> decide

/-- A LOAD that succeeds has a key. -/
theorem gkLoadCause_key {s : State} {key : Option (List Byte)} {i tenant index : Nat} {service : Bool}
    (loads : gkLoadCause s key i tenant index service = none) : ∃ k, key = some k := by
  cases key with
  | some k => exact ⟨k, rfl⟩
  | none => cases loads

/-- The WRAP registers once they are zeroised. -/
theorem wraps_zeroised (s : State) (k : Fin 3) (cause : Option Nat) :
    (gkDone (s.setAll wrapWrites) cause).get (Reg.CRYPTO_GK_WRAP.WRAP k) = 0 := by
  have apart : ∀ k : Fin 3, ∀ f ∈ [Reg.CRYPTO_GK_STATUS.DONE, Reg.CRYPTO_GK_STATUS.CAUSE, Reg.CRYPTO_GK_STATUS.FAIL],
      (Reg.CRYPTO_GK_WRAP.WRAP k).key ≠ f.key := by decide
  have written : ∀ k : Fin 3, lastWritten wrapWrites (Reg.CRYPTO_GK_WRAP.WRAP k) = some 0 := by decide
  rw [(gkDone_onlyRegs _ cause).2 _ (apart k), State.get_setAll_written s (written k), Nat.zero_mod]

theorem zeroised_window (s : State) (cause : Option Nat) {g : Fld} (window : 0x200000 ≤ g.off) :
    (gkDone (s.setAll wrapWrites) cause).get g = s.get g :=
  (gkDone_window _ cause window).trans (onlyRegs_window (s.setAll_onlyRegs wrapWrites) (by decide) window)

theorem zeroised_frame (s : State) (cause : Option Nat) : (gkDone (s.setAll wrapWrites) cause).tick = s.tick ∧
    (gkDone (s.setAll wrapWrites) cause).pending = s.pending ∧ (gkDone (s.setAll wrapWrites) cause).crypto = s.crypto :=
  gkDone_frame ..

section Load
variable {s : State} {dt : Nat} {v : Word}

/-- The CAUSE of the LOAD that a word asks for. -/
def loadCause (s : State) (v : Nat) : Option Nat :=
  gkLoadCause s (kekUnwrap s (gkWrapped s)) (bits v 21 16) (bits v 15 8) (bits v 7 0) (bit v 24)

theorem gkLoad_of_none {s : State} {v : Nat} (loads : loadCause s v = none) {key : List Byte}
    (unwrapped : kekUnwrap s (gkWrapped s) = some key) :
    gkLoad s v = gkDone ((gkPut s (bits v 21 16) (bits v 15 8) (bits v 7 0) (bit v 24) key).setAll wrapWrites) none := by
  unfold loadCause at loads
  unfold gkLoad
  dsimp only
  rw [loads, unwrapped, zeroise_eq]
  exact congrArg (fun p : State => gkDone (p.setAll wrapWrites) none) (State.onlyIf_true ..)

theorem gkLoad_of_some {s : State} {v c : Nat} (fails : loadCause s v = some c) :
    gkLoad s v = gkDone (s.setAll wrapWrites) (some c) := by
  unfold loadCause at fails
  unfold gkLoad
  dsimp only
  rw [fails, zeroise_eq]
  exact congrArg (fun p : State => gkDone (p.setAll wrapWrites) (some c)) (State.onlyIf_false ..)

theorem gkLoad_accepts (loads : loadCause s v.toNat = none) : completes (.gkLoad dt v) s fun t =>
    t.flag Reg.CRYPTO_GK_STATUS.DONE = true ∧ (∀ k : Fin 3, t.get (Reg.CRYPTO_GK_WRAP.WRAP k) = 0) ∧
    ∃ key, kekUnwrap s (gkWrapped s) = some key ∧ slotHolds t (bits v.toNat 21 16) true (bits v.toNat 15 8) (bits v.toNat 7 0) key ∧
      t.get Reg.CRYPTO_GK_STATUS.CAUSE = 0 := by
  obtain ⟨key, unwrapped⟩ := gkLoadCause_key loads
  have effect := gkLoad_of_none (s := s.advance dt) loads unwrapped
  have tenantFits : bits v.toNat 15 8 < 256 := Nat.mod_lt _ (by decide)
  have indexFits : bits v.toNat 7 0 < 256 := Nat.mod_lt _ (by decide)
  obtain ⟨slot, clock, queue⟩ := slotHolds_gkPut (s.advance dt) (bits v.toNat 21 16) tenantFits indexFits (bit v.toNat 24) key
  generalize gkPut _ _ _ _ _ _ = p at effect slot clock queue
  obtain ⟨clock', queue', crypto⟩ := zeroised_frame p none
  obtain ⟨done, cause, -⟩ := gkDone_status (p.setAll wrapWrites) none (by decide)
  have held := slotHolds_congr slot (fun g window => zeroised_window p none window) crypto
  exact completes_of_write (exec_gkLoad ..) effect (clock'.trans clock) (queue'.trans queue)
    ⟨done, fun k => wraps_zeroised p k none, key, unwrapped, held, cause⟩

theorem gkLoad_refuses {c : Nat} (fails : loadCause s v.toNat = some c) : completes (.gkLoad dt v) s fun t =>
    t.flag Reg.CRYPTO_GK_STATUS.DONE = true ∧ (∀ k : Fin 3, t.get (Reg.CRYPTO_GK_WRAP.WRAP k) = 0) ∧
    t.crypto = s.crypto ∧ t.flag Reg.CRYPTO_GK_STATUS.FAIL = true ∧ t.get Reg.CRYPTO_GK_STATUS.CAUSE = c := by
  obtain ⟨clock, queue, crypto⟩ := zeroised_frame (s.advance dt) (some c)
  obtain ⟨done, cause, fail⟩ := gkDone_status ((s.advance dt).setAll wrapWrites) (some c) (gkLoadCause_range fails)
  exact completes_of_write (exec_gkLoad ..) (gkLoad_of_some (s := s.advance dt) fails) clock queue
    ⟨done, fun k => wraps_zeroised _ k _, crypto, fail rfl, cause⟩

end Load

/-! CLEAR and SET_TX (R307, R308). -/

section Slot
variable {s : State} {dt : Nat} {v : Word}

theorem gkClear_empties : completes (.gkClear dt v) s fun t => t.flag (Reg.CRYPTO_GK_CFG.VALID (bits v.toNat 21 16)) = false ∧
    Cells.get t.crypto.groupKeys (bits v.toNat 21 16) [] = [] ∧ t.flag Reg.CRYPTO_GK_STATUS.DONE = true := by
  have effect : gkClear (s.advance dt) v.toNat = gkDone (gkEmpty (s.advance dt) (bits v.toNat 21 16)) none := rfl
  obtain ⟨slot, clock, queue⟩ := slotHolds_gkEmpty (s.advance dt) (bits v.toNat 21 16)
  generalize gkEmpty _ _ = p at effect slot clock queue
  obtain ⟨clock', queue', crypto⟩ := gkDone_frame p none
  obtain ⟨done, -, -⟩ := gkDone_status p none (by decide)
  obtain ⟨invalid, -, -, -, keyless⟩ := slotHolds_congr slot (fun g window => gkDone_window p none window) crypto
  exact completes_of_write (exec_gkClear ..) effect (clock'.trans clock) (queue'.trans queue) ⟨invalid, keyless, done⟩

/-- To make a slot TX_ACTIVE touches registers alone: its own, and that of the slot it replaces. -/
theorem gkActivate_onlyRegs (s : State) (i : Nat) : ∃ fs, onlyRegs s (gkActivate s i) fs := by
  unfold gkActivate
  dsimp only
  split
  next j _ =>
    exact ⟨[Reg.CRYPTO_GK_CFG.TX_ACTIVE j, Reg.CRYPTO_GK_CFG.TX_ACTIVE i],
      onlyRegs_trans (State.set_onlyRegs s (by simp) _) (State.set_onlyRegs _ (by simp) _)⟩
  next => exact ⟨[Reg.CRYPTO_GK_CFG.TX_ACTIVE i], State.set_onlyRegs s (List.mem_singleton_self _) _⟩

theorem gkActivate_slot (s : State) (i : Nat) : (gkActivate s i).flag (Reg.CRYPTO_GK_CFG.TX_ACTIVE i) = true ∧
    (gkActivate s i).tick = s.tick ∧ (gkActivate s i).pending = s.pending ∧ (gkActivate s i).crypto = s.crypto := by
  obtain ⟨_, rest, -⟩ := gkActivate_onlyRegs s i
  have clock := congrArg State.tick rest
  have queue := congrArg State.pending rest
  have crypto := congrArg State.crypto rest
  exact ⟨State.flag_setFlag_self .., clock, queue, crypto⟩

theorem gkSetTx_activates (valid : s.flag (Reg.CRYPTO_GK_CFG.VALID (bits v.toNat 21 16)) = true) :
    completes (.gkSetTx dt v) s fun t => t.flag (Reg.CRYPTO_GK_CFG.TX_ACTIVE (bits v.toNat 21 16)) = true ∧
      t.get Reg.CRYPTO_GK_STATUS.CAUSE = 0 ∧ t.crypto = s.crypto := by
  have effect : gkSetTx (s.advance dt) v.toNat = gkDone (gkActivate (s.advance dt) (bits v.toNat 21 16)) none := if_pos valid
  obtain ⟨active, clock, queue, crypto⟩ := gkActivate_slot (s.advance dt) (bits v.toNat 21 16)
  generalize gkActivate _ _ = p at effect active clock queue crypto
  obtain ⟨clock', queue', crypto'⟩ := gkDone_frame p none
  obtain ⟨-, cause, -⟩ := gkDone_status p none (by decide)
  exact completes_of_write (exec_gkSetTx ..) effect (clock'.trans clock) (queue'.trans queue)
    ⟨(gkDone_window_flag p none (windowOff_window 2 _)).trans active, cause, crypto'.trans crypto⟩

theorem gkSetTx_refuses (invalid : ¬ s.flag (Reg.CRYPTO_GK_CFG.VALID (bits v.toNat 21 16)) = true) :
    completes (.gkSetTx dt v) s fun t => t.get Reg.CRYPTO_GK_STATUS.CAUSE = 3 ∧ onlyRegsAnswered (s.advance dt) t
      [Reg.CRYPTO_GK_STATUS.DONE, Reg.CRYPTO_GK_STATUS.CAUSE, Reg.CRYPTO_GK_STATUS.FAIL] := by
  have effect : gkSetTx (s.advance dt) v.toNat = gkDone (s.advance dt) (some 3) := if_neg invalid
  obtain ⟨clock, queue, -⟩ := gkDone_frame (s.advance dt) (some 3)
  obtain ⟨-, cause, -⟩ := gkDone_status (s.advance dt) (some 3) (by decide)
  exact completes_of_write (exec_gkSetTx ..) effect clock queue ⟨cause, onlyRegsAnswered_of_onlyRegs (gkDone_onlyRegs ..) 0⟩

end Slot

/-! FLUSH and the index hash (R299, R313, R316). -/

section Write
variable {s : State} {dt : Nat} {v : Word}

theorem keyCacheFlush_empties (flush : v.getLsbD 63 = true) : completes (.keyCacheFlush dt v) s fun t => t.crypto.cache = [] ∧
    (∀ w ∈ t.crypto.unwraps, w.keep = false) ∧ t.crypto.jobs = s.crypto.jobs ∧
      onlyRegsAnswered (s.advance dt) { t with crypto := s.crypto } [Reg.CRYPTO_CTRL.KEK_SLOT] := by
  have flushed : writeCryptoCtrl (s.advance dt) v.toNat = (flushKeys (s.advance dt)).onlyIf (!s.flag (Reg.LOCK Block.CRYPTO))
      fun s => s.set Reg.CRYPTO_CTRL.KEK_SLOT (bits v.toNat 4 0) := by
    rw [writeCryptoCtrl, bit_toNat, flush]
    rfl
  have only := State.onlyIf_set_onlyRegs (flushKeys (s.advance dt)) (!s.flag (Reg.LOCK Block.CRYPTO))
    (List.mem_singleton_self Reg.CRYPTO_CTRL.KEK_SLOT) (bits v.toNat 4 0)
  generalize (flushKeys (s.advance dt)).onlyIf _ _ = p at flushed only
  obtain ⟨rest, fields⟩ := only
  have clock := congrArg State.tick rest
  have queue := congrArg State.pending rest
  have crypto := congrArg State.crypto rest
  have others := congrArg (fun t : State => { t with crypto := s.crypto }) rest
  have only : onlyRegs (s.advance dt) { p with crypto := s.crypto } [Reg.CRYPTO_CTRL.KEK_SLOT] := ⟨others, fields⟩
  change p.crypto = (flushKeys (s.advance dt)).crypto at crypto
  refine completes_of_write (k := fun s => writeCryptoCtrl s v.toNat) (by unfold exec execKeyCacheFlush; rfl) flushed clock queue ?_
  change p.crypto.cache = [] ∧ (∀ w ∈ p.crypto.unwraps, w.keep = false) ∧ p.crypto.jobs = s.crypto.jobs ∧ _
  rw [crypto]
  refine ⟨rfl, fun w hw => ?_, rfl, onlyRegsAnswered_of_onlyRegs only 0⟩
  obtain ⟨u, -, rfl⟩ := List.mem_map.1 hw
  rfl

theorem writeHashKey_onlyRegs (s : State) (key : Nat) : onlyRegs s (writeHashKey s key)
    [Reg.FWD_HASH_KEY.EUI64, Reg.FWD_HASH_RESULT.H0, Reg.FWD_HASH_RESULT.H1] :=
  onlyRegs_trans (onlyRegs_trans (State.set_onlyRegs s (by simp) _) (State.set_onlyRegs _ (by simp) _)) (State.set_onlyRegs _ (by simp) _)

theorem writeHashKey_fields (s : State) {key : Nat} (fits : key < 2 ^ 64) :
    (writeHashKey s key).get Reg.FWD_HASH_KEY.EUI64 = key ∧ (writeHashKey s key).get Reg.FWD_HASH_RESULT.H0 = hash0 s key ∧
      (writeHashKey s key).get Reg.FWD_HASH_RESULT.H1 = hash1 s key % 65536 := by
  have bucket : hash0 s key < 65536 := Nat.mod_lt _ (by decide)
  unfold writeHashKey
  refine ⟨?_, ?_, State.get_set_self ..⟩
  · rw [State.get_set_other _ _ _ _ (by decide), State.get_set_other _ _ _ _ (by decide)]
    exact State.get_set_of_lt _ _ fits
  · rw [State.get_set_other _ _ _ _ (by decide)]
    exact State.get_set_of_lt _ _ bucket

theorem hashKeyWrite_hashes : completes (.hashKeyWrite dt v) s fun t => t.get Reg.FWD_HASH_KEY.EUI64 = v.toNat ∧
    t.get Reg.FWD_HASH_RESULT.H0 = hash0 s v.toNat ∧ t.get Reg.FWD_HASH_RESULT.H1 = hash1 s v.toNat % 65536 ∧
      onlyRegsAnswered (s.advance dt) t [Reg.FWD_HASH_KEY.EUI64, Reg.FWD_HASH_RESULT.H0, Reg.FWD_HASH_RESULT.H1] := by
  have only := writeHashKey_onlyRegs (s.advance dt) v.toNat
  obtain ⟨shown, h0, h1⟩ := writeHashKey_fields (s.advance dt) v.isLt
  obtain ⟨clock, queue, -, -⟩ := onlyRegs_frame only
  exact completes_of_write (k := fun s => writeHashKey s v.toNat) (by unfold exec execHashKeyWrite; rfl) rfl clock queue
    ⟨shown, h0, h1, onlyRegsAnswered_of_onlyRegs only 0⟩

end Write

/-- Settles O37: a slot command writes its slot, the WRAP registers or nothing, and then STATUS, whose fields lie apart from both. -/
theorem groupKeysAndHash : Obligations.GroupKeysAndHash := by
  rintro s dt v i key rfl rfl
  refine ⟨?_, gkClear_empties, ?_, keyCacheFlush_empties, ?_⟩
  · cases cause : gkLoadCause s (kekUnwrap s (gkWrapped s)) (bits v.toNat 21 16) (bits v.toNat 15 8) (bits v.toNat 7 0) (bit v.toNat 24) with
    | none =>
      obtain ⟨t, done, finished, wraps, key, unwrapped, ⟨valid, tx, tenant, index, held⟩, shown⟩ := gkLoad_accepts (dt := dt) cause
      exact ⟨t, done, finished, wraps, valid, tx, tenant, index, unwrapped.trans (congrArg some held.symm), shown⟩
    | some c => exact gkLoad_refuses cause
  · by_cases valid : s.flag (Reg.CRYPTO_GK_CFG.VALID (bits v.toNat 21 16)) = true
    · simp only [if_pos valid]
      exact gkSetTx_activates valid
    · simp only [if_neg valid]
      exact gkSetTx_refuses valid
  · obtain ⟨t, done, shown, h0, h1, only⟩ := hashKeyWrite_hashes (s := s) (dt := dt) (v := v)
    exact ⟨t, done, shown, h0, h1.trans (by rw [hash1, Nat.add_mod_left, Nat.mod_mod]), only⟩

end Sys2Proof.Machine
end

section
/-!
SUPPORT. The end of a key unwrap (R297, R299, R300, R311), and the start of a CCM* job (R293, R295): what is left of the rest. Then
the statement of 08_frame_protection.md about them.
-/

namespace Sys2Proof.Machine

/-! The unwrap units (R300). -/

/-- With nothing in the key-miss queue the unwrap units take nothing. -/
theorem startUnwraps_of_none {s : State} (up : ∀ u ∈ s.up, u.stage ≠ .keyMiss) (down : s.down = []) : startUnwraps s = s := by
  have ups : s.up.filter (fun u => decide (u.stage = .keyMiss)) = [] := List.filter_eq_nil_iff.2 (by simpa using up)
  have records : keyMissRecords s = [] := by simp [keyMissRecords, ups, down, sortBy]
  rw [startUnwraps, records, List.foldl_nil]

/-- An event leaves the CRYPTO block and the packets on their way down. -/
theorem State.event_crypto (s : State) (code source arg : Nat) :
    (s.event code source arg).crypto = s.crypto ∧ (s.event code source arg).down = s.down := by
  have rest := State.event_frame s code source arg
  have crypto := congrArg State.crypto rest
  have down := congrArg State.down rest
  exact ⟨crypto, down⟩

/-- What a MIC_FAIL leaves: the jobs, the key cache and the packets on their way down. -/
theorem micFail_leaves (s : State) (r fe cause level : Nat) (group : Option Nat) :
    (micFail s (some r) fe cause level group).crypto.jobs = s.crypto.jobs ∧
      (micFail s (some r) fe cause level group).crypto.cache = s.crypto.cache ∧
      (micFail s (some r) fe cause level group).down = s.down := by
  have noted (x : List (Nat × MsWindow)) : (bumpRec (s.setCrypto { s.crypto with micWindow := x }) r 0x90 2).crypto.jobs = s.crypto.jobs ∧
      (bumpRec (s.setCrypto { s.crypto with micWindow := x }) r 0x90 2).crypto.cache = s.crypto.cache ∧
      (bumpRec (s.setCrypto { s.crypto with micWindow := x }) r 0x90 2).down = s.down := ⟨rfl, rfl, rfl⟩
  unfold micFail
  dsimp only
  generalize hb : bumpRec (s.setCrypto _) r 0x90 2 = b
  have kept := hb ▸ noted _
  split
  · rw [(State.event_crypto ..).1, (State.event_crypto ..).2]
    exact kept
  · exact kept

/-! The end of an unwrap (R299, R300, R311). -/

theorem kekUnwrap_advance (s : State) (dt : Nat) (w : List Byte) : kekUnwrap (s.advance dt) w = kekUnwrap s w := rfl

/-- The machine once the one unwrap under way has ended. -/
def unwrapEnded (s : State) : State := s.setCrypto { s.crypto with unwraps := [] }

/-- What becomes of the one frame that waits for an unwrap: it goes on with its key, or it fails. -/
def unwrapJudged (s : State) (w : Unwrap) (u : UpFrame) : Option (List Byte) → State
  | some k => startVerify (s.onlyIf w.keep fun s => cacheKey s w.record k) u w.record (some k) (u.counter, u.asnCounter)
  | none =>
    if behind (dropUp s u.id) u then replay (dropUp s u.id) u
    else micFail (dropUp s u.id) (some w.record) u.fe 1 (((secOf u.frame).map (·.level)).getD 0) none

/-- The entry of a key that may enter the cache touches the cache alone. -/
theorem unwrapEnded_onlyIf_cacheKey (s : State) (keep : Bool) (r : Nat) (key : List Byte) :
    ∃ c, (unwrapEnded s).onlyIf keep (fun s => cacheKey s r key) = s.setCrypto c ∧ c.jobs = s.crypto.jobs ∧ c.unwraps = [] ∧
      (keep = true → cachedKey (s.setCrypto c) r = some key) := by
  cases keep with
  | false => exact ⟨_, State.onlyIf_false .., rfl, rfl, fun h => nomatch h⟩
  | true => exact ⟨_, State.onlyIf_true .., rfl, rfl, fun _ => cachedKey_cacheKey (unwrapEnded s) r key⟩

/-- The one frame on the path waits for an engine, and its job for it. -/
theorem startVerify_of_alone {s : State} {u : UpFrame} (only : s.up = [u]) (r : Nat) (key : Option (List Byte)) (x : Nat × Bool) :
    ∃ u', startVerify s u r key x =
        { s with up := [u'], crypto := { s.crypto with jobs := s.crypto.jobs ++ [{ kind := .verify u.id }] } } ∧
      u'.stage = .waiting ∧ u'.key = key ∧ u'.record = r := by
  refine ⟨{ u with record := r, key := key, counter := x.1, asnCounter := x.2, stage := .waiting }, ?_, rfl, rfl, rfl⟩
  simp only [startVerify, addJob, State.setCrypto, only, List.map_cons, List.map_nil, if_true]

section Unwrap
variable {s : State} {dt : Nat} {w : Unwrap} {u : UpFrame} {key : List Byte} (busy : s.crypto.unwraps = [w]) (only : s.up = [u])
  (down : s.down = []) (waits : u.stage = .keyMiss) (own : u.record = w.record)
include busy only down waits own

/-- The end of the one unwrap under way, by what becomes of the one frame that waits for it. -/
theorem keyUnwrapDone_completes {r : State} {post : State → Prop}
    (effect : startUnwraps (unwrapJudged (unwrapEnded (s.advance dt)) w u (kekUnwrap s u.wrapped)) = r)
    (clock : r.tick = s.tick + dt) (queue : r.pending = s.pending) (hp : post r) : completes (.keyUnwrapDone dt w.record) s post := by
  refine completes_of_effect (dt := dt) (by unfold exec execKeyUnwrapDone; rfl) ?_ clock queue hp
  have found : (s.advance dt).crypto.unwraps.find? (fun x => decide (x.record = w.record)) = some w := by
    change s.crypto.unwraps.find? _ = some w
    rw [busy]
    exact List.find?_cons_of_pos (decide_eq_true rfl)
  have left : (s.advance dt).crypto.unwraps.filter (fun x => decide (x ≠ w)) = [] := by
    change s.crypto.unwraps.filter _ = []
    rw [busy]
    simp
  have ups : (s.advance dt).up.filter (fun u => decide (u.stage = .keyMiss ∧ u.record = w.record)) = [u] := by
    change s.up.filter _ = _
    rw [only]
    simp [waits, own]
  have downs : (s.advance dt).down.filter (fun d => d.keyMiss && decide (d.link = w.record)) = [] := by
    change s.down.filter _ = _
    rw [down]
    rfl
  have ended : (s.advance dt).setCrypto { (s.advance dt).crypto with unwraps := [] } = unwrapEnded (s.advance dt) := rfl
  rw [← effect]
  dsimp only
  rw [found]
  dsimp only
  rw [ups, downs, left, ended, kekUnwrap_advance]
  generalize unwrapEnded (s.advance dt) = p
  generalize kekUnwrap s u.wrapped = key
  cases key with
  | none =>
    dsimp only
    rw [List.foldl_cons, List.foldl_nil, List.foldl_nil, Option.isSome_none, if_neg Bool.false_ne_true, unwrapJudged]
  | some k => rfl

theorem keyUnwrapDone_yields (unwrapped : kekUnwrap s u.wrapped = some key) : completes (.keyUnwrapDone dt w.record) s fun t =>
    (∃ u', t.up = [u'] ∧ u'.stage = .waiting ∧ u'.key = some key ∧ u'.record = w.record) ∧
      t.crypto.jobs = s.crypto.jobs ++ [{ kind := .verify u.id }] ∧ t.crypto.unwraps = [] ∧
      (w.keep = true → cachedKey t w.record = some key) ∧ { t with up := s.up, crypto := s.crypto } = s.advance dt := by
  obtain ⟨c, entered, jobs, unwraps, cached⟩ := unwrapEnded_onlyIf_cacheKey (s.advance dt) w.keep w.record key
  obtain ⟨u', verifies, path, key', record⟩ :=
    startVerify_of_alone (s := (s.advance dt).setCrypto c) only w.record (some key) (u.counter, u.asnCounter)
  refine keyUnwrapDone_completes busy only down waits own (r := { s.advance dt with
    up := [u'], crypto := { c with jobs := c.jobs ++ [{ kind := .verify u.id }] } }) ?_ rfl rfl
    ⟨⟨u', rfl, path, key', record⟩, congrArg (· ++ [_]) jobs, unwraps, cached, rfl⟩
  rw [unwrapped, unwrapJudged, entered, verifies]
  exact startUnwraps_of_none (by simp [path]) down

theorem keyUnwrapDone_fails (failed : kekUnwrap s u.wrapped = none) (timely : behind s u = false) :
    completes (.keyUnwrapDone dt w.record) s fun t =>
      t.up = [] ∧ countedOnce s t Ev.MIC_FAIL ∧ t.crypto.jobs = s.crypto.jobs ∧ t.crypto.cache = s.crypto.cache := by
  obtain ⟨level, judged⟩ : ∃ level, unwrapJudged (unwrapEnded (s.advance dt)) w u (kekUnwrap s u.wrapped) =
      micFail (dropUp (unwrapEnded (s.advance dt)) u.id) (some w.record) u.fe 1 level none := by
    rw [failed]
    exact ⟨_, if_neg (Bool.eq_false_iff.1 timely)⟩
  have empty : (dropUp (unwrapEnded (s.advance dt)) u.id).up = [] := dropUp_of_alone (s := unwrapEnded (s.advance dt)) only
  obtain ⟨kept, counted, -⟩ := micFail_frame (dropUp (unwrapEnded (s.advance dt)) u.id) w.record u.fe 1 level none
  obtain ⟨jobs, cache, packets⟩ := micFail_leaves (dropUp (unwrapEnded (s.advance dt)) u.id) w.record u.fe 1 level none
  obtain ⟨clock, queue⟩ := kept.clock_eq
  have path := kept.up_eq.trans empty
  refine keyUnwrapDone_completes busy only down waits own ?_ clock queue ⟨path, counted, jobs, cache⟩
  rw [judged]
  exact startUnwraps_of_none (fun x hx => absurd (path ▸ hx) (List.not_mem_nil)) (packets.trans down)

end Unwrap

/-! A job in place of itself (R293). -/

/-- The list with its first `a` replaced by `b`. -/
def replacedFirst {α : Type} [DecidableEq α] (l : List α) (a b : α) : List α :=
  l.takeWhile (· ≠ a) ++ [b] ++ (l.dropWhile (· ≠ a)).drop 1

theorem putJob_eq (s : State) (j j' : CcmJob) :
    putJob s j j' = s.setCrypto { s.crypto with jobs := replacedFirst s.crypto.jobs j j' } := rfl

section Replaced
variable {α : Type} [DecidableEq α] {l : List α} {a b x : α}

theorem replacedFirst_cons_self : replacedFirst (a :: l) a b = b :: l := by simp [replacedFirst]

theorem replacedFirst_cons_other (other : x ≠ a) : replacedFirst (x :: l) a b = x :: replacedFirst l a b := by
  simp [replacedFirst, other]

theorem length_replacedFirst (h : a ∈ l) : (replacedFirst l a b).length = l.length := by
  induction l with
  | nil => cases h
  | cons x l ih =>
    by_cases same : x = a
    · rw [same, replacedFirst_cons_self, List.length_cons, List.length_cons]
    · rw [replacedFirst_cons_other same, List.length_cons, List.length_cons, ih (List.mem_of_ne_of_mem (Ne.symm same) h)]

/-- What only the new element has is found in it. -/
theorem find?_replacedFirst {p : α → Bool} (missed : ∀ x ∈ l, ¬ p x = true) (hit : p b = true) (h : a ∈ l) :
    (replacedFirst l a b).find? p = some b := by
  induction l with
  | nil => cases h
  | cons x l ih =>
    by_cases same : x = a
    · rw [same, replacedFirst_cons_self, List.find?_cons_of_pos hit]
    · rw [replacedFirst_cons_other same, List.find?_cons_of_neg (missed x List.mem_cons_self)]
      exact ih (fun y hy => missed y (List.mem_cons_of_mem x hy)) (List.mem_of_ne_of_mem (Ne.symm same) h)

end Replaced

/-- The job that an engine starts is one that waits. -/
theorem nextJob_mem {s : State} {engine : Nat} {j : CcmJob} (next : nextJob s engine = some j) : j ∈ s.crypto.jobs := by
  have kept : ∀ i, nextJob s engine = some i → i ∈ s.crypto.jobs := by
    unfold nextJob
    dsimp only
    refine List.foldlRecOn (motive := fun b : Option CcmJob => ∀ i, b = some i → i ∈ s.crypto.jobs) _ _ (fun i h => nomatch h)
      fun b hb i hi k hk => ?_
    have here := (List.mem_filter.1 hi).1
    split at hk
    · cases hk
      exact here
    · split at hk
      · cases hk
        exact here
      · exact hb k hk
  exact kept j next

/-- An engine at rest that takes a job runs it, and no job is lost. -/
theorem putJob_started {s : State} {engine : Nat} {j j' : CcmJob} (idle : engineBusy s engine = false) (waits : j ∈ s.crypto.jobs)
    (taken : j'.engine = some engine) :
    engineJob (putJob s j j') engine = some j' ∧ (putJob s j j').crypto.jobs.length = s.crypto.jobs.length := by
  rw [putJob_eq]
  exact ⟨find?_replacedFirst (List.any_eq_false.1 idle) (decide_eq_true taken) waits, length_replacedFirst waits⟩

/-! The start of a job (R291 to R293, R295). -/

section Start
variable {s : State} {dt : Nat} {engine : Fin 8} {j : CcmJob} (enabled : engine.val < engines s) (idle : engineBusy s engine = false)
  (next : nextJob (s.advance dt) engine = some j)
include enabled idle next

/-- An enabled engine at rest starts the job that comes next. -/
theorem ccmJobStart_completes {r : State} {post : State → Prop} (effect : startJob (s.advance dt) engine j = r)
    (clock : r.tick = s.tick + dt) (queue : r.pending = s.pending) (hp : post r) : completes (.ccmJobStart dt engine) s post := by
  have free : (decide (engine.val < engines s) && !engineBusy s engine) = true := by simp [enabled, idle]
  refine completes_of_whenever (by unfold exec execCcmJobStart; rfl) free ?_ clock queue hp
  rw [next]
  exact effect

theorem ccmJobStart_verifies {j' : CcmJob} {u : UpFrame} {x : AuxSec} {key : List Byte} (kind : j.kind = .verify u.id) (only : s.up = [u])
    (secured : secOf u.frame = some x) (keyed : verifyKey s u x = some key)
    (started : j' = { verifyParts (s.advance dt) u x key j with engine := some engine.val }) :
    completes (.ccmJobStart dt engine) s fun t => engineJob t engine = some j' ∧ t.crypto.jobs.length = s.crypto.jobs.length ∧
      t.up = [{ u with stage := .verifying }] ∧ { t with up := s.up, crypto := s.crypto } = s.advance dt := by
  have taken : j'.engine = some engine.val := by rw [started]
  obtain ⟨runs, jobs⟩ := putJob_started (s := s.advance dt) idle (nextJob_mem next) taken
  have found : (s.advance dt).up.find? (fun y => decide (y.id = u.id)) = some u := by
    change s.up.find? _ = some u
    rw [only]
    exact List.find?_cons_of_pos (decide_eq_true rfl)
  have keyed' : verifyKey (s.advance dt) u x = some key := keyed
  have verifies : (putJob (s.advance dt) j j').up.map (fun y => if y.id = u.id then { y with stage := .verifying } else y) =
      [{ u with stage := .verifying }] := by
    rw [show (putJob (s.advance dt) j j').up = [u] from only]
    simp
  refine ccmJobStart_completes enabled idle next (r := { putJob (s.advance dt) j j' with up := [{ u with stage := .verifying }] })
    ?_ rfl rfl ⟨runs, jobs, rfl, rfl⟩
  rw [← verifies, started]
  simp only [startJob, kind, found, secured, keyed']

theorem ccmJobStart_seals {j' : CcmJob} {e : Emission} {c : Carrier} {f : TxFrame} {fe id bin nominal : Nat} {k : List Byte × Nat}
    (kind : j.kind = .ack fe id bin ∨ j.kind = .encrypt fe id bin nominal) (carrier : jobCarrier s fe id bin = some (e, c))
    (framed : c.frame = some f) (keyed : carrierKey s c = some k)
    (started : j' = { sealParts (s.advance dt) e c f k j with engine := some engine.val }) :
    completes (.ccmJobStart dt engine) s fun t => engineJob t engine = some j' ∧ t.crypto.jobs.length = s.crypto.jobs.length ∧
      { t with crypto := s.crypto } = s.advance dt := by
  have taken : j'.engine = some engine.val := by rw [started]
  obtain ⟨runs, jobs⟩ := putJob_started (s := s.advance dt) idle (nextJob_mem next) taken
  have carrier' : jobCarrier (s.advance dt) fe id bin = some (e, c) := carrier
  have keyed' : carrierKey (s.advance dt) c = some k := keyed
  refine ccmJobStart_completes enabled idle next (r := putJob (s.advance dt) j j') ?_ rfl rfl ⟨runs, jobs, rfl⟩
  rw [started]
  obtain ack | encrypt := kind
  · simp only [startJob, ack, carrier', framed, keyed']
  · simp only [startJob, encrypt, carrier', framed, keyed']

end Start

/-- Settles O35: an unwrap leaves nothing in the key-miss queue behind it, and a job that starts stands in its own place. -/
theorem unwrapsAndEngines : Obligations.UnwrapsAndEngines := by
  rintro s _ dt w u x key engine j j' e c f fe id bin nominal k rfl
  exact ⟨fun busy only down waits own => ⟨keyUnwrapDone_yields busy only down waits own, keyUnwrapDone_fails busy only down waits own⟩,
    fun enabled idle next => ⟨ccmJobStart_verifies enabled idle next, ccmJobStart_seals enabled idle next⟩⟩

end Sys2Proof.Machine
end

section
/-!
SUPPORT. The Mule (R334 to R342): what the slots of the index hold after a write, the end of a list, the next descriptor of one,
lists, and the break of the locks.
-/

namespace Sys2Proof.Machine

/-! Slots of the index (R315, R339). -/

@[simp] theorem slotAt_setSlot_self (s : State) (b i : Nat) (v : Slot) : slotAt (setSlot s b i v) b i = v := Cells.get_set_self ..

theorem slotAt_setSlot_other (s : State) {b i c j : Nat} (v : Slot) (h : 4 * c + j ≠ 4 * b + i) :
    slotAt (setSlot s b i v) c j = slotAt s c j := Cells.get_set_other _ _ _ _ h

/-- `t` is `a` but for the slots of the index and for the key cache with the unwraps under way: all that a write of slots changes. -/
def onlySlots (a t : State) : Prop :=
  { t with tables := { t.tables with index := a.tables.index }, crypto := a.crypto } = a

namespace onlySlots
variable {a b t : State}

theorem refl (a : State) : onlySlots a a := rfl

theorem trans (h : onlySlots a b) (k : onlySlots b t) : onlySlots a t := by
  unfold onlySlots at h k ⊢
  rw [← k] at h
  exact h

theorem setSlot (s : State) (b i : Nat) (v : Slot) : onlySlots s (setSlot s b i v) := rfl
theorem dropKey (s : State) (r : Nat) : onlySlots s (dropKey s r) := rfl

theorem onlyIf (s : State) (c : Bool) {k : State → State} (h : onlySlots s (k s)) : onlySlots s (s.onlyIf c k) :=
  State.onlyIf_keeps (P := onlySlots s) s c k (refl s) fun _ => h

theorem foldl {β : Type} {f : State → β → State} (h : ∀ s e, onlySlots s (f s e)) (l : List β) (s : State) :
    onlySlots s (l.foldl f s) :=
  List.foldlRecOn (motive := fun t => onlySlots s t) l f (refl s) fun t ht e _ => ht.trans (h t e)

theorem frame (h : onlySlots a t) : t.tick = a.tick ∧ t.pending = a.pending ∧ t.mem = a.mem ∧ t.counters = a.counters ∧
    { t.tables with index := a.tables.index } = a.tables := by
  have clock := congrArg State.tick h
  have queue := congrArg State.pending h
  have mem := congrArg State.mem h
  have counters := congrArg State.counters h
  have tables := congrArg State.tables h
  exact ⟨clock, queue, mem, counters, tables⟩

end onlySlots

/-! The end of a list (R342). -/

/-- The fields of the status register that the end of a list writes. -/
def listEndFields : List Fld := [Reg.FWD_MULE_STATUS.BUSY, Reg.FWD_MULE_STATUS.DONE, Reg.FWD_MULE_STATUS.FAIL,
  Reg.FWD_MULE_STATUS.CAUSE, Reg.FWD_MULE_STATUS.DESC]

/-- The node tables after the end of a list: parked lookups resume, and the completion word displaces the oldest of a full FIFO. -/
def endedTables (s : State) (cause desc : Nat) : TableState :=
  { (resumeParked s).tables with
    mule := {}
    muleDone := (if s.tables.muleDone.length < 64 then s.tables.muleDone else s.tables.muleDone.drop 1) ++
      [at' cause 8 56 + at' desc 16 40 + at' (s.tables.mule.list / 64) 34 6 + 1] }

/-- `t` is `a` but for the Mule, what it completes, the parked lookups and register fields: all that the end of a descriptor changes. -/
def onlyMule (a t : State) : Prop :=
  { t with
    fields := a.fields
    tables := { t.tables with mule := a.tables.mule, muleDone := a.tables.muleDone, parking := a.tables.parking
                              resumed := a.tables.resumed } } = a

namespace onlyMule
variable {a b t : State}

theorem refl (a : State) : onlyMule a a := rfl

theorem trans (h : onlyMule a b) (k : onlyMule b t) : onlyMule a t := by
  unfold onlyMule at h k ⊢
  rw [← k] at h
  exact h

theorem setMule (s : State) (m : MuleState) : onlyMule s (setMule s m) := rfl
theorem resumeParked (s : State) : onlyMule s (resumeParked s) := rfl

theorem frame (h : onlyMule a t) : t.tick = a.tick ∧ t.pending = a.pending ∧ t.mem = a.mem ∧
    t.tables.index = a.tables.index ∧ t.tables.shorts = a.tables.shorts ∧ t.tables.trie = a.tables.trie := by
  have clock := congrArg State.tick h
  have queue := congrArg State.pending h
  have mem := congrArg State.mem h
  have index := congrArg (·.tables.index) h
  have shorts := congrArg (·.tables.shorts) h
  have trie := congrArg (·.tables.trie) h
  exact ⟨clock, queue, mem, index, shorts, trie⟩

theorem slotAt_eq (h : onlyMule a t) (b i : Nat) : slotAt t b i = slotAt a b i := by
  obtain ⟨-, -, -, index, -, -⟩ := h.frame
  rw [slotAt, slotAt, index]

end onlyMule

section End
variable (s : State) (cause desc : Nat)

theorem muleEnd_eq : muleEnd s cause desc =
    (((((s.setTables (endedTables s cause desc)).setFlag Reg.FWD_MULE_STATUS.BUSY false).setFlag Reg.FWD_MULE_STATUS.DONE true).onlyIf
      (decide (cause ≠ 0)) fun s => s.set Reg.FWD_MULE_STATUS.FAIL (b2n true)).set Reg.FWD_MULE_STATUS.CAUSE cause).set
        Reg.FWD_MULE_STATUS.DESC desc := rfl

theorem muleEnd_onlyRegs : onlyRegs (s.setTables (endedTables s cause desc)) (muleEnd s cause desc) listEndFields := by
  rw [muleEnd_eq]
  have busy := State.set_onlyRegs (s.setTables (endedTables s cause desc))
    (show Reg.FWD_MULE_STATUS.BUSY ∈ listEndFields by decide) (b2n false)
  have done := onlyRegs_trans busy (State.set_onlyRegs _ (show Reg.FWD_MULE_STATUS.DONE ∈ listEndFields by decide) (b2n true))
  have fail := onlyRegs_trans done (State.onlyIf_set_onlyRegs _ (decide (cause ≠ 0))
    (show Reg.FWD_MULE_STATUS.FAIL ∈ listEndFields by decide) (b2n true))
  have shown := onlyRegs_trans fail (State.set_onlyRegs _ (show Reg.FWD_MULE_STATUS.CAUSE ∈ listEndFields by decide) cause)
  exact onlyRegs_trans shown (State.set_onlyRegs _ (show Reg.FWD_MULE_STATUS.DESC ∈ listEndFields by decide) desc)

theorem muleEnd_tables : (muleEnd s cause desc).tables = endedTables s cause desc := by
  have tables := congrArg State.tables (muleEnd_onlyRegs s cause desc).1
  exact tables

theorem muleEnd_onlyMule : onlyMule s (muleEnd s cause desc) := by
  have tables := muleEnd_tables s cause desc
  have rest := (muleEnd_onlyRegs s cause desc).1
  generalize muleEnd s cause desc = t at tables rest
  have only := congrArg (fun u : State => u.setTables s.tables) rest
  unfold onlyMule
  rw [tables]
  exact only

/-- What the status register shows after the end of a list. -/
theorem muleEnd_status (fits : cause < 256) : (muleEnd s cause desc).flag Reg.FWD_MULE_STATUS.BUSY = false ∧
    (muleEnd s cause desc).get Reg.FWD_MULE_STATUS.CAUSE = cause ∧
      (cause ≠ 0 → (muleEnd s cause desc).flag Reg.FWD_MULE_STATUS.FAIL = true) := by
  rw [muleEnd_eq]
  refine ⟨?_, ?_, fun bad => ?_⟩
  · rw [State.flag_set_other _ _ _ _ (by decide), State.flag_set_other _ _ _ _ (by decide), State.flag,
      State.get_onlyIf_set_other _ _ _ (by decide)]
    exact (State.flag_setFlag_other _ _ _ _ (by decide)).trans (State.flag_setFlag_self ..)
  · rw [State.get_set_other _ _ _ _ (by decide)]
    exact State.get_set_of_lt _ _ fits
  · rw [State.flag_set_other _ _ _ _ (by decide), State.flag_set_other _ _ _ _ (by decide), decide_eq_true bad, State.onlyIf_true]
    exact State.flag_setFlag_self ..

end End

/-! The next descriptor (R334, R342). -/

theorem muleSettle_onlyMule (s : State) : onlyMule s (muleSettle s) := by
  unfold muleSettle
  split
  next => exact .refl s
  next => exact muleEnd_onlyMule ..
  next =>
    split
    next => exact .refl s
    next => exact muleEnd_onlyMule ..

/-- A descriptor with a known OP waits for its turn. -/
theorem muleSettle_of_known {s : State} {w : List Nat} {rest : List MuleDesc} (buffer : s.tables.mule.buffer = .words w :: rest)
    (known : knownOp (descOp (.words w)) = true) : muleSettle s = s := by
  simp [muleSettle, buffer, known]

theorem muleNext_onlyMule (s : State) (d : MuleDesc) : onlyMule s (muleNext s d) := by
  unfold muleNext
  dsimp only
  split
  · exact muleEnd_onlyMule ..
  · exact (onlyMule.setMule s _).trans (muleSettle_onlyMule _)

/-! A command that runs a descriptor. -/

theorem lockExpire_of_holds {s : State} {dt : Nat} (holds : lockHolds s dt) : lockExpire (s.advance dt) = s.advance dt := by
  unfold lockExpire
  dsimp only
  split
  next => rfl
  next held =>
    obtain free | stands := holds
    · exact absurd (free.symm.trans held) nofun
    · rw [show (s.advance dt).elapsedNs (s.advance dt).tables.mule.lockTick 2000 = false from stands, State.onlyIf_false]

/-- A descriptor that is run while the locks hold completes with its effect on the state `x`, at whose end the Mule goes on. -/
theorem completes_of_descriptor {i : Instr} {s x r : State} {dt op : Nat} {d : MuleDesc} {k : State → MuleDesc → State}
    {post : State → Prop} (h : exec i s = muleRun dt op s k) (holds : lockHolds s dt) (head : muleHead s op = some d)
    (effect : k (s.advance dt) d = r) (ends : onlyMule x r) (clock : x.tick = s.tick + dt) (queue : x.pending = s.pending)
    (hp : post r) : completes i s post := by
  have turn : muleHead (s.advance dt) op = some d := head
  obtain ⟨clock', queue', -⟩ := ends.frame
  refine completes_of_effect h ?_ (clock'.trans clock) (queue'.trans queue) hp
  dsimp only
  rw [lockExpire_of_holds holds, turn]
  exact effect

/-! Lists (R334, R340, R342). -/

section List
variable {s : State} {dt : Nat}

theorem muleGo_starts {v : Word} (go : v.getLsbD 63 = true) (idle : s.flag Reg.FWD_MULE_STATUS.BUSY = false) :
    completes (.muleGo dt v) s fun t => t.flag Reg.FWD_MULE_STATUS.BUSY = true ∧
      t.tables.mule = { list := s.get Reg.FWD_MULE_LIST.ADDR * 64 } ∧
        onlyRegsAnswered (s.advance dt) { t with tables := s.tables } [Reg.FWD_MULE_STATUS.BUSY] := by
  have idleA : (s.advance dt).flag Reg.FWD_MULE_STATUS.BUSY = false := idle
  have effect : writeMuleCtrl (s.advance dt) v.toNat = setMule ((s.advance dt).setFlag Reg.FWD_MULE_STATUS.BUSY true)
      { list := s.get Reg.FWD_MULE_LIST.ADDR * 64 } := by
    rw [writeMuleCtrl, bit_toNat, go, idleA]
    rfl
  have busy := State.flag_setFlag_self (s.advance dt) Reg.FWD_MULE_STATUS.BUSY true
  have only := onlyRegsAnswered_of_onlyRegs (State.set_onlyRegs (s.advance dt)
    (List.mem_singleton_self Reg.FWD_MULE_STATUS.BUSY) (b2n true)) 0
  exact completes_of_write (k := fun s => writeMuleCtrl s v.toNat) (by unfold exec execMuleGo; rfl) effect rfl rfl
    ⟨busy, rfl, only⟩

/-- Without an uncorrectable word, none of the descriptors fetched fails with MEM_ERR. -/
theorem fetchDescs_no_memErr (s : State) (addr n i : Nat) : .bad 0x07 ∉ fetchDescs s addr [] n i := by
  induction n generalizing addr i with
  | zero => exact List.not_mem_nil
  | succ n ih =>
    unfold fetchDescs
    dsimp only
    split_ifs <;> simp_all

/-- A descriptor in the usable window is fetched as its eight words. -/
theorem fetchDescs_usable {addr : Nat} (usable : s.inLp4x addr 64 = true) (n i : Nat) : ∃ rest, fetchDescs s addr [] (n + 1) i =
    .words ((List.range 8).map fun k => s.ddrLE (addr + 8 * k) 8) :: rest := by
  unfold fetchDescs
  rw [usable, if_neg (by decide), if_neg (by simp)]
  dsimp only
  split
  · exact ⟨_, rfl⟩
  · exact ⟨_, rfl⟩

/-- The block whose fetch is to come next. -/
def nextBlock (s : State) : List MuleDesc := fetchDescs s (s.tables.mule.list + 64 * s.tables.mule.fetched) [] 8 0

/-- The Mule with the next block in its buffer. -/
def withBlock (s : State) : State :=
  setMule s { s.tables.mule with fetched := s.tables.mule.fetched + (nextBlock s).length, buffer := nextBlock s }

theorem muleFetchBlock_completes {post : State → Prop} (busy : s.flag Reg.FWD_MULE_STATUS.BUSY = true)
    (empty : s.tables.mule.buffer = []) (hp : post (muleSettle (withBlock (s.advance dt)))) :
    completes (.muleFetchBlock dt []) s post := by
  have busyA : (s.advance dt).flag Reg.FWD_MULE_STATUS.BUSY = true := busy
  have emptyA : (s.advance dt).tables.mule.buffer = [] := empty
  obtain ⟨clock, queue, -⟩ := (muleSettle_onlyMule (withBlock (s.advance dt))).frame
  have clean : decide ((nextBlock (s.advance dt)).getLast? = some (.bad 0x07)) = false :=
    decide_eq_false fun last => fetchDescs_no_memErr _ _ _ _ (List.mem_of_getLast? last)
  refine completes_of_whenever (by unfold exec execMuleFetchBlock; rfl) ?_ ?_ clock queue hp
  · simp only [busyA, emptyA, listFetched]
    rfl
  · simp only [emptyA, List.length_nil, List.nil_append, Nat.sub_zero]
    change muleSettle (setMule ((s.advance dt).onlyIf (decide ((nextBlock (s.advance dt)).getLast? = some (.bad 0x07))) _) _) = _
    rw [clean, State.onlyIf_false]
    rfl

theorem muleFetchBlock_fetches {d : MuleDesc} (busy : s.flag Reg.FWD_MULE_STATUS.BUSY = true) (empty : s.tables.mule.buffer = [])
    (usable : s.inLp4x (s.tables.mule.list + 64 * s.tables.mule.fetched) 64 = true)
    (first : d = .words ((List.range 8).map fun k => s.ddrLE (s.tables.mule.list + 64 * s.tables.mule.fetched + 8 * k) 8))
    (known : knownOp (descOp d) = true) : completes (.muleFetchBlock dt []) s fun t =>
      t.tables.mule.buffer.head? = some d ∧ t.tables.mule.pos = s.tables.mule.pos ∧ t.mem = s.mem ∧
        t.flag Reg.FWD_MULE_STATUS.BUSY = true := by
  subst first
  obtain ⟨rest, block⟩ := fetchDescs_usable (s := s.advance dt) usable 7 0
  have waits : muleSettle (withBlock (s.advance dt)) = withBlock (s.advance dt) := muleSettle_of_known block known
  refine muleFetchBlock_completes busy empty ?_
  rw [waits]
  exact ⟨congrArg List.head? block, rfl, rfl, busy⟩

theorem muleFetchBlock_fails (busy : s.flag Reg.FWD_MULE_STATUS.BUSY = true) (empty : s.tables.mule.buffer = [])
    (outside : s.inLp4x (s.tables.mule.list + 64 * s.tables.mule.fetched) 64 = false) :
    completes (.muleFetchBlock dt []) s fun t => t.flag Reg.FWD_MULE_STATUS.BUSY = false ∧
      t.get Reg.FWD_MULE_STATUS.CAUSE = 0x09 ∧ t.flag Reg.FWD_MULE_STATUS.FAIL = true ∧ t.tables.mule = {} := by
  have block : nextBlock (s.advance dt) = [.bad 0x09] := by
    have outsideA : (s.advance dt).inLp4x (s.tables.mule.list + 64 * s.tables.mule.fetched) 64 = false := outside
    unfold nextBlock fetchDescs
    rw [show (s.advance dt).tables = s.tables from rfl, outsideA]
    rfl
  have ends : muleSettle (withBlock (s.advance dt)) = muleEnd (withBlock (s.advance dt)) 0x09 s.tables.mule.pos := by
    unfold muleSettle
    rw [show (withBlock (s.advance dt)).tables.mule.buffer = [.bad 0x09] from block]
    rfl
  refine muleFetchBlock_completes busy empty ?_
  rw [ends]
  obtain ⟨idle, cause, fail⟩ := muleEnd_status (withBlock (s.advance dt)) 0x09 s.tables.mule.pos (by decide)
  exact ⟨idle, cause, fail (by decide), congrArg (·.mule) (muleEnd_tables ..)⟩

theorem fwdMuleDonePop_pops {w : Nat} {rest : List Nat} (head : s.tables.muleDone = w :: rest) :
    completes (.fwdMuleDonePop dt .ok) s fun t => t.bus.data = w ∧ t.tables.muleDone = rest ∧
      onlyRegsAnswered (s.advance dt) { t with tables := s.tables } [] := by
  have headA : (s.advance dt).tables.muleDone = w :: rest := head
  have effect : muleDonePop (s.advance dt) .ok = ((s.advance dt).setTables { s.tables with muleDone := rest }).answer w := by
    unfold muleDonePop
    rw [headA]
    rfl
  exact completes_of_effect (k := fun s => muleDonePop s .ok) (by unfold exec execFwdMuleDonePop; rfl) effect rfl rfl
    ⟨rfl, rfl, rfl, rfl, fun _ _ => rfl⟩

end List

/-! The locks break (R340, R341). -/

section Locks
variable {s : State}

theorem fixSlot_onlySlots (r : State × Nat) (b i : Nat) : onlySlots r.1 (fixSlot r b i).1 :=
  (onlySlots.dropKey r.1 _).trans (.setSlot _ b i {})

theorem revalidateSlot_onlySlots (r : State × Nat) (b i : Nat) : onlySlots r.1 (revalidateSlot r b i).1 := by
  unfold revalidateSlot
  dsimp only
  split
  · exact .refl _
  · split
    · exact fixSlot_onlySlots ..
    · split
      · exact .refl _
      · split <;> exact fixSlot_onlySlots ..

theorem revalidate_onlySlots (r : State × Nat) (b : Nat) : onlySlots r.1 (revalidate r b).1 :=
  List.foldlRecOn (motive := fun t : State × Nat => onlySlots r.1 t.1) _ _ (.refl r.1) fun t ht i _ =>
    ht.trans (revalidateSlot_onlySlots t b i)

/-- The locks of `x` and `y` are gone and both buckets have been re-validated; also how many slots were cleared. -/
def locksBroken (s : State) (x y : Nat) : State × Nat :=
  let r := revalidate (setMule s { s.tables.mule with locks := none }, 0) x
  if x = y then r else revalidate r y

theorem locksBroken_onlySlots (x y : Nat) :
    onlySlots (setMule s { s.tables.mule with locks := none }) (locksBroken s x y).1 := by
  have first := revalidate_onlySlots (setMule s { s.tables.mule with locks := none }, 0) x
  unfold locksBroken
  dsimp only
  split
  · exact first
  · exact first.trans (revalidate_onlySlots ..)

/-- What MULE_LOCK_BROKEN reports. -/
def lockBrokenArg (s : State) (x y fixes : Nat) : Nat :=
  at' x 17 31 + at' y 17 14 + at' (s.tables.mule.pos - s.tables.mule.groupAt) 5 9 + at' fixes 4 5

theorem lockExpire_of_expired {x y : Nat} (held : s.tables.mule.locks = some (x, y))
    (expired : s.elapsedNs s.tables.mule.lockTick 2000 = true) :
    lockExpire s = muleEnd ((locksBroken s x y).1.event Ev.MULE_LOCK_BROKEN Block.FWD
      (lockBrokenArg s x y (locksBroken s x y).2)) 0x06 s.tables.mule.pos := by
  unfold lockExpire
  dsimp only
  rw [held, expired]
  rfl

/-- The break of the locks, up to the end of the list: the locks are gone, and parked lookups still wait. -/
theorem locksBroken_event_frame (x y arg : Nat) :
    let t := (locksBroken s x y).1.event Ev.MULE_LOCK_BROKEN Block.FWD arg
    t.tick = s.tick ∧ t.pending = s.pending ∧ t.tables.parking = s.tables.parking ∧ t.tables.resumed = s.tables.resumed ∧
      t.counters = (s.count Ev.MULE_LOCK_BROKEN).counters := by
  dsimp only
  obtain ⟨clock, queue, -, counters, tables⟩ := (locksBroken_onlySlots (s := s) x y).frame
  generalize (locksBroken s x y).1 = b at clock queue counters tables
  have rest := State.event_frame b Ev.MULE_LOCK_BROKEN Block.FWD arg
  have counted := State.event_counters b Ev.MULE_LOCK_BROKEN Block.FWD arg
  generalize b.event Ev.MULE_LOCK_BROKEN Block.FWD arg = t at rest counted
  have clock' := congrArg State.tick rest
  have queue' := congrArg State.pending rest
  have tables' := congrArg State.tables rest
  change t.tables = b.tables at tables'
  have parking := congrArg TableState.parking tables
  have resumed := congrArg TableState.resumed tables
  rw [tables']
  refine ⟨clock'.trans clock, queue'.trans queue, parking, resumed, counted.trans ?_⟩
  simp only [State.count, counters]
  rfl

theorem muleLockMax_breaks {dt : Nat} (held : s.tables.mule.locks.isSome = true)
    (expired : (s.advance dt).elapsedNs s.tables.mule.lockTick 2000 = true) : completes (.muleLockMax dt) s fun t =>
      t.tables.mule.locks = none ∧ t.flag Reg.FWD_MULE_STATUS.BUSY = false ∧ t.get Reg.FWD_MULE_STATUS.CAUSE = 0x06 ∧
        countedOnce s t Ev.MULE_LOCK_BROKEN ∧ t.tables.parking = [] ∧
          t.tables.resumed = s.tables.resumed ++ s.tables.parking := by
  obtain ⟨⟨x, y⟩, pair⟩ := Option.isSome_iff_exists.1 held
  have effect := lockExpire_of_expired (s := s.advance dt) pair expired
  obtain ⟨clock, queue, parking, resumed, counted⟩ := locksBroken_event_frame (s := s.advance dt) x y
    (lockBrokenArg (s.advance dt) x y (locksBroken (s.advance dt) x y).2)
  generalize (locksBroken (s.advance dt) x y).1.event _ _ _ = p at effect clock queue parking resumed counted
  have only := muleEnd_onlyMule p 0x06 (s.advance dt).tables.mule.pos
  have tables := muleEnd_tables p 0x06 (s.advance dt).tables.mule.pos
  obtain ⟨idle, cause, -⟩ := muleEnd_status p 0x06 (s.advance dt).tables.mule.pos (by decide)
  generalize muleEnd p _ _ = t at effect only tables idle cause
  obtain ⟨clock', queue', -⟩ := only.frame
  have counters := congrArg State.counters only
  refine completes_of_effect (k := lockExpire) (by unfold exec execMuleLockMax; rfl) effect (clock'.trans clock) (queue'.trans queue)
    ⟨?_, idle, cause, congrArg (Cells.get · Ev.MULE_LOCK_BROKEN 0) (counters.trans counted), ?_, ?_⟩
  · rw [tables]
    rfl
  · rw [tables]
    rfl
  · rw [tables]
    exact congrArg₂ (· ++ ·) resumed parking

end Locks

end Sys2Proof.Machine
end

section
/-!
SUPPORT. The Mule's descriptors of buckets and locks (R334, R336, R339). Then the statement of 09_node_tables_and_learning.md about
lists and buckets.
-/

namespace Sys2Proof.Machine

/-! READ_BUCKET (R334, R335). -/

/-- A part of the octets that were just written. -/
theorem readBytes_writeBytes_part (m : List Host.Cell) (d : Byte) (a : Nat) {bs : List Byte} {i n : Nat} (fits : i + n ≤ bs.length) :
    readBytes (writeBytes m d a bs) d (a + i) n = (bs.drop i).take n := by
  have length : ((bs.drop i).take n).length = n := by
    rw [List.length_take, List.length_drop]
    omega
  have part := readBytes_eq_of_get (m := writeBytes m d a bs) (d := d) (a := a + i) (bs := (bs.drop i).take n) fun j lt => by
    rw [Nat.add_assoc, get_writeBytes_self _ _ _ _ _ (by omega), List.getElem_take, List.getElem_drop]
  rwa [length] at part

theorem ddrWrite_lp4x (s : State) (a : Nat) (bs : List Byte) : (s.ddrWrite a bs).mem.lp4x = writeBytes s.mem.lp4x 0 a bs := rfl

/-- A bucket as READ_BUCKET writes it: four slots of twelve octets, and sixteen octets of zero. -/
def bucketImage (s : State) (b : Nat) : List Byte :=
  ((List.range 4).flatMap fun i => leBytes 8 (slotAt s b i).eui ++
    leBytes 4 (at' (slotAt s b i).record 18 14 + at' (b2n (slotAt s b i).valid) 1 13 + at' (b2n (slotAt s b i).hit) 1 12
      + at' (b2n (slotAt s b i).aged) 1 11)) ++ List.replicate 16 0

theorem bucketImage_length (s : State) (b : Nat) : (bucketImage s b).length = 64 := rfl

theorem bucketImage_eui (s : State) (b : Nat) (k : Fin 4) :
    ((bucketImage s b).drop (12 * k)).take 8 = leBytes 8 (slotAt s b k).eui := by
  fin_cases k <;> rfl

section Buckets
variable {s : State} {dt : Nat} {d : MuleDesc} (holds : lockHolds s dt)
include holds

theorem readBucket_copies (head : muleHead s 0x01 = some d) (usable : s.inLp4x (descAddr d) 64 = true) :
    completes (.readBucket dt) s fun t =>
      (∀ k : Fin 4, t.ddrLE (descAddr d + 12 * k) 8 = (slotAt s (descBucket d 0) k).eui % 2 ^ 64) ∧
        (∀ x, x < descAddr d ∨ descAddr d + 64 ≤ x → Cells.get t.mem.lp4x x 0 = Cells.get s.mem.lp4x x 0) ∧
        t.tables.index = s.tables.index := by
  have only := muleNext_onlyMule ((s.advance dt).ddrWrite (descAddr d) (bucketImage s (descBucket d 0))) d
  obtain ⟨-, -, kept, index, -, -⟩ := only.frame
  have mem := (congrArg Memories.lp4x kept).trans (ddrWrite_lp4x ..)
  refine completes_of_descriptor (by unfold exec execReadBucket; rfl) holds head ?_ only rfl rfl
    ⟨fun k => ?_, fun x out => ?_, index⟩
  · dsimp only
    rw [show (s.advance dt).inLp4x (descAddr d) 64 = true from usable, if_neg (by decide)]
    rfl
  · rw [State.ddrLE, State.ddr, mem, readBytes_writeBytes_part _ _ _ (by rw [bucketImage_length]; omega), bucketImage_eui,
      leNat_leBytes]
  · rw [mem, get_writeBytes_other _ _ _ _ _ (by rwa [bucketImage_length])]
    rfl

end Buckets

/-! WRITE_BUCKET (R339). -/

/-- A slot shows an image, but perhaps for HIT and AGED. -/
def showsImage (v new : Slot) : Prop := v.eui = new.eui ∧ v.valid = new.valid ∧ v.record = new.record

theorem slotAt_writeSlot_self (s : State) (b i : Nat) (new : Slot) : showsImage (slotAt (writeSlot s b i new) b i) new := by
  unfold writeSlot
  dsimp only
  rw [slotAt_setSlot_self]
  split
  · exact ⟨rfl, rfl, rfl⟩
  · exact ⟨rfl, rfl, rfl⟩

theorem writeSlot_onlySlots (s : State) (b i : Nat) (new : Slot) : onlySlots s (writeSlot s b i new) :=
  (onlySlots.onlyIf s _ (.dropKey s _)).trans (.setSlot _ b i _)

theorem slotAt_writeSlot_other (s : State) (b : Nat) {i k : Nat} (new : Slot) (other : k ≠ i) :
    slotAt (writeSlot s b i new) b k = slotAt s b k := by
  unfold writeSlot
  dsimp only
  rw [slotAt_setSlot_other _ _ (by omega)]
  exact State.onlyIf_keeps (P := fun t => slotAt t b k = slotAt s b k) _ _ _ rfl fun _ => rfl

/-- Write the listed slots of a bucket with their images. -/
def writeSlots (s : State) (b : Nat) (image : Nat → Slot) (l : List Nat) : State := l.foldl (fun s i => writeSlot s b i (image i)) s

theorem writeSlots_onlySlots (s : State) (b : Nat) (image : Nat → Slot) (l : List Nat) : onlySlots s (writeSlots s b image l) :=
  onlySlots.foldl (fun s i => writeSlot_onlySlots s b i (image i)) l s

theorem slotAt_writeSlots (s : State) (b : Nat) (image : Nat → Slot) (l : List Nat) (k : Nat) :
    (k ∈ l → showsImage (slotAt (writeSlots s b image l) b k) (image k)) ∧
      (k ∉ l → slotAt (writeSlots s b image l) b k = slotAt s b k) := by
  induction l using List.reverseRecOn with
  | nil => exact ⟨fun h => absurd h List.not_mem_nil, fun _ => rfl⟩
  | append_singleton l i ih =>
    obtain ⟨written, kept⟩ := ih
    have last : writeSlots s b image (l ++ [i]) = writeSlot (writeSlots s b image l) b i (image i) := List.foldl_append ..
    rw [last, List.mem_append, List.mem_singleton]
    by_cases here : k = i
    · subst here
      exact ⟨fun _ => slotAt_writeSlot_self .., fun out => absurd (.inr rfl) out⟩
    · rw [slotAt_writeSlot_other _ _ _ here]
      exact ⟨fun h => written (h.resolve_right here), fun out => kept fun h => out (.inl h)⟩

/-- The slots that a WRITE_BUCKET selects. -/
def chosenSlots (d : MuleDesc) : List Nat := (List.range 4).filter fun i => bit (descWord d 0) (20 + i)

theorem mem_chosenSlots {d : MuleDesc} (k : Fin 4) : k.val ∈ chosenSlots d ↔ bit (descWord d 0) (20 + k) = true := by
  simp [chosenSlots, k.isLt]

section Write
variable {s : State} {dt : Nat} {d : MuleDesc} (holds : lockHolds s dt)
include holds

theorem writeBucket_writes (head : muleHead s 0x02 = some d) (locked : groupHolds s (descBucket d 0) = true)
    (any : bit (descWord d 0) 24 = false) : completes (.writeBucket dt) s fun t => t.mem = s.mem ∧ ∀ k : Fin 4,
      if bit (descWord d 0) (20 + k) then showsImage (slotAt t (descBucket d 0) k) (imageSlot d k)
      else slotAt t (descBucket d 0) k = slotAt s (descBucket d 0) k := by
  have only := muleNext_onlyMule (writeSlots (s.advance dt) (descBucket d 0) (imageSlot d) (chosenSlots d)) d
  obtain ⟨clock, queue, mem, -, -⟩ := (writeSlots_onlySlots (s.advance dt) (descBucket d 0) (imageSlot d) (chosenSlots d)).frame
  obtain ⟨-, -, mem', -⟩ := only.frame
  refine completes_of_descriptor (by unfold exec execWriteBucket; rfl) holds head ?_ only clock queue ⟨mem'.trans mem, fun k => ?_⟩
  · dsimp only
    rw [show groupHolds (s.advance dt) (descBucket d 0) = true from locked, any]
    rfl
  · obtain ⟨written, kept⟩ := slotAt_writeSlots (s.advance dt) (descBucket d 0) (imageSlot d) (chosenSlots d) k
    rw [only.slotAt_eq]
    split
    next chosen => exact written ((mem_chosenSlots k).2 chosen)
    next left => exact kept fun h => left ((mem_chosenSlots k).1 h)

theorem writeBucket_refuses (head : muleHead s 0x02 = some d) (free : groupHolds s (descBucket d 0) = false) :
    completes (.writeBucket dt) s fun t => t.tables.index = s.tables.index ∧ t.get Reg.FWD_MULE_STATUS.CAUSE = 0x03 := by
  have only := muleEnd_onlyMule (s.advance dt) 0x03 s.tables.mule.pos
  obtain ⟨-, cause, -⟩ := muleEnd_status (s.advance dt) 0x03 s.tables.mule.pos (by decide)
  obtain ⟨-, -, -, index, -, -⟩ := only.frame
  refine completes_of_descriptor (by unfold exec execWriteBucket; rfl) holds head ?_ only rfl rfl ⟨index, cause⟩
  dsimp only
  rw [show groupHolds (s.advance dt) (descBucket d 0) = false from free]
  rfl

end Write

/-! LOCK_PAIR and UNLOCK (R336, R337). -/

/-- A group that is good goes on with a descriptor that was fetched and has a known OP. -/
theorem checkGroup_good {x y i : Nat} {l : List MuleDesc} (good : checkGroup x y i l = .good) :
    ∃ w rest, l = .words w :: rest ∧ knownOp (descOp (.words w)) = true := by
  match l with
  | [] =>
    unfold checkGroup at good
    split at good <;> cases good
  | .bad c :: rest =>
    unfold checkGroup at good
    split at good <;> cases good
  | .words w :: rest =>
    refine ⟨w, rest, rfl, ?_⟩
    refine decide_eq_true ?_
    by_contra unknown
    unfold checkGroup at good
    dsimp only at good
    rw [if_neg (by omega : ¬ descOp (.words w) = 0x05), if_neg (by omega : ¬ descOp (.words w) = 0x02),
      if_neg (by omega : ¬ descOp (.words w) = 0x04),
      if_neg (by omega : ¬ (descOp (.words w) = 0x01 ∨ descOp (.words w) = 0x07))] at good
    split at good <;> cases good

/-- `t` holds no locks, and the lookups that wait in `a` wait in `t` or have resumed. -/
def locksFreed (a t : State) : Prop :=
  t.tables.mule.locks = none ∧ t.tables.resumed ++ t.tables.parking = a.tables.resumed ++ a.tables.parking

theorem muleEnd_locksFreed (s : State) (cause desc : Nat) : locksFreed s (muleEnd s cause desc) := by
  rw [locksFreed, muleEnd_tables]
  exact ⟨rfl, List.append_nil _⟩

theorem muleSettle_locksFreed {s : State} (free : s.tables.mule.locks = none) : locksFreed s (muleSettle s) := by
  unfold muleSettle
  split
  next => exact ⟨free, rfl⟩
  next => exact muleEnd_locksFreed ..
  next =>
    split
    next => exact ⟨free, rfl⟩
    next => exact muleEnd_locksFreed ..

theorem muleNext_locksFreed {s : State} (free : s.tables.mule.locks = none) (d : MuleDesc) : locksFreed s (muleNext s d) := by
  unfold muleNext
  dsimp only
  split
  · exact muleEnd_locksFreed ..
  · exact muleSettle_locksFreed (s := setMule s _) free

section Locking
variable {s : State} {dt : Nat} {d : MuleDesc} (holds : lockHolds s dt)
include holds

theorem lockPair_locks (head : muleHead s 0x03 = some d) (more : descLast d = false)
    (good : checkGroup (descBucket d 0) (descBucket d 1) 1 (s.tables.mule.buffer.drop 1) = .good) :
    completes (.lockPair dt) s fun t => t.tables.mule.locks = some (descBucket d 0, descBucket d 1) ∧
      t.tables.mule.lockTick = s.tick + dt ∧ t.tables.index = s.tables.index ∧ t.tables.mule.pos = s.tables.mule.pos + 1 := by
  obtain ⟨w, rest, group, known⟩ := checkGroup_good good
  have goodA : checkGroup (descBucket d 0) (descBucket d 1) 1 ((s.advance dt).tables.mule.buffer.drop 1) = .good := good
  refine completes_of_descriptor (x := s.advance dt) (r := setMule (s.advance dt) { s.tables.mule with
      locks := some (descBucket d 0, descBucket d 1), groupAt := s.tables.mule.pos, lockTick := s.tick + dt
      buffer := s.tables.mule.buffer.drop 1, pos := s.tables.mule.pos + 1 })
    (by unfold exec execLockPair; rfl) holds head ?_ (.setMule ..) rfl rfl ⟨rfl, rfl, rfl, rfl⟩
  dsimp only
  rw [more, goodA, if_neg Bool.false_ne_true]
  unfold muleNext
  dsimp only
  rw [more, if_neg Bool.false_ne_true]
  exact muleSettle_of_known group known

theorem unlock_frees (head : muleHead s 0x05 = some d) (held : s.tables.mule.locks.isSome = true) :
    completes (.unlock dt) s fun t => t.tables.mule.locks = none ∧ t.tables.parking = [] ∧
      t.tables.resumed = s.tables.resumed ++ s.tables.parking ∧ t.tables.index = s.tables.index := by
  obtain ⟨pair, locks⟩ := Option.isSome_iff_exists.1 held
  obtain ⟨free, waited⟩ := muleNext_locksFreed (s := setMule (s.advance dt) { s.tables.mule with locks := none }) rfl d
  have only := (onlyMule.setMule (s.advance dt) { s.tables.mule with locks := none }).trans
    ((muleNext_onlyMule _ d).trans (.resumeParked _))
  obtain ⟨-, -, -, index, -, -⟩ := only.frame
  refine completes_of_descriptor (by unfold exec execUnlock; rfl) holds head ?_ only rfl rfl ⟨free, rfl, waited, index⟩
  dsimp only
  rw [show (s.advance dt).tables = s.tables from rfl, locks]

/-! RELOCATE (R339). -/

theorem relocate_moves {b c i j : Nat} (head : muleHead s 0x04 = some d) (source : b = descBucket d 0) (target : c = descBucket d 1)
    (slotFrom : i = bits (descWord d 0) 19 18) (slotTo : j = bits (descWord d 1) 19 18) (lockedB : groupHolds s b = true)
    (lockedC : groupHolds s c = true) (full : (slotAt s b i).valid = true) (empty : (slotAt s c j).valid = false)
    (ways : b / 65536 ≠ c / 65536) (own : ownBucket s (c / 65536) (slotAt s b i).eui = c) :
    completes (.relocate dt) s fun t => slotAt t c j = slotAt s b i ∧ slotAt t b i = {} ∧ t.mem = s.mem := by
  have apart : 4 * c + j ≠ 4 * b + i := by
    have : i < 4 := slotFrom ▸ Nat.mod_lt _ (by decide)
    have : j < 4 := slotTo ▸ Nat.mod_lt _ (by decide)
    omega
  have only := muleNext_onlyMule (setSlot (setSlot (s.advance dt) c j (slotAt s b i)) b i {}) d
  obtain ⟨-, -, mem, -⟩ := only.frame
  refine completes_of_descriptor (by unfold exec execRelocate; rfl) holds head ?_ only rfl rfl ⟨?_, ?_, mem⟩
  · have lockedB : groupHolds (s.advance dt) b = true := lockedB
    have lockedC : groupHolds (s.advance dt) c = true := lockedC
    have full : (slotAt (s.advance dt) b i).valid = true := full
    have empty : (slotAt (s.advance dt) c j).valid = false := empty
    have moves : decide (b / 65536 ≠ c / 65536 ∧ ownBucket (s.advance dt) (c / 65536) (slotAt (s.advance dt) b i).eui = c) = true :=
      decide_eq_true ⟨ways, own⟩
    dsimp only
    rw [← source, ← target, ← slotFrom, ← slotTo, lockedB, lockedC, full, empty, moves]
    rfl
  · rw [only.slotAt_eq, slotAt_setSlot_other _ _ apart, slotAt_setSlot_self]
  · rw [only.slotAt_eq, slotAt_setSlot_self]

end Locking

/-- Settles O38: a command of a list acts on the Mule alone, and a descriptor on its slots or its stretch of LP4X; whatever ends with it
touches neither. -/
theorem muleListsAndBuckets : Obligations.MuleListsAndBuckets := by
  constructor
  · rintro s _ dt v w rest d addr rfl
    refine ⟨muleGo_starts, ?_, fwdMuleDonePop_pops, muleLockMax_breaks⟩
    rintro busy empty rfl
    exact ⟨muleFetchBlock_fetches busy empty, muleFetchBlock_fails busy empty⟩
  · rintro s dt d b c i j rfl rfl holds
    exact ⟨readBucket_copies holds, writeBucket_writes holds, writeBucket_refuses holds, lockPair_locks holds,
      fun head => relocate_moves holds head rfl rfl, unlock_frees holds⟩

end Sys2Proof.Machine
end

section
/-!
SUPPORT. The Mule's descriptors of short addresses, records and the trie (R320, R325, R360, R361), and test lookups (R378). Then
the statement of 09_node_tables_and_learning.md about them.
-/

namespace Sys2Proof.Machine

/-! Octets of a memory. -/

theorem readBytes_congr {m m' : List Host.Cell} {d : Byte} {a n : Nat}
    (h : ∀ x, a ≤ x → x < a + n → Cells.get m x d = Cells.get m' x d) : readBytes m d a n = readBytes m' d a n := by
  induction n generalizing a with
  | zero => rfl
  | succ n ih =>
    rw [readBytes, readBytes, h a (by omega) (by omega), ih fun x from' below => h x (by omega) (by omega)]

theorem readBytes_length (m : List Host.Cell) (d : Byte) (a n : Nat) : (readBytes m d a n).length = n := by
  induction n generalizing a with
  | zero => rfl
  | succ n ih => rw [readBytes, List.length_cons, ih]

theorem readBytes_getElem {m : List Host.Cell} {d : Byte} {a n i : Nat} (h : i < (readBytes m d a n).length) :
    (readBytes m d a n)[i] = Cells.get m (a + i) d := by
  induction n generalizing a i with
  | zero => exact absurd h (Nat.not_lt_zero i)
  | succ n ih =>
    cases i with
    | zero => rfl
    | succ i =>
      have later := ih (a := a + 1) (i := i) (Nat.lt_of_succ_lt_succ h)
      rwa [Nat.add_right_comm] at later

/-- A part of the octets that are read. -/
theorem readBytes_part (m : List Host.Cell) (d : Byte) (a : Nat) {i n len : Nat} (fits : i + n ≤ len) :
    ((readBytes m d a len).drop i).take n = readBytes m d (a + i) n := by
  have length : (((readBytes m d a len).drop i).take n).length = n := by
    rw [List.length_take, List.length_drop, readBytes_length]
    omega
  have part := readBytes_eq_of_get (m := m) (d := d) (a := a + i) (bs := ((readBytes m d a len).drop i).take n) fun j lt => by
    rw [List.getElem_take, List.getElem_drop, readBytes_getElem, Nat.add_assoc]
  rw [length] at part
  exact part.symm

theorem leNat_lt (bs : List Byte) : leNat bs < 256 ^ bs.length := by
  induction bs with
  | nil => decide
  | cons b bs ih =>
    have octet := b.isLt
    rw [leNat, List.length_cons, pow_succ]
    omega

theorem bits_lt (v hi lo : Nat) : bits v hi lo < 2 ^ (hi - lo + 1) := Nat.mod_lt _ (Nat.two_pow_pos _)

/-! WRITE_SHORT (R320). -/

theorem writeShort_writes {s : State} {dt : Nat} {d : MuleDesc} (holds : lockHolds s dt) (head : muleHead s 0x06 = some d)
    (small : bits (descWord d 0) 15 0 < 0xFFFE) : completes (.writeShort dt) s fun t =>
      Cells.get t.tables.shorts (bits (descWord d 0) 15 0) 0 =
        at' (b2n (bit (descWord d 1) 31)) 1 31 + bits (descWord d 1) 17 0 ∧ t.mem = s.mem := by
  have only := muleNext_onlyMule ((s.advance dt).setTables { s.tables with
    shorts := Cells.set s.tables.shorts (bits (descWord d 0) 15 0)
      (at' (b2n (bit (descWord d 1) 31)) 1 31 + bits (descWord d 1) 17 0) 0 }) d
  obtain ⟨-, -, mem, -, shorts, -⟩ := only.frame
  refine completes_of_descriptor (by unfold exec execWriteShort; rfl) holds head ?_ only rfl rfl ⟨?_, mem⟩
  · dsimp only
    rw [if_neg (Nat.not_le.2 small)]
    rfl
  · rw [shorts]
    exact Cells.get_set_self ..

/-! WRITE_RECORD (R325). -/

/-- The first `n` words of a quarter of a record have been copied, as far as a mask selects them. -/
def copied (s : State) (src dst mask n : Nat) : State :=
  (List.range n).foldl (fun s i => s.onlyIf (bit mask i) fun s => s.ddrWrite (dst + 8 * i) (s.ddr (src + 8 * i) 8)) s

section Copy
variable (s : State) {src dst mask : Nat}

theorem copyWords_eq : copyWords s src dst mask = copied s src dst mask 8 := rfl

theorem copied_succ_of_set {n : Nat} (selected : bit mask n = true) : copied s src dst mask (n + 1) =
    (copied s src dst mask n).ddrWrite (dst + 8 * n) ((copied s src dst mask n).ddr (src + 8 * n) 8) := by
  rw [copied, List.range_succ, List.foldl_append, List.foldl_cons, List.foldl_nil, selected]
  rfl

theorem copied_succ_of_clear {n : Nat} (left : bit mask n = false) : copied s src dst mask (n + 1) = copied s src dst mask n := by
  rw [copied, List.range_succ, List.foldl_append, List.foldl_cons, List.foldl_nil, left]
  rfl

theorem copied_frame (n : Nat) : ∃ m, copied s src dst mask n = { s with mem := m } := by
  induction n with
  | zero => exact ⟨_, rfl⟩
  | succ n ih =>
    obtain ⟨m, here⟩ := ih
    cases selected : bit mask n with
    | true =>
      rw [copied_succ_of_set s selected, here]
      exact ⟨_, rfl⟩
    | false =>
      rw [copied_succ_of_clear s selected, here]
      exact ⟨_, rfl⟩

/-- Copying changes no octet outside the quarter. -/
theorem copied_outside {n x : Nat} (few : n ≤ 8) (out : x < dst ∨ dst + 64 ≤ x) :
    Cells.get (copied s src dst mask n).mem.lp4x x 0 = Cells.get s.mem.lp4x x 0 := by
  induction n with
  | zero => rfl
  | succ n ih =>
    rw [← ih (by omega)]
    cases selected : bit mask n with
    | true =>
      rw [copied_succ_of_set s selected, ddrWrite_lp4x, get_writeBytes_other _ _ _ _ _ ?_]
      rw [State.ddr, readBytes_length]
      omega
    | false => rw [copied_succ_of_clear s selected]

theorem ddr_copied {n k : Nat} (few : n ≤ 8) (word : k < 8) (apart : src + 64 ≤ dst ∨ dst + 64 ≤ src) :
    (copied s src dst mask n).ddr (dst + 8 * k) 8 =
      if k < n ∧ bit mask k = true then s.ddr (src + 8 * k) 8 else s.ddr (dst + 8 * k) 8 := by
  induction n with
  | zero => rw [if_neg (by omega)]; rfl
  | succ n ih =>
    have source : (copied s src dst mask n).ddr (src + 8 * n) 8 = s.ddr (src + 8 * n) 8 :=
      readBytes_congr fun x from' below => copied_outside s (by omega) (by omega)
    have earlier := ih (by omega)
    cases selected : bit mask n with
    | true =>
      rw [copied_succ_of_set s selected, State.ddr, ddrWrite_lp4x, source]
      by_cases here : k = n
      · subst here
        have read := readBytes_writeBytes (copied s src dst mask k).mem.lp4x 0 (s.ddr (src + 8 * k) 8) (dst + 8 * k)
        rw [show (s.ddr (src + 8 * k) 8).length = 8 from readBytes_length ..] at read
        rw [if_pos ⟨k.lt_succ_self, selected⟩, read]
      · rw [readBytes_writeBytes_other _ _ _ (by rw [State.ddr, readBytes_length]; omega)]
        refine earlier.trans (if_congr ?_ rfl rfl)
        rw [Nat.lt_succ_iff_lt_or_eq, or_iff_left here]
    | false =>
      rw [copied_succ_of_clear s selected]
      refine earlier.trans (if_congr ?_ rfl rfl)
      refine and_congr_left fun chosen => ⟨fun lt => by omega, fun lt => ?_⟩
      have : k ≠ n := by
        rintro rfl
        rw [chosen] at selected
        cases selected
      omega

end Copy

/-- A record's key leaves the key cache when its WRAPPED_KEY is no longer what it was (R299). -/
def dropChanged (s : State) (r : Nat) (before : List Byte) : State :=
  s.onlyIf (decide (recWrapped s r ≠ before)) fun s => dropKey s r

theorem dropChanged_onlySlots (s : State) (r : Nat) (before : List Byte) : onlySlots s (dropChanged s r before) :=
  .onlyIf (k := fun s => dropKey s r) s _ (.dropKey s r)

theorem writeRecord_copies {s : State} {dt src dst : Nat} {d : MuleDesc} (holds : lockHolds s dt) (head : muleHead s 0x07 = some d)
    (on : recordsOn s = true) (usable : s.inLp4x (descAddr d) 64 = true) (source : src = descAddr d)
    (target : dst = recordBase s (bits (descWord d 0) 17 0) + 64 * bits (descWord d 0) 21 20)
    (apart : src + 64 ≤ dst ∨ dst + 64 ≤ src) : completes (.writeRecord dt false) s fun t =>
      (∀ k : Fin 8, t.ddr (dst + 8 * k) 8 =
        if bit (bits (descWord d 0) 31 24) k then s.ddr (src + 8 * k) 8 else s.ddr (dst + 8 * k) 8) ∧
      ∀ x, x < dst ∨ dst + 64 ≤ x → Cells.get t.mem.lp4x x 0 = Cells.get s.mem.lp4x x 0 := by
  obtain ⟨m, copy⟩ := copied_frame (s.advance dt) (src := src) (dst := dst) (mask := bits (descWord d 0) 31 24) 8
  have words (k : Fin 8) := ddr_copied (s.advance dt) (mask := bits (descWord d 0) 31 24) (Nat.le_refl 8) k.isLt apart
  have others (x : Nat) := copied_outside (s.advance dt) (src := src) (dst := dst) (mask := bits (descWord d 0) 31 24) (x := x)
    (Nat.le_refl 8)
  have copying := copyWords_eq (s.advance dt) (src := src) (dst := dst) (mask := bits (descWord d 0) 31 24)
  generalize copied (s.advance dt) src dst (bits (descWord d 0) 31 24) 8 = y at copy words others copying
  have dropped := dropChanged_onlySlots y (bits (descWord d 0) 17 0) (recWrapped s (bits (descWord d 0) 17 0))
  have only := muleNext_onlyMule (dropChanged y (bits (descWord d 0) 17 0) (recWrapped s (bits (descWord d 0) 17 0))) d
  obtain ⟨clock, queue, mem, -, -⟩ := dropped.frame
  obtain ⟨-, -, mem', -⟩ := only.frame
  refine completes_of_descriptor (by unfold exec execWriteRecord; rfl) holds head ?_ only (clock.trans (copy ▸ rfl))
    (queue.trans (copy ▸ rfl)) ⟨fun k => ?_, fun x out => ?_⟩
  · have on : recordsOn (s.advance dt) = true := on
    have usable : (s.advance dt).inLp4x (descAddr d) 64 = true := usable
    have target : dst = recordBase (s.advance dt) (bits (descWord d 0) 17 0) + 64 * bits (descWord d 0) 21 20 := target
    dsimp only
    rw [on, usable, if_neg (by decide), if_neg Bool.false_ne_true, ← source, ← target, copying]
    rfl
  · rw [State.ddr, mem', mem]
    refine (words k).trans (if_congr ?_ rfl rfl)
    rw [and_iff_right k.isLt]
  · rw [mem', mem]
    exact others x out

/-! The trie (R352, R360, R361). -/

/-- `t` is `a` but for the trie memories and what went out on the herd: all that a trie descriptor changes. -/
def onlyTrie (a t : State) : Prop :=
  { t with outs := a.outs, perf := a.perf, tables := { t.tables with trie := a.tables.trie } } = a

theorem onlyTrie.trans {a b t : State} (h : onlyTrie a b) (k : onlyTrie b t) : onlyTrie a t := by
  unfold onlyTrie at h k ⊢
  rw [← k] at h
  exact h

section Trie
variable (s : State)

@[simp] theorem trieWord_setTrie_self (i v : Nat) : trieWord (setTrie s i v) i = v % 2 ^ 32 := Cells.get_set_self ..

theorem trieWord_setTrie_other {i x : Nat} (v : Nat) (other : x ≠ i) : trieWord (setTrie s i v) x = trieWord s x :=
  Cells.get_set_other _ _ _ _ other

/-- A word of the trie memories after consecutive words have been written. -/
theorem trieWord_setTrieWords (i : Nat) (vs : List Nat) (x : Nat) : trieWord (setTrieWords s i vs) x =
    if i ≤ x ∧ x < i + vs.length then vs.getD (x - i) 0 % 2 ^ 32 else trieWord s x := by
  induction vs generalizing s i with
  | nil => rw [if_neg (by simp)]; rfl
  | cons v vs ih =>
    rw [setTrieWords, ih, List.length_cons]
    by_cases here : x = i
    · subst here
      rw [if_neg (by omega), if_pos (by omega), trieWord_setTrie_self, Nat.sub_self, List.getD_cons_zero]
    · rw [trieWord_setTrie_other s v here]
      by_cases later : i + 1 ≤ x ∧ x < i + 1 + vs.length
      · rw [if_pos later, if_pos (by omega), show x - i = x - (i + 1) + 1 by omega, List.getD_cons_succ]
      · rw [if_neg later, if_neg (by omega)]

theorem setTrieWords_onlyTrie (i : Nat) (vs : List Nat) : onlyTrie s (setTrieWords s i vs) := by
  induction vs generalizing s i with
  | nil => rfl
  | cons v vs ih => exact onlyTrie.trans (b := setTrie s i v) rfl (ih ..)

theorem replicate'_onlyTrie (w0 w1 : Nat) (image : List Byte) : onlyTrie s (replicate' s w0 w1 image) ∧
    (replicate' s w0 w1 image).tables = s.tables := by
  have sent (a t : State) (port : Nat) (f : HerdFrame) (h : onlyTrie a t ∧ t.tables = a.tables) :
      onlyTrie a (t.emit (.herd port f)) ∧ (t.emit (.herd port f)).tables = a.tables :=
    ⟨h.1.trans rfl, h.2⟩
  refine State.onlyIf_keeps (P := fun t => onlyTrie s t ∧ t.tables = s.tables) s _ _ ⟨rfl, rfl⟩ fun h => ?_
  unfold herdFlood
  dsimp only
  refine State.onlyIf_keeps (P := fun t => onlyTrie s t ∧ t.tables = s.tables) _ _ _ ?_ fun h => sent _ _ _ _ h
  exact State.onlyIf_keeps (P := fun t => onlyTrie s t ∧ t.tables = s.tables) _ _ _ h fun h => sent _ _ _ _ h

end Trie

/-- The descriptor that is next has the OP asked for. -/
theorem descOp_of_muleHead {s : State} {op : Nat} {d : MuleDesc} (head : muleHead s op = some d) : descOp d = op := by
  unfold muleHead at head
  split_ifs at head
  split at head
  next =>
    split_ifs at head with same
    cases head
    exact same
  next => cases head

section TrieCommand
variable {s : State} {dt : Nat} {d : MuleDesc} (holds : lockHolds s dt) (own : s.flag Reg.HERD_CTRL.PREFIX_FROM_MASTER = false)
include holds own

/-- A trie descriptor of a device that takes none from a master completes with the words that it writes. -/
theorem completes_of_trie {i : Instr} {y : State} {op : Nat} {image : List Byte} {k : State → MuleDesc → State} {post : State → Prop}
    (h : exec i s = muleRun dt op s k) (head : muleHead s op = some d)
    (effect : k (s.advance dt) d = runTrie (s.advance dt) d image)
    (writes : applyTrie (s.advance dt) (descWord d 0) (descWord d 1) image = y) (trie : onlyTrie (s.advance dt) y)
    (hp : ∀ t, (∀ x, trieWord t x = trieWord y x) → post t) : completes i s post := by
  obtain ⟨sent, tables⟩ := replicate'_onlyTrie y (descWord d 0) (descWord d 1) image
  have only := muleNext_onlyMule (replicate' y (descWord d 0) (descWord d 1) image) d
  obtain ⟨-, -, -, -, -, words⟩ := only.frame
  have all := trie.trans sent
  have clock := congrArg State.tick all
  have queue := congrArg State.pending all
  refine completes_of_descriptor h holds head (effect.trans ?_) only clock queue (hp _ fun x => ?_)
  · have own : (s.advance dt).flag Reg.HERD_CTRL.PREFIX_FROM_MASTER = false := own
    rw [runTrie, own, writes]
    rfl
  · rw [trieWord, words, tables, trieWord]

theorem trieNode_writes (head : muleHead s 0x10 = some d) (usable : s.inLp4x (descAddr d) 1024 = true)
    (low : 1 ≤ bits (descWord d 0) 50 48) (high : bits (descWord d 0) 50 48 ≤ 6)
    (node : bits (descWord d 0) 7 0 < stageNodes (bits (descWord d 0) 50 48)) : completes (.trieNode dt false) s fun t =>
      ∀ k : Fin 256, trieWord t (stageBase (bits (descWord d 0) 50 48) + 256 * bits (descWord d 0) 7 0 + k) =
        s.ddrLE (descAddr d + 4 * k) 4 := by
  have op : bits (descWord d 0) 63 56 = 0x10 := descOp_of_muleHead head
  have writes : applyTrie (s.advance dt) (descWord d 0) (descWord d 1) (s.ddr (descAddr d) 1024) =
      setTrieWords (s.advance dt) (stageBase (bits (descWord d 0) 50 48) + 256 * bits (descWord d 0) 7 0)
        ((List.range 256).map fun i => field (s.ddr (descAddr d) 1024) (4 * i) 4) := by
    unfold applyTrie applyTrieNode
    dsimp only
    rw [op, if_pos rfl, if_neg (by omega)]
  refine completes_of_trie holds own (by unfold exec execTrieNode; rfl) head ?_ writes (setTrieWords_onlyTrie ..) fun t words k => ?_
  · rw [show (s.advance dt).inLp4x (descAddr d) 1024 = true from usable, if_neg (by decide), if_neg Bool.false_ne_true]
    rfl
  · have word : field (s.ddr (descAddr d) 1024) (4 * k) 4 = s.ddrLE (descAddr d + 4 * k) 4 :=
      congrArg leNat (readBytes_part _ _ _ (by omega))
    have fits : s.ddrLE (descAddr d + 4 * k) 4 < 2 ^ 32 := by
      have octets := leNat_lt (s.ddr (descAddr d + 4 * k) 4)
      rwa [State.ddr, readBytes_length] at octets
    rw [words, trieWord_setTrieWords, if_pos (by simp), Nat.add_sub_cancel_left, List.getD_eq_getElem _ _ (by simp),
      List.getElem_map, List.getElem_range, word, Nat.mod_eq_of_lt fits]

theorem trieEntry_writes (head : muleHead s 0x11 = some d) (stage : bits (descWord d 0) 50 48 = 0) :
    completes (.trieEntry dt) s fun t => trieWord t (bits (descWord d 0) 15 0) = bits (descWord d 1) 31 0 ∧
      ∀ x, x ≠ bits (descWord d 0) 15 0 → trieWord t x = trieWord s x := by
  have op : bits (descWord d 0) 63 56 = 0x11 := descOp_of_muleHead head
  have writes : applyTrie (s.advance dt) (descWord d 0) (descWord d 1) [] =
      setTrie (s.advance dt) (bits (descWord d 0) 15 0) (bits (descWord d 1) 31 0) := by
    unfold applyTrie applyTrieEntry
    dsimp only
    rw [op, if_neg (by decide), if_pos rfl, if_pos stage]
  refine completes_of_trie holds own (by unfold exec execTrieEntry; rfl) head rfl writes rfl fun t words => ⟨?_, fun x other => ?_⟩
  · rw [words, trieWord_setTrie_self, Nat.mod_eq_of_lt (bits_lt ..)]
  · rw [words, trieWord_setTrie_other _ _ other]
    rfl

theorem trieFill_writes (head : muleHead s 0x12 = some d) : completes (.trieFill dt) s fun t => ∀ x, trieWord t x =
    if bits (descWord d 0) 15 0 ≤ x ∧
        x < bits (descWord d 0) 15 0 + min (bits (descWord d 1) 48 32) (65536 - bits (descWord d 0) 15 0) then bits (descWord d 1) 31 0
    else trieWord s x := by
  have op : bits (descWord d 0) 63 56 = 0x12 := descOp_of_muleHead head
  have writes : applyTrie (s.advance dt) (descWord d 0) (descWord d 1) [] = setTrieWords (s.advance dt) (bits (descWord d 0) 15 0)
      (List.replicate (min (bits (descWord d 1) 48 32) (65536 - bits (descWord d 0) 15 0)) (bits (descWord d 1) 31 0)) := by
    unfold applyTrie applyTrieFill
    dsimp only
    rw [op, if_neg (by decide), if_neg (by decide), if_pos rfl]
  refine completes_of_trie holds own (by unfold exec execTrieFill; rfl) head rfl writes (setTrieWords_onlyTrie ..) fun t words x => ?_
  rw [words, trieWord_setTrieWords, List.length_replicate]
  split
  next range =>
    rw [List.getD_eq_getElem _ _ (by rw [List.length_replicate]; omega), List.getElem_replicate, Nat.mod_eq_of_lt (bits_lt ..)]
  next => rfl

theorem trieResult_writes (head : muleHead s 0x13 = some d) : completes (.trieResult dt) s fun t =>
    trieWord t (resultBase + bits (descWord d 0) 15 0) = bits (descWord d 1) 31 0 ∧
      ∀ x, x ≠ resultBase + bits (descWord d 0) 15 0 → trieWord t x = trieWord s x := by
  have op : bits (descWord d 0) 63 56 = 0x13 := descOp_of_muleHead head
  have writes : applyTrie (s.advance dt) (descWord d 0) (descWord d 1) [] =
      setTrie (s.advance dt) (resultBase + bits (descWord d 0) 15 0) (bits (descWord d 1) 31 0) := by
    unfold applyTrie
    dsimp only
    rw [op, if_neg (by decide), if_neg (by decide), if_neg (by decide), if_pos rfl, applyTrieResult]
  refine completes_of_trie holds own (by unfold exec execTrieResult; rfl) head rfl writes rfl fun t words => ⟨?_, fun x other => ?_⟩
  · rw [words, trieWord_setTrie_self, Nat.mod_eq_of_lt (bits_lt ..)]
  · rw [words, trieWord_setTrie_other _ _ other]
    rfl

end TrieCommand

/-! Test lookups (R354, R378). -/

theorem walkFrom_congr {s t : State} (tables : t.tables = s.tables) (addrHi n k base : Nat) :
    walkFrom t addrHi n k base = walkFrom s addrHi n k base := by
  induction n generalizing k base with
  | zero => rfl
  | succ n ih =>
    have word (i : Nat) : trieWord t i = trieWord s i := by rw [trieWord, trieWord, tables]
    unfold walkFrom
    dsimp only
    rw [word, ih]

/-- The key of a test lookup has been written, and a walk that ends in an error counted. -/
def testKeyed (s : State) (key : Nat) : State :=
  (s.set Reg.FWD_TRIE_TEST_KEY.ADDR_HI key).onlyIf (prefixErr s key) fun s => s.bump Reg.FWD_PIPE_STATUS.TRIE_ERR

/-- The answer of a test lookup has been written. -/
def testAnswered (s : State) (found : Bool) (index word : Nat) : State :=
  ((s.setFlag Reg.FWD_TRIE_TEST_RESULT.MATCH found).set Reg.FWD_TRIE_TEST_RESULT.INDEX index).set Reg.FWD_TRIE_TEST_RESULT.WORD word

theorem testKeyed_frame (s : State) {key : Nat} (fits : key < 2 ^ 64) : (testKeyed s key).get Reg.FWD_TRIE_TEST_KEY.ADDR_HI = key ∧
    (testKeyed s key).tables = s.tables ∧ (testKeyed s key).tick = s.tick ∧ (testKeyed s key).pending = s.pending := by
  refine State.onlyIf_keeps (P := fun t => t.get Reg.FWD_TRIE_TEST_KEY.ADDR_HI = key ∧ t.tables = s.tables ∧ t.tick = s.tick ∧
    t.pending = s.pending) _ _ _ ⟨State.get_set_of_lt _ _ fits, rfl, rfl, rfl⟩ fun ⟨shown, rest⟩ => ⟨?_, rest⟩
  exact (State.get_set_other _ _ _ _ (by decide)).trans shown

theorem testAnswered_shows (s : State) (found : Bool) (index word : Nat) :
    (testAnswered s found index word).flag Reg.FWD_TRIE_TEST_RESULT.MATCH = found ∧
      (testAnswered s found index word).get Reg.FWD_TRIE_TEST_RESULT.INDEX = index % 65536 ∧
      (testAnswered s found index word).get Reg.FWD_TRIE_TEST_RESULT.WORD = word % 2 ^ 32 ∧
      (testAnswered s found index word).get Reg.FWD_TRIE_TEST_KEY.ADDR_HI = s.get Reg.FWD_TRIE_TEST_KEY.ADDR_HI := by
  unfold testAnswered
  refine ⟨?_, ?_, State.get_set_self .., ?_⟩
  · rw [State.flag_set_other _ _ _ _ (by decide), State.flag_set_other _ _ _ _ (by decide), State.flag_setFlag_self]
  · rw [State.get_set_other _ _ _ _ (by decide)]
    exact State.get_set_self ..
  · rw [State.get_set_other _ _ _ _ (by decide), State.get_set_other _ _ _ _ (by decide)]
    exact State.get_set_other _ _ _ _ (by decide)

theorem writeTestKey_of_leaf {s : State} {key i : Nat} (leaf : walk (testKeyed s key) key = .leaf i) :
    writeTestKey s key = testAnswered (testKeyed s key) true i (trieWord (testKeyed s key) (resultBase + i)) := by
  unfold testKeyed at leaf ⊢
  unfold writeTestKey
  dsimp only
  rw [leaf]
  rfl

theorem writeTestKey_of_no_leaf {s : State} {key : Nat} (none : ∀ i, walk (testKeyed s key) key ≠ .leaf i) :
    writeTestKey s key = testAnswered (testKeyed s key) false 0 0 := by
  unfold writeTestKey
  dsimp only
  split
  next i leaf => exact absurd leaf (none i)
  next => rfl

section TestLookup
variable {s : State} {dt : Nat} {v : Word}

theorem trieTestLookup_completes {found : Bool} {index word : Nat} (effect : writeTestKey (s.advance dt) v.toNat =
    testAnswered (testKeyed (s.advance dt) v.toNat) found index word) : completes (.trieTestLookup dt v) s fun t =>
      t.get Reg.FWD_TRIE_TEST_KEY.ADDR_HI = v.toNat ∧ t.tables = s.tables ∧
        t.flag Reg.FWD_TRIE_TEST_RESULT.MATCH = found ∧ t.get Reg.FWD_TRIE_TEST_RESULT.INDEX = index % 65536 ∧
          t.get Reg.FWD_TRIE_TEST_RESULT.WORD = word % 2 ^ 32 := by
  obtain ⟨key, tables, clock, queue⟩ := testKeyed_frame (s.advance dt) v.isLt
  generalize testKeyed (s.advance dt) v.toNat = p at effect key tables clock queue
  obtain ⟨found', index', word', key'⟩ := testAnswered_shows p found index word
  exact completes_of_write (k := fun s => writeTestKey s v.toNat) (by unfold exec execTrieTestLookup; rfl) effect clock queue
    ⟨key'.trans key, tables, found', index', word'⟩

theorem walk_testKeyed : walk (testKeyed (s.advance dt) v.toNat) v.toNat = walk s v.toNat := by
  obtain ⟨-, tables, -, -⟩ := testKeyed_frame (s.advance dt) v.isLt
  exact walkFrom_congr tables ..

theorem trieTestLookup_of_leaf {i : Nat} (leaf : walk s v.toNat = .leaf i) : completes (.trieTestLookup dt v) s fun t =>
    t.get Reg.FWD_TRIE_TEST_KEY.ADDR_HI = v.toNat ∧ t.tables = s.tables ∧
      t.flag Reg.FWD_TRIE_TEST_RESULT.MATCH = true ∧ t.get Reg.FWD_TRIE_TEST_RESULT.INDEX = i % 65536 ∧
        t.get Reg.FWD_TRIE_TEST_RESULT.WORD = trieWord s (resultBase + i) % 2 ^ 32 := by
  obtain ⟨-, tables, -, -⟩ := testKeyed_frame (s.advance dt) v.isLt
  have word : trieWord (testKeyed (s.advance dt) v.toNat) (resultBase + i) = trieWord s (resultBase + i) :=
    congrArg (fun x : TableState => Cells.get x.trie (resultBase + i) 0) tables
  rw [← word]
  exact trieTestLookup_completes (writeTestKey_of_leaf (walk_testKeyed.trans leaf))

theorem trieTestLookup_of_no_leaf (none : ∀ i, walk s v.toNat ≠ .leaf i) : completes (.trieTestLookup dt v) s fun t =>
    t.get Reg.FWD_TRIE_TEST_KEY.ADDR_HI = v.toNat ∧ t.tables = s.tables ∧
      t.flag Reg.FWD_TRIE_TEST_RESULT.MATCH = false ∧ t.get Reg.FWD_TRIE_TEST_RESULT.WORD = 0 := by
  have noLeaf : ∀ i, walk (testKeyed (s.advance dt) v.toNat) v.toNat ≠ .leaf i := by rwa [walk_testKeyed]
  obtain ⟨t, run, key, tables, found, -, word⟩ := trieTestLookup_completes (dt := dt) (writeTestKey_of_no_leaf noLeaf)
  exact ⟨t, run, key, tables, found, word⟩

end TestLookup

/-- Settles O39: each descriptor writes the words that it names, in tables or octets that no end of a descriptor touches, and a test
lookup walks the trie as it stands. -/
theorem muleRecordsAndTrie : Obligations.MuleRecordsAndTrie := by
  rintro s dt d v w0 w1 src dst rfl rfl holds
  refine ⟨writeShort_writes holds, writeRecord_copies holds, fun own => ⟨trieNode_writes holds own, trieEntry_writes holds own,
    trieFill_writes holds own, trieResult_writes holds own⟩, ?_⟩
  cases found : walk s v.toNat with
  | leaf i => exact trieTestLookup_of_leaf found
  | none => exact trieTestLookup_of_no_leaf (by simp [found])
  | error => exact trieTestLookup_of_no_leaf (by simp [found])

end Sys2Proof.Machine
end

section
/-!
SUPPORT. The sweeper's visit of a bucket (R344 to R347), its grid (R737) and the learn-event words (R739). Then the statement of
09_node_tables_and_learning.md about them.
-/

namespace Sys2Proof.Machine

/-! What a visit makes of a slot (R345). -/

/-- Does a visit take this slot out: valid, idle and marked before? -/
def Slot.agesOut (v : Slot) : Bool := v.valid && !v.hit && v.aged

/-- A slot after a visit. -/
def Slot.visited (v : Slot) : Slot :=
  if !v.valid then v else if v.hit then { v with hit := false } else if !v.aged then { v with aged := true } else { v with valid := false }

/-- `t` is `a` after visits to the listed slots of a bucket: what each visit does, and what all of them leave. -/
structure swept (a t : State) (b : Nat) (l : List Nat) : Prop where
  rest : { t with fields := a.fields, counters := a.counters, events := a.events, crypto := a.crypto,
                  tables := { t.tables with index := a.tables.index, learn := a.tables.learn } } = a
  learn_le : t.tables.learn.length ≤ a.tables.learn.length + 4 * l.length
  slot_visited : ∀ i ∈ l, slotAt t b i = (slotAt a b i).visited
  slot_other : ∀ i, i ∉ l → slotAt t b i = slotAt a b i
  key_dropped : ∀ i ∈ l, (slotAt a b i).agesOut = true → cachedKey t (slotAt a b i).record = none
  key_absent : ∀ r, cachedKey a r = none → cachedKey t r = none
  aged_out : Cells.get t.counters Ev.AGED_OUT 0 % 2 ^ 48 =
    (Cells.get a.counters Ev.AGED_OUT 0 + l.countP fun i => (slotAt a b i).agesOut) % 2 ^ 48

theorem swept.refl (a : State) (b : Nat) : swept a a b [] where
  rest := rfl
  learn_le := Nat.le_refl _
  slot_visited _ h := absurd h List.not_mem_nil
  slot_other _ _ := rfl
  key_dropped _ h := absurd h List.not_mem_nil
  key_absent _ h := h
  aged_out := rfl

/-- A visit, and then visits to other slots. -/
theorem swept.cons {a m t : State} {b i : Nat} {l : List Nat} (h : swept a m b [i]) (k : swept m t b l) (new : i ∉ l) :
    swept a t b (i :: l) where
  rest := by
    have rest := h.rest
    rw [← k.rest] at rest
    exact rest
  learn_le := by
    have first := h.learn_le
    have others := k.learn_le
    simp only [List.length_cons, List.length_nil] at first ⊢
    omega
  slot_visited j hj := by
    obtain rfl | later := List.mem_cons.1 hj
    · rw [k.slot_other j new, h.slot_visited j (List.mem_singleton_self j)]
    · rw [k.slot_visited j later, h.slot_other j (by rintro hj; exact new (List.mem_singleton.1 hj ▸ later))]
  slot_other j out := by
    obtain ⟨first, others⟩ := not_or.1 (List.mem_cons.not.1 out)
    rw [k.slot_other j others, h.slot_other j (List.mem_singleton.not.2 first)]
  key_dropped j hj ages := by
    obtain rfl | later := List.mem_cons.1 hj
    · exact k.key_absent _ (h.key_dropped j (List.mem_singleton_self j) ages)
    · have same := h.slot_other j (by rintro hj; exact new (List.mem_singleton.1 hj ▸ later))
      rw [← same] at ages ⊢
      exact k.key_dropped j later ages
  key_absent r absent := k.key_absent r (h.key_absent r absent)
  aged_out := by
    have others : l.countP (fun j => (slotAt m b j).agesOut) = l.countP fun j => (slotAt a b j).agesOut :=
      List.countP_congr fun j hj => by rw [h.slot_other j (by rintro h; exact new (List.mem_singleton.1 h ▸ hj))]
    have first := h.aged_out
    have counted := k.aged_out
    rw [others] at counted
    simp only [List.countP_cons, List.countP_nil] at first ⊢
    omega

/-! A visit to one slot. -/

theorem State.count_counter (s : State) (c : Nat) :
    Cells.get (s.count c).counters c 0 % 2 ^ 48 = (Cells.get s.counters c 0 + 1) % 2 ^ 48 := by
  rw [State.count, Cells.get_set_self]
  omega

theorem cachedKey_eq_none {s : State} {r : Nat} :
    cachedKey s r = none ↔ ∀ e ∈ Cells.get s.crypto.cache (r % 1024) [], e.1 ≠ r := by
  simp [cachedKey, List.find?_eq_none]

/-- The ways of the key cache after a record's key has been dropped. -/
theorem mem_ways_dropKey {s : State} {r set : Nat} {e : Nat × List Byte}
    (h : e ∈ Cells.get (dropKey s r).crypto.cache set []) : e ∈ Cells.get s.crypto.cache set [] ∧ (set = r % 1024 → e.1 ≠ r) := by
  change e ∈ Cells.get (Cells.set s.crypto.cache (r % 1024) _ []) set [] at h
  by_cases here : set = r % 1024
  · rw [here, Cells.get_set_self, List.mem_filter, decide_eq_true_eq] at h
    exact ⟨here ▸ h.1, fun _ => h.2⟩
  · rw [Cells.get_set_other _ _ _ _ here] at h
    exact ⟨h, fun same => absurd same here⟩

theorem cachedKey_dropKey_self (s : State) (r : Nat) : cachedKey (dropKey s r) r = none :=
  cachedKey_eq_none.2 fun _ he => (mem_ways_dropKey he).2 rfl

theorem cachedKey_dropKey_absent (s : State) (r : Nat) {x : Nat} (absent : cachedKey s x = none) : cachedKey (dropKey s r) x = none :=
  cachedKey_eq_none.2 fun e he => cachedKey_eq_none.1 absent e (mem_ways_dropKey he).1

section Visit
variable {s : State} {b i : Nat}

/-- A visit that leaves the slot, or writes it and nothing else. -/
theorem swept_of_setSlot {v : Slot} (visited : v = (slotAt s b i).visited) (stays : (slotAt s b i).agesOut = false) :
    swept s (setSlot s b i v) b [i] where
  rest := rfl
  learn_le := Nat.le_add_right ..
  slot_visited j hj := by
    rw [List.mem_singleton.1 hj, slotAt_setSlot_self, visited]
  slot_other j out := slotAt_setSlot_other s v (by have := List.mem_singleton.not.1 out; omega)
  key_dropped j hj ages := by
    rw [List.mem_singleton.1 hj, stays] at ages
    cases ages
  key_absent _ h := h
  aged_out := by
    rw [List.countP_singleton, stays]
    rfl

theorem swept_of_kept (visited : (slotAt s b i).visited = slotAt s b i) (stays : (slotAt s b i).agesOut = false) : swept s s b [i] where
  rest := rfl
  learn_le := Nat.le_add_right ..
  slot_visited j hj := by rw [List.mem_singleton.1 hj, visited]
  slot_other _ _ := rfl
  key_dropped j hj ages := by
    rw [List.mem_singleton.1 hj, stays] at ages
    cases ages
  key_absent _ h := h
  aged_out := by
    rw [List.countP_singleton, stays]
    rfl

/-- A slot has been taken out and its record's key dropped (R299, R346). -/
def takenOut (s : State) (b i : Nat) : State :=
  dropKey (setSlot s b i { slotAt s b i with valid := false }) (slotAt s b i).record

/-- A learn event's words have been entered, and AGED_OUT reported. -/
theorem learnPush_event_frame (m : State) (w0 w1 w2 w3 source arg : Nat) :
    let t := (learnPush m w0 w1 w2 w3).event Ev.AGED_OUT source arg
    { t with fields := m.fields, counters := m.counters, events := m.events, tables := { t.tables with learn := m.tables.learn } } = m ∧
      t.tables.learn.length = m.tables.learn.length + 4 ∧ t.tables.index = m.tables.index ∧ t.crypto = m.crypto ∧
      t.counters = (m.count Ev.AGED_OUT).counters := by
  have pushed : { learnPush m w0 w1 w2 w3 with tables := m.tables } = m := rfl
  have tables : (learnPush m w0 w1 w2 w3).tables =
    { m.tables with learn := m.tables.learn ++
      [{ data := w0, sop := true }, { data := w1 }, { data := w2 }, { data := w3, eop := true }] } := rfl
  dsimp only
  generalize learnPush m w0 w1 w2 w3 = p at pushed tables
  have rest := State.event_frame p Ev.AGED_OUT source arg
  have counters := State.event_counters p Ev.AGED_OUT source arg
  generalize p.event Ev.AGED_OUT source arg = t at rest counters
  have tables' := congrArg State.tables rest
  have crypto' := congrArg State.crypto rest
  have crypto := congrArg State.crypto pushed
  have still := congrArg State.counters pushed
  change t.tables = p.tables at tables'
  change t.crypto = p.crypto at crypto'
  change p.crypto = m.crypto at crypto
  change p.counters = m.counters at still
  refine ⟨?_, ?_, ?_, crypto'.trans crypto, counters.trans ?_⟩
  · rw [← rest] at pushed
    have all := congrArg (fun u : State => { u with fields := m.fields, counters := m.counters, events := m.events }) pushed
    rw [tables', tables]
    exact all
  · rw [tables', tables, List.length_append]
    rfl
  · rw [tables', tables]
  · simp only [State.count, still]

/-- A visit that takes the slot out. -/
theorem swept_of_takenOut (ages : (slotAt s b i).agesOut = true) (w0 w1 w2 w3 source arg : Nat) :
    swept s ((learnPush (takenOut s b i) w0 w1 w2 w3).event Ev.AGED_OUT source arg) b [i] := by
  have slots : onlySlots s (takenOut s b i) := (onlySlots.setSlot ..).trans (.dropKey ..)
  obtain ⟨-, -, -, still, tables⟩ := slots.frame
  obtain ⟨rest, learned, index, crypto, counters⟩ := learnPush_event_frame (takenOut s b i) w0 w1 w2 w3 source arg
  generalize (learnPush (takenOut s b i) w0 w1 w2 w3).event Ev.AGED_OUT source arg = t at rest learned index crypto counters
  have learn := congrArg TableState.learn tables
  change (takenOut s b i).tables.learn = s.tables.learn at learn
  have slot (j : Nat) : slotAt t b j = slotAt (setSlot s b i { slotAt s b i with valid := false }) b j :=
    congrArg (fun x => Cells.get x (4 * b + j) ({} : Slot)) index
  have key (r : Nat) : cachedKey t r = cachedKey (takenOut s b i) r := by
    rw [cachedKey, cachedKey, crypto]
  have visited : (slotAt s b i).visited = { slotAt s b i with valid := false } := by
    simp only [Slot.agesOut, Bool.and_eq_true, Bool.not_eq_true'] at ages
    obtain ⟨⟨valid, hit⟩, aged⟩ := ages
    simp [Slot.visited, valid, hit, aged]
  exact {
    rest := by
      unfold onlySlots at slots
      rw [← rest] at slots
      exact slots
    learn_le := by
      rw [learned, learn]
      exact Nat.le_refl _
    slot_visited := fun j hj => by rw [List.mem_singleton.1 hj, slot, slotAt_setSlot_self, visited]
    slot_other := fun j out => (slot j).trans (slotAt_setSlot_other s _ (by have := List.mem_singleton.not.1 out; omega))
    key_dropped := fun j hj _ => by
      rw [List.mem_singleton.1 hj, key]
      exact cachedKey_dropKey_self ..
    key_absent := fun r absent => (key r).trans (cachedKey_dropKey_absent _ _ absent)
    aged_out := by rw [List.countP_singleton, ages, counters, State.count_counter, still, if_pos rfl] }

/-- A visit to a slot that no lookup hits in the same cycle, with room in the LEARN FIFO. -/
theorem sweepSlot_swept (quiet : s.tables.hitTick ≠ s.tick) (room : learnRoom s = true) :
    ∃ t, sweepSlot s b i = some t ∧ swept s t b [i] := by
  unfold sweepSlot hitNow
  dsimp only
  rw [decide_eq_false quiet, Bool.false_and, Bool.or_false, room, if_neg (c := (!true) = true) (by decide)]
  split
  next free =>
    have valid : (slotAt s b i).valid = false := by simpa using free
    exact ⟨s, rfl, swept_of_kept (by simp [Slot.visited, valid]) (by simp [Slot.agesOut, valid])⟩
  next full =>
    have valid : (slotAt s b i).valid = true := by simpa using full
    split
    next hit => exact ⟨_, rfl, swept_of_setSlot (by simp [Slot.visited, valid, hit]) (by simp [Slot.agesOut, hit])⟩
    next idle =>
      split
      next fresh =>
        have aged : (slotAt s b i).aged = false := by simpa using fresh
        exact ⟨_, rfl, swept_of_setSlot (by simp [Slot.visited, valid, idle, aged]) (by simp [Slot.agesOut, aged])⟩
      next marked =>
        have aged : (slotAt s b i).aged = true := by simpa using marked
        exact ⟨_, rfl, swept_of_takenOut (by simp [Slot.agesOut, valid, idle, aged]) ..⟩

end Visit

/-! A visit to a bucket (R344, R345). -/

/-- The sweeper moves on from a bucket. -/
def movedOn (s : State) (b : Nat) : State :=
  (s.set Reg.FWD_IDX_STATUS.SWEEP_POS (b + 1)).setTables { s.tables with sweepDone := s.tables.sweepDone + 1, sweepAt := 0 }

theorem swept.frame {a t : State} {b : Nat} {l : List Nat} (h : swept a t b l) : t.tick = a.tick ∧ t.pending = a.pending ∧
    t.tables.hitTick = a.tables.hitTick ∧ t.tables.sweepDone = a.tables.sweepDone := by
  have clock := congrArg State.tick h.rest
  have queue := congrArg State.pending h.rest
  have hit := congrArg (·.tables.hitTick) h.rest
  have made := congrArg (·.tables.sweepDone) h.rest
  exact ⟨clock, queue, hit, made⟩

/-- With no lookup in the same cycle and room for every learn event, all the slots listed are visited. -/
theorem sweepFrom_visits {s : State} {b : Nat} {l : List Nat} (once : l.Nodup) (quiet : s.tables.hitTick ≠ s.tick)
    (room : s.tables.learn.length + 4 * l.length ≤ 32768) : ∃ t, sweepFrom s b l = movedOn t b ∧ swept s t b l := by
  induction l generalizing s with
  | nil => exact ⟨s, rfl, .refl s b⟩
  | cons i l ih =>
    obtain ⟨new, once⟩ := List.nodup_cons.1 once
    rw [List.length_cons] at room
    obtain ⟨m, visit, here⟩ := sweepSlot_swept (b := b) (i := i) quiet (decide_eq_true (by omega))
    obtain ⟨clock, -, hit, -⟩ := here.frame
    have learned := here.learn_le
    rw [List.length_singleton] at learned
    obtain ⟨t, others, there⟩ := ih once (by rwa [hit, clock]) (by omega)
    refine ⟨t, ?_, here.cons there new⟩
    rw [sweepFrom, visit]
    exact others

section Sweep
variable {s : State} {dt b : Nat}

/-- A visit that is due to a bucket that is not locked visits its four slots. -/
theorem sweepVisit_visits (pos : b = s.get Reg.FWD_IDX_STATUS.SWEEP_POS) (due : sweepDue (s.advance dt) = true)
    (free : bucketLocked s b = false) (quiet : s.tables.hitTick ≠ (s.advance dt).tick) (start : s.tables.sweepAt = 0)
    (empty : s.tables.learn = []) : completes (.sweepVisit dt) s fun t =>
      t.get Reg.FWD_IDX_STATUS.SWEEP_POS = (b + 1) % 2 ^ 17 ∧ t.tables.sweepDone = s.tables.sweepDone + 1 ∧
        ∃ m, swept (s.advance dt) m b (List.range 4) ∧ t.tables.index = m.tables.index ∧ t.counters = m.counters ∧
          t.crypto = m.crypto := by
  subst pos
  have free : bucketLocked (s.advance dt) ((s.advance dt).get Reg.FWD_IDX_STATUS.SWEEP_POS) = false := free
  have start : (s.advance dt).tables.sweepAt = 0 := start
  have room : (s.advance dt).tables.learn.length + 4 * (List.range 4).length ≤ 32768 := by
    rw [show (s.advance dt).tables.learn = [] from empty]
    decide
  obtain ⟨m, effect, visited⟩ := sweepFrom_visits (s := s.advance dt) (b := s.get Reg.FWD_IDX_STATUS.SWEEP_POS)
    (List.nodup_range (n := 4)) quiet room
  obtain ⟨clock, queue, -, made⟩ := visited.frame
  refine completes_of_whenever (r := movedOn m (s.get Reg.FWD_IDX_STATUS.SWEEP_POS)) (by unfold exec execSweepVisit; rfl) ?_ ?_
    clock queue ⟨State.get_set_self .., congrArg (· + 1) made, m, visited, rfl, rfl, rfl⟩
  · rw [due, free]
    rfl
  · rw [start]
    exact effect

/-- What the visit to a bucket has made of one of its slots (R345, R346). -/
theorem swept_slot {a m : State} (visited : swept a m b (List.range 4)) (k : Fin 4) :
    ((slotAt a b k).valid = false → slotAt m b k = slotAt a b k) ∧
      ((slotAt a b k).valid = true → (slotAt a b k).hit = true → slotAt m b k = { slotAt a b k with hit := false }) ∧
      ((slotAt a b k).valid = true → (slotAt a b k).hit = false → (slotAt a b k).aged = false →
        slotAt m b k = { slotAt a b k with aged := true }) ∧
      ((slotAt a b k).valid = true → (slotAt a b k).hit = false → (slotAt a b k).aged = true →
        (slotAt m b k).valid = false ∧ Cells.get m.counters Ev.AGED_OUT 0 ≠ Cells.get a.counters Ev.AGED_OUT 0 ∧
          cachedKey m (slotAt a b k).record = none) := by
  have listed : k.val ∈ List.range 4 := List.mem_range.2 k.isLt
  rw [visited.slot_visited k listed]
  refine ⟨fun valid => by simp [Slot.visited, valid], fun valid hit => by simp [Slot.visited, valid, hit],
    fun valid hit aged => by simp [Slot.visited, valid, hit, aged], fun valid hit aged => ?_⟩
  have ages : (slotAt a b k).agesOut = true := by simp [Slot.agesOut, valid, hit, aged]
  refine ⟨by simp [Slot.visited, valid, hit, aged], fun same => ?_, visited.key_dropped k listed ages⟩
  have some : 0 < (List.range 4).countP fun i => (slotAt a b i).agesOut := List.countP_pos_iff.2 ⟨k, listed, ages⟩
  have few : ((List.range 4).countP fun i => (slotAt a b i).agesOut) ≤ 4 := List.countP_le_length
  have counted := visited.aged_out
  rw [same] at counted
  omega

/-! The grid and the learn-event words (R737, R739). -/

theorem writeIdxCtrl_onlyRegs (s : State) (v : Nat) : onlyRegs s { writeIdxCtrl s v with tables := s.tables }
    [Reg.FWD_IDX_CTRL.SWEEP_EN, Reg.FWD_IDX_CTRL.JOIN_HOLD, Reg.FWD_IDX_CTRL.SWEEP_PERIOD] :=
  onlyRegs_trans (onlyRegs_trans (State.set_onlyRegs s (f := Reg.FWD_IDX_CTRL.SWEEP_EN) (by simp) _)
    (State.set_onlyRegs _ (f := Reg.FWD_IDX_CTRL.JOIN_HOLD) (by simp) _))
    (State.set_onlyRegs _ (f := Reg.FWD_IDX_CTRL.SWEEP_PERIOD) (by simp) _)

theorem sweepCtrlWrite_restarts {v : Word} : completes (.sweepCtrlWrite dt v) s fun t =>
    t.flag Reg.FWD_IDX_CTRL.SWEEP_EN = v.getLsbD 63 ∧ t.get Reg.FWD_IDX_CTRL.SWEEP_PERIOD = bits v.toNat 16 0 ∧
      t.tables.sweepTick = (s.advance dt).tick ∧ t.tables.sweepDone = 0 ∧
        onlyRegsAnswered (s.advance dt) { t with tables := s.tables }
          [Reg.FWD_IDX_CTRL.SWEEP_EN, Reg.FWD_IDX_CTRL.JOIN_HOLD, Reg.FWD_IDX_CTRL.SWEEP_PERIOD] := by
  have enabled : (writeIdxCtrl (s.advance dt) v.toNat).flag Reg.FWD_IDX_CTRL.SWEEP_EN = v.getLsbD 63 := by
    rw [← bit_toNat]
    exact (State.flag_set_other _ _ _ _ (by decide)).trans
      ((State.flag_set_other _ _ _ _ (by decide)).trans (State.flag_setFlag_self ..))
  have period : (writeIdxCtrl (s.advance dt) v.toNat).get Reg.FWD_IDX_CTRL.SWEEP_PERIOD = bits v.toNat 16 0 :=
    State.get_set_of_lt _ _ (bits_lt ..)
  exact completes_of_write (k := fun s => writeIdxCtrl s v.toNat) (by unfold exec execSweepCtrlWrite; rfl) rfl rfl rfl
    ⟨enabled, period, rfl, rfl, onlyRegsAnswered_of_onlyRegs (writeIdxCtrl_onlyRegs (s.advance dt) v.toNat) 0⟩

/-- The state of a packet's word has been shown in the learn status register. -/
def learnShown (s : State) (w : FifoWord) : State :=
  ((s.setFlag Reg.FWD_LEARN_STATUS.SOP w.sop).setFlag Reg.FWD_LEARN_STATUS.EOP w.eop).setFlag Reg.FWD_LEARN_STATUS.POISON false

theorem learnShown_onlyRegs (s : State) (w : FifoWord) : onlyRegs s (learnShown s w)
    [Reg.FWD_LEARN_STATUS.SOP, Reg.FWD_LEARN_STATUS.EOP, Reg.FWD_LEARN_STATUS.POISON] :=
  onlyRegs_trans (onlyRegs_trans (State.set_onlyRegs s (f := Reg.FWD_LEARN_STATUS.SOP) (by simp) _)
    (State.set_onlyRegs _ (f := Reg.FWD_LEARN_STATUS.EOP) (by simp) _))
    (State.set_onlyRegs _ (f := Reg.FWD_LEARN_STATUS.POISON) (by simp) _)

theorem fwdLearnWordPop_pops {w : FifoWord} {rest : List FifoWord} (head : s.tables.learn = w :: rest) :
    completes (.fwdLearnWordPop dt .ok) s fun t => t.bus.data = w.data ∧ t.tables.learn = rest ∧
      t.flag Reg.FWD_LEARN_STATUS.SOP = w.sop ∧ t.flag Reg.FWD_LEARN_STATUS.EOP = w.eop ∧
        onlyRegsAnswered (s.advance dt) { t with tables := s.tables, q := s.q }
          [Reg.FWD_LEARN_STATUS.SOP, Reg.FWD_LEARN_STATUS.EOP, Reg.FWD_LEARN_STATUS.POISON] := by
  have headA : (s.advance dt).tables.learn = w :: rest := head
  have effect : learnPop (s.advance dt) .ok = (({ learnShown (s.advance dt) w with
      tables := { s.tables with learn := rest }
      q := { s.q with midRead := (s.q.midRead.filter (· ≠ Fifo.LEARN)) ++ (if w.eop then [] else [Fifo.LEARN]) } } : State).answer
        w.data) := by
    unfold learnPop
    rw [headA]
    rfl
  have sop : (learnShown (s.advance dt) w).flag Reg.FWD_LEARN_STATUS.SOP = w.sop :=
    (State.flag_setFlag_other _ _ _ _ (by decide)).trans
      ((State.flag_setFlag_other _ _ _ _ (by decide)).trans (State.flag_setFlag_self ..))
  have eop : (learnShown (s.advance dt) w).flag Reg.FWD_LEARN_STATUS.EOP = w.eop :=
    (State.flag_setFlag_other _ _ _ _ (by decide)).trans (State.flag_setFlag_self ..)
  exact completes_of_effect (k := fun s => learnPop s .ok) (by unfold exec execFwdLearnWordPop; rfl) effect rfl rfl
    ⟨rfl, rfl, sop, eop, onlyRegsAnswered_of_onlyRegs (learnShown_onlyRegs (s.advance dt) w) w.data⟩

end Sweep

/-- Settles O40: the visits to the four slots of a bucket are independent of each other, and neither a write of the grid nor a pop of a
word touches more than its own registers and tables. -/
theorem sweeperAndLearning : Obligations.SweeperAndLearning := by
  rintro s _ dt b v w rest rfl pos
  refine ⟨fun due free quiet start empty => ?_, sweepCtrlWrite_restarts, fwdLearnWordPop_pops⟩
  obtain ⟨t, run, moved, made, m, visited, index, counters, crypto⟩ := sweepVisit_visits pos due free quiet start empty
  refine ⟨t, run, moved, made, fun k => ?_⟩
  have slot : slotAt t b k = slotAt m b k := congrArg (fun x => Cells.get x (4 * b + k) ({} : Slot)) index
  have key : cachedKey t (slotAt s b k).record = cachedKey m (slotAt s b k).record := by rw [cachedKey, cachedKey, crypto]
  rw [slot, counters, key]
  exact swept_slot visited k

end Sys2Proof.Machine
end
